-- ==== Sys2Proof/Word.lean ====
section
/-!
DEFINITION. The word types of the device and their plainest arithmetic: bytes, 16-, 32- and 64-bit words
(R6: every multi-byte value is little-endian), and instants of schedule time in whole nanoseconds.
-/
namespace Sys2Proof

/-- One byte. -/
abbrev Byte := BitVec 8
/-- A 16-bit halfword. -/
abbrev Half := BitVec 16
/-- A 32-bit register or field. -/
abbrev Word := BitVec 32
/-- A 64-bit count. -/
abbrev Dword := BitVec 64
/-- A counter of the time unit: 64 bits of whole nanoseconds above 32 bits of fraction (R28). -/
abbrev TimeFix := BitVec 96

/-- The value of a little-endian byte string (R6). -/
def leNat : List Byte → Nat
  | [] => 0
  | b :: bs => b.toNat + 256 * leNat bs

/-- The `n` bytes of a value, least significant first (R6). -/
def natLe : Nat → Nat → List Byte
  | 0, _ => []
  | n + 1, v => BitVec.ofNat 8 v :: natLe n (v / 256)

@[simp] theorem natLe_length (n v : Nat) : (natLe n v).length = n := by
  induction n generalizing v with
  | zero => rfl
  | succ n ih => simp [natLe, ih]

/-- The bit `i` of a natural number. -/
def bitOf (v i : Nat) : Bool := v.testBit i

/-- A flag as the number its bit holds. -/
def b2n (b : Bool) : Nat := if b then 1 else 0

/-- The signed value of an `n`-bit two's-complement pattern given as a number. -/
def signedOf (n v : Nat) : Int :=
  if v % 2 ^ n < 2 ^ (n - 1) then (v % 2 ^ n : Nat) else (v % 2 ^ n : Nat) - (2 ^ n : Nat)

/-- The `n`-bit two's-complement pattern of an integer, as a number. -/
def patOf (n : Nat) (v : Int) : Nat := (v % (2 ^ n : Nat)).toNat

/-- A quotient rounded up. -/
def ceilDiv (a b : Nat) : Nat := if b = 0 then 0 else (a + b - 1) / b

/-- The bytes from offset `o`, `n` of them, read as a little-endian number; bytes past the end read as zero. -/
def fieldAt (bs : List Byte) (o n : Nat) : Nat := leNat ((bs.drop o).take n)

end Sys2Proof
end

