-- ==== Sys2Proof/Syntax.lean ====
section
/-!
DEFINITION. The commands, operations and events of the device: one constructor of `Instr` per row of
spec/opcode_table.json. A mailbox command carries its submission entry (R345); its row fixes the entry's opcode.
A schedule operation names its sequencer only: the operands are those of the next operation of that sequencer's
section in the running span image (R64). An event carries what its surroundings supply: levels, packets, readings and
the outcome of a hardware check.
-/
namespace Sys2Proof

/-- A submission entry without its opcode, which the row of the command fixes (R345): the mailbox that holds it, the
header fields, and the 240 payload bytes. -/
structure Entry where
  mbx : Fin 8
  tag : Half
  partition : Byte
  flags : Byte
  reserved : Half
  bulkOffset : Word
  bulkLength : Word
  payload : List Byte
  deriving DecidableEq, Repr

/-- A host port frame as it arrived between the fall and the rise of `OSPI_CS_N` (R327, R328). In 1S-1S-1S only
`opcode`, `addr`, `data` and `clocks` are on the wire. `crc` is the trailer the host sent. In a read, `data` gives by its length how
many bytes the host clocks out. -/
structure Frame where
  opcode : Byte
  complement : Byte
  addr : Word
  len : Half
  data : List Byte
  crc : Half
  clocks : Nat
  deriving DecidableEq, Repr

/-- A register as its reader or writer names it: a direct register of the host window (R334), or a block register by
slot and offset (R14), which only Rokan firmware, or an unlocked debug port, reaches. -/
inductive RegAddr where
  | direct (off : BitVec 12)
  | block (slot : Byte) (off : BitVec 20)
  deriving DecidableEq, Repr

/-- The sequencer targets of R60; the stream manager has one sequencer for each partition. -/
inductive Target where
  | core (n : Fin 8)
  | pw | fe | trk | fth | fld | fus | slv | ps | ife | mv
  | sm (p : Fin 4)
  deriving DecidableEq, Repr

/-- The unit of a target that runs an operation. A core has three that run at once (R173); any other target one. -/
inductive OpUnit where
  | main | vector | dma
  deriving DecidableEq, Repr

/-- What the checking hardware and the error-correcting memories find while an operation or a step runs (R175, R222,
R248, R269, R296, R301, R414): nothing; a residue mismatch whose rerun passes, or whose rerun fails too; a corrected or an
uncorrectable SRAM word or DRAM line. -/
inductive Check where
  | clean
  | once (unitCode : Byte)
  | twice (unitCode : Byte)
  | sramCorrected
  | sramBad (addr : Word)
  | dramCorrected (addr : Nat)
  | dramBad (addr : Nat)
  deriving DecidableEq, Repr

/-- What a CSI-2 receiver finds of a packet (R102). -/
inductive LinkCheck where
  | clean | payloadCrc | headerBad
  deriving DecidableEq, Repr

/-- What the DRAM code finds of a line (R301). -/
inductive LineCheck where
  | clean | corrected | bad
  deriving DecidableEq, Repr

/-- What a flash page read gives (R316): decoded at once, decoded by read-retry, not decoded, decoded with a bad CRC, or
decoded with an epoch that neither key slot holds. -/
inductive FlashRead where
  | decoded | worn | retried | failed | badCrc | badEpoch
  deriving DecidableEq, Repr

/-- The two disciplined bases (R28). -/
inductive Base where
  | tbA | tbB
  deriving DecidableEq, Repr

/-- The two Ethernet ports. -/
inductive EthPort where
  | portA | portB
  deriving DecidableEq, Repr

/-- What an unlocked debugger does (R411). -/
inductive DebugAct where
  | halt | resume | step
  | writeReg (slot : Byte) (off : BitVec 20) (v : Word)
  deriving DecidableEq, Repr

/-- One constructor per row of spec/opcode_table.json; each docstring gives the row and its rule. -/
inductive Instr where
  /-- WRITE (R331) -/
  | write (f : Frame)
  /-- READ (R329) -/
  | read (f : Frame) (staged : Bool)
  /-- READ_ID (R327) -/
  | readId
  /-- WAKE (R393) -/
  | wake
  /-- PORT_RESET (R326) -/
  | portReset
  /-- HOST_PORT_MODE_WRITE (R326) -/
  | hostPortModeWrite (v : Word)
  /-- MBX_DOORBELL_WRITE (R336) -/
  | mbxDoorbellWrite (n : Fin 8) (v : Word)
  /-- MBX_COPY (R336) -/
  | mbxCopy (n : Fin 8)
  /-- CQ_HEAD_WRITE (R337) -/
  | cqHeadWrite (n : Fin 8) (v : Word)
  /-- IRQ_STATUS_WRITE (R338) -/
  | irqStatusWrite (v : Word)
  /-- REGISTER_WRITE (R8) -/
  | registerWrite (a : RegAddr) (v : Word)
  /-- RC_FIELD_READ (R8) -/
  | rcFieldRead (a : RegAddr)
  /-- LATCHING_LO_READ (R51) -/
  | latchingLoRead (a : RegAddr)
  /-- SYS_NOP (R356) -/
  | sysNop (e : Entry)
  /-- SYS_STATUS (R356) -/
  | sysStatus (e : Entry)
  /-- SYS_RESET (R356) -/
  | sysReset (e : Entry)
  /-- SYS_RESET_DELAY_EXPIRY (R432) -/
  | sysResetDelayExpiry
  /-- SYS_PARK (R391) -/
  | sysPark (e : Entry)
  /-- PARK_ENTRY (R391) -/
  | parkEntry
  /-- WAKE_COMPLETE (R393) -/
  | wakeComplete
  /-- SCHED_LOAD (R66) -/
  | schedLoad (e : Entry)
  /-- SCHED_START (R57) -/
  | schedStart (e : Entry)
  /-- SCHED_STOP (R81) -/
  | schedStop (e : Entry)
  /-- SCHED_SELECT (R77) -/
  | schedSelect (e : Entry)
  /-- SCHED_UNLOAD (R81) -/
  | schedUnload (e : Entry)
  /-- SCHED_STATUS (R356) -/
  | schedStatus (e : Entry)
  /-- PART_GRANT (R356) -/
  | partGrant (e : Entry)
  /-- PART_RELEASE (R356) -/
  | partRelease (e : Entry)
  /-- PART_STATUS (R356) -/
  | partStatus (e : Entry)
  /-- PART_SCRUB_DONE (R407) -/
  | partScrubDone (p : Fin 4)
  /-- KEY_ROTATE (R320) -/
  | keyRotate (e : Entry)
  /-- KEY_STATUS (R356) -/
  | keyStatus (e : Entry)
  /-- ATTEST_REPORT (R409) -/
  | attestReport (e : Entry)
  /-- ATTEST_CERTS (R409) -/
  | attestCerts (e : Entry)
  /-- FW_WRITE (R403) -/
  | fwWrite (e : Entry)
  /-- FW_ACTIVATE (R403) -/
  | fwActivate (e : Entry)
  /-- FW_STATUS (R356) -/
  | fwStatus (e : Entry)
  /-- PWR_CAP (R383) -/
  | pwrCap (e : Entry)
  /-- PWR_STATUS (R356) -/
  | pwrStatus (e : Entry)
  /-- REC_SUBSCRIBE (R362) -/
  | recSubscribe (e : Entry)
  /-- REC_READ (R356) -/
  | recRead (e : Entry)
  /-- DIAG_ECHO (R356) -/
  | diagEcho (e : Entry)
  /-- DIAG_READ_BLOCK (R356) -/
  | diagReadBlock (e : Entry)
  /-- STREAM_CONFIG (R88) -/
  | streamConfig (e : Entry)
  /-- STREAM_COMMIT (R88) -/
  | streamCommit (e : Entry)
  /-- STREAM_STATUS (R357) -/
  | streamStatus (e : Entry)
  /-- STREAM_IFE_CONFIG (R110) -/
  | streamIfeConfig (e : Entry)
  /-- STREAM_SYNC (R123) -/
  | streamSync (e : Entry)
  /-- STREAM_SYNC_MODE (R123) -/
  | streamSyncMode (e : Entry)
  /-- TIME_CONFIG (R357) -/
  | timeConfig (e : Entry)
  /-- TIME_ALIGN (R29) -/
  | timeAlign (e : Entry)
  /-- TIME_SELECT (R33) -/
  | timeSelect (e : Entry)
  /-- TIME_GET (R35) -/
  | timeGet (e : Entry)
  /-- TIME_TRIG_SET (R46) -/
  | timeTrigSet (e : Entry)
  /-- TIME_SET_TOD (R50) -/
  | timeSetTod (e : Entry)
  /-- POSE_INIT (R230) -/
  | poseInit (e : Entry)
  /-- POSE_ALIGN_DONE (R230) -/
  | poseAlignDone
  /-- POSE_CONFIG (R252) -/
  | poseConfig (e : Entry)
  /-- POSE_SUBSCRIBE (R363) -/
  | poseSubscribe (e : Entry)
  /-- POSE_GET (R357) -/
  | poseGet (e : Entry)
  /-- TRACK_READ (R357) -/
  | trackRead (e : Entry)
  /-- TRACK_DELETE (R229) -/
  | trackDelete (e : Entry)
  /-- TRACK_LIST (R357) -/
  | trackList (e : Entry)
  /-- MAP_CONFIG (R357) -/
  | mapConfig (e : Entry)
  /-- MAP_TRAIN (R218) -/
  | mapTrain (e : Entry)
  /-- MAP_ACRE_DELETE (R219) -/
  | mapAcreDelete (e : Entry)
  /-- MAP_STATUS (R357) -/
  | mapStatus (e : Entry)
  /-- PLACE_CREATE (R275) -/
  | placeCreate (e : Entry)
  /-- PLACE_QUERY (R285) -/
  | placeQuery (e : Entry)
  /-- PLACE_INSERT (R288) -/
  | placeInsert (e : Entry)
  /-- PLACE_DELETE (R290) -/
  | placeDelete (e : Entry)
  /-- PLACE_COMPACT (R291) -/
  | placeCompact (e : Entry)
  /-- PLACE_DESTROY (R358) -/
  | placeDestroy (e : Entry)
  /-- PLACE_STATUS (R358) -/
  | placeStatus (e : Entry)
  /-- SCENE_LAST_SEEN (R358) -/
  | sceneLastSeen (e : Entry)
  /-- SCENE_RESEMBLE (R358) -/
  | sceneResemble (e : Entry)
  /-- SCENE_IN_REGION (R358) -/
  | sceneInRegion (e : Entry)
  /-- MODEL_LOAD (R360) -/
  | modelLoad (e : Entry)
  /-- MODEL_INFO (R358) -/
  | modelInfo (e : Entry)
  /-- OBJ_LOAD (R360) -/
  | objLoad (e : Entry)
  /-- OBJ_PLACE (R308) -/
  | objPlace (e : Entry)
  /-- OBJ_PROMOTE (R307) -/
  | objPromote (e : Entry)
  /-- OBJ_PIN (R306) -/
  | objPin (e : Entry)
  /-- OBJ_UNPIN (R306) -/
  | objUnpin (e : Entry)
  /-- OBJ_EVICT (R308) -/
  | objEvict (e : Entry)
  /-- OBJ_UNLOAD (R308) -/
  | objUnload (e : Entry)
  /-- OBJ_STATUS (R308) -/
  | objStatus (e : Entry)
  /-- NOP (R65) -/
  | nop (t : Target)
  /-- WAIT (R65) -/
  | waitOp (t : Target)
  /-- SETF (R65) -/
  | setf (t : Target)
  /-- BARRIER (R65) -/
  | barrier (t : Target)
  /-- DMA (R459) -/
  | dma (t : Target) (chk : Check)
  /-- END (R65) -/
  | endOp (t : Target)
  /-- OP_COMPLETE (R67) -/
  | opComplete (t : Target) (u : OpUnit)
  /-- OP_VOID_SKIP (R69) -/
  | opVoidSkip (t : Target)
  /-- SCHED_OVERRUN (R70) -/
  | schedOverrun (t : Target)
  /-- BALLAST_RAMP_START (R72) -/
  | ballastRampStart
  /-- SCHED_LATCH (R73) -/
  | schedLatch
  /-- SPAN_BOUNDARY (R74) -/
  | spanBoundary
  /-- TIME_CYCLE (R34) -/
  | timeCycle (n : Nat)
  /-- TB_OFFSET_HI_WRITE (R31) -/
  | tbOffsetHiWrite (b : Base) (v : Word)
  /-- BASE_TIMEOUT (R32) -/
  | baseTimeout (b : Base)
  /-- PPS_IN_EDGE (R49) -/
  | ppsInEdge
  /-- PPS_LOST (R49) -/
  | ppsLost
  /-- TRIG_PULSE_START (R47) -/
  | trigPulseStart (n : Fin 16)
  /-- TRIG_PULSE_END (R47) -/
  | trigPulseEnd (n : Fin 16)
  /-- PPS_OUT_EDGE (R48) -/
  | ppsOutEdge
  /-- PPS_OUT_END (R48) -/
  | ppsOutEnd
  /-- ETH_FRAME_RECEIVE (R103) -/
  | ethFrameReceive (p : EthPort) (frame : List Byte) (fcsOk : Bool)
  /-- BRIDGE_FORWARD (R45) -/
  | bridgeForward (p : EthPort) (frame : List Byte) (residence : Nat)
  /-- CSI2_FRAME_START (R99) -/
  | csi2FrameStart (g : Fin 4) (vc : Fin 16)
  /-- CSI2_LONG_PACKET (R102) -/
  | csi2LongPacket (g : Fin 4) (vc : Fin 16) (dataType : Byte) (data : List Byte) (link : LinkCheck)
  /-- CSI2_FRAME_END (R102) -/
  | csi2FrameEnd (g : Fin 4) (vc : Fin 16)
  /-- DRDY_EDGE (R105) -/
  | drdyEdge (line : Fin 8) (rising : Bool)
  /-- SPI_POLL_PERIOD (R105) -/
  | spiPollPeriod (ch : Fin 32)
  /-- SPI_TRANSACTION_DONE (R105) -/
  | spiTransactionDone (ctl : Fin 4) (data : List Byte)
  /-- IFE_RECORD_COMPLETE (R117) -/
  | ifeRecordComplete (n : Fin 4)
  /-- SYNC_IN_RISE (R121) -/
  | syncInRise
  /-- SYNC_IN_RELEASE (R121) -/
  | syncInRelease
  /-- IFE_SYNC_STUCK (R122) -/
  | ifeSyncStuck
  /-- ENC_TRANSITION (R125) -/
  | encTransition (e : Fin 8) (a b : Bool)
  /-- ENC_Z_EDGE (R125) -/
  | encZEdge (e : Fin 8)
  /-- ENC_SAMPLE (R125) -/
  | encSample (e : Fin 8)
  /-- ENC_RECORD_COMPLETE (R127) -/
  | encRecordComplete (e : Fin 8)
  /-- TAKE (R95) -/
  | take (p : Fin 4)
  /-- RELEASE (R95) -/
  | release (p : Fin 4)
  /-- IFE_EMIT (R120) -/
  | ifeEmit
  /-- PW_WARP (R138) -/
  | pwWarp
  /-- PW_PYRAMID (R139) -/
  | pwPyramid
  /-- FE_DETECT (R140) -/
  | feDetect
  /-- TRK_RUN (R147) -/
  | trkRun
  /-- FTH_STRIPE (R150) -/
  | fthStripe
  /-- ARR_MM (R161) -/
  | arrMm (c : Fin 8) (chk : Check)
  /-- ARR_CONV (R161) -/
  | arrConv (c : Fin 8) (chk : Check)
  /-- VEC_OP (R170) -/
  | vecOp (c : Fin 8) (chk : Check)
  /-- FLD_RAYS (R212) -/
  | fldRays (chk : Check)
  /-- FLD_GATHER (R207) -/
  | fldGather (chk : Check)
  /-- FLD_COMPOSITE (R208) -/
  | fldComposite (chk : Check)
  /-- FLD_SCATTER (R215) -/
  | fldScatter (chk : Check)
  /-- FLD_ADAM (R216) -/
  | fldAdam (chk : Check)
  /-- FLD_COMPARE (R211) -/
  | fldCompare (chk : Check)
  /-- FLD_REPLAY (R217) -/
  | fldReplay (chk : Check)
  /-- FLD_SLOT_FILL (R204) -/
  | fldSlotFill
  /-- FLD_DIR_COMMIT (R203) -/
  | fldDirCommit
  /-- FLD_ABSENT_CLEAR (R213) -/
  | fldAbsentClear
  /-- FUS_INERTIAL (R232) -/
  | fusInertial
  /-- INERTIAL_RECORD_PROPAGATE (R232) -/
  | inertialRecordPropagate (n : Fin 4) (chk : Check)
  /-- FUS_UPDATE (R237) -/
  | fusUpdate (chk : Check)
  /-- FUS_TRACK_REQ (R235) -/
  | fusTrackReq
  /-- FUS_SEED (R235) -/
  | fusSeed
  /-- FUS_PROJECT (R240) -/
  | fusProject
  /-- FUS_VOTE (R242) -/
  | fusVote
  /-- FUS_REPROP (R239) -/
  | fusReprop (chk : Check)
  /-- FUS_PAGE (R228) -/
  | fusPage
  /-- FUS_ANCHOR (R250) -/
  | fusAnchor
  /-- POSE_GAP_EXPIRY (R248) -/
  | poseGapExpiry
  /-- MPORT_CS_FALL (R247) -/
  | mportCsFall
  /-- MPORT_READ_POSE (R246) -/
  | mportReadPose (n : Nat)
  /-- MPORT_READ_ID (R246) -/
  | mportReadId (n : Nat)
  /-- MPORT_OTHER_COMMAND (R246) -/
  | mportOtherCommand (op : Byte) (n : Nat)
  /-- MPORT_CS_RISE (R247) -/
  | mportCsRise
  /-- SLV_WINDOW (R267) -/
  | slvWindow
  /-- SLV_SERVICE (R268) -/
  | slvService
  /-- SLV_COMMIT (R271) -/
  | slvCommit
  /-- SLV_ITERATION_END (R263) -/
  | slvIterationEnd (chk : Check)
  /-- SLV_DEADLINE_MISS (R264) -/
  | slvDeadlineMiss
  /-- SLV_WINDOW_END (R268) -/
  | slvWindowEnd
  /-- PS_SERVICE (R293) -/
  | psService
  /-- PS_FILE (R292) -/
  | psFile
  /-- PS_WINDOW_END (R293) -/
  | psWindowEnd
  /-- PS_FLASH_BLOCKS_LANDED (R294) -/
  | psFlashBlocksLanded (q : Nat) (bad : List Nat)
  /-- PS_QUERY_COMPLETE (R283) -/
  | psQueryComplete (q : Nat) (chk : Check)
  /-- PS_QUERY_EXPIRED (R293) -/
  | psQueryExpired (q : Nat)
  /-- PS_INSERT_DONE (R288) -/
  | psInsertDone (i : Fin 16) (chk : Check)
  /-- MV_WINDOW (R310) -/
  | mvWindow
  /-- MOVER_TRANSFER_DONE (R310) -/
  | moverTransferDone
  /-- FLASH_READ_COMPLETE (R316) -/
  | flashReadComplete (r : FlashRead)
  /-- FLASH_PROGRAM_COMPLETE (R314) -/
  | flashProgramComplete (ok : Bool)
  /-- FLASH_BACKGROUND_RELOCATE (R317) -/
  | flashBackgroundRelocate (die : Nat) (block : Nat)
  /-- FLASH_SPARE_LOW (R317) -/
  | flashSpareLow
  /-- PATROL_SCRUB_STEP (R302) -/
  | patrolScrubStep (e : LineCheck)
  /-- PMBUS_POLL (R379) -/
  | pmbusPoll (answered : Bool) (mv : Half) (ma : Word)
  /-- THERMAL_CONVERSION (R386) -/
  | thermalConversion (n : Fin 24) (t : Half)
  /-- PWR_THERM_RELEASE (R387) -/
  | pwrThermRelease
  /-- PWR_LIMIT_ASSERT (R384) -/
  | pwrLimitAssert
  /-- PWR_LIMIT_RELEASE (R384) -/
  | pwrLimitRelease
  /-- PWR_MON_ALARM (R389) -/
  | pwrMonAlarm (m : Fin 48)
  /-- PWR_MARGIN_TRIM (R390) -/
  | pwrMarginTrim
  /-- LINK_CRC_MISMATCH (R415) -/
  | linkCrcMismatch (link : Fin 96)
  /-- FAULT_FW_PANIC (R417) -/
  | faultFwPanic (cp : Fin 2) (code : Word)
  /-- REC_FW_STAGE (R421) -/
  | recFwStage (cp : Fin 2) (v : Word)
  /-- EVENT_RECORD_WRITE (R421) -/
  | eventRecordWrite (chk : Check)
  /-- REC_ARCHIVED (R426) -/
  | recArchived
  /-- PORESET_ASSERT (R433) -/
  | poresetAssert
  /-- PORESET_RELEASE (R437) -/
  | poresetRelease (bootSrc : BitVec 2)
  /-- HOST_PORT_READY (R340) -/
  | hostPortReady
  /-- BOOT_ROM_DONE (R437) -/
  | bootRomDone (pmbusAck rngOk : Bool)
  /-- DRAM_INIT_DONE (R437) -/
  | dramInitDone
  /-- FIRMWARE_VERIFIED (R402) -/
  | firmwareVerified
  /-- ENTER_READY (R437) -/
  | enterReady
  /-- SYSRESET_ASSERT (R441) -/
  | sysresetAssert
  /-- SYSRESET_RELEASE (R438) -/
  | sysresetRelease
  /-- WATCHDOG_REFRESH (R435) -/
  | watchdogRefresh (cp : Fin 2)
  /-- WATCHDOG_EXPIRY (R435) -/
  | watchdogExpiry (cp : Fin 2)
  /-- RAIL_POWER_LOSS (R446) -/
  | railPowerLoss
  /-- RAIL_POWER_UP (R446) -/
  | railPowerUp
  /-- JTAG_CHALLENGE_READ (R411) -/
  | jtagChallengeRead
  /-- DEBUG_TOKEN_WRITE (R411) -/
  | debugTokenWrite (token : List Byte)
  /-- GRAPH_SCHEDULE_COMPILED (R258) -/
  | graphScheduleCompiled
  /-- DEBUG_HALT_AND_STEP (R411) -/
  | debugHaltAndStep (cp : Fin 2) (act : DebugAct)
  deriving DecidableEq, Repr

end Sys2Proof
end

