-- ==== Sys2Proof/Decode.lean ====
section
/-!
DEFINITION. The command that a word of the opcode table spells. The table gives no row any bits: the device takes its
commands as mailbox entries, frames and events, so no word spells one.
-/
namespace Sys2Proof

/-- The command that the table's bits spell in a word of `nbits` bits: no row has bits, so none. -/
def decodeTableWord (_nbits _w : Nat) : Option Instr := none

end Sys2Proof
end

