-- ==== Sys2Proof/Config.lean ====
section
/-!
DEFINITION. What the spec leaves to an implementation, to its surroundings or open: opaque constants with no body, so that
nothing can be proved of their values. Each is named in the assumption log.
-/
namespace Sys2Proof.Config

/-- A fresh free value of `w` bits: the counter says which (log 7). -/
opaque freeValue : (w : Nat) → Nat → BitVec w

/-- A fresh free natural number (log 7). -/
opaque freeNat : Nat → Nat

/-- The result of arithmetic whose order or approximation the spec does not fix: what is computed, the operands it depends
on, and which element of the result (log 9). -/
opaque numeric : Nat → List Nat → Nat → Nat

/-- Whether a signature over bytes verifies under a key of a class (log 10). -/
opaque verifies : Nat → List Byte → Bool

/-- A code that cryptography makes of bytes: what is made, and from what (log 10). -/
opaque crypto : Nat → List Byte → List Byte

/-- The raw flash bytes of the board, as far as R15 allows them (log 11). -/
opaque flashFitted : Nat

/-- The raw flash bytes of the device: at most 4 TiB (R15). -/
def rawFlash : Nat := min flashFitted 0x40000000000

/-- The first DRAM address of the firmware region: 512 MiB and 1/4,096 of the raw flash from the top of DRAM (R372). -/
def fwRegionBase : Nat := 0x600000000 - 0x20000000 - rawFlash / 4096

/-- Where the buffer for snapshots of acres lies in the firmware region (log 66). -/
opaque snapshotPlace : Nat

/-- The DRAM address of the buffer for a snapshot of an acre: 32 MiB of the firmware region, on a 64 KiB boundary (R220, R372). -/
def snapshotBase : Nat := fwRegionBase + 65536 * (snapshotPlace % 7680)

/-- Where the stream descriptor table lies in the firmware region (log 29). -/
opaque streamTablePlace : Nat

/-- The DRAM address of the stream descriptor table: 8 KiB of the firmware region, on a 64-byte boundary (R17, R372). -/
def streamTableBase : Nat :=
  let place := fwRegionBase + 64 * (streamTablePlace % 7864064)
  if place + 8192 ≤ snapshotBase then place else place + 0x2002000

/-- The pages of a flash block, as the parts fitted have them (log 72). -/
opaque pagesFitted : Nat

/-- The pages of a flash block, at least one. -/
def blockPages : Nat := max 1 pagesFitted

/-- The bytes of flash that the good blocks of the board offer (log 11). -/
opaque flashOffered : Nat

/-- The bytes of flash that the namespaces of partitions 0 to 3 share: at most 15/16 of the raw flash (R314). -/
def flashCapacity : Nat := min flashOffered (rawFlash / 16 * 15)

/-- The `KEY_CLASS` of a Gortaif debug token (R399, log 10). -/
opaque gortaifTokenClass : Nat

/-- The media access address of an Ethernet port: port A, then port B (log 11). -/
opaque macAddr : Bool → List Byte

end Sys2Proof.Config
end

