-- ==== Sys2Proof/Machine/Float.lean ====
section
/-!
DEFINITION. Binary floating-point numbers computed exactly: a finite value is an integer times a power of two, every
operation forms its exact result, and one rounding, to nearest with ties to even, makes the format's pattern (R185).
-/
namespace Sys2Proof.Machine

/-- An IEEE 754 binary format: exponent bits and fraction bits. -/
structure FpFmt where
  eb : Nat
  mb : Nat
  deriving DecidableEq, Repr

/-- FP64. -/
def fp64 : FpFmt := { eb := 11, mb := 52 }
/-- FP32. -/
def fp32 : FpFmt := { eb := 8, mb := 23 }
/-- FP16. -/
def fp16 : FpFmt := { eb := 5, mb := 10 }
/-- BF16. -/
def bf16 : FpFmt := { eb := 8, mb := 7 }

/-- The exponent bias. -/
def FpFmt.bias (f : FpFmt) : Nat := 2 ^ (f.eb - 1) - 1

/-- The width of a pattern. -/
def FpFmt.width (f : FpFmt) : Nat := 1 + f.eb + f.mb

/-- A number as an operation sees it: not a number, an infinity, or a sign, a magnitude and a power of two. -/
inductive Num where
  | nan
  | inf (neg : Bool)
  | fin (neg : Bool) (m : Nat) (e : Int)
  deriving DecidableEq, Repr

/-- A finite number. -/
def Num.isFin : Num → Bool
  | .fin _ _ _ => true
  | _ => false
/-- An infinity. -/
def Num.isInf : Num → Bool
  | .inf _ => true
  | _ => false

/-- The number a pattern stands for. -/
def FpFmt.decode (f : FpFmt) (bits : Nat) : Num :=
  let neg := bits.testBit (f.eb + f.mb)
  let ex := (bits / 2 ^ f.mb) % 2 ^ f.eb
  let fr := bits % 2 ^ f.mb
  if ex = 2 ^ f.eb - 1 then (if fr = 0 then .inf neg else .nan)
  else if ex = 0 then .fin neg fr (1 - (f.bias : Int) - f.mb)
  else .fin neg (2 ^ f.mb + fr) ((ex : Int) - f.bias - f.mb)

/-- The quiet NaN pattern of a format. -/
def FpFmt.nanBits (f : FpFmt) : Nat := (2 ^ f.eb - 1) * 2 ^ f.mb + 2 ^ (f.mb - 1)

/-- The infinity pattern. -/
def FpFmt.infBits (f : FpFmt) (neg : Bool) : Nat := b2n neg * 2 ^ (f.eb + f.mb) + (2 ^ f.eb - 1) * 2 ^ f.mb

/-- A natural number divided by a power of two, rounded to nearest with ties to even. -/
def rneShift (m k : Nat) : Nat :=
  let q := m / 2 ^ k
  let r := m % 2 ^ k
  if k = 0 then m
  else if r > 2 ^ (k - 1) ∨ (r = 2 ^ (k - 1) ∧ q % 2 = 1) then q + 1 else q

/-- An integer divided by a power of two, rounded to nearest with ties to even. -/
def rneShiftInt (v : Int) (k : Nat) : Int :=
  if v < 0 then - (rneShift v.natAbs k : Int) else rneShift v.natAbs k

/-- The number of bits of a natural number. -/
def bitLen (m : Nat) : Nat := if m = 0 then 0 else m.log2 + 1

/-- The pattern nearest to m times 2^e, ties to even; overflow gives infinity. -/
def FpFmt.encode (f : FpFmt) (neg : Bool) (m : Nat) (e : Int) : Nat :=
  let sgn := b2n neg * 2 ^ (f.eb + f.mb)
  if m = 0 then sgn
  else
    let emin : Int := 1 - (f.bias : Int) - f.mb
    let e' := max emin (e + bitLen m - (f.mb + 1))
    let q := if e' ≤ e then m * 2 ^ (e - e').toNat else rneShift m (e' - e).toNat
    let (q, e') := if q = 2 ^ (f.mb + 1) then (2 ^ f.mb, e' + 1) else (q, e')
    if q < 2 ^ f.mb then sgn + q
    else
      let ex := e' + f.mb + f.bias
      if ex ≥ 2 ^ f.eb - 1 then f.infBits neg
      else sgn + ex.toNat * 2 ^ f.mb + (q - 2 ^ f.mb)

/-- The pattern of a number. -/
def FpFmt.ofNum (f : FpFmt) : Num → Nat
  | .nan => f.nanBits
  | .inf neg => f.infBits neg
  | .fin neg m e => f.encode neg m e

/-- A signed magnitude at a lower power of two. -/
def alignTo (neg : Bool) (m : Nat) (e lo : Int) : Int :=
  let v : Int := (m * 2 ^ (e - lo).toNat : Nat)
  if neg then - v else v

/-- A number from a signed integer and a power of two; `zneg` is the sign of a zero. -/
def Num.ofInt (v e : Int) (zneg : Bool) : Num :=
  if v = 0 then .fin zneg 0 e else .fin (decide (v < 0)) v.natAbs e

/-- The exact sum. A zero sum of unlike signs is positive. -/
def Num.add : Num → Num → Num
  | .nan, _ | _, .nan => .nan
  | .inf a, .inf b => if a = b then .inf a else .nan
  | .inf a, _ | _, .inf a => .inf a
  | .fin sa ma ea, .fin sb mb eb =>
    let lo := min ea eb
    Num.ofInt (alignTo sa ma ea lo + alignTo sb mb eb lo) lo (sa && sb)

/-- The number with its sign turned. -/
def Num.neg : Num → Num
  | .nan => .nan
  | .inf a => .inf (!a)
  | .fin s m e => .fin (!s) m e

/-- The exact product. -/
def Num.mul : Num → Num → Num
  | .nan, _ | _, .nan => .nan
  | .inf a, .inf b => .inf (a ^^ b)
  | .inf a, .fin s m _ | .fin s m _, .inf a => if m = 0 then .nan else .inf (a ^^ s)
  | .fin sa ma ea, .fin sb mb eb => .fin (sa ^^ sb) (ma * mb) (ea + eb)

/-- The quotient to `k` more bits than the divisor needs, its last bit odd when a remainder is left. -/
def Num.div (k : Nat) : Num → Num → Num
  | .nan, _ | _, .nan => .nan
  | .inf _, .inf _ => .nan
  | .inf a, .fin s _ _ => .inf (a ^^ s)
  | .fin s _ _, .inf a => .fin (s ^^ a) 0 0
  | .fin sa ma ea, .fin sb mb eb =>
    if mb = 0 then (if ma = 0 then .nan else .inf (sa ^^ sb))
    else
      let sh := k + bitLen mb
      let n := ma * 2 ^ sh
      let q := n / mb
      .fin (sa ^^ sb) (2 * q + (if n % mb = 0 then 0 else 1)) (ea - eb - sh - 1)

/-- The integer square root, one bit a step from bit `n` down. -/
def isqrtFrom : Nat → Nat → Nat → Nat
  | 0, v, r => if (r + 1) * (r + 1) ≤ v then r + 1 else r
  | n + 1, v, r =>
    let t := r + 2 ^ (n + 1)
    isqrtFrom n v (if t * t ≤ v then t else r)

/-- The integer square root. -/
def isqrt (v : Nat) : Nat := isqrtFrom (bitLen v / 2 + 1) v 0

/-- The square root with `k` extra bits, its last bit odd when it is not exact. -/
def Num.sqrt (k : Nat) : Num → Num
  | .nan => .nan
  | .inf s => if s then .nan else .inf false
  | .fin s m e =>
    if m = 0 then .fin s 0 0
    else if s then .nan
    else
      let e2 := e - 2 * k - (e % 2)
      let v := m * 2 ^ (e - e2).toNat
      let r := isqrt v
      .fin false (2 * r + (if r * r = v then 0 else 1)) (e2 / 2 - 1)

/-- The order of two numbers; false if either is not a number. -/
def Num.le : Num → Num → Bool
  | .nan, _ | _, .nan => false
  | .inf a, .inf b => a || !b
  | .inf a, _ => a
  | _, .inf b => !b
  | .fin sa ma ea, .fin sb mb eb =>
    let lo := min ea eb
    alignTo sa ma ea lo ≤ alignTo sb mb eb lo

/-- Less than; false if either is not a number. -/
def Num.lt (a b : Num) : Bool := Num.le a b && !(Num.le b a)

/-- Equality of value; false if either is not a number. -/
def Num.eqv (a b : Num) : Bool := Num.le a b && Num.le b a

/-- Whether a pattern is finite. -/
def FpFmt.finite (f : FpFmt) (bits : Nat) : Bool :=
  match f.decode bits with
  | .fin _ _ _ => true
  | _ => false

/-- The rounded sum of two patterns. -/
def FpFmt.add (f : FpFmt) (a b : Nat) : Nat := f.ofNum (Num.add (f.decode a) (f.decode b))
/-- The rounded difference. -/
def FpFmt.sub (f : FpFmt) (a b : Nat) : Nat := f.ofNum (Num.add (f.decode a) (Num.neg (f.decode b)))
/-- The rounded product. -/
def FpFmt.mul (f : FpFmt) (a b : Nat) : Nat := f.ofNum (Num.mul (f.decode a) (f.decode b))
/-- The rounded quotient. -/
def FpFmt.div (f : FpFmt) (a b : Nat) : Nat := f.ofNum (Num.div (f.mb + 4) (f.decode a) (f.decode b))
/-- The rounded square root. -/
def FpFmt.sqrt (f : FpFmt) (a : Nat) : Nat := f.ofNum (Num.sqrt (f.mb + 4) (f.decode a))
/-- A product and a sum, rounded once. -/
def FpFmt.fma (f : FpFmt) (a b c : Nat) : Nat :=
  f.ofNum (Num.add (Num.mul (f.decode a) (f.decode b)) (f.decode c))
/-- The order of two patterns. -/
def FpFmt.le (f : FpFmt) (a b : Nat) : Bool := Num.le (f.decode a) (f.decode b)
/-- Less than. -/
def FpFmt.lt (f : FpFmt) (a b : Nat) : Bool := Num.lt (f.decode a) (f.decode b)
/-- An integer rounded to the format. -/
def FpFmt.ofInt (f : FpFmt) (v : Int) : Nat := f.encode (decide (v < 0)) v.natAbs 0

/-- A format's pattern in another format, rounded. -/
def FpFmt.convert (f g : FpFmt) (a : Nat) : Nat := g.ofNum (f.decode a)

/-- A finite number rounded to an integer, ties to even. -/
def Num.toIntRne : Num → Int
  | .fin s m e =>
    let q : Int := if 0 ≤ e then (m * 2 ^ e.toNat : Nat) else (rneShift m (-e).toNat : Nat)
    if s then - q else q
  | _ => 0

/-- The largest integer at most a finite number. -/
def Num.floor : Num → Int
  | .fin s m e =>
    let v : Int := if s then - (m : Int) else m
    if 0 ≤ e then v * 2 ^ e.toNat else Int.fdiv v (2 ^ (-e).toNat)
  | _ => 0

end Sys2Proof.Machine
end

