-- ==== Sys2Proof/Machine/Numeric.lean ====
section
/-!
DEFINITION. Arithmetic whose result the spec fixes up to the order of its operations: sums in an order of the hardware's, values
within a few units in the last place, and angles (log 9).
-/
namespace Sys2Proof.Machine

/-- A pattern with every NaN in the one form that any unit writes (R185). -/
def FpFmt.canon (f : FpFmt) (p : Nat) : Nat :=
  let p := p % 2 ^ f.width
  if f.decode p = .nan then f.nanBits else p

/-- A number of the arithmetic that the spec does not fix: what it is, its operands, and which element of the result (log 9). -/
def FpFmt.unfixed (f : FpFmt) (what : Nat) (operands : List Nat) (k : Nat) : Nat := f.canon (Config.numeric what operands k)

/-- A finite pattern moved by at most eight units in the last place, by a free amount: what another order of the same few
operations can change (log 9). -/
def FpFmt.near (f : FpFmt) (what : Nat) (operands : List Nat) (p : Nat) : Nat :=
  let sgn := p / 2 ^ (f.eb + f.mb) * 2 ^ (f.eb + f.mb)
  let m := p % 2 ^ (f.eb + f.mb)
  if m = 0 ∨ !f.finite p then f.canon p
  else sgn + min (f.infBits false) (m + Config.numeric what (p :: operands) 0 % 17 - 8)

/-- The sum of patterns, two at a time, rounded each time, in an order of the hardware's that the spec does not fix (log 9). -/
def FpFmt.sumOf (f : FpFmt) (what : Nat) : Nat → List Nat → Nat
  | 0, xs => xs.headD 0
  | _, [] => 0
  | _, [x] => x
  | fuel + 1, xs =>
    let i := Config.numeric what [xs.length] 0 % xs.length
    let rest := xs.eraseIdx i
    let j := Config.numeric what [xs.length] 1 % rest.length
    f.sumOf what fuel (f.add (xs.getD i 0) (rest.getD j 0) :: rest.eraseIdx j)

/-- A sum of patterns in an order that the spec does not fix. -/
def FpFmt.sum (f : FpFmt) (what : Nat) (xs : List Nat) : Nat := f.sumOf what xs.length xs

/-! ## Angles -/

/-- One in the fixed point of the angle tables. -/
def turnOne : Int := 2 ^ 96

/-- The cosine and the sine of half an angle in the first quadrant. -/
def halfAngle (a : Int × Int) : Int × Int :=
  let c : Int := isqrt ((turnOne * turnOne + turnOne * a.1) / 2).toNat
  (c, a.2 * turnOne / (2 * c))

/-- Bits of the angle of a vector in the first octant, in turns, from 1/2^k of a turn down; `a` is that angle's cosine and sine. -/
def turnBits : Nat → Int × Int → Int × Int → Nat
  | 0, _, _ => 0
  | n + 1, a, v =>
    let turned : Int × Int := (v.1 * a.1 + v.2 * a.2, v.2 * a.1 - v.1 * a.2)
    if 0 ≤ turned.2 then 2 ^ n + turnBits n (halfAngle a) turned else turnBits n (halfAngle a) v

/-- The largest whole number of 1/65,536 turns at most the angle of a vector that is not zero, and whether it is the angle. -/
def turnFloor (x y : Int) : Nat × Bool :=
  let q : Nat × Int × Int :=
    if 0 < x ∧ 0 ≤ y then (0, x, y) else if x ≤ 0 ∧ 0 < y then (1, y, -x) else if x < 0 ∧ y ≤ 0 then (2, -x, -y) else (3, -y, x)
  let o : Nat × Int × Int := if q.2.1 ≤ q.2.2 then (8192, q.2.1 + q.2.2, q.2.2 - q.2.1) else (0, q.2.1, q.2.2)
  let eighth : Int × Int := (isqrt (turnOne * turnOne / 2).toNat, isqrt (turnOne * turnOne / 2).toNat)
  (16384 * q.1 + o.1 + turnBits 13 (halfAngle eighth) o.2, decide (o.2.2 = 0))

/-- The cosine and the sine of a fraction of a turn, `f` / 2^128, summed from a quarter turn down. -/
def turnCis : Nat → Int × Int → Nat → Int × Int → Int × Int
  | 0, _, _, acc => acc
  | n + 1, a, f, acc =>
    let turned : Int × Int := ((acc.1 * a.1 - acc.2 * a.2) / turnOne, (acc.1 * a.2 + acc.2 * a.1) / turnOne)
    turnCis n (halfAngle a) (2 * f % 2 ^ 128) (if 2 ^ 127 ≤ f then turned else acc)

/-! ## Functions of a real number, to more places than any format holds -/

/-- A finite number in fixed point of 128 places, rounded down. -/
def Num.fixed (x : Num) : Int := Num.floor (Num.mul x (.fin false 1 128))

/-- 2^(f / 2^128) in fixed point of 128 places: the bits of `f` from the top, with the root that each stands for. -/
def exp2Bits : Nat → Nat → Nat → Nat → Nat
  | 0, _, _, acc => acc
  | n + 1, root, f, acc =>
    exp2Bits n (isqrt (root * 2 ^ 128)) (2 * f % 2 ^ 128) (if 2 ^ 127 ≤ f then acc * root / 2 ^ 128 else acc)

/-- 2 to a fixed-point power. -/
def exp2Of (v : Int) : Num := .fin false (exp2Bits 100 (isqrt (2 * 2 ^ 256)) (v % 2 ^ 128).toNat (2 ^ 128)) (v / 2 ^ 128 - 128)

/-- The fraction bits of the binary logarithm of a number from 1 to 2 in fixed point of 128 places. -/
def log2Bits : Nat → Nat → Nat
  | 0, _ => 0
  | n + 1, m =>
    let q := m * m / 2 ^ 128
    if 2 ^ 129 ≤ q then 2 ^ n + log2Bits n (q / 2) else log2Bits n q

/-- The binary logarithm of a number greater than zero. -/
def log2Of (m : Nat) (e : Int) : Num :=
  let k := bitLen m - 1
  Num.ofInt ((e + k) * 2 ^ 96 + log2Bits 96 (m * 2 ^ 128 / 2 ^ k)) (-96) false

/-- e to a fixed-point power, as 2 to the power times log₂ e. -/
def expOf (v : Int) : Num := exp2Of (v * 2318321547468254865173387471183990171487108758923299108729110 / 2 ^ 200)

/-- The cosine and the sine of an angle in radians in fixed point. -/
def cisOf (v : Int) : Num × Num :=
  let f := (v * 255752132986241185678408580023709873616295664310550962376831 / 2 ^ 200 % 2 ^ 128).toNat
  let c := turnCis 90 (0, turnOne) (2 * f % 2 ^ 128) (turnOne, 0)
  let c := if 2 ^ 127 ≤ f then (-c.1, -c.2) else c
  (Num.ofInt c.1 (-96) false, Num.ofInt c.2 (-96) false)

/-- tanh of a finite number. -/
def tanhOf (x : Num) : Num :=
  match x with
  | .fin s m e =>
    if Num.lt (.fin false m e) (.fin false 1 (-20)) then
      Num.add x (Num.neg (Num.div 80 (Num.mul x (Num.mul x x)) (.fin false 3 0)))
    else
      let p := Num.fixed (expOf (2 * min (Num.fixed (.fin false m e)) (64 * 2 ^ 128)))
      Num.div 80 (Num.ofInt ((if s then -1 else 1) * (p - 2 ^ 128)) 0 false) (Num.ofInt (p + 2 ^ 128) 0 false)
  | _ => .nan

/-- 1 / (1 + e^-x) of a finite number. -/
def sigmoidOf (x : Num) : Num :=
  let p := Num.fixed (expOf (max (-256 * 2 ^ 128) (min (256 * 2 ^ 128) (- Num.fixed x))))
  Num.div 80 (.fin false (2 ^ 128) 0) (Num.ofInt (p + 2 ^ 128) 0 false)

/-- A result that the spec bounds and does not fix: a free pattern if it lies within the bound of the real result, and else the
nearest one. -/
def FpFmt.bounded (f : FpFmt) (what : Nat) (operands : List Nat) (bound x : Num) : Nat :=
  let c := Config.numeric what operands 0 % 2 ^ f.width
  let d := Num.add (f.decode c) (Num.neg x)
  if Num.le d bound && Num.le (Num.neg bound) d then c else f.ofNum x

/-- So many units in the last place of a number in a format. -/
def FpFmt.ulps (f : FpFmt) (k : Nat) (x : Num) : Num :=
  match x with
  | .fin _ m e => .fin false k (max (e + bitLen m - 1) (1 - (f.bias : Int)) - f.mb)
  | _ => .fin false 0 0

end Sys2Proof.Machine
end

