-- ==== Sys2Proof/Machine/Geometry.lean ====
section
/-!
DEFINITION. Vectors, rotations and rays over exact numbers: what chapters 9 and 10 compute is formed here to more places than any
format holds, and rounded where a record takes it (log 9).
-/
namespace Sys2Proof.Machine

/-- The difference of two numbers. -/
def Num.sub (a b : Num) : Num := Num.add a (Num.neg b)
/-- An integer as a number. -/
def Num.nat (k : Nat) : Num := .fin false k 0
/-- The quotient to more places than FP64 holds. -/
def Num.quot (a b : Num) : Num := Num.div 64 a b
/-- The square root to more places than FP64 holds. -/
def Num.root (a : Num) : Num := Num.sqrt 64 a
/-- The larger of two numbers. -/
def Num.larger (a b : Num) : Num := if Num.le a b then b else a
/-- The smaller of two numbers. -/
def Num.lesser (a b : Num) : Num := if Num.le a b then a else b
/-- The magnitude. -/
def Num.abs : Num → Num
  | .fin _ m e => .fin false m e
  | .inf _ => .inf false
  | .nan => .nan

/-- A vector of three numbers. -/
structure Vec3 where
  x : Num
  y : Num
  z : Num
  deriving DecidableEq, Repr

/-- The sum of two vectors. -/
def Vec3.add (a b : Vec3) : Vec3 := { x := Num.add a.x b.x, y := Num.add a.y b.y, z := Num.add a.z b.z }
/-- A vector times a number. -/
def Vec3.scale (k : Num) (a : Vec3) : Vec3 := { x := Num.mul k a.x, y := Num.mul k a.y, z := Num.mul k a.z }
/-- The difference of two vectors. -/
def Vec3.sub (a b : Vec3) : Vec3 := a.add (b.scale (.fin true 1 0))
/-- The inner product. -/
def Vec3.dot (a b : Vec3) : Num := Num.add (Num.add (Num.mul a.x b.x) (Num.mul a.y b.y)) (Num.mul a.z b.z)
/-- The cross product. -/
def Vec3.cross (a b : Vec3) : Vec3 :=
  { x := Num.sub (Num.mul a.y b.z) (Num.mul a.z b.y)
    y := Num.sub (Num.mul a.z b.x) (Num.mul a.x b.z)
    z := Num.sub (Num.mul a.x b.y) (Num.mul a.y b.x) }
/-- The length. -/
def Vec3.norm (a : Vec3) : Num := Num.root (a.dot a)
/-- The vector of length one in its direction. -/
def Vec3.unit (a : Vec3) : Vec3 := { x := Num.quot a.x a.norm, y := Num.quot a.y a.norm, z := Num.quot a.z a.norm }
/-- The components in order. -/
def Vec3.list (a : Vec3) : List Num := [a.x, a.y, a.z]

/-- A Hamilton quaternion, scalar first (R11). -/
structure Quat where
  w : Num
  v : Vec3
  deriving DecidableEq, Repr

/-- A vector rotated by a quaternion of length one. -/
def Quat.rotate (q : Quat) (a : Vec3) : Vec3 :=
  let t := (q.v.cross a).scale (.fin false 2 0)
  (a.add (t.scale q.w)).add (q.v.cross t)
/-- The inverse rotation. -/
def Quat.conj (q : Quat) : Quat := { q with v := q.v.scale (.fin true 1 0) }
/-- The product of two quaternions: the second rotation first. -/
def Quat.mul (a b : Quat) : Quat :=
  { w := Num.sub (Num.mul a.w b.w) (a.v.dot b.v)
    v := ((b.v.scale a.w).add (a.v.scale b.w)).add (a.v.cross b.v) }
/-- The length. -/
def Quat.norm (q : Quat) : Num := Num.root (Num.add (Num.mul q.w q.w) (q.v.dot q.v))
/-- The quaternion of length one in its direction. -/
def Quat.unit (q : Quat) : Quat :=
  let n := q.norm
  { w := Num.quot q.w n, v := { x := Num.quot q.v.x n, y := Num.quot q.v.y n, z := Num.quot q.v.z n } }

/-- A vector of patterns of a format. -/
def FpFmt.vec (f : FpFmt) (ps : List Nat) : Vec3 :=
  { x := f.decode (ps.getD 0 0), y := f.decode (ps.getD 1 0), z := f.decode (ps.getD 2 0) }
/-- A quaternion of patterns of a format. -/
def FpFmt.quat (f : FpFmt) (ps : List Nat) : Quat := { w := f.decode (ps.getD 0 0), v := f.vec (ps.drop 1) }

/-! ## A pose and its rays -/

/-- A camera pose: its position in the map frame, and the rotation map-from-camera. -/
structure CamPose where
  pos : Vec3
  rot : Quat
  deriving DecidableEq, Repr

/-- The direction of the ray through a pixel of a rectified camera, of length one, in the camera frame; the intrinsics are fx, fy, cx
and cy. -/
def camRay (intr : List Num) (u v : Nat) : Vec3 :=
  let i (k : Nat) : Num := intr.getD k .nan
  Vec3.unit { x := Num.quot (Num.sub (Num.nat u) (i 2)) (i 0), y := Num.quot (Num.sub (Num.nat v) (i 3)) (i 1), z := Num.nat 1 }

/-- A ray: from a point, along a direction of length one. -/
structure Ray where
  org : Vec3
  dir : Vec3
  deriving DecidableEq, Repr

/-- The point of a ray at a distance. -/
def Ray.at' (r : Ray) (t : Num) : Vec3 := r.org.add (r.dir.scale t)

/-- The part of an interval of distances for which one component lies in a half-open slab. -/
def slabPart (iv : Num × Num) (o d lo hi : Num) : Option (Num × Num) :=
  if Num.eqv d (.fin false 0 0) then (if Num.le lo o && Num.lt o hi then some iv else none)
  else
    let a := Num.quot (Num.sub lo o) d
    let b := Num.quot (Num.sub hi o) d
    let t0 := Num.larger iv.1 (Num.lesser a b)
    let t1 := Num.lesser iv.2 (Num.larger a b)
    if Num.lt t0 t1 then some (t0, t1) else none

/-- The part of an interval for which a ray lies in a box. -/
def Ray.boxPart (r : Ray) (iv : Num × Num) (lo hi : Vec3) : Option (Num × Num) :=
  ((slabPart iv r.org.x r.dir.x lo.x hi.x).bind fun iv => slabPart iv r.org.y r.dir.y lo.y hi.y).bind fun iv =>
    slabPart iv r.org.z r.dir.z lo.z hi.z

/-- The length of intervals in all. -/
def partsLength (ps : List (Num × Num)) : Num := ps.foldl (fun l p => Num.add l (Num.sub p.2 p.1)) (.fin false 0 0)

/-- The distance at which a length along intervals in order is reached; past the last it is the end of it. -/
def partsAt : List (Num × Num) → Num → Num
  | [], m => m
  | [p], m => Num.lesser p.2 (Num.add p.1 m)
  | p :: q :: ps, m =>
    let l := Num.sub p.2 p.1
    if Num.lt m l then Num.add p.1 m else partsAt (q :: ps) (Num.sub m l)

end Sys2Proof.Machine
end

