-- ==== Sys2Proof/Machine/Crc.lean ====
section
/-!
DEFINITION. The digests and checks that the spec names by their standards: CRC-32 of IEEE 802.3 (R59, R244), the
CRC-16/CCITT of the host port and the links (R330), and SHA-384 (R58, R397).
-/
namespace Sys2Proof.Machine

/-- One bit of the reflected CRC-32. -/
def crc32Bit (c : BitVec 32) : BitVec 32 :=
  if c.getLsbD 0 then (c >>> 1) ^^^ 0xEDB88320 else c >>> 1

/-- One byte of the CRC-32 of IEEE 802.3. -/
def crc32Byte (c : BitVec 32) (b : Byte) : BitVec 32 :=
  let x := c ^^^ (b.setWidth 32)
  crc32Bit (crc32Bit (crc32Bit (crc32Bit (crc32Bit (crc32Bit (crc32Bit (crc32Bit x)))))))

/-- The CRC-32 (IEEE 802.3) of a byte string (R59). -/
def crc32 (bs : List Byte) : BitVec 32 := ~~~ (bs.foldl crc32Byte 0xFFFFFFFF)

/-- One bit of CRC-16/CCITT, polynomial 0x1021, not reflected (R330). -/
def crc16Bit (c : BitVec 16) : BitVec 16 :=
  if c.getLsbD 15 then (c <<< 1) ^^^ 0x1021 else c <<< 1

/-- One byte of CRC-16/CCITT. -/
def crc16Byte (c : BitVec 16) (b : Byte) : BitVec 16 :=
  let x := c ^^^ (b.setWidth 16 <<< 8)
  crc16Bit (crc16Bit (crc16Bit (crc16Bit (crc16Bit (crc16Bit (crc16Bit (crc16Bit x)))))))

/-- CRC-16/CCITT with initial value 0xFFFF and no final XOR (R330). -/
def crc16 (bs : List Byte) : BitVec 16 := bs.foldl crc16Byte 0xFFFF

/-! ## SHA-384 (R58, R397)

Words are numbers below 2^64. The standard takes its constants from the primes: a round constant is the first 64 bits of the fraction
of a prime's cube root, and an initial word those of a prime's square root. -/

/-- The greatest `r` that agrees with `top` above its low `n` bits and whose `k`-th power is at most `v`. -/
def rootOf (k v : Nat) : Nat → Nat → Nat
  | 0, top => top
  | n + 1, top => rootOf k v n (if (top + 2 ^ n) ^ k ≤ v then top + 2 ^ n else top)
/-- The first 64 bits of the fraction of the `k`-th root of `p`, for a root below 8. -/
def rootBits (k p : Nat) : Nat := rootOf k (p * 2 ^ (64 * k)) 67 0 % 2 ^ 64
/-- The first 80 primes. -/
def primes80 : List Nat := (List.range 410).filter fun p => decide (2 ≤ p) && (List.range p).all fun d => decide (d < 2) || decide (p % d ≠ 0)
/-- The constants of the 80 rounds. -/
def shaRounds : List Nat := primes80.map (rootBits 3)

/-- A rotation to the right, by 1 to 63. -/
def rotR (n x : Nat) : Nat := x >>> n ||| (x <<< (64 - n)) % 2 ^ 64
/-- Three rotations combined, the one of each working word. -/
def rotR3 (i j k x : Nat) : Nat := rotR i x ^^^ rotR j x ^^^ rotR k x

/-- The eight working words. -/
structure ShaState where
  a : Nat
  b : Nat
  c : Nat
  d : Nat
  e : Nat
  f : Nat
  g : Nat
  h : Nat

/-- The working words before the first block: the ninth to the sixteenth prime. -/
def ShaState.first : ShaState where
  a := rootBits 2 23
  b := rootBits 2 29
  c := rootBits 2 31
  d := rootBits 2 37
  e := rootBits 2 41
  f := rootBits 2 43
  g := rootBits 2 47
  h := rootBits 2 53

/-- One round, with the sum of its constant and its schedule word. -/
def ShaState.round (s : ShaState) (kw : Nat) : ShaState :=
  let pick := s.g ^^^ (s.e &&& (s.f ^^^ s.g))
  let most := (s.a &&& s.b) ||| (s.c &&& (s.a ||| s.b))
  let x := s.h + rotR3 14 18 41 s.e + pick + kw
  { a := (x + rotR3 28 34 39 s.a + most) % 2 ^ 64, b := s.a, c := s.b, d := s.c, e := (s.d + x) % 2 ^ 64, f := s.e, g := s.f, h := s.g }

/-- A round and the window of the sixteen schedule words that begin with its own: the window moves on by one word. -/
def shaNext (x : ShaState × List Nat) (k : Nat) : ShaState × List Nat :=
  let w (i : Nat) : Nat := x.2.getD i 0
  let late := rotR 19 (w 14) ^^^ rotR 61 (w 14) ^^^ (w 14 >>> 6)
  let early := rotR 1 (w 1) ^^^ rotR 8 (w 1) ^^^ (w 1 >>> 7)
  (x.1.round (k + w 0), x.2.drop 1 ++ [(w 0 + early + w 9 + late) % 2 ^ 64])

/-- One block of 128 bytes. -/
def ShaState.block (s : ShaState) (bs : List Byte) : ShaState :=
  let words := (List.range 16).map fun i => fieldAt ((bs.drop (8 * i)).take 8).reverse 0 8
  let r := (shaRounds.foldl shaNext (s, words)).1
  { a := (s.a + r.a) % 2 ^ 64, b := (s.b + r.b) % 2 ^ 64, c := (s.c + r.c) % 2 ^ 64, d := (s.d + r.d) % 2 ^ 64
    e := (s.e + r.e) % 2 ^ 64, f := (s.f + r.f) % 2 ^ 64, g := (s.g + r.g) % 2 ^ 64, h := (s.h + r.h) % 2 ^ 64 }

/-- `n` blocks of a padded message. -/
def ShaState.blocks : Nat → ShaState → List Byte → ShaState
  | 0, s, _ => s
  | n + 1, s, bs => ShaState.blocks n (s.block (bs.take 128)) (bs.drop 128)

/-- SHA-384: the 48-byte digest of a byte string, which a set bit, zeros and its length in bits fill up to whole blocks. -/
def sha384 (bs : List Byte) : List Byte :=
  let n := (bs.length + 17 + 127) / 128
  let filled := bs ++ 0x80 :: List.replicate (128 * n - 17 - bs.length) 0 ++ (natLe 16 (8 * bs.length)).reverse
  let s := ShaState.blocks n ShaState.first filled
  [s.a, s.b, s.c, s.d, s.e, s.f].flatMap fun w => (natLe 8 w).reverse

end Sys2Proof.Machine
end

