-- ==== Sys2Proof/Machine/TypesCore.lean ====
section
/-!
DEFINITION. The pieces of state of the vision engines and the compute cores (chapters 6 and 7).
-/
namespace Sys2Proof.Machine

/-- A feature list that has been full in this span (R146). -/
structure FullList where
  /-- its pool offset -/
  list : Nat
  /-- the operation that found it full -/
  index : Nat
  /-- `CAMERA` of that operation -/
  camera : Nat
  /-- the features of the list discarded in the span -/
  discarded : Nat
  deriving DecidableEq, Repr

/-- One vision engine (R156). -/
structure VisionEngine where
  /-- [1; 06_vision_engines.md R156; reset 1] `EVT_EN` -/
  evtEn : Bool
  /-- [1; 06_vision_engines.md R156; reset 0] `LIMIT` -/
  limit : Bool
  /-- [1; 06_vision_engines.md R156; reset 0] `INPUT_FLAGGED` -/
  flagged : Bool
  /-- [32; 06_vision_engines.md R156; reset 0] `VE_OPS` -/
  ops : Word
  /-- [32; 06_vision_engines.md R156; reset 0] `VE_SKIPS` -/
  skips : Word
  /-- [cycles; 06_vision_engines.md R156; reset 0] busy cycles since last read; `VE_BUSY` in units of 1,024 -/
  busyCycles : Nat
  /-- [8 x 32; 06_vision_engines.md R156; reset 0] the engine's own counters at 0x020 to 0x03C -/
  own : Vector Word 8
  /-- [count; 06_vision_engines.md R146; reset 0] features written in the current span -/
  spanFeatures : Nat
  /-- [count; 06_vision_engines.md R146; reset 0] features discarded at the span limit in the current span -/
  spanDiscards : Nat
  /-- [index; 06_vision_engines.md R146, R157; reset: none] the operation that met the span limit first in the current span -/
  spanFull : Option Nat
  /-- [4; 06_vision_engines.md R157; reset 0] events already recorded in this span -/
  evtSeen : BitVec 4
  /-- [list; 06_vision_engines.md R146; reset empty] lists that have been full in the current span, the last first -/
  listsFull : List FullList
  /-- [SRAM; 06_vision_engines.md R152; reset empty] Fathom's path costs of the row done last: three paths, by column and disparity -/
  path : List (List (List Nat))
  /-- [1; 06_vision_engines.md R150; reset 0] a stripe has been skipped since the paths were formed -/
  stripeSkipped : Bool
  deriving DecidableEq, Repr

/-- One compute core (R172, R173, R176 to R178, R180, R192). -/
structure Core where
  /-- [3; 07_compute_cores.md R180; reset 0b011] `CORE_CTRL` -/
  ctrl : BitVec 3
  /-- [1; 07_compute_cores.md R180; reset 0] `SAT` -/
  sat : Bool
  /-- [1; 07_compute_cores.md R180; reset 0] `MISMATCH` -/
  mismatch : Bool
  /-- [32; 07_compute_cores.md R180; reset 0] `CORE_OPS` -/
  ops : Word
  /-- [cycles; 07_compute_cores.md R180; reset 0] array busy cycles since last read; `CORE_BUSY` in units of 1,024 -/
  busyCycles : Nat
  /-- [32; 07_compute_cores.md R180; reset 0] `CORE_MISMATCH` -/
  mismatches : Word
  /-- [32; 07_compute_cores.md R180; reset 0] `CORE_RETRIES` -/
  retries : Word
  /-- [32; 07_compute_cores.md R180; reset 0] `CORE_SAT` -/
  satCount : Word
  /-- [32; 07_compute_cores.md R180; reset 0] `CORE_DOMAIN` -/
  domainCount : Word
  /-- [32; 07_compute_cores.md R180; reset 0] `CORE_LAST_MISMATCH` -/
  lastMismatch : Word
  /-- [grains; 07_compute_cores.md R176; reset 0] retry budget left in this span -/
  slackLeft : Nat
  /-- [65,536 x 32; 07_compute_cores.md R159; reset 0 (DESIGN CHOICE, log 6)] the accumulator memory: index and word of each word that is not zero -/
  acc : List (Nat × Word)
  /-- [2 x 64; 08_number_formats.md R192; reset 0 (DESIGN CHOICE, log 4)] the stochastic rounding generators of the array and the vector unit -/
  stoch : Vector Dword 2
  /-- [span; 07_compute_cores.md R178; reset: none, kept by a warm reset] the fence span count at the last mismatch -/
  lastFault : Option Nat
  /-- [count; 07_compute_cores.md R181; reset 0] elements saturated in this span -/
  spanSat : Nat
  /-- [count; 07_compute_cores.md R181; reset 0] results past a domain in this span -/
  spanDomain : Nat
  /-- [index; 07_compute_cores.md R181; reset: none] the first operation of this span that saturated an element -/
  satOp : Option Nat
  /-- [index, FUNC; 07_compute_cores.md R181; reset: none] the first operation of this span with a result past a domain -/
  domainOp : Option (Nat × Nat)
  /-- [1; 19_faults_and_event_recorder.md R414; reset 0] the operation that halted the core in this span read a word or a line that cannot be read -/
  haltUnread : Bool
  deriving DecidableEq, Repr

end Sys2Proof.Machine
end

