-- ==== Sys2Proof/Machine/TypesField.lean ====
section
/-!
DEFINITION. The pieces of state of the neural map and the field engine (chapter 9).
-/
namespace Sys2Proof.Machine

/-- An acre of the map (R196 to R204, R219, R220). A key packs ix, iy and iz, 16 bits each, ix lowest. -/
structure Acre where
  key : Nat
  /-- the DRAM address of the stored acre of 32 MiB while it is resident (R200) -/
  base : Nat
  /-- the DRAM address of its training state of 160 MiB while it has one (R202) -/
  trainBase : Nat
  /-- a training state exists -/
  training : Bool
  /-- spans that it has been in the training set (R219) -/
  trainedSpans : Nat
  /-- in DRAM -/
  resident : Bool
  /-- its generator (R217) -/
  rng : Dword
  /-- ray endpoints in each of the last 200 spans, newest first (R219) -/
  endpoints : List Nat
  /-- render samples in each of the last 16 spans, newest first (R219) -/
  renders : List Nat
  /-- the bytes that flash holds, by offset, once it has been written (R220) -/
  flash : Option (List Host.Cell)
  /-- its snapshot lies in the firmware region's buffer, on its way to flash (R220) -/
  snapshot : Bool
  /-- a write to flash is wanted or under way -/
  writing : Bool
  /-- changed since the snapshot under way (R220) -/
  changed : Bool
  /-- another write is wanted once the one under way ends (R220) -/
  rewrite : Bool
  /-- beyond MAP_KEEP_RADIUS at the last boundary (R219) -/
  beyond : Bool
  /-- a page of it was lost: until it is deleted (R322) -/
  poisoned : Bool
  /-- evicted once written (R220) -/
  evicting : Bool
  /-- MAP_ACRE_DELETE accepted -/
  deleting : Bool
  /-- MAP_DECODER_MISMATCH recorded -/
  mismatchSaid : Bool
  /-- spans since its last write to flash (R220) -/
  unwrittenSpans : Nat
  /-- last-use DT (R307) -/
  lastUse : Nat
  deriving DecidableEq, Repr

/-- An entry of the directory copy (R203). -/
structure DirEntry where
  key : Nat
  /-- the DRAM base of the stored acre -/
  base : Nat
  /-- the DRAM base of its training state, or 0 -/
  trainBase : Nat
  coarse : Option (Fin 4)
  train : Option (Fin 8)
  deriving DecidableEq, Repr

/-- A coarse slot (R203, R204): its acre, and whether it is FILLING. -/
structure CoarseSlot where
  key : Option Nat
  filling : Bool
  deriving DecidableEq, Repr

/-- A sample of a batch's table (R206). -/
structure FldSample where
  ray : Nat
  /-- FP32 -/
  t : Word
  /-- FP32 -/
  delta : Word
  /-- the owning acre's key -/
  key : Nat
  /-- acre-local position, FP32 x 3 -/
  pos : List Word
  absent : Bool
  /-- past the line budget of its gather -/
  coarseOnly : Bool
  deriving DecidableEq, Repr

/-- A ray of a batch: its record of 32 bytes, or none for a render ray, and its status bits (R209). -/
structure FldRay where
  record : List Byte
  status : Nat
  deriving DecidableEq, Repr

/-- A batch that is held (R206). -/
structure FldBatch where
  train : Bool
  /-- FAR of the gather, FP32 (R207) -/
  far : Nat
  /-- EXPOSURE_DT of the gather's pose -/
  exposureDt : Nat
  /-- the place of its first ray in the grid -/
  first : Nat
  rays : List FldRay
  samples : List FldSample
  /-- a FLD_COMPOSITE has taken it: a training batch stays held for its FLD_SCATTER -/
  composited : Bool
  deriving DecidableEq, Repr

/-- The parameters of MAP_CONFIG (R216, R219, R268, R297): 14 FP32 patterns in the command's order, then three integers. -/
structure MapParams where
  fp : List Word
  loopDeadlineMs : Nat
  loopExcludeMs : Nat
  loopK : Nat
  deriving DecidableEq, Repr

/-- The field engine and the map (chapter 9). -/
structure Field where
  /-- [1; 09_neural_map.md R223; reset 1] `EVT_EN` -/
  evtEn : Bool
  /-- [1; 09_neural_map.md R223; reset 0] `COMMIT_PENDING` -/
  commitPending : Bool
  /-- [1; 09_neural_map.md R223; reset 0] `MISMATCH` -/
  mismatch : Bool
  /-- [1; 09_neural_map.md R223; reset 0] `LIMIT` -/
  limit : Bool
  /-- [32; 09_neural_map.md R223; reset 0 (DESIGN CHOICE, log 4)] `FLD_TRAIN_RAYS` -/
  trainRays : Word
  /-- [32; 09_neural_map.md R223; reset 0 (DESIGN CHOICE, log 4)] `FLD_TRAIN_RAYS_LIVE` -/
  trainLive : Word
  /-- [count; 09_neural_map.md R218; reset 0] allowance left in this span -/
  raysLeft : Nat
  /-- [7 x 32; 09_neural_map.md R223; reset 0] `FLD_SAMPLES`, `FLD_LINES`, `FLD_LINE_LIMIT`, `FLD_ABSENT`, `FLD_NONFINITE`, `FLD_GRAD_DROPPED`, `FLD_BAD_RAY` -/
  counts : Vector Word 7
  /-- [32; 09_neural_map.md R223; reset 0] `FLD_ADAM_BACKLOG` -/
  backlog : Nat
  /-- [list of at most 64; 09_neural_map.md R213, R223; reset empty] the absent-key list, in order of arrival -/
  absentKeys : List Nat
  /-- [list of at most 256; 09_neural_map.md R203; reset empty] the directory copy -/
  dir : List DirEntry
  /-- [list; 09_neural_map.md R203; reset empty] the directory that a commit reloads -/
  dirNext : List DirEntry
  /-- [4 slots; 09_neural_map.md R203, R204; reset empty] -/
  slots : Vector CoarseSlot 4
  /-- [list of at most 2; 09_neural_map.md R206; reset empty] batches held, oldest first -/
  batches : List FldBatch
  /-- [map; 09_neural_map.md R207; reset empty] rays of each grid that earlier batches of this span have taken, by GRID and POSE_ADDR -/
  gridNext : List (Nat × Nat)
  /-- [count; 09_neural_map.md R216; reset 0] the cursor of FLD_ADAM: training slot x 4,576,658 + entry -/
  cursor : Nat
  /-- [record; 09_neural_map.md R216; reset: the defaults of R216, R219, R268, R297] parameters in force -/
  params : MapParams
  /-- [record; 09_neural_map.md R216; reset: the same] parameters that the next commit reloads -/
  paramsNext : MapParams
  /-- [per cent; 09_neural_map.md R218; reset 100] the host's ceiling -/
  ceiling : Nat
  /-- [count; 09_neural_map.md R218; reset 0] spans in a row without a line limit or backlog -/
  cleanSpans : Nat
  /-- [1; 09_neural_map.md R218; reset 0] a training operation hit its budget in this span -/
  spanLines : Bool
  /-- [1; 09_neural_map.md R218; reset 0] FLD_ADAM left a backlog above its COUNT in this span -/
  spanBacklog : Bool
  /-- [1; 09_neural_map.md R210; reset 0] `FLD_LINE_LIMIT` recorded in this span -/
  limitSaid : Bool
  /-- [count; 09_neural_map.md R224; reset 0] samples in absent acres in this span -/
  spanAbsent : Nat
  /-- [count; 09_neural_map.md R224; reset 0] NaN decoder outputs in this span, and the index of the first operation that found one -/
  spanNonfinite : Nat
  nonfiniteOp : Nat
  /-- [64 words; 09_neural_map.md R224; reset: none] first absent key of this span -/
  firstAbsent : Option Nat
  /-- [at most 65,536 acres; 09_neural_map.md R196; reset empty] the map, in key order -/
  acres : List Acre
  /-- [48 B; 09_neural_map.md R219; reset: none] digest of the loaded decoder -/
  decoder : Option (List Byte)
  /-- [map; 09_neural_map.md R219; reset empty] ray endpoints of this span, by acre key -/
  spanEnds : List (Nat × Nat)
  /-- [map; 09_neural_map.md R219; reset empty] render samples of this span, by acre key -/
  spanRenders : List (Nat × Nat)
  deriving DecidableEq, Repr

end Sys2Proof.Machine
end

