-- ==== Sys2Proof/Machine/TypesFusion.lean ====
section
/-!
DEFINITION. The pieces of state of the fusion engine, the tracks, the pose record and the motion port (chapter 10).
Numbers of the filter are held as the bit patterns of their formats.
-/
namespace Sys2Proof.Machine

/-- The head state that a pose record shows (R233, R244). -/
structure Head where
  dt : Nat
  /-- FP64 x 3 -/
  pos : List Dword
  /-- FP32 x 4 -/
  quat : List Word
  /-- FP32 x 3 -/
  vel : List Word
  /-- FP32 x 3 -/
  rate : List Word
  /-- FP32 -/
  posStd : Word
  /-- FP32 -/
  attStd : Word
  deriving DecidableEq, Repr

/-- The ego filter: its instant, mean and covariance (R226, R231, R232), FP64 patterns. -/
structure Ego where
  dt : Nat
  mean : List Dword
  cov : List Dword
  deriving DecidableEq, Repr

/-- An item of a measurement input, with what its operation gives: `KIND`, `SOURCE`, `RIG`, `NOISE`, and the factor on `NOISE` of a
flagged input (R235, R236); a late one waits so for FUS_REPROP (R238). -/
structure LateItem where
  kind : Nat
  source : Nat
  rig : Nat
  noise : Nat
  factor : Nat
  dt : Nat
  data : List Byte
  deriving DecidableEq, Repr

/-- An inertial record that has propagated the filter, with its input and the factor on the process noise (R232, R236, R242). -/
structure PropRecord where
  input : Nat
  noise : Nat
  bytes : List Byte
  deriving DecidableEq, Repr

/-- A binding of the propagation unit to an inertial ring (R232). -/
structure Binding where
  input : Nat
  ringOffset : Nat
  ringRecs : Nat
  flagFirst : Nat
  flagCount : Nat
  endGrain : Nat
  nextRec : Nat
  deriving DecidableEq, Repr

/-- An estimate of one quantity by one source in this span (R241). -/
structure VoteEst where
  quantity : Nat
  source : Nat
  value : List Word
  sigma : Word
  deriving DecidableEq, Repr

/-- An observation of an object that FUS_ANCHOR queued for filing into place memory (R250, R292). -/
structure Filing where
  track : Nat
  dt : Nat
  label : Nat
  deriving DecidableEq, Repr

/-- The pose parameters of R252, each as its command gives it. -/
structure PoseParams where
  posBound : Word
  attBound : Word
  maxGapNs : Nat
  gate : Word
  maxMisses : Nat
  retroSpans : Nat
  voteK : Nat
  requalify : Nat
  primary : Nat
  oowFrac : Nat
  deriving DecidableEq, Repr

/-- The fusion engine (chapter 10). -/
structure Fusion where
  /-- [1; 10_fusion_and_pose.md R253; reset 1] `EVT_EN` -/
  evtEn : Bool
  /-- [1; 10_fusion_and_pose.md R253; reset 0] `MISMATCH` -/
  mismatch : Bool
  /-- [1; 10_fusion_and_pose.md R253; reset 0] `TRACK_FULL` -/
  trackFull : Bool
  /-- [1; 10_fusion_and_pose.md R253; reset 0] `CONTRADICTION` -/
  contradiction : Bool
  /-- [1; 10_fusion_and_pose.md R253; reset 0] `LATE_DROPPED` -/
  lateDropped : Bool
  /-- [1; 10_fusion_and_pose.md R230, R253; reset 0] the ego state is initialised -/
  initialised : Bool
  /-- [8; 10_fusion_and_pose.md R253; reset 0] `PERMIT_STATUS.LAST_CAUSE` -/
  lastCause : Byte
  /-- [1; 10_fusion_and_pose.md R253; reset 0] `PERMIT_STATUS.FELL` -/
  fell : Bool
  /-- [4 x 8; 10_fusion_and_pose.md R253; reset 0] `FUS_QUARq` -/
  quar : Vector Byte 4
  /-- [32 x count; 10_fusion_and_pose.md R243; reset 0] consistent spans in a row, by quantity x 8 + source -/
  quarOk : List (Nat × Nat)
  /-- [32 x count; 10_fusion_and_pose.md R254; reset 0] spans quarantined, by quantity x 8 + source -/
  quarFor : List (Nat × Nat)
  /-- [6 x 32; 10_fusion_and_pose.md R253; reset 0] `FUS_STALE`, `FUS_NOT_RESIDENT`, `FUS_TRACK_FULL`, `FUS_INPUT_SKIPPED`, `FUS_PROJ_STALE`, `FUS_BAD_CONTEXT` -/
  counts : Vector Word 6
  /-- [8 x 32; 10_fusion_and_pose.md R253; reset 0] `FUS_LATE_DROPPEDc` -/
  lateDrops : Vector Word 8
  /-- [map of 2,048 slots; 10_fusion_and_pose.md R225, R228; reset empty] the handle paged into each resident slot; its context is at 1,024 x slot of the context SRAM -/
  resident : List (Nat × Nat)
  /-- [256 handles; 10_fusion_and_pose.md R229; reset empty] the engine's copy of the free list -/
  freeList : List Nat
  /-- [DRAM address; 10_fusion_and_pose.md R226; reset: none] base of the track table -/
  tableBase : Option Nat
  /-- [list; 10_fusion_and_pose.md R227; reset empty] handles paged out in this span -/
  leftNow : List Nat
  /-- [count; 10_fusion_and_pose.md R229; reset 0] creations dropped in this span -/
  fullSpan : Nat
  /-- [record; 10_fusion_and_pose.md R226; reset 0] the filter -/
  ego : Ego
  /-- [record; 10_fusion_and_pose.md R233; reset 0] the head state -/
  head : Head
  /-- [list; 10_fusion_and_pose.md R233; reset empty] direct-path samples since the filter instant, oldest first -/
  direct : List (Nat × List Byte)
  /-- [history ring; 10_fusion_and_pose.md R237; reset empty] checkpoints, newest first -/
  history : List Ego
  /-- [DRAM address and pages; 10_fusion_and_pose.md R225; reset: none] the run of partition 0's DRAM that holds the ring, 12 KiB a checkpoint -/
  historyRun : Option (Nat × Nat)
  /-- [count; 10_fusion_and_pose.md R225, R238; reset 0] checkpoints written: the place of the next one in the ring, modulo its places -/
  historyNext : Nat
  /-- [list; 10_fusion_and_pose.md R237; reset empty] inertial records of the history window, newest first -/
  inertialLog : List PropRecord
  /-- [list of at most 64; 10_fusion_and_pose.md R238; reset empty] the late queue, oldest first -/
  late : List LateItem
  /-- [8 x count; 10_fusion_and_pose.md R254; reset 0] late items dropped in this span -/
  lateSpan : Vector Nat 8
  /-- [8 x us; 10_fusion_and_pose.md R254; reset 0] age of the oldest late item dropped in this span -/
  lateAge : Vector Nat 8
  /-- [list; 10_fusion_and_pose.md R241; reset empty] this span's estimates -/
  votes : List VoteEst
  /-- [record; 10_fusion_and_pose.md R252; reset: the defaults of R252] parameters in force -/
  params : PoseParams
  /-- [16; 10_fusion_and_pose.md R244; reset 0] `FRAME_ID` -/
  frameId : Half
  /-- [16; 10_fusion_and_pose.md R245; reset 0] `FRAME_ID` of the record published last -/
  frameIdPub : Half
  /-- [32; 10_fusion_and_pose.md R244; reset 0] `SEQ` of the next record -/
  seq : Word
  /-- [7; 10_fusion_and_pose.md R245; reset 0] flags that the next record carries: bits 10, 9, 7, 6, 5, 4 of `POSE_FLAGS` at their places -/
  sticky : Word
  /-- [8; 10_fusion_and_pose.md R239; reset 0] `LATE_COUNT` of the next record -/
  lateCount : Byte
  /-- [list; 10_fusion_and_pose.md R232; reset empty] active FUS_INERTIAL bindings -/
  binds : List Binding
  /-- [ns; 10_fusion_and_pose.md R248; reset: none] DT of the last propagation -/
  lastProp : Option Nat
  /-- [1; 10_fusion_and_pose.md R248; reset 0] a residue mismatch of the propagation unit stands -/
  propBad : Bool
  /-- [1; 10_fusion_and_pose.md R248; reset 0] the record of a gap or of leaving service has been published -/
  gapSaid : Bool
  /-- [1; 10_fusion_and_pose.md R236; reset 0] process noise doubled for this span -/
  noiseDouble : Bool
  /-- [list; 10_fusion_and_pose.md R235; reset empty] requests of this span: camera, x, y -/
  requests : List (Nat × Nat × Nat)
  /-- [list; 10_fusion_and_pose.md R227; reset empty] tracks in view in this span -/
  inView : List Nat
  /-- [list; 10_fusion_and_pose.md R227; reset empty] tracks observed in this span -/
  observed : List Nat
  /-- [list; 10_fusion_and_pose.md R250; reset empty] observations that wait to be filed, oldest first -/
  filing : List Filing
  /-- [list; 12_place_memory.md R292; reset empty] the vector ID the object memory keeps against each track -/
  vectors : List (Nat × Nat)
  /-- [ns; 10_fusion_and_pose.md R230; reset: none] DT from which the at-rest average runs -/
  alignFrom : Option Nat
  /-- [list; 10_fusion_and_pose.md R230; reset empty] records averaged -/
  alignRecs : List (List Byte)
  /-- [2 x 96 B; 10_fusion_and_pose.md R247; reset: the reset record of R245] the motion port buffers -/
  bufs : Vector (List Byte) 2
  /-- [1; 10_fusion_and_pose.md R247; reset 0] the buffer that is current -/
  current : Bool
  /-- [1; 10_fusion_and_pose.md R247; reset: none] the buffer bound to a transaction -/
  bound : Option Bool
  deriving DecidableEq, Repr

end Sys2Proof.Machine
end

