-- ==== Sys2Proof/Machine/TypesHost.lean ====
section
/-!
DEFINITION. The pieces of state of the pins, the device as a whole, the host port, the mailboxes and the commands in
flight. Every field's docstring opens with its width, the file and rule of spec/ that names it, and its reset value.
-/
namespace Sys2Proof.Machine

/-- The pins whose order of change the spec fixes (R249, R388, R391). -/
inductive PinName where
  | motionPermit | faultN | thermtripN | hostIrqN | poseStrobe | ppsOut
  | trigOut (n : Fin 16)
  deriving DecidableEq, Repr

/-- One change of a pin. -/
structure PinEdge where
  pin : PinName
  level : Bool
  deriving DecidableEq, Repr

/-- The level of every pin that a rule of the spec moves, and the model's own list of their changes. -/
structure Pins where
  /-- [1; 20_reset_and_boot.md R433; reset 0 (the cold reset is in progress, DESIGN CHOICE, log 3)] input -/
  poresetN : Bool
  /-- [1; 20_reset_and_boot.md R441; reset 1 (DESIGN CHOICE, log 3)] input -/
  sysresetN : Bool
  /-- [2; 20_reset_and_boot.md R436; reset 0 (DESIGN CHOICE, log 3)] `BOOT_SRC[1:0]` as latched at the rise of PORESET_N -/
  bootSrc : BitVec 2
  /-- [1; 10_fusion_and_pose.md R248; reset 0] -/
  motionPermit : Bool
  /-- [1; 19_faults_and_event_recorder.md R419; reset 0, asserted] level, 0 while a fault is signalled -/
  faultN : Bool
  /-- [1; 17_power_and_thermal.md R388; reset 1, released] level -/
  thermtripN : Bool
  /-- [1; 14_host_port.md R338; reset 1, released] level -/
  hostIrqN : Bool
  /-- [1; 10_fusion_and_pose.md R247; reset 0 (DESIGN CHOICE, log 4)] toggles at each published record -/
  poseStrobe : Bool
  /-- [1; 02_disciplined_time.md R48; reset 0] -/
  ppsOut : Bool
  /-- [16 x 1; 02_disciplined_time.md R46; reset 0, idle] -/
  trigOut : Vector Bool 16
  /-- [1; 05_inertial_front_end.md R121; reset 0] filtered level of SYNC_IN -/
  syncIn : Bool
  /-- [1; 17_power_and_thermal.md R384; reset 1, released] filtered level of PWR_LIMIT_N -/
  pwrLimitN : Bool
  /-- [1; 10_fusion_and_pose.md R246; reset 1, released] motion port chip-select -/
  mportCsN : Bool
  /-- [bytes; 10_fusion_and_pose.md R246; reset: high impedance] what MPORT_MISO last shifted out; `none`: high impedance -/
  mportMiso : Option (List Byte)
  /-- [list; the MODEL'S OWN, log 5; reset empty (DESIGN CHOICE, log 5)] changes of the output pins, newest first -/
  edges : List PinEdge
  deriving DecidableEq, Repr

/-- Where the device stands between power and service (R432, R437 to R439, R391, R418). -/
inductive Phase where
  /-- the rails are down (R446) -/
  | unpowered
  /-- PORESET_N is low: a cold reset (R433) -/
  | coldReset
  /-- a warm reset that has not been released (R441) -/
  | warmReset
  /-- the boot ROM runs (R437, R438) -/
  | bootRom
  /-- DRAM initialises, or leaves self-refresh (R437, R438) -/
  | dramInit
  /-- firmware is read and verified (R402) -/
  | fwVerify
  /-- verified firmware starts (R437) -/
  | fwStart
  /-- READY, or SERVICE while the span controller is not STOPPED (R354) -/
  | ready
  /-- parked (R391) -/
  | parked
  /-- WAKE received, firmware not yet resumed (R393) -/
  | waking
  /-- RECOVERY (R402) -/
  | recovery
  /-- FAULT (R418) -/
  | fault
  deriving DecidableEq, Repr

/-- The device as a whole. -/
structure Dev where
  /-- [enum; 20_reset_and_boot.md R437; reset: cold reset in progress (DESIGN CHOICE, log 3)] -/
  phase : Phase
  /-- [1; 20_reset_and_boot.md R434; reset 0] the boot under way is a warm boot -/
  warmBoot : Bool
  /-- [1; 20_reset_and_boot.md R433; reset 0] READY has been reached since PORESET_N rose -/
  everReady : Bool
  /-- [1; 20_reset_and_boot.md R402, R439; reset 0] RECOVERY was entered for host-port boot, with no slot failed -/
  hostPortBoot : Bool
  /-- [1; 14_host_port.md R340; reset 0] the host port answers frames -/
  portUp : Bool
  /-- [32; 14_host_port.md R334; reset 0x00000001] `RESET_CAUSE` -/
  resetCause : Word
  /-- [1; 19_faults_and_event_recorder.md R418; reset 0] a fatal error is present -/
  fatal : Bool
  /-- [1; 14_host_port.md R334; reset 0] `STATUS.FW_SLOT`, the running firmware image -/
  fwSlot : Bool
  /-- [1; 14_host_port.md R334; reset 0] firmware runs, so `DEV_REV` shows its release -/
  fwUp : Bool
  /-- [1; 15_service_interface.md R356; reset 0] a SYS_RESET waits its 1 ms -/
  resetPending : Bool
  /-- [1; 17_power_and_thermal.md R391; reset 0] the stop boundary of a SYS_PARK is past -/
  parkReady : Bool
  /-- [1; 20_reset_and_boot.md R435; reset 0] the watchdog is armed -/
  wdArmed : Bool
  /-- [2 x 1; 20_reset_and_boot.md R435; reset 0] bit n: processor n refreshed in the current period -/
  wdBits : Vector Bool 2
  /-- [2 x 1; 19_faults_and_event_recorder.md R417; reset 0] the control processor is halted by the debugger (R411) or hung -/
  cpHalted : Vector Bool 2
  /-- [1; 20_reset_and_boot.md R440; reset 0] DRAM is in self-refresh -/
  selfRefresh : Bool
  /-- [1; 20_reset_and_boot.md R440; reset 0] DRAM holds what it held before the reset -/
  dramKept : Bool
  /-- [1; 02_disciplined_time.md R45; reset 0] the Ethernet bridge forwards -/
  ethForward : Bool
  /-- [32; 01_architecture.md R14; reset 0 (DESIGN CHOICE, log 4)] the value Rokan firmware or the debugger last read -/
  fwReadData : Word
  deriving DecidableEq, Repr

/-- The host port (chapter 14). -/
structure Port where
  /-- [2; 14_host_port.md R325, R334; reset 0] 0: 1S-1S-1S, 1: 8D-8D-8D -/
  mode : BitVec 2
  /-- [1; 14_host_port.md R330, R334; reset 0] -/
  crcEn : Bool
  /-- [6; 14_host_port.md R326, R334; reset 20] -/
  latency : BitVec 6
  /-- [8; 14_host_port.md R334; reset 0] the error bits of `HOST_PORT_ERR` -/
  err : Byte
  /-- [16; 14_host_port.md R334; reset 0] `ERR_COUNT`, saturating -/
  errCount : Half
  /-- [32; 14_host_port.md R334; reset 0] `IRQ_STATUS` -/
  irqStatus : Word
  /-- [32; 14_host_port.md R334; reset 0] `IRQ_MASK` -/
  irqMask : Word
  /-- [bytes; 14_host_port.md R329; reset empty (DESIGN CHOICE, log 4)] the data bytes the last read frame drove -/
  readData : List Byte
  /-- [16; 14_host_port.md R330; reset: none] the CRC trailer it drove -/
  readCrc : Option Half
  /-- [5 x 32; 14_host_port.md R341; reset 0] direct registers held at the entry to PARKED: offsets 0x000 to 0x010 -/
  heldRegs : Vector Word 5
  deriving DecidableEq, Repr

/-- A state of a mailbox (R334). -/
inductive MbxState where
  | closed | opened | scrubbing
  deriving DecidableEq, Repr

/-- A submission entry with its opcode (R345). -/
structure SubEntry where
  opcode : Half
  entry : Entry
  deriving DecidableEq, Repr

/-- A completion entry (R352). -/
structure Completion where
  tag : Half
  status : Half
  r0 : Word
  r1 : Word
  r2 : Word
  r3 : Word
  unsolicited : Bool
  lost : Byte
  opcode : Half
  dt : Dword
  deriving DecidableEq, Repr

/-- A pose subscription (R363). -/
structure PoseSub where
  ringOffset : Nat
  ringRecords : Nat
  decimate : Nat
  notifyEvery : Nat
  delivered : Nat
  sinceNotice : Nat
  lastPermit : Bool
  deriving DecidableEq, Repr

/-- One mailbox (chapters 14 and 15). -/
structure Mbx where
  /-- [2; 14_host_port.md R334; reset CLOSED] `MBX_STATEn.STATE` -/
  state : MbxState
  /-- [2; 14_host_port.md R334; reset 0] -/
  partition : Fin 4
  /-- [1; 14_host_port.md R333; reset 0] bulk window mapped -/
  bulkMapped : Bool
  /-- [6; 14_host_port.md R334; reset 0] submission head -/
  sqHead : BitVec 6
  /-- [6; 14_host_port.md R334; reset 0] submission tail, `MBX_DOORBELLn` -/
  sqTail : BitVec 6
  /-- [8; 14_host_port.md R334; reset 0] completion head -/
  cqHead : Byte
  /-- [8; 14_host_port.md R334; reset 0] completion tail -/
  cqTail : Byte
  /-- [64 x 256 B; 14_host_port.md R333; reset: unlisted bytes read 0 (DESIGN CHOICE, log 6)] submission ring SRAM -/
  sq : List Host.Cell
  /-- [256 x 32 B; 14_host_port.md R333; reset: unlisted bytes read 0 (DESIGN CHOICE, log 6)] completion ring SRAM -/
  cq : List Host.Cell
  /-- [device address; 14_host_port.md R333; reset 0 (DESIGN CHOICE, log 4)] base of the 2 MiB buffer in DRAM that the window is mapped onto -/
  bulkBase : Nat
  /-- [list; 14_host_port.md R337; reset empty] completions held for want of ring space, oldest first -/
  held : List Completion
  /-- [256; 15_service_interface.md R362; reset 0] subscribed sources -/
  subSources : BitVec 256
  /-- [8; 15_service_interface.md R362; reset 0] least severity subscribed -/
  subSeverity : Byte
  /-- [8; 15_service_interface.md R361; reset 0] event entries dropped since the last delivered one, saturating -/
  lostEvents : Byte
  /-- [8; 15_service_interface.md R361; reset 0] pose notices dropped -/
  lostNotices : Byte
  /-- [8; 15_service_interface.md R361; reset 0] graph entries dropped -/
  lostGraphs : Byte
  /-- [record; 15_service_interface.md R363; reset: none] -/
  poseSub : Option PoseSub
  deriving DecidableEq, Repr

/-- What a command in flight waits for, with what it needs when that comes (R350, R357, R358). -/
inductive JobKind where
  /-- SCHED_START: waits for S0 (R81) -/
  | schedStart
  /-- SCHED_STOP: waits for the stop boundary (R81) -/
  | schedStop
  /-- SYS_PARK: waits for the stop boundary, then parks (R391) -/
  | sysPark
  /-- SCHED_SELECT (R77): mode, rung and slot; `latched` once a latch has applied it -/
  | schedSelect (mode rung slot : Nat) (latched : Bool)
  /-- PART_GRANT or PART_RELEASE: waits for the scrub, then for a boundary (R407) -/
  | partGrant (part : Fin 4)
  /-- KEY_ROTATE (R320) -/
  | keyRotate (ns : Nat)
  /-- PWR_CAP: waits until the cap is met or unattainable (R383) -/
  | pwrCap
  /-- STREAM_COMMIT (R88): the descriptors that it commits, by channel -/
  | streamCommit (descs : List (Fin 32 × List Byte))
  /-- STREAM_SYNC (R123) -/
  | streamSync
  /-- STREAM_SYNC_MODE (R123) -/
  | syncMode (ignore : Bool)
  /-- TIME_SET_TOD (R50) -/
  | setTod (base : Base) (seconds : Nat)
  /-- POSE_INIT mode 0 (R230) -/
  | poseGiven (payload : List Byte)
  /-- POSE_INIT mode 1: the boundary from which its average runs, and `averaged` once the 200 ms are over (R230) -/
  | poseAlign (payload : List Byte) (start : Option Nat) (averaged : Bool)
  /-- POSE_CONFIG (R252) -/
  | poseConfig (payload : List Byte)
  /-- TRACK_DELETE (R229) -/
  | trackDelete (handle : Nat)
  /-- MAP_CONFIG -/
  | mapConfig (payload : List Byte)
  /-- MAP_TRAIN (R218) -/
  | mapTrain (ceiling : Nat)
  /-- MAP_ACRE_DELETE (R219): `removed` once the directory no longer holds the acre -/
  | acreDelete (key : Nat) (removed : Bool)
  /-- PLACE_QUERY and the SCENE_ queries: the engine's query number (R285) -/
  | placeQuery (query : Nat)
  /-- PLACE_INSERT: vectors left to insert, then publication (R288, R281) -/
  | placeInsert (index count firstId left : Nat)
  /-- PLACE_DELETE: waits for publication (R290) -/
  | placeDelete (index id : Nat)
  /-- PLACE_COMPACT: waits for publication of the new shard (R291) -/
  | placeCompact (index : Nat)
  /-- PLACE_DESTROY: waits until no query runs (R358) -/
  | placeDestroy (index : Nat)
  /-- MODEL_LOAD or OBJ_LOAD, the last piece: waits until the object is loaded (R360) -/
  | objLoad (handle word0 : Nat)
  /-- OBJ_PROMOTE (R307) -/
  | objPromote (handle : Nat)
  /-- OBJ_PLACE (R308) -/
  | objPlace (handle placement : Nat) (mirror : Bool)
  /-- OBJ_EVICT (R308) -/
  | objEvict (handle : Nat)
  /-- OBJ_UNLOAD (R308) -/
  | objUnload (handle : Nat)
  deriving DecidableEq, Repr

/-- A command accepted and not completed (R348). -/
structure Job where
  mbx : Fin 8
  tag : Half
  opcode : Half
  acceptDt : Nat
  kind : JobKind
  deriving DecidableEq, Repr

/-- The command side of Rokan firmware on `CP0` (chapter 15). -/
structure Fw where
  /-- [list; 14_host_port.md R336, 15_service_interface.md R349; reset empty] entries copied and not accepted, oldest first -/
  queue : List SubEntry
  /-- [list; 15_service_interface.md R348, R350; reset empty] commands accepted and not completed, oldest first -/
  jobs : List Job
  deriving DecidableEq, Repr

end Sys2Proof.Machine
end

