-- ==== Sys2Proof/Machine/TypesIfe.lean ====
section
/-!
DEFINITION. The pieces of state of the inertial front end and the encoder channels (chapter 5).
-/
namespace Sys2Proof.Machine

/-- A sample in the chain: its instant in ns with a 16-bit fraction, six axes of 26 bits, and whether a fill sample
reached it (R113, R114). -/
structure ChainSample where
  tau : Nat
  axes : List (BitVec 26)
  filled : Bool
  deriving DecidableEq, Repr

/-- A half-band stage's delay line, newest first, and the inputs it has taken since the last start (R114). -/
structure HbLine where
  line : List ChainSample
  taken : Nat
  deriving DecidableEq, Repr

/-- A binding of an inertial input (R110). -/
structure IfeBinding where
  channel : Fin 32
  direct : Bool
  filterSet : Nat
  deriving DecidableEq, Repr

/-- One inertial input (R109 to R120). -/
structure IfeInput where
  /-- [record; 05_inertial_front_end.md R110, R128; reset: none] the binding in force -/
  binding : Option IfeBinding
  /-- [record; 05_inertial_front_end.md R110; reset: none] a binding that waits for its boundary -/
  nextBinding : Option IfeBinding
  /-- [1; 05_inertial_front_end.md R128; reset 0] the input runs -/
  runs : Bool
  /-- [64.16; 05_inertial_front_end.md R113; reset: none] the instant of the last sample -/
  lastTau : Option Nat
  /-- [6 x 16; 05_inertial_front_end.md R113; reset 0] the last sample -/
  lastAxes : List Half
  /-- [64.16; 05_inertial_front_end.md R113; reset 0] the tracked period P -/
  period : Nat
  /-- [delay lines; 05_inertial_front_end.md R114; reset empty] -/
  stages : List HbLine
  /-- [samples; 05_inertial_front_end.md R116; reset empty] outputs of the last stage, newest first -/
  outs : List ChainSample
  /-- [ns; 05_inertial_front_end.md R118; reset 0] the instant of the last start, restart or release -/
  startDt : Nat
  /-- [list; 05_inertial_front_end.md R121; reset empty] stamps and data of the samples of a hold that the end of it may still take -/
  heldData : List (Nat × List Byte)
  /-- [count; 05_inertial_front_end.md R118; reset 0] outputs of the last stage since the last start -/
  outsTaken : Nat
  /-- [ns; 05_inertial_front_end.md R117; reset 0] the grid instant whose record completes next -/
  nextT : Nat
  /-- [32; 05_inertial_front_end.md R119; reset 0] `SEQ` of the next record -/
  seq : Word
  /-- [1; 05_inertial_front_end.md R118; reset 0] a valid record has completed since the last start -/
  settled : Bool
  /-- [list of at most 16; 05_inertial_front_end.md R120; reset empty] completed records no IFE_EMIT has written, oldest first -/
  kept : List (List Byte)
  /-- [count; 05_inertial_front_end.md R129; reset 0] records lost in this span -/
  lostSpan : Nat
  /-- [5 x 32; 05_inertial_front_end.md R128; reset 0] `IN_DUPn`, `IN_JITTERn`, `IN_FILLn`, `IN_GAPn`, `OUT_LOSTn` -/
  counts : Vector Word 5
  deriving DecidableEq, Repr

/-- A sample of an encoder: its instant, the position, and the faults of its span once the span is over (R125 to R127). -/
structure EncSample where
  instant : Nat
  pos : Word
  overs : Bool
  quad : Bool
  deriving DecidableEq, Repr

/-- One encoder channel (R125 to R127). -/
structure Encoder where
  /-- [2 x 1; 05_inertial_front_end.md R125; reset 0 (DESIGN CHOICE, log 4)] filtered levels of `ENC_A` and `ENC_B` -/
  levelA : Bool
  levelB : Bool
  /-- [32; 05_inertial_front_end.md R128; reset 0] `ENC_POSe` -/
  pos : Word
  /-- [32; 05_inertial_front_end.md R127; reset 0 (DESIGN CHOICE, log 4)] position at the last index -/
  indexPos : Word
  /-- [32; 05_inertial_front_end.md R127; reset 0 (DESIGN CHOICE, log 4)] TS32 of the last index -/
  indexTs : Word
  /-- [64; 02_disciplined_time.md R43; reset 0 (DESIGN CHOICE, log 4)] the full DT beside that TS32 -/
  indexDt : Dword
  /-- [1; 05_inertial_front_end.md R127; reset 0] an index no record has carried -/
  indexNew : Bool
  /-- [ns; 05_inertial_front_end.md R126; reset: none] DT of the last accepted transition of each line -/
  lastA : Option Nat
  lastB : Option Nat
  /-- [3; 05_inertial_front_end.md R128; reset 0] `INDEX_SEEN`, `QUAD_ERR`, `OVERSPEED` as bits 2 to 0 -/
  status : BitVec 3
  /-- [1; 05_inertial_front_end.md R128; reset 0] `SPAN_INVALID` -/
  spanInvalid : Bool
  /-- [list of DT pairs; 05_inertial_front_end.md R126; reset empty] first instant and end of each invalid span (no end while it runs), whose wheel input the
  fusion engine drops -/
  invalid : List (Nat × Option Nat)
  /-- [2 x 1; 05_inertial_front_end.md R127; reset 0] the cause bits of this span's invalidity: overspeed, quadrature -/
  spanOver : Bool
  spanQuad : Bool
  /-- [1; 05_inertial_front_end.md R126; reset 0] the next clean record carries DISCONT -/
  discont : Bool
  /-- [32; 05_inertial_front_end.md R128; reset 0] `ENC_OVERSPEEDe` -/
  overspeed : Word
  /-- [1; 05_inertial_front_end.md R128; reset 0] the channel runs -/
  runs : Bool
  /-- [ns; 05_inertial_front_end.md R125; reset 0] the next sample instant -/
  nextSample : Nat
  /-- [ns; 05_inertial_front_end.md R125; reset 0] `SAMPLE_NS` as the last boundary found it -/
  sampleNs : Nat
  /-- [list; 05_inertial_front_end.md R127; reset empty] samples whose record has not completed -/
  sampled : List EncSample
  /-- [list of at most 16; 05_inertial_front_end.md R120; reset empty] kept records, oldest first -/
  kept : List (List Byte)
  /-- [count; 05_inertial_front_end.md R129; reset 0] records lost in this span -/
  lostSpan : Nat
  deriving DecidableEq, Repr

/-- An `IFE_EMIT` that is active (R120). -/
structure Emit where
  input : Nat
  ringOffset : Nat
  ringRecs : Nat
  flagFirst : Nat
  flagCount : Nat
  endGrain : Nat
  written : Nat
  deriving DecidableEq, Repr

/-- The inertial front end (chapter 5). -/
structure Ife where
  /-- [1; 05_inertial_front_end.md R128; reset 0] `SYNC_IGNORE` -/
  syncIgnore : Bool
  /-- [1; 05_inertial_front_end.md R128; reset 0] a `SW_SYNC` that waits for its boundary -/
  swSync : Bool
  /-- [1; 05_inertial_front_end.md R121; reset 0] a hold is on -/
  held : Bool
  /-- [ns; 05_inertial_front_end.md R121, R122; reset 0] the instant from which the hold counts -/
  holdSince : Nat
  /-- [1; 05_inertial_front_end.md R128; reset 0] `SYNC_STUCK` -/
  stuck : Bool
  /-- [1; 05_inertial_front_end.md R128; reset 0] `SYNC_STUCK_SEEN` -/
  stuckSeen : Bool
  /-- [1; 05_inertial_front_end.md R128; reset 0] `GAP` -/
  gap : Bool
  /-- [64; 05_inertial_front_end.md R128; reset 0] `IFE_SYNC_DT` -/
  syncDt : Dword
  /-- [32; 05_inertial_front_end.md R128; reset 0] latched `IFE_SYNC_DT_HI` -/
  syncDtHi : Word
  /-- [32; 05_inertial_front_end.md R123; reset 0] qualified `SYNC_IN` edges counted; the register map does not show them -/
  syncEdges : Word
  /-- [ns; 05_inertial_front_end.md R121; reset 0] samples stamped before this instant are discarded after a release -/
  restartAt : Nat
  /-- [4 inputs; 05_inertial_front_end.md R109; reset unbound] -/
  inputs : Vector IfeInput 4
  /-- [8 channels; 05_inertial_front_end.md R109; reset stopped] -/
  encs : Vector Encoder 8
  /-- [list; 05_inertial_front_end.md R120; reset empty] active IFE_EMIT operations -/
  emits : List Emit
  deriving DecidableEq, Repr

end Sys2Proof.Machine
end

