-- ==== Sys2Proof/Machine/TypesMem.lean ====
section
/-!
DEFINITION. The pieces of state of the DRAM controllers, the memory mover, the flash controller and the objects
(chapter 13).
-/
namespace Sys2Proof.Machine

/-- Where a pin of an object comes from (R306). -/
inductive Pin where
  /-- a resident span image, by slot -/
  | image (slot : Nat)
  /-- a completed OBJ_PROMOTE of a user -/
  | promoted (user : Nat)
  /-- an OBJ_PIN of a user -/
  | pinned (user : Nat)
  /-- a running job or service request -/
  | job (id : Nat)
  deriving DecidableEq, Repr

/-- An object loaded through MODEL_ and OBJ_ commands (R304 to R308, R359, R360). -/
structure Obj where
  /-- its handle (R359) -/
  handle : Nat
  /-- TOTAL, in bytes -/
  size : Nat
  /-- PLACE_BACKED -/
  backed : Bool
  mirror : Bool
  /-- the bytes that have come so far, or all of them: of a backed object, what flash holds -/
  bytes : List Byte
  /-- what the write group under way writes: flash holds it once the group is complete (R314) -/
  staged : Option (List Byte)
  /-- its header gives it the tile layout of R312 -/
  tiles : Bool
  /-- the load is complete (R360) -/
  loaded : Bool
  /-- the device address at which the memory manager keeps it -/
  base : Nat
  /-- resident pages -/
  resident : List Nat
  /-- pages that could not be read (R322) -/
  unreadable : List Nat
  pins : List Pin
  /-- the user that its pages are charged to (R305): a mailbox, 8 the map, 9 the place memory, 10 the object memory -/
  charged : Nat
  evictPending : Bool
  /-- an eviction whose drop waits for a boundary -/
  dropping : Bool
  /-- users whose promotion is in flight, the first one first -/
  promoting : List Nat
  poisoned : Bool
  /-- a reload that clears the poison at the next boundary -/
  clearing : Bool
  /-- OBJ_UNLOAD accepted: freed at the next boundary -/
  freeing : Bool
  /-- flash pages of the load or the placement change still to be written -/
  flashLeft : Nat
  /-- the bytes of it that flash holds whole, 0 for none -/
  flashSize : Nat
  /-- placement and MIRROR before a change under way, to which a failed write returns (R308, R317) -/
  before : Option (Bool × Bool)
  lastUse : Nat
  deriving DecidableEq, Repr

/-- What a mover request moves (R310). -/
inductive MoverWork where
  /-- class 0: a retirement copy of a page -/
  | retire (page : Nat)
  /-- class 0: the reload of a poisoned line's page of an object -/
  | reload (handle page line : Nat)
  /-- class 0: the reload of a poisoned line's page of an acre -/
  | reloadAcre (key page line : Nat)
  /-- class 1: node blocks of a flash shard of an index, for the rounds of its queries -/
  | nodeBlocks (index serial : Nat) (blocks : List Nat)
  /-- class 2: a page of an object -/
  | promote (handle page : Nat)
  /-- class 2: an acre read from flash -/
  | acreFill (key : Nat)
  /-- class 3: a snapshot of an acre, DRAM to DRAM -/
  | snapshot (key : Nat)
  /-- class 3: a snapshot of an acre to flash -/
  | acreWrite (key : Nat)
  /-- class 3: a page of an object to flash -/
  | objWrite (handle page : Nat)
  /-- class 4: a spill batch of an index -/
  | spill (index : Nat)
  deriving DecidableEq, Repr

/-- A queued mover request. -/
structure MoverReq where
  cls : Fin 5
  work : MoverWork
  /-- bytes still to be moved -/
  bytes : Nat
  /-- flash pages still to be read -/
  fetch : Nat
  /-- its object is in the tile layout: it moves in tiles of 32 KiB (R312) -/
  tiles : Bool
  /-- a page of it has been read, and waits in a page register -/
  fetched : Bool
  /-- that page waits from an earlier window: the request goes first (R310) -/
  held : Bool
  /-- the page being read failed, and its mirror copy is being read (R321) -/
  onMirror : Bool
  partition : Fin 4
  deriving DecidableEq, Repr

/-- The mover window that is open (R309). -/
structure MvWindow where
  endGrain : Nat
  classMask : Nat
  left : Nat
  deriving DecidableEq, Repr

/-- One copy of a flash page: the block it lies in, its key epoch, whether it is the mirror copy, and the bytes on the part. -/
structure PageCopy where
  die : Nat
  block : Nat
  epoch : Nat
  mirror : Bool
  /-- 16,384 B of encrypted data and 2,048 B of spare area (R315, R318) -/
  raw : List Byte
  deriving DecidableEq, Repr

/-- What a flash page belongs to. -/
inductive PageOwner where
  | object (handle : Nat)
  | acre (key : Nat)
  /-- the flash shard of an index, and which of its shards: a compaction begins the next -/
  | shard (index serial : Nat)
  /-- the location table of an index (R290) -/
  | location (index : Nat)
  /-- the journal of the map, in namespace 4 (R314) -/
  | journal
  deriving DecidableEq, Repr

/-- A logical page of a namespace (R314, R315). -/
structure FlashPage where
  ns : Fin 5
  lpn : Nat
  owner : PageOwner
  /-- which page of its owner it is -/
  pos : Nat
  writeSeq : Nat
  /-- the plaintext -/
  data : List Byte
  copies : List PageCopy
  deriving DecidableEq, Repr

/-- What a write group writes (R314). -/
inductive GroupKind where
  | object (handle : Nat)
  | acre (key : Nat)
  | spill (index : Nat)
  deriving DecidableEq, Repr

/-- A write group: its pages, mirror copies counted, still to be programmed. -/
structure WriteGroup where
  kind : GroupKind
  ns : Fin 5
  pages : Nat
  mirror : Bool
  left : Nat
  deriving DecidableEq, Repr

/-- A flash block that has been used (R317). -/
structure FlashBlock where
  die : Nat
  block : Nat
  erases : Nat
  reads : Nat
  degraded : Bool
  retired : Bool
  /-- pages programmed since its erase; 0: the block is free -/
  filled : Nat
  deriving DecidableEq, Repr

/-- A page being retired or retired (R303). -/
structure Retired where
  page : Nat
  replacement : Nat
  cause : Nat
  copied : Bool
  applied : Bool
  deriving DecidableEq, Repr

/-- The memory tiers (chapter 13). -/
structure MemTiers where
  /-- [3 x 1; 13_memory_tiers.md R323; reset 1] `EVT_EN` of the DRAM controllers, the mover and the flash controller -/
  evtDram : Bool
  evtMover : Bool
  evtFlash : Bool
  /-- [7; 13_memory_tiers.md R323; reset 0x19] `FC_BG_SHARE` -/
  bgShare : BitVec 7
  /-- [1; 13_memory_tiers.md R323; reset 0] DRAM `LOW` -/
  dramLow : Bool
  /-- [1; 13_memory_tiers.md R323; reset 0] DRAM `UE` -/
  dramUe : Bool
  /-- [1; 13_memory_tiers.md R323; reset 0] mover `LOW` -/
  moverLow : Bool
  /-- [1; 13_memory_tiers.md R323; reset 0] mover `UE` -/
  moverUe : Bool
  /-- [1; 13_memory_tiers.md R323; reset 0] flash `LOW` -/
  flashLow : Bool
  /-- [1; 13_memory_tiers.md R323; reset 0] flash `UE` -/
  flashUe : Bool
  /-- [32; 13_memory_tiers.md R323; reset 0] `DC_CE_COUNT` -/
  ceCount : Word
  /-- [32; 13_memory_tiers.md R323; reset 0] `DC_UE_COUNT` -/
  ueCount : Word
  /-- [32; 13_memory_tiers.md R302, R323; reset 0] `DC_SCRUB_LINE` -/
  scrubLine : Nat
  /-- [count; 13_memory_tiers.md R324; reset 0] patrol passes completed -/
  scrubPass : Nat
  /-- [count; 13_memory_tiers.md R324; reset 0] lines corrected in this pass -/
  scrubCorrected : Nat
  /-- [list; 13_memory_tiers.md R303; reset empty] corrected accesses: line and DT -/
  ceLog : List (Nat × Nat)
  /-- [list; 13_memory_tiers.md R303; reset empty] lines that this patrol pass has corrected -/
  passLines : List Nat
  /-- [list; 13_memory_tiers.md R303; reset empty] lines that earlier passes corrected -/
  prevLines : List Nat
  /-- [list; 13_memory_tiers.md R301, R322; reset empty] poisoned lines -/
  poisoned : List Nat
  /-- [list of at most 1,024; 13_memory_tiers.md R303; reset empty, kept on flash] retired pages, oldest first; `DC_REMAP_USED` is its length -/
  remap : List Retired
  /-- [1; 13_memory_tiers.md R303; reset 0] DRAM_RETIRE_FULL recorded -/
  remapFull : Bool
  /-- [32; 13_memory_tiers.md R323; reset 0] `MV_BYTES` -/
  mvBytes : Word
  /-- [list; 13_memory_tiers.md R310; reset empty] the firmware queue, oldest first; `MV_QUEUEDk` counts class k -/
  queue : List MoverReq
  /-- [record; 13_memory_tiers.md R309; reset: none] the window that is open -/
  window : Option MvWindow
  /-- [32; 13_memory_tiers.md R323; reset 0] `FC_UNCORRECTABLE` -/
  fcUncorrectable : Word
  /-- [32; 13_memory_tiers.md R323; reset 0] `FC_RETRIES` -/
  fcRetries : Word
  /-- [count; 13_memory_tiers.md R323; reset 0x10000 (DESIGN CHOICE, log 4: the board's flash is not given)] `FC_FREE_BLOCKS` -/
  freeBlocks : Nat
  /-- [count; 13_memory_tiers.md R324; reset 0x10000 (DESIGN CHOICE, log 4)] good blocks -/
  goodBlocks : Nat
  /-- [32; 13_memory_tiers.md R323; reset 32] `FC_REKEY_RATE` -/
  rekeyRate : Word
  /-- [list; 13_memory_tiers.md R317; reset empty] blocks in use -/
  blocks : List FlashBlock
  /-- [map; 13_memory_tiers.md R314; reset empty; kept by every reset] the pages of the namespaces -/
  pages : List FlashPage
  /-- [list; 13_memory_tiers.md R314; reset empty] write groups under way, oldest first -/
  groups : List WriteGroup
  /-- [64; 13_memory_tiers.md R315; reset 0] `WRITE_SEQ` of the next page -/
  writeSeq : Nat
  /-- [ns; 13_memory_tiers.md R317; reset: none] DT of the last FLASH_SPARE_LOW -/
  spareLowAt : Option Nat
  /-- [list; 13_memory_tiers.md R304; reset empty] loaded objects, in handle order -/
  objects : List Obj
  deriving DecidableEq, Repr

end Sys2Proof.Machine
end

