-- ==== Sys2Proof/Machine/TypesPlace.lean ====
section
/-!
DEFINITION. The pieces of state of place memory and of the place search engine (chapter 12).
-/
namespace Sys2Proof.Machine

/-- A record of a shard (R278). A neighbour is a local index with its epoch offset; a slot that is not listed is empty. A
flash record's `NB_CODE` fields are the codes of the records that its slots name. -/
structure PsRec where
  id : Nat
  epochIn : Nat
  kind : Nat
  /-- the spill epoch of a DRAM record with `SPILLED` set (R280) -/
  spilled : Option Nat
  obsDt : Nat
  label : Nat
  acre : Nat
  code : List Byte
  slots : List (Nat × Nat)
  /-- a DRAM record whose place Rokan firmware has reclaimed (R291) -/
  reclaimed : Bool
  /-- the place of a DRAM record in the run of its index; 0 for a flash record -/
  place : Nat
  deriving DecidableEq, Repr

/-- A vector that waits for insertion (R288). `job` is the mailbox and the tag of its PLACE_INSERT. -/
structure PsInsert where
  obsDt : Nat
  track : Nat
  label : Nat
  kind : Nat
  acre : Nat
  vec : List Byte
  job : Option (Fin 8 × Half)
  deriving DecidableEq, Repr

/-- An index (R275 to R281, R288 to R291). -/
structure PsIndex where
  handle : Nat
  part : Fin 4
  /-- the codebook and the centroid-distance table -/
  tables : List Byte
  dim : Nat
  codeBytes : Nat
  metric : Nat
  degree : Nat
  insertDegree : Nat
  insertL : Nat
  /-- `ALPHA` in 1/64 -/
  alpha : Nat
  spillHigh : Nat
  spillLow : Nat
  mirror : Bool
  dramCap : Nat
  flashBytes : Nat
  /-- the 48-bit epoch -/
  epoch : Nat
  /-- the run of the partition's DRAM that the shard's records lie in, where it takes one (R275, R278) -/
  dramBase : Option Nat
  /-- the records of the DRAM shard by local index; their bytes lie in DRAM from `dramBase` on -/
  dram : List PsRec
  flash : List PsRec
  /-- which of the index's flash shards `flash` is: a compaction begins the next -/
  serial : Nat
  /-- flash shards replaced by a compaction, with the epoch of the new one and their own numbers, oldest first -/
  oldFlash : List (Nat × Nat × List PsRec)
  /-- the vectors that the location table in the namespace lists: those of lower `VECTOR_ID` (R290) -/
  located : Nat
  /-- a change carries the pending epoch -/
  changed : Bool
  /-- a spill batch or a compaction has flash writes outstanding: its vectors, and the shard that a compaction wrote -/
  spillOut : Option Nat
  compactOut : Option (List PsRec)
  /-- the outstanding writes are complete -/
  written : Bool
  /-- spilling goes on until the shard is below `SPILL_LOW` -/
  spilling : Bool
  nextId : Nat
  queue : List PsInsert
  /-- unpublished vectors that a PLACE_INSERT brought: their IDs, with its mailbox and tag -/
  fresh : List (Nat × Fin 8 × Half)
  /-- deleted vectors and their tombstone epochs -/
  tombs : List (Nat × Nat)
  poisoned : Bool
  /-- PLACE_DESTROY accepted -/
  destroying : Bool
  /-- a mismatch of the insert under way has been rerun (R296) -/
  insertRetried : Bool
  /-- filing records dropped, edges dropped, refusals and queries expired in this span (R299) -/
  spanFile : Nat
  spanEdges : Nat
  spanFull : Nat
  spanExpired : Nat
  deriving DecidableEq, Repr

/-- A candidate of a query's queue: its distance, FP32, and its local index (R282). -/
structure PsCand where
  dist : Nat
  idx : Nat
  expanded : Bool
  deriving DecidableEq, Repr

/-- A query that is queued, running or suspended (R280 to R286). -/
structure PsQuery where
  num : Nat
  /-- its 128-byte descriptor -/
  desc : List Byte
  /-- `DIM` FP16 values -/
  vec : List Byte
  submitDt : Nat
  /-- where its result goes in the bulk window -/
  outOffset : Nat
  /-- SCENE_RESEMBLE of a camera: it waits for the descriptor of the camera's next keyframe, which `vec` does not hold yet -/
  awaits : Option Nat
  /-- SCENE_LAST_SEEN: word 3 names the entry of greatest `OBS_DT` -/
  lastSeen : Bool
  /-- taken into a batch, with its epoch and the DT at which it was fixed -/
  taken : Option (Nat × Nat)
  widened : Bool
  rounds : Nat
  blocks : Nat
  /-- the flash walk: its queue, the records visited, and the records of the round whose blocks are being read -/
  queue : List PsCand
  visited : List Nat
  round : List Nat
  walking : Bool
  /-- the exhaustive scan of RECALL has been asked for; node blocks of it are still to come (R295) -/
  scanned : Bool
  scanning : Bool
  deriving DecidableEq, Repr

/-- The place search engine (chapter 12). -/
structure PlaceEngine where
  /-- [1; 12_place_memory.md R298; reset 0] `QUEUE_EN` -/
  queueEn : Bool
  /-- [1; 12_place_memory.md R298; reset 1] `EVT_EN` -/
  evtEn : Bool
  /-- [1; 12_place_memory.md R298; reset 0] `POISONED` -/
  poisoned : Bool
  /-- [1; 12_place_memory.md R298; reset 0] `MISMATCH` -/
  mismatch : Bool
  /-- [8 x 32; 12_place_memory.md R298; reset 0] `PS_QUERIES`, `PS_SHORT`, `PS_WIDENED`, `PS_INSERTS`, `PS_FILE_DROPPED`, `PS_BACKEDGE_DROPPED`, `PS_BLOCKS_READ`, `PS_EXPIRED` -/
  counts : Vector Word 8
  /-- [16 indexes; 12_place_memory.md R274, R275; reset: none open] the index contexts; `PS_EPOCHi` and `PS_OLDEST_EPOCHi` show them -/
  indexes : Vector (Option PsIndex) 16
  /-- [16 x 32; 12_place_memory.md R298; reset 0] latched `PS_EPOCHi_HI` -/
  hiLatch : Vector Word 16
  /-- [list; 12_place_memory.md R293; reset empty] queries submitted and not completed, in order of submission -/
  queries : List PsQuery
  /-- [count; the MODEL'S OWN, log 35; reset 0] number of the next query -/
  nextQuery : Nat
  /-- [1; 12_place_memory.md R296; reset 0] the batch under way has had a mismatch -/
  batchMiss : Bool
  /-- [grain; 12_place_memory.md R293; reset 0] the grain at which the window that runs was issued -/
  windowFrom : Nat
  /-- [count; 12_place_memory.md R293; reset 0] grains of the window in which inserts, spills and scans have had work -/
  insertGrains : Nat
  /-- [grain; 12_place_memory.md R288, R293; reset: none] the last of them -/
  insertAt : Option Nat
  deriving DecidableEq, Repr

end Sys2Proof.Machine
end

