-- ==== Sys2Proof/Machine/TypesPower.lean ====
section
/-!
DEFINITION. The pieces of state of the power manager and of the current ballast (chapters 3 and 17).
-/
namespace Sys2Proof.Machine

/-- What a core's filler does (R72, R178, R378). -/
inductive Filler where
  /-- no filler: work runs, or the clock is stopped -/
  | off
  /-- ramps down after work stopped -/
  | rampDown
  /-- ramps towards, or holds, the claimed ballast level in per cent -/
  | ballast (level : Nat)
  deriving DecidableEq, Repr

/-- The clock and the clamps of one core (R375, R376, R378). -/
structure CorePower where
  /-- [3; 17_power_and_thermal.md R375, R394; reset 5 (DEDUCED, log 25: the rail starts at 0.80 V, which holds OP5 with the largest margin, R376, R447)] the live operating point -/
  op : BitVec 3
  /-- [1; 17_power_and_thermal.md R378, R394; reset 1 (DEDUCED, log 25: no image names the core yet)] `STOPPED` -/
  stopped : Bool
  /-- [24; 17_power_and_thermal.md R386, R387; reset 0] the sensors whose reading clamps this core -/
  thermal : BitVec 24
  /-- [1; 17_power_and_thermal.md R387; reset 0] the thermal clamp ends at the next boundary -/
  thermalEnding : Bool
  /-- [3; 17_power_and_thermal.md R389; reset: none] the monitor clamp and the point whose margin it waits for -/
  monitor : Option (BitVec 3 × BitVec 3)
  /-- [enum; 03_spans_and_schedules.md R72; reset off] -/
  filler : Filler
  /-- [ns; 17_power_and_thermal.md R378, 07_compute_cores.md R178; reset: none] DT at which the clock stops, the ballast having ramped down -/
  stopDue : Option Nat
  deriving DecidableEq, Repr

/-- A copy of the margin table in namespace 4 (R390). The rule gives two copies with CRC-32 and which of them is newer; that a serial number
tells the newer is the model's choice (DESIGN CHOICE, log 25). -/
structure MarginCopy where
  /-- which writing of the table it is -/
  serial : Nat
  /-- the margins of OP0 to OP7 in mV -/
  margins : Vector Nat 8
  /-- the CRC-32 stored with them -/
  crc : Word
  deriving DecidableEq, Repr

/-- The power manager (chapter 17). -/
structure Power where
  /-- [1; 17_power_and_thermal.md R394; reset 1] `TRIM_EN` -/
  trimEn : Bool
  /-- [1; 17_power_and_thermal.md R394; reset 1] `EVT_EN` -/
  evtEn : Bool
  /-- [1; 17_power_and_thermal.md R394; reset 0] `UNATTAINABLE` -/
  unattainable : Bool
  /-- [1; 17_power_and_thermal.md R394; reset 0] `MON_ALARM` -/
  monAlarm : Bool
  /-- [1; 17_power_and_thermal.md R394; reset 0] `THERMTRIP` -/
  thermtrip : Bool
  /-- [1; 17_power_and_thermal.md R394; reset 1] `CAP_MET` -/
  capMet : Bool
  /-- [32; 17_power_and_thermal.md R394; reset 35,000] `PM_CAP_MW`, kept by a warm reset -/
  capMw : Word
  /-- [32; 17_power_and_thermal.md R394; reset 0 (DESIGN CHOICE, log 4)] `PM_POWER_MW` -/
  powerMw : Word
  /-- [3; 17_power_and_thermal.md R394; reset 7 (DESIGN CHOICE, log 4: R380 holds the ceiling at OP7 in rungs 0 to 4)] `PM_OP_CEILING` -/
  ceiling : BitVec 3
  /-- [3; 17_power_and_thermal.md R394; reset 0 (DESIGN CHOICE, log 4)] `PM_RUNG_REQ` -/
  rungReq : BitVec 3
  /-- [32; 17_power_and_thermal.md R394; reset 0x00645F03] `PM_THERM_CFG` -/
  thermCfg : Word
  /-- [32; 17_power_and_thermal.md R394; reset 0x00000032] `PM_LIMIT_CFG` -/
  limitCfg : Word
  /-- [8 cores; 17_power_and_thermal.md R394; reset as each core's fields] -/
  cores : Vector CorePower 8
  /-- [24 x 16 signed; 17_power_and_thermal.md R394; reset 0 (DESIGN CHOICE, log 4)] `PM_TEMPs`, 0.1 degrees C -/
  temps : Vector Half 24
  /-- [8 mV; 17_power_and_thermal.md R390; reset 50 each] `PM_MARGINk` -/
  margins : Vector Nat 8
  /-- [32; 17_power_and_thermal.md R394; reset 0] `PM_MON_ALARM` -/
  monCount : Word
  /-- [32; 17_power_and_thermal.md R394; reset 0 (DESIGN CHOICE, log 4)] `PM_OP_HOURS` -/
  opHours : Word
  /-- [16; 17_power_and_thermal.md R394; reset 0 (DESIGN CHOICE, log 4)] `PM_VRAIL_MV` -/
  vrailMv : Half
  /-- [mV; 17_power_and_thermal.md R376; reset 800, at which the regulator starts (R447)] the voltage the rail is commanded to hold -/
  railMv : Nat
  /-- [1; 17_power_and_thermal.md R384; reset 0] the limit clamp acts -/
  limitClamp : Bool
  /-- [1; 17_power_and_thermal.md R384; reset 0] the limit clamp ends at the next boundary -/
  limitEnding : Bool
  /-- [ns; 17_power_and_thermal.md R395; reset 0] DT at the assertion of PWR_LIMIT_N -/
  limitSince : Nat
  /-- [mW, count; 17_power_and_thermal.md R379; reset 0] sum and number of the power samples of this span -/
  sampleSum : Nat
  sampleCount : Nat
  /-- [count; 17_power_and_thermal.md R382; reset 0] spans in a row at most 85 per cent of the cap -/
  lowSpans : Nat
  /-- [list; 17_power_and_thermal.md R382; reset empty] rung and point at which the average exceeded the cap, with the spans passed since and the cap then -/
  exceeded : List (Nat × Nat × Nat × Nat)
  /-- [1; 17_power_and_thermal.md R381; reset 0] PWR_CAP_UNATTAINABLE recorded since the cap was last met -/
  unattRecorded : Bool
  /-- [spans; 17_power_and_thermal.md R395; reset 0] spans since each clamp began, by sensor -/
  clampSpans : Vector Nat 24
  /-- [8 x 1; 17_power_and_thermal.md R390; reset 0] points that cores ran at in this trim period -/
  ranAt : Byte
  /-- [8 x 1; 17_power_and_thermal.md R390; reset 0] points at which an alarm, or too little slack, was seen in this period -/
  alarmAt : Byte
  /-- [ns; 17_power_and_thermal.md R390; reset 0] time in SERVICE since `PM_OP_HOURS` last went up -/
  opNs : Nat
  /-- [8 x 1; 17_power_and_thermal.md R389; reset 0] points whose margin the next latch raises -/
  marginDue : Byte
  /-- [24 ns; 17_power_and_thermal.md R387; reset: none] DT from which each sensor has read below `RELEASE_C` -/
  coolSince : Vector (Option Nat) 24
  /-- [hours; 17_power_and_thermal.md R390; reset 0] `PM_OP_HOURS` at the last trim -/
  trimHours : Word
  /-- [1; 21_pins_and_package.md R447; reset 0] the core rail regulator has acknowledged on PMBus -/
  pmbusOk : Bool
  /-- [2 copies; 17_power_and_thermal.md R390; reset: never written] the copies of the margin table in namespace 4 -/
  marginTable : Vector (Option MarginCopy) 2
  deriving DecidableEq, Repr

end Sys2Proof.Machine
end

