-- ==== Sys2Proof/Machine/TypesRec.lean ====
section
/-!
DEFINITION. The pieces of state of the event recorder and the checking hardware (chapter 19).
-/
namespace Sys2Proof.Machine

/-- An entry staged for the recorder (R421, R422), before it has its sequence number. -/
structure RecEntry where
  dt : Dword
  tblLo : Word
  source : Byte
  severity : Byte
  code : Half
  arg0 : Word
  arg1 : Word
  arg2 : Word
  deriving DecidableEq, Repr

/-- An archived ring (R426). -/
structure ArchivedRing where
  head : Word
  ring : List Host.Cell
  deriving DecidableEq, Repr

/-- The event recorder and the checking counters (chapter 19). -/
structure Recorder where
  /-- [2,048 x 32 B; 19_faults_and_event_recorder.md R421; reset 0] the ring SRAM -/
  ring : List Host.Cell
  /-- [11; 14_host_port.md R334; reset 0] `REC_HEAD.NEXT` -/
  next : BitVec 11
  /-- [16; 14_host_port.md R334; reset 0] `REC_HEAD.PASSES` -/
  passes : Half
  /-- [1; 14_host_port.md R334; reset 0] `REC_HEAD.FROZEN` -/
  frozen : Bool
  /-- [16; 19_faults_and_event_recorder.md R421; reset 0 (DESIGN CHOICE, log 4)] the sequence value of the next written entry -/
  seq : Half
  /-- [list of at most 64; 19_faults_and_event_recorder.md R421; reset empty] the staging FIFO, oldest first -/
  fifo : List RecEntry
  /-- [1; 19_faults_and_event_recorder.md R424; reset 0] a fatal entry is staged: later entries are dropped -/
  freezing : Bool
  /-- [32; 19_faults_and_event_recorder.md R430; reset 0] `REC_LOST` -/
  lost : Word
  /-- [count; 19_faults_and_event_recorder.md R421; reset 0] dropped entries no REC_LOST entry has reported -/
  lostUnreported : Nat
  /-- [32; 19_faults_and_event_recorder.md R430; reset 0] `REC_FROZEN_DROPS` -/
  frozenDrops : Word
  /-- [1; 19_faults_and_event_recorder.md R430; reset 0] `REC_STATUS.ARCHIVED` -/
  archived : Bool
  /-- [1; 19_faults_and_event_recorder.md R430; reset 0] `REC_STATUS.LOST` -/
  lostBit : Bool
  /-- [32; 19_faults_and_event_recorder.md R430; reset 0] `FLT_SRAM_CE` -/
  sramCe : Word
  /-- [32; 19_faults_and_event_recorder.md R430; reset 0] `FLT_SRAM_UE` -/
  sramUe : Word
  /-- [32; 19_faults_and_event_recorder.md R430; reset 0] `FLT_LINK_REPLAY` -/
  linkReplay : Word
  /-- [32; 19_faults_and_event_recorder.md R430; reset 0] `FLT_FATAL_CAUSE` -/
  fatalCause : Word
  /-- [2 x 8 x 32; 19_faults_and_event_recorder.md R430; reset 0] the entry windows `REC_FW_CP0`, `REC_FW_CP1` -/
  fwWindow : Vector (Vector Word 8) 2
  /-- [list of at most 16; 19_faults_and_event_recorder.md R426; reset empty] the archive of namespace 4, newest first; not cleared by any reset -/
  archive : List ArchivedRing
  /-- [96 x count and ns; 19_faults_and_event_recorder.md R415; reset 0] mismatches in a row of each link, and DT at the last -/
  linkFails : List (Nat × Nat × Nat)
  /-- [links x count; 19_faults_and_event_recorder.md R431; reset 0] replays of each link in this span -/
  linkSpan : List (Nat × Nat)
  /-- [slots x count; 19_faults_and_event_recorder.md R431; reset 0] corrected SRAM words of each slot in this span -/
  ceSpan : List (Nat × Nat)
  /-- [slots x span; 19_faults_and_event_recorder.md R420; reset empty] failure count and last failing span of each engine -/
  engineFails : List (Nat × Nat × Nat)
  deriving DecidableEq, Repr

end Sys2Proof.Machine
end

