-- ==== Sys2Proof/Machine/TypesSched.lean ====
section
/-!
DEFINITION. The pieces of state of span images, sequencers, the span controller and the ready flags (chapter 3).
-/
namespace Sys2Proof.Machine

/-- A ready flag that is not CLEAR (R68). `void whole`: `whole` once a boundary has passed since the flag became VOID. -/
inductive FlagVal where
  | set
  | void (whole : Bool)
  deriving DecidableEq, Repr

/-- A 16-byte operation (R64). -/
structure Op where
  opcode : Nat
  wait : Bool
  set : Bool
  clearOnIssue : Bool
  retryable : Bool
  waitFlag : Nat
  setFlag : Nat
  earliest : Nat
  latest : Nat
  argA : Nat
  argB : Nat
  deriving DecidableEq, Repr

/-- A resource claim (R61). -/
structure Claim where
  resource : Nat
  index : Nat
  amount : Nat
  deriving DecidableEq, Repr

/-- A trigger entry (R62). -/
structure TrigEntry where
  offsetNs : Nat
  widthNs : Nat
  pin : Nat
  stamps : Bool
  stream : Nat
  deriving DecidableEq, Repr

/-- A flag entry (R63). -/
structure FlagEntry where
  flag : Nat
  producer : Nat
  policy : Nat
  consumers : Nat
  deriving DecidableEq, Repr

/-- An entry of the TRAFFIC section (R458). -/
structure TrafficEntry where
  kind : Nat
  index : Nat
  dir : Nat
  values : List Nat
  deriving DecidableEq, Repr

/-- The operations of one target (R59). -/
structure OpsSection where
  target : Nat
  ops : List Op
  deriving DecidableEq, Repr

/-- A resident span image: the header fields and sections of R58, R59, as the load found them. -/
structure Image where
  spanGrains : Nat
  partition : Fin 4
  rung : Nat
  coreMask : Byte
  variantKind : Nat
  variantCore : Nat
  familySig : Nat
  retrySlack : Nat
  ballastStart : Nat
  trigMask : Nat
  buildId : Nat
  digest : List Byte
  claims : List Claim
  triggers : List TrigEntry
  flags : List FlagEntry
  sections : List OpsSection
  traffic : List TrafficEntry
  objects : List Nat
  params : List Byte
  deriving DecidableEq, Repr

/-- Where bytes lie that an operation writes: a device address (R456), or the SRAM of an engine (R459). -/
inductive Space where
  | device
  | sram (t : Fin 10)
  deriving DecidableEq, Repr

/-- A run of bytes an operation writes as it runs. -/
structure MemWrite where
  space : Space
  addr : Nat
  data : List Byte
  deriving DecidableEq, Repr

/-- An operation that a unit of a target runs: its index in the section, the operation, when it issued, the cycles its
chapter gives it, what it writes, what the checks will find of it, whether it is a rerun (R176), and what its block counts as it
ends. -/
structure Running where
  unit : OpUnit
  index : Nat
  op : Op
  startDt : Nat
  cycles : Nat
  writes : List MemWrite
  chk : Check
  rerun : Bool
  aux : List Nat
  deriving DecidableEq, Repr

/-- One sequencer (R67 to R71). -/
structure Seq where
  /-- [count; 03_spans_and_schedules.md R67; reset 0] the next operation of the section to issue -/
  next : Nat
  /-- [list; 03_spans_and_schedules.md R67; reset empty] operations issued and not completed -/
  running : List Running
  /-- [1; 07_compute_cores.md R177; reset 0] halted for the rest of the span -/
  halted : Bool
  /-- [list; 03_spans_and_schedules.md R70; reset empty] operations of the section whose overrun this span has counted -/
  overran : List Nat
  /-- [1; 03_spans_and_schedules.md R70; reset 0] the span's overrun event is recorded -/
  overrunEvt : Bool
  /-- [list; 03_spans_and_schedules.md R65; reset empty] BARRIER ids issued in this span -/
  barriers : List Nat
  /-- [count; 03_spans_and_schedules.md R69; reset 0] skips in this span -/
  skips : Nat
  /-- [ns; 03_spans_and_schedules.md R71; reset 0] DT from which the next operation may be held: the issue of the one before -/
  readyDt : Nat
  /-- [ns; 03_spans_and_schedules.md R71; reset 0] time waited in this span, `SC_WAIT_GRAINSt` in grains -/
  waitNs : Nat
  deriving DecidableEq, Repr

/-- The state of the span controller (R81). -/
inductive SpanState where
  | stopped | running | stopping
  deriving DecidableEq, Repr

/-- The span controller and Rokan firmware's selection (chapter 3). -/
structure Sched where
  /-- [2; 03_spans_and_schedules.md R81, R82; reset STOPPED] `SC_STATUS.STATE` -/
  state : SpanState
  /-- [16; 03_spans_and_schedules.md R82; reset 0x1388] `SC_CTRL.SPAN_GRAINS` -/
  spanGrains : Half
  /-- [1; 03_spans_and_schedules.md R82; reset 1] `SC_CTRL.OVERRUN_IRQ_EN` -/
  overrunIrqEn : Bool
  /-- [1; 03_spans_and_schedules.md R70; reset 0] the SCHED_OVERRUN interrupt to `CP0` is asserted -/
  overrunIrq : Bool
  /-- [4; 03_spans_and_schedules.md R82; reset 0] `SC_STATUS` bits 7 to 4 as bits 3 to 0 -/
  statusW1c : BitVec 4
  /-- [64; 03_spans_and_schedules.md R82; reset 0] `SC_SPAN_COUNT` -/
  spanCount : Dword
  /-- [32; 03_spans_and_schedules.md R82; reset 0] latched `SC_SPAN_COUNT_HI` -/
  spanCountHi : Word
  /-- [64; 03_spans_and_schedules.md R82; reset 0] `SC_SPAN_START` -/
  spanStart : Dword
  /-- [1; 03_spans_and_schedules.md R81; reset 0] RUNNING or STOPPING, with S0 still to come -/
  beforeS0 : Bool
  /-- [ns; 03_spans_and_schedules.md R53; reset 0] DT of the next boundary while the schedule is not STOPPED -/
  nextBoundary : Nat
  /-- [4 x 6; 03_spans_and_schedules.md R82; reset: none] `SC_RUNNING_p` -/
  running : Vector (Option (Fin 64)) 4
  /-- [4 x 1; 03_spans_and_schedules.md R77, R78; reset 0] the partition is paused -/
  paused : Vector Bool 4
  /-- [4 x 1; 03_spans_and_schedules.md R77, R78; reset 0] the pause was commanded, so only a mode 1 command ends it -/
  hostPause : Vector Bool 4
  /-- [4 x 8; 03_spans_and_schedules.md R82; reset 0] `SC_SELECT_p` -/
  select : Vector Byte 4
  /-- [1; 03_spans_and_schedules.md R73; reset 0] the latch of this span has passed -/
  latched : Bool
  /-- [4 x 6; 03_spans_and_schedules.md R73; reset: none] images latched for the coming boundary -/
  latchSlot : Vector (Option (Fin 64)) 4
  /-- [8; 03_spans_and_schedules.md R82; reset 0] `SC_FENCE` as written, applied at a boundary whose latch follows -/
  fence : Byte
  /-- [8; 03_spans_and_schedules.md R80; reset 0] the fence mask as the latch saw it -/
  fenceLatched : Byte
  /-- [8; 03_spans_and_schedules.md R80; reset 0] the fence mask in force -/
  fenceLive : Byte
  /-- [count; 07_compute_cores.md R178; reset 0, kept by a warm reset] the fence span count -/
  fenceSpans : Nat
  /-- [32; 03_spans_and_schedules.md R82; reset 0] `SC_OVERRUN_COUNT` -/
  overrunCount : Word
  /-- [32; 03_spans_and_schedules.md R82; reset 0] `SC_ABANDON_COUNT` -/
  abandonCount : Word
  /-- [32; 03_spans_and_schedules.md R82; reset 0] `SC_SKIP_COUNT` -/
  skipCount : Word
  /-- [27 x 32; 03_spans_and_schedules.md R82; reset 0] `SC_WAIT_TOTALt` -/
  waitTotal : Vector Word 27
  /-- [4 x 3; 03_spans_and_schedules.md R77; reset 0] the rung host software requests for each partition -/
  hostRung : Vector Nat 4
  /-- [4 x 3; 03_spans_and_schedules.md R79; reset: none] each partition's required rung as the last latch took it -/
  rungCur : Vector (Option Nat) 4
  /-- [4 x 6; 03_spans_and_schedules.md R77; reset: none] the slot a mode 1 command named -/
  named : Vector (Option (Fin 64)) 4
  /-- [4 x 64; 03_spans_and_schedules.md R76, R57; reset: none] each partition's running family -/
  family : Vector (Option Nat) 4
  /-- [8; 03_spans_and_schedules.md R76; reset 0] cores that overran in the current span -/
  overCur : Byte
  /-- [8; 03_spans_and_schedules.md R76; reset 0] cores that overran in the previous span -/
  overPrev : Byte
  /-- [8; 03_spans_and_schedules.md R79; reset 0] cores whose relief image firmware goes on choosing -/
  relieved : Byte
  /-- [8 x count; 03_spans_and_schedules.md R79; reset 0] clean spans in a row of each relieved core -/
  cleanSpans : Vector Nat 8
  /-- [64 images; 03_spans_and_schedules.md R54; reset: none resident] -/
  slots : Vector (Option Image) 64
  /-- [22 sequencers; 03_spans_and_schedules.md R60; reset idle] cores 0 to 7, targets 0x10 to 0x19, the stream manager of partitions 0 to 3 -/
  seqs : Vector Seq 22
  deriving DecidableEq, Repr

end Sys2Proof.Machine
end

