-- ==== Sys2Proof/Machine/TypesSec.lean ====
section
/-!
DEFINITION. The pieces of state of the security processor, the partition layout and the debug port (chapter 18).
-/
namespace Sys2Proof.Machine

/-- A lifecycle state (R399). -/
inductive Lifecycle where
  | manufacture | provisioned | owned | decommissioned
  deriving DecidableEq, Repr

/-- A firmware slot in NAND (R402, R403). -/
structure FwImage where
  bytes : List Byte
  total : Nat
  deriving DecidableEq, Repr

/-- A partition's grant (R356, R405, R409). -/
structure Grant where
  /-- 0 ungranted, 1 granted, 2 scrubbing (R409) -/
  state : Nat
  coreMask : Byte
  mbxMask : Byte
  poolBase : Nat
  poolPecks : Nat
  dramBase : Nat
  dramBytes : Nat
  flashBytes : Nat
  trigMask : Half
  chanMask : Word
  deriving DecidableEq, Repr

/-- A PART_GRANT or PART_RELEASE of partition 1, 2 or 3 that is not applied (R407). -/
structure Scrub where
  part : Fin 4
  /-- the new grant; none for a release -/
  grant : Option Grant
  /-- the partition has entered `SCRUBBING` -/
  begun : Bool
  /-- its memories are being cleared: one scrub runs at a time -/
  running : Bool
  /-- its memories are cleared, so the grant applies at the next boundary -/
  done : Bool
  /-- DT at which the clearing began -/
  start : Nat
  deriving DecidableEq, Repr

/-- The keys of a flash namespace (R318, R319, R404). -/
structure NsKeys where
  /-- the current epoch, 1 to 65,535 -/
  epoch : Nat
  /-- the old epoch while a rotation drains -/
  old : Option Nat
  /-- both key slots zeroised, as DECOMMISSIONED does (R399) -/
  zeroised : Bool
  /-- the two key slots: 64-byte AES-256-XTS keys, zeros where zeroised (R318) -/
  slots : Vector (List Byte) 2
  /-- the slot of the current key -/
  current : Fin 2
  deriving DecidableEq, Repr

/-- The security processor, fuses, partitions and debug port (chapter 18). -/
structure Security where
  /-- [enum; 18_security.md R399; reset PROVISIONED: parts ship so; kept by every reset] -/
  lifecycle : Lifecycle
  /-- [16 B; 18_security.md R400; reset zeros (DESIGN CHOICE, log 4); kept by every reset] the serial number -/
  serial : List Byte
  /-- [2; 18_security.md R398; reset 0; fuses] revocation bits of the two class 0 hashes -/
  revoked : BitVec 2
  /-- [48 B; 18_security.md R398, R400; reset: not fused] the owner key hash -/
  ownerHash : Option (List Byte)
  /-- [64; 18_security.md R401; reset 0; fuses] counters: firmware, security processor, ROM patch -/
  rollback : Vector Nat 3
  /-- [1; 20_reset_and_boot.md R436; reset 0; fuse] boot-source lock -/
  bootLock : Bool
  /-- [1; 18_security.md R411; reset 0; fuse] debug disable -/
  debugDisable : Bool
  /-- [2 slots; 18_security.md R402; reset empty (DESIGN CHOICE, log 4); kept by every reset] firmware slots A and B -/
  slots : Vector FwImage 2
  /-- [1; 18_security.md R403; reset 0; kept by every reset] the preferred slot -/
  preferred : Bool
  /-- [2 x 1; 18_security.md R402; reset 0] the slot failed verification at this boot -/
  slotFailed : Vector Bool 2
  /-- [64 MiB; 20_reset_and_boot.md R439; reset empty] the host-port image area -/
  hostImage : FwImage
  /-- [bytes; 20_reset_and_boot.md R438; reset empty] the firmware copies kept in the firmware region -/
  keptCopy : List Byte
  /-- [1; 20_reset_and_boot.md R439; reset 0] the kept copies came through the host port -/
  keptHost : Bool
  /-- [1; 20_reset_and_boot.md R438; reset 0] the slot that the kept copies came from, which `STATUS.FW_SLOT` shows once they run -/
  keptSlot : Bool
  /-- [1; 20_reset_and_boot.md R438; reset 0] FW_ACTIVATE has changed the preferred slot since the copies were loaded -/
  reloadNand : Bool
  /-- [bytes, count; 18_security.md R403; reset empty] the item FW_WRITE is passing and the bytes it has -/
  staged : FwImage
  /-- [5 namespaces; 18_security.md R404; reset epoch 1; kept by every reset] -/
  keys : Vector NsKeys 5
  /-- [4 grants; 18_security.md R405; reset: partition 0 holds all; kept by every reset] -/
  grants : Vector Grant 4
  /-- [list; 18_security.md R407; reset empty] grants and releases that are not applied, in acceptance order -/
  scrubs : List Scrub
  /-- [1; 18_security.md R404; reset 1: the health test passed] random-number generator health -/
  rngOk : Bool
  /-- [count; 18_security.md R410; reset 0; kept by every reset] HSS leaves reserved in namespace 4 -/
  leafReserved : Nat
  /-- [count; 18_security.md R410; reset 0] the next leaf to use -/
  leafNext : Nat
  /-- [list of DT; 18_security.md R410; reset empty] the reports of the last second -/
  reports : List Nat
  /-- [2; 18_security.md R411; reset 0] the debug level unlocked -/
  debugLevel : Nat
  /-- [32 B; 18_security.md R411; reset: none] the challenge last read -/
  challenge : Option (List Byte)
  /-- [count; 18_security.md R411; reset 0] refused tokens since cold reset -/
  refusals : Nat
  /-- [1; 18_security.md R405; reset 0] SEC_ISOLATION recorded in this span -/
  isolationSeen : Bool
  deriving DecidableEq, Repr

end Sys2Proof.Machine
end

