-- ==== Sys2Proof/Machine/TypesSolver.lean ====
section
/-!
DEFINITION. The pieces of state of the solver engine, and of the results that Rokan firmware commits (chapter 11).
-/
namespace Sys2Proof.Machine

/-- A solver job that has started (R256 to R265). -/
structure SlvJob where
  /-- its 128-byte descriptor -/
  desc : List Byte
  /-- the 64-byte header of its problem -/
  hdr : List Byte
  graph : Bool
  /-- D, in DT -/
  deadline : Nat
  /-- pose variables of the last complete iterate, 64 B each -/
  poses : List Byte
  /-- landmarks of the last complete iterate, 32 B each -/
  lands : List Byte
  /-- the factors, as the problem gives them -/
  factors : List Byte
  /-- the pattern or the elimination schedule -/
  plan : List Byte
  /-- damping, FP64 -/
  lambda : Dword
  /-- cost at the starting point, FP64 -/
  costInit : Dword
  /-- cost at the iterate, FP64 -/
  cost : Dword
  /-- landmarks left out of the job -/
  excluded : List Nat
  /-- DT of the first iteration's start -/
  startDt : Option Nat
  /-- an iteration runs, or is suspended mid-way -/
  iterating : Bool
  iterStart : Nat
  iters : Nat
  accepted : Nat
  pivotFails : Nat
  /-- `RESULT_FLAGS` so far -/
  flags : Nat
  /-- longest iteration in `SOLVE` cycles -/
  cyclesMax : Nat
  /-- residue mismatches -/
  mismatches : Nat
  deriving DecidableEq, Repr

/-- A committable result that waits for its boundary (R270). -/
structure SlvDone where
  graph : Bool
  tag : Nat
  status : Nat
  iters : Nat
  setupDt : Nat
  /-- DT of the job's completion -/
  endDt : Nat
  poses : List Byte
  lands : List Byte
  /-- a latch has followed the completion -/
  latched : Bool
  deriving DecidableEq, Repr

/-- The solver engine (chapter 11). -/
structure Solver where
  /-- [1; 11_solver_engine.md R272; reset 0] `QUEUE_EN` -/
  queueEn : Bool
  /-- [1; 11_solver_engine.md R272; reset 1] `EVT_EN` -/
  evtEn : Bool
  /-- [1; 11_solver_engine.md R272; reset 0] `MISS` -/
  miss : Bool
  /-- [1; 11_solver_engine.md R272; reset 0] `MISMATCH` -/
  mismatch : Bool
  /-- [64; 11_solver_engine.md R272; reset 0] `SLV_QUEUE` -/
  queue : Dword
  /-- [7 x 32; 11_solver_engine.md R272; reset 0] `SLV_JOBS`, `SLV_TRUNCATED`, `SLV_DEADLINE_MISS`, `SLV_W_EXCEEDED`, `SLV_WARM_REJECTED`, `SLV_MISMATCH`, `SLV_COMMIT_STALE` -/
  counts : Vector Word 7
  /-- [record; 11_solver_engine.md R267; reset: none] the window job that runs -/
  window : Option SlvJob
  /-- [record; 11_solver_engine.md R268, R272; reset: none] the graph job that has started: `GRAPH_ACTIVE`, and `SUSPENDED` while no window is open -/
  graph : Option SlvJob
  /-- [address; 11_solver_engine.md R268; reset: none] the descriptor of the pending graph job, compiled -/
  waiting : Option Nat
  /-- [list; 11_solver_engine.md R270; reset empty] committable results that no boundary has taken, oldest first -/
  done : List SlvDone
  /-- [ns; 11_solver_engine.md R270; reset: none] the boundary of the last committed graph result -/
  lastCommit : Option Nat
  /-- [map; 11_solver_engine.md R270; reset empty] Rokan firmware's keyframe store: identity, and position and attitude as a result gives them -/
  keyframes : List (Nat × List Byte)
  /-- [count; 11_solver_engine.md R270; reset 0] Rokan firmware's count of stale results -/
  stale : Nat
  /-- [list; 11_solver_engine.md R270, R271; reset empty] entries for the commit list of the next SLV_COMMIT -/
  entries : List (List Byte)
  deriving DecidableEq, Repr

end Sys2Proof.Machine
end

