-- ==== Sys2Proof/Machine/TypesStream.lean ====
section
/-!
DEFINITION. The pieces of state of the stream manager, its channels, units and slots, the sensor SPI controllers and the
Ethernet ingress (chapter 4).
-/
namespace Sys2Proof.Machine

/-- A slot's state (R92). -/
inductive SlotState where
  | free | opened | ready | held
  deriving DecidableEq, Repr

/-- A slot with the unit it holds: the header fields of R91 and the bookkeeping of R94 to R99. -/
structure Slot where
  state : SlotState
  /-- the running descriptor as the unit opened: a commit applies to units that open after it (R89) -/
  desc : List Byte
  exposureDt : Nat
  firstDt : Nat
  lastDt : Nat
  seq : Word
  bytes : Nat
  count : Nat
  status : Half
  gen : Nat
  /-- the exposure number k of the unit, on a triggered channel -/
  exposure : Nat
  /-- handed over by a TAKE -/
  taken : Bool
  /-- boundaries passed while HELD -/
  heldSpans : Nat
  /-- closed MISSING in this span, to be released at the boundary (R96) -/
  missing : Bool
  /-- flags of its generation set so far -/
  groupsSet : List Nat
  /-- embedded data bytes stored -/
  embBytes : Nat
  deriving DecidableEq, Repr

/-- The counters of a channel's status block (R87). -/
structure StreamCounts where
  unitsAccepted : Dword
  droppedOldest : Word
  droppedNewest : Word
  droppedDisabled : Word
  linkErrors : Word
  shortOrTruncated : Word
  templateErrors : Word
  drdyMissed : Word
  holdExpired : Word
  lastArrivalDt : Dword
  deriving DecidableEq, Repr

/-- One stream channel. -/
structure Channel where
  /-- [192 B; 04_streams_and_buffer_pool.md R85; reset: none] the running copy of its descriptor -/
  desc : Option (List Byte)
  /-- [192 B; 04_streams_and_buffer_pool.md R88; reset: none] its pending descriptor -/
  pend : Option (List Byte)
  /-- [1; 04_streams_and_buffer_pool.md R90; reset 0] the channel runs -/
  runs : Bool
  /-- [1; 04_streams_and_buffer_pool.md R87; reset 0] enabled since the last cold reset -/
  everEnabled : Bool
  /-- [64 B; 04_streams_and_buffer_pool.md R87; reset zeros] its status block as last written back to the table in DRAM -/
  statusBlock : List Byte
  /-- [counters; 04_streams_and_buffer_pool.md R87; reset 0, kept by a warm reset] -/
  counts : StreamCounts
  /-- [slots; 04_streams_and_buffer_pool.md R92; reset empty] -/
  slots : List Slot
  /-- [32; 04_streams_and_buffer_pool.md R91; reset 0] `SEQ` of the next unit -/
  seqNext : Word
  /-- [32; 04_streams_and_buffer_pool.md R91; reset 0] `REC_SEQ` of the next record -/
  recSeq : Word
  /-- [count; 04_streams_and_buffer_pool.md R94; reset 0] exposures registered since enable -/
  exposures : Nat
  /-- [exposure, slot; 04_streams_and_buffer_pool.md R99; reset: none] the exposure that waits for its frame, and its unit's slot if it was not discarded -/
  expect : Option (Nat × Option Nat)
  /-- [slot; 04_streams_and_buffer_pool.md R99; reset: none] the slot of the frame being received -/
  frame : Option Nat
  /-- [slots; 04_streams_and_buffer_pool.md R95; reset empty] the units of the latest TAKE -/
  latestTake : List Nat
  /-- [32; 04_streams_and_buffer_pool.md R107; reset 0] `SM_DROP_c` -/
  drops : Word
  /-- [count; 04_streams_and_buffer_pool.md R98; reset 0] discards of the span -/
  spanDrops : Nat
  /-- [1; 04_streams_and_buffer_pool.md R98; reset 0] kind of the span's first discard -/
  spanDropKind : Bool
  /-- [count; 04_streams_and_buffer_pool.md R104; reset 0] template refusals of the span -/
  spanTemplate : Nat
  /-- [bytes; 04_streams_and_buffer_pool.md R108; reset 0] payload length of the span's first template refusal -/
  spanTemplateLen : Nat
  /-- [count; 04_streams_and_buffer_pool.md R105; reset 0] DRDY misses of the span -/
  spanMissed : Nat
  /-- [16; 04_streams_and_buffer_pool.md R87; reset 0] `PEAK_HELD` -/
  peakHeld : Nat
  /-- [ns; 04_streams_and_buffer_pool.md R105; reset 0] the next poll instant -/
  nextPoll : Nat
  deriving DecidableEq, Repr

/-- A sensor SPI transaction that waits or runs: its channel and its stamp (R105, R106). -/
structure SpiJob where
  channel : Fin 32
  stamp : Nat
  deriving DecidableEq, Repr

/-- What a sensor SPI controller drives: the chip-select it asserts, the mode and the clock divider, the command bytes it sends, and the
bytes it then reads (R86, R105). -/
structure SpiBus where
  cs : Option Nat
  mode : Nat
  clkDiv : Nat
  command : List Byte
  readLen : Nat
  deriving DecidableEq, Repr

/-- A controller between transactions. -/
def SpiBus.idle : SpiBus := { cs := none, mode := 0, clkDiv := 0, command := [], readLen := 0 }

/-- The stream manager (chapter 4). -/
structure Streams where
  /-- [1; 04_streams_and_buffer_pool.md R107; reset 1] `ETH_FW_EN` -/
  ethFwEn : Bool
  /-- [1; 04_streams_and_buffer_pool.md R107; reset 1] `DROP_EVT_EN` -/
  dropEvtEn : Bool
  /-- [5; 04_streams_and_buffer_pool.md R107; reset 0] `SM_STATUS` -/
  status : BitVec 5
  /-- [32; 04_streams_and_buffer_pool.md R107; reset 0] `SM_COMMIT_PENDING` -/
  commitPending : Word
  /-- [5 x 32; 04_streams_and_buffer_pool.md R107; reset 0] `ETH_RX_A`, `ETH_RX_B`, `ETH_FCS_ERR_A`, `ETH_FCS_ERR_B`, `ETH_FW_DROP` -/
  ethCounts : Vector Word 5
  /-- [32 channels; 04_streams_and_buffer_pool.md R85; reset: no descriptor] -/
  chans : Vector Channel 32
  /-- [list of at most 1,024; 04_streams_and_buffer_pool.md R103; reset empty] frames for firmware on `CP1`, oldest first -/
  fwFrames : List (List Byte)
  /-- [4 queues; 04_streams_and_buffer_pool.md R105; reset empty] transactions of each controller, the running one first -/
  spi : Vector (List SpiJob) 4
  /-- [4 buses; 04_streams_and_buffer_pool.md R105; reset: no chip-select asserted] what each controller drives -/
  spiBus : Vector SpiBus 4
  deriving DecidableEq, Repr

end Sys2Proof.Machine
end

