-- ==== Sys2Proof/Machine/TypesTime.lean ====
section
/-!
DEFINITION. The pieces of state of the time unit and of the Ethernet bridge's transparent clock (chapter 2).
-/
namespace Sys2Proof.Machine

/-- A state of a disciplined base (R32). -/
inductive BaseState where
  | disabled | acquiring | locked | lost | suspect
  deriving DecidableEq, Repr

/-- A measurement of a base: offset and mean path delay in ns (R31). -/
structure Measure where
  offset : Int
  pdelay : Int
  deriving DecidableEq, Repr

/-- One disciplined base with its servo (R31, R32, R38, R39, R49, R50). -/
structure BaseClock where
  /-- [64.32; 02_disciplined_time.md R28; reset 0] the counter -/
  count : TimeFix
  /-- [signed 32; 02_disciplined_time.md R31, R51; reset 0] `TB_x_RATE`: the increment less 4 ns, in 2^-32 ns -/
  rate : Word
  /-- [4; 02_disciplined_time.md R32, R51; reset DISABLED] -/
  state : BaseState
  /-- [8; 02_disciplined_time.md R51; reset 0 for A, 1 for B] `DOMAIN` -/
  domain : Byte
  /-- [1; 02_disciplined_time.md R51; reset 0] `SRC_PPS` -/
  srcPps : Bool
  /-- [8; 02_disciplined_time.md R51; reset 0x40] `KP` -/
  kp : Byte
  /-- [8; 02_disciplined_time.md R51; reset 0x08] `KI` -/
  ki : Byte
  /-- [32; 02_disciplined_time.md R51; reset 0] `TB_x_OFFSET_LO` as written -/
  offsetLo : Word
  /-- [32; 02_disciplined_time.md R51; reset 0] `TB_x_PDELAY` as written -/
  pdelay : Word
  /-- [ns; 02_disciplined_time.md R31; reset 0] the servo's integrator -/
  integ : Int
  /-- [count; 02_disciplined_time.md R32; reset 0] measurements in a row within LOCK_NS -/
  goodRun : Nat
  /-- [count; 02_disciplined_time.md R32; reset 0] measurements in a row beyond 4 x LOCK_NS -/
  badRun : Nat
  /-- [record; 02_disciplined_time.md R38; reset: none] the previous measurement of the domain -/
  prev : Option Measure
  /-- [ns; 02_disciplined_time.md R38; reset: none] the latest change of offset -/
  lastChange : Option Int
  /-- [ns; 02_disciplined_time.md R39; reset: none] difference of the two domains' master times before the suspect step -/
  refDiff : Option Int
  /-- [ns; 02_disciplined_time.md R39; reset: none] the domain's measured master time less TB-L, at its last measurement -/
  master : Option Int
  /-- [ns of TB-L; 02_disciplined_time.md R32; reset 0] TB-L at the last measurement, or at the enable -/
  measAt : Nat
  /-- [count; 02_disciplined_time.md R39; reset 0] consistent measurements in a row while SUSPECT -/
  requal : Nat
  /-- [32; 02_disciplined_time.md R49; reset 0] rejected edges in a row -/
  ppsRejects : Nat
  /-- [1; 02_disciplined_time.md R49; reset 0] the next edge is accepted whatever its place -/
  ppsAcceptNext : Bool
  /-- [1; 02_disciplined_time.md R50; reset 0] TIME_SET_TOD has given the base its whole seconds -/
  todKnown : Bool
  /-- [1; 02_disciplined_time.md R44, R357; reset 0] delay mechanism of the port, 1 peer-to-peer -/
  peerDelay : Bool
  deriving DecidableEq, Repr

/-- A fitted point of the holdover model: base time less TB-L, at a TB-L instant (R36). -/
structure FitPoint where
  at_ : Int
  offset : Int
  deriving DecidableEq, Repr

/-- One `TRIG_OUT` pin (R46, R47). -/
structure Trig where
  /-- [2; 02_disciplined_time.md R51; reset off] `MODE` -/
  mode : BitVec 2
  /-- [1; 02_disciplined_time.md R51; reset 0] `POLARITY` -/
  polarity : Bool
  /-- [1; 02_disciplined_time.md R51; reset 0] `MERGED` -/
  merged : Bool
  /-- [64; 02_disciplined_time.md R51; reset 0 (DESIGN CHOICE, log 4)] `TRIG_STARTn` -/
  start : Dword
  /-- [32; 02_disciplined_time.md R51; reset 0 (DESIGN CHOICE, log 4)] `TRIG_PERIODn` -/
  period : Word
  /-- [32; 02_disciplined_time.md R51; reset 0 (DESIGN CHOICE, log 4)] `TRIG_WIDTHn` -/
  width : Word
  /-- [ns; 02_disciplined_time.md R46; reset: none] the next programmed instant, one-shot or periodic -/
  nextAt : Option Nat
  /-- [ns; 02_disciplined_time.md R47; reset: none] the end of the active pulse -/
  pulseEnd : Option Nat
  /-- [count; 02_disciplined_time.md R47; reset 0] merges in the current span -/
  merges : Nat
  deriving DecidableEq, Repr

/-- An image-mode pulse that is due at a DT instant (R62): with `stamps`, it registers an exposure on `stream`. -/
structure TrigDue where
  due : Nat
  pin : Nat
  width : Nat
  stamps : Bool
  stream : Nat
  deriving DecidableEq, Repr

/-- A two-step Sync message whose residence time waits for its Follow_Up (R45). -/
structure HeldSync where
  fromB : Bool
  domain : Nat
  seqId : Nat
  portId : List Byte
  residence : Nat
  deriving DecidableEq, Repr

/-- A PTP message handed to firmware (R41, R44): its bytes, and its event timestamp on the base that serves its domain, none if neither
does, and on DT. -/
structure PtpMsg where
  frame : List Byte
  onBase : Option Dword
  onDt : Dword
  deriving DecidableEq, Repr

/-- The time unit (chapter 2). -/
structure TimeUnit where
  /-- [64.32; 02_disciplined_time.md R28; reset 0] schedule time DT -/
  dt : TimeFix
  /-- [64.32; 02_disciplined_time.md R28; reset 0] TB-L -/
  tbl : TimeFix
  /-- base A [02_disciplined_time.md R28] -/
  baseA : BaseClock
  /-- base B [02_disciplined_time.md R28] -/
  baseB : BaseClock
  /-- [8; 02_disciplined_time.md R51; reset 0x64] `SLEW_PPM` -/
  slewPpm : Byte
  /-- [1; 02_disciplined_time.md R51; reset 0] `REQUIRE_LOCK` -/
  requireLock : Bool
  /-- [1; 02_disciplined_time.md R51; reset 0] `REVERT` -/
  revert : Bool
  /-- [2; 02_disciplined_time.md R51; reset 0] `SEL_MODE` -/
  selMode : BitVec 2
  /-- [2; 02_disciplined_time.md R51; reset 0] `PPS_OUT_SRC` -/
  ppsOutSrc : BitVec 2
  /-- [1; 02_disciplined_time.md R51; reset 0] `PPS_OUT_EN` -/
  ppsOutEn : Bool
  /-- [1; 02_disciplined_time.md R51; reset 0] `PPS_IN_HOLDOVER` -/
  ppsInHoldover : Bool
  /-- [16; 02_disciplined_time.md R51; reset 0x00C8] `ASYM_NS` -/
  asymNs : Half
  /-- [8; 02_disciplined_time.md R51; reset 0x64] `LOCK_NS` -/
  lockNs : Byte
  /-- [8; 02_disciplined_time.md R51; reset 0x1E] `TIMEOUT` -/
  timeout : Byte
  /-- [2; 02_disciplined_time.md R51; reset 0b10] `DT_SOURCE` -/
  source : BitVec 2
  /-- [1; 02_disciplined_time.md R51; reset 0] `SLEWING` -/
  slewing : Bool
  /-- [1; 02_disciplined_time.md R35; reset 0] `DT_FAR` -/
  dtFar : Bool
  /-- [1; 02_disciplined_time.md R29; reset 0] `DT_ALIGNED`, kept by a warm reset -/
  aligned : Bool
  /-- [1; 02_disciplined_time.md R49; reset 0] `PPS_IN_VALID` -/
  ppsValid : Bool
  /-- [4 x 32; 02_disciplined_time.md R51; reset 0] latched `DT_HI`, `TBA_HI`, `TBB_HI`, `TBL_HI` -/
  hiLatch : Vector Word 4
  /-- [list of 64; 02_disciplined_time.md R36; reset empty] the measurements of the holdover fit, newest first -/
  fit : List FitPoint
  /-- [1; 02_disciplined_time.md R33; reset 0] a model has been fitted since cold reset -/
  fitted : Bool
  /-- [64.32 signed; 02_disciplined_time.md R36; reset 0] holdover time less TB-L -/
  hoOffset : Int
  /-- [signed 32; 02_disciplined_time.md R51; reset 0] `HOLDOVER_RATE` -/
  hoRate : Word
  /-- [signed 32; 02_disciplined_time.md R51; reset 0] `HOLDOVER_RESID` -/
  hoResid : Word
  /-- [ns of TB-L; 02_disciplined_time.md R36, R40; reset 0] TB-L at the last fit -/
  hoFitAt : Nat
  /-- [ns of TB-L; 02_disciplined_time.md R36, R37; reset 0] TB-L from which the offset advances at the learned rate -/
  hoFrom : Nat
  /-- [ns of TB-L; 02_disciplined_time.md R36, R357; reset 0] TB-L at the entry to holdover -/
  hoSince : Nat
  /-- [1; 02_disciplined_time.md R40; reset 0] the drift is beyond its bound -/
  disagree : Bool
  /-- [64; 02_disciplined_time.md R51; reset 0] `PPS_IN_CAPT` -/
  ppsCapt : Dword
  /-- [ns of TB-L; 02_disciplined_time.md R37, R49; reset: none] TB-L at the last qualified edge -/
  ppsLast : Option Nat
  /-- [count; 02_disciplined_time.md R49; reset 0] whole seconds missed since the last qualified edge -/
  ppsMissed : Nat
  /-- [ns of the chosen counter; 02_disciplined_time.md R48; reset 0] the last whole second that PPS_OUT has marked -/
  ppsOutSec : Nat
  /-- [ns of DT; 02_disciplined_time.md R48; reset: none] the end of the PPS_OUT pulse -/
  ppsOutEnd : Option Nat
  /-- [16 pins; 02_disciplined_time.md R51; reset off] -/
  trigs : Vector Trig 16
  /-- [list; 02_disciplined_time.md R46, 03_spans_and_schedules.md R62; reset empty] the running table: image-mode pulses of this span still to fire -/
  table : List TrigDue
  /-- [list; 03_spans_and_schedules.md R73; reset empty] the shadow table the latch loaded -/
  shadow : List TrigDue
  /-- [list; 02_disciplined_time.md R45; reset empty] held two-step Sync residences, oldest first -/
  heldSyncs : List HeldSync
  /-- [list; 02_disciplined_time.md R45; reset empty] Sync messages that a 17th displaced, whose Follow_Up has not passed -/
  displaced : List HeldSync
  /-- [count; 02_disciplined_time.md R45; reset 0] Follow_Up messages of displaced Syncs, forwarded unchanged -/
  syncDisplaced : Nat
  /-- [2 x signed ns; 02_disciplined_time.md R45; reset 0] mean link delay measured on ports A and B -/
  linkDelay : Vector Int 2
  /-- [bytes; 02_disciplined_time.md R45; reset: none] the last frame the bridge forwarded: true from port B -/
  bridged : Option (Bool × List Byte)
  /-- [list; 02_disciplined_time.md R41, R44; reset empty] PTP messages handed to firmware on `CP1`, newest first -/
  ptpIn : List PtpMsg
  /-- [count per block; 02_disciplined_time.md R43; reset empty] stale items counted in this span, by block slot -/
  staleSeen : List (Nat × Nat)
  deriving DecidableEq, Repr

end Sys2Proof.Machine
end

