-- ==== Sys2Proof/Machine/State.lean ====
section
/-!
DEFINITION. The state of the device, its reasons to stop, and the state after a cold reset. Every piece of state that the
spec names is a field here or in one of the Types files; each field's docstring gives its width, its rule and its
reset value.
-/
namespace Sys2Proof.Machine

/-- Why a step may fault: for no reason. The spec gives every command, operation and event an effect, or says that it has
none, so no meaning raises a fault and the type has no constructor (log 2). -/
inductive Fault where
  deriving DecidableEq, Repr

/-- Why a step may be refused. `notModelled` names a row that has no meaning yet: the dispatch raises it, and it is safe,
because the machine stops where the hardware goes on. -/
inductive Refusal where
  | notModelled (mnemonic : String)
  deriving DecidableEq, Repr

/-- The state of the device. -/
structure State where
  /-- the pins -/
  pins : Pins
  /-- the device as a whole -/
  dev : Dev
  /-- the host port -/
  port : Port
  /-- [8 mailboxes; 15_service_interface.md R344] -/
  mbx : Vector Mbx 8
  /-- commands in flight -/
  fw : Fw
  /-- the span controller -/
  sched : Sched
  /-- [4,096 flags; 03_spans_and_schedules.md R68; reset CLEAR] the ready flags that are not CLEAR, in rising order -/
  flags : List (Nat × FlagVal)
  /-- the time unit -/
  tu : TimeUnit
  /-- the stream manager -/
  sm : Streams
  /-- the inertial front end -/
  ife : Ife
  /-- [4 engines; 06_vision_engines.md R130] pyramid and warp engine, feature engine, tracker, Fathom -/
  vis : Vector VisionEngine 4
  /-- [8 cores; 07_compute_cores.md R158] -/
  cores : Vector Core 8
  /-- the field engine and the map -/
  fld : Field
  /-- the fusion engine, tracks and pose -/
  fus : Fusion
  /-- the solver engine -/
  slv : Solver
  /-- the place search engine -/
  ps : PlaceEngine
  /-- [40-bit device addresses; 01_architecture.md R456; reset: unlisted bytes read 0 (DESIGN CHOICE, log 6)] DRAM, pool and scratchpad bytes, in rising order -/
  mem : List Host.Cell
  /-- [10 SRAMs; 03_spans_and_schedules.md R61; reset: unlisted bytes read 0 (DESIGN CHOICE, log 6)] engine SRAM of targets 0x10 to 0x19 -/
  sram : Vector (List Host.Cell) 10
  /-- DRAM controllers, mover, flash and objects -/
  mt : MemTiers
  /-- the power manager -/
  pm : Power
  /-- the security processor -/
  sec : Security
  /-- the event recorder -/
  evr : Recorder
  /-- [count; the MODEL'S OWN, log 7; reset 0 (DESIGN CHOICE, log 7)] free values drawn so far -/
  free : Nat
  /-- [list; the MODEL'S OWN, log 1; reset empty] commands and events that wait, the front one first -/
  pending : List Instr
  deriving DecidableEq, Repr

/-- A pin's slot of state at reset, and the other pieces of `State.reset`, one definition for each. -/
def Pins.reset : Pins where
  poresetN := false
  sysresetN := true
  bootSrc := 0
  motionPermit := false
  faultN := false
  thermtripN := true
  hostIrqN := true
  poseStrobe := false
  ppsOut := false
  trigOut := Vector.replicate 16 false
  syncIn := false
  pwrLimitN := true
  mportCsN := true
  mportMiso := none
  edges := []

/-- The device while a cold reset is in progress (R433). -/
def Dev.reset : Dev where
  phase := .coldReset
  warmBoot := false
  everReady := false
  hostPortBoot := false
  portUp := false
  resetCause := 1
  fatal := false
  fwSlot := false
  fwUp := false
  resetPending := false
  parkReady := false
  wdArmed := false
  wdBits := Vector.replicate 2 false
  cpHalted := Vector.replicate 2 false
  selfRefresh := false
  dramKept := false
  ethForward := false
  fwReadData := 0

/-- The host port after either reset (R326, R334). -/
def Port.reset : Port where
  mode := 0
  crcEn := false
  latency := 20
  err := 0
  errCount := 0
  irqStatus := 0
  irqMask := 0
  readData := []
  readCrc := none
  heldRegs := Vector.replicate 5 0

/-- A closed mailbox (R334, R344). -/
def Mbx.reset : Mbx where
  state := .closed
  partition := 0
  bulkMapped := false
  sqHead := 0
  sqTail := 0
  cqHead := 0
  cqTail := 0
  sq := []
  cq := []
  bulkBase := 0
  held := []
  subSources := 0
  subSeverity := 0
  lostEvents := 0
  lostNotices := 0
  lostGraphs := 0
  poseSub := none

/-- A sequencer at the start of its section (R67). -/
def Seq.start : Seq where
  next := 0
  running := []
  halted := false
  overran := []
  overrunEvt := false
  barriers := []
  skips := 0
  readyDt := 0
  waitNs := 0

/-- The span controller at reset (R82). -/
def Sched.reset : Sched where
  state := .stopped
  spanGrains := 0x1388
  overrunIrqEn := true
  overrunIrq := false
  statusW1c := 0
  spanCount := 0
  spanCountHi := 0
  spanStart := 0
  beforeS0 := false
  nextBoundary := 0
  running := Vector.replicate 4 none
  paused := Vector.replicate 4 false
  hostPause := Vector.replicate 4 false
  select := Vector.replicate 4 0
  latched := false
  latchSlot := Vector.replicate 4 none
  fence := 0
  fenceLatched := 0
  fenceLive := 0
  fenceSpans := 0
  overrunCount := 0
  abandonCount := 0
  skipCount := 0
  waitTotal := Vector.replicate 27 0
  hostRung := Vector.replicate 4 0
  rungCur := Vector.replicate 4 none
  named := Vector.replicate 4 none
  family := Vector.replicate 4 none
  overCur := 0
  overPrev := 0
  relieved := 0
  cleanSpans := Vector.replicate 8 0
  slots := Vector.replicate 64 none
  seqs := Vector.replicate 22 Seq.start

/-- A base at reset: domain 0 for TB-A, 1 for TB-B (R51). -/
def BaseClock.reset (domain : Byte) : BaseClock where
  count := 0
  rate := 0
  state := .disabled
  domain := domain
  srcPps := false
  kp := 0x40
  ki := 0x08
  offsetLo := 0
  pdelay := 0
  integ := 0
  goodRun := 0
  badRun := 0
  prev := none
  lastChange := none
  refDiff := none
  master := none
  measAt := 0
  requal := 0
  ppsRejects := 0
  ppsAcceptNext := false
  todKnown := false
  peerDelay := false

/-- A trigger pin at reset (R51). -/
def Trig.reset : Trig where
  mode := 0
  polarity := false
  merged := false
  start := 0
  period := 0
  width := 0
  nextAt := none
  pulseEnd := none
  merges := 0

/-- The time unit at cold reset (R28, R51). -/
def TimeUnit.reset : TimeUnit where
  dt := 0
  tbl := 0
  baseA := BaseClock.reset 0
  baseB := BaseClock.reset 1
  slewPpm := 0x64
  requireLock := false
  revert := false
  selMode := 0
  ppsOutSrc := 0
  ppsOutEn := false
  ppsInHoldover := false
  asymNs := 0x00C8
  lockNs := 0x64
  timeout := 0x1E
  source := 0b10
  slewing := false
  dtFar := false
  aligned := false
  ppsValid := false
  hiLatch := Vector.replicate 4 0
  fit := []
  fitted := false
  hoOffset := 0
  hoRate := 0
  hoResid := 0
  hoFitAt := 0
  hoFrom := 0
  hoSince := 0
  disagree := false
  ppsCapt := 0
  ppsLast := none
  ppsMissed := 0
  ppsOutSec := 0
  ppsOutEnd := none
  trigs := Vector.replicate 16 Trig.reset
  table := []
  shadow := []
  heldSyncs := []
  displaced := []
  syncDisplaced := 0
  linkDelay := Vector.replicate 2 0
  bridged := none
  ptpIn := []
  staleSeen := []

/-- Counters of a status block at zero (R87). -/
def StreamCounts.reset : StreamCounts where
  unitsAccepted := 0
  droppedOldest := 0
  droppedNewest := 0
  droppedDisabled := 0
  linkErrors := 0
  shortOrTruncated := 0
  templateErrors := 0
  drdyMissed := 0
  holdExpired := 0
  lastArrivalDt := 0

/-- A channel with no descriptor. -/
def Channel.reset : Channel where
  desc := none
  pend := none
  runs := false
  everEnabled := false
  statusBlock := List.replicate 64 0
  counts := StreamCounts.reset
  slots := []
  seqNext := 0
  recSeq := 0
  exposures := 0
  expect := none
  frame := none
  latestTake := []
  drops := 0
  spanDrops := 0
  spanDropKind := false
  spanTemplate := 0
  spanTemplateLen := 0
  spanMissed := 0
  peakHeld := 0
  nextPoll := 0

/-- The stream manager at reset (R107). -/
def Streams.reset : Streams where
  ethFwEn := true
  dropEvtEn := true
  status := 0
  commitPending := 0
  ethCounts := Vector.replicate 5 0
  chans := Vector.replicate 32 Channel.reset
  fwFrames := []
  spi := Vector.replicate 4 []
  spiBus := Vector.replicate 4 SpiBus.idle

/-- An inertial input with no binding. -/
def IfeInput.reset : IfeInput where
  binding := none
  nextBinding := none
  runs := false
  lastTau := none
  lastAxes := List.replicate 6 0
  period := 0
  stages := []
  outs := []
  startDt := 0
  heldData := []
  outsTaken := 0
  nextT := 0
  seq := 0
  settled := false
  kept := []
  lostSpan := 0
  counts := Vector.replicate 5 0

/-- A stopped encoder channel. -/
def Encoder.reset : Encoder where
  levelA := false
  levelB := false
  pos := 0
  indexPos := 0
  indexTs := 0
  indexDt := 0
  indexNew := false
  lastA := none
  lastB := none
  status := 0
  spanInvalid := false
  invalid := []
  spanOver := false
  spanQuad := false
  discont := false
  overspeed := 0
  runs := false
  nextSample := 0
  sampleNs := 0
  sampled := []
  kept := []
  lostSpan := 0

/-- The front end at reset (R128). -/
def Ife.reset : Ife where
  syncIgnore := false
  swSync := false
  held := false
  holdSince := 0
  stuck := false
  stuckSeen := false
  gap := false
  syncDt := 0
  syncDtHi := 0
  syncEdges := 0
  restartAt := 0
  inputs := Vector.replicate 4 IfeInput.reset
  encs := Vector.replicate 8 Encoder.reset
  emits := []

/-- A vision engine at reset (R156). -/
def VisionEngine.reset : VisionEngine where
  evtEn := true
  limit := false
  flagged := false
  ops := 0
  skips := 0
  busyCycles := 0
  own := Vector.replicate 8 0
  spanFeatures := 0
  spanDiscards := 0
  spanFull := none
  evtSeen := 0
  listsFull := []
  path := []
  stripeSkipped := false

/-- A core at reset (R180). -/
def Core.reset : Core where
  ctrl := 0b011
  sat := false
  mismatch := false
  ops := 0
  busyCycles := 0
  mismatches := 0
  retries := 0
  satCount := 0
  domainCount := 0
  lastMismatch := 0
  slackLeft := 0
  acc := []
  stoch := Vector.replicate 2 0
  lastFault := none
  spanSat := 0
  spanDomain := 0
  satOp := none
  domainOp := none
  haltUnread := false

/-- The clock of a core at reset. -/
def CorePower.reset : CorePower where
  op := 5
  stopped := true
  thermal := 0
  thermalEnding := false
  monitor := none
  filler := .off
  stopDue := none

/-- The power manager at reset (R394). -/
def Power.reset : Power where
  trimEn := true
  evtEn := true
  unattainable := false
  monAlarm := false
  thermtrip := false
  capMet := true
  capMw := 35000
  powerMw := 0
  ceiling := 7
  rungReq := 0
  thermCfg := 0x00645F03
  limitCfg := 0x00000032
  cores := Vector.replicate 8 CorePower.reset
  temps := Vector.replicate 24 0
  margins := Vector.replicate 8 50
  monCount := 0
  opHours := 0
  vrailMv := 0
  railMv := 800
  limitClamp := false
  limitEnding := false
  limitSince := 0
  sampleSum := 0
  sampleCount := 0
  lowSpans := 0
  exceeded := []
  unattRecorded := false
  clampSpans := Vector.replicate 24 0
  ranAt := 0
  alarmAt := 0
  opNs := 0
  marginDue := 0
  coolSince := Vector.replicate 24 none
  trimHours := 0
  pmbusOk := false
  marginTable := Vector.replicate 2 none

/-- Partition 0's grant when no other partition is granted (R405): every core, mailbox 0, the whole pool and DRAM, every
pin and channel. -/
def Grant.whole : Grant where
  state := 1
  coreMask := 0xFF
  mbxMask := 1
  poolBase := 0
  poolPecks := 3072
  dramBase := 0
  dramBytes := 0x600000000
  flashBytes := 0
  trigMask := 0xFFFF
  chanMask := 0xFFFFFFFF

/-- An ungranted partition. -/
def Grant.empty : Grant where
  state := 0
  coreMask := 0
  mbxMask := 0
  poolBase := 0
  poolPecks := 0
  dramBase := 0
  dramBytes := 0
  flashBytes := 0
  trigMask := 0
  chanMask := 0

/-- A namespace with its first key (R407: epoch 1). -/
def NsKeys.reset : NsKeys where
  epoch := 1
  old := none
  zeroised := false
  slots := Vector.replicate 2 (List.replicate 64 0)
  current := 0

/-- No firmware bytes. -/
def FwImage.empty : FwImage where
  bytes := []
  total := 0

/-- The security processor of a part as shipped (R399). -/
def Security.reset : Security where
  lifecycle := .provisioned
  serial := List.replicate 16 0
  revoked := 0
  ownerHash := none
  rollback := Vector.replicate 3 0
  bootLock := false
  debugDisable := false
  slots := Vector.replicate 2 FwImage.empty
  preferred := false
  slotFailed := Vector.replicate 2 false
  hostImage := FwImage.empty
  keptCopy := []
  keptHost := false
  keptSlot := false
  reloadNand := false
  staged := FwImage.empty
  keys := Vector.replicate 5 NsKeys.reset
  grants := #v[Grant.whole, Grant.empty, Grant.empty, Grant.empty]
  scrubs := []
  rngOk := true
  leafReserved := 0
  leafNext := 0
  reports := []
  debugLevel := 0
  challenge := none
  refusals := 0
  isolationSeen := false

/-- The event recorder at cold reset (R425, R430). -/
def Recorder.reset : Recorder where
  ring := []
  next := 0
  passes := 0
  frozen := false
  seq := 0
  fifo := []
  freezing := false
  lost := 0
  lostUnreported := 0
  frozenDrops := 0
  archived := false
  lostBit := false
  sramCe := 0
  sramUe := 0
  linkReplay := 0
  fatalCause := 0
  fwWindow := Vector.replicate 2 (Vector.replicate 8 0)
  archive := []
  linkFails := []
  linkSpan := []
  ceSpan := []
  engineFails := []

/-- The parameters of R252 at their defaults: 0.10 m, 0.035 rad, 2,000,000 ns, gate 11.34, 200 misses, 4 spans, 3, 16,
input 0, 25 per cent. -/
def PoseParams.default : PoseParams where
  posBound := 0x3DCCCCCD
  attBound := 0x3D0F5C29
  maxGapNs := 2000000
  gate := 0x413570A4
  maxMisses := 200
  retroSpans := 4
  voteK := 3
  requalify := 16
  primary := 0
  oowFrac := 25

/-- The record the motion port holds after reset: `UNINITIALISED` alone, and its CRC (R245). The last four bytes are the
CRC-32 of the 92 before them, as a test checks. -/
def resetRecord : List Byte :=
  List.replicate 13 0 ++ [0x20] ++ List.replicate 78 0 ++ [0xCB, 0xE7, 0xD7, 0x0B]

/-- A head state of zeros. -/
def Head.reset : Head where
  dt := 0
  pos := [0, 0, 0]
  quat := [0, 0, 0, 0]
  vel := [0, 0, 0]
  rate := [0, 0, 0]
  posStd := 0
  attStd := 0

/-- The fusion engine at reset (R253). -/
def Fusion.reset : Fusion where
  evtEn := true
  mismatch := false
  trackFull := false
  contradiction := false
  lateDropped := false
  initialised := false
  lastCause := 0
  fell := false
  quar := Vector.replicate 4 0
  quarOk := []
  quarFor := []
  counts := Vector.replicate 6 0
  lateDrops := Vector.replicate 8 0
  resident := []
  freeList := []
  tableBase := none
  leftNow := []
  fullSpan := 0
  ego := { dt := 0, mean := [], cov := [] }
  head := Head.reset
  direct := []
  history := []
  historyRun := none
  historyNext := 0
  inertialLog := []
  late := []
  lateSpan := Vector.replicate 8 0
  lateAge := Vector.replicate 8 0
  votes := []
  params := PoseParams.default
  frameId := 0
  frameIdPub := 0
  seq := 0
  sticky := 0
  lateCount := 0
  binds := []
  lastProp := none
  propBad := false
  gapSaid := false
  noiseDouble := false
  requests := []
  inView := []
  observed := []
  filing := []
  vectors := []
  alignFrom := none
  alignRecs := []
  bufs := Vector.replicate 2 resetRecord
  current := false
  bound := none

/-- The parameters of MAP_CONFIG at their defaults (R216, R219, R268, R297), in the command's order. -/
def MapParams.default : MapParams where
  fp := [0x3C23D70A, 0x3F666666, 0x3F7D70A4, 0x2EDBE6FF, 0x3A800000, 0x3F800000, 0x3DCCCCCD, 0x3C23D70A, 0x3FC00000,
    0x3B03126F, 0, 0x3C23D70A, 0x3CA3D70A, 0x4283126F]
  loopDeadlineMs := 1000
  loopExcludeMs := 30000
  loopK := 4

/-- The field engine at reset, and an empty map (R223). -/
def Field.reset : Field where
  evtEn := true
  commitPending := false
  mismatch := false
  limit := false
  trainRays := 0
  trainLive := 0
  raysLeft := 0
  counts := Vector.replicate 7 0
  backlog := 0
  absentKeys := []
  dir := []
  dirNext := []
  slots := Vector.replicate 4 { key := none, filling := false }
  batches := []
  gridNext := []
  cursor := 0
  params := MapParams.default
  paramsNext := MapParams.default
  ceiling := 100
  cleanSpans := 0
  spanLines := false
  spanBacklog := false
  limitSaid := false
  spanAbsent := 0
  spanNonfinite := 0
  nonfiniteOp := 0
  firstAbsent := none
  acres := []
  decoder := none
  spanEnds := []
  spanRenders := []

/-- The solver engine at reset (R272). -/
def Solver.reset : Solver where
  queueEn := false
  evtEn := true
  miss := false
  mismatch := false
  queue := 0
  counts := Vector.replicate 7 0
  window := none
  graph := none
  waiting := none
  done := []
  lastCommit := none
  keyframes := []
  stale := 0
  entries := []

/-- The place search engine at reset (R298). -/
def PlaceEngine.reset : PlaceEngine where
  queueEn := false
  evtEn := true
  poisoned := false
  mismatch := false
  counts := Vector.replicate 8 0
  indexes := Vector.replicate 16 none
  hiLatch := Vector.replicate 16 0
  queries := []
  nextQuery := 0
  batchMiss := false
  windowFrom := 0
  insertGrains := 0
  insertAt := none

/-- The memory tiers at reset (R323). -/
def MemTiers.reset : MemTiers where
  evtDram := true
  evtMover := true
  evtFlash := true
  bgShare := 0x19
  dramLow := false
  dramUe := false
  moverLow := false
  moverUe := false
  flashLow := false
  flashUe := false
  ceCount := 0
  ueCount := 0
  scrubLine := 0
  scrubPass := 0
  scrubCorrected := 0
  ceLog := []
  passLines := []
  prevLines := []
  poisoned := []
  remap := []
  remapFull := false
  mvBytes := 0
  queue := []
  window := none
  fcUncorrectable := 0
  fcRetries := 0
  freeBlocks := 0x10000
  goodBlocks := 0x10000
  rekeyRate := 32
  blocks := []
  pages := []
  groups := []
  writeSeq := 0
  spareLowAt := none
  objects := []

/-- The device in a cold reset: every rail is up, `PORESET_N` is low, and every field is at its cold-reset value (R9,
R433, R434). The boot runs from the release of `PORESET_N` (R437); log 3 says how commands come to be served. -/
def State.reset : State where
  pins := Pins.reset
  dev := Dev.reset
  port := Port.reset
  mbx := Vector.replicate 8 Mbx.reset
  fw := { queue := [], jobs := [] }
  sched := Sched.reset
  flags := []
  tu := TimeUnit.reset
  sm := Streams.reset
  ife := Ife.reset
  vis := Vector.replicate 4 VisionEngine.reset
  cores := Vector.replicate 8 Core.reset
  fld := Field.reset
  fus := Fusion.reset
  slv := Solver.reset
  ps := PlaceEngine.reset
  mem := []
  sram := Vector.replicate 10 []
  mt := MemTiers.reset
  pm := Power.reset
  sec := Security.reset
  evr := Recorder.reset
  free := 0
  pending := []

end Sys2Proof.Machine
end

