-- ==== Sys2Proof/Machine/Ops.lean ====
section
/-!
DEFINITION. The named operations over memory, flags, pins, events, interrupts, completions and the pose record that the
meanings share.
-/
namespace Sys2Proof.Machine

/-! ## Memory: bytes in rising address order, an unlisted byte reads as zero (log 6) -/

/-- The byte at an address. -/
def memRead : List Host.Cell → Nat → Byte
  | [], _ => 0
  | (k, v) :: m, a => if k = a then v else if a < k then 0 else memRead m a

/-- The list without an address. -/
def memErase : List Host.Cell → Nat → List Host.Cell
  | [], _ => []
  | (k, v) :: m, a => if k = a then m else if a < k then (k, v) :: m else (k, v) :: memErase m a

/-- The list with an address at a value that is listed. -/
def memInsert : List Host.Cell → Nat → Byte → List Host.Cell
  | [], a, b => [(a, b)]
  | (k, v) :: m, a, b =>
    if k = a then (a, b) :: m else if a < k then (a, b) :: (k, v) :: m else (k, v) :: memInsert m a b

/-- A byte written; a zero byte leaves the list. -/
def memWrite (m : List Host.Cell) (a : Nat) (b : Byte) : List Host.Cell :=
  if b = 0 then memErase m a else memInsert m a b

/-- Bytes from an address on. -/
def memReadN (m : List Host.Cell) (a : Nat) : Nat → List Byte
  | 0 => []
  | n + 1 => memRead m a :: memReadN m (a + 1) n

/-- Bytes written from an address on. -/
def memWriteN (m : List Host.Cell) (a : Nat) : List Byte → List Host.Cell
  | [] => m
  | b :: bs => memWriteN (memWrite m a b) (a + 1) bs

/-- A little-endian value of `n` bytes (R6). -/
def memNat (m : List Host.Cell) (a n : Nat) : Nat := leNat (memReadN m a n)

/-- Every address of the list is above `lo`, in rising order, and no listed byte is zero. -/
def memAbove : Nat → List Host.Cell → Bool
  | _, [] => true
  | lo, (k, v) :: m => decide (lo ≤ k) && decide (v ≠ 0) && memAbove (k + 1) m

/-- The canonical form of a memory. -/
def memWf (m : List Host.Cell) : Bool := memAbove 0 m

/-- A key's value in a sorted list. -/
def mapGet {α : Type} : List (Nat × α) → Nat → Option α
  | [], _ => none
  | (k, v) :: m, a => if k = a then some v else if a < k then none else mapGet m a

/-- A sorted list without a key. -/
def mapDel {α : Type} : List (Nat × α) → Nat → List (Nat × α)
  | [], _ => []
  | (k, v) :: m, a => if k = a then m else if a < k then (k, v) :: m else (k, v) :: mapDel m a

/-- A sorted list with a key at a value. -/
def mapSet {α : Type} : List (Nat × α) → Nat → α → List (Nat × α)
  | [], a, b => [(a, b)]
  | (k, v) :: m, a, b =>
    if k = a then (a, b) :: m else if a < k then (a, b) :: (k, v) :: m else (k, v) :: mapSet m a b

/-- An element put into a sorted list, behind those it does not precede. -/
def insertBy {α : Type} (le : α → α → Bool) (a : α) : List α → List α
  | [] => [a]
  | b :: bs => if le b a then b :: insertBy le a bs else a :: b :: bs

/-- A list sorted, equal elements in their order. -/
def sortBy {α : Type} (le : α → α → Bool) (l : List α) : List α := l.foldl (fun acc a => insertBy le a acc) []

/-! ## Counters (R195) -/

/-- An unsigned counter advanced: it stays at its greatest value. Only the quantities of R195's table wrap. -/
def countUp {w : Nat} (a : BitVec w) (n : Nat) : BitVec w := BitVec.ofNat w (min (2 ^ w - 1) (a.toNat + n))

/-! ## Updates of one element -/

/-- A mailbox changed. -/
def State.updMbx (s : State) (i : Fin 8) (f : Mbx → Mbx) : State := { s with mbx := s.mbx.set i (f s.mbx[i]) }
/-- A channel changed. -/
def State.updChan (s : State) (i : Fin 32) (f : Channel → Channel) : State :=
  { s with sm := { s.sm with chans := s.sm.chans.set i (f s.sm.chans[i]) } }
/-- A compute core changed. -/
def State.updCore (s : State) (i : Fin 8) (f : Core → Core) : State := { s with cores := s.cores.set i (f s.cores[i]) }
/-- A core's clock and clamps changed. -/
def State.updCorePower (s : State) (i : Fin 8) (f : CorePower → CorePower) : State :=
  { s with pm := { s.pm with cores := s.pm.cores.set i (f s.pm.cores[i]) } }
/-- A sequencer changed. -/
def State.updSeq (s : State) (i : Fin 22) (f : Seq → Seq) : State :=
  { s with sched := { s.sched with seqs := s.sched.seqs.set i (f s.sched.seqs[i]) } }
/-- An inertial input changed. -/
def State.updInput (s : State) (i : Fin 4) (f : IfeInput → IfeInput) : State :=
  { s with ife := { s.ife with inputs := s.ife.inputs.set i (f s.ife.inputs[i]) } }
/-- An encoder channel changed. -/
def State.updEnc (s : State) (i : Fin 8) (f : Encoder → Encoder) : State :=
  { s with ife := { s.ife with encs := s.ife.encs.set i (f s.ife.encs[i]) } }
/-- A vision engine changed. -/
def State.updVis (s : State) (i : Fin 4) (f : VisionEngine → VisionEngine) : State := { s with vis := s.vis.set i (f s.vis[i]) }
/-- A trigger pin changed. -/
def State.updTrig (s : State) (i : Fin 16) (f : Trig → Trig) : State :=
  { s with tu := { s.tu with trigs := s.tu.trigs.set i (f s.tu.trigs[i]) } }
/-- A grant changed. -/
def State.updGrant (s : State) (i : Fin 4) (f : Grant → Grant) : State :=
  { s with sec := { s.sec with grants := s.sec.grants.set i (f s.sec.grants[i]) } }

/-! ## Time -/

/-- The whole nanoseconds of a counter (R41). -/
def TimeFix.ns (t : TimeFix) : Nat := t.toNat / 2 ^ 32

/-- DT in whole nanoseconds. -/
def State.dtNs (s : State) : Nat := TimeFix.ns s.tu.dt
/-- TB-L in whole nanoseconds. -/
def State.tblNs (s : State) : Nat := TimeFix.ns s.tu.tbl
/-- Grains since the span's boundary (R53): DT over 1,000 ns. -/
def State.grain (s : State) : Nat := (s.dtNs - s.sched.spanStart.toNat) / 1000

/-- One DT less another as a 64-bit signed difference (R42). -/
def dtDiff (a b : Nat) : Int := signedOf 64 (a + (2 ^ 64 - b % 2 ^ 64))

/-- A stale item of a block counted (R43); the boundary records the count. -/
def State.countStale (s : State) (slot : Nat) : State :=
  { s with tu := { s.tu with staleSeen := mapSet s.tu.staleSeen slot ((mapGet s.tu.staleSeen slot).getD 0 + 1) } }

/-- The device is in a reset or unpowered. -/
def Dev.inReset (d : Dev) : Bool :=
  match d.phase with
  | .unpowered | .coldReset | .warmReset => true
  | _ => false

/-- Base x LOCKED (R32). -/
def BaseClock.isLocked (b : BaseClock) : Bool := decide (b.state = .locked)
/-- The base of a name. -/
def TimeUnit.base (t : TimeUnit) : Base → BaseClock
  | .tbA => t.baseA
  | .tbB => t.baseB
/-- A base changed. -/
def State.updBase (s : State) (b : Base) (f : BaseClock → BaseClock) : State :=
  match b with
  | .tbA => { s with tu := { s.tu with baseA := f s.tu.baseA } }
  | .tbB => { s with tu := { s.tu with baseB := f s.tu.baseB } }

/-! ## Ready flags (R68) -/

/-- The state of a flag; `none` is CLEAR. -/
def State.flag (s : State) (n : Nat) : Option FlagVal := mapGet s.flags n
/-- A flag SET. -/
def State.setFlag (s : State) (n : Nat) : State := { s with flags := mapSet s.flags n .set }
/-- A flag VOID; `whole` when the void arises at a boundary. -/
def State.voidFlag (s : State) (n : Nat) (whole : Bool) : State := { s with flags := mapSet s.flags n (.void whole) }
/-- A flag CLEAR. -/
def State.clearFlag (s : State) (n : Nat) : State := { s with flags := mapDel s.flags n }

/-! ## Pins -/

/-- The level of an output pin. -/
def Pins.level (p : Pins) : PinName → Bool
  | .motionPermit => p.motionPermit
  | .faultN => p.faultN
  | .thermtripN => p.thermtripN
  | .hostIrqN => p.hostIrqN
  | .poseStrobe => p.poseStrobe
  | .ppsOut => p.ppsOut
  | .trigOut n => p.trigOut[n]

/-- An output pin at a level, with nothing noted. -/
def Pins.put (p : Pins) (n : PinName) (v : Bool) : Pins :=
  match n with
  | .motionPermit => { p with motionPermit := v }
  | .faultN => { p with faultN := v }
  | .thermtripN => { p with thermtripN := v }
  | .hostIrqN => { p with hostIrqN := v }
  | .poseStrobe => { p with poseStrobe := v }
  | .ppsOut => { p with ppsOut := v }
  | .trigOut i => { p with trigOut := p.trigOut.set i v }

/-- An output pin driven to a level; a change is noted. -/
def State.setPin (s : State) (n : PinName) (v : Bool) : State :=
  if s.pins.level n = v then s
  else { s with pins := { (s.pins.put n v) with edges := ⟨n, v⟩ :: s.pins.edges } }

/-! ## Interrupt (R338) -/

/-- `HOST_IRQ_N` as the status and the mask give it. -/
def State.irqPin (s : State) : State := s.setPin .hostIrqN (decide (s.port.irqStatus &&& s.port.irqMask = 0))

/-- Causes set in `IRQ_STATUS`. -/
def State.raiseIrq (s : State) (bits : Word) : State :=
  State.irqPin { s with port := { s.port with irqStatus := s.port.irqStatus ||| bits } }

/-- The `CQ` cause of a mailbox. -/
def irqCq (i : Fin 8) : Word := 1 <<< i.val
/-- The `SQ_FREE` cause of a mailbox. -/
def irqSqFree (i : Fin 8) : Word := 1 <<< (8 + i.val)
/-- `STATE_CHANGED`. -/
def irqState : Word := 0x00100000
/-- `FATAL`. -/
def irqFatal : Word := 0x00200000
/-- `PERMIT_FELL`. -/
def irqPermit : Word := 0x00400000
/-- `EVENT`. -/
def irqEvent : Word := 0x00800000
/-- `PORT_ERR`. -/
def irqPort : Word := 0x01000000

/-! ## The event recorder (R421, R424, R429) -/

/-- The severity of an event; `arg` is its third argument, which decides two of them (R429). -/
def severityOf (code arg : Nat) : Byte :=
  if code ∈ [0x0F0A, 0x0006, 0x120B, 0x1004, 0x1006] ∨ (code = 0x1002 ∧ arg = 1) then 3
  else if code ∈ [0x0001, 0x0002, 0x1803, 0x1804, 0x0905, 0x0A07, 0x0A03, 0x0A08, 0x0B01, 0x0C06, 0x0D02, 0x0E01,
      0x1301, 0x1303, 0x0F04, 0x1202, 0x1203, 0x1204, 0x1209, 0x1005, 0x1002, 0x1007]
      ∨ ((code = 0x0B05 ∨ code = 0x0C07) ∧ arg = 1) then 2
  else if code ∈ [0x1801, 0x0B05, 0x0C07, 0x0201, 0x0A04, 0x0C01, 0x0C02, 0x0407, 0x0602, 0x0603, 0x0907, 0x0A05,
      0x0C03, 0x0901, 0x0202, 0x0C04, 0x0205, 0x0402, 0x0406, 0x0A01, 0x0A06, 0x0102, 0x0108, 0x0109, 0x010C, 0x0007,
      0x0B03, 0x0E05, 0x0E02, 0x1302, 0x0F05, 0x0F07, 0x0F08, 0x1003] then 1
  else 0

/-- An event staged in the recorder's FIFO. In reset nothing is staged (R425); after a freeze, or behind a fatal entry, it
is dropped and counted (R424); with 64 entries staged it is dropped and counted as lost (R421). -/
def State.event (s : State) (source code a0 a1 a2 : Nat) : State :=
  if s.dev.inReset then s
  else if s.evr.frozen || s.evr.freezing then
    { s with evr := { s.evr with frozenDrops := countUp s.evr.frozenDrops 1 } }
  else if s.evr.fifo.length ≥ 64 then
    { s with evr := { s.evr with lost := countUp s.evr.lost 1, lostBit := true, lostUnreported := s.evr.lostUnreported + 1 } }
  else
    { s with evr := { s.evr with fifo := s.evr.fifo ++
        [{ dt := BitVec.ofNat 64 s.dtNs, tblLo := BitVec.ofNat 32 s.tblNs, source := BitVec.ofNat 8 source,
           severity := severityOf code a2, code := BitVec.ofNat 16 code,
           arg0 := BitVec.ofNat 32 a0, arg1 := BitVec.ofNat 32 a1, arg2 := BitVec.ofNat 32 a2 }] } }

/-! ## Completions (R337, R352, R361) -/

/-- A completion entry's 32 bytes. -/
def Completion.bytes (c : Completion) : List Byte :=
  natLe 2 c.tag.toNat ++ natLe 2 c.status.toNat ++ natLe 4 c.r0.toNat ++ natLe 4 c.r1.toNat ++ natLe 4 c.r2.toNat
    ++ natLe 4 c.r3.toNat ++ [BitVec.ofNat 8 (b2n c.unsolicited), c.lost] ++ natLe 2 c.opcode.toNat ++ natLe 8 c.dt.toNat

/-- Entries pending in the completion ring (R335). -/
def Mbx.cqCount (m : Mbx) : Nat := (m.cqTail - m.cqHead).toNat

/-- A completion written at the tail of the ring. -/
def Mbx.cqPut (m : Mbx) (c : Completion) : Mbx :=
  { m with cq := memWriteN m.cq (32 * m.cqTail.toNat) c.bytes, cqTail := m.cqTail + 1 }

/-- A completion written, or held behind others or for want of room (R337). Only an OPEN mailbox takes one. -/
def State.postCompletion (s : State) (i : Fin 8) (c : Completion) : State :=
  let m := s.mbx[i]
  if m.state ≠ .opened then s
  else if m.held = [] ∧ m.cqCount < 255 then (s.updMbx i fun m => m.cqPut c).raiseIrq (irqCq i)
  else s.updMbx i fun m => { m with held := m.held ++ [c] }

/-- An unsolicited entry is written only with at least eight entries free, held completions counted (R361). -/
def Mbx.unsolicitedRoom (m : Mbx) : Bool := decide (m.cqCount + m.held.length + 8 ≤ 255)

/-- A command's completion formed and posted. -/
def State.complete (s : State) (i : Fin 8) (tag opcode : Half) (status : Nat) (r0 r1 r2 r3 : Nat) (dt : Nat) : State :=
  s.postCompletion i
    { tag := tag, status := BitVec.ofNat 16 status, r0 := BitVec.ofNat 32 r0, r1 := BitVec.ofNat 32 r1,
      r2 := BitVec.ofNat 32 r2, r3 := BitVec.ofNat 32 r3, unsolicited := false, lost := 0, opcode := opcode,
      dt := BitVec.ofNat 64 dt }

/-- A job completed with DT now, and dropped from the commands in flight. -/
def State.completeJob (s : State) (j : Job) (status : Nat) (r0 r1 r2 r3 : Nat) (dt : Nat) : State :=
  ({ s with fw := { s.fw with jobs := s.fw.jobs.erase j } }).complete j.mbx j.tag j.opcode status r0 r1 r2 r3 dt

/-- The descriptors that accepted commits will apply to a channel, the last one to come first. -/
def State.committing (s : State) (ch : Fin 32) : List (List Byte) :=
  (s.fw.jobs.flatMap fun j => match j.kind with
    | .streamCommit ds => (ds.filter fun d => decide (d.1 = ch)).map (·.2)
    | _ => []).reverse

/-- `SM_COMMIT_PENDING` as the accepted commits give it. -/
def State.noteCommits (s : State) : State :=
  let m := (List.finRange 32).foldl (fun (m : Word) ch => if (s.committing ch).isEmpty then m else m ||| (1 <<< ch.val)) 0
  { s with sm := { s.sm with commitPending := m } }

/-- Status codes (R353). -/
def stOk : Nat := 0x0000
/-- fewer results than asked -/
def stShort : Nat := 0x0001
/-- solver job stopped by its guard -/
def stTruncated : Nat := 0x0002
/-- warm start ignored -/
def stWarmRejected : Nat := 0x0003
/-- opcode not defined -/
def errOpcode : Nat := 0x0101
/-- wrong field, range, order or state -/
def errArg : Nat := 0x0102
/-- another partition's resource -/
def errPartition : Nat := 0x0103
/-- not served in the device state -/
def errState : Nat := 0x0104
/-- resource exhausted -/
def errNoResource : Nat := 0x0201
/-- claim beyond the grant -/
def errTooLarge : Nat := 0x0202
/-- old key epoch draining -/
def errBusyRekey : Nat := 0x0203
/-- power above the cap at the floor -/
def errCap : Nat := 0x0204
/-- deadline passed -/
def errDeadline : Nat := 0x0301
/-- schedule work stopped, abandoned or skipped -/
def errOverrun : Nat := 0x0302
/-- no locked base -/
def errTime : Nat := 0x0303
/-- data read failed -/
def errUncorrectable : Nat := 0x0401
/-- object poisoned -/
def errPoisoned : Nat := 0x0402
/-- residue mismatch -/
def errResidue : Nat := 0x0403
/-- a signature failed -/
def errAuth : Nat := 0x0501
/-- below the rollback counter -/
def errRollback : Nat := 0x0502
/-- lifecycle or debug lock -/
def errLocked : Nat := 0x0503
/-- partition being scrubbed -/
def errScrubbing : Nat := 0x0601
/-- firmware failure -/
def errInternal : Nat := 0x0701

/-! ## Free values (log 7) -/

/-- A free value of `w` bits, and the state with the counter advanced. -/
def State.draw (s : State) (w : Nat) : BitVec w × State := (Config.freeValue w s.free, { s with free := s.free + 1 })

/-- A free natural number below `n`, and the state with the counter advanced. -/
def State.drawBelow (s : State) (n : Nat) : Nat × State := (Config.freeNat s.free % n, { s with free := s.free + 1 })

/-- Free bytes. -/
def State.drawBytes (s : State) (n : Nat) : List Byte × State :=
  ((List.range n).map fun k => Config.freeValue 8 (s.free + k), { s with free := s.free + n })

/-- A processor runs Rokan firmware. -/
def State.cpRuns (s : State) (cp : Fin 2) : Bool := s.dev.fwUp && !s.dev.cpHalted[cp] && !s.dev.inReset

/-! ## The span schedule as other blocks see it -/

/-- STATUS.STATE READY or SERVICE (R354). -/
def State.isReady (s : State) : Bool := decide (s.dev.phase = .ready)
/-- The device drives its pulse pins and looks at `PPS_IN` and `SYNC_IN`: in a reset, in the boot and in RECOVERY the outputs stay low and the
inputs are ignored, and so they are while parked (R392, R437, R440, R444). -/
def State.pinsDriven (s : State) : Bool := decide (s.dev.phase = .ready) || decide (s.dev.phase = .fault)

/-- STATUS.SCHED_RUNNING: RUNNING or STOPPING. -/
def State.schedOn (s : State) : Bool := decide (s.sched.state ≠ .stopped)
/-- A span is under way: the schedule is on and S0 is past. -/
def State.inSpan (s : State) : Bool := s.schedOn && !s.sched.beforeS0
/-- The image a partition runs. -/
def State.image (s : State) (p : Fin 4) : Option Image :=
  match s.sched.running[p] with
  | none => none
  | some i => s.sched.slots[i]
/-- The rung of partition 0's running image, 0 while it runs none. -/
def State.rung0 (s : State) : Nat := ((s.image 0).map (·.rung)).getD 0

/-! ## MOTION_PERMIT and the pose record (R233, R244 to R249) -/

/-- In service (R248): the schedule is RUNNING and partition 0 runs an image. -/
def State.permitService (s : State) : Bool :=
  decide (s.sched.state = .running) && (s.image 0).isSome && s.isReady

/-- The pose is valid (R248). -/
def State.permitPose (s : State) : Bool :=
  s.fus.initialised && !s.fus.propBad &&
    match s.fus.lastProp with
    | none => false
    | some t => decide (s.dtNs ≤ t + s.fus.params.maxGapNs)

/-- Both standard deviations within their bounds times n/10 (R248). -/
def State.covWithin (s : State) (n : Nat) : Bool :=
  let le10 (v b : Word) := Num.le (Num.mul (.fin false 10 0) (fp32.decode v.toNat)) (Num.mul (.fin false n 0) (fp32.decode b.toNat))
  le10 s.fus.head.posStd s.fus.params.posBound && le10 s.fus.head.attStd s.fus.params.attBound

/-- Every condition of R248. -/
def State.permitAll (s : State) : Bool :=
  s.permitService && s.permitPose && s.covWithin 10 && !s.dev.fatal && !s.dev.inReset

/-- The cause of a fall (R253): reset, fatal error, service, validity, covariance. -/
def State.permitCause (s : State) : Byte :=
  if s.dev.inReset then 5 else if s.dev.fatal then 4 else if !s.permitService then 1 else if !s.permitPose then 2 else 3

/-- `MOTION_PERMIT` falls: the pin, its cause, the interrupt and the event (R249, R253, R254). -/
def State.permitFall (s : State) : State :=
  if s.pins.motionPermit then
    let c := s.permitCause
    let s := s.setPin .motionPermit false
    let s := { s with fus := { s.fus with lastCause := c, fell := true } }
    let s := s.raiseIrq irqPermit
    if s.fus.evtEn then s.event 0x0A 0x0A08 c.toNat s.fus.head.posStd.toNat s.fus.head.attStd.toNat else s
  else s

/-- The pin falls if a condition fails. -/
def State.permitCheck (s : State) : State := if s.permitAll then s else s.permitFall

/-- `POSE_FLAGS` of the record published now (R245). -/
def State.poseFlags (s : State) (direct : Bool) : Word :=
  let bit (b : Bool) (i : Nat) : Word := if b then 1 <<< i else 0
  bit (!s.fus.initialised) 13 ||| bit (decide (s.tu.source = 2)) 12 ||| bit (decide (s.fus.frameId ≠ s.fus.frameIdPub)) 11
    ||| bit (s.ife.encs.toList.any fun e => e.runs && e.spanInvalid) 9 ||| bit (s.fus.quar.toList.any fun q => decide (q ≠ 0)) 8
    ||| (s.fus.sticky &&& 0x4F0) ||| bit direct 3 ||| bit (!s.covWithin 10) 2 ||| bit s.pins.motionPermit 1
    ||| bit (s.permitService && s.permitPose && s.covWithin 10) 0

/-- The bytes of the record published now, its CRC included (R244). -/
def State.poseBytes (s : State) (direct : Bool) : List Byte :=
  let h := s.fus.head
  let body := natLe 8 h.dt ++ natLe 4 s.fus.seq.toNat ++ natLe 4 (s.poseFlags direct).toNat
    ++ h.pos.flatMap (fun v => natLe 8 v.toNat) ++ h.quat.flatMap (fun v => natLe 4 v.toNat)
    ++ h.vel.flatMap (fun v => natLe 4 v.toNat) ++ h.rate.flatMap (fun v => natLe 4 v.toNat)
    ++ natLe 4 h.posStd.toNat ++ natLe 4 h.attStd.toNat ++ natLe 2 s.fus.frameId.toNat
    ++ [BitVec.ofNat 8 s.rung0, s.fus.lateCount]
  body ++ natLe 4 (crc32 body).toNat

/-- A published record written to the buffer that is not bound, made current, and POSE_STROBE toggled (R247). -/
def State.mportPut (s : State) (r : List Byte) : State :=
  let target : Bool :=
    match s.fus.bound with
    | some b => !b
    | none => !s.fus.current
  let s := { s with fus := { s.fus with bufs := s.fus.bufs.set target.toNat r (by cases target <;> decide), current := target } }
  s.setPin .poseStrobe (!s.pins.poseStrobe)

/-- An unsolicited entry of a kind other than an event, or a drop counted (R361). -/
def State.postUnsolicited (s : State) (i : Fin 8) (c : Completion) (lost : Mbx → Byte) (setLost : Mbx → Byte → Mbx) : State :=
  let m := s.mbx[i]
  if m.state ≠ .opened then s
  else if m.unsolicitedRoom && m.held.isEmpty then
    (s.updMbx i fun m => (setLost m 0).cqPut { c with lost := lost m }).raiseIrq (irqCq i)
  else s.updMbx i fun m => setLost m (if lost m = 255 then 255 else lost m + 1)

/-- The 2 MiB of a bulk window. -/
def bulkSize : Nat := 0x200000

/-- Bytes of a bulk window, in the DRAM buffer it is mapped onto; zeros while it is unmapped (R333). -/
def State.windowRead (s : State) (i : Fin 8) (off n : Nat) : List Byte :=
  if s.mbx[i].bulkMapped then memReadN s.mem (s.mbx[i].bulkBase + off) n else List.replicate n 0

/-- Bytes written into a bulk window; nothing while it is unmapped (R333). -/
def State.windowWrite (s : State) (i : Fin 8) (off : Nat) (bs : List Byte) : State :=
  { s with mem := if s.mbx[i].bulkMapped then memWriteN s.mem (s.mbx[i].bulkBase + off) bs else s.mem }

/-- The published record delivered to one mailbox's subscription ring, with a notice when one is due (R363). -/
def State.poseDeliver (s : State) (i : Fin 8) (r : List Byte) (permit : Bool) : State :=
  match s.mbx[i].poseSub with
  | none => s
  | some p =>
    let seq := fieldAt r 8 4
    let changed := decide (permit ≠ p.lastPermit)
    if seq % p.decimate = 0 ∨ changed then
      let n := p.delivered
      let idx := n % p.ringRecords
      let due := changed || (decide (p.notifyEvery ≠ 0) && decide (p.sinceNotice + 1 ≥ p.notifyEvery))
      let p' := { p with delivered := n + 1, sinceNotice := if due then 0 else p.sinceNotice + 1, lastPermit := permit }
      let s := (s.windowWrite i (p.ringOffset + 64 + 96 * idx) r).windowWrite i p.ringOffset (natLe 8 (n + 1))
      let s := s.updMbx i fun m => { m with poseSub := some p' }
      if due then
        s.postUnsolicited i
          { tag := 0xFFFE, status := 0, r0 := BitVec.ofNat 32 seq, r1 := BitVec.ofNat 32 idx,
            r2 := BitVec.ofNat 32 (n + 1), r3 := BitVec.ofNat 32 (fieldAt r 12 4), unsolicited := true, lost := 0,
            opcode := 0x0580, dt := BitVec.ofNat 64 (fieldAt r 0 8) }
          (·.lostNotices) (fun m v => { m with lostNotices := v })
      else s
    else s.updMbx i fun m => { m with poseSub := some { p with lastPermit := permit } }

/-- A pose record published: the pin moves first, then the record is written with the level after it, made current, and
delivered (R247 to R249, R363). -/
def State.publish (s : State) (direct : Bool) : State :=
  let s :=
    if s.pins.motionPermit then s.permitCheck
    else if s.permitAll && s.covWithin 9 then s.setPin .motionPermit true
    else s
  let r := s.poseBytes direct
  let permit := s.pins.motionPermit
  let s := s.mportPut r
  let s := { s with fus := { s.fus with seq := s.fus.seq + 1, sticky := 0, lateCount := 0, frameIdPub := s.fus.frameId } }
  (List.finRange 8).foldl (fun s i => s.poseDeliver i r permit) s

/-- Leaving service, or a gap: the pin falls, then one record with VALID 0 and the last state (R248). -/
def State.publishInvalid (s : State) : State := (s.permitCheck).publish false

/-- What a change of the schedule or of the device state does on leaving service: `was` says whether the service condition of
R248 held before it. -/
def State.leaveService (s : State) (was : Bool) : State := if was && !s.permitService then s.publishInvalid else s

/-! ## Fatal errors (R417 to R419) -/

/-- Whether a command is served in FAULT (R354). -/
def servedInFault (opcode : Half) : Bool :=
  let o := opcode.toNat
  decide (o ∈ [0x0101, 0x0102, 0x0F03, 0x0206, 0x0404, 0x0504, 0x0704, 0x0B08, 0x1002]) ||
    decide (o / 256 ∈ [0x11, 0x12, 0x0E])

/-- A command copied and not yet accepted, completed as one that FAULT does not serve (R348, R354). -/
def State.failWaiting (s : State) (q : SubEntry) : State :=
  State.complete { s with fw := { s.fw with queue := s.fw.queue.erase q } } q.entry.mbx q.entry.tag q.opcode errInternal 1 0 0 0 s.dtNs

/-- Entering FAULT: the state changes, commands in flight that FAULT does not serve complete with `ERR_INTERNAL`, and the
schedule stops at the next boundary (R354, R418). Nothing happens while the control processors are hung. -/
def State.enterFault (s : State) : State :=
  if s.dev.cpHalted[0] || s.dev.cpHalted[1] then s
  else
    let was := s.permitService
    let s := { s with dev := { s.dev with phase := .fault } }
    let s := s.raiseIrq irqState
    let gone := s.fw.jobs.filter fun j => !servedInFault j.opcode
    let s : State := gone.foldl (fun (s : State) (j : Job) => s.completeJob j errInternal 1 0 0 0 s.dtNs) s
    let s : State := (s.fw.queue.filter fun q => !servedInFault q.opcode).foldl State.failWaiting s
    let s := s.noteCommits
    let s : State := if s.sched.state = .running then { s with sched := { s.sched with state := .stopping } } else s
    s.leaveService was

/-- A fatal error: the fatal entry is staged last, so the event of the fall of `MOTION_PERMIT` is dropped, `FAULT_N` is
asserted after that fall, the status and the cause are set, and the device enters FAULT (R418, R424). With `trip`, `THERMTRIP_N` follows `FAULT_N` (R249, R388). -/
def State.fatal (s : State) (trip : Bool) (source code a0 a1 a2 : Nat) : State :=
  let first := !s.dev.fatal
  let s := { s with dev := { s.dev with fatal := true } }
  let s := s.event source code a0 a1 a2
  let s := { s with evr := { s.evr with freezing := s.evr.freezing || !s.evr.frozen } }
  let s := s.permitFall
  let s := s.setPin .faultN false
  let s := if trip then s.setPin .thermtripN false else s
  let s := s.raiseIrq irqFatal
  let s :=
    if first then { s with evr := { s.evr with fatalCause := BitVec.ofNat 32 (code * 65536 + source * 256) } } else s
  if s.dev.phase = .ready then s.enterFault else s

end Sys2Proof.Machine
end

