-- ==== Sys2Proof/Machine/Operands.lean ====
section
/-!
DEFINITION. The operand forms of schedule operations: the section a sequencer works from, its next operation, the fields of
the `PARAMS` section, device addresses and the memories behind them (chapters 1 and 3).
-/
namespace Sys2Proof

/-! ## Targets (R60) -/

/-- The number of a target; each stream manager sequencer is 0x1A. -/
def Target.code : Target → Nat
  | .core n => n.val
  | .pw => 0x10
  | .fe => 0x11
  | .trk => 0x12
  | .fth => 0x13
  | .fld => 0x14
  | .fus => 0x15
  | .slv => 0x16
  | .ps => 0x17
  | .ife => 0x18
  | .mv => 0x19
  | .sm _ => 0x1A

/-- Where a sequencer stands in `Sched.seqs`. -/
def Target.idx : Target → Fin 22
  | .core n => ⟨n.val, by omega⟩
  | .pw => 8
  | .fe => 9
  | .trk => 10
  | .fth => 11
  | .fld => 12
  | .fus => 13
  | .slv => 14
  | .ps => 15
  | .ife => 16
  | .mv => 17
  | .sm p => ⟨18 + p.val, by omega⟩

/-- The engine SRAM of a target (R61). -/
def Target.sramIdx : Target → Option (Fin 10)
  | .pw => some 0
  | .fe => some 1
  | .trk => some 2
  | .fth => some 3
  | .fld => some 4
  | .fus => some 5
  | .slv => some 6
  | .ps => some 7
  | .ife => some 8
  | .mv => some 9
  | _ => none

/-- Every sequencer. -/
def allTargets : List Target :=
  (List.finRange 8).map Target.core ++ [.pw, .fe, .trk, .fth, .fld, .fus, .slv, .ps, .ife, .mv]
    ++ (List.finRange 4).map Target.sm

/-- The event source of a target: the slot index of its block (R14, R60). -/
def Target.slot : Target → Nat
  | .core n => 0x18 + n.val
  | .pw => 0x05
  | .fe => 0x06
  | .trk => 0x07
  | .fth => 0x08
  | .fld => 0x09
  | .fus => 0x0A
  | .slv => 0x0B
  | .ps => 0x0C
  | .ife => 0x04
  | .mv => 0x0D
  | .sm _ => 0x02

end Sys2Proof

namespace Sys2Proof.Machine

/-- The sequencer of a target. -/
def State.seq (s : State) (t : Target) : Seq := s.sched.seqs[t.idx]
/-- The sequencer of a target changed. -/
def State.onSeq (s : State) (t : Target) (f : Seq → Seq) : State := s.updSeq t.idx f

/-! ## The section a sequencer works from -/

/-- The operations of a target in an image. -/
def Image.opsOf (img : Image) (code : Nat) : Option (List Op) :=
  (img.sections.find? fun x => decide (x.target = code)).map (·.ops)

/-- The partition and the image whose section a sequencer runs: a stream manager sequencer its own partition's (R60), any
other target the image that holds a section for it. -/
def State.sectionOf (s : State) (t : Target) : Option (Fin 4 × Image × List Op) :=
  let ofPart (p : Fin 4) : Option (Fin 4 × Image × List Op) :=
    match s.image p with
    | none => none
    | some img => (img.opsOf t.code).map fun ops => (p, img, ops)
  match t with
  | .sm p => ofPart p
  | _ => (List.finRange 4).findSome? ofPart

/-- The operation a sequencer issues next: its partition, its image, its index and the operation. -/
structure NextOp where
  part : Fin 4
  img : Image
  index : Nat
  op : Op

/-- The next operation of a target's section. -/
def State.nextOp (s : State) (t : Target) : Option NextOp :=
  match s.sectionOf t with
  | none => none
  | some (p, img, ops) => (ops[(s.seq t).next]?).map fun o => { part := p, img := img, index := (s.seq t).next, op := o }

/-! ## `PARAMS` (R59, R64) -/

/-- An unsigned field of `n` bytes at an offset of the `PARAMS` section. -/
def Image.param (img : Image) (off n : Nat) : Nat := fieldAt img.params off n
/-- Bytes of the `PARAMS` section. -/
def Image.paramBytes (img : Image) (off n : Nat) : List Byte := (List.range n).map fun k => (img.params.drop (off + k)).headD 0

/-- A parameter of the operation that is about to issue, at an offset from its `ARG_B`. -/
def NextOp.arg (n : NextOp) (off size : Nat) : Nat := n.img.param (n.op.argB + off) size

/-! ## Device addresses (R456) -/

/-- Two ranges share an element. -/
def rangesMeet (a n b m : Nat) : Bool := decide (0 < n ∧ 0 < m ∧ a < b + m ∧ b < a + n)

/-- The base of the buffer pool. -/
def poolBase : Nat := 0x1000000000
/-- The size of the buffer pool. -/
def poolSize : Nat := 0x3000000
/-- The base of a core's scratchpad. -/
def scratchBase (n : Nat) : Nat := 0x1040000000 + n * 0x1000000
/-- The size of a scratchpad. -/
def scratchSize : Nat := 0x400000
/-- The size of the DRAM. -/
def dramSize : Nat := 0x600000000

/-- Whether a range lies in DRAM, in the pool or in one scratchpad. -/
def memRange (a n : Nat) : Bool :=
  decide (a + n ≤ dramSize) || decide (poolBase ≤ a ∧ a + n ≤ poolBase + poolSize) ||
    (List.range 8).any fun c => decide (scratchBase c ≤ a ∧ a + n ≤ scratchBase c + scratchSize)

/-- A range lies in the DRAM of a partition (R405): partition 0 holds what lies below the firmware region and in no other
partition's range (R372). -/
def State.ownsDram (s : State) (p : Fin 4) (a n : Nat) : Bool :=
  if p = 0 then
    decide (a + n ≤ Config.fwRegionBase ∧ a + n ≤ dramSize) &&
      (s.sec.grants.toList.drop 1).all fun g => decide (g.dramBytes = 0 ∨ a + n ≤ g.dramBase ∨ g.dramBase + g.dramBytes ≤ a)
  else decide (s.sec.grants[p].dramBase ≤ a ∧ a + n ≤ s.sec.grants[p].dramBase + s.sec.grants[p].dramBytes)

/-- Bytes at a device address. -/
def State.readMem (s : State) (a n : Nat) : List Byte := memReadN s.mem a n
/-- A little-endian value at a device address. -/
def State.memVal (s : State) (a n : Nat) : Nat := memNat s.mem a n
/-- Bytes written at a device address; a range outside the map of R456 reaches nothing. -/
def State.writeMem (s : State) (a : Nat) (bs : List Byte) : State :=
  if memRange a bs.length then { s with mem := memWriteN s.mem a bs } else s
/-- Bytes of the pool at a pool offset. -/
def State.readPool (s : State) (b n : Nat) : List Byte := s.readMem (poolBase + b) n
/-- A value of the pool at a pool offset. -/
def State.poolVal (s : State) (b n : Nat) : Nat := s.memVal (poolBase + b) n
/-- Bytes written at a pool offset. -/
def State.writePool (s : State) (b : Nat) (bs : List Byte) : State := s.writeMem (poolBase + b) bs

/-- The bytes of a space. -/
def State.readSpace (s : State) (sp : Space) (a n : Nat) : List Byte :=
  match sp with
  | .device => s.readMem a n
  | .sram t => memReadN s.sram[t] a n

/-- A run of bytes written where it lies. -/
def State.applyMemWrite (s : State) (w : MemWrite) : State :=
  match w.space with
  | .device => s.writeMem w.addr w.data
  | .sram t => { s with sram := s.sram.set t (memWriteN s.sram[t] w.addr w.data) }

/-- Runs of bytes written in order. -/
def State.applyMemWrites (s : State) (ws : List MemWrite) : State := ws.foldl State.applyMemWrite s

/-- A run of pool bytes as an operation's output. -/
def poolWrite (b : Nat) (bs : List Byte) : MemWrite := { space := .device, addr := poolBase + b, data := bs }
/-- A run of bytes at a device address as an operation's output. -/
def devWrite (a : Nat) (bs : List Byte) : MemWrite := { space := .device, addr := a, data := bs }

/-! ## Links (R457) -/

/-- The mesh link exists: it does not leave the mesh. Columns rise to the east and rows to the south, which R457 does not say (DESIGN
CHOICE, log 62). -/
def linkExists (i : Nat) : Bool :=
  decide (i < 64) && match i % 4 with
    | 0 => decide (i / 4 % 4 < 3)
    | 1 => decide (0 < i / 4 % 4)
    | 2 => decide (i / 16 < 3)
    | _ => decide (0 < i / 16)

/-! ## The DMA descriptor (R459) -/

/-- A DMA descriptor. -/
structure DmaDesc where
  src : Nat
  dst : Nat
  srcSpace : Nat
  dstSpace : Nat
  reserved : Nat
  rowBytes : Nat
  rows : Nat
  srcStride : Nat
  dstStride : Nat
  reservedTail : Nat

/-- The descriptor at an offset of `PARAMS`. -/
def Image.dmaDesc (img : Image) (o : Nat) : DmaDesc where
  src := img.param o 8
  dst := img.param (o + 8) 8
  srcSpace := img.param (o + 16) 1
  dstSpace := img.param (o + 17) 1
  reserved := img.param (o + 18) 2
  rowBytes := img.param (o + 20) 4
  rows := img.param (o + 24) 4
  srcStride := img.param (o + 28) 4
  dstStride := img.param (o + 32) 4
  reservedTail := img.param (o + 36) 12

/-- The space of an end of a transfer by a target. -/
def spaceOf (t : Target) (code : Nat) : Space :=
  match t.sramIdx with
  | some i => if code = 1 then .sram i else .device
  | none => .device

/-- The bytes a transfer moves, row by row. -/
def State.dmaWrites (s : State) (t : Target) (d : DmaDesc) : List MemWrite :=
  (List.range d.rows).map fun r =>
    { space := spaceOf t d.dstSpace, addr := d.dst + r * d.dstStride,
      data := s.readSpace (spaceOf t d.srcSpace) (d.src + r * d.srcStride) d.rowBytes }

end Sys2Proof.Machine
end

