-- ==== Sys2Proof/Machine/PlaceIndex.lean ====
section
/-!
DEFINITION. The indexes of place memory and the queries that wait or run on them: where a DRAM shard's records lie, the results
of queries, and what ends an index (chapter 12).
-/
namespace Sys2Proof.Machine

/-! ## The engine's counters and indexes -/

/-- `PS_QUERIES`, `PS_SHORT`, `PS_WIDENED`, `PS_INSERTS`, `PS_FILE_DROPPED`, `PS_BACKEDGE_DROPPED`, `PS_BLOCKS_READ`,
`PS_EXPIRED`. -/
def State.psCount (s : State) (i : Fin 8) (n : Nat) : State :=
  { s with ps := { s.ps with counts := s.ps.counts.set i (countUp s.ps.counts[i] n) } }
/-- An event of the engine, while its events are enabled. -/
def State.psEvent (s : State) (code a0 a1 a2 : Nat) : State := if s.ps.evtEn then s.event 0x0C code a0 a1 a2 else s
/-- The index of a handle. -/
def State.psIndex (s : State) (h : Nat) : Option PsIndex :=
  s.ps.indexes.toList.findSome? fun x => x.filter fun i => decide (i.handle = h)
/-- The index of a handle changed. -/
def State.updIndex (s : State) (h : Nat) (f : PsIndex → PsIndex) : State :=
  { s with ps := { s.ps with
      indexes := s.ps.indexes.map (fun (x : Option PsIndex) => x.map (fun (i : PsIndex) => if i.handle = h then f i else i)) } }
/-- A query changed. -/
def State.updQuery (s : State) (q : Nat) (f : PsQuery → PsQuery) : State :=
  { s with ps := { s.ps with queries := s.ps.queries.map fun (x : PsQuery) => if x.num = q then f x else x } }

/-! ## The DRAM shard (R275, R278) -/

/-- Bytes of a DRAM record (R278). -/
def PsIndex.recBytes (ix : PsIndex) : Nat := 64 * ceilDiv (32 + ix.codeBytes + 8 * ix.degree) 64
/-- The pages of DRAM that the shard of an index takes: room for `DRAM_CAP` records (log 69). -/
def PsIndex.dramPages (ix : PsIndex) : Nat := ceilDiv (ix.recBytes * ix.dramCap) 65536
/-- The writes that put a DRAM record at its place (R278): an empty slot's `NB_EPOCH` is all ones, and its `NB_INDEX` is not
written. -/
def PsIndex.recWrites (ix : PsIndex) (base : Nat) (r : PsRec) : List (Nat × List Byte) :=
  let a := base + ix.recBytes * r.place
  let slot (k : Nat) : Nat × List Byte :=
    match r.slots[k]? with
    | some x => (a + 32 + ix.codeBytes + 8 * k, natLe 4 x.1 ++ natLe 4 x.2)
    | none => (a + 36 + ix.codeBytes + 8 * k, natLe 4 0xFFFFFFFF)
  (a, natLe 8 r.id ++ natLe 6 r.epochIn ++ natLe 1 r.kind ++ natLe 1 (b2n r.spilled.isSome) ++ natLe 8 r.obsDt ++ natLe 2 r.label
    ++ natLe 6 r.acre ++ r.code) :: (List.range ix.degree).map slot
/-- The DRAM shard of an index changed: the records that differ are written to DRAM. -/
def State.putShard (s : State) (ix : PsIndex) (recs : List PsRec) : State :=
  let s := s.updIndex ix.handle fun i => { i with dram := recs }
  match ix.dramBase with
  | none => s
  | some b =>
    let changed := ((List.range recs.length).filterMap fun k => if recs[k]? = ix.dram[k]? then none else recs[k]?).filter
      fun r => !r.reclaimed
    { s with mem := (changed.flatMap (ix.recWrites b)).foldl (fun m w => memWriteN m w.1 w.2) s.mem }
/-- Bytes of a flash record (R278, R279). -/
def PsIndex.nodeBytes (ix : PsIndex) : Nat := 32 + ix.codeBytes + ix.degree * (8 + ix.codeBytes)
/-- Records to a node block (R278). -/
def PsIndex.perBlock (ix : PsIndex) : Nat := 4096 / ix.nodeBytes
/-- The flash shard that an epoch sees, with its number. -/
def PsIndex.shardAt (ix : PsIndex) (e : Nat) : Nat × List PsRec :=
  match ix.oldFlash.find? fun o => decide (e < o.1) with
  | some o => o.2
  | none => (ix.serial, ix.flash)
/-- The records of the flash shard that an epoch sees. -/
def PsIndex.flashAt (ix : PsIndex) (e : Nat) : List PsRec := (ix.shardAt e).2

/-- The lowest place of the run that no record holds. -/
def PsIndex.freePlace (ix : PsIndex) : Nat :=
  let held := (ix.dram.filter fun r => !r.reclaimed).map (·.place)
  ((List.range (held.length + 1)).find? fun k => !decide (k ∈ held)).getD 0

/-! ## Queries and their results (R286, R287) -/

/-- A result entry before it is written: distance, shard and record. -/
structure Survivor where
  dist : Nat
  tier : Nat
  record : PsRec

/-- A field of a query's descriptor. -/
def PsQuery.d (q : PsQuery) (o n : Nat) : Nat := fieldAt q.desc o n
/-- Its epoch. -/
def PsQuery.epoch (q : PsQuery) : Nat := (q.taken.map (·.1)).getD 0

/-- A result entry's 32 bytes (R287). -/
def Survivor.bytes (x : Survivor) : List Byte :=
  natLe 8 x.record.id ++ natLe 4 x.dist ++ natLe 1 x.tier ++ natLe 1 x.record.kind ++ natLe 2 x.record.label
    ++ natLe 6 x.record.acre ++ natLe 2 0 ++ natLe 8 x.record.obsDt

/-- The job of a query. -/
def State.queryJob (s : State) (q : Nat) : Option Job :=
  s.fw.jobs.find? fun j => match j.kind with | .placeQuery n => decide (n = q) | _ => false

/-- A command of an index, other than a query, that waits. -/
def Job.onIndex (j : Job) (h : Nat) : Bool :=
  match j.kind with
  | .placeInsert i _ _ _ | .placeDelete i _ | .placeCompact i => decide (i = h)
  | _ => false

/-- The node blocks that a query waits for: those of its round, or of its scan of the whole shard (R294, R295). -/
def PsQuery.blocksOf (q : PsQuery) (ix : PsIndex) : List Nat :=
  if q.scanning then List.range (ceilDiv (ix.flashAt q.epoch).length ix.perBlock) else (q.round.map fun i => i / ix.perBlock).eraseDups
/-- A request for node blocks that some query of its index still waits for. -/
def State.blocksWanted (s : State) (h serial : Nat) (blocks : List Nat) : Bool :=
  (s.psIndex h).any fun ix => s.ps.queries.any fun q =>
    decide (q.d 0 4 = h ∧ (ix.shardAt q.epoch).1 = serial) && (q.blocksOf ix).any fun b => decide (b ∈ blocks)

/-- The vectors that a DRAM shard holds. -/
def PsIndex.dramCount (ix : PsIndex) : Nat := (ix.dram.filter fun r => !r.reclaimed).length

/-- What a span dropped, refused or let expire on an index, recorded once as it ends (R299). -/
def State.psSpanEvents (s : State) (ix : PsIndex) : State :=
  let s := if ix.spanFile = 0 then s else s.psEvent 0x0C01 ix.handle ix.spanFile 0
  let s := if ix.spanEdges = 0 then s else s.psEvent 0x0C02 ix.handle ix.spanEdges 0
  let s := if ix.spanFull = 0 then s else s.psEvent 0x0C03 ix.handle ix.spanFull ix.dramCount
  if ix.spanExpired = 0 then s else s.psEvent 0x0C04 ix.handle ix.spanExpired 0

/-- An index freed, its span's events recorded: what its shards had outstanding is dropped, and commands that waited for its publication fail. -/
def State.freeIndex (s : State) (h : Nat) : State :=
  let s := ((s.psIndex h).toList).foldl State.psSpanEvents s
  let s := { s with
    ps := { s.ps with indexes := s.ps.indexes.map (fun (x : Option PsIndex) => x.filter fun i => decide (i.handle ≠ h)) }
    mt := { s.mt with
      queue := s.mt.queue.filter fun r => match r.work with | .spill g | .nodeBlocks g _ _ => decide (g ≠ h) | _ => true
      pages := s.mt.pages.filter fun p => match p.owner with | .shard g _ | .location g => decide (g ≠ h) | _ => true
      groups := s.mt.groups.filter fun (g : WriteGroup) => decide (g.kind ≠ GroupKind.spill h) } }
  let s := (s.fw.jobs.filter fun (j : Job) => j.onIndex h).foldl (fun (s : State) (j : Job) => s.completeJob j errArg 0 0 0 0 s.dtNs) s
  (s.fw.jobs.filter fun (j : Job) => match j.kind with | .placeDestroy i => decide (i = h) | _ => false).foldl
    (fun (s : State) (j : Job) => s.completeJob j stOk 0 0 0 0 s.dtNs) s

/-- An index is freed once PLACE_DESTROY waits and no query runs on it (R358). -/
def State.destroyIdle (s : State) (h : Nat) : State :=
  match s.psIndex h with
  | none => s
  | some ix => if ix.destroying && !(s.ps.queries.any fun q => decide (q.d 0 4 = h)) then s.freeIndex h else s

/-- A query completes: its result is written, counted and reported (R286, R287). -/
def State.endQuery (s : State) (q : PsQuery) (status : Nat) (entries : List Survivor) (recl : Option Nat) : State :=
  let flags := b2n q.widened + 2 * b2n recl.isSome
  let bytes := natLe 2 status ++ natLe 2 entries.length ++ natLe 2 flags ++ natLe 2 (recl.getD 0) ++ natLe 8 q.epoch
    ++ natLe 4 q.rounds ++ natLe 4 q.blocks ++ natLe 8 ((q.taken.map (·.2)).getD s.dtNs) ++ entries.flatMap Survivor.bytes
  let s := { s with ps := { s.ps with queries := s.ps.queries.filter fun x => decide (x.num ≠ q.num) } }
  let s := { s with mt := { s.mt with queue := s.mt.queue.filter fun r =>
    match r.work with | .nodeBlocks h n bs => s.blocksWanted h n bs | _ => true } }
  let s := s.psCount 0 1
  let s := if status = stShort then s.psCount 1 1 else s
  let last := (entries.zip (List.range entries.length)).foldl
    (fun (a : Nat × Nat) x => if a.2 < x.1.record.obsDt then (x.2, x.1.record.obsDt) else a) (0, 0)
  let s :=
    match s.queryJob q.num with
    | none => s
    | some j =>
      let s := s.windowWrite j.mbx q.outOffset bytes
      s.completeJob j status entries.length (q.epoch % 2 ^ 32) (q.epoch / 2 ^ 32) (if q.lastSeen then last.1 else 0) s.dtNs
  s.destroyIdle (q.d 0 4)

/-- An index poisoned: every query of it completes (R294). -/
def State.poisonIndex (s : State) (ix : PsIndex) (block : Nat) : State :=
  let s := s.updIndex ix.handle fun i => { i with poisoned := true }
  let s := { s with ps := { s.ps with poisoned := true } }
  let s := s.psEvent 0x0C06 ix.handle (block % 2 ^ 32) (block / 2 ^ 32)
  (s.ps.queries.filter fun q => decide (q.d 0 4 = ix.handle)).foldl
    (fun (s : State) (q : PsQuery) => s.endQuery q errPoisoned [] none) s

end Sys2Proof.Machine
end

