-- ==== Sys2Proof/Machine/Flags.lean ====
section
/-!
DEFINITION. The ready flags as operations and boundaries change them (R63, R67 to R69, R74).
-/
namespace Sys2Proof.Machine

/-- The entry of a flag in an image. -/
def Image.flagEntry (img : Image) (n : Nat) : Option FlagEntry := img.flags.find? fun f => decide (f.flag = n)

/-- The wait flag is SET. -/
def State.flagSet (s : State) (n : Nat) : Bool := decide (s.flag n = some .set)
/-- The wait flag is VOID. -/
def State.flagVoid (s : State) (n : Nat) : Bool :=
  match s.flag n with
  | some (.void _) => true
  | _ => false

/-- The flag an operation waits on, if any. -/
def Op.waits (o : Op) : Option Nat := if o.wait then some o.waitFlag else none
/-- The flag an operation sets as it completes: `SET_FLAG` with `SET`; `SETF` sets its flag by its own action (R65). -/
def Op.sets (o : Op) : Option Nat := if o.set || decide (o.opcode = 0x02) then some o.setFlag else none

/-- The wait flag cleared as an operation issues or is skipped, with CLEAR_ON_ISSUE (R67, R68). -/
def State.clearOnIssue (s : State) (o : Op) : State := if o.clearOnIssue then s.clearFlag o.waitFlag else s

/-- `SET_FLAG` set as an operation completes (R67). -/
def State.setOnDone (s : State) (o : Op) : State :=
  match o.sets with
  | some n => s.setFlag n
  | none => s

/-- `SET_FLAG` voided as an operation is skipped (R69). A flag that is VOID already stays as it is: no void lasts longer than the span
after the one in which it arose (R68). -/
def State.voidOnSkip (s : State) (o : Op) : State :=
  match o.sets with
  | some n => if s.flagVoid n then s else s.voidFlag n false
  | none => s

/-- A VOID flag at a boundary whose images name `named`: VOID through one whole span, it becomes CLEAR where an image names it; a
flag that no image names keeps its state, whatever its age (R68). -/
def ageFlag (named : List Nat) : Nat × FlagVal → Option (Nat × FlagVal)
  | (n, .void true) => if n ∈ named then none else some (n, .void true)
  | (n, .void false) => some (n, .void true)
  | (n, .set) => some (n, .set)

/-- The flags after a boundary whose ending and starting images name `named`: aged, with the flags of stopped and abandoned
`POLICY` 1 producers VOID from this boundary, and the flags that are `POLICY` 0 in one of those images CLEAR (R68, R74). -/
def State.boundaryFlags (s : State) (voids clears named : List Nat) : State :=
  let s := { s with flags := s.flags.filterMap (ageFlag named) }
  let s := voids.foldl (fun (s : State) n => s.voidFlag n true) s
  clears.foldl (fun (s : State) n => s.clearFlag n) s

end Sys2Proof.Machine
end

