-- ==== Sys2Proof/Machine/StreamUnits.lean ====
section
/-!
DEFINITION. Stream descriptors, and the units and slots of a channel: opening, closing, holding, releasing and dropping
(R84 to R99).
-/
namespace Sys2Proof.Machine

/-! ## The descriptor (R85, R86) -/

/-- An unsigned field of a descriptor. -/
def dfield (d : List Byte) (o n : Nat) : Nat := fieldAt d o n
/-- `SOURCE_KIND` -/
def dKind (d : List Byte) : Nat := dfield d 0 1
/-- `SOURCE_INDEX` -/
def dIndex (d : List Byte) : Nat := dfield d 1 1
/-- `MODE` is FRAME -/
def dFrame (d : List Byte) : Bool := decide (dfield d 2 1 = 0)
/-- `DROP_POLICY` is DROP_OLDEST_FRAME -/
def dOldest (d : List Byte) : Bool := decide (dfield d 3 1 = 0)
/-- `PARTITION` -/
def dPart (d : List Byte) : Fin 4 := ⟨dfield d 4 1 % 4, Nat.mod_lt _ (by decide)⟩
/-- `ROUTE` -/
def dRoute (d : List Byte) : Nat := dfield d 5 1
/-- `ENABLE` -/
def dEnable (d : List Byte) : Bool := (dfield d 6 2).testBit 0
/-- `TRIGGERED` -/
def dTriggered (d : List Byte) : Bool := (dfield d 6 2).testBit 1
/-- `QUOTA_BASE` -/
def dQuotaBase (d : List Byte) : Nat := dfield d 8 2
/-- `QUOTA_PECKS` -/
def dQuotaPecks (d : List Byte) : Nat := dfield d 10 2
/-- `SLOT_PECKS` -/
def dSlotPecks (d : List Byte) : Nat := dfield d 12 2
/-- `SLOTS` -/
def dSlots (d : List Byte) : Nat := dfield d 14 1
/-- `PECKS_PER_FLAG` -/
def dPecksPerFlag (d : List Byte) : Nat := dfield d 15 1
/-- `FLAG_BASE` -/
def dFlagBase (d : List Byte) : Nat := dfield d 16 2
/-- `FLAG_COUNT` -/
def dFlagCount (d : List Byte) : Nat := dfield d 18 2
/-- `MAX_UNIT_BYTES` -/
def dMaxUnit (d : List Byte) : Nat := dfield d 20 4
/-- `TS_OFFSET_NS`, signed -/
def dTsOffset (d : List Byte) : Int := signedOf 32 (dfield d 24 4)
/-- `HOLD_LIMIT` -/
def dHoldLimit (d : List Byte) : Nat := dfield d 28 1
/-- G, the flag groups of a slot -/
def dGroups (d : List Byte) : Nat := ceilDiv (dSlotPecks d) (dPecksPerFlag d)
/-- A slot's bytes. -/
def dSlotBytes (d : List Byte) : Nat := dSlotPecks d * 16384
/-- The pool offset of a slot. -/
def dSlotBase (d : List Byte) (i : Nat) : Nat := (dQuotaBase d + i * dSlotPecks d) * 16384

/-- `WIDTH` -/
def dWidth (d : List Byte) : Nat := dfield d 36 2
/-- `HEIGHT` -/
def dHeight (d : List Byte) : Nat := dfield d 38 2
/-- `LINE_STRIDE` -/
def dStride (d : List Byte) : Nat := dfield d 40 4
/-- The byte of a slot at which a frame's embedded data begins, after its last line (R91). -/
def dEmbBase (d : List Byte) : Nat := 64 + dHeight d * dStride d
/-- The end of what a frame can reach in its slot: its lines, and the embedded data that is kept (R86, R94). -/
def dReach (d : List Byte) : Nat := dEmbBase d + (if dfield d 35 1 = 0x12 then dfield d 44 4 else 0)

/-- A stamp with `TS_OFFSET_NS` subtracted (R106). -/
def stampOf (d : List Byte) (t : Nat) : Nat := patOf 64 ((t : Int) - dTsOffset d)

/-- An empty slot. -/
def Slot.empty : Slot where
  state := .free
  desc := []
  exposureDt := 0
  firstDt := 0
  lastDt := 0
  seq := 0
  bytes := 0
  count := 0
  status := 0
  gen := 0
  exposure := 0
  taken := false
  heldSpans := 0
  missing := false
  groupsSet := []
  embBytes := 0

/-! ## One slot -/

/-- Slot `i` of a list changed. -/
def slotsAt (l : List Slot) (i : Nat) (f : Slot → Slot) : List Slot := l.modify i f
/-- Slot `i` of a channel changed. -/
def Channel.onSlot (c : Channel) (i : Nat) (f : Slot → Slot) : Channel := { c with slots := slotsAt c.slots i f }
/-- Slot `i` of a channel. -/
def Channel.slot (c : Channel) (i : Nat) : Slot := c.slots.getD i Slot.empty

/-- The flags of a unit's generation, on a channel with flags (R94), by the descriptor that the unit opened under. -/
def unitFlags (u : Slot) : List Nat :=
  let d := u.desc
  if dFlagCount d = 0 then [] else (List.range (dGroups d)).map fun j => dFlagBase d + u.gen * dGroups d + j

/-- A channel's slots that are not FREE. -/
def Channel.usedSlots (c : Channel) : Nat := (c.slots.filter fun u => decide (u.state ≠ .free)).length
/-- `PEAK_HELD` brought up to date (R87). -/
def Channel.notePeak (c : Channel) : Channel := { c with peakHeld := max c.peakHeld c.usedSlots }

/-- A unit released or reclaimed: its slot is FREE, and every flag of its generation is CLEAR (R92). -/
def State.freeSlot (s : State) (ch : Fin 32) (i : Nat) : State :=
  let c := s.sm.chans[ch]
  let u := c.slot i
  if u.state = .free then s
  else
    let s := s.updChan ch fun c =>
      { (c.onSlot i fun _ => Slot.empty) with
        frame := if c.frame = some i then none else c.frame
        expect := match c.expect with
          | some (k, some j) => if j = i then some (k, none) else c.expect
          | e => e
        latestTake := c.latestTake.erase i }
    (unitFlags u).foldl (fun (s : State) f => s.clearFlag f) s

/-- A slot marked HELD, from this span on. -/
def Slot.hold (u : Slot) : Slot := if u.state = .held then u else { u with state := .held, heldSpans := 0 }

/-- An operation that issues on one of a unit's flags holds the unit (R92). -/
def State.holdWaited (s : State) (o : Op) : State :=
  if !o.wait then s
  else
    let waits (u : Slot) : Bool := decide (u.state ≠ .free ∧ o.waitFlag ∈ unitFlags u)
    (List.finRange 32).foldl (fun (s : State) ch =>
      if s.sm.chans[ch].slots.any waits then
        s.updChan ch fun c => { c with slots := c.slots.map fun u => if waits u then u.hold else u }
      else s) s

/-! ## Discards (R98) -/

/-- A discard counted: `newest` says which counter; with `drop`, it is one of the table of R98 and counts for the span's
`STREAM_DROP`. -/
def State.countDrop (s : State) (ch : Fin 32) (newest drop : Bool) : State :=
  let s := { s with sm := { s.sm with status := s.sm.status ||| 1 } }
  s.updChan ch fun c =>
    { c with
      counts := if newest then { c.counts with droppedNewest := c.counts.droppedNewest + 1 }
        else { c.counts with droppedOldest := c.counts.droppedOldest + 1 }
      drops := countUp c.drops 1
      spanDrops := if drop then c.spanDrops + 1 else c.spanDrops
      spanDropKind := if drop && decide (c.spanDrops = 0) then newest else c.spanDropKind }

/-- An arrival on a channel that does not run (R90). -/
def State.countDisabled (s : State) (ch : Fin 32) : State :=
  let s := { s with sm := { s.sm with status := s.sm.status ||| 1 } }
  s.updChan ch fun c => { c with counts := { c.counts with droppedDisabled := c.counts.droppedDisabled + 1 }, drops := countUp c.drops 1 }

/-! ## Opening (R91, R94, R98) -/

/-- The first FREE slot. -/
def Channel.freeIdx (c : Channel) : Option Nat := c.slots.findIdx? fun u => decide (u.state = .free)
/-- The OPEN slot of a BATCH channel. -/
def Channel.openIdx (c : Channel) : Option Nat := c.slots.findIdx? fun u => decide (u.state = .opened)

/-- The indices of the slots in a state, in SEQ order; a SEQ is ordered by its distance from the next one. -/
def Channel.inState (c : Channel) (st : SlotState) : List Nat :=
  let ids := (List.range c.slots.length).filter fun i => decide ((c.slot i).state = st)
  sortBy (fun i j => decide ((c.seqNext - (c.slot j).seq).toNat ≤ (c.seqNext - (c.slot i).seq).toNat)) ids

/-- A unit's 64-byte header (R91). -/
def Slot.header (u : Slot) : List Byte :=
  natLe 8 u.exposureDt ++ natLe 8 u.firstDt ++ natLe 8 u.lastDt ++ natLe 4 u.seq.toNat ++ natLe 4 u.bytes ++ natLe 4 u.count
    ++ natLe 2 u.status.toNat ++ natLe 2 u.gen ++ List.replicate 24 0

/-- The header of a slot's unit written. -/
def State.writeHeader (s : State) (ch : Fin 32) (i : Nat) : State :=
  let u := s.sm.chans[ch].slot i
  s.writePool (dSlotBase u.desc i) u.header

/-- A unit opened in a slot that is FREE, with its header, as it stands, at the start of the slot: the header is there from the
opening on, and goes with the unit (R91; DEDUCED, log 29). -/
def State.openSlot (s : State) (ch : Fin 32) (d : List Byte) (i exposure exposureDt firstDt : Nat) : State :=
  State.writeHeader (s.updChan ch fun c =>
    let gen := if dFlagCount d = 0 then 0 else exposure % (2 * dSlots d)
    ({ (c.onSlot i fun _ => { Slot.empty with
        state := .opened, desc := d, exposure := exposure, exposureDt := exposureDt, firstDt := firstDt, lastDt := firstDt
        seq := c.seqNext, gen := gen }) with seqNext := c.seqNext + 1 }).notePeak) ch i

/-- A slot for a unit that may use any: a FREE one, or under DROP_OLDEST_FRAME the READY one with the lowest SEQ, reclaimed.
None means that the arrival is discarded (R98). -/
def State.anySlot (s : State) (ch : Fin 32) (d : List Byte) : Option Nat × State :=
  let c := s.sm.chans[ch]
  match c.freeIdx with
  | some i => (some i, s)
  | none =>
    match (if dOldest d then (c.inState .ready).head? else none) with
    | some i => (some i, (s.freeSlot ch i).countDrop ch false true)
    | none => (none, s.countDrop ch true true)

/-! ## Writing and closing (R91, R94, R102) -/

/-- The bytes of a slot from `a` to `b` are written: the header and the lines received lie at the slot's start, the embedded data received
behind the last line. -/
def Slot.hasWritten (u : Slot) (a b : Nat) : Bool :=
  let lines := min u.count (dHeight u.desc)
  let emb := dEmbBase u.desc
  decide (b ≤ 64 + lines * dStride u.desc) || decide (emb ≤ a ∧ b ≤ emb + u.embBytes)
    || decide (lines = dHeight u.desc ∧ b ≤ emb + u.embBytes)

/-- Group `j` of a frame's slot is one that the frame reaches, with every byte that it reaches there written (R94). -/
def Slot.groupWritten (u : Slot) (j : Nat) : Bool :=
  let g := dPecksPerFlag u.desc * 16384
  decide (j * g < dReach u.desc) && u.hasWritten (j * g) (min ((j + 1) * g) (dReach u.desc))

/-- Flags of a unit's generation set, each once. -/
def State.setGroups (s : State) (ch : Fin 32) (i : Nat) (fs : List Nat) : State :=
  let new := fs.filter fun f => decide (f ∉ (s.sm.chans[ch].slot i).groupsSet)
  let s := new.foldl (fun (s : State) f => s.setFlag f) s
  s.updChan ch fun c => c.onSlot i fun u => { u with groupsSet := u.groupsSet ++ new }

/-- The header brought up to date, then the flags of the groups whose every byte that the frame reaches is written (R91, R94). -/
def State.progress (s : State) (ch : Fin 32) (i : Nat) : State :=
  let s := s.writeHeader ch i
  let u := s.sm.chans[ch].slot i
  s.setGroups ch i (((unitFlags u).zipIdx.filter fun f => u.groupWritten f.2).map (·.1))

/-- A unit closed: READY unless it is HELD already, its header written, and every flag of its generation SET (R92, R94). -/
def State.closeUnit (s : State) (ch : Fin 32) (i : Nat) : State :=
  let s := s.updChan ch fun c =>
    let u := c.slot i
    { (c.onSlot i fun u => if u.state = .opened then { u with state := .ready } else u) with
      frame := if c.frame = some i then none else c.frame
      counts := { c.counts with
        unitsAccepted := c.counts.unitsAccepted + 1
        shortOrTruncated := if u.status &&& 3 ≠ 0 then c.counts.shortOrTruncated + 1 else c.counts.shortOrTruncated
        lastArrivalDt := BitVec.ofNat 64 u.lastDt } }
  let s := s.writeHeader ch i
  s.setGroups ch i (unitFlags (s.sm.chans[ch].slot i))

/-! ## BATCH records (R91, R98) -/

/-- A number rounded up to a multiple of 16. -/
def up16 (n : Nat) : Nat := (n + 15) / 16 * 16

/-- A record's 16-byte header and its data. -/
def recordBytes (dt : Nat) (data : List Byte) (linkErr : Bool) (seq : Word) : List Byte :=
  natLe 8 dt ++ natLe 2 data.length ++ natLe 2 (b2n linkErr) ++ natLe 4 seq.toNat ++ data

/-- `LAST_ARRIVAL_DT` of an accepted arrival (R87). -/
def State.noteArrival (s : State) (ch : Fin 32) (dt : Nat) : State :=
  s.updChan ch fun c => { c with counts := { c.counts with lastArrivalDt := BitVec.ofNat 64 dt } }

/-- The descriptor under which a channel takes what arrives: that of its OPEN unit, else its running copy (R89). -/
def Channel.unitDesc (c : Channel) (d : List Byte) : List Byte :=
  match c.openIdx with
  | some i => (c.slot i).desc
  | none => d

/-- A record stored in an OPEN slot at an offset of its data. -/
def State.putRecord (s : State) (ch : Fin 32) (i : Nat) (dt : Nat) (data : List Byte) : State :=
  let c := s.sm.chans[ch]
  let u := c.slot i
  let r := recordBytes dt data false c.recSeq
  let s := s.writePool (dSlotBase u.desc i + 64 + up16 u.bytes) r
  let s := s.updChan ch fun c =>
    { (c.onSlot i fun u => { u with bytes := up16 u.bytes + r.length, count := u.count + 1, lastDt := dt }) with
      recSeq := countUp c.recSeq 1
      counts := { c.counts with lastArrivalDt := BitVec.ofNat 64 dt } }
  s.writeHeader ch i

/-- A packet refused by the template: counted, and the first of the span noted with its length (R104). -/
def State.templateRefuse (s : State) (ch : Fin 32) (len : Nat) : State :=
  let s := { s with sm := { s.sm with status := s.sm.status ||| 4 } }
  s.updChan ch fun c => { c with
    counts := { c.counts with templateErrors := c.counts.templateErrors + 1 }
    spanTemplateLen := if c.spanTemplate = 0 then len else c.spanTemplateLen
    spanTemplate := c.spanTemplate + 1 }

/-- What an arrival is under the descriptor of the unit that it joins or opens: a record's stamp and data, or the length of a payload that
the descriptor's template refuses. -/
abbrev RecordMaker := List Byte → Except Nat (Nat × List Byte)

/-- A record put into a new unit of a BATCH channel, or discarded. -/
def State.openRecord (s : State) (ch : Fin 32) (d : List Byte) (mk : RecordMaker) : State :=
  match mk d with
  | .error len => s.templateRefuse ch len
  | .ok r =>
    if dSlotBytes d < 64 + 16 + r.2.length then s.countDrop ch true true
    else match s.anySlot ch d with
      | (some j, s) => (s.openSlot ch d j 0 0 r.1).putRecord ch j r.1 r.2
      | (none, s) => s

/-- A new unit could take the arrival: its record fits a slot of the running descriptor. -/
def fitsNew (d : List Byte) (mk : RecordMaker) : Bool :=
  match mk d with
  | .error _ => false
  | .ok r => decide (64 + 16 + r.2.length ≤ dSlotBytes d)

/-- A record appended to a BATCH channel: a record that does not fit closes the slot and opens the next (R91, R98). What fits no slot at all
is discarded, what the next unit's template refuses is counted so, and the OPEN unit then stays open (log 29). -/
def State.appendRecord (s : State) (ch : Fin 32) (d : List Byte) (mk : RecordMaker) : State :=
  let c := s.sm.chans[ch]
  match c.openIdx with
  | some i =>
    let u := c.slot i
    match mk u.desc with
    | .error len => s.templateRefuse ch len
    | .ok r =>
      if 64 + up16 u.bytes + 16 + r.2.length ≤ dSlotBytes u.desc then s.putRecord ch i r.1 r.2
      else (if fitsNew d mk then s.closeUnit ch i else s).openRecord ch d mk
  | none => s.openRecord ch d mk

/-! ## Triggered exposures (R62, R94, R97 to R99) -/

/-- The exposure that waits closed MISSING, its flags CLEAR (R99). -/
def State.closeMissing (s : State) (ch : Fin 32) : State :=
  match s.sm.chans[ch].expect with
  | none => s
  | some (k, slot) =>
    let s :=
      match slot with
      | none => s
      | some i =>
        let s := s.updChan ch fun c => c.onSlot i fun u =>
          { u with state := if u.state = SlotState.opened then SlotState.ready else u.state, status := u.status ||| 8, missing := true }
        s.writeHeader ch i
    let s := s.updChan ch fun c => { c with expect := none }
    s.event 0x02 0x0205 ch.val k 0

/-- The slot of the unit of an exposure, if it is still there. -/
def Channel.exposureSlot (c : Channel) (k : Nat) : Option Nat :=
  c.slots.findIdx? fun u => decide (u.state ≠ .free ∧ u.exposure = k)

/-- Forced release: the unit of exposure k less 2 x SLOTS still HELD (R97). -/
def State.forceRelease (s : State) (ch : Fin 32) (d : List Byte) (k : Nat) : State :=
  if dFlagCount d = 0 ∨ k < 2 * dSlots d then s
  else
    match s.sm.chans[ch].exposureSlot (k - 2 * dSlots d) with
    | none => s
    | some i =>
      let u := s.sm.chans[ch].slot i
      if u.state ≠ .held then s
      else
        let s := s.freeSlot ch i
        let s := s.updChan ch fun c => { c with counts := { c.counts with holdExpired := c.counts.holdExpired + 1 } }
        let s := { s with sm := { s.sm with status := s.sm.status ||| 16 } }
        s.event 0x02 0x0203 ch.val i u.seq.toNat

/-- An exposure registered at a DT instant on a channel that runs and is a triggered FRAME channel of CSI-2 (R62). -/
def State.registerExposure (s : State) (ch : Fin 32) (dt : Nat) : State :=
  let c := s.sm.chans[ch]
  match c.desc with
  | none => s
  | some d =>
    if !c.runs || !dFrame d || !dTriggered d || decide (dKind d ≠ 1) then s
    else
      let k := c.exposures
      let s := s.updChan ch fun c => { c with exposures := c.exposures + 1 }
      let s := (s.closeMissing ch).forceRelease ch d k
      let r : Option Nat × State :=
        if dFlagCount d ≠ 0 then
          let i := k % dSlots d
          match (s.sm.chans[ch].slot i).state with
          | .free => (some i, s)
          | .ready => if dOldest d then (some i, (s.freeSlot ch i).countDrop ch false true) else (none, s.countDrop ch true true)
          | _ => (none, s.countDrop ch true true)
        else s.anySlot ch d
      let s :=
        match r with
        | (some i, s) => s.openSlot ch d i k dt 0
        | (none, s) => s
      s.updChan ch fun c => { c with expect := some (k, r.1) }

/-! ## TAKE and RELEASE (R95) -/

/-- The handoff record. -/
def handoff (c : Channel) (ch : Fin 32) (ids : List Nat) (dt : Nat) : List Byte :=
  natLe 2 ch.val ++ natLe 2 ids.length ++ natLe 4 0 ++ natLe 8 dt
    ++ ids.flatMap fun i =>
        let u := c.slot i
        natLe 2 i ++ natLe 2 u.status.toNat ++ natLe 4 u.bytes ++ natLe 4 u.seq.toNat ++ natLe 4 0

/-- A FRAME channel. -/
def Channel.isFrame (c : Channel) : Bool :=
  match c.desc with
  | some d => dFrame d
  | none => true

/-- TAKE on a channel: the units handed over, now HELD, and the handoff record. -/
def State.takeUnits (s : State) (ch : Fin 32) : List Byte × State :=
  let isFrame := s.sm.chans[ch].isFrame
  let s :=
    if isFrame then s
    else match s.sm.chans[ch].openIdx with
      | some i => if (s.sm.chans[ch].slot i).count = 0 then s else s.closeUnit ch i
      | none => s
  let ready := s.sm.chans[ch].inState .ready
  let hand := if isFrame then ready.drop (ready.length - 1) else ready
  let old := if isFrame then ready.take (ready.length - 1) else []
  let s := old.foldl (fun (s : State) i => (s.freeSlot ch i).countDrop ch false false) s
  let s := s.updChan ch fun c =>
    { (hand.foldl (fun (c : Channel) i => c.onSlot i fun u => { u.hold with taken := true }) c) with latestTake := hand }
  (handoff s.sm.chans[ch] ch hand s.dtNs, s)

/-- RELEASE on a channel: the units of the latest TAKE, or the unit of a generation. -/
def State.releaseUnits (s : State) (ch : Fin 32) (g : Nat) : State :=
  let c := s.sm.chans[ch]
  if g = 0xFFFFFFFF then
    let s := c.latestTake.foldl (fun (s : State) i => s.freeSlot ch i) s
    s.updChan ch fun c => { c with latestTake := [] }
  else
    match c.desc with
    | none => s
    | some d =>
      let has (u : Slot) : Bool := decide (u.state ≠ .free) &&
        (if dFlagCount d = 0 then decide (u.seq.toNat % (2 * dSlots d) = g) else decide (u.gen = g))
      ((List.range c.slots.length).filter fun i => has (c.slot i)).foldl (fun (s : State) i => s.freeSlot ch i) s

/-! ## The boundary (R90, R96, R98) -/

/-- Units HELD for more than HOLD_LIMIT spans released (R96 step 2). -/
def State.expireHolds (s : State) (ch : Fin 32) : State :=
  let s := s.updChan ch fun c => { c with slots := c.slots.map fun u =>
    if u.state = .held then { u with heldSpans := u.heldSpans + 1 } else u }
  let c := s.sm.chans[ch]
  (List.range c.slots.length).foldl (fun (s : State) i =>
    let u := c.slot i
    if u.state = .held ∧ dHoldLimit u.desc < u.heldSpans then
      let s := s.freeSlot ch i
      let s := s.updChan ch fun c => { c with counts := { c.counts with holdExpired := c.counts.holdExpired + 1 } }
      let s := { s with sm := { s.sm with status := s.sm.status ||| 8 } }
      s.event 0x02 0x0202 ch.val i u.seq.toNat
    else s) s

/-- Units closed MISSING released (R96 step 3). -/
def State.releaseMissing (s : State) (ch : Fin 32) : State :=
  let c := s.sm.chans[ch]
  ((List.range c.slots.length).filter fun i => (c.slot i).missing).foldl (fun (s : State) i => s.freeSlot ch i) s

/-- Every unit of a channel released, and nothing under way (R90). -/
def State.stopChannel (s : State) (ch : Fin 32) : State :=
  let c := s.sm.chans[ch]
  let s := (List.range c.slots.length).foldl (fun (s : State) i => s.freeSlot ch i) s
  s.updChan ch fun c => { c with runs := false, slots := [], expect := none, frame := none, latestTake := [] }

/-- The channel's `STREAM_DROP` and the other events of the span, counted once (R98, R104, R105); the event is gated by
`DROP_EVT_EN`. -/
def State.channelEvents (s : State) (ch : Fin 32) : State :=
  let c := s.sm.chans[ch]
  let s := if c.spanDrops ≠ 0 ∧ s.sm.dropEvtEn then s.event 0x02 0x0201 ch.val (b2n c.spanDropKind) c.spanDrops else s
  let s := s.updChan ch fun c => { c with spanDrops := 0, spanDropKind := false }
  let len := c.spanTemplateLen
  let s := if c.spanTemplate ≠ 0 then s.event 0x02 0x0206 ch.val len c.spanTemplate else s
  let line := match c.desc with | some d => dfield d 35 1 % 8 | none => 0
  let s := if c.spanMissed ≠ 0 then s.event 0x02 0x0207 ch.val line c.spanMissed else s
  s.updChan ch fun c => { c with spanTemplate := 0, spanTemplateLen := 0, spanMissed := 0 }

/-- The claimed channel mask of an image (R61). -/
def Image.channelMask (img : Image) : Nat :=
  ((img.claims.find? fun x => decide (x.resource = 0x0009)).map (·.amount)).getD 0

/-- The conditions under which a channel runs, for the images that start at a boundary (R90). -/
def State.channelRuns (s : State) (ch : Fin 32) : Bool :=
  match s.sm.chans[ch].desc with
  | none => false
  | some d =>
    dEnable d && decide (s.sec.grants[dPart d].state ≠ 2) &&
      match s.image (dPart d) with
      | some img => img.channelMask.testBit ch.val
      | none => false

/-- A channel that a commit enables counts its exposures, units and records from 0 (R91, R94). -/
def Channel.enable (c : Channel) : Channel := { c with seqNext := 0, recSeq := 0, exposures := 0 }

/-- A committed descriptor becomes the running copy. -/
def Channel.commit (c : Channel) (d : List Byte) : Channel :=
  let on : Bool := match c.desc with
    | some old => dEnable old
    | none => false
  let c := { c with desc := some d }
  if dEnable d && !on then c.enable else c

/-- A channel started or stopped as R90 gives. One that starts has every slot FREE, and goes on with its counts from where it was
enabled. -/
def State.settleChannel (s : State) (ch : Fin 32) : State :=
  let c := s.sm.chans[ch]
  let runs := s.channelRuns ch
  let s := match c.desc with
    | some d => if dEnable d then s.updChan ch fun c => { c with everEnabled := true } else s
    | none => s
  if runs = c.runs then s
  else if runs then
    s.updChan ch fun c => { c with
      runs := true
      slots := List.replicate (match c.desc with | some d => dSlots d | none => 0) Slot.empty
      expect := none, frame := none, latestTake := []
      nextPoll := s.dtNs }
  else s.stopChannel ch

/-- A channel's status block (R87). -/
def State.statusBlockOf (s : State) (ch : Fin 32) : List Byte :=
  let c := s.sm.chans[ch]
  let k := c.counts
  natLe 8 k.unitsAccepted.toNat ++ natLe 4 k.droppedOldest.toNat ++ natLe 4 k.droppedNewest.toNat
    ++ natLe 4 k.droppedDisabled.toNat ++ natLe 4 k.linkErrors.toNat ++ natLe 4 k.shortOrTruncated.toNat
    ++ natLe 4 k.templateErrors.toNat ++ natLe 4 k.drdyMissed.toNat ++ natLe 4 k.holdExpired.toNat
    ++ natLe 8 k.lastArrivalDt.toNat ++ natLe 2 c.peakHeld
    ++ natLe 2 (b2n c.runs + 2 * b2n (s.sm.commitPending.getLsbD ch.val)) ++ natLe 4 0 ++ natLe 8 s.sched.spanCount.toNat

/-- The status block of a channel enabled since the last cold reset written back (R87). -/
def State.writeBackStatus (s : State) (ch : Fin 32) : State :=
  if s.sm.chans[ch].everEnabled then
    let b := s.statusBlockOf ch
    let s := s.writeMem (Config.streamTableBase + 256 * ch.val + 192) b
    s.updChan ch fun c => { c with statusBlock := b, peakHeld := c.usedSlots }
  else s

end Sys2Proof.Machine
end

