-- ==== Sys2Proof/Machine/SeqOps.lean ====
section
/-!
DEFINITION. The sequencers: when an operation issues, completes, is skipped or overruns, the common operations, and the
boundary ballast (R65, R67 to R72, R459).
-/
namespace Sys2Proof.Machine

/-! ## Issue (R67, R71) -/

/-- Sequencers start 400 ns after the boundary (R74). -/
def State.sectionOpen (s : State) : Bool := s.inSpan && decide (s.sched.spanStart.toNat + 400 ≤ s.dtNs)

/-- A unit of a target accepts a new operation: a core's units are separate (R173), any other target runs one operation at
a time. `none` is a common operation other than DMA, which needs no unit of a core (R65). An IFE_EMIT that is active holds up
only a second one of its input (R120). The place search engine takes a PS_FILE beside a PS_SERVICE, and the other way round (R292). -/
def Seq.accepts (q : Seq) (t : Target) (o : Op) (u : Option OpUnit) : Bool :=
  match t with
  | .core _ =>
    match u with
    | none => true
    | some u => !q.running.any fun r => decide (r.unit = u)
  | .ife => q.running.all fun r => decide (r.op.opcode = 0x10) && !decide (o.opcode = 0x10 ∧ r.op.argA = o.argA)
  | .ps =>
    q.running.isEmpty || q.running.all fun r => decide (r.op.opcode + o.opcode = 0x21 ∧ (o.opcode = 0x10 ∨ o.opcode = 0x11))
  | _ => q.running.isEmpty

/-- The conditions of R67. -/
def State.mayIssue (s : State) (t : Target) (o : Op) (u : Option OpUnit) : Bool :=
  s.sectionOpen && !(s.seq t).halted && decide (o.earliest ≤ s.grain) && (!o.wait || s.flagSet o.waitFlag)
    && (s.seq t).accepts t o u

/-- The DT from which the next operation counts as held, if something holds it: its `EARLIEST`, the start of the section, or
the issue of the operation before it (R71). -/
def State.holdFrom (s : State) (t : Target) (o : Op) : Nat :=
  max (max (s.sched.spanStart.toNat + 400) (s.sched.spanStart.toNat + 1000 * o.earliest)) (s.seq t).readyDt

/-- A core's filler stops as an operation issues (R72). -/
def State.fillerOff (s : State) (t : Target) : State :=
  match t with
  | .core c => s.updCorePower c fun p => { p with filler := .off }
  | _ => s

/-- An operation issues: the flag is cleared, the wait is counted, and the section moves on (R67, R71). -/
def State.issued (s : State) (t : Target) (o : Op) : State :=
  let w := s.dtNs - s.holdFrom t o
  let s := (s.holdWaited o).clearOnIssue o
  let s := s.onSeq t fun q => { q with next := q.next + 1, waitNs := q.waitNs + w, readyDt := max q.readyDt s.dtNs }
  s.fillerOff t

/-- What an operation does as it issues, if the next operation of the target is this one and may issue. Otherwise nothing
happens (R67). -/
def State.tryIssue (s : State) (t : Target) (opcode : Nat) (u : Option OpUnit) (k : NextOp → State → State) : State :=
  match s.nextOp t with
  | none => s
  | some n => if decide (n.op.opcode = opcode) && s.mayIssue t n.op u then k n (s.issued t n.op) else s

/-! ## Filler (R72, R374) -/

/-- The clock of a core is stopped: by now its ramp has ended (R378). -/
def State.clockStopped (s : State) (c : Fin 8) : Bool :=
  s.pm.cores[c].stopped || match s.pm.cores[c].stopDue with
    | some t => decide (t ≤ s.dtNs)
    | none => false

/-- The clock of a point in MHz. -/
def opMhz (op : Nat) : Nat := [400, 600, 800, 1000, 1200, 1400, 1600, 1800].getD op 1800

/-- The highest ceiling: OP5 while the regulator does not acknowledge (R447). -/
def Power.topOp (p : Power) : Nat := if p.pmbusOk then 7 else 5

/-- The ballast level that an image claims for a core (R61). -/
def Image.ballastLevel (img : Image) (c : Nat) : Nat :=
  ((img.claims.find? fun x => decide (x.resource = 0x000B ∧ x.index = c)).map (·.amount)).getD 0

/-- A filler level of a core that runs at one operating point instead of another, lower or higher: in proportion to the clocks, for
the rule says that the levels are scaled and not how (R72; DESIGN CHOICE, log 63). -/
def scaleLevel (level now full : Nat) : Nat := level * opMhz now / opMhz full

/-- The running image that claims a core: the one with a section of it, else one that names it in its `CORE_MASK`. -/
def State.claimOf (s : State) (c : Fin 8) : Option Image :=
  match s.sectionOf (.core c) with
  | some (_, img, _) => some img
  | none => (List.finRange 4).findSome? fun p => (s.image p).filter fun img => img.coreMask.getLsbD c.val

/-- The latched image that names a core. -/
def State.latchedClaim (s : State) (c : Fin 8) : Option Image :=
  if s.sched.latched then
    s.sched.latchSlot.toList.findSome? fun k => (k.bind fun i => s.sched.slots[i]).filter fun img => img.coreMask.getLsbD c.val
  else none

/-- The level that an idle core's filler ramps towards, once `BALLAST_START` is reached: the one that the running image claims for it.
For a core whose clock has restarted, which no running image names, it is the one that the latched image claims, from that image's
`BALLAST_START` as far before the boundary (R72, R378; DESIGN CHOICE, log 63). A core clamped below the ceiling in force has the level
of its point. -/
def State.ballastOf (s : State) (c : Fin 8) : Option Nat :=
  let full := min s.pm.ceiling.toNat s.pm.topOp
  let now := min s.pm.cores[c].op.toNat full
  let level (img : Image) : Nat := scaleLevel (img.ballastLevel c.val) now full
  match s.claimOf c, s.latchedClaim c with
  | some img, _ => if s.sectionOpen ∧ img.ballastStart ≤ s.grain then some (level img) else none
  | none, some img => if s.sched.nextBoundary ≤ s.dtNs + 1000 * (img.spanGrains - img.ballastStart) then some (level img) else none
  | none, none => none

/-- The filler of an idle core: towards its ballast level when that is due, else down. -/
def State.idleFiller (s : State) (c : Fin 8) : Filler :=
  match s.ballastOf c with
  | some level => .ballast level
  | none => .rampDown

/-- A core with nothing running is idle: its filler takes over (R72); a stopped clock runs none (R378). -/
def State.settleFiller (s : State) (t : Target) : State :=
  match t with
  | .core c =>
    if (s.seq t).running.isEmpty && !s.clockStopped c then
      s.updCorePower c fun p => { p with filler := s.idleFiller c }
    else s
  | _ => s

/-- The vision engine of a target. -/
def visOf : Target → Option (Fin 4)
  | .pw => some 0
  | .fe => some 1
  | .trk => some 2
  | .fth => some 3
  | _ => none

/-- An operation of a target has completed: a vision engine or a core counts it, whatever its opcode (R156, R180). -/
def State.countDone (s : State) (t : Target) : State :=
  match t with
  | .core c => s.updCore c fun x => { x with ops := countUp x.ops 1 }
  | _ =>
    match visOf t with
    | some i => s.updVis i fun v => { v with ops := countUp v.ops 1 }
    | none => s

/-- The cycles for which a running operation kept its unit busy, counted as it ends, whether it completed or not: a vision engine's
operation of any opcode, and an array operation of a core (R156, R180). -/
def State.countBusy (s : State) (t : Target) (r : Running) (cycles : Nat) : State :=
  match t with
  | .core c => if r.unit = .main then s.updCore c fun x => { x with busyCycles := x.busyCycles + cycles } else s
  | _ =>
    match visOf t with
    | some i => s.updVis i fun v => { v with busyCycles := v.busyCycles + cycles }
    | none => s

/-- The cycles that an operation's length comes to in the clock of its unit: a transfer is measured in FABRIC cycles of 1.6 GHz, and a
vision engine counts cycles of 1.2 GHz. -/
def Running.ownCycles (r : Running) : Nat := if r.op.opcode = 0x04 then ceilDiv (r.cycles * 3) 4 else r.cycles

/-- The busy cycles of an operation that a boundary stops: those of its unit's clock since its issue, at most its length (R156, R180). -/
def State.countStopped (s : State) (t : Target) (r : Running) : State :=
  let mhz : Nat := match t with
    | .core c => opMhz s.pm.cores[c].op.toNat
    | _ => 1200
  s.countBusy t r (min r.ownCycles ((s.dtNs - r.startDt) * mhz / 1000))

/-- An operation that completes as it issues. -/
def State.doneNow (s : State) (t : Target) (o : Op) : State := ((s.countDone t).setOnDone o).settleFiller t

/-- An operation that starts on a unit. -/
def State.startOp (s : State) (t : Target) (n : NextOp) (u : OpUnit) (cycles : Nat) (writes : List MemWrite) : State :=
  s.onSeq t fun q => { q with
    running := q.running ++ [{ unit := u, index := n.index, op := n.op, startDt := s.dtNs, cycles := cycles, writes := writes,
                               chk := .clean, rerun := false, aux := [] }] }

/-! ## Common operations (R65) -/

/-- NOP, WAIT, SETF and END complete as they issue. -/
def State.commonOp (s : State) (t : Target) (opcode : Nat) : State :=
  s.tryIssue t opcode none fun n s => s.doneNow t n.op

/-- The sequencer that a bit of a target mask names, for a partition (R60). -/
def targetOf (p : Fin 4) (code : Nat) : Option Target :=
  if h : code < 8 then some (.core ⟨code, h⟩)
  else match code with
  | 0x10 => some .pw
  | 0x11 => some .fe
  | 0x12 => some .trk
  | 0x13 => some .fth
  | 0x14 => some .fld
  | 0x15 => some .fus
  | 0x16 => some .slv
  | 0x17 => some .ps
  | 0x18 => some .ife
  | 0x19 => some .mv
  | 0x1A => some (.sm p)
  | _ => none

/-- A target of a partition has issued a BARRIER of an id in this span. -/
def State.barrierIssued (s : State) (p : Fin 4) (id code : Nat) : Bool :=
  match targetOf p code with
  | none => false
  | some t =>
    decide (id ∈ (s.seq t).barriers) &&
      match s.sectionOf t with
      | some (p', _, _) => decide (p' = p)
      | none => false

/-- The targets of a mask that have not issued their BARRIER. -/
def State.barrierAbsent (s : State) (p : Fin 4) (id mask : Nat) : List Nat :=
  (List.range 27).filter fun c => mask.testBit c && !s.barrierIssued p id c

/-- A target mask of a list of target numbers. -/
def maskOf (cs : List Nat) : Nat := cs.foldl (fun m c => m ||| 2 ^ c) 0

/-- BARRIER: its arrival is noted, and it issues and completes once every target of its mask has arrived (R65). -/
def State.barrierOp (s : State) (t : Target) : State :=
  match s.nextOp t with
  | none => s
  | some n =>
    if decide (n.op.opcode = 0x03) && s.mayIssue t n.op none then
      let s := s.onSeq t fun q => if n.op.argA ∈ q.barriers then q else { q with barriers := n.op.argA :: q.barriers }
      if (s.barrierAbsent n.part n.op.argA n.op.argB).isEmpty then (s.issued t n.op).doneNow t n.op else s
    else s

/-! ## Uncorrectable words and lines that an operation reads (R301, R414) -/

/-- A corrected SRAM word of a slot, counted; the boundary records the span's (R414, R431). -/
def State.sramCorrected (s : State) (slot : Nat) : State :=
  let n := (mapGet s.evr.ceSpan slot).getD 0 + 1
  { s with evr := { s.evr with sramCe := countUp s.evr.sramCe 1, ceSpan := mapSet s.evr.ceSpan slot n } }

/-- An uncorrectable SRAM word: counted, and recorded with its slot, its address and whether it is fatal (R414). -/
def State.sramUe (s : State) (slot addr fatal : Nat) : State :=
  State.event { s with evr := { s.evr with sramUe := countUp s.evr.sramUe 1 } } 0x10 0x1002 slot addr fatal

/-- An engine's unrecovered check failure: a second one within 1,000 spans, counted as for the fence, is recorded (R178, R420). -/
def State.engineFailed (s : State) (slot : Nat) : State :=
  let now := s.sched.fenceSpans
  let n := ((mapGet s.evr.engineFails slot).map (·.1)).getD 0
  let s' := { s with evr := { s.evr with engineFails := mapSet s.evr.engineFails slot (n + 1, now) } }
  match mapGet s.evr.engineFails slot with
  | some (n, last) => if now - last ≤ 1000 then s'.event 0x10 0x1005 slot (n + 1) (now - last) else s'
  | none => s'

/-! ## DMA (R459) -/

/-- The core whose scratchpad holds a device address. -/
def scratchCore (a : Nat) : Option (Fin 8) := (List.finRange 8).find? fun c => decide (scratchBase c ≤ a ∧ a < scratchBase c + scratchSize)

/-- The width of an end of a transfer in bytes a FABRIC cycle: a scratchpad's goes with its core's clock. -/
def State.endWidth (s : State) (space addr : Nat) : Nat :=
  match scratchCore addr with
  | some c => if space = 0 then 256 * opMhz s.pm.cores[c].op.toNat / 1600 else 128
  | none => 128

/-- The length bound of a transfer in FABRIC cycles: the least width of its paths is 64 B a cycle at an engine's one port, 128 B with a
core's two ports and over the memory mesh, and that of a scratchpad. -/
def State.dmaCycles (s : State) (t : Target) (d : DmaDesc) : Nat :=
  let ports : Nat := match t with | .core _ => 128 | _ => 64
  128 + ceilDiv (d.rowBytes * d.rows) (min ports (min (s.endWidth d.srcSpace d.src) (s.endWidth d.dstSpace d.dst)))

/-! ## Skips (R69) -/

/-- A vision engine counts its skips, and Fathom starts its paths afresh after a stripe that is skipped (R150, R156). -/
def State.visSkip (s : State) (t : Target) (opcode : Nat) : State :=
  match visOf t with
  | some i => s.updVis i fun v => { v with
      skips := countUp v.skips 1, stripeSkipped := v.stripeSkipped || decide (t = .fth ∧ opcode = 0x10) }
  | none => s

/-- The next operation of a target skipped on a void: counted as issued, its set flag VOID, its wait flag CLEAR with
CLEAR_ON_ISSUE; the time for which the flag held it counts as waited (R71); a skipped BARRIER counts as issued too. -/
def State.voidSkip (s : State) (t : Target) : State :=
  match s.nextOp t with
  | none => s
  | some n =>
    if s.sectionOpen && !(s.seq t).halted && decide (n.op.earliest ≤ s.grain) && n.op.wait && s.flagVoid n.op.waitFlag then
      let w := s.dtNs - s.holdFrom t n.op
      let s := ((s.clearOnIssue n.op).voidOnSkip n.op).visSkip t n.op.opcode
      let s := s.onSeq t fun q => { q with
        next := q.next + 1, skips := q.skips + 1, waitNs := q.waitNs + w, readyDt := max q.readyDt s.dtNs,
        barriers := if n.op.opcode = 0x03 then n.op.argA :: q.barriers else q.barriers }
      { s with sched := { s.sched with skipCount := countUp s.sched.skipCount 1 } }
    else s

/-! ## Overruns (R70) -/

/-- Why an operation has not issued: 0 its flag, 1 a busy target or an earlier operation, 2 a barrier. -/
def State.overrunCause (s : State) (t : Target) (n : NextOp) (index : Nat) (o : Op) : Nat × Nat :=
  if index ≠ n.index then (1, 0)
  else if o.wait && !s.flagSet o.waitFlag then (0, 0)
  else if o.opcode = 0x03 ∧ o.argA ∈ (s.seq t).barriers then (2, maskOf (s.barrierAbsent n.part o.argA o.argB))
  else (1, 0)

/-- The first operation of a section from an index on that has not issued, is past its LATEST at a grain, and has not been
counted. -/
def firstLate (overran : List Nat) (grain : Nat) : Nat → List Op → Option (Nat × Op)
  | _, [] => none
  | i, o :: os => if o.latest < grain ∧ i ∉ overran then some (i, o) else firstLate overran grain (i + 1) os

/-- An overrun raised: status, count, interrupt, and the event for the first of the sequencer in the span (R70). A core that
only waited at a barrier is none that a relief image would help: the core counts as overrun if its recorded cause is not 2
(DEDUCED, log 45). -/
def State.raiseOverrun (s : State) (t : Target) (n : NextOp) (i : Nat) (o : Op) : State :=
  let c := s.overrunCause t n i o
  let first := !(s.seq t).overrunEvt
  let s := { s with sched := { s.sched with
    statusW1c := s.sched.statusW1c ||| 1, overrunCount := countUp s.sched.overrunCount 1
    overrunIrq := s.sched.overrunIrq || s.sched.overrunIrqEn
    overCur := match t with
      | .core k => if first && c.1 != 2 then s.sched.overCur ||| (1 <<< k.val) else s.sched.overCur
      | _ => s.sched.overCur } }
  let s := s.onSeq t fun q => { q with overran := i :: q.overran, overrunEvt := true }
  if first then s.event 0x00 0x0001 t.code i (c.1 + 256 * c.2) else s

/-- The next overrun of a target by a grain, if there is one. A halted core raises none (R70, R177). -/
def State.overrunBy (s : State) (t : Target) (grain : Nat) : State :=
  match s.nextOp t, s.sectionOf t with
  | some n, some (_, _, ops) =>
    if (s.seq t).halted || !s.inSpan then s
    else match firstLate (s.seq t).overran grain n.index (ops.drop n.index) with
      | some (i, o) => s.raiseOverrun t n i o
      | none => s
  | _, _ => s

/-- Every overrun of a target by a grain: one for each operation of the section at most. -/
def State.overrunAll (s : State) (t : Target) (grain : Nat) : State :=
  match s.sectionOf t with
  | some (_, _, ops) => ops.foldl (fun (s : State) _ => s.overrunBy t grain) s
  | none => s

/-! ## Ballast (R72) -/

/-- From grain BALLAST_START every idle core ramps its filler towards its claimed level, whether the image has a section of it or not. -/
def State.ballastRamp (s : State) : State :=
  (List.finRange 8).foldl (fun (s : State) c => if (s.ballastOf c).isSome then s.settleFiller (.core c) else s) s

/-! ## The rows -/

/-- NOP (R65). -/
def execNop (t : Target) (s : State) : Host.Outcome State Fault Refusal := .next (s.commonOp t 0x00)
/-- WAIT (R65). -/
def execWaitOp (t : Target) (s : State) : Host.Outcome State Fault Refusal := .next (s.commonOp t 0x01)
/-- SETF (R65). -/
def execSetf (t : Target) (s : State) : Host.Outcome State Fault Refusal := .next (s.commonOp t 0x02)
/-- BARRIER (R65). -/
def execBarrier (t : Target) (s : State) : Host.Outcome State Fault Refusal := .next (s.barrierOp t)
/-- END (R65): the sequencer is idle until the boundary, since no operation follows. -/
def execEndOp (t : Target) (s : State) : Host.Outcome State Fault Refusal := .next (s.commonOp t 0x05)
/-- SCHED_OVERRUN (R70). -/
def execSchedOverrun (t : Target) (s : State) : Host.Outcome State Fault Refusal := .next (s.overrunBy t s.grain)
/-- BALLAST_RAMP_START (R72). -/
def execBallastRampStart (s : State) : Host.Outcome State Fault Refusal := .next s.ballastRamp

end Sys2Proof.Machine
end

