-- ==== Sys2Proof/Machine/Flash.lean ====
section
/-!
DEFINITION. The flash controller's translation layer: where a page that is written goes, what it looks like on the part, the map,
and the key epochs of the pages (R304, R314, R315, R317 to R320).
-/
namespace Sys2Proof.Machine

/-! ## Pages -/

/-- The handle by which events and page metadata name an acre: of partition 0 and type 0x11 (R358; its number is the low bits of the key,
log 7). -/
def acreHandle (key : Nat) : Nat := 0x11000000 + key % 2 ^ 24
/-- The handle that a page's metadata gives: 0 for a page of the map's journal (R315). -/
def PageOwner.handle : PageOwner → Nat
  | .object h => h
  | .acre k => acreHandle k
  | .shard h _ | .location h => h
  | .journal => 0
/-- `PAGE_KIND` (R315). -/
def PageOwner.kind : PageOwner → Nat
  | .journal => 1
  | _ => 0

/-- As many bytes as a field has: the rest zeros. -/
def exactly (n : Nat) (bs : List Byte) : List Byte := (List.range n).map fun k => bs.getD k 0
/-- Bytes as flash pages of 16,384 B. -/
def flashPagesOf (bs : List Byte) : List (List Byte) :=
  (List.range (ceilDiv bs.length 16384)).map fun k => exactly 16384 ((bs.drop (16384 * k)).take 16384)

/-- The address at which the mover finds a page: its namespace in granules of 256 B (R314). -/
def FlashPage.granule (p : FlashPage) : Nat := 0x4000000000 + p.ns.val * 0x1000000000 + p.lpn * 16384 / 256
/-- The tweak under which a page is encrypted (R318). -/
def FlashPage.tweak (p : FlashPage) : Nat := p.ns.val * 2 ^ 56 + p.lpn
/-- The metadata block of a copy of a page, which is not encrypted (R315). -/
def FlashPage.metadata (p : FlashPage) (epoch : Nat) (mirror : Bool) : List Byte :=
  let b := natLe 8 p.lpn ++ natLe 1 p.ns.val ++ natLe 1 p.owner.kind ++ natLe 2 epoch ++ natLe 4 p.owner.handle ++ natLe 8 p.writeSeq
    ++ natLe 1 (b2n mirror) ++ natLe 7 0 ++ natLe 4 (crc32 p.data).toNat ++ natLe 24 0
  b ++ natLe 4 (crc32 b).toNat

/-- What `Config.crypto` makes: a page under AES-256-XTS, from the key, the tweak and the plaintext (log 10). -/
def cryptoXts : Nat := 0x1301
/-- The parity of the eight codewords of a page, from its data and its metadata: the code is not given (log 10). -/
def codeLdpc : Nat := 0x1302
/-- What lies on the part: the encrypted data, the metadata, the parity, and the 64 bytes written 0xFF (R315, R318). -/
def FlashPage.onPart (p : FlashPage) (k : NsKeys) (mirror : Bool) : List Byte :=
  let stored := exactly 16384 (Config.crypto cryptoXts (k.slots[k.current] ++ natLe 8 p.tweak ++ p.data))
  let spare := p.metadata k.epoch mirror
  stored ++ spare ++ exactly 1920 (Config.crypto codeLdpc (stored ++ spare)) ++ List.replicate 64 0xFF

/-- The page that the mover finds at a granule address. -/
def State.pageAt (s : State) (addr : Nat) : Option FlashPage := s.mt.pages.find? fun p => decide (p.granule = addr)
/-- The pages of an owner. -/
def State.pagesFor (s : State) (o : PageOwner) : List FlashPage := s.mt.pages.filter fun p => decide (p.owner = o)
/-- The granule address of a page of an owner. -/
def State.pageAddr (s : State) (o : PageOwner) (pos : Nat) : Option Nat := ((s.pagesFor o).find? fun p => decide (p.pos = pos)).map (·.granule)

/-! ## Blocks (R313, R317) -/

/-- Blocks of a die: 2,048, the good blocks at reset over 32 dies (log 4). -/
def dieBlocks : Nat := 2048
/-- A block's number in the device. -/
def FlashBlock.id (b : FlashBlock) : Nat := b.die * dieBlocks + b.block
/-- A block that takes the next pages: begun, not full, not retired. -/
def FlashBlock.takes (b : FlashBlock) : Bool := !b.retired && decide (0 < b.filled ∧ b.filled < Config.blockPages)

/-- A block's record changed. -/
def State.updBlock (s : State) (die block : Nat) (f : FlashBlock → FlashBlock) : State :=
  let new : FlashBlock := { die := die, block := block, erases := 0, reads := 0, degraded := false, retired := false, filled := 0 }
  let s := if s.mt.blocks.any fun b => decide (b.die = die ∧ b.block = block) then s
    else { s with mt := { s.mt with blocks := s.mt.blocks ++ [new] } }
  { s with mt := { s.mt with blocks := s.mt.blocks.map fun (b : FlashBlock) => if b.die = die ∧ b.block = block then f b else b } }

/-- The number of the free block with the fewest erases among `size` blocks from `lo` on: one that has never been used while there is one,
and which of several is the controller's choice (R317; log 72). -/
def State.freeBlock (s : State) (lo size : Nat) : Option Nat × State :=
  let (k, s) := s.drawBelow size
  let known := s.mt.blocks.filter fun b => decide (lo ≤ b.id ∧ b.id < lo + size)
  let tries := (List.range (min size (known.length + 1))).map fun i => lo + (k + i) % size
  match tries.find? fun i => !(known.any fun b => decide (b.id = i)) with
  | some i => (some i, s)
  | none =>
    let free := known.filter fun b => !b.retired && decide (b.filled = 0)
    (((sortBy (fun (a b : FlashBlock) => decide (a.erases ≤ b.erases)) free).head?).map (·.id), s)

/-- Where the next page goes: the block that is being filled, or else a new one. A mirror copy goes to a die of the channel that the first
copy is not on (R304): dies 0 to 15 are on one channel, 16 to 31 on the other (log 72). -/
def State.takePlace (s : State) (other : Option Nat) : (Nat × Nat) × State :=
  let half := 16 * dieBlocks
  let (lo, size) : Nat × Nat := match other with
    | none => (0, 2 * half)
    | some die => (if die < 16 then half else 0, half)
  match s.mt.blocks.find? fun b => b.takes && decide (lo ≤ b.id ∧ b.id < lo + size) with
  | some b => ((b.die, b.block), s.updBlock b.die b.block fun b => { b with filled := b.filled + 1 })
  | none =>
    let (i, s) := s.freeBlock lo size
    let i := i.getD lo
    let s := s.updBlock (i / dieBlocks) (i % dieBlocks) fun b => { b with filled := 1 }
    ((i / dieBlocks, i % dieBlocks), { s with mt := { s.mt with freeBlocks := s.mt.freeBlocks - 1 } })

/-- A copy of a page programmed at a new place, under the current key of its namespace (R314, R319). -/
def State.newCopy (s : State) (p : FlashPage) (other : Option Nat) (mirror : Bool) : PageCopy × State :=
  let (at_, s) := s.takePlace other
  let k := s.sec.keys[p.ns]
  ({ die := at_.1, block := at_.2, epoch := k.epoch, mirror := mirror, raw := p.onPart k mirror }, s)

/-! ## The map (R314, R320) -/

/-- Valid physical pages of a namespace at an epoch that is not current (R320). -/
def State.oldPages (s : State) (n : Fin 5) : Nat :=
  (s.mt.pages.filter fun p => decide (p.ns = n)).foldl (fun m p =>
    m + (p.copies.filter fun c => decide (c.epoch ≠ s.sec.keys[n].epoch)).length) 0

/-- The key slot that is not current. -/
def NsKeys.other (k : NsKeys) : Fin 2 := if k.current = 0 then 1 else 0
/-- That slot zeroised. -/
def NsKeys.dropOld (k : NsKeys) : NsKeys := { k with old := none, slots := k.slots.set k.other (List.replicate 64 0) }

/-- The old slot zeroised once no old-epoch page is left (R320). -/
def State.zeroiseOld (s : State) (n : Fin 5) : State :=
  match s.sec.keys[n].old with
  | none => s
  | some e =>
    if s.oldPages n = 0 then
      let s := { s with sec := { s.sec with keys := s.sec.keys.set n s.sec.keys[n].dropOld } }
      s.event 0x0E 0x0E07 n.val e 0
    else s

/-- A page of a namespace written: it keeps its logical page, or takes the next one, and the page that it replaces leaves the map. -/
def State.mapPage (s : State) (n : Fin 5) (o : PageOwner) (mirror : Bool) (pos : Nat) (data : List Byte) : State :=
  let mine (p : FlashPage) : Bool := decide (p.ns = n ∧ p.owner = o ∧ p.pos = pos)
  let next := (s.mt.pages.filter fun p => decide (p.ns = n)).foldl (fun m p => max m (p.lpn + 1)) 0
  let lpn := ((s.mt.pages.find? mine).map (·.lpn)).getD next
  let p : FlashPage := { ns := n, lpn := lpn, owner := o, pos := pos, writeSeq := s.mt.writeSeq, data := data, copies := [] }
  let (c, s) := s.newCopy p none false
  let (m, s) : List PageCopy × State := if mirror then (let r := s.newCopy p (some c.die) true; ([r.1], r.2)) else ([], s)
  { s with mt := { s.mt with
    pages := (s.mt.pages.filter fun x => !mine x) ++ [{ p with copies := c :: m }], writeSeq := s.mt.writeSeq + 1 } }

/-- The pages of a complete write group enter the map, and the change is journalled: one page of namespace 4 holds the journal, and what it
says is free (R314; log 72). -/
def State.enterMap (s : State) (n : Fin 5) (o : PageOwner) (mirror : Bool) (writes : List (Nat × List Byte)) : State :=
  let s := writes.foldl (fun (s : State) w => s.mapPage n o mirror w.1 w.2) s
  let (entry, s) := s.drawBytes 16384
  (s.mapPage 4 .journal false 0 entry).zeroiseOld n

/-- The pages of an owner from a position on leave the map. -/
def State.dropPagesFrom (s : State) (o : PageOwner) (pos : Nat) : State :=
  let s := { s with mt := { s.mt with pages := s.mt.pages.filter fun p => decide (p.owner ≠ o ∨ p.pos < pos) } }
  (List.finRange 5).foldl State.zeroiseOld s

/-- Writes are refused with fewer than 16 free blocks (R317). -/
def State.flashFull (s : State) : Bool := decide (s.mt.freeBlocks < 16)

/-- The copy of a page that is read: the mirror copy, or the first. -/
def FlashPage.copyOf (p : FlashPage) (mirror : Bool) : Option PageCopy := p.copies.find? fun c => decide (c.mirror = mirror)

/-- A copy of a page written elsewhere at the current epoch: the place, the epoch and `WRITE_SEQ` are new (R317, R320, R321). -/
def State.rewriteCopy (s : State) (p : FlashPage) (mirror : Bool) : State :=
  let other := if mirror then (p.copyOf false).map (·.die) else (p.copyOf true).map (·.die)
  let p := { p with writeSeq := s.mt.writeSeq }
  let (c, s) := s.newCopy p other mirror
  { s with mt := { s.mt with
    writeSeq := s.mt.writeSeq + 1
    pages := s.mt.pages.map fun (x : FlashPage) =>
      if x.ns = p.ns ∧ x.lpn = p.lpn then { x with writeSeq := p.writeSeq, copies := x.copies.map fun y => if y.mirror = mirror then c else y } else x } }

/-- The first copy of a page rewritten at the current epoch, for its mirror gave the data (R321). -/
def State.repairPage (s : State) (p : FlashPage) : State :=
  let s := s.rewriteCopy p false
  let s := if s.mt.evtFlash then s.event 0x0E 0x0E02 p.ns.val p.lpn s.sec.keys[p.ns].epoch else s
  s.zeroiseOld p.ns

/-- A page of flash that could not be read is counted and recorded: cause 0 decode, 1 CRC, 2 epoch (R316). -/
def State.flashLost (s : State) (ns : Fin 5) (lpn cause : Nat) : State :=
  let s := { s with mt := { s.mt with fcUncorrectable := countUp s.mt.fcUncorrectable 1, flashUe := true } }
  if s.mt.evtFlash then s.event 0x0E 0x0E01 ns.val lpn cause else s

end Sys2Proof.Machine
end

