-- ==== Sys2Proof/Machine/MemOps.lean ====
section
/-!
DEFINITION. Objects, their residency and pins; DRAM errors and page retirement: the operations that commands, engines and boundaries
share (chapter 13).
-/
namespace Sys2Proof.Machine

/-! ## Objects -/

/-- The object of a handle. -/
def State.obj (s : State) (h : Nat) : Option Obj := s.mt.objects.find? fun o => decide (o.handle = h)
/-- The flash pages of an object in its namespace. -/
def State.objPages (s : State) (h : Nat) : List FlashPage := s.pagesFor (.object h)
/-- The object of a handle changed. -/
def State.updObj (s : State) (h : Nat) (f : Obj → Obj) : State :=
  { s with mt := { s.mt with objects := s.mt.objects.map fun o => if o.handle = h then f o else o } }

/-- The partition of a handle (R359). -/
def handlePart (h : Nat) : Fin 4 := ⟨h / 2 ^ 30 % 4, Nat.mod_lt _ (by decide)⟩
/-- The type code of a handle (R359). -/
def handleType (h : Nat) : Nat := h / 2 ^ 24 % 64

/-- The 64 KiB pages of an object. -/
def Obj.pages (o : Obj) : Nat := ceilDiv o.size 65536
/-- Every page is resident, and the load is complete (R306). -/
def Obj.whole (o : Obj) : Bool := o.loaded && (!o.backed || decide (o.resident.length = o.pages))
/-- The bytes of a loaded object as they lie in DRAM; an object that is not there reads as nothing. -/
def State.objBytes (s : State) (h : Nat) : List Byte :=
  match s.obj h with
  | some o => if o.loaded then s.readMem o.base o.size else []
  | none => []
/-- A page of an object as it was loaded, or as flash holds it. -/
def Obj.page (o : Obj) (k : Nat) : List Byte := (o.bytes.drop (65536 * k)).take 65536
/-- Pages of an object put into DRAM. -/
def State.mapPages (s : State) (o : Obj) (ks : List Nat) : State :=
  ks.foldl (fun (s : State) k => s.writeMem (o.base + 65536 * k) (o.page k)) s
/-- The bytes of a run of DRAM, by offset. -/
def State.runCells (s : State) (base bytes : Nat) : List Host.Cell :=
  (s.mem.filter fun c => decide (base ≤ c.1 ∧ c.1 < base + bytes)).map fun c => (c.1 - base, c.2)
/-- A run of DRAM that is given up: nothing is mapped there, and reads give zeros (R21). -/
def State.unmapRun (s : State) (base bytes : Nat) : State :=
  { s with mem := s.mem.filter fun c => decide (c.1 < base ∨ base + bytes ≤ c.1) }
/-- Bytes put into a run of DRAM, by offset. -/
def State.fillRun (s : State) (base bytes : Nat) (cells : List Host.Cell) : State :=
  { s with mem := (cells.filter fun c => decide (c.1 < bytes)).foldl (fun m c => memWrite m (base + c.1) c.2) (s.unmapRun base bytes).mem }

/-- The pages of an object leave DRAM: nothing is mapped there, and reads give zeros (R21). -/
def State.unmap (s : State) (o : Obj) : State :=
  s.unmapRun o.base (65536 * o.pages)
/-- Resident pages that differ from what flash holds (R307). -/
def State.dirtyPages (s : State) (o : Obj) : List Nat :=
  o.resident.filter fun k => decide (s.readMem (o.base + 65536 * k) (o.page k).length ≠ o.page k)

/-- The pages of a partition's capacity pool (R305). -/
def State.poolPages (s : State) (p : Fin 4) : Nat :=
  let images := s.sched.slots.toList.filterMap fun x => x.bind fun img => if img.partition = p then some img else none
  let claims := images.foldl (fun n img =>
    n + (img.claims.filter fun c => decide (c.resource = 0x0005)).foldl (fun m c => m + c.amount) 0) 0
  let fixed := (s.mt.objects.filter fun o => !o.backed && decide (handlePart o.handle = p)).foldl (fun n o => n + o.pages * 65536) 0
  (s.sec.grants[p].dramBytes - claims - fixed) / 65536

/-- The pages of the fusion history: 40 checkpoints of 12 KiB for the current span and each before it (R225, R238; log 69). -/
def historyPages (retroSpans : Nat) : Nat := ceilDiv ((retroSpans + 1) * 40 * 12288) 65536

/-- The pages of a partition's pool that its bulk windows and the internal services hold: 2 MiB for each of its mailboxes, the DRAM
shards of its indexes, and in partition 0 resident acres of 512 pages, training states of 2,560 pages, 1 GiB of graph solver
scratch, the track table, and the fusion history at 40 checkpoints of 12 KiB a span (R200, R202, R372; log 69). -/
def State.servicePages (s : State) (p : Fin 4) : Nat :=
  (s.mbx.toList.filter fun m => m.bulkMapped && decide (m.partition = p)).length * 32
    + (s.ps.indexes.toList.filterMap id).foldl (fun n ix => if ix.part = p then n + ix.dramPages else n) 0
    + (if p = 0 then
        s.fld.acres.foldl (fun n a => n + (if a.resident then 512 else 0) + (if a.training then 2560 else 0)) 0
          + 16384 + 256 + historyPages s.fus.params.retroSpans
      else 0)

/-- The pages charged to a partition's pool: the resident pages of its backed objects, and what the internal services hold (R305,
R372). -/
def State.poolUsed (s : State) (p : Fin 4) : Nat :=
  (s.mt.objects.filter fun o => o.backed && decide (handlePart o.handle = p)).foldl (fun n o => n + o.resident.length) 0
    + s.servicePages p

/-- The pages that promotions in flight are to bring into a partition's pool. -/
def State.poolPromised (s : State) (p : Fin 4) : Nat :=
  (s.mt.objects.filter fun o => !o.promoting.isEmpty && decide (handlePart o.handle = p)).foldl
    (fun n o => n + (o.pages - o.resident.length)) 0

/-- The pages of a partition's pool that evictions under way are to free (R307). -/
def State.poolLeaving (s : State) (p : Fin 4) : Nat :=
  (s.mt.objects.filter fun o => o.dropping && decide (handlePart o.handle = p)).foldl (fun n o => n + o.resident.length) 0
    + if p = 0 then 512 * (s.fld.acres.filter fun a => a.resident && a.evicting).length else 0

/-- The pages free in a partition's pool, less those promised to promotions in flight; with `soon` pages whose drop is under way count as
free. -/
def State.poolFree (s : State) (p : Fin 4) (soon : Bool) : Nat :=
  s.poolPages p - (s.poolUsed p - (if soon then s.poolLeaving p else 0)) - s.poolPromised p

/-! ## Pins and eviction (R306 to R308) -/

/-- A pin added: an eviction whose drop has not reached its boundary waits from then on (R308). -/
def State.pin (s : State) (h : Nat) (p : Pin) : State :=
  s.updObj h fun o => { o with pins := o.pins ++ [p], evictPending := o.evictPending || o.dropping, dropping := false }

/-- One pin of a kind removed: at zero the last-use DT is set, and a pending eviction drops at the next boundary. -/
def State.unpin (s : State) (h : Nat) (p : Pin) : State :=
  s.updObj h fun o =>
    let pins := o.pins.erase p
    { o with
      pins := pins
      lastUse := if pins.isEmpty && !o.pins.isEmpty then s.dtNs else o.lastUse
      dropping := o.dropping || (pins.isEmpty && o.evictPending) }

/-- An eviction of an object: it waits if the object is pinned or promoting (R308). -/
def Obj.evict (o : Obj) : Obj :=
  if !o.pins.isEmpty || !o.promoting.isEmpty then { o with evictPending := true } else { o with dropping := true }

/-- What an eviction by age may choose: an object, or an acre by its key. -/
structure Victim where
  lastUse : Nat
  handle : Nat
  pages : Nat
  acre : Option Nat

/-- The unpinned resident backed objects of a partition in the order of R307: its objects, and in partition 0 the acres beyond
`MAP_KEEP_RADIUS` that the directory copy does not name, for the map holds the others resident (R219, R304; DEDUCED, log 72). -/
def State.evictable (s : State) (p : Fin 4) : List Victim :=
  let objects := (s.mt.objects.filter fun o =>
      o.backed && o.loaded && o.pins.isEmpty && o.promoting.isEmpty && !o.dropping && !o.resident.isEmpty
        && decide (handlePart o.handle = p)).map fun o => { lastUse := o.lastUse, handle := o.handle, pages := o.resident.length, acre := none }
  let acres := if p ≠ 0 then [] else (s.fld.acres.filter fun a =>
      a.resident && a.beyond && !a.evicting && !a.training && !(s.fld.dir.any fun d => decide (d.key = a.key))).map fun a =>
        { lastUse := a.lastUse, handle := acreHandle a.key, pages := 512, acre := some a.key }
  sortBy (fun a b => decide (a.lastUse < b.lastUse ∨ (a.lastUse = b.lastUse ∧ a.handle ≤ b.handle))) (objects ++ acres)

/-- Objects evicted whole, by age, until `n` pages are free or will be; none if they cannot free so many (R307). -/
def evictFor : List Victim → Nat → Nat → List Victim → Option (List Victim)
  | vs, free, n, acc =>
    if n ≤ free then some acc
    else match vs with
      | [] => none
      | v :: vs => evictFor vs (free + v.pages) n (v :: acc)

/-- A victim's eviction begins. -/
def State.evictOne (s : State) (v : Victim) : State :=
  match v.acre with
  | none => s.updObj v.handle fun o => { o with dropping := true }
  | some k => { s with fld := { s.fld with acres := s.fld.acres.map fun (a : Acre) => if a.key = k then { a with evicting := true } else a } }

/-- The pages of an object that are neither resident nor queued. -/
def State.missingPages (s : State) (o : Obj) : List Nat :=
  (List.range o.pages).filter fun k => k ∉ o.resident ∧
    !(s.mt.queue.any fun r => decide (r.work = .promote o.handle k))

/-- A promotion of some page of an object is queued. -/
def State.promotionQueued (s : State) (h : Nat) : Bool :=
  s.mt.queue.any fun r => match r.work with | .promote g _ => decide (g = h) | _ => false

/-- An object occupies its run of DRAM addresses: it lies in DRAM only, is being loaded, or has a page there or on the way. -/
def State.holdsRun (s : State) (o : Obj) : Bool :=
  !o.backed || !o.loaded || !o.resident.isEmpty || s.promotionQueued o.handle

/-- The runs of DRAM of the bulk windows of some partitions (R333). -/
def State.windowRuns (s : State) (which : Fin 4 → Bool) : List (Nat × Nat) :=
  (s.mbx.toList.filter fun m => m.bulkMapped && which m.partition).map fun m => (m.bulkBase, bulkSize)

/-- The runs of DRAM of the map, of the track table and of the DRAM shards of some indexes, as base and bytes: resident acres
and their training states, the table, and the shards (R200, R202, R226, R275). -/
def State.serviceRuns (s : State) (which : PsIndex → Bool) : List (Nat × Nat) :=
  (s.fld.acres.filter (·.resident)).map (fun a => (a.base, 0x2000000))
    ++ (s.fld.acres.filter (·.training)).map (fun a => (a.trainBase, 0xA000000))
    ++ s.fus.tableBase.toList.map (fun b => (b, 0x1000000)) ++ s.fus.historyRun.toList.map (fun r => (r.1, 65536 * r.2))
    ++ ((s.ps.indexes.toList.filterMap id).filter which).flatMap (fun ix => ix.dramBase.toList.map fun b => (b, 65536 * ix.dramPages))

/-- The runs of DRAM that lie in use: objects but one, and the internal services' (R305). -/
def State.takenRuns (s : State) (self : Nat) : List (Nat × Nat) :=
  ((s.mt.objects.filter fun o => s.holdsRun o && decide (o.handle ≠ self)).map fun o => (o.base, 65536 * o.pages))
    ++ s.serviceRuns (fun _ => true) ++ s.windowRuns fun _ => true

/-- A run of free pages in a partition's DRAM range, from a place of the memory manager's choice or else the lowest that fits
(R305, log 7). -/
def State.freeRun (s : State) (p : Fin 4) (self pages : Nat) : Option Nat × State :=
  let g := s.sec.grants[p]
  let (k, s) := s.drawBelow (g.dramBytes / 65536)
  let taken := s.takenRuns self
  let ends := (taken.map fun o => o.1 + o.2) ++
    (s.sec.grants.toList.drop 1).map fun x => ceilDiv (x.dramBase + x.dramBytes) 65536 * 65536
  let fits (a : Nat) : Bool :=
    s.ownsDram p a (65536 * pages) &&
      taken.all fun o => decide (a + 65536 * pages ≤ o.1 ∨ o.1 + o.2 ≤ a)
  (((g.dramBase + 65536 * k) :: sortBy (fun a b => decide (a ≤ b)) (g.dramBase :: ends)).find? fits, s)

/-- An object of which nothing is in DRAM gets a run of addresses; none while no run is long enough. -/
def State.placeRun (s : State) (o : Obj) : Option (Obj × State) :=
  if s.holdsRun o then some (o, s)
  else match s.freeRun (handlePart o.handle) o.handle o.pages with
    | (some a, s) => some ({ o with base := a }, s.updObj o.handle fun o => { o with base := a })
    | (none, _) => none

/-- Promotion requests queued in class 2 for the missing pages of an object (R310). -/
def State.queuePromotion (s : State) (h : Nat) : State :=
  match (s.obj h).bind s.placeRun with
  | none => s
  | some (o, s) =>
    let reqs : List MoverReq := (s.missingPages o).map fun k =>
      { cls := 2, work := .promote h k, bytes := 65536, fetch := min 4 (ceilDiv (o.size - k * 65536) 16384), tiles := o.tiles, fetched := false, held := false, onMirror := false
        partition := handlePart h }
    { s with mt := { s.mt with queue := s.mt.queue ++ reqs } }

/-- A pin of each promoting user as the last page lands, and the commands that waited complete (R306, R308). -/
def State.promoted (s : State) (h : Nat) : State :=
  match s.obj h with
  | none => s
  | some o =>
    if o.promoting.isEmpty || decide (o.resident.length < o.pages) then s
    else
      let s := s.updObj h fun o => { o with pins := o.pins ++ o.promoting.map .promoted, promoting := [] }
      let waits (j : Job) : Bool := match j.kind with | .objPromote g => decide (g = h) | _ => false
      (s.fw.jobs.filter waits).foldl (fun (s : State) (j : Job) => s.completeJob j stOk 0 0 0 0 s.dtNs) s

/-- A promotion by a user: it joins one in flight, cancels a pending drop, evicts by age, or finds the pool short, in which
case it answers the deficit (R307, R308). -/
def State.promote (s : State) (h user : Nat) : Option Nat × State :=
  match s.obj h with
  | none => (none, s)
  | some o =>
    let part := handlePart h
    if !o.promoting.isEmpty then (none, s.updObj h fun o => { o with promoting := o.promoting ++ [user] })
    else
      let deferred := o.evictPending || o.dropping
      let s := if deferred then
          (s.updObj h fun o => { o with
            dropping := false, evictPending := true, charged := user }).event 0x0D 0x0D01 h user o.pins.length
        else s
      let n := o.pages - o.resident.length
      let free := s.poolFree part true
      let victims := (s.evictable part).filter fun x => decide (x.handle ≠ h)
      match evictFor victims free n [] with
      | none =>
        let deficit := n - (free + victims.foldl (fun n v => n + v.pages) 0)
        (some deficit, s.event 0x0D 0x0D03 part.val deficit 0)
      | some victims =>
        let now := victims.isEmpty && decide (n ≤ s.poolFree part false)
        let s := victims.foldl State.evictOne s
        let s := s.updObj h fun o => { o with promoting := [user], charged := if o.resident.isEmpty then user else o.charged }
        (none, if now then s.queuePromotion h else s)

/-! ## Poisoned objects (R322) -/

/-- Jobs that use an object, or that a predicate names, completed with a status. -/
def State.failJobs (s : State) (uses : Job → Bool) (status : Nat) : State :=
  (s.fw.jobs.filter uses).foldl (fun (s : State) (j : Job) => s.completeJob j status 0 0 0 0 s.dtNs) s

/-- A job uses an object: it is of an object command other than a load or an unload that names the handle, or a commit of a channel
whose records the object is the template of. -/
def Job.usesObj (j : Job) (h : Nat) : Bool :=
  match j.kind with
  | .objPromote g | .objEvict g | .objPlace g _ _ => decide (g = h)
  | .streamCommit ds => ds.any fun d => decide (dKind d.2 = 2 ∧ dfield d.2 40 4 = h)
  | _ => false

/-- An object poisoned: the notice, and every job that uses it fails (R322). -/
def State.poisonObj (s : State) (h cause page : Nat) : State :=
  match s.obj h with
  | none => s
  | some o =>
    if o.poisoned then s
    else
      let s := s.updObj h fun o => { o with
        poisoned := true, promoting := [], pins := o.pins.filter fun p => match p with | .job _ => false | _ => true }
      let s := { s with mt := { s.mt with queue := s.mt.queue.filter fun r =>
        match r.work with | .promote g _ | .objWrite g _ | .reload g _ _ => decide (g ≠ h) | _ => true } }
      let s := s.event 0x0D 0x0D02 h cause page
      s.failJobs (fun j => j.usesObj h) errPoisoned

/-! ## DRAM errors and retirement (R301 to R303) -/

/-- The object that holds a DRAM address, with its page. -/
def State.objAt (s : State) (a : Nat) : Option (Obj × Nat) :=
  (s.mt.objects.find? fun o => o.loaded && decide (o.base ≤ a ∧ a < o.base + o.size)
    && (!o.backed || decide ((a - o.base) / 65536 ∈ o.resident))).map fun o => (o, (a - o.base) / 65536)

/-- The 64 KiB pages of DRAM that a range meets. -/
def rangePages (a n : Nat) : List Nat := if n = 0 then [] else (List.range ((a + n - 1) / 65536 + 1 - a / 65536)).map fun k => a / 65536 + k

/-- The object and its page at a page of DRAM that the object's range takes and at which nothing is mapped (R21, R322). -/
def State.unmappedPage (s : State) (page : Nat) : Option (Nat × Nat) :=
  (s.mt.objects.find? fun o => o.backed && s.holdsRun o && decide (o.base ≤ 65536 * page ∧ 65536 * page < o.base + 65536 * o.pages
    ∧ (65536 * page - o.base) / 65536 ∉ o.resident)).map fun o => (o.handle, (65536 * page - o.base) / 65536)

/-- The accesses of an operation to DRAM that is not mapped, recorded once for each page (R21): the `ERR_POISONED` event is
OBJ_POISONED of cause 1 (log 68). -/
def State.unmappedEvents (s : State) (ranges : List (Nat × Nat)) : State :=
  let pages := ((ranges.filter fun r => decide (r.1 < dramSize)).flatMap fun r => rangePages r.1 r.2).eraseDups
  (pages.filterMap s.unmappedPage).foldl (fun (s : State) x => s.event 0x0D 0x0D02 x.1 1 x.2) s

/-- The parts of a write that reach memory: none at a page that is not mapped. -/
def State.mappedParts (s : State) (w : MemWrite) : List MemWrite :=
  if w.space ≠ .device ∨ dramSize ≤ w.addr then [w]
  else
    let pages := rangePages w.addr w.data.length
    if pages.all fun k => (s.unmappedPage k).isNone then [w]
    else (pages.filter fun k => (s.unmappedPage k).isNone).map fun k =>
      let lo := max w.addr (65536 * k)
      { w with addr := lo, data := (w.data.drop (lo - w.addr)).take (65536 * (k + 1) - lo) }

/-- Bytes written to DRAM by a block: nothing lands at a page that is not mapped, and each is recorded (R21). -/
def State.writeDram (s : State) (a : Nat) (bs : List Byte) : State :=
  (s.mappedParts (devWrite a bs)).foldl State.applyMemWrite (s.unmappedEvents [(a, bs.length)])

/-- A page chosen for retirement: a replacement from the reserve and a copy in class 0, or the list is full (R303). -/
def State.retirePage (s : State) (page cause : Nat) : State :=
  if s.mt.remap.any fun r => decide (r.page = page) then s
  else if 1024 ≤ s.mt.remap.length then
    if s.mt.remapFull then s
    else
      let s := { s with mt := { s.mt with remapFull := true, dramLow := true } }
      s.event 0x13 0x1303 page 0 0
  else
    let r : Retired := { page := page, replacement := s.mt.remap.length, cause := cause, copied := false, applied := false }
    let q : MoverReq := { cls := 0, work := .retire page, bytes := 65536, fetch := 0, tiles := false, fetched := false, held := false, onMirror := false, partition := 0 }
    { s with mt := { s.mt with remap := s.mt.remap ++ [r], queue := s.mt.queue ++ [q] } }

/-- The nanoseconds of 24 h. -/
def dayNs : Nat := 86400000000000

/-- A corrected DRAM line: counted, logged, and the page retired at four accesses in 24 h (R301, R303). -/
def State.dramCorrected (s : State) (line : Nat) : State :=
  let log := (line, s.dtNs) :: s.mt.ceLog.filter fun e => decide (s.dtNs < e.2 + dayNs)
  let s := { s with mt := { s.mt with ceCount := countUp s.mt.ceCount 1, ceLog := log } }
  let page := line / 1024
  if 4 ≤ (log.filter fun e => decide (e.1 / 1024 = page)).length then s.retirePage page 0 else s

/-- An acre poisoned, until it is deleted: the notice, once (R322). -/
def State.poisonAcre (s : State) (key cause page : Nat) : State :=
  if (s.fld.acres.find? fun a => decide (a.key = key)).all (·.poisoned) then s
  else
    let s := { s with fld := { s.fld with acres := s.fld.acres.map fun (a : Acre) => if a.key = key then { a with poisoned := true } else a } }
    s.event 0x0D 0x0D02 (acreHandle key) cause page

/-- What holds an uncorrectable line: a clean page of a backed object or of an acre is reloaded from flash; any other such page
poisons its object, and a record of a DRAM shard poisons its index, whose mirror is of the flash shard only (R294, R304, R322;
log 68). -/
def State.poisonLine (s : State) (line : Nat) : State :=
  let s := { s with mt := { s.mt with poisoned := line :: s.mt.poisoned.erase line } }
  let a := 64 * line
  let reload (s : State) (w : MoverWork) (fetch : Nat) (p : Fin 4) : State :=
    { s with mt := { s.mt with queue := s.mt.queue ++ [{ cls := 0, work := w, bytes := 65536, fetch := fetch, tiles := false, fetched := false, held := false, onMirror := false, partition := p }] } }
  match s.objAt a with
  | some (o, page) =>
    if o.backed && !decide (page ∈ s.dirtyPages o) then
      reload s (.reload o.handle page line) (min 4 (ceilDiv (o.size - page * 65536) 16384)) (handlePart o.handle)
    else s.poisonObj o.handle 1 page
  | none =>
    match s.fld.acres.find? fun x => x.resident && decide (x.base ≤ a ∧ a < x.base + 0x2000000) with
    | some x =>
      let page := (a - x.base) / 65536
      if x.flash.isSome && !(leNat (memReadN s.mem (x.base + 6) 2)).testBit 0 then reload s (.reloadAcre x.key page line) 4 0
      else s.poisonAcre x.key 1 page
    | none =>
      let hit (ix : PsIndex) : Bool := ix.dramBase.any fun b => decide (b ≤ a ∧ a < b + 65536 * ix.dramPages)
      match (s.ps.indexes.toList.filterMap id).find? hit with
      | some ix =>
        let place := (a - ix.dramBase.getD 0) / ix.recBytes
        match ix.dram.findIdx? fun r => !r.reclaimed && decide (r.place = place) with
        | some k => s.poisonIndex ix k
        | none => s
      | none => s

/-- An uncorrectable DRAM line: counted, recorded, its page retired; in the firmware region it is fatal (R301, R303, R414). -/
def State.dramUncorrectable (s : State) (addr : Nat) : State :=
  let s := { s with mt := { s.mt with ueCount := countUp s.mt.ueCount 1, dramUe := true } }
  let s := if s.mt.evtDram then s.event 0x13 0x1301 addr (addr / 2 ^ 32 % 256) (addr / 256 % 32) else s
  let s := (s.poisonLine (addr / 64)).retirePage (addr / 65536) 2
  if Config.fwRegionBase ≤ addr then s.fatal false 0x10 0x1002 0x13 addr 1 else s

/-! ## What an engine's check finds (R413, R414, R420) -/

/-- A word of an engine's SRAM, of the pool or of a scratchpad rewritten with zeros (R414). -/
def State.zeroWord (s : State) (t : Target) (addr : Nat) : State :=
  match t.sramIdx with
  | some i => { s with sram := s.sram.set i (memWriteN s.sram[i] (addr / 8 * 8) (List.replicate 8 0)) }
  | none => s.writeMem (addr / 8 * 8) (List.replicate 8 0)

/-- What a check means for an engine's operation: whether it goes on, the unit code of a mismatch, and the state with what
the memories count and record (R301, R414). -/
def State.engineCheck (s : State) (t : Target) (chk : Check) : Option Nat × State :=
  match chk with
  | .clean => (none, s)
  | .sramCorrected => (none, s.sramCorrected t.slot)
  | .dramCorrected a => (none, s.dramCorrected (a / 64))
  | .once u | .twice u => (some u.toNat, s.engineFailed t.slot)
  | .sramBad a => (some 0xFF, ((s.sramUe t.slot a.toNat 0).zeroWord t a.toNat).engineFailed t.slot)
  | .dramBad a => (some 0xFF, (s.dramUncorrectable a).engineFailed t.slot)

/-- What a check finds in the arithmetic of a unit that reruns it itself: nothing, a mismatch of a unit, which the rerun shows
again or not, or a word or a line that cannot be read, with the status of the jobs that depend on it (R413, R414). -/
inductive Found where
  | nothing
  | mismatch (unit : Nat) (again : Bool)
  | unread (status : Nat)

/-- A check of such a unit, with what the memories count and record. -/
def State.checkFound (s : State) (t : Target) (chk : Check) : Found × State :=
  match chk with
  | .clean => (.nothing, s)
  | .sramCorrected => (.nothing, s.sramCorrected t.slot)
  | .dramCorrected a => (.nothing, s.dramCorrected (a / 64))
  | .once u => (.mismatch u.toNat false, s)
  | .twice u => (.mismatch u.toNat true, s)
  | .sramBad a => (.unread errUncorrectable, (s.sramUe t.slot a.toNat 0).zeroWord t a.toNat)
  | .dramBad a =>
    let s := s.dramUncorrectable a
    (.unread (if (s.objAt a).any (·.1.poisoned) then errPoisoned else errUncorrectable), s)

end Sys2Proof.Machine
end

