-- ==== Sys2Proof/Machine/Acre.lean ====
section
/-!
DEFINITION. The acres of the neural map: keys, levels and entries, the stored acre and its training state in DRAM, the directory
copy, the acres' generators, and the writing of acres to flash (R196 to R204, R217, R220).
-/
namespace Sys2Proof.Machine

/-! ## Keys, levels and entries (R196 to R198) -/

/-- A component of a key. -/
def keyAxis (key i : Nat) : Int := signedOf 16 (key / 2 ^ (16 * i))
/-- A key of three components. -/
def keyOf (x y z : Int) : Nat := patOf 16 x + 2 ^ 16 * patOf 16 y + 2 ^ 32 * patOf 16 z
/-- The two words in which events and registers give a key: ix and iy, then iz. -/
def keyLo (key : Nat) : Nat := key % 2 ^ 32
/-- iz -/
def keyHi (key : Nat) : Nat := key / 2 ^ 32 % 2 ^ 16

/-- N_l (R197). -/
def levelN (l : Nat) : Nat :=
  [16, 23, 32, 45, 64, 91, 128, 181, 256, 362, 512, 724, 1024, 1448, 2048, 2896].getD l 0
/-- The entries of a level's table (R197). -/
def levelEntries (l : Nat) : Nat :=
  if l = 0 then 4913 else if l = 1 then 13824 else if l = 2 then 35937 else if l < 8 then 65536 else 524288
/-- The entries of the levels below one: the base of its global entry numbers (R202). -/
def levelBase (l : Nat) : Nat := (List.range l).foldl (fun n k => n + levelEntries k) 0
/-- Every entry of an acre: 382,354 + 4,194,304 (R197). -/
def acreEntries : Nat := 4576658
/-- The offset of a level's table in the stored acre (R200). -/
def levelOffset (l : Nat) : Nat := if l < 8 then 0x9000 + 4 * levelBase l else 0x180000 + (l - 8) * 0x200000

/-- The entry index of a vertex (R198). -/
def vertexIndex (l x y z : Nat) : Nat :=
  let n := levelN l + 1
  if l < 3 then x + n * (y + n * z)
  else
    let bx : Word := BitVec.ofNat 32 (x / 4)
    let by' : Word := BitVec.ofNat 32 (y / 2)
    let bz : Word := BitVec.ofNat 32 (z / 2)
    let h := bx ^^^ (by' * 0x9E3779B1) ^^^ (bz * 0x85EBCA77)
    (h.toNat % (levelEntries l / 16)) * 16 + x % 4 + 4 * (y % 2) + 8 * (z % 2)

/-- The level of a global entry number, and the index in it. -/
def entryLevel (e : Nat) : Nat × Nat :=
  let l := ((List.range 16).filter fun l => decide (levelBase l ≤ e)).getLastD 0
  (l, e - levelBase l)

/-! ## Acres (R200 to R202) -/

/-- An acre of the map. -/
def State.acre (s : State) (key : Nat) : Option Acre := s.fld.acres.find? fun a => decide (a.key = key)
/-- An acre changed. -/
def State.updAcre (s : State) (key : Nat) (f : Acre → Acre) : State :=
  { s with fld := { s.fld with acres := s.fld.acres.map fun a => if a.key = key then f a else a } }

/-- The bytes of a stored acre. -/
def acreBytes : Nat := 0x2000000
/-- The bytes of a training state. -/
def trainBytes : Nat := 0xA000000

/-- A value of a stored acre; one that is not resident reads as zeros. -/
def State.acreVal (s : State) (a : Acre) (off n : Nat) : Nat := if a.resident then s.memVal (a.base + off) n else 0
/-- Bytes of a stored acre. -/
def State.acreRead (s : State) (a : Acre) (off n : Nat) : List Byte :=
  if a.resident then s.readMem (a.base + off) n else List.replicate n 0
/-- Bytes written into a stored acre, where it lies in DRAM. -/
def State.acrePut (s : State) (a : Acre) (off : Nat) (bs : List Byte) : State :=
  if a.resident then s.writeMem (a.base + off) bs else s
/-- Bytes of an acre header written: the checksum follows every change (R201). -/
def State.putHdr (s : State) (a : Acre) (off : Nat) (bs : List Byte) : State :=
  let s := s.acrePut a off bs
  s.acrePut a 4092 (natLe 4 (crc32 (s.acreRead a 0 4092)).toNat)
/-- DIRTY (R201). -/
def State.acreDirty (s : State) (a : Acre) : Bool := (s.acreVal a 6 2).testBit 0
/-- An acre has changed since its last write to flash, and since a snapshot under way (R201, R220). -/
def State.markDirty (s : State) (a : Acre) : State := (s.putHdr a 6 (natLe 2 1)).updAcre a.key fun x => { x with changed := true }

/-- The offsets of the training arrays in a training state, each on a 64-byte boundary, in the order of R202: MASTER, M1, M2, GRAD,
STEP, TOUCHED. -/
def trainOffset (array : Nat) : Nat := [0, 36613312, 73226624, 109839936, 146453248, 164759936].getD array 0
/-- The DRAM address of an entry of a training array of words. -/
def Acre.trainAddr (a : Acre) (array e : Nat) : Nat := a.trainBase + trainOffset array + e * (if array = 4 then 4 else 8)
/-- A value of a training array. -/
def State.tval (s : State) (a : Acre) (array e n : Nat) : Nat := s.memVal (a.trainAddr array e) n
/-- A value of a training array set. -/
def State.tput (s : State) (a : Acre) (array e : Nat) (bs : List Byte) : State := s.writeMem (a.trainAddr array e) bs
/-- The address of the byte that holds the TOUCHED bit of an entry's line of eight. -/
def Acre.touchAddr (a : Acre) (e : Nat) : Nat := a.trainBase + trainOffset 5 + e / 64
/-- The TOUCHED bit of an entry's line of eight. -/
def State.touched (s : State) (a : Acre) (e : Nat) : Bool := (s.memVal (a.touchAddr e) 1).testBit (e / 8 % 8)
/-- The TOUCHED bit set or cleared. -/
def State.setTouched (s : State) (a : Acre) (e : Nat) (b : Bool) : State :=
  let old := s.memVal (a.touchAddr e) 1
  let bit := 2 ^ (e / 8 % 8)
  let v := if b then old ||| bit else if old.testBit (e / 8 % 8) then old - bit else old
  s.writeMem (a.touchAddr e) (natLe 1 v)

/-! ## The directory copy (R203, R204) -/

/-- The entry of the directory copy that holds a key. -/
def State.dirEntry (s : State) (key : Nat) : Option DirEntry := s.fld.dir.find? fun d => decide (d.key = key)

/-- The coarse slot that serves an acre: one that is not FILLING (R204). -/
def State.coarseOf (s : State) (d : DirEntry) : Option (Fin 4) :=
  match d.coarse with
  | none => none
  | some i => if s.fld.slots[i].filling then none else some i

/-- The two FP16 features of an entry, from its slot or from DRAM (R203). -/
def State.entryWord (s : State) (d : DirEntry) (l idx : Nat) : Nat :=
  let off := levelOffset l + 4 * idx
  match (if l < 8 then s.coarseOf d else none) with
  | some i => memNat s.sram[(4 : Fin 10)] (i.val * 0x180000 + off) 4
  | none => match s.acre d.key with
    | some a => s.acreVal a off 4
    | none => 0

/-! ## Generators (R192, R217) -/

/-- One step of a generator. -/
def xorshift (s : Dword) : Dword :=
  let s := s ^^^ (s >>> 12)
  let s := s ^^^ (s <<< 25)
  s ^^^ (s >>> 27)
/-- The 64-bit draw of a generator. -/
def drawOf (s : Dword) : Dword := s * 0x2545F4914F6CDD1D
/-- The 16-bit draw of a generator. -/
def draw16 (s : Dword) : Nat := (drawOf s >>> 48).toNat

/-- The seed of an acre's generator at a span start (R217). -/
def acreSeed (family spans key : Nat) : Dword :=
  let s := BitVec.ofNat 64 family ^^^ (BitVec.ofNat 64 spans * 0x9E3779B97F4A7C15) ^^^ (BitVec.ofNat 64 (key % 2 ^ 48) <<< 8)
    ^^^ (0x10 <<< 56)
  if s = 0 then 1 else s

/-! ## Places (R196) -/

/-- FP32 8.192. -/
def fp8192 : Nat := 0x4103126F
/-- FP64 8.192. -/
def dp8192 : Nat := 0x4020624DD2F1A9FC

/-- The acre that owns a point of FP64 patterns, and its acre-local position: the quotient and the product are FP64's, rounded (R196). -/
def ownAcre (p : List Nat) : Nat × List Word :=
  let ks := p.map fun v => Num.floor (fp64.decode (fp64.div v dp8192))
  let key := keyOf (ks.getD 0 0) (ks.getD 1 0) (ks.getD 2 0)
  (key, (p.zip ks).map fun (v, k) =>
    BitVec.ofNat 32 (fp64.convert fp32 (fp64.sub v (fp64.mul dp8192 (fp64.ofInt k)))))

/-! ## Flash (R220) -/

/-- While the snapshot buffer is free, the first acre that waits to be written gets a snapshot queued in class 3 (R220, R310; that one acre is
written at a time is a DESIGN CHOICE, log 66). -/
def State.queueSnapshot (s : State) : State :=
  let asked := s.mt.queue.any fun r => match r.work with | .snapshot _ => true | _ => false
  if asked || s.fld.acres.any (·.snapshot) then s
  else match s.fld.acres.find? (·.writing) with
    | none => s
    | some a =>
      let q : MoverReq := { cls := 3, work := .snapshot a.key, bytes := acreBytes, fetch := 0, tiles := false, fetched := false, held := false, onMirror := false, partition := 0 }
      { s with mt := { s.mt with queue := s.mt.queue ++ [q] } }

/-- A write to flash wanted; an acre that is being written is written again if it has changed by the time that ends (R220). -/
def State.wantWrite (s : State) (key : Nat) : State :=
  match s.acre key with
  | none => s
  | some a =>
    if a.writing then s.updAcre key fun a => { a with rewrite := true }
    else if !s.acreDirty a && a.flash.isSome then s
    else (s.updAcre key fun a => { a with writing := true, rewrite := false }).queueSnapshot

/-- The copy of an acre that Rokan firmware writes from then on, DRAM to DRAM (R220). -/
def State.takeSnapshot (s : State) (key : Nat) : State :=
  match s.acre key with
  | none => s
  | some a =>
    (s.fillRun Config.snapshotBase acreBytes (s.runCells a.base acreBytes)).updAcre key fun x => { x with snapshot := true, changed := false }

/-- An acre read back from flash into a run of DRAM; while none is long enough it stays away. -/
def State.acreFilled (s : State) (key : Nat) : State :=
  match s.acre key with
  | none => s
  | some a =>
    match s.freeRun 0 0 512 with
    | (some b, s) =>
      (s.fillRun b acreBytes (a.flash.getD [])).updAcre key fun a => { a with base := b, resident := true, changed := false, lastUse := s.dtNs }
    | (none, s) => s

/-- The header of a copy of an acre with a generation, and DIRTY clear. -/
def sealCells (gen : Nat) (m : List Host.Cell) : List Host.Cell :=
  let m := memWriteN (memWriteN m 60 (natLe 4 gen)) 6 (natLe 2 0)
  memWriteN m 4092 (natLe 4 (crc32 (memReadN m 0 4092)).toNat)

/-- `GENERATION` goes up and `DIRTY` is cleared as an acre's write completes; an acre that has changed since its snapshot stays
dirty, and is written again if that was asked for meanwhile. -/
def State.acreWritten (s : State) (key : Nat) : State :=
  match s.acre key with
  | none => s
  | some a =>
    let copy := s.runCells Config.snapshotBase acreBytes
    let gen := leNat (memReadN copy 60 4) + 1
    let s := s.updAcre key fun a => { a with
      flash := some (sealCells gen copy), snapshot := false, writing := false, rewrite := false, unwrittenSpans := 0 }
    let s := s.putHdr a 60 (natLe 4 gen)
    let s := if a.changed then s else s.putHdr a 6 (natLe 2 0)
    let s := s.event 0x09 0x090A (keyLo key) (keyHi key) gen
    if a.rewrite then s.wantWrite key else s.queueSnapshot

end Sys2Proof.Machine
end

