-- ==== Sys2Proof/Machine/VisionHdr.lean ====
section
/-!
DEFINITION. The image descriptor and the vision header that the vision, field and fusion engines share (R132 to R134).
-/
namespace Sys2Proof.Machine

/-- An image descriptor (R132). -/
structure ImgDesc where
  addr : Nat
  stride : Nat
  width : Nat
  height : Nat
  format : Nat
  hdrKind : Nat
  shift : Nat
  deriving DecidableEq, Repr

/-- The descriptor at an offset of `PARAMS`. -/
def Image.imgDesc (img : Image) (o : Nat) : ImgDesc where
  addr := img.param o 4
  stride := img.param (o + 4) 2
  width := img.param (o + 6) 2
  height := img.param (o + 8) 2
  format := img.param (o + 10) 1
  hdrKind := img.param (o + 11) 1
  shift := img.param (o + 12) 1

/-- The descriptor at an offset from the operation's `ARG_B`. -/
def NextOp.img16 (n : NextOp) (o : Nat) : ImgDesc := n.img.imgDesc (n.op.argB + o)

/-- The pool offset of a row. -/
def ImgDesc.row (d : ImgDesc) (y : Nat) : Nat := d.addr + 64 + y * d.stride
/-- A byte of an image of one byte a pixel. -/
def State.px8 (s : State) (d : ImgDesc) (x y : Nat) : Nat := s.poolVal (d.row y + x) 1
/-- A halfword of an image of two bytes a pixel. -/
def State.px16 (s : State) (d : ImgDesc) (x y : Nat) : Nat := s.poolVal (d.row y + 2 * x) 2

/-- What a vision header copies from the header of a source: EXPOSURE_DT, SEQ, UNIT_STATUS, and the stream channel (R133). -/
structure SrcHdr where
  exposureDt : Nat
  seq : Nat
  unitStatus : Nat
  source : Nat

/-- The stream channel whose quota holds a pool offset. -/
def State.channelAt (s : State) (b : Nat) : Nat :=
  ((List.finRange 32).find? fun ch =>
    match s.sm.chans[ch].desc with
    | some d => decide (dQuotaBase d * 16384 ≤ b ∧ b < (dQuotaBase d + dQuotaPecks d) * 16384)
    | none => false).map (·.val) |>.getD 0xFF

/-- The header fields of a source. -/
def State.srcHdr (s : State) (d : ImgDesc) : SrcHdr :=
  if d.hdrKind = 0 then
    { exposureDt := s.poolVal d.addr 8, seq := s.poolVal (d.addr + 24) 4, unitStatus := s.poolVal (d.addr + 36) 2
      source := s.channelAt d.addr }
  else
    { exposureDt := s.poolVal d.addr 8, seq := s.poolVal (d.addr + 8) 4, unitStatus := s.poolVal (d.addr + 20) 2
      source := s.poolVal (d.addr + 30) 1 }

/-- SHORT, TRUNCATED, LINK_ERROR or MISSING (R134). -/
def SrcHdr.flagged (h : SrcHdr) : Bool := decide (h.unitStatus % 16 ≠ 0)

/-- A vision header (R133); `flags` holds LIST_FULL and SPAN_FULL. -/
def visionHdr (h : SrcHdr) (count discarded flags width height rows : Nat) : List Byte :=
  natLe 8 h.exposureDt ++ natLe 4 h.seq ++ natLe 4 count ++ natLe 4 discarded ++ natLe 2 h.unitStatus
    ++ natLe 2 (flags + 4 * b2n h.flagged) ++ natLe 2 width ++ natLe 2 height ++ natLe 2 rows ++ natLe 1 h.source
    ++ List.replicate 33 0

end Sys2Proof.Machine
end

