-- ==== Sys2Proof/Machine/Field.lean ====
section
/-!
DEFINITION. The operations of the field engine: rays, samples, features, compositing, training and comparison (R205 to R217, R221,
R222).
-/
namespace Sys2Proof.Machine

/-! ## Parameters (R206) -/

/-- `FLD_MODE.TRAIN`. -/
def fldTrain (n : NextOp) : Bool := (n.arg 25 1).testBit 0
/-- `FLD_MODE.DRAW`. -/
def fldDraw (n : NextOp) : Bool := (n.arg 25 1).testBit 1

/-- What the arithmetic of chapter 9 leaves open is the order of its operations, by what is computed (log 9): a place on a ray. -/
def numSample : Nat := 0x0902
/-- a trilinear interpolation -/
def numTrilinear : Nat := 0x0904
/-- a composited output -/
def numComposite : Nat := 0x0905
/-- a gradient of a loss -/
def numLossGrad : Nat := 0x0906
/-- a term of FLD_COMPARE -/
def numCompare : Nat := 0x0907
/-- a ray record of FLD_RAYS -/
def numRay : Nat := 0x0908
/-- a bias correction of FLD_ADAM -/
def numBias : Nat := 0x0909

/-- FP32 one. -/
def fpOne : Nat := 0x3F800000
/-- A number rounded to FP32, within what the order of its operations can change. -/
def toFp32 (what : Nat) (x : Num) : Nat := fp32.near what [fp32.ofNum x] (fp32.ofNum x)
/-- A map parameter by its place in MAP_CONFIG. -/
def MapParams.at_ (p : MapParams) (i : Nat) : Nat := (p.fp.getD i 0).toNat
/-- FP32 patterns of `PARAMS`. -/
def NextOp.fp32s (n : NextOp) (off k : Nat) : List Num := (List.range k).map fun i => fp32.decode (n.arg (off + 4 * i) 4)

/-- The 64-byte pose input at a pool offset: its DT, and the camera's pose (R206). -/
def State.poseInput (s : State) (addr : Nat) : Nat × CamPose :=
  (s.poolVal addr 8,
   { pos := fp64.vec ((List.range 3).map fun i => s.poolVal (addr + 8 + 8 * i) 8)
     rot := fp32.quat ((List.range 4).map fun i => s.poolVal (addr + 32 + 4 * i) 4) })

/-- The ray of a camera through a pixel, in the map frame. -/
def CamPose.ray (c : CamPose) (intr : List Num) (u v : Nat) : Ray := { org := c.pos, dir := c.rot.rotate (camRay intr u v) }

/-! ## Marching and samples (R207, R213) -/

/-- The set cells of the occupancy grids of the resident acres, by their place in a grid of 0.128 m over the whole map frame. -/
def State.setCells (s : State) : List (Int × Int × Int) :=
  s.fld.dir.flatMap fun d => match s.acre d.key with
    | some a => (List.range 262144).filterMap fun c =>
        if (s.acreVal a (0x1000 + c / 8) 1).testBit (c % 8) then
          some (64 * keyAxis d.key 0 + (c % 64 : Nat), 64 * keyAxis d.key 1 + (c / 64 % 64 : Nat), 64 * keyAxis d.key 2 + (c / 4096 : Nat))
        else none
    | none => []

/-- The lower corner of a cell of 0.128 m. -/
def cellCorner (c : Int × Int × Int) : Vec3 :=
  let at' (k : Int) : Num := Num.quot (Num.ofInt (16 * k) 0 false) (Num.nat 125)
  { x := at' c.1, y := at' c.2.1, z := at' c.2.2 }

/-- The parts of an interval of a ray that lie in set cells, nearest first. -/
def State.marchParts (s : State) (r : Ray) (lo hi : Num) : List (Num × Num) :=
  sortBy (fun a b => Num.le a.1 b.1) (s.setCells.filterMap fun c =>
    r.boxPart (lo, hi) (cellCorner c) (cellCorner (c.1 + 1, c.2.1 + 1, c.2.2 + 1)))

/-- The k midpoints of equal parts of a length, and the part. -/
def midpoints (len : Num) (k : Nat) : List Num × Num :=
  ((List.range k).map fun i => Num.quot (Num.mul len (Num.nat (2 * i + 1))) (Num.nat (2 * k)), Num.quot len (Num.nat k))

/-- Samples over an interval of a ray: along its set cells, or evenly where none is set, which the answer tells (R207). -/
def State.placeSamples (s : State) (r : Ray) (lo hi : Num) (k : Nat) : List (Nat × Nat) × Bool :=
  let parts := s.marchParts r lo hi
  let round (t d : Num) : Nat × Nat := (toFp32 numSample t, toFp32 numSample d)
  if parts.isEmpty then
    let m := midpoints (Num.sub hi lo) k
    (m.1.map fun t => round (Num.add lo t) m.2, true)
  else
    let m := midpoints (partsLength parts) k
    (m.1.map fun t => round (partsAt parts t) m.2, false)

/-- A ray that an operation gathers: its record, or none for a render ray, its line, and the depth of a training ray. -/
structure GatherRay where
  record : List Byte
  line : Ray
  depth : Option Num

/-- The samples that one ray takes: in training with a depth, half of them in free space and half in the band round the surface, in
order of t (R207, R213). -/
def State.raySamples (s : State) (g : GatherRay) (index : Nat) (near far band : Num) (k : Nat) : List FldSample × Bool :=
  let placed : List (Nat × Nat) × Bool :=
    match g.depth with
    | none => s.placeSamples g.line near far k
    | some z =>
      let free := s.placeSamples g.line near (Num.sub z band) (k / 2)
      let m := midpoints (Num.add band band) (k / 2)
      (free.1 ++ m.1.map (fun t => (toFp32 numSample (Num.add (Num.sub z band) t), toFp32 numSample m.2)), free.2)
  (placed.1.map fun td =>
    let own := ownAcre ((g.line.at' (fp32.decode td.1)).list.map fp64.ofNum)
    { ray := index, t := BitVec.ofNat 32 td.1, delta := BitVec.ofNat 32 td.2, key := own.1, pos := own.2
      absent := (s.dirEntry own.1).isNone, coarseOnly := false }, placed.2)

/-! ## Features (R199, R210) -/

/-- s = u × N_l / 8.192 on an axis, as its floor and its FP32 fraction. -/
def levelCoord (u : Word) (l : Nat) : Nat × Nat :=
  let v := fp32.div (fp32.mul u.toNat (fp32.ofInt (levelN l))) fp8192
  let x0 := (Num.floor (fp32.decode v)).toNat
  (x0, fp32.sub v (fp32.ofInt x0))

/-- The entries of the eight vertices around a position at a level, each with its trilinear weight in FP32. -/
def levelVertices (pos : List Word) (l : Nat) : List (Nat × Nat) :=
  let c := pos.map fun u => levelCoord u l
  (List.range 8).map fun k =>
    let bit (i : Nat) : Nat := k / 2 ^ i % 2
    let at' (i : Nat) : Nat := (c.getD i (0, 0)).1 + bit i
    let w (i : Nat) : Nat := if bit i = 1 then (c.getD i (0, 0)).2 else fp32.sub fpOne (c.getD i (0, 0)).2
    (vertexIndex l (at' 0) (at' 1) (at' 2), fp32.mul (fp32.mul (w 0) (w 1)) (w 2))

/-- The levels of an acre that come from DRAM. -/
def State.dramLevels (s : State) (d : DirEntry) : List Nat :=
  if (s.coarseOf d).isSome then (List.range 8).map (· + 8) else List.range 16

/-- The distinct DRAM lines that a gather reads for a sample. -/
def State.sampleLines (s : State) (d : DirEntry) (p : FldSample) : List Nat :=
  ((s.dramLevels d).flatMap fun l => (levelVertices p.pos l).map fun i => (d.base + levelOffset l + 4 * i.1) / 64).eraseDups

/-- The distinct GRAD lines that a scatter reads and writes for a sample: of every level, in an acre that trains (R210, R215). -/
def gradLines (d : DirEntry) (p : FldSample) : List Nat :=
  if d.train.isNone then []
  else ((List.range 16).flatMap fun l => (levelVertices p.pos l).map fun i =>
    (d.trainBase + trainOffset 3 + 8 * (levelBase l + i.1)) / 64).eraseDups

/-- One sample against the line budget: the lines so far, and whether the budget is spent. Once it is, every later sample is past it, also
one in an absent acre, which reads no line (R210). -/
def State.budgetStep (s : State) (lines : DirEntry → FldSample → List Nat) (budget : Nat) (acc : List Nat × Bool) (p : FldSample) :
    (List Nat × Bool) × FldSample :=
  match s.dirEntry p.key with
  | none => (acc, if acc.2 then { p with coarseOnly := true } else p)
  | some d =>
    let new := (lines d p).filter fun x => x ∉ acc.1
    if acc.2 || decide (budget < acc.1.length + new.length) then ((acc.1, true), { p with coarseOnly := true })
    else ((acc.1 ++ new, false), p)

/-- The samples of an operation against its line budget (R210): lines, whether it was hit, and the samples. -/
def State.budgetRun (s : State) (lines : DirEntry → FldSample → List Nat) (budget : Nat) (ps : List FldSample) :
    (List Nat × Bool) × List FldSample :=
  ps.foldl (fun (r : (List Nat × Bool) × List FldSample) p =>
    let q := s.budgetStep lines budget r.1 p
    (q.1, r.2 ++ [q.2])) (([], false), [])

/-- The 32 FP16 features of a sample (R199); an absent acre gives zeros, and past the budget the DRAM levels do. -/
def State.features (s : State) (p : FldSample) : List Byte :=
  match s.dirEntry p.key with
  | none => List.replicate 64 0
  | some d =>
    (List.range 16).flatMap fun l =>
      if p.coarseOnly && decide (l ∈ s.dramLevels d) then [0, 0, 0, 0]
      else
        let ws := (levelVertices p.pos l).map fun v => (v.2, s.entryWord d l v.1)
        (List.range 2).flatMap fun f =>
          natLe 2 (fp32.convert fp16 (fp32.sum numTrilinear (ws.map fun w =>
            fp32.mul w.1 (fp16.convert fp32 (w.2 / 2 ^ (16 * f) % 2 ^ 16)))))

/-! ## Checks (R222) -/

/-- A mismatch of the engine recorded. -/
def State.fldMismatch (s : State) (index unit : Nat) : State :=
  let s := { s with fld := { s.fld with mismatch := true } }
  if s.fld.evtEn then s.event 0x09 0x0905 index unit 0 else s

/-- A field operation issues: on a failed check it writes nothing, and its flag stays as it is (R222). -/
def State.fldIssue (s : State) (opcode : Nat) (chk : Check) (k : NextOp → State → State) : State :=
  s.tryIssue .fld opcode (some .main) fun n s =>
    match s.engineCheck .fld chk with
    | (none, s) => k n s
    | (some u, s) => s.fldMismatch n.index u

/-- Counters of the engine advanced. -/
def State.fldCount (s : State) (i : Fin 7) (n : Nat) : State :=
  { s with fld := { s.fld with counts := s.fld.counts.set i (countUp s.fld.counts[i] n) } }

/-- A line budget that was hit (R210, R218, R224). -/
def State.lineLimit (s : State) (index dropped lines : Nat) (train : Bool) : State :=
  let s := (s.fldCount 2 1)
  let first := !s.fld.limitSaid
  let s := { s with fld := { s.fld with limit := true, limitSaid := true, spanLines := s.fld.spanLines || train } }
  if first && s.fld.evtEn then s.event 0x09 0x0901 index dropped lines else s

/-! ## FLD_GATHER (R207, R210, R213) -/

/-- A ray record with `HAS_DEPTH` whose depth is not finite and positive is discarded (R212). -/
def badRay (r : List Byte) : Bool :=
  let d := fieldAt r 12 4
  (fieldAt r 31 1).testBit 0 && !(fp32.finite d && fp32.lt 0 d)

/-- The ray records of a list at a pool offset: after its 64-byte header (R212). -/
def State.rayList (s : State) (addr count : Nat) : List (List Byte) :=
  (List.range (min count (s.poolVal (addr + 12) 4))).map fun i => s.readPool (addr + 64 + 32 * i) 32

/-- The line of a ray record: from its origin, in the acre that it names (R212). -/
def recordRay (r : List Byte) : Ray :=
  let key := fieldAt r 22 6
  let org (i : Nat) : Num :=
    Num.add (fp64.decode (fp64.mul dp8192 (fp64.ofInt (keyAxis key i)))) (fp32.decode (fieldAt r (4 * i) 4))
  let dir (i : Nat) : Num := Num.ofInt (signedOf 16 (fieldAt r (16 + 2 * i) 2)) (-14) false
  { org := { x := org 0, y := org 1, z := org 2 }, dir := { x := dir 0, y := dir 1, z := dir 2 } }

/-- Which grid a render gather walks: its GRID and its pose (R207). -/
def gridKey (n : NextOp) : Nat := n.arg 28 10 + 2 ^ 80 * n.arg 12 4

/-- The rays an operation gathers: those of the grid after the earlier batches, or the records within the allowance (R207, R218). -/
def State.gatherRays (s : State) (n : NextOp) : List GatherRay × State :=
  if fldTrain n then
    let rs := s.rayList (n.arg 0 4) (min (n.arg 16 4) s.fld.raysLeft)
    let good := rs.filter fun r => !badRay r
    let s := s.fldCount 6 (rs.length - good.length)
    (good.map fun r => { record := r, line := recordRay r
                         depth := if (fieldAt r 31 1).testBit 0 then some (fp32.decode (fieldAt r 12 4)) else none },
     { s with fld := { s.fld with raysLeft := s.fld.raysLeft - rs.length } })
  else
    let cols := n.arg 32 2
    let first := (mapGet s.fld.gridNext (gridKey n)).getD 0
    let count := min (n.arg 16 4) (cols * n.arg 34 2 - first)
    let pose := (s.poseInput (n.arg 12 4)).2
    ((List.range count).map fun i =>
      let r := first + i
      { record := [], depth := none
        line := pose.ray (n.fp32s 40 4) (n.arg 28 2 + r % cols * n.arg 36 2) (n.arg 30 2 + r / cols * n.arg 36 2) },
     { s with fld := { s.fld with gridNext := mapSet s.fld.gridNext (gridKey n) (first + count) } })

/-- The acre of a depth endpoint, with its occupancy cell (R200, R213). -/
def endpointCell (r : List Byte) : Nat × Nat :=
  let own := ownAcre (((recordRay r).at' (fp32.decode (fieldAt r 12 4))).list.map fp64.ofNum)
  let c := own.2.map fun u => min 63 ((Num.floor (Num.quot (Num.mul (fp32.decode u.toNat) (Num.nat 125)) (Num.nat 16))).toNat)
  (own.1, c.getD 0 0 + 64 * (c.getD 1 0 + 64 * c.getD 2 0))

/-- The occupancy bit of an endpoint set, in DRAM and in the acre's slot, or its acre entered in the absent-key list
(R213, R219). -/
def State.markEndpoint (s : State) (r : List Byte) : State :=
  let (key, cell) := endpointCell r
  match s.dirEntry key, s.acre key with
  | some d, some a =>
    let set (old : Nat) : List Byte := natLe 1 (old ||| 2 ^ (cell % 8))
    let s := s.acrePut a (0x1000 + cell / 8) (set (s.acreVal a (0x1000 + cell / 8) 1))
    let s := (s.putHdr a 32 (natLe 8 s.dtNs)).markDirty a
    let s := { s with fld := { s.fld with spanEnds := mapSet s.fld.spanEnds key ((mapGet s.fld.spanEnds key).getD 0 + 1) } }
    match s.coarseOf d with
    | none => s
    | some i =>
      let o := i.val * 0x180000 + 0x1000 + cell / 8
      { s with sram := s.sram.set 4 (memWriteN s.sram[(4 : Fin 10)] o (set (memNat s.sram[(4 : Fin 10)] o 1))) }
  | _, _ =>
    let keys := if key ∈ s.fld.absentKeys ∨ 64 ≤ s.fld.absentKeys.length then s.fld.absentKeys else s.fld.absentKeys ++ [key]
    { s with fld := { s.fld with absentKeys := keys } }

/-- The status bits of a ray after its samples: COARSE_ONLY, ACRE_ABSENT, EMPTY. -/
def rayStatus (ps : List FldSample) (ray : Nat) (empty : Bool) : Nat :=
  let mine := ps.filter fun p => decide (p.ray = ray)
  2 * b2n (mine.any (·.coarseOnly)) + 4 * b2n (mine.any (·.absent)) + 8 * b2n empty

/-- FLD_GATHER: the samples placed, the feature tensor, and the batch held. -/
def State.gather (s : State) (n : NextOp) : State :=
  let train := fldTrain n
  let first := if train then 0 else (mapGet s.fld.gridNext (gridKey n)).getD 0
  let (rays, s) := s.gatherRays n
  let range := n.fp32s 56 3
  let at' (i : Nat) : Num := range.getD i .nan
  let placed := ((List.range rays.length).zip rays).map fun (i, g) => s.raySamples g i (at' 0) (at' 1) (at' 2) (n.arg 24 1)
  let run := s.budgetRun s.sampleLines (n.arg 20 4) (placed.flatMap (·.1))
  let ps := run.2
  let lines := run.1.1.length
  let absent := ps.filter (·.absent)
  let batch : FldBatch :=
    { train := train, far := n.arg 60 4, exposureDt := if train then 0 else s.poolVal (n.arg 12 4) 8, first := first, samples := ps, composited := false
      rays := ((List.range rays.length).zip (rays.zip placed)).map fun (i, g, p) => { record := g.record, status := rayStatus ps i p.2 } }
  let out := poolWrite (n.arg 4 4) (ps.flatMap s.features)
  let s := ((s.fldCount 0 ps.length).fldCount 1 lines).fldCount 3 absent.length
  let s := { s with fld := { s.fld with
    batches := s.fld.batches ++ [batch]
    spanAbsent := s.fld.spanAbsent + absent.length
    firstAbsent := s.fld.firstAbsent.or (absent.head?.map fun (p : FldSample) => p.key)
    spanRenders := if train then s.fld.spanRenders else
      ps.foldl (fun m (p : FldSample) => mapSet m p.key ((mapGet m p.key).getD 0 + 1)) s.fld.spanRenders } }
  let s := if run.1.2 then s.lineLimit n.index (ps.filter fun (p : FldSample) => p.coarseOnly).length lines train else s
  s.startOp .fld n .main (6 * ps.length) [out]

/-- After the last sample of a training gather, the endpoints of the rays with depth (R213). -/
def State.gatherEnd (s : State) : State :=
  match s.fld.batches.getLast? with
  | none => s
  | some b =>
    if b.train then
      (b.rays.filter fun r => (fieldAt r.record 31 1).testBit 0).foldl (fun (s : State) r => s.markEndpoint r.record) s
    else s

/-! ## FLD_COMPOSITE (R208, R209, R214) -/

/-- A decoder output with NaN taken as 0 and clamped to 0 and a bound. -/
def clampOut (bound v : Nat) : Nat :=
  match fp16.decode v with
  | .nan => 0
  | x => if Num.le x (.fin false 0 0) then 0 else if Num.le (fp16.decode bound) x then bound else v

/-- The four clamped decoder outputs of a sample: a sample in an absent acre has density 0 (R203). -/
def State.decoderOut (s : State) (aux i : Nat) (p : FldSample) : List Nat :=
  let v (c : Nat) := s.poolVal (aux + 8 * i + 2 * c) 2
  [if p.absent then 0 else clampOut 0x7BFF (v 0), clampOut 0x3C00 (v 1), clampOut 0x3C00 (v 2), clampOut 0x3C00 (v 3)]

/-- The NaN outputs of a sample. -/
def State.nanOuts (s : State) (aux i : Nat) : Nat :=
  ((List.range 4).filter fun c => decide (fp16.decode (s.poolVal (aux + 8 * i + 2 * c) 2) = .nan)).length

/-- A sample of a ray as it is composited, in FP32: its row of the tensors, t, δ, and the decoder's density and colour. -/
structure CompSample where
  row : Nat
  t : Nat
  delta : Nat
  sigma : Nat
  rgb : List Nat

/-- A sample with what compositing gives it: the transmittance before and after it, and its weight. -/
structure CompWeight where
  sample : CompSample
  before : Nat
  after : Nat
  weight : Nat

/-- The samples of a ray in order of t. -/
def State.compSamples (s : State) (aux : Nat) (b : FldBatch) (ray : Nat) : List CompSample :=
  sortBy (fun x y => fp32.le x.t y.t) (((List.range b.samples.length).zip b.samples).filterMap fun (i, p) =>
    if p.ray = ray then
      let o := (s.decoderOut aux i p).map (fp16.convert fp32)
      some { row := i, t := p.t.toNat, delta := p.delta.toNat, sigma := o.headD 0, rgb := o.drop 1 }
    else none)

/-- α = 1 − e^(−σδ): 0 where σδ is 0, whose power is 1 exactly, and never below 0 for a σδ above 0. -/
def alphaOf (sigma delta : Nat) : Nat :=
  let x := fp32.decode (fp32.mul sigma delta)
  match x with
  | .fin neg m _ =>
    let e := fp32.near numComposite [sigma, delta]
      (fp32.ofNum (expOf (- Num.fixed (Num.larger (.fin true 256 0) (Num.lesser (.fin false 256 0) x)))))
    if m = 0 ∨ (!neg && fp32.lt fpOne e) then 0 else fp32.sub fpOne e
  | .inf true => fp32.infBits true
  | .inf false => fpOne
  | .nan => fp32.nanBits

/-- Transmittances and weights along a ray, from the transmittance before the first sample. -/
def compWeights : Nat → List CompSample → List CompWeight
  | _, [] => []
  | before, x :: xs =>
    let alpha := alphaOf x.sigma x.delta
    let after := fp32.mul before (fp32.sub fpOne alpha)
    { sample := x, before := before, after := after, weight := fp32.mul before alpha } :: compWeights after xs

/-- A sum of FP32 patterns in order. -/
def fpSum (xs : List Nat) : Nat := xs.foldl fp32.add 0

/-- What a ray composites to: opacity, range, colour, and the transmittance after the last sample (R208). -/
structure Composited where
  weights : List CompWeight
  opacity : Nat
  range : Nat
  rgb : List Nat
  left : Nat

/-- A ray composited. -/
def compositeRay (far : Nat) (xs : List CompSample) : Composited :=
  let ws := compWeights fpOne xs
  let left := (ws.getLast?.map (·.after)).getD fpOne
  { weights := ws, left := left
    opacity := fpSum (ws.map (·.weight))
    range := fp32.add (fpSum (ws.map fun w => fp32.mul w.weight w.sample.t)) (fp32.mul left far)
    rgb := (List.range 3).map fun c => fpSum (ws.map fun w => fp32.mul w.weight (w.sample.rgb.getD c 0)) }

/-- A render result (R209). -/
def State.renderResult (s : State) (aux : Nat) (b : FldBatch) (ray : Nat) (r : FldRay) : List Byte :=
  let c := compositeRay b.far (s.compSamples aux b ray)
  let nan := c.weights.any fun w => decide (s.nanOuts aux w.sample.row ≠ 0)
  let spread := fpSum (c.weights.map fun w =>
    let d := fp32.sub w.sample.t c.range
    fp32.mul w.weight (fp32.mul d d))
  let std := if Num.eqv (fp32.decode c.opacity) (.fin false 0 0) then 0 else fp32.convert fp16 (fp32.sqrt (fp32.div spread c.opacity))
  natLe 4 c.range ++ natLe 2 (fp32.convert fp16 c.opacity) ++ c.rgb.flatMap (fun v => natLe 2 (fp32.convert fp16 v))
    ++ natLe 1 (b2n (fp32.le 0x3F000000 c.opacity) + r.status + 16 * b2n nan) ++ [0] ++ natLe 2 std

/-- The weights of luma in FP32: 0.2126, 0.7152 and 0.0722 (R211). -/
def lumaWeights : List Nat := [0x3E59B3D0, 0x3F371759, 0x3D93DD98]
/-- Luma of three FP32 colours. -/
def lumaOf (rgb : List Nat) : Nat := fpSum (List.zipWith fp32.mul lumaWeights rgb)

/-- The derivative of Huber's function, which is half the square up to k and linear beyond (PRESUMED, log 70). -/
def huberSlope (e k : Nat) : Nat :=
  let neg (p : Nat) : Nat := fp32.sub 0 p
  if fp32.lt k e then k else if fp32.lt e (neg k) then neg k else e

/-- The derivatives of a ray's loss by its composited outputs: range, then red, green and blue (R214). -/
def lossSlopes (p : MapParams) (record : List Byte) (c : Composited) : List Nat :=
  let flag (i : Nat) : Bool := (fieldAt record 31 1).testBit i
  let kind := b2n (flag 2)
  let depth := fieldAt record 12 4
  let std := fp32.add (fp32.mul (p.at_ (9 + kind)) (fp32.mul depth depth)) (p.at_ (11 + kind))
  let e := fp32.div (fp32.sub c.range depth) std
  let dRange := if flag 0 then fp32.div (fp32.mul (p.at_ 5) (huberSlope e (p.at_ 8))) std else 0
  let seen (i : Nat) : Nat := fp32.div (fp32.ofInt (fieldAt record (28 + i) 1)) (fp32.ofInt 255)
  let twice (x : Nat) : Nat := fp32.mul (p.at_ 6) (fp32.add x x)
  let dRgb := (List.range 3).map fun i =>
    if !flag 1 then 0
    else if flag 3 then fp32.mul (twice (fp32.sub (lumaOf c.rgb) (seen 0))) (lumaWeights.getD i 0)
    else twice (fp32.sub (c.rgb.getD i 0) (seen i))
  dRange :: dRgb

/-- R_k of an output for each sample of a ray, in a reverse pass: the sum of w_j o_j over later samples and T_K o_bg. -/
def tailSums (bg left : Nat) (out : CompSample → Nat) (ws : List CompWeight) : List Nat :=
  (ws.reverse.foldl (fun (acc : Nat × List Nat) w =>
    (fp32.add acc.1 (fp32.mul w.weight (out w.sample)), acc.1 :: acc.2)) (fp32.mul left bg, [])).2

/-- The gradients of a ray's loss by density and colour, by row of the tensor (R214). -/
def rayGradients (p : MapParams) (far : Nat) (record : List Byte) (c : Composited) : List (Nat × List Nat) :=
  let slopes := lossSlopes p record c
  let outs : List (Nat × (CompSample → Nat)) :=
    (far, fun x => x.t) :: (List.range 3).map fun i => (0, fun x => x.rgb.getD i 0)
  let tails := outs.map fun o => tailSums o.1 c.left o.2 c.weights
  ((List.range c.weights.length).zip c.weights).map fun (k, w) =>
    let slope (i : Nat) : Nat := slopes.getD i 0
    let bySigma := (List.range 4).map fun i =>
      let o := ((outs.getD i (0, fun _ => 0)).2) w.sample
      fp32.mul (slope i) (fp32.mul w.sample.delta (fp32.sub (fp32.mul w.after o) ((tails.getD i []).getD k 0)))
    (w.sample.row, fp32.sum numLossGrad bySigma :: (List.range 3).map fun i => fp32.mul (slope (i + 1)) w.weight)

/-- FLD_COMPOSITE of at most COUNT rays of the oldest batch of its mode that none has taken: render results after a vision header, or the
gradients of a training batch. -/
def State.composite (s : State) (n : NextOp) : State :=
  let train := fldTrain n
  match s.fld.batches.find? fun b => decide (b.train = train) && !b.composited with
  | none => s.startOp .fld n .main 0 []
  | some b =>
    let aux := n.arg 8 4
    let out := n.arg 4 4
    let rays := b.rays.take (n.arg 16 4)
    let rows := (List.range b.samples.length).filter fun i => decide (((b.samples[i]?).map (·.ray)).getD 0 < rays.length)
    let nans := rows.foldl (fun m i => m + s.nanOuts aux i) 0
    let s1 := s.fldCount 4 nans
    let s1 := { s1 with fld := { s1.fld with
      nonfiniteOp := if s1.fld.spanNonfinite = 0 then n.index else s1.fld.nonfiniteOp
      spanNonfinite := s1.fld.spanNonfinite + nans } }
    if train then
      let s1 := { s1 with fld := { s1.fld with batches := s1.fld.batches.map fun x => if x = b then { x with composited := true } else x } }
      let grads := ((List.range rays.length).zip rays).flatMap fun (i, r) =>
        rayGradients s.fld.params b.far r.record (compositeRay b.far (s.compSamples aux b i))
      s1.startOp .fld n .main (4 * rows.length) (grads.map fun g => poolWrite (out + 16 * g.1) (g.2.flatMap (natLe 4)))
    else
      let hdr := visionHdr { exposureDt := b.exposureDt, seq := 0, unitStatus := 0, source := 0xFF } (b.first + rays.length) 0 0 0 0 0
      let results := ((List.range rays.length).zip rays).flatMap fun (i, r) => s.renderResult aux b i r
      let s1 := { s1 with fld := { s1.fld with batches := s1.fld.batches.erase b } }
      s1.startOp .fld n .main (2 * rows.length) [poolWrite out hdr, poolWrite (out + 64 + 16 * b.first) results]

/-! ## FLD_SCATTER (R215) -/

/-- One entry's addend put into GRAD, and its TOUCHED bit set. -/
def State.addGrad (s : State) (a : Acre) (e : Nat) (g : List Nat) : State :=
  let old := s.tval a 3 e 8
  (s.tput a 3 e (natLe 4 (fp32.add (old % 2 ^ 32) (g.getD 0 0)) ++ natLe 4 (fp32.add (old / 2 ^ 32) (g.getD 1 0)))).setTouched a e true

/-- The contributions of a batch: acre, global entry, and the two gradient addends, in sample order. A level in DRAM past the budget
contributes nothing; an acre that the copy does not name has no level in a slot. -/
def State.contributions (s : State) (grad : Nat) (ps : List (Nat × FldSample)) : List (Nat × Nat × List Nat) :=
  ps.flatMap fun (i, p) =>
    let dram := match s.dirEntry p.key with
      | none => List.range 16
      | some d => s.dramLevels d
    (List.range 16).flatMap fun l =>
      if p.coarseOnly && decide (l ∈ dram) then []
      else (levelVertices p.pos l).map fun v =>
        (p.key, levelBase l + v.1, (List.range 2).map fun f => fp32.mul v.2 (s.poolVal (grad + 128 * i + 4 * (2 * l + f)) 4))

/-- Contributions to one entry summed in sample order, then one addend for each entry (R215). -/
def sumByEntry (cs : List (Nat × Nat × List Nat)) : List (Nat × Nat × List Nat) :=
  cs.foldl (fun acc c =>
    if acc.any fun x => decide (x.1 = c.1 ∧ x.2.1 = c.2.1) then
      acc.map fun x => if x.1 = c.1 ∧ x.2.1 = c.2.1 then (x.1, x.2.1, [fp32.add (x.2.2.getD 0 0) (c.2.2.getD 0 0),
        fp32.add (x.2.2.getD 1 0) (c.2.2.getD 1 0)]) else x
    else acc ++ [c]) []

/-- The training slot of an acre. -/
def State.trainSlot (s : State) (key : Nat) : Option (Fin 8) := (s.dirEntry key).bind (·.train)

/-- The samples of a training batch that a scatter takes, by row, after its line budget: those of at most COUNT rays. -/
def State.scatterRun (s : State) (n : NextOp) (b : FldBatch) : (List Nat × Bool) × List (Nat × FldSample) :=
  let mine := ((List.range b.samples.length).zip b.samples).filter fun x => decide (x.2.ray < n.arg 16 4)
  let run := s.budgetRun gradLines (n.arg 20 4) (mine.map fun x => { x.2 with coarseOnly := false })
  (run.1, (mine.map (·.1)).zip run.2)

/-- The additions of FLD_SCATTER, at most `limit` entries of them; the batch is released. -/
def State.scatterEnd (s : State) (n : NextOp) (limit : Option Nat) : State :=
  match s.fld.batches.find? (·.train) with
  | none => s
  | some b =>
    let sums := sumByEntry (s.contributions (n.arg 0 4) (s.scatterRun n b).2)
    let kept := sums.filter fun c => (s.trainSlot c.1).isSome
    let todo := match limit with
      | some m => kept.take m
      | none => kept
    let s := todo.foldl (fun (s : State) c => match s.acre c.1 with
      | some a => s.addGrad a c.2.1 c.2.2
      | none => s) s
    { s with fld := { s.fld with batches := s.fld.batches.erase b } }

/-- FLD_SCATTER issues: what it counts, and how long it lasts. -/
def State.scatter (s : State) (n : NextOp) : State :=
  match s.fld.batches.find? (·.train) with
  | none => s.startOp .fld n .main 0 []
  | some b =>
    let run := s.scatterRun n b
    let all := s.contributions (n.arg 0 4) run.2
    let s := (s.fldCount 1 run.1.1.length).fldCount 5 (all.filter fun c => (s.trainSlot c.1).isNone).length
    let s := if run.1.2 then s.lineLimit n.index (run.2.filter fun x => x.2.coarseOnly).length run.1.1.length true else s
    s.startOp .fld n .main (20 * run.2.length) []

/-! ## FLD_ADAM (R216) -/

/-- The acre of a training slot. -/
def State.slotAcre (s : State) (i : Nat) : Option Acre :=
  (s.fld.dir.find? fun d => decide ((d.train.map (·.val)) = some i)).bind fun d => s.acre d.key

/-- exp2(step × log2(β)), which the spec gives in FP32 and does not round step by step. -/
def betaPower (b step : Nat) : Nat :=
  match fp32.decode b with
  | .fin false m e =>
    if m = 0 then 0
    else
      let x := Num.larger (.fin true 1000 0) (Num.mul (Num.nat step) (log2Of m e))
      fp32.near numBias [b, step] (fp32.ofNum (exp2Of (Num.fixed x)))
  | _ => fp32.nanBits

/-- One feature's update: first moment, second moment and master value (R216). -/
def adamStep (p : MapParams) (step grad m1 m2 master : Nat) : Nat × Nat × Nat :=
  let g := fp32.mul grad (p.at_ 4)
  let m1 := fp32.add (fp32.mul (p.at_ 1) m1) (fp32.mul (fp32.sub fpOne (p.at_ 1)) g)
  let m2 := fp32.add (fp32.mul (p.at_ 2) m2) (fp32.mul (fp32.mul (fp32.sub fpOne (p.at_ 2)) g) g)
  let mh := fp32.div m1 (fp32.sub fpOne (betaPower (p.at_ 1) step))
  let vh := fp32.div m2 (fp32.sub fpOne (betaPower (p.at_ 2) step))
  (m1, m2, fp32.sub master (fp32.div (fp32.mul (p.at_ 0) mh) (fp32.add (fp32.sqrt vh) (p.at_ 3))))

/-- An entry has a gradient to apply: its line is touched and its GRAD is not zero. -/
def State.pendingEntry (s : State) (a : Acre) (e : Nat) : Bool := s.touched a e && decide (s.tval a 3 e 8 ≠ 0)

/-- The table entry in the acre's coarse slot brought up to the one in DRAM, if the acre has a slot for its level. -/
def State.copyToSlot (s : State) (a : Acre) (off l : Nat) : State :=
  match (s.dirEntry a.key).bind s.coarseOf with
  | some slot =>
    if l < 8 then
      { s with sram := s.sram.set 4 (memWriteN s.sram[(4 : Fin 10)] (slot.val * 0x180000 + off) (s.acreRead a off 4)) }
    else s
  | none => s

/-- One touched entry updated (R216): the training arrays, the table in DRAM and in the slot, and the header. -/
def State.adamEntry (s : State) (a : Acre) (e : Nat) : State :=
  let step := min (s.tval a 4 e 4 + 1) 0xFFFFFFFF
  let half (array f : Nat) := s.tval a array e 8 / 2 ^ (32 * f) % 2 ^ 32
  let u (f : Nat) := adamStep s.fld.params step (half 3 f) (half 1 f) (half 2 f) (half 0 f)
  let (l, i) := entryLevel e
  let off := levelOffset l + 4 * i
  let pair (g : Nat × Nat × Nat → Nat) : List Byte := natLe 4 (g (u 0)) ++ natLe 4 (g (u 1))
  let s := (((s.tput a 4 e (natLe 4 step)).tput a 1 e (pair (·.1))).tput a 2 e (pair (·.2.1))).tput a 0 e (pair (·.2.2))
  let s := (s.acrePut a off (natLe 2 (fp32.convert fp16 (u 0).2.2) ++ natLe 2 (fp32.convert fp16 (u 1).2.2))).tput a 3 e (natLe 8 0)
  let s := if (List.range 8).any fun k => s.pendingEntry a (e / 8 * 8 + k) then s else s.setTouched a e false
  let s := (s.putHdr a 24 (natLe 8 s.dtNs)).putHdr a 40 (natLe 8 (s.acreVal a 40 8 + 1))
  (s.markDirty a).copyToSlot a off l

/-- Touched entries of the training slots from the cursor on, once around: slot and entry. -/
def State.touchedFrom (s : State) : List (Nat × Nat) :=
  let all := (List.range 8).flatMap fun i => match s.slotAcre i with
    | some a => ((List.range acreEntries).filter fun e => s.pendingEntry a e).map fun e => (i, e)
    | none => []
  let after := all.filter fun x => decide (s.fld.cursor ≤ x.1 * acreEntries + x.2)
  after ++ all.filter fun x => decide (x.1 * acreEntries + x.2 < s.fld.cursor)

/-- The DRAM lines that the update of an entry reads and writes: of its five arrays and of its table. -/
def Acre.entryLines (a : Acre) (e : Nat) : List Nat :=
  let (l, i) := entryLevel e
  ((List.range 5).map fun k => a.trainAddr k e / 64) ++ [(a.base + levelOffset l + 4 * i) / 64]

/-- The entries that one FLD_ADAM takes of those that wait: at most COUNT, until one would raise its distinct lines above the budget;
with the lines, and whether the budget ended it. -/
def State.adamTake (s : State) (budget : Nat) : Nat → List (Nat × Nat) → List Nat → List (Nat × Nat) × List Nat × Bool
  | 0, _, lines => ([], lines, false)
  | _, [], lines => ([], lines, false)
  | n + 1, x :: xs, lines =>
    let new := (match s.slotAcre x.1 with
      | some a => a.entryLines x.2
      | none => []).filter fun k => k ∉ lines
    if budget < lines.length + new.length then ([], lines, true)
    else
      let r := s.adamTake budget n xs (lines ++ new)
      (x :: r.1, r.2)

/-- What an FLD_ADAM takes. -/
def State.adamPlan (s : State) (n : NextOp) : List (Nat × Nat) × List Nat × Bool :=
  s.adamTake (n.arg 20 4) (n.arg 16 4) s.touchedFrom []

/-- The lines of TOUCHED bits that an FLD_ADAM scans: up to its last entry where COUNT or the budget ends it, and else those of every
training slot. -/
def State.adamScan (s : State) (n : NextOp) : Nat :=
  let p := s.adamPlan n
  let slots := ((List.range 8).filter fun i => (s.slotAcre i).isSome).length
  match p.1.getLast? with
  | some x =>
    if p.2.2 || decide (p.1.length = n.arg 16 4) then
      (x.1 * acreEntries + x.2 + 8 * acreEntries - s.fld.cursor) % (8 * acreEntries) / 8 + 1
    else slots * acreEntries / 8
  | none => slots * acreEntries / 8

/-- The updates of FLD_ADAM on at most `limit` entries; a group of 64 whose check failed stays touched and unchanged. Its lines count
against the budget as a gather's do (R210). -/
def State.adamEnd (s : State) (n : NextOp) (limit bad : Option Nat) : State :=
  let plan := s.adamPlan n
  let todo := match limit with
    | some m => plan.1.take m
    | none => plan.1
  let kept := ((List.range todo.length).zip todo).filter fun x => decide (bad ≠ some (x.1 / 64))
  let s := kept.foldl (fun (s : State) x =>
    match s.slotAcre x.2.1 with
    | none => s
    | some a => s.adamEntry a x.2.2) s
  let left := s.touchedFrom
  let cursor := match todo.getLast? with
    | some x => x.1 * acreEntries + x.2 + 1
    | none => s.fld.cursor
  let overs := decide (n.arg 16 4 < left.length)
  let s := s.fldCount 1 plan.2.1.length
  let s := if plan.2.2 then s.lineLimit n.index 0 plan.2.1.length true else s
  let s := { s with fld := { s.fld with backlog := left.length, cursor := cursor, spanBacklog := s.fld.spanBacklog || overs } }
  if overs && s.fld.evtEn then s.event 0x09 0x0904 left.length (n.arg 16 4) 0 else s

/-! ## FLD_RAYS and FLD_COMPARE (R211, R212) -/

/-- The grid points of an operation, in row order. -/
def gridPoints (n : NextOp) : List (Nat × Nat) :=
  (List.range (n.arg 34 2)).flatMap fun j => (List.range (n.arg 32 2)).map fun i =>
    (n.arg 28 2 + i * n.arg 36 2, n.arg 30 2 + j * n.arg 36 2)

/-- A disparity that is a reserved code (R154). -/
def reservedDisp (d : Nat) : Bool := decide (0xFFFC ≤ d)

/-- The colour of a pixel, luma in all three bytes for LUMA8. -/
def State.colourAt (s : State) (d : ImgDesc) (x y : Nat) : List Byte :=
  if d.format = 1 then s.readPool (d.row y + 3 * x) 3
  else (List.replicate 3 (BitVec.ofNat 8 (s.px8 d x y)))

/-- The ray record of a grid point: origin and key from the pose, depth along the ray from the disparity, and the direction in units of
2^-14, rounded to nearest (R196, R212). -/
def State.rayRecord (s : State) (n : NextOp) (p : Nat × Nat) : List Byte :=
  let im := n.img16 96
  let pose := (s.poseInput (n.arg 12 4)).2
  let cam := camRay (n.fp32s 40 4) p.1 p.2
  let disp := s.px16 (n.img16 80) p.1 p.2
  let own := ownAcre (pose.pos.list.map fp64.ofNum)
  let z := fp32.div (n.arg 68 4) (fp32.encode false disp (-4))
  let depth := fp32.near numRay [z] (fp32.ofNum (Num.quot (fp32.decode z) cam.z))
  let dir := (pose.rot.rotate cam).list.map fun v => patOf 16 (max (-32768) (min 32767 (Num.toIntRne (Num.mul v (.fin false 1 14)))))
  own.2.flatMap (fun v => natLe 4 v.toNat) ++ natLe 4 depth ++ dir.flatMap (natLe 2) ++ natLe 6 own.1
    ++ s.colourAt im p.1 p.2 ++ natLe 1 (3 + 8 * b2n (decide (im.format = 0)))

/-- FLD_RAYS: one record for each grid point with a disparity and confidence enough; a record without a finite and positive depth is
discarded and counted (R212). The confidence map lies at IN_ADDR (log 12). -/
def State.raysOp (s : State) (n : NextOp) : State :=
  let disp := n.img16 80
  let conf : ImgDesc := { disp with addr := n.arg 0 4, stride := disp.stride / 2, format := 5 }
  let pts := (gridPoints n).filter fun p =>
    !reservedDisp (s.px16 disp p.1 p.2) && decide (n.arg 27 1 ≤ s.px8 conf p.1 p.2)
  let all := pts.map (s.rayRecord n)
  let good := all.filter fun r => !badRay r
  let recs := good.take (n.arg 16 4)
  let hdr := visionHdr (s.srcHdr disp) recs.length (good.length - recs.length) (b2n (decide (recs.length < good.length))) 0 0 0
  (s.fldCount 6 (all.length - good.length)).startOp .fld n .main (20 * (gridPoints n).length)
    [poolWrite (n.arg 4 4) hdr, poolWrite (n.arg 4 4 + 64) recs.flatten]

/-- A render result of the grid. -/
def State.renderAt (s : State) (n : NextOp) (i : Nat) : List Byte := s.readPool (n.arg 8 4 + 64 + 16 * i) 16
/-- SURFACE of a grid ray. -/
def State.surfaceAt (s : State) (n : NextOp) (i : Nat) : Bool := (fieldAt (s.renderAt n i) 12 1).testBit 0

/-- Whether grid ray i has a depth term, and whether it has a photometric term (R211). -/
def State.compareTerms (s : State) (n : NextOp) (i : Nat) (p : Nat × Nat) : Bool × Bool :=
  let cols := n.arg 32 2
  let rows := n.arg 34 2
  let disp := n.img16 80
  let im := n.img16 96
  let c := i % cols
  let r := i / cols
  let surf := s.surfaceAt n i
  let nbrs := decide (0 < c ∧ c + 1 < cols ∧ 0 < r ∧ r + 1 < rows) && s.surfaceAt n (i - 1) && s.surfaceAt n (i + 1)
    && s.surfaceAt n (i - cols) && s.surfaceAt n (i + cols)
  (surf && nbrs && !reservedDisp (s.px16 disp p.1 p.2),
   surf && decide (2 ≤ p.1 ∧ p.1 + 2 < im.width ∧ 2 ≤ p.2 ∧ p.2 + 2 < im.height))

/-- Luma of a pixel, 0 to 255. -/
def State.lumaAt (s : State) (d : ImgDesc) (x y : Int) : Num :=
  if d.format = 1 then
    fp32.decode (lumaOf ((List.range 3).map fun c => fp32.ofInt (s.poolVal (d.row y.toNat + 3 * x.toNat + c) 1)))
  else Num.nat (s.px8 d x.toNat y.toNat)

/-- The 3 x 3 Sobel gradient of luma at a pixel, over eight. -/
def State.lumaSobel (s : State) (d : ImgDesc) (x y : Nat) : Num × Num :=
  let i (a b : Int) : Num := s.lumaAt d ((x : Int) + a) ((y : Int) + b)
  let side (a b c : Num) : Num := Num.add (Num.add a (Num.add b b)) c
  (Num.mul (Num.sub (side (i 1 (-1)) (i 1 0) (i 1 1)) (side (i (-1) (-1)) (i (-1) 0) (i (-1) 1))) (.fin false 1 (-3)),
   Num.mul (Num.sub (side (i (-1) 1) (i 0 1) (i 1 1)) (side (i (-1) (-1)) (i 0 (-1)) (i 1 (-1)))) (.fin false 1 (-3)))

/-- A term of the Gauss–Newton system: its residual, its Jacobian of six, and its weight, in FP32. -/
structure CmpTerm where
  r : Nat
  j : List Nat
  w : Nat

/-- The point of a grid ray at its rendered range, in the camera frame. -/
def State.rayPoint (s : State) (n : NextOp) (i : Nat) (p : Nat × Nat) : Vec3 :=
  (camRay (n.fp32s 40 4) p.1 p.2).scale (fp32.decode (fieldAt (s.renderAt n i) 0 4))

/-- A term rounded to FP32, with its Huber weight times the weight of its kind. -/
def cmpTerm (p : MapParams) (kind : Nat) (r : Num) (j : Vec3 × Vec3) : CmpTerm :=
  let rp := toFp32 numCompare r
  let mag := rp % 2 ^ 31
  let h := if fp32.lt (p.at_ 8) mag then fp32.div (p.at_ 8) mag else fpOne
  { r := rp, j := (j.1.list ++ j.2.list).map (toFp32 numCompare), w := fp32.mul h (p.at_ kind) }

/-- The depth term of a grid ray (R211). -/
def State.depthTerm (s : State) (n : NextOp) (i : Nat) (p : Nat × Nat) : CmpTerm :=
  let step := n.arg 36 2
  let cols := n.arg 32 2
  let pt := s.rayPoint n i p
  let right := s.rayPoint n (i + 1) (p.1 + step, p.2)
  let left := s.rayPoint n (i - 1) (p.1 - step, p.2)
  let down := s.rayPoint n (i + cols) (p.1, p.2 + step)
  let up := s.rayPoint n (i - cols) (p.1, p.2 - step)
  let m := ((right.sub left).cross (down.sub up)).unit
  let nrm := if Num.lt (.fin false 0 0) (m.dot pt) then m.scale (.fin true 1 0) else m
  let d := camRay (n.fp32s 40 4) p.1 p.2
  let disp : Num := .fin false (s.px16 (n.img16 80) p.1 p.2) (-4)
  let seen := d.scale (Num.quot (Num.quot (fp32.decode (n.arg 68 4)) disp) d.z)
  cmpTerm s.fld.params 5 (nrm.dot (seen.sub pt)) (nrm, pt.cross nrm)

/-- The photometric term of a grid ray (R211): its point projects to the pixel of the ray. -/
def State.photoTerm (s : State) (n : NextOp) (i : Nat) (p : Nat × Nat) : CmpTerm :=
  let im := n.img16 96
  let intr := n.fp32s 40 4
  let fx := intr.getD 0 .nan
  let fy := intr.getD 1 .nan
  let pt := s.rayPoint n i p
  let rgb := (List.range 3).map fun c => fp16.convert fp32 (fieldAt (s.renderAt n i) (6 + 2 * c) 2)
  let model := fp32.decode (fp32.mul (lumaOf rgb) (fp32.ofInt 255))
  let g := s.lumaSobel im p.1 p.2
  let gx := Num.mul fx g.1
  let gy := Num.mul fy g.2
  let a : Vec3 :=
    { x := Num.quot gx pt.z, y := Num.quot gy pt.z
      z := Num.neg (Num.quot (Num.add (Num.mul gx pt.x) (Num.mul gy pt.y)) (Num.mul pt.z pt.z)) }
  cmpTerm s.fld.params 7 (Num.sub (s.lumaAt im p.1 p.2) model) (a.scale (.fin true 1 0), a.cross pt)

/-- The rows and columns of the upper triangle of a 6 x 6 matrix, row by row. -/
def upperPairs : List (Nat × Nat) := (List.range 6).flatMap fun i => (List.range (6 - i)).map fun k => (i, i + k)

/-- A term's weighted ρ(r): half the square up to `HUBER_K`, linear beyond, times the weight of its kind (PRESUMED, log 70). -/
def CmpTerm.cost (t : CmpTerm) (kindWeight huber : Nat) : Nat :=
  let up (v : Nat) : Nat := fp32.convert fp64 v
  let mag := up (t.r % 2 ^ 31)
  let k := up huber
  let half (v : Nat) : Nat := fp64.mul v 0x3FE0000000000000
  fp64.mul (up kindWeight) (if fp64.lt k mag then fp64.mul k (fp64.sub mag (half k)) else half (fp64.mul mag mag))

/-- A weighted product of FP32 patterns in FP64. -/
def wideProduct (w a b : Nat) : Nat :=
  let up (v : Nat) : Nat := fp32.convert fp64 v
  fp64.mul (fp64.mul (up w) (up a)) (up b)

/-- FLD_COMPARE over at most COUNT rays: the compare record, its sums in FP64 in grid order (R211). -/
def State.compareOp (s : State) (n : NextOp) : State :=
  let pts := (gridPoints n).take (n.arg 16 4)
  let p := s.fld.params
  let kinds := ((List.range pts.length).zip pts).map fun (i, q) => s.compareTerms n i q
  let terms : List (CmpTerm × Nat) := ((List.range pts.length).zip (pts.zip kinds)).flatMap fun (i, q, k) =>
    (if k.1 then [(s.depthTerm n i q, 5)] else []) ++ (if k.2 then [(s.photoTerm n i q, 7)] else [])
  let total (f : CmpTerm × Nat → Nat) : Nat := terms.foldl (fun acc t => fp64.add acc (f t)) 0
  let cost := total fun t => t.1.cost (p.at_ t.2) (p.at_ 8)
  let h := upperPairs.map fun ij => total fun t => wideProduct t.1.w (t.1.j.getD ij.1 0) (t.1.j.getD ij.2 0)
  let b := (List.range 6).map fun i => total fun t => wideProduct t.1.w (t.1.j.getD i 0) t.1.r
  let st := (List.range pts.length).foldl (fun m i => m ||| fieldAt (s.renderAt n i) 12 1) 0
  let flagged := (s.srcHdr (n.img16 80)).flagged || (s.srcHdr (n.img16 96)).flagged
  let r := natLe 8 (s.poolVal (n.arg 12 4) 8) ++ natLe 4 (kinds.filter (·.1)).length ++ natLe 4 (kinds.filter (·.2)).length
    ++ (cost :: h ++ b).flatMap (natLe 8) ++ natLe 4 (kinds.filter fun k => !k.1 && !k.2).length ++ natLe 1 (n.arg 26 1)
    ++ natLe 1 (b2n (st.testBit 1) + 2 * b2n (st.testBit 2) + 4 * b2n flagged) ++ List.replicate 10 0
  s.startOp .fld n .main (80 * pts.length) [poolWrite (n.arg 4 4) r]

/-! ## FLD_REPLAY (R217) -/

/-- A record offered to the reservoir of an acre: every offer advances the acre's generator. -/
def State.offer (s : State) (a : Acre) (r : List Byte) : State :=
  let rng := xorshift a.rng
  let n := s.acreVal a 48 8
  let slot := if n < 475136 then n else (drawOf rng).toNat % (n + 1)
  let s := (s.updAcre a.key fun x => { x with rng := rng }).putHdr a 48 (natLe 8 (n + 1))
  let s := if slot < 475136 then s.acrePut a (0x1180000 + 32 * slot) r else s
  let s := if n < 475136 then s.putHdr a 56 (natLe 4 (s.acreVal a 56 4 + 1)) else s
  s.markDirty a

/-- The records that a filing operation offers, at most `limit` of them. One for an absent acre is dropped, and counted with the
discarded records (R217; the counter is DEDUCED, log 71). -/
def State.fileRays (s : State) (n : NextOp) (limit : Option Nat) : State :=
  let rs := (s.rayList (n.arg 0 4) (n.arg 16 4)).filter fun r => (fieldAt r 31 1).testBit 0 && !badRay r
  let rs := match limit with
    | some m => rs.take m
    | none => rs
  rs.foldl (fun (s : State) r =>
    let key := (endpointCell r).1
    match s.dirEntry key, s.acre key with
    | some _, some a => s.offer a r
    | _, _ => s.fldCount 6 1) s

/-- One draw from each training slot in turn: the records, and the acres' generators advanced. -/
def State.drawRays : State → Nat → Nat → List (List Byte) × State
  | s, 0, _ => ([], s)
  | s, n + 1, i =>
    let slots := (List.range 8).filter fun k => match s.slotAcre k with
      | some a => decide (s.acreVal a 56 4 ≠ 0)
      | none => false
    match slots[i % (max 1 slots.length)]?.bind s.slotAcre with
    | none => ([], s)
    | some a =>
      let rng := xorshift a.rng
      let e := (drawOf rng).toNat % s.acreVal a 56 4
      let bytes := s.acreRead a (0x1180000 + 32 * e) 32
      let s := s.updAcre a.key fun a => { a with rng := rng }
      let (rs, s) := s.drawRays n (i + 1)
      (bytes :: rs, s)

/-- FLD_REPLAY issues. -/
def State.replay (s : State) (n : NextOp) : State :=
  if fldDraw n then
    let (rs, s) := s.drawRays (n.arg 16 4) 0
    let hdr := visionHdr { exposureDt := 0, seq := 0, unitStatus := 0, source := 0xFF } rs.length 0 0 0 0 0
    s.startOp .fld n .main (8 * rs.length) [poolWrite (n.arg 4 4) hdr, poolWrite (n.arg 4 4 + 64) rs.flatten]
  else
    let rs := s.rayList (n.arg 0 4) (n.arg 16 4)
    let s := s.fldCount 6 (rs.filter badRay).length
    s.startOp .fld n .main (8 * rs.length) []

/-! ## FLD_SLOT_FILL (R203, R204) -/

/-- The coarse slot that waits to be filled. -/
def State.fillingSlot (s : State) : Option (Fin 4) := (List.finRange 4).find? fun i => s.fld.slots[i].filling

/-- The pending slot's bytes, if one is pending: the first 112 of the header, the occupancy grid and levels 0 to 7. -/
def State.slotFill (s : State) (n : NextOp) : State :=
  match s.fillingSlot with
  | none => s.startOp .fld n .main 20000 []
  | some i =>
    let part (a : Acre) (off len : Nat) : MemWrite := { space := .sram 4, addr := i.val * 0x180000 + off, data := s.acreRead a off len }
    s.startOp .fld n .main 20000 (match s.fld.slots[i].key.bind s.acre with
      | some a => [part a 0 112, part a 0x1000 32768, part a 0x9000 1529416]
      | none => [])

/-! ## Completion -/

/-- What a field operation does as it ends: with `limit`, it is stopped at a boundary, and as much is done of it (R75). -/
def State.fldEnd (s : State) (n : NextOp) (limit : Option Nat) : State :=
  match n.op.opcode with
  | 0x11 => if limit.isNone then s.gatherEnd else s
  | 0x13 => s.scatterEnd n limit
  | 0x14 => s.adamEnd n limit none
  | 0x16 => if fldDraw n then s else s.fileRays n limit
  | 0x17 =>
    if limit.isNone then
      match s.fillingSlot with
      | some i => { s with fld := { s.fld with slots := s.fld.slots.set i { s.fld.slots[i] with filling := false } } }
      | none => s
    else s
  | _ => s

/-! ## The rows -/

/-- FLD_RAYS (R212). -/
def execFldRays (chk : Check) (s : State) : Host.Outcome State Fault Refusal :=
  .next (s.fldIssue 0x10 chk fun n s => s.raysOp n)
/-- FLD_GATHER (R207, R210, R213). -/
def execFldGather (chk : Check) (s : State) : Host.Outcome State Fault Refusal :=
  .next (s.fldIssue 0x11 chk fun n s => s.gather n)
/-- FLD_COMPOSITE (R208, R214). -/
def execFldComposite (chk : Check) (s : State) : Host.Outcome State Fault Refusal :=
  .next (s.fldIssue 0x12 chk fun n s => s.composite n)
/-- FLD_SCATTER (R215). -/
def execFldScatter (chk : Check) (s : State) : Host.Outcome State Fault Refusal :=
  .next (s.fldIssue 0x13 chk fun n s => s.scatter n)
/-- FLD_ADAM (R216): on a failed check one group of 64 entries stays touched and unchanged, and the rest goes on (R222). -/
def execFldAdam (chk : Check) (s : State) : Host.Outcome State Fault Refusal :=
  .next (s.tryIssue .fld 0x14 (some .main) fun n s =>
    match s.engineCheck .fld chk with
    | (none, s) => s.startOp .fld n .main (4 * (s.adamPlan n).1.length + s.adamScan n / 64) []
    | (some u, s) =>
      let (g, s) := s.drawBelow (ceilDiv (max 1 (s.adamPlan n).1.length) 64)
      ((s.fldMismatch n.index u).adamEnd n none (some g)).setOnDone n.op)
/-- FLD_COMPARE (R211). -/
def execFldCompare (chk : Check) (s : State) : Host.Outcome State Fault Refusal :=
  .next (s.fldIssue 0x15 chk fun n s => s.compareOp n)
/-- FLD_REPLAY (R217). -/
def execFldReplay (chk : Check) (s : State) : Host.Outcome State Fault Refusal :=
  .next (s.fldIssue 0x16 chk fun n s => s.replay n)
/-- FLD_SLOT_FILL (R204). -/
def execFldSlotFill (s : State) : Host.Outcome State Fault Refusal :=
  .next (s.fldIssue 0x17 .clean fun n s => s.slotFill n)

/-- The WO bit DIR_COMMIT (R203, R223): the copy and the parameters reload at the next boundary. -/
def State.dirCommit (s : State) : State := { s with fld := { s.fld with commitPending := true } }
/-- The WO bit ABSENT_CLEAR (R213, R223). -/
def State.absentClear (s : State) : State := { s with fld := { s.fld with absentKeys := [] } }

/-- FLD_DIR_COMMIT (R203). -/
def execFldDirCommit (s : State) : Host.Outcome State Fault Refusal := .next s.dirCommit
/-- FLD_ABSENT_CLEAR (R213). -/
def execFldAbsentClear (s : State) : Host.Outcome State Fault Refusal := .next s.absentClear

end Sys2Proof.Machine
end

