-- ==== Sys2Proof/Machine/Formats.lean ====
section
/-!
DEFINITION. The number formats of the compute cores, tensors in them, and the conversions between them (R162, R182 to R195).
A value is an exact `Num` until it is written in a format.
-/
namespace Sys2Proof.Machine

/-! ## Format codes (R182) -/

/-- Bits of an element of a format code. -/
def fmtBits (code : Nat) : Nat :=
  match code with
  | 0x00 | 0x0C => 4
  | 0x0D => 6
  | 0x03 | 0x08 | 0x09 => 16
  | 0x04 | 0x05 | 0x0A => 32
  | 0x0B => 64
  | _ => 8

/-- An integer format (R183). -/
def fmtInt (code : Nat) : Bool := decide (code ≤ 0x04)
/-- A microscaling format (R186). -/
def fmtMx (code : Nat) : Bool := decide (0x0C ≤ code ∧ code ≤ 0x0E)
/-- The bytes of a block of 32 elements (R186). -/
def mxBlockBytes (code : Nat) : Nat := fmtBits code * 4

/-- A floating format with few values: exponent and fraction bits, the bias, and the largest finite magnitude pattern. -/
structure SmallFmt where
  eb : Nat
  mb : Nat
  bias : Nat
  maxPat : Nat

/-- FP8-E4M3 -/
def e4m3 : SmallFmt := { eb := 4, mb := 3, bias := 7, maxPat := 0x7E }
/-- FP8-E5M2 -/
def e5m2 : SmallFmt := { eb := 5, mb := 2, bias := 15, maxPat := 0x7B }
/-- FP16 -/
def smallFp16 : SmallFmt := { eb := 5, mb := 10, bias := 15, maxPat := 0x7BFF }
/-- BF16 -/
def smallBf16 : SmallFmt := { eb := 8, mb := 7, bias := 127, maxPat := 0x7F7F }
/-- FP32 -/
def smallFp32 : SmallFmt := { eb := 8, mb := 23, bias := 127, maxPat := 0x7F7FFFFF }
/-- E2M1 of MXFP4 -/
def e2m1 : SmallFmt := { eb := 2, mb := 1, bias := 1, maxPat := 7 }
/-- E2M3 of MXFP6 -/
def e2m3 : SmallFmt := { eb := 2, mb := 3, bias := 1, maxPat := 31 }

/-- The number of a pattern none of whose exponents is special. -/
def SmallFmt.finite (f : SmallFmt) (p : Nat) : Num :=
  let neg := p.testBit (f.eb + f.mb)
  let ex := p / 2 ^ f.mb % 2 ^ f.eb
  let fr := p % 2 ^ f.mb
  if ex = 0 then .fin neg fr (1 - (f.bias : Int) - f.mb) else .fin neg (2 ^ f.mb + fr) ((ex : Int) - f.bias - f.mb)

/-- The floating format of a code. -/
def smallOf (code : Nat) : Option SmallFmt :=
  match code with
  | 0x06 => some e4m3
  | 0x07 => some e5m2
  | 0x08 => some smallFp16
  | 0x09 => some smallBf16
  | 0x0A => some smallFp32
  | 0x0C => some e2m1
  | 0x0D => some e2m3
  | _ => none

/-- The NaN that a core writes (R185). -/
def nanPat (code : Nat) : Nat :=
  match code with
  | 0x06 => 0x7F
  | 0x07 => 0x7E
  | 0x08 => 0x7E00
  | 0x09 => 0x7FC0
  | _ => 0x7FC00000

/-- The number an element's pattern stands for, a block scale apart (R183 to R186). -/
def decodeElem (code frac p : Nat) : Num :=
  match code with
  | 0x00 => Num.ofInt (signedOf 4 p) 0 false
  | 0x01 => Num.ofInt (signedOf 8 p) 0 false
  | 0x02 => Num.ofInt (p % 256 : Nat) 0 false
  | 0x03 => Num.ofInt (signedOf 16 p) 0 false
  | 0x04 => Num.ofInt (signedOf 32 p) 0 false
  | 0x05 => Num.ofInt (signedOf 32 p) (-(frac : Int)) false
  | 0x06 => if p % 128 = 127 then .nan else e4m3.finite p
  | 0x07 => ({ eb := 5, mb := 2 } : FpFmt).decode p
  | 0x08 => fp16.decode p
  | 0x09 => bf16.decode p
  | 0x0A => fp32.decode p
  | 0x0C => e2m1.finite p
  | 0x0D => e2m3.finite p
  | 0x0E => Num.ofInt (signedOf 8 p) (-6) false
  | _ => fp64.decode p

/-! ## Tensors (R162, R183, R187) -/

/-- A tensor descriptor. -/
structure Tensor where
  addr : Nat
  format : Nat
  frac : Nat
  mode : Nat
  handoff : Nat
  w : Nat
  h : Nat
  c : Nat
  step : Nat
  stride : Nat
  slotBytes : Nat
  /-- the reserved byte and the reserved bits of the address -/
  reserved : Nat
  deriving DecidableEq, Repr

/-- The descriptor at an offset of `PARAMS`. -/
def Image.tensor (img : Image) (o : Nat) : Tensor where
  addr := img.param o 8 % 2 ^ 40
  format := img.param (o + 8) 1
  frac := img.param (o + 9) 1
  mode := img.param (o + 10) 1
  handoff := img.param (o + 12) 4
  w := img.param (o + 16) 2
  h := img.param (o + 18) 2
  c := img.param (o + 20) 2
  step := img.param (o + 22) 2
  stride := img.param (o + 24) 4
  slotBytes := img.param (o + 28) 4
  reserved := img.param (o + 11) 1 + img.param o 8 / 2 ^ 40

/-- The index of an element in its row. -/
def Tensor.index (t : Tensor) (w c : Nat) : Nat := w * t.step * t.c + c
/-- The bytes of a row that elements reach. -/
def Tensor.rowBytes (t : Tensor) : Nat := ceilDiv (((t.w - 1) * t.step * t.c + t.c) * fmtBits t.format) 8
/-- The base of the scale plane. -/
def Tensor.plane (t : Tensor) : Nat := t.addr + t.h * t.stride
/-- The bytes of a scale row. -/
def Tensor.scaleStride (t : Tensor) : Nat := t.stride / max 1 (mxBlockBytes t.format)
/-- The bytes from `ADDR` on that the tensor's extent takes, an MX tensor's scale plane included. -/
def Tensor.extent (t : Tensor) : Nat :=
  let elements := (t.h - 1) * t.stride + t.rowBytes
  if fmtMx t.format then max elements (t.h * t.stride + t.h * t.scaleStride) else elements

/-- A byte range of the pool lies in the share of a partition (R405). -/
def State.inShare (s : State) (p : Fin 4) (a n : Nat) : Bool :=
  if p = 0 then
    (s.sec.grants.toList.drop 1).all fun g => !rangesMeet a n (16384 * g.poolBase) (16384 * g.poolPecks)
  else decide (16384 * s.sec.grants[p].poolBase ≤ a ∧ a + n ≤ 16384 * (s.sec.grants[p].poolBase + s.sec.grants[p].poolPecks))

/-- The tensor at the slot that the handoff record names (R174). -/
def State.atSlot (s : State) (t : Tensor) : Tensor := { t with addr := t.addr + s.poolVal (t.handoff + 16) 2 * t.slotBytes }
/-- An operand whose slot, as its handoff record gives it, lies outside the pool or outside the partition's share: the access fails
(R405). The operand is one access (DESIGN CHOICE, log 65). -/
def State.astray (s : State) (p : Fin 4) (t : Tensor) : Bool :=
  let u := s.atSlot t
  decide (t.mode ≠ 0 ∧ s.poolVal (t.handoff + 2) 2 ≠ 0) &&
    !(decide (poolBase ≤ u.addr ∧ u.addr + u.extent ≤ poolBase + poolSize) && s.inShare p (u.addr - poolBase) u.extent)

/-- The tensor with its address from the handoff record it names (R174); none reads as zero: the record hands over nothing, or the
access fails. -/
def State.resolve (s : State) (p : Fin 4) (t : Tensor) : Option Tensor :=
  if t.mode = 0 then some t
  else if s.poolVal (t.handoff + 2) 2 = 0 ∨ s.astray p t then none
  else some (s.atSlot t)

/-- The first failed access of a span recorded (R405): the partition, the target, and the address. -/
def State.isolation (s : State) (p : Fin 4) (target : Nat) (ts : List Tensor) : State :=
  match ts.find? (s.astray p) with
  | none => s
  | some t =>
    if s.sec.isolationSeen then s
    else State.event { s with sec := { s.sec with isolationSeen := true } } 0x12 0x1209 p.val target ((s.atSlot t).addr % 2 ^ 32)

/-- The pattern of an element at a base and an index, in a memory. -/
def State.rawAt (s : State) (code base i : Nat) : Nat :=
  match fmtBits code with
  | 4 => s.memVal (base + i / 2) 1 / 16 ^ (i % 2) % 16
  | 6 => s.memVal (base + i / 4 * 3) 3 / 64 ^ (i % 4) % 64
  | b => s.memVal (base + i * (b / 8)) (b / 8)

/-- The number of a block scale byte (R186). -/
def scaleNum (b : Nat) : Num := if b = 0xFF then .nan else .fin false 1 ((b : Int) - 127)

/-- The number of an element of a tensor. -/
def State.elem (s : State) (t : Tensor) (h w c : Nat) : Num :=
  let i := t.index w c
  let v := decodeElem t.format t.frac (s.rawAt t.format (t.addr + h * t.stride) i)
  if fmtMx t.format then Num.mul v (scaleNum (s.memVal (t.plane + h * t.scaleStride + i / 32) 1)) else v

/-! ## Conversions (R188 to R192) -/

/-- One draw of a stochastic generator: its state, and 16 bits. -/
def stochNext (s : Dword) : Dword × Nat :=
  let s := s ^^^ (s >>> 12)
  let s := s ^^^ (s <<< 25)
  let s := s ^^^ (s >>> 27)
  (s, ((s * 0x2545F4914F6CDD1D) >>> 48).toNat)

/-- A generator's state at a span start: family, span count, core and unit. -/
def stochSeed (family : Nat) (span : Dword) (core unit : Nat) : Dword :=
  let s := BitVec.ofNat 64 family ^^^ (span * 0x9E3779B97F4A7C15) ^^^ (BitVec.ofNat 64 (2 * core + unit) <<< 56)
  if s = 0 then 1 else s

/-- A magnitude m x 2^e in units of the format's spacing: rounded to nearest, ties to even, or by a draw. The answer is the
pattern that the format would give it, were its exponents unbounded. -/
def SmallFmt.magnitude (f : SmallFmt) (m : Nat) (e : Int) (r : Option Nat) : Nat :=
  if m = 0 then 0
  else
    let top : Int := e + bitLen m - 1
    let qe := max top (1 - (f.bias : Int)) - f.mb
    let q :=
      if qe ≤ e then m * 2 ^ (e - qe).toNat
      else
        match r with
        | none => rneShift m (qe - e).toNat
        | some r =>
          let v := m * 65536 / 2 ^ (qe - e).toNat
          v / 65536 + (if 65536 ≤ v % 65536 + r then 1 else 0)
    ((qe + f.mb + f.bias - 1).toNat) * 2 ^ f.mb + q

/-- The infinity of a floating format code, if it has one. -/
def infPat (code : Nat) : Option Nat :=
  match code with
  | 0x07 => some 0x7C
  | 0x08 => some 0x7C00
  | 0x09 => some 0x7F80
  | 0x0A => some 0x7F800000
  | _ => none

/-- A number in a floating format, and whether it counts as saturated (R189). -/
def toFloat (code : Nat) (f : SmallFmt) (y : Num) (r : Option Nat) : Nat × Bool :=
  let sgn (neg : Bool) : Nat := b2n neg * 2 ^ (f.eb + f.mb)
  match y with
  | .nan => (nanPat code, false)
  | .inf neg => (sgn neg + (infPat code).getD f.maxPat, false)
  | .fin neg m e =>
    let p := f.magnitude m e r
    if p ≤ f.maxPat then (sgn neg + p, false)
    else if code = 0x06 ∨ code = 0x07 then (sgn neg + f.maxPat, true)
    else (sgn neg + (infPat code).getD f.maxPat, true)

/-- The range of an integer format, or of FX32 in its steps. -/
def intRange (code : Nat) : Int × Int :=
  match code with
  | 0x00 => (-8, 7)
  | 0x01 => (-128, 127)
  | 0x02 => (0, 255)
  | 0x03 => (-32768, 32767)
  | _ => (-2147483648, 2147483647)

/-- An integer held to a format's range, and whether it was beyond. -/
def clampInt (code : Nat) (v : Int) : Int × Bool :=
  let (lo, hi) := intRange code
  if v < lo then (lo, true) else if hi < v then (hi, true) else (v, false)

/-- A number in an integer format, or in FX32. -/
def toInteger (code frac : Nat) (y : Num) : Nat × Bool :=
  let (lo, hi) := intRange code
  match y with
  | .nan => (0, true)
  | .inf neg => (patOf (fmtBits code) (if neg then lo else hi), true)
  | .fin neg m e =>
    let c := clampInt code (Num.toIntRne (.fin neg m (e + (if code = 0x05 then (frac : Int) else 0))))
    (patOf (fmtBits code) c.1, c.2)

/-- A number in a format that is not MX, with a draw for stochastic rounding: the pattern, and whether it saturates. -/
def convertOut (code frac : Nat) (y : Num) (r : Option Nat) : Nat × Bool :=
  match smallOf code with
  | some f => toFloat code f y r
  | none => toInteger code frac y

/-- A value draws a random number: it is finite and not zero (R191). -/
def drawsRandom : Num → Bool
  | .fin _ m _ => decide (m ≠ 0)
  | _ => false

/-- Values converted in order: the patterns, which of them saturated, and the generator after its draws. -/
def convertAll (code frac : Nat) (stoch : Bool) : Dword → List Num → List Nat × List Bool × Dword
  | g, [] => ([], [], g)
  | g, y :: ys =>
    let d := stoch && drawsRandom y
    let (g', r) := if d then (let n := stochNext g; (n.1, some n.2)) else (g, none)
    let p := convertOut code frac y r
    let rest := convertAll code frac stoch g' ys
    (p.1 :: rest.1, p.2 :: rest.2.1, rest.2.2)

/-- Patterns packed in bytes, 4 or 6 bits or whole bytes each; a half byte left over keeps what lies there. -/
def packElems (bits old : Nat) : List Nat → List Byte
  | [] => []
  | [a] => if bits = 4 then [BitVec.ofNat 8 (old / 16 * 16 + a)] else natLe (bits / 8) a
  | a :: b :: rest =>
    if bits = 4 then BitVec.ofNat 8 (a + 16 * b) :: packElems bits old rest
    else if bits = 6 then
      match rest with
      | c :: d :: rest' => natLe 3 (a + 64 * b + 4096 * c + 262144 * d) ++ packElems bits old rest'
      | _ => []
    else natLe (bits / 8) a ++ packElems bits old (b :: rest)

/-! ## MX blocks (R190) -/

/-- The magnitude of the largest finite value. -/
def largestOf (ys : List Num) : Num :=
  ys.foldl (fun a y =>
    match y with
    | .fin _ m e => if Num.lt a (.fin false m e) then .fin false m e else a
    | _ => a) (.fin false 0 0)

/-- ⌊log2⌋ of a magnitude that is not zero. -/
def floorLog2 : Num → Int
  | .fin _ m e => e + bitLen m - 1
  | _ => 0

/-- An element of a block in its element type, and whether it saturates. -/
def mxElem (code : Nat) (y : Num) : Nat × Bool :=
  match smallOf code with
  | some f =>
    match y with
    | .fin neg m e =>
      let p := f.magnitude m e none
      (b2n neg * 2 ^ (f.eb + f.mb) + min p f.maxPat, decide (f.maxPat < p))
    | _ => (0, false)
  | none =>
    match y with
    | .fin neg m e =>
      let v := Num.toIntRne (.fin neg m (e + 6))
      let v' := max (-127) (min 127 v)
      (patOf 8 v', decide (v ≠ v'))
    | _ => (0, false)

/-- A block of 32 values: its scale byte, its element patterns and which of them saturated. -/
def mxBlock (code : Nat) (ys : List Num) : Nat × List Nat × List Bool :=
  let special := ys.any fun y => match y with | .fin _ _ _ => false | _ => true
  let m := largestOf ys
  if special then (0xFF, ys.map fun _ => 0, ys.map fun _ => false)
  else if Num.eqv m (.fin false 0 0) then (0x7F, ys.map fun _ => 0, ys.map fun _ => false)
  else
    let ex := max (-127) (min 127 (floorLog2 m - (if code = 0x0E then 0 else 2)))
    let es := ys.map fun y => mxElem code (Num.mul y (.fin false 1 (-ex)))
    ((ex + 127).toNat, es.map (·.1), es.map (·.2))

end Sys2Proof.Machine
end

