-- ==== Sys2Proof/Machine/Ife.lean ====
section
/-!
DEFINITION. The inertial front end: filter sets, the chain, output records, `SYNC_IN` and the encoders (chapter 5).
-/
namespace Sys2Proof.Machine

/-! ## The filter set (R110, R111, R115, R117) -/

/-- `IN_PERIOD_NS` -/
def fsIn (f : List Byte) : Nat := fieldAt f 0 4
/-- `OUT_PERIOD_NS` -/
def fsOut (f : List Byte) : Nat := fieldAt f 4 4
/-- `OUT_LAT_NS` -/
def fsLat (f : List Byte) : Nat := fieldAt f 8 4
/-- `HB_STAGES` -/
def fsStages (f : List Byte) : Nat := fieldAt f 12 1
/-- `TRK_SHIFT` -/
def fsShift (f : List Byte) : Nat := fieldAt f 13 1
/-- `GYRO_FRAC` -/
def fsGyro (f : List Byte) : Nat := fieldAt f 14 1
/-- `ACCEL_FRAC` -/
def fsAccel (f : List Byte) : Nat := fieldAt f 15 1
/-- The taps of a stage. -/
def fsTaps (f : List Byte) (s : Nat) : Nat := fieldAt f (16 + s) 1
/-- An entry of `AXIS_MAP`. -/
def fsAxis (f : List Byte) (a : Nat) : Nat := fieldAt f (20 + 2 * a) 2
/-- A gain, Q16.16. -/
def fsGain (f : List Byte) (a : Nat) : Int := signedOf 32 (fieldAt f (32 + 4 * a) 4)
/-- A half-band coefficient, Q1.17. -/
def fsHb (f : List Byte) (s i : Nat) : Int := signedOf 18 (fieldAt f (64 + 32 * s + 4 * i) 4)
/-- A resampler coefficient, Q2.16. -/
def fsRs (f : List Byte) (p j : Nat) : Int := signedOf 18 (fieldAt f (192 + 64 * p + 4 * j) 4)

/-- Field ranges of R111 (check 3). -/
def fsRanges (f : List Byte) : Bool :=
  let ext (v : Nat) : Bool := decide (signedOf 32 v = signedOf 18 v)
  decide (15625 ≤ fsIn f ∧ fsIn f ≤ 1000000 ∧ 125000 ≤ fsOut f ∧ fsOut f ≤ 1000000 ∧ fsLat f ≤ 10000000 ∧ fsStages f ≤ 4
    ∧ 2 ≤ fsShift f ∧ fsShift f ≤ 10 ∧ fsGyro f ≤ 31 ∧ fsAccel f ≤ 31)
  && (List.range (fsStages f)).all (fun s =>
      decide (fsTaps f s ∈ [7, 11, 15, 19, 23, 27, 31]) &&
      (List.range 8).all fun i => ext (fieldAt f (64 + 32 * s + 4 * i) 4) &&
        (decide (i ≤ (fsTaps f s - 3) / 4) || decide (fsHb f s i = 0)))
  && (List.range 4112).all fun k => ext (fieldAt f (192 + 4 * k) 4)

/-- Reserved bits and bytes are zero (check 2). -/
def fsReserved (f : List Byte) : Bool :=
  decide (fieldAt f 56 8 = 0) && (List.range 6).all fun a => decide (fsAxis f a / 256 % 64 = 0)

/-- The present axes lie within the read data (check 4). -/
def fsAxesFit (f : List Byte) (len : Nat) : Bool :=
  (List.range 6).all fun a => (fsAxis f a).testBit 14 || decide (fsAxis f a % 256 + 2 ≤ len)

/-- The headroom H of R115, in units of 2^-(17 x stages + 16). -/
def fsHeadroom (f : List Byte) : Nat :=
  let stage (s : Nat) : Nat := 65536 + 2 * (List.range 8).foldl (fun t i => t + (fsHb f s i).natAbs) 0
  let row (p : Nat) : Nat := (List.range 16).foldl (fun t j => t + (fsRs f p j).natAbs) 0
  (List.range (fsStages f)).foldl (fun t s => t * stage s) 1 * (List.range 257).foldl (fun m p => max m (row p)) 0

/-- The unit of the headroom. -/
def fsUnit (f : List Byte) : Nat := 2 ^ (17 * fsStages f + 16)

/-- The gain bound of an axis (check 7). -/
def fsGainOk (f : List Byte) (direct : Bool) (a : Nat) : Bool :=
  if direct then decide (32768 * (fsGain f a).natAbs < 2 ^ 31 * 65536)
  else decide (32768 * fsHeadroom f * (fsGain f a).natAbs < 2 ^ 31 * 65536 * fsUnit f)

/-- The least `OUT_LAT_NS`, in half nanoseconds (R117): group delay, one period, transfer time and 2,000 ns. -/
def fsMinLat (f : List Byte) (cmdLen readLen clkDiv : Nat) : Nat :=
  let period (s : Nat) := fsIn f * 2 ^ s
  let delay := (List.range (fsStages f)).foldl (fun t s => t + (fsTaps f s - 1) / 2 * period s) 0
  2 * delay + 15 * period (fsStages f) + 2 * period (fsStages f) + 2 * ((cmdLen + readLen) * 8 * clkDiv * 4) + 4000

/-! ## Inputs -/

/-- The filter set of a binding. -/
def State.filterOf (s : State) (b : IfeBinding) : List Byte := s.objBytes b.filterSet

/-- Delay lines cleared, and the input settling again (R113, R118, R121). -/
def IfeInput.restart (x : IfeInput) : IfeInput :=
  { x with lastTau := none, lastAxes := List.replicate 6 0, stages := [], outs := [], outsTaken := 0, settled := false }

/-- An input starts from empty state at a boundary (R110): its next record is the first of the grid that completes from now
on. -/
def IfeInput.start (x : IfeInput) (f : List Byte) (now : Nat) : IfeInput :=
  { x.restart with
    runs := true, period := fsIn f * 65536, seq := 0, kept := [], startDt := now, heldData := []
    nextT := ceilDiv (now - fsLat f) (fsOut f) * fsOut f }

/-- Counter c of an input advanced: `IN_DUP`, `IN_JITTER`, `IN_FILL`, `IN_GAP`, `OUT_LOST`. -/
def State.ifeCount (s : State) (n : Fin 4) (c : Fin 5) (k : Nat) : State :=
  s.updInput n fun x => { x with counts := x.counts.set c (countUp x.counts[c] k) }

/-- Every chain-mode input cleared at an instant (R121). -/
def State.clearChains (s : State) (at' : Nat) : State :=
  (List.finRange 4).foldl (fun (s : State) n =>
    match s.ife.inputs[n].binding with
    | some b => if b.direct then s else s.updInput n fun x => { x.restart with startDt := at' }
    | none => s) s

/-! ## The chain (R112 to R116) -/

/-- The axes of a record as INT16 (R112); an absent axis reads zero. -/
def axesOf (f data : List Byte) : List Half :=
  (List.range 6).map fun a =>
    let m := fsAxis f a
    if m.testBit 14 then 0
    else
      let v := (data.drop (m % 256)).take 2
      BitVec.ofNat 16 (leNat (if m.testBit 15 then v.reverse else v))

/-- A half-band stage takes a sample: every second input from the first full window gives an output (R114, R115). -/
def HbLine.step (f : List Byte) (st : Nat) (h : HbLine) (x : ChainSample) : HbLine × Option ChainSample :=
  let taps := fsTaps f st
  let line := (x :: h.line).take taps
  let taken := h.taken + 1
  let h' : HbLine := { line := line, taken := taken }
  if taken < taps ∨ (taken - taps) % 2 = 1 then (h', none)
  else
    let c := (taps - 1) / 2
    let at' (i a : Nat) : Int :=
      match (line)[i]? with
      | some y => (y.axes.getD a 0).toInt
      | none => 0
    let out (a : Nat) : BitVec 26 :=
      let sum := (List.range ((taps - 3) / 4 + 1)).foldl (fun t i =>
        t + fsHb f st i * (at' (c - (2 * i + 1)) a + at' (c + (2 * i + 1)) a)) (at' c a * 65536)
      BitVec.ofInt 26 (rneShiftInt (signedOf 44 (patOf 44 sum)) 17)
    let tau := match (line)[c]? with
      | some y => y.tau
      | none => x.tau
    (h', some { tau := tau, axes := (List.range 6).map out, filled := line.any (·.filled) })

/-- A sample through the stages that are left. -/
def chainStep (f : List Byte) : Nat → List HbLine → ChainSample → List HbLine × Option ChainSample
  | _, [], x => ([], some x)
  | st, h :: hs, x =>
    match HbLine.step f st h x with
    | (h', none) => (h' :: hs, none)
    | (h', some y) => let r := chainStep f (st + 1) hs y; (h' :: r.1, r.2)

/-- A tracked sample enters the chain (R114). -/
def IfeInput.feed (x : IfeInput) (f : List Byte) (tau : Nat) (axes : List Half) (filled : Bool) : IfeInput :=
  let sample : ChainSample := { tau := tau, axes := axes.map fun v => BitVec.ofInt 26 (v.toInt * 256), filled := filled }
  let lines := if x.stages.isEmpty then List.replicate (fsStages f) { line := [], taken := 0 } else x.stages
  let r := chainStep f 0 lines sample
  { x with
    lastTau := some tau, lastAxes := axes, stages := r.1
    outs := match r.2 with | some y => (y :: x.outs).take 1024 | none => x.outs
    outsTaken := match r.2 with | some _ => x.outsTaken + 1 | none => x.outsTaken }

/-- A sample in the interval of the tracker's second row: the next instant and period, and whether the clamp acted (R113). The error is
held in quarters, so that a clamp to P/4 is exact. -/
def trackStep (f : List Byte) (period last stamp : Nat) : Nat × Nat × Bool :=
  let p : Int := period
  let e := 4 * ((stamp : Int) - last - p)
  let c := max (-p) (min p e)
  (((last : Int) + p + rneShiftInt c (fsShift f + 2)).toNat, (p + rneShiftInt c (2 * fsShift f + 2)).toNat, decide (c ≠ e))

/-- The tracker takes a sample whose interval lies in its second row. -/
def State.trackGood (s : State) (n : Fin 4) (f : List Byte) (last stamp : Nat) (axes : List Half) : State :=
  let r := trackStep f s.ife.inputs[n].period last stamp
  let s := s.updInput n fun x => { x.feed f r.1 axes false with period := r.2.1 }
  if r.2.2 then s.ifeCount n 1 1 else s

/-- The timing tracker (R113). Stamps and instants are in units of 2^-16 ns. -/
def State.track (s : State) (n : Fin 4) (f : List Byte) (stamp : Nat) (axes : List Half) : State :=
  let x := s.ife.inputs[n]
  match x.lastTau with
  | none => s.updInput n fun x => { x.feed f stamp axes false with period := fsIn f * 65536 }
  | some last =>
    let d := (stamp : Int) - last
    let p : Int := x.period
    if 2 * d < p then s.ifeCount n 0 1
    else if 2 * d < 3 * p then s.trackGood n f last stamp axes
    else if 2 * d < 5 * p then
      let s := (s.updInput n fun x => x.feed f (last + x.period) x.lastAxes true).ifeCount n 2 1
      s.trackGood n f (last + x.period) stamp axes
    else
      let s := s.updInput n fun x => { (x.restart).feed f stamp axes false with period := fsIn f * 65536 }
      let s := s.ifeCount n 3 1
      let s := { s with ife := { s.ife with gap := true } }
      s.event 0x04 0x0404 n.val (d / 65536).toNat 0

/-! ## Output records (R116 to R120) -/

/-- What the outputs give for an instant (R116, R117): the sixteen around it, oldest first, with the phase of the instant in 2^-16; or
those of the sixteen that are there, and whether older ones lack, or newer ones. -/
inductive Window where
  | ready (line : List ChainSample) (phase : Nat)
  | part (line : List ChainSample) (older newer : Bool)

/-- The window of an instant among the outputs, newest first. -/
def windowAt (outs : List ChainSample) (t : Nat) : Window :=
  let i := (outs.findIdx? fun y => decide (y.tau ≤ t * 65536)).getD outs.length
  let line := ((outs.drop (i - 8)).take (min i 8 + 8)).reverse
  let older : Bool := decide (outs.length < i + 8)
  match outs[i]?, outs[i - 1]? with
  | some a, some b =>
    if older || decide (i < 8) then .part line older (decide (i < 8))
    else .ready line ((t * 65536 - a.tau) * 65536 / (b.tau - a.tau))
  | _, _ => .part line older (decide (i < 8))

/-- The newest input sample that the record of an instant needs: seven resampler-input periods and the stages' delay after it, in ns. -/
def needsUntil (f : List Byte) (t : Nat) : Nat :=
  (List.range (fsStages f)).foldl (fun n s => n + (fsTaps f s - 1) / 2 * (fsIn f * 2 ^ s)) (t + 7 * fsIn f * 2 ^ fsStages f)

/-- A record whose window lacks newer outputs is late: a sample that it needs has not arrived. Outputs that the start of the input
keeps from being formed are no late ones (R117, R118; DEDUCED, log 32). -/
def IfeInput.late (x : IfeInput) (f : List Byte) (t : Nat) (older newer : Bool) : Bool :=
  newer && (!older || decide ((x.lastTau.getD (x.startDt * 65536)) < needsUntil f t * 65536))

/-- The resampler's value of an axis (R116). -/
def resample (f : List Byte) (line : List ChainSample) (phase a : Nat) : Int :=
  let p := phase / 256
  let lo : Int := phase % 256
  let tap (j : Nat) : Int := signedOf 18 (patOf 18 (rneShiftInt (fsRs f p j * 256 + (fsRs f (p + 1) j - fsRs f p j) * lo) 8))
  let sum := (List.range 16).foldl (fun t j =>
    t + tap j * (match (line)[j]? with | some y => (y.axes.getD a 0).toInt | none => 0)) 0
  rneShiftInt (signedOf 48 (patOf 48 sum)) 16

/-- The gain step into FX32 (R115). -/
def gainStep (f : List Byte) (a : Nat) (v : Int) (drop : Nat) : Nat :=
  patOf 32 (rneShiftInt (signedOf 64 (patOf 64 (v * fsGain f a))) drop)

/-- The sixteen bytes before the axes of an inertial record (R119). -/
def ifeHead (t : Nat) (seq : Word) (status input : Nat) : List Byte :=
  natLe 8 t ++ natLe 4 seq.toNat ++ natLe 2 status ++ natLe 1 input ++ [0]

/-- A completed record written by the active IFE_EMIT of its input, or kept; a seventeenth displaces the oldest (R120). `slot`
is the input number of R120: 0 to 3, or 8 to 15 for an encoder. -/
def State.emitInto (s : State) (e : Emit) (r : List Byte) : State :=
  let s := s.writePool (e.ringOffset + e.written % e.ringRecs * r.length) r
  let s := s.setFlag (e.flagFirst + e.written)
  { s with ife := { s.ife with emits := s.ife.emits.map fun x => if x.input = e.input then { x with written := x.written + 1 } else x } }

/-- The active IFE_EMIT of an input that takes another record. -/
def State.emitOf (s : State) (slot : Nat) : Option Emit :=
  s.ife.emits.find? fun e => decide (e.input = slot ∧ e.written < e.flagCount ∧ s.grain ≤ e.endGrain)

/-- A completed record of an inertial input. -/
def State.ifeOutput (s : State) (n : Fin 4) (r : List Byte) : State :=
  match s.emitOf n.val with
  | some e => s.emitInto e r
  | none =>
    let kept := s.ife.inputs[n].kept ++ [r]
    if kept.length ≤ 16 then s.updInput n fun x => { x with kept := kept }
    else (s.updInput n fun x => { x with kept := kept.drop 1, lostSpan := x.lostSpan + 1 }).ifeCount n 4 1

/-- A completed record of an encoder with `ROUTE` 1. -/
def State.encOutput (s : State) (e : Fin 8) (r : List Byte) : State :=
  match s.emitOf (8 + e.val) with
  | some m => s.emitInto m r
  | none =>
    let kept := s.ife.encs[e].kept ++ [r]
    if kept.length ≤ 16 then s.updEnc e fun x => { x with kept := kept }
    else s.updEnc e fun x => { x with kept := kept.drop 1, lostSpan := x.lostSpan + 1 }

/-- The records that an input, or an encoder as input 8 to 15, lost in a span, recorded as the span ends (R120, R129). -/
def State.lostEvent (s : State) (slot lost : Nat) : State := if lost = 0 then s else s.event 0x04 0x0407 slot lost 0

/-- An invalid record: its axes are free values (log 7). -/
def State.invalidRecord (s : State) (n : Fin 4) (t status : Nat) : State :=
  let (v, s) := s.draw 192
  s.ifeOutput n (ifeHead t s.ife.inputs[n].seq status n.val ++ natLe 24 v.toNat ++ List.replicate 8 0)

/-- A record with its window: valid. -/
def State.validRecord (s : State) (n : Fin 4) (f : List Byte) (t : Nat) (line : List ChainSample) (phase : Nat) : State :=
  let status := 1 + 8 * b2n (line.any (·.filled))
  let axes := (List.range 6).flatMap fun a => natLe 4 (gainStep f a (resample f line phase a) 24)
  let s := s.ifeOutput n (ifeHead t s.ife.inputs[n].seq status n.val ++ axes ++ List.replicate 8 0)
  if s.ife.inputs[n].settled then s
  else (s.updInput n fun x => { x with settled := true }).event 0x04 0x0405 n.val (t % 2 ^ 32) 0

/-- IFE_RECORD_COMPLETE: the record of the next grid instant, once it is due (R117, R118). -/
def State.ifeRecord (s : State) (n : Fin 4) : State :=
  let x := s.ife.inputs[n]
  match x.binding with
  | none => s
  | some b =>
    let f := s.filterOf b
    if !x.runs || b.direct || decide (s.dtNs < x.nextT + fsLat f) then s
    else
      let t := x.nextT
      let s :=
        if s.ife.held then s.invalidRecord n t 0x10
        else match windowAt x.outs t with
          | .ready line phase => s.validRecord n f t line phase
          | .part line older newer =>
            s.invalidRecord n t (2 * b2n older + 4 * b2n (x.late f t older newer) + 8 * b2n (line.any (·.filled)))
      s.updInput n fun x => { x with nextT := t + fsOut f, seq := x.seq + 1 }

/-! ## Arrivals (R112, R113, R124) -/

/-- A sample of a chain-mode input; during a hold, and after it, samples of the held time are discarded (R121). A hold keeps the samples
of its last microsecond, for its end is known only 1 us after the pin's fall. -/
def State.chainSample (s : State) (n : Fin 4) (b : IfeBinding) (stamp : Nat) (data : List Byte) : State :=
  let f := s.filterOf b
  if s.ife.held && decide (s.ife.holdSince ≤ stamp) then
    s.updInput n fun x => { x with heldData := (x.heldData.filter fun y => decide (s.dtNs ≤ y.1 + 1000)) ++ [(stamp, data)] }
  else if stamp < s.ife.restartAt then s
  else s.track n f (stamp * 65536) (axesOf f data)

/-- The samples of a hold's last microsecond taken up by the inputs that restart. -/
def State.takeHeld (s : State) : State :=
  (List.finRange 4).foldl (fun (s : State) n =>
    let waiting := s.ife.inputs[n].heldData
    let s := s.updInput n fun x => { x with heldData := [] }
    match s.ife.inputs[n].binding with
    | some b => waiting.foldl (fun (s : State) (y : Nat × List Byte) => s.chainSample n b y.1 y.2) s
    | none => s) s

/-- The axes of a direct-mode sample in FX32 (R124). -/
def directAxes (f data : List Byte) : List Byte :=
  ((List.range 6).zip (axesOf f data)).flatMap fun (a, v) => natLe 4 (gainStep f a v.toInt 16)

/-- The running input bound to a channel; of two, the lower one alone gets its records (DESIGN CHOICE, log 32). -/
def State.inputOf (s : State) (ch : Fin 32) : Option (Fin 4 × IfeBinding) :=
  (List.finRange 4).findSome? fun n =>
    match s.ife.inputs[n].binding with
    | some b => if s.ife.inputs[n].runs ∧ b.channel = ch then some (n, b) else none
    | none => none

/-! ## IFE_EMIT (R120) -/

/-- Kept records written first, as many as the operation has flags for. -/
def State.emitKept (s : State) (slot : Nat) : State :=
  let kept : List (List Byte) :=
    if slot < 4 then s.ife.inputs[(⟨slot % 4, Nat.mod_lt _ (by decide)⟩ : Fin 4)].kept
    else s.ife.encs[(⟨slot % 8, Nat.mod_lt _ (by decide)⟩ : Fin 8)].kept
  let r := kept.foldl (fun (a : State × List (List Byte)) r =>
    match a.1.emitOf slot with
    | some e => (a.1.emitInto e r, a.2)
    | none => (a.1, a.2 ++ [r])) (s, [])
  if slot < 4 then r.1.updInput ⟨slot % 4, Nat.mod_lt _ (by decide)⟩ fun x => { x with kept := r.2 }
  else r.1.updEnc ⟨slot % 8, Nat.mod_lt _ (by decide)⟩ fun x => { x with kept := r.2 }

/-- IFE_EMIT becomes active. -/
def State.emitStart (s : State) (n : NextOp) : State :=
  let e : Emit := { input := n.op.argA, ringOffset := n.arg 0 4, ringRecs := n.arg 4 2, flagFirst := n.arg 6 2
                    flagCount := n.arg 8 2, endGrain := n.arg 10 2, written := 0 }
  let s := { s with ife := { s.ife with emits := s.ife.emits ++ [e] } }
  (s.startOp .ife n .main 0 []).emitKept n.op.argA

/-- IFE_EMIT ends, at the end of its grain or at a boundary. -/
def State.emitEnd (s : State) (input : Nat) : State :=
  { s with ife := { s.ife with emits := s.ife.emits.filter fun e => decide (e.input ≠ input) } }

/-! ## SYNC_IN (R121 to R123) -/

/-- A hold begins. -/
def State.holdBegin (s : State) (since : Nat) : State :=
  State.clearChains { s with ife := { s.ife with held := true, holdSince := since } } since

/-- A hold ends, from an instant on, for a cause: 0 pin, 1 ignore, 2 command. -/
def State.holdEnd (s : State) (at' cause : Nat) : State :=
  let us := (at' - s.ife.holdSince) / 1000
  let s := State.clearChains { s with ife := { s.ife with held := false, stuck := false, restartAt := at' } } at'
  (s.event 0x04 0x0403 us cause 0).takeHeld

/-- The filter of `SYNC_IN` in ns, which the captured instants have subtracted (R121). -/
def syncFilterNs : Nat := 1000

/-- SYNC_IN_RISE: an edge qualifies as it has stayed high for 1 us, and its instant is the edge itself (R121, R122). -/
def State.syncRise (s : State) : State :=
  let edge := s.dtNs - syncFilterNs
  let s := { s with
    pins := { s.pins with syncIn := true }
    ife := { s.ife with syncDt := BitVec.ofNat 64 edge, syncEdges := countUp s.ife.syncEdges 1 } }
  let s := s.event 0x04 0x0401 (edge % 2 ^ 32) 0 0
  if s.ife.syncIgnore || s.ife.held then s else s.holdBegin edge

/-- SYNC_IN_RELEASE: the pin has stayed low for 1 us, and the hold ends at the fall (R121, R122). -/
def State.syncRelease (s : State) : State :=
  let s := { s with pins := { s.pins with syncIn := false } }
  if s.ife.held then s.holdEnd (s.dtNs - syncFilterNs) 0 else s

/-- IFE_SYNC_STUCK: a hold of more than 10 ms. -/
def State.syncStuck (s : State) : State :=
  if s.ife.held && s.pins.syncIn && !s.ife.stuck && decide (s.ife.holdSince + 10000000 < s.dtNs) then
    let s := { s with ife := { s.ife with stuck := true, stuckSeen := true } }
    s.event 0x04 0x0402 (s.ife.holdSince % 2 ^ 32) ((s.dtNs - s.ife.holdSince) / 1000000) 0
  else s

/-! ## Encoders (R125 to R127) -/

/-- The channel that feeds from an encoder and runs, with its descriptor. -/
def State.encChannel (s : State) (e : Fin 8) : Option (Fin 32 × List Byte) :=
  (List.finRange 32).findSome? fun ch =>
    match s.sm.chans[ch].desc with
    | some d => if s.sm.chans[ch].runs ∧ dKind d = 4 ∧ dIndex d = e.val then some (ch, d) else none
    | none => none

/-- An overspeed or a quadrature error marks the span invalid, and is recorded once in it (R126). -/
def State.encInvalid (s : State) (e : Fin 8) (quad : Bool) : State :=
  let first := !s.ife.encs[e].spanInvalid
  let s := s.updEnc e fun x => { x with
    status := x.status ||| (if quad then 2 else 1), spanInvalid := true, spanOver := x.spanOver || !quad
    invalid := if first then x.invalid ++ [(s.sched.spanStart.toNat, none)] else x.invalid
    spanQuad := x.spanQuad || quad, overspeed := if first then countUp x.overspeed 1 else x.overspeed }
  if first then s.event 0x04 0x0406 e.val (b2n quad) (s.sched.spanCount.toNat % 2 ^ 32) else s

/-- What one accepted transition counts, for a decoding: x4 counts every transition, x2 those of `ENC_A`, x1 those of `ENC_A`
while `ENC_B` is low. -/
def encDelta (flags : Nat) (onA a b : Bool) : Int :=
  let dir : Int := if (if onA then a ≠ b else a = b) then 1 else -1
  let dir := if flags.testBit 5 then -dir else dir
  match flags % 4 with
  | 0 => dir
  | 1 => if onA then dir else 0
  | _ => if onA && !b then dir else 0

/-- ENC_TRANSITION: an accepted change of the filtered levels (R125, R126). Where both lines change at once the spec does not
say which came first, so the count is free between -2 and 2 (log 7). -/
def State.encTransition (s : State) (e : Fin 8) (a b : Bool) : State :=
  let x := s.ife.encs[e]
  match s.encChannel e with
  | none => s.updEnc e fun x => { x with levelA := a, levelB := b }
  | some (_, d) =>
    let ca := decide (a ≠ x.levelA)
    let cb := decide (b ≠ x.levelB)
    let now := s.dtNs
    let near (t : Option Nat) : Bool := match t with | some t => decide (now < t + 40) | none => false
    if !ca && !cb then s
    else
      let s := if ca && cb then s.encInvalid e true else s
      let s := if near x.lastA || near x.lastB then s.encInvalid e false else s
      let r : Int × State :=
        if ca && cb then (let q := s.drawBelow 5; ((q.1 : Int) - 2, q.2))
        else (encDelta (dfield d 32 1) ca a b, s)
      r.2.updEnc e fun x => { x with
        levelA := a, levelB := b, pos := x.pos + BitVec.ofInt 32 r.1
        lastA := if ca then some now else x.lastA, lastB := if cb then some now else x.lastB }

/-- ENC_Z_EDGE: with `Z_CAPTURE`, the position and the TS32 of the edge are captured (R125). -/
def State.encIndex (s : State) (e : Fin 8) : State :=
  match s.encChannel e with
  | none => s
  | some (_, d) =>
    if (dfield d 32 1).testBit 6 then
      let now := BitVec.ofNat 32 s.dtNs
      let full := BitVec.ofNat 64 s.dtNs
      s.updEnc e fun x => { x with indexPos := x.pos, indexTs := now, indexDt := full, indexNew := true, status := x.status ||| 4 }
    else s

/-- The channel of an encoder that does not run, an enabled one or else one that has been, with its descriptor: its samples are discarded,
and counted (R90). -/
def State.encStopped (s : State) (e : Fin 8) : Option (Fin 32 × List Byte) :=
  let pick (ok : List Byte → Bool) : Option (Fin 32 × List Byte) := (List.finRange 32).findSome? fun ch =>
    match s.sm.chans[ch].desc with
    | some d => if s.sm.chans[ch].everEnabled ∧ ok d ∧ dKind d = 4 ∧ dIndex d = e.val then some (ch, d) else none
    | none => none
  (pick dEnable).or (pick fun _ => true)

/-- The first multiple of a period from an instant on. -/
def gridFrom (t period : Nat) : Nat := ceilDiv t (max 1 period) * max 1 period

/-- ENC_SAMPLE: the position sampled at a multiple of `SAMPLE_NS` (R125). -/
def State.encSampleStep (s : State) (e : Fin 8) : State :=
  let x := s.ife.encs[e]
  if s.dtNs < x.nextSample then s
  else match s.encChannel e, s.encStopped e with
  | some _, _ =>
    if x.runs then s.updEnc e fun x => { x with
      sampled := x.sampled ++ [{ instant := x.nextSample, pos := x.pos, overs := false, quad := false }]
      nextSample := x.nextSample + max 1 x.sampleNs }
    else s
  | none, some (ch, d) => (s.countDisabled ch).updEnc e fun x => { x with nextSample := gridFrom (s.dtNs + 1) (dfield d 36 4) }
  | none, none => s

/-- The 16 bytes of an encoder record's data (R127). -/
def encData (x : Encoder) (m : EncSample) (overs quad : Bool) : List Byte :=
  let ok := !overs && !quad
  natLe 4 m.pos.toNat ++ natLe 4 x.indexPos.toNat ++ natLe 4 x.indexTs.toNat
    ++ natLe 2 (b2n ok + 2 * b2n (ok && x.discont) + 4 * b2n overs + 8 * b2n quad + 16 * b2n x.indexNew) ++ [0, 0]

/-- A capture that no record has carried, 2^31 ns or more from the record that would carry it, is stale: it is not used as new, and is
counted. The device compares no other stored TS32 with a time (R43; DEDUCED, log 60). -/
def State.staleIndex (s : State) (e : Fin 8) (at_ : Nat) : State :=
  let x := s.ife.encs[e]
  if x.indexNew && decide (2 ^ 31 ≤ (dtDiff at_ x.indexDt.toNat).natAbs) then
    (s.updEnc e fun x => { x with indexNew := false }).countStale 0x04
  else s

/-- ENC_RECORD_COMPLETE: 100 ns after its instant a record completes, and goes to the pool or to the front end (R127, R105). -/
def State.encRecord (s : State) (e : Fin 8) : State :=
  match s.encChannel e, s.ife.encs[e].sampled with
  | some (ch, d), m :: rest =>
    if s.dtNs < m.instant + 100 then s
    else
      let s := s.staleIndex e m.instant
      let x := s.ife.encs[e]
      let here := decide (s.sched.spanStart.toNat ≤ m.instant)
      let overs := m.overs || (here && x.spanOver)
      let quad := m.quad || (here && x.spanQuad)
      let data := encData x m overs quad
      let dt := stampOf d m.instant
      let s := s.updEnc e fun x => { x with
        sampled := rest, indexNew := false, discont := x.discont && (overs || quad) }
      if dRoute d = 1 then
        let r := recordBytes dt data false s.sm.chans[ch].recSeq
        ((s.updChan ch fun c => { c with recSeq := countUp c.recSeq 1 }).noteArrival ch dt).encOutput e r
      else s.appendRecord ch d fun d => .ok (stampOf d m.instant, data)
  | _, _ => s

/-! ## The boundary (R110, R118, R123, R126) -/

/-- An input at a boundary, after the channels have been settled: a waiting binding whose channel runs takes effect; else the
input starts or stops with the channel of the binding in force. -/
def State.ifeInputBoundary (s : State) (n : Fin 4) : State :=
  let x := s.ife.inputs[n]
  let runs (b : IfeBinding) : Bool := s.sm.chans[b.channel].runs
  match x.nextBinding.filter runs with
  | some b =>
    let f := s.filterOf b
    let s := s.updInput n fun x => { x.start f s.dtNs with binding := some b, nextBinding := none }
    s.event 0x04 0x0408 n.val b.channel.val b.filterSet
  | none =>
    match x.binding with
    | none => s
    | some b =>
      if runs b && !x.runs then s.updInput n fun x => x.start (s.filterOf b) s.dtNs
      else if !runs b && x.runs then s.updInput n fun x => { x.restart with runs := false }
      else s

/-- An encoder at a boundary: the span's faults pass to its samples, and it runs with its channel, on the multiples of the `SAMPLE_NS` that
the boundary finds. Samples whose record is not complete as the channel stops are arrivals that it discards (R90). -/
def State.encBoundary (s : State) (e : Fin 8) : State :=
  let s := s.lostEvent (8 + e.val) s.ife.encs[e].lostSpan
  let s := s.updEnc e fun x => { x with
    sampled := x.sampled.map fun m => { m with overs := m.overs || x.spanOver, quad := m.quad || x.spanQuad }
    invalid := x.invalid.map fun r => (r.1, r.2.or (some s.sched.spanStart.toNat))
    discont := x.discont || x.spanInvalid, spanInvalid := false, spanOver := false, spanQuad := false, lostSpan := 0 }
  match s.encChannel e with
  | none =>
    let late := s.ife.encs[e].sampled
    let s := match s.encStopped e with
      | some (ch, _) => late.foldl (fun (s : State) _ => s.countDisabled ch) s
      | none => s
    s.updEnc e fun x => { x with runs := false, sampled := [] }
  | some (_, d) =>
    let period := dfield d 36 4
    let now := s.dtNs
    if s.ife.encs[e].runs then
      s.updEnc e fun x =>
        if x.sampleNs = period then x else { x with sampleNs := period, nextSample := gridFrom now period }
    else
      s.updEnc e fun x => { x with
        runs := true, kept := [], sampled := [], discont := false, lastA := none, lastB := none
        sampleNs := period, nextSample := gridFrom now period }

/-- The pin mode applied (R123): ignore ends a hold, and follow begins one if the pin is high. -/
def State.syncMode (s : State) (ignore : Bool) : State :=
  let was := s.ife.syncIgnore
  let s := { s with ife := { s.ife with syncIgnore := ignore } }
  if ignore && s.ife.held then s.holdEnd s.dtNs 1
  else if !ignore && was && s.pins.syncIn && !s.ife.held then s.holdBegin s.dtNs
  else s

/-- STREAM_SYNC and `SW_SYNC` applied: hold and release both at the boundary (R123). -/
def State.softSync (s : State) : State :=
  let s := { s with ife := { s.ife with swSync := false } }
  if s.ife.held then s else (s.holdBegin s.dtNs).holdEnd s.dtNs 2

/-- The front end at a boundary. -/
def State.ifeBoundary (s : State) : State :=
  let s := (List.finRange 4).foldl (fun (s : State) n =>
    ((s.lostEvent n.val s.ife.inputs[n].lostSpan).ifeInputBoundary n).updInput n fun x => { x with lostSpan := 0 }) s
  let s := (List.finRange 8).foldl State.encBoundary s
  if s.ife.swSync then s.softSync else s

/-! ## The rows -/

/-- IFE_RECORD_COMPLETE (R117). -/
def execIfeRecordComplete (n : Fin 4) (s : State) : Host.Outcome State Fault Refusal := .next (s.ifeRecord n)
/-- SYNC_IN_RISE (R121). Out of READY, SERVICE and FAULT the level alone is known (R444). -/
def execSyncInRise (s : State) : Host.Outcome State Fault Refusal := .next (if s.pinsDriven then s.syncRise else { s with pins := { s.pins with syncIn := true } })
/-- SYNC_IN_RELEASE (R121). -/
def execSyncInRelease (s : State) : Host.Outcome State Fault Refusal := .next (if s.dev.inReset then s else s.syncRelease)
/-- IFE_SYNC_STUCK (R122). -/
def execIfeSyncStuck (s : State) : Host.Outcome State Fault Refusal := .next s.syncStuck
/-- ENC_TRANSITION (R125, R126). -/
def execEncTransition (e : Fin 8) (a b : Bool) (s : State) : Host.Outcome State Fault Refusal := .next (s.encTransition e a b)
/-- ENC_Z_EDGE (R125). -/
def execEncZEdge (e : Fin 8) (s : State) : Host.Outcome State Fault Refusal := .next (s.encIndex e)
/-- ENC_SAMPLE (R125). -/
def execEncSample (e : Fin 8) (s : State) : Host.Outcome State Fault Refusal := .next (s.encSampleStep e)
/-- ENC_RECORD_COMPLETE (R127). -/
def execEncRecordComplete (e : Fin 8) (s : State) : Host.Outcome State Fault Refusal := .next (s.encRecord e)
/-- IFE_EMIT (R120). -/
def execIfeEmit (s : State) : Host.Outcome State Fault Refusal :=
  .next (s.tryIssue .ife 0x10 (some .main) fun n s => s.emitStart n)

end Sys2Proof.Machine
end

