-- ==== Sys2Proof/Machine/Tracks.lean ====
section
/-!
DEFINITION. The tracks of the fusion engine: the table in DRAM, the resident contexts in context SRAM, page lists, the free list, and
what a context holds (R225 to R229).
-/
namespace Sys2Proof.Machine

/-! ## Numbers whose arithmetic the spec does not fix (log 9) -/

/-- a landmark or an object after a measurement, or a new one -/
def numContext : Nat := 0x0A05

/-- Numbers of FP64 patterns. -/
def nums64 (tag : Nat) (inp : List Nat) (lo n : Nat) : List Dword :=
  (List.range n).map fun k => BitVec.ofNat 64 (fp64.unfixed tag inp (lo + k))
/-- Numbers of FP32 patterns. -/
def nums32 (tag : Nat) (inp : List Nat) (lo n : Nat) : List Word :=
  (List.range n).map fun k => BitVec.ofNat 32 (fp32.unfixed tag inp (lo + k))
/-- Numbers of 32 bits that are no FP32 patterns. -/
def rawWords (tag : Nat) (inp : List Nat) (lo n : Nat) : List Word :=
  (List.range n).map fun k => BitVec.ofNat 32 (Config.numeric tag inp (lo + k))
/-- Words as bytes. -/
def wordBytes (ws : List Word) : List Byte := ws.flatMap fun w => natLe 4 w.toNat
/-- Bytes as numbers. -/
def natsOf (bs : List Byte) : List Nat := bs.map (·.toNat)

/-! ## Counters and events (R253, R254) -/

/-- `FUS_STALE`, `FUS_NOT_RESIDENT`, `FUS_TRACK_FULL`, `FUS_INPUT_SKIPPED`, `FUS_PROJ_STALE`, `FUS_BAD_CONTEXT`. -/
def State.fusCount (s : State) (i : Fin 6) (n : Nat) : State :=
  { s with fus := { s.fus with counts := s.fus.counts.set i (countUp s.fus.counts[i] n) } }
/-- An event of the engine, while its events are enabled. -/
def State.fusEvent (s : State) (code a0 a1 a2 : Nat) : State := if s.fus.evtEn then s.event 0x0A code a0 a1 a2 else s

/-! ## Handles and contexts (R226, R227) -/

/-- The table slot of a handle. -/
def trackSlot (h : Nat) : Nat := h % 16384
/-- The generation of a handle. -/
def trackGen (h : Nat) : Nat := h / 16384 % 262144
/-- The next generation of a slot: 262,143 wraps to 1. -/
def nextGen (g : Nat) : Nat := if g = 262143 then 1 else g + 1
/-- The handle field of a context. -/
def ctxHandle (c : List Byte) : Nat := fieldAt c 0 4
/-- `KIND` -/
def ctxKind (c : List Byte) : Nat := fieldAt c 4 1
/-- `OWNER` -/
def ctxOwner (c : List Byte) : Nat := fieldAt c 7 1
/-- `LABEL` -/
def ctxLabel (c : List Byte) : Nat := fieldAt c 32 2
/-- `MISSES` -/
def ctxMisses (c : List Byte) : Nat := fieldAt c 28 4
/-- A field of a context replaced. -/
def ctxPut (c : List Byte) (o : Nat) (bs : List Byte) : List Byte := c.take o ++ bs ++ c.drop (o + bs.length)
/-- A count of 32 bits that saturates, one higher. -/
def satInc (v : Nat) : Nat := if v = 0xFFFFFFFF then v else v + 1

/-! ## The table in DRAM and the resident slots in context SRAM (R225, R226) -/

/-- The bytes of the track table. -/
def trackTableBytes : Nat := 16384 * 1024
/-- A value of a table slot's context in DRAM; 0 before the first SCHED_START has set the base. -/
def State.tableVal (s : State) (slot off n : Nat) : Nat :=
  match s.fus.tableBase with
  | some b => s.memVal (b + 1024 * slot + off) n
  | none => 0
/-- The context of a table slot in DRAM. -/
def State.tableCtx (s : State) (slot : Nat) : List Byte :=
  match s.fus.tableBase with
  | some b => s.readMem (b + 1024 * slot) 1024
  | none => List.replicate 1024 0
/-- A context written to its table slot. -/
def State.putTable (s : State) (slot : Nat) (c : List Byte) : State :=
  match s.fus.tableBase with
  | some b => s.writeMem (b + 1024 * slot) (c.take 1024)
  | none => s
/-- The table slots whose contexts are not all zero, in rising order; a context of zeros is free. -/
def State.tableSlots (s : State) : List Nat :=
  match s.fus.tableBase with
  | none => []
  | some b =>
    (s.mem.filter fun c => decide (b ≤ c.1 ∧ c.1 < b + trackTableBytes)).foldr (fun c acc =>
      let k := (c.1 - b) / 1024
      if acc.head? = some k then acc else k :: acc) []

/-- The context of a resident slot. -/
def State.sramCtx (s : State) (i : Nat) : List Byte := memReadN s.sram[(5 : Fin 10)] (1024 * i) 1024
/-- A context written to a resident slot. -/
def State.putCtx (s : State) (i : Nat) (c : List Byte) : State :=
  { s with sram := s.sram.set 5 (memWriteN s.sram[(5 : Fin 10)] (1024 * i) (c.take 1024)) }
/-- A resident slot's context changed. -/
def State.updTrack (s : State) (i : Nat) (f : List Byte → List Byte) : State := s.putCtx i (f (s.sramCtx i))

/-- The resident slot that holds a table slot's context, with the handle that it was paged in under. -/
def State.residentAt (s : State) (slot : Nat) : Option (Nat × Nat) :=
  s.fus.resident.find? fun r => decide (trackSlot r.2 = slot)
/-- The resident slots with their contexts, in rising order. -/
def State.residents (s : State) : List (Nat × List Byte) := s.fus.resident.map fun r => (r.1, s.sramCtx r.1)
/-- The handle that a table slot's context bears now, 0 for none. -/
def State.liveHandle (s : State) (slot : Nat) : Nat :=
  match s.residentAt slot with
  | some r => memNat s.sram[(5 : Fin 10)] (1024 * r.1) 4
  | none => s.tableVal slot 0 4

/-- The live contexts, as the engine holds them or as they lie in DRAM, by rising table slot. -/
def State.liveContexts (s : State) : List (List Byte) :=
  (s.tableSlots.map fun k => match s.residentAt k with
    | some r => s.sramCtx r.1
    | none => s.tableCtx k).filter fun c => decide (ctxKind c ≠ 0)

/-- The resident slot of a named handle; a stale handle and one that is not resident are skipped and counted (R226). -/
def State.findTrack (s : State) (h : Nat) : Option Nat × State :=
  if s.liveHandle (trackSlot h) ≠ h ∨ h = 0 then (none, s.fusCount 0 1)
  else
    match s.residentAt (trackSlot h) with
    | some r => (some r.1, s)
    | none => (none, s.fusCount 1 1)

/-! ## Page lists (R228) -/

/-- The occupant of a resident slot written back to its table slot, and the resident slot left empty. -/
def State.pageOut (s : State) (i : Nat) : State :=
  match mapGet s.fus.resident i with
  | none => s
  | some h =>
    let s := s.putTable (trackSlot h) (s.sramCtx i)
    { s with fus := { s.fus with resident := mapDel s.fus.resident i, leftNow := h :: s.fus.leftNow } }

/-- A context read into an empty resident slot. The run of its misses is broken, if a span has passed without it (R227). -/
def State.pageIn (s : State) (h i : Nat) : State :=
  let c := s.tableCtx (trackSlot h)
  if 2 < ctxKind c then s.fusCount 5 1
  else
    let c := if h ∈ s.fus.leftNow then c else ctxPut c 28 (natLe 4 0)
    State.putCtx { s with fus := { s.fus with resident := mapSet s.fus.resident i h } } i c

/-- An entry of a page list (R228). -/
def State.pageEntry (s : State) (h i : Nat) : State :=
  if h = 0 then s.pageOut i
  else if s.liveHandle (trackSlot h) ≠ h then s.fusCount 0 1
  else if (s.residentAt (trackSlot h)).isSome then s
  else (s.pageOut i).pageIn h i

/-- The entries of a page list: 8 bytes each, the handle, then the resident slot. -/
def State.pageList (s : State) (addr count : Nat) : State :=
  (List.range count).foldl (fun (s : State) i =>
    s.pageEntry (s.poolVal (addr + 8 * i) 4) (s.poolVal (addr + 8 * i + 4) 2 % 2048)) s

/-- Every resident context written back, as Rokan firmware does at the boundary that ends SCHED_STOP (R228). -/
def State.pageOutAll (s : State) : State := s.fus.resident.foldl (fun (s : State) r => s.pageOut r.1) s

/-! ## The free list (R226, R229) -/

/-- A slot freed: its context is free, of the next generation (R226). -/
def State.freeTrack (s : State) (h : Nat) : State :=
  let slot := trackSlot h
  let h' := nextGen (trackGen h) * 16384 + slot
  State.putTable { s with fus := { s.fus with resident := s.fus.resident.filter fun r => decide (r.2 ≠ h) } } slot
    (natLe 4 h' ++ List.replicate 1020 0)

/-- The handle that a slot would give a new track, if the slot is free. -/
def State.freeHandle (s : State) (slot : Nat) : Option Nat :=
  if (s.residentAt slot).isSome ∨ s.tableVal slot 4 1 ≠ 0 then none
  else some (max 1 (trackGen (s.tableVal slot 0 4)) * 16384 + slot)

/-- The handles of free slots in rising order, at most as many as wanted. -/
def freeScan (s : State) : Nat → Nat → Nat → List Nat
  | 0, _, _ => []
  | fuel + 1, slot, want =>
    if want = 0 then []
    else
      match s.freeHandle slot with
      | some h => h :: freeScan s fuel (slot + 1) (want - 1)
      | none => freeScan s fuel (slot + 1) want

/-- The engine's copy of the free list reloaded at a boundary (R229): empty while there is no table. -/
def State.reloadFree (s : State) : State :=
  { s with fus := { s.fus with freeList := if s.fus.tableBase.isNone then [] else freeScan s 16384 0 256, fullSpan := 0 } }

/-- A creation: the context that a handle gives, written to its table slot, or the creation dropped and counted (R229). -/
def State.createTrack (s : State) (make : Nat → List Byte) : State :=
  match s.fus.freeList with
  | h :: rest => State.putTable { s with fus := { s.fus with freeList := rest } } (trackSlot h) (make h)
  | [] => State.fusCount { s with fus := { s.fus with fullSpan := s.fus.fullSpan + 1, trackFull := true } } 2 1

/-! ## What a context holds (R227) -/

/-- The place of an entry of the covariance in its upper triangle of 12 x 12. -/
def covIndex (r c : Nat) : Nat := 12 * r - r * (r - 1) / 2 + (c - r)

/-- The mean and the covariance of a context set from numbers; a variance is not negative. -/
def ctxState (c : List Byte) (dim : Nat) (inp : List Nat) : List Byte :=
  let c := ctxPut c 40 (wordBytes (nums32 numContext inp 0 dim))
  let cells := (List.range dim).flatMap fun r => (List.range dim).filterMap fun k => if r ≤ k then some (r, k) else none
  cells.foldl (fun c (x : Nat × Nat) =>
    let i := covIndex x.1 x.2
    let v := fp32.unfixed numContext inp (100 + i)
    ctxPut c (96 + 4 * i) (natLe 4 (if x.1 = x.2 then v % 2 ^ 31 else v))) c

/-- A context after an update from an instant. -/
def ctxUpdated (c : List Byte) (dim dt : Nat) (inp : List Nat) : List Byte :=
  ctxPut (ctxPut (ctxPut (ctxState c dim inp) 8 (natLe 8 dt)) 24 (natLe 4 (satInc (fieldAt c 24 4)))) 28 (natLe 4 0)

/-- A new context: an instant, numbers for its state, its anchor, which is the acre of its position (R196), its noise, and what its
source gives. -/
def ctxNew (h kind dim owner now dt label : Nat) (conf desc extent : List Byte) (inp : List Nat) : List Byte :=
  let c := natLe 4 h ++ natLe 1 kind ++ natLe 1 1 ++ natLe 1 dim ++ natLe 1 owner ++ natLe 8 dt ++ natLe 8 now
    ++ List.replicate 8 0 ++ natLe 2 label ++ conf.take 2 ++ List.replicate (988 + (2 - (conf.take 2).length)) 0
  let c := ctxState c dim inp
  let own := ownAcre ((nums64 numContext inp 50 3).map (·.toNat))
  let c := ctxPut (ctxPut c 40 (wordBytes own.2)) 88 (natLe 6 own.1)
  let c := ctxPut c 408 (wordBytes (nums32 numContext inp 60 2))
  ctxPut (ctxPut c 416 desc) 448 extent

/-- A context whose observation of an instant has been filed under a vector ID: `PLACE_VEC`, and the `OBS` entry's. -/
def ctxFiled (c : List Byte) (obsDt id : Nat) : List Byte :=
  let c := ctxPut c 464 (natLe 8 id)
  match (List.range 16).find? fun k => decide (fieldAt c (480 + 32 * k) 8 = obsDt) with
  | some k => ctxPut c (480 + 32 * k + 24) (natLe 8 id)
  | none => c

/-- The vector ID that the filing of a track's observation got, kept against the track (R227, R292). -/
def State.noteVector (s : State) (h obsDt id : Nat) : State :=
  let s := { s with fus := { s.fus with vectors := mapSet s.fus.vectors h id } }
  if h = 0 ∨ s.liveHandle (trackSlot h) ≠ h then s
  else match s.residentAt (trackSlot h) with
    | some r => s.updTrack r.1 fun c => ctxFiled c obsDt id
    | none => s.putTable (trackSlot h) (ctxFiled (s.tableCtx (trackSlot h)) obsDt id)

end Sys2Proof.Machine
end

