-- ==== Sys2Proof/Machine/Fusion.lean ====
section
/-!
DEFINITION. The fusion engine: the ego filter, propagation, the head and its publication, updates and late items, projection, votes
and quarantine, anchoring, and the motion port (chapter 10). The filter's arithmetic, whose equations the spec does not give, is
`Config.numeric` of its operands (log 9).
-/
namespace Sys2Proof.Machine

/-! ## Numbers whose arithmetic the spec does not fix (log 9) -/

/-- the filter propagated by a record -/
def numEgo : Nat := 0x0A01
/-- the head formed from the filter and the direct-path samples -/
def numHead : Nat := 0x0A02
/-- the filter after a measurement -/
def numUpdate : Nat := 0x0A03
/-- a track or a point in a camera: in view or not, and where -/
def numView : Nat := 0x0A06
/-- a point in the map -/
def numPointMap : Nat := 0x0A07
/-- an estimate of a voted quantity -/
def numEstimate : Nat := 0x0A08
/-- the filter's estimate of a voted quantity, made without a source -/
def numOwn : Nat := 0x0A09
/-- the difference of a source from the majority -/
def numDiffer : Nat := 0x0A0A
/-- the Mahalanobis distance of a detection from an object -/
def numDistance : Nat := 0x0A0B

/-! ## The rig (R231) -/

/-- The rig object that an image names: 64 entries of 64 B. -/
def State.rigBytes (s : State) (img : Image) : List Byte :=
  match img.objects.find? fun h => decide (handleType h = 0x07) with
  | some h => s.objBytes h
  | none => []
/-- An entry of the rig. -/
def rigEntry (rig : List Byte) (i : Nat) : List Byte := (rig.drop (64 * (i % 64))).take 64
/-- Its `KIND`: 1 inertial, 2 camera, 3 lidar, 4 wheel pair. -/
def rigKind (e : List Byte) : Nat := fieldAt e 28 1
/-- The rig of partition 0's running image. -/
def State.rig (s : State) : List Byte :=
  match s.image 0 with
  | some img => s.rigBytes img
  | none => []

/-! ## The check (R248) -/

/-- A residue mismatch that is not recovered: 0 the operation unit, 1 the propagation unit. -/
def State.fusMismatch (s : State) (unit index code : Nat) : State :=
  State.fusEvent { s with fus := { s.fus with mismatch := true } } 0x0A07 unit index code

/-- A fusion operation issues; on a failed check it has no effect and sets no flag. -/
def State.fusIssue (s : State) (opcode : Nat) (chk : Check) (k : NextOp → State → State) : State :=
  s.tryIssue .fus opcode (some .main) fun n s =>
    match s.engineCheck .fus chk with
    | (none, s) => k n s
    | (some u, s) => s.fusMismatch 0 n.index u

/-! ## The filter and the head (R230, R233, R244) -/

/-- The filter as operands. -/
def Ego.nats (e : Ego) : List Nat := e.dt :: e.mean.map (·.toNat) ++ e.cov.map (·.toNat)
/-- The rows of the covariance: the error state has one dimension fewer than the nominal state, whose attitude is a quaternion. -/
def Ego.dim (e : Ego) : Nat := e.mean.length - 1
/-- An entry of the covariance. -/
def Ego.covAt (e : Ego) (r c : Nat) : Num := fp64.decode (e.cov.getD (r * e.dim + c) 0).toNat
/-- The attitude, map-from-body. -/
def Ego.attitude (e : Ego) : Quat := fp64.quat ((e.mean.drop 6).map (·.toNat))

/-- Numbers for a covariance of `n` rows: symmetric, and no variance negative. -/
def covNums (tag : Nat) (inp : List Nat) (n : Nat) : List Dword :=
  (List.range (n * n)).map fun k =>
    let r := min (k / n) (k % n)
    let c := max (k / n) (k % n)
    let v := fp64.unfixed tag inp (1000 + r * n + c)
    BitVec.ofNat 64 (if r = c then v % 2 ^ 63 else v)

/-- The filter with numbers of a kind at an instant. -/
def Ego.with_ (e : Ego) (tag : Nat) (inp : List Nat) (dt : Nat) : Ego :=
  { dt := dt, mean := nums64 tag inp 0 e.mean.length, cov := covNums tag inp e.dim }

/-- The filter carried to an instant through an inertial record, with its factor on the process noise (R232). -/
def Ego.carry (e : Ego) (rig : List Byte) (r : PropRecord) (dt : Nat) : Ego :=
  e.with_ numEgo (dt :: r.noise :: r.input :: e.nats ++ natsOf r.bytes ++ natsOf rig) dt

/-- A quaternion as a pose record shows it: normalised, scalar at least 0, in FP32 (R244). -/
def quatRecord (q : Quat) : List Word :=
  let u := q.unit
  let k : Num := .fin (Num.lt u.w (.fin false 0 0)) 1 0
  [u.w, u.v.x, u.v.y, u.v.z].map fun v => BitVec.ofNat 32 (fp32.ofNum (Num.mul k v))

/-- The root of a trace of three entries of the covariance from a row on, each with what the head's interval adds to it, in FP32. -/
def Ego.stdFrom (e : Ego) (row : Nat) (more : List Num) : Word :=
  BitVec.ofNat 32 (fp32.ofNum (Num.root ((List.range 3).foldl (fun t k =>
    Num.add t (Num.add (e.covAt (row + k) (row + k)) (more.getD k (.fin false 0 0)))) (.fin false 0 0))))

/-- Quarantine of a source for a quantity. -/
def Fusion.quarantined (f : Fusion) (q : Fin 4) (source : Nat) : Bool := f.quar[q].getLsbD source
/-- The vote source of an inertial input. -/
def inertialSource (n : Nat) : Nat := 4 + n % 4
/-- An inertial input is quarantined for yaw rate or gravity direction. -/
def Fusion.unitBad (f : Fusion) (n : Nat) : Bool :=
  f.quarantined 1 (inertialSource n) || f.quarantined 3 (inertialSource n)
/-- The input whose records propagate the filter: the primary unit, or the lowest bound unit that is not quarantined while the
primary is; the primary if every unit is (R242). -/
def Fusion.propInput (f : Fusion) : Nat :=
  if f.unitBad f.params.primary then
    ((List.range 4).find? fun n => !f.unitBad n && f.binds.any fun b => decide (b.input = n)).getD f.params.primary
  else f.params.primary
/-- The factor on the process noise: twice with a suspect prediction (R236), four times while every unit is quarantined (R242). -/
def Fusion.noiseFactor (f : Fusion) : Nat := (if f.noiseDouble then 2 else 1) * (if f.unitBad f.propInput then 4 else 1)

/-- The head formed from the filter, mean only, through the direct-path samples newer than it; with none it is the filter's own state.
Its covariance is the filter's, and the process noise over the interval (R233, R244). -/
def State.rebase (s : State) : State :=
  let e := s.fus.ego
  let direct := s.fus.direct.filter fun d => decide (e.dt < d.1)
  let dt := direct.foldl (fun m d => max m d.1) (max e.dt s.fus.head.dt)
  let last := (s.fus.inertialLog.head?.map (·.bytes)).getD []
  let inp := s.fus.noiseFactor :: e.nats ++ natsOf last ++ direct.flatMap (fun d => d.1 :: natsOf d.2) ++ natsOf s.rig
  let grown (k : Nat) : List Num :=
    if direct.isEmpty then [] else (nums64 numHead inp k 3).map fun v => Num.abs (fp64.decode v.toNat)
  let head : Head :=
    if s.fus.initialised then
      { dt := dt
        pos := if direct.isEmpty then e.mean.take 3 else nums64 numHead inp 20 3
        quat := quatRecord (if direct.isEmpty then e.attitude else fp64.quat ((nums64 numHead inp 0 4).map (·.toNat)))
        vel := if direct.isEmpty then ((e.mean.drop 3).take 3).map (fun v => BitVec.ofNat 32 (fp64.convert fp32 v.toNat))
          else nums32 numHead inp 4 3
        rate := nums32 numHead inp 7 3
        posStd := e.stdFrom 0 (grown 30)
        attStd := e.stdFrom 6 (grown 40) }
    else { s.fus.head with dt := dt }
  { s with fus := { s.fus with head := head, direct := direct } }

/-- A flag that the next record carries. -/
def State.sticky (s : State) (bit : Nat) : State :=
  { s with fus := { s.fus with sticky := s.fus.sticky ||| BitVec.ofNat 32 (2 ^ bit) } }

/-- A rebase and its record (R233). -/
def State.rebasePublish (s : State) : State := s.rebase.publish false

/-- A direct-path sample: the head is carried forward through it, and a record is published (R233, R234). -/
def State.directSample (s : State) (dt : Nat) (data : List Byte) : State :=
  if !s.schedOn || (s.image 0).isNone then s
  else
    let s := { s with fus := { s.fus with direct := s.fus.direct ++ [(dt, data)] } }
    s.rebase.publish true

/-- DT of the oldest instant that the history window holds (R238). -/
def State.historyFrom (s : State) : Nat :=
  s.sched.spanStart.toNat - s.fus.params.retroSpans * s.sched.spanGrains.toNat * 1000

/-! ## Checkpoints and votes (R238, R241) -/

/-- A checkpoint as it stands in the ring: the instant, the mean and the covariance, in 12 KiB (R238; the order is the model's, log 67). -/
def Ego.bytes (e : Ego) : List Byte := (natLe 8 e.dt ++ (e.mean ++ e.cov).flatMap fun v => natLe 8 v.toNat).take 12288

/-- The newest `n` checkpoints written to their places in the ring (R225, R237). -/
def State.storeHistory (s : State) (n : Nat) : State :=
  match s.fus.historyRun with
  | none => s
  | some (base, pages) =>
    let places := max 1 (65536 * pages / 12288)
    ((s.fus.history.take (min n places)).zipIdx).foldl (fun (s : State) x =>
      s.writeMem (base + 12288 * ((s.fus.historyNext + places - 1 - x.2) % places)) x.1.bytes) s

/-- A checkpoint of the filter in the history ring. -/
def State.checkpoint (s : State) : State :=
  State.storeHistory { s with fus := { s.fus with
    history := s.fus.ego :: s.fus.history.filter (fun e => decide (s.historyFrom ≤ e.dt)), historyNext := s.fus.historyNext + 1 } } 1

/-- Rokan firmware gives the history ring its run of partition 0's DRAM, as long as `RETRO_SPANS` asks; one of another length is given up
(R225, R238; log 67). -/
def State.placeHistory (s : State) : State :=
  let pages := historyPages s.fus.params.retroSpans
  if s.fus.historyRun.any fun r => decide (r.2 = pages) then s
  else
    let old := match s.fus.historyRun with
      | some r => s.unmapRun r.1 (65536 * r.2)
      | none => s
    let r := State.freeRun { old with fus := { old.fus with historyRun := none } } 0 0 pages
    match r.1 with
    | none => r.2
    | some b =>
      let s := r.2.unmapRun b (65536 * pages)
      State.storeHistory { s with fus := { s.fus with historyRun := some (b, pages) } } s.fus.history.length

/-- A source's estimate of a quantity in this span, one for each; a wheel pair's velocity is forward only. -/
def State.addVote (s : State) (q source : Nat) (wheel : Bool) (inp : List Nat) : State :=
  let old := s.fus.votes.filter fun v => decide (v.quantity = q ∧ v.source = source)
  let inp := q :: source :: inp ++ old.flatMap fun v => v.sigma.toNat :: v.value.map (·.toNat)
  let e : VoteEst := { quantity := q, source := source
                       value := nums32 numEstimate inp 0 (if !wheel && (q = 0 ∨ q = 3) then 3 else 1)
                       sigma := BitVec.ofNat 32 (Config.numeric numEstimate inp 3 % 0x7F800000) }
  { s with fus := { s.fus with votes := s.fus.votes.filter (fun v => decide ¬(v.quantity = q ∧ v.source = source)) ++ [e] } }

/-- Estimates of several quantities. -/
def State.addVotes (s : State) (qs : List Nat) (source : Nat) (wheel : Bool) (inp : List Nat) : State :=
  qs.foldl (fun (s : State) q => s.addVote q source wheel inp) s

/-! ## Propagation (R232) -/

/-- The binding of an input that is active at this grain. -/
def State.activeBind (s : State) (n : Nat) : Option Binding :=
  s.fus.binds.find? fun b => decide (b.input = n ∧ s.grain ≤ b.endGrain)

/-- FUS_INERTIAL binds a ring as it issues; a second one of an input waits while the first is active. -/
def State.bindRing (s : State) : State :=
  match s.nextOp .fus with
  | none => s
  | some n =>
    if (s.activeBind n.op.argA).isSome then s
    else
      s.fusIssue 0x10 .clean fun n s =>
        let b : Binding := { input := n.op.argA, ringOffset := n.arg 0 4, ringRecs := n.arg 4 2, flagFirst := n.arg 6 2
                             flagCount := n.arg 8 2, endGrain := n.arg 10 2, nextRec := 0 }
        let s := { s with fus := { s.fus with binds := s.fus.binds.filter (fun (x : Binding) => decide (x.input ≠ b.input)) ++ [b] } }
        s.doneNow .fus n.op

/-- A valid record of the unit that propagates. -/
def State.propagate (s : State) (r : List Byte) (chk : Check) : State :=
  let rec' : PropRecord := { input := s.fus.propInput, noise := s.fus.noiseFactor, bytes := r }
  let dt := max s.fus.ego.dt (fieldAt r 0 8)
  let good (s : State) : State :=
    let ego := if s.fus.initialised then s.fus.ego.carry s.rig rec' dt else { s.fus.ego with dt := dt }
    let s := { s with fus := { s.fus with
      ego := ego, propBad := false, gapSaid := false
      lastProp := if s.fus.initialised then some s.dtNs else s.fus.lastProp
      inertialLog := rec' :: s.fus.inertialLog.filter fun x => decide (s.historyFrom ≤ fieldAt x.bytes 0 8) } }
    s.checkpoint.rebasePublish
  match chk with
  | .clean => good s
  | .sramCorrected => good (s.sramCorrected 0x0A)
  | .dramCorrected a => good (s.dramCorrected (a / 64))
  | .once _ => good { s with fus := { s.fus with mismatch := true } }
  | .twice u =>
    let ego := (s.fus.history.head?).getD s.fus.ego
    let s := (State.engineFailed { s with fus := { s.fus with ego := ego, propBad := true } } 0x0A).fusMismatch 1 0 u.toNat
    s.rebasePublish
  | .sramBad a =>
    State.fatal { s with evr := { s.evr with sramUe := countUp s.evr.sramUe 1 } } false 0x10 0x1002 0x0A a.toNat 1
  | .dramBad a =>
    let s := (s.dramUncorrectable a).engineFailed 0x0A
    (State.fusMismatch { s with fus := { s.fus with propBad := true } } 1 0 0xFF).rebasePublish

/-- The next record of a binding taken as its flag is set. -/
def State.takeRecord (s : State) (n : Fin 4) (chk : Check) : State :=
  match s.activeBind n.val with
  | none => s
  | some b =>
    if b.flagCount ≤ b.nextRec || !s.flagSet (b.flagFirst + b.nextRec) || !s.inSpan then s
    else
      let r := s.readPool (b.ringOffset + b.nextRec % b.ringRecs * 48) 48
      let s := { s with fus := { s.fus with binds := s.fus.binds.map fun (x : Binding) =>
        if x.input = b.input then { x with nextRec := x.nextRec + 1 } else x } }
      if !(fieldAt r 12 2).testBit 0 then s.sticky 10
      else
        let s := if n.val = s.fus.params.primary ∧ s.fus.alignFrom.isSome then
            { s with fus := { s.fus with alignRecs := s.fus.alignRecs ++ [r] } }
          else s
        let s := s.addVotes [1, 3] (inertialSource n.val) false (natsOf r ++ natsOf s.rig)
        if n.val = s.fus.propInput then s.propagate r chk else s

/-- The gap timer expires: one record with `VALID` 0 and the last state (R248). -/
def State.gapExpire (s : State) : State :=
  match s.fus.lastProp with
  | none => s
  | some t =>
    if s.permitService && s.fus.initialised && !s.fus.gapSaid && decide (t + s.fus.params.maxGapNs < s.dtNs) then
      State.publishInvalid { s with fus := { s.fus with gapSaid := true } }
    else s

/-! ## FUS_UPDATE (R236 to R238) -/

/-- The unit status that a list's header copies, and its flags (R133, R134). -/
def State.listFlags (s : State) (addr : Nat) : Nat × Nat := (s.poolVal (addr + 20) 2, s.poolVal (addr + 22) 2)

/-- What the engine makes of an input with a header: skip it, or its factor on `NOISE` (R236). -/
def flaggedFactor (unitStatus flags : Nat) : Option Nat :=
  if !flags.testBit 2 then some 1
  else if unitStatus.testBit 3 || unitStatus.testBit 0 || unitStatus.testBit 1 then none
  else if unitStatus.testBit 2 then some 4
  else some 1

/-- An item of an update. -/
def NextOp.item (n : NextOp) (factor dt : Nat) (data : List Byte) : LateItem :=
  { kind := n.arg 4 1, source := n.arg 5 1 % 8, rig := n.arg 6 1, noise := n.arg 16 4, factor := factor, dt := dt, data := data }

/-- The span that a wheel record's DT lies in is invalid for an encoder of the wheel pair that a rig entry names: fusion drops it (R126,
R230). -/
def State.wheelInvalid (s : State) (rig : List Byte) (dt : Nat) : Bool :=
  [fieldAt rig 29 1, fieldAt rig 30 1].any fun k =>
    let e := s.ife.encs[(⟨k % 8, Nat.mod_lt _ (by decide)⟩ : Fin 8)]
    e.invalid.any fun r => decide (r.1 ≤ dt) && r.2.all fun stop => decide (dt < stop)

/-- Records of a ring as items, those whose VALID bit is set. -/
def State.ringItems (s : State) (n : NextOp) (size validAt : Nat) : List LateItem :=
  (List.range (n.arg 12 4)).filterMap fun k =>
    let r := s.readPool (n.arg 0 4 + size * k) size
    if (fieldAt r validAt 2).testBit 0 then some (n.item 1 (fieldAt r 0 8) r) else none

/-- The resident landmark that a tracker result names: a stale handle and one that is not resident are counted, and a context of another
kind is no landmark (R226, R236). -/
def State.findLandmark (s : State) (h : Nat) : Option Nat × State :=
  match s.findTrack h with
  | (some k, s) => (if ctxKind (s.sramCtx k) = 1 then some k else none, s)
  | (none, s) => (none, s)

/-- The results of a tracker list that an update takes: the run ones, at most COUNT of them. -/
def State.trackerList (s : State) (n : NextOp) : List (List Byte) :=
  let addr := n.arg 0 4
  (List.range (min (n.arg 12 4) (s.poolVal (addr + 12) 4))).map fun k => s.readPool (addr + 64 + 32 * k) 32

/-- The items of an update, none of an input that is skipped, and the state with what was skipped counted (R226, R236). A compare
record does not say why its sources were flagged, so whether it is skipped or taken with the larger noise is free (log 67). -/
def State.updateItems (s : State) (n : NextOp) : Option (List LateItem) × State :=
  let addr := n.arg 0 4
  match n.arg 4 1 with
  | 0 =>
    match flaggedFactor (s.listFlags addr).1 (s.listFlags addr).2 with
    | none => (none, s.fusCount 3 1)
    | some f =>
      let rs := s.trackerList n
      let dt := s.poolVal addr 8
      let out := (rs.filter fun r => decide (fieldAt r 16 1 = 3)).length
      let s := if s.fus.params.oowFrac * rs.length < 100 * out then
          (State.fusEvent { s with fus := { s.fus with noiseDouble := true } } 0x0A06
            (fieldAt (rigEntry (s.rigBytes n.img) (n.arg 6 1)) 29 1) out rs.length)
        else s
      let r := (rs.filter fun r => decide (fieldAt r 16 1 = 0)).foldl (fun (a : List LateItem × State) r =>
        match a.2.findLandmark (fieldAt r 0 4) with
        | (some _, s) => (a.1 ++ [n.item f dt r], s)
        | (none, s) => (a.1, s)) (([] : List LateItem), s)
      (some r.1, r.2)
  | 1 =>
    let r := s.readPool addr 256
    if fieldAt r 8 4 + fieldAt r 12 4 < 64 then (some [], s)
    else if (fieldAt r 245 1).testBit 2 then
      let (skip, s) := s.draw 1
      if skip = 1 then (none, s.fusCount 3 1) else (some [n.item 4 (fieldAt r 0 8) r], s)
    else (some [n.item 1 (fieldAt r 0 8) r], s)
  | 2 =>
    let rig := rigEntry (s.rigBytes n.img) (n.arg 6 1)
    (some ((s.ringItems n 32 28).filter fun i => !s.wheelInvalid rig i.dt), s)
  | _ => (some (s.ringItems n 48 12), s)

/-- The quantities that an input's source gives estimates of; kind 3 gives none, since the bindings of the units do (R241). -/
def votedBy (kind rig : Nat) : List Nat :=
  match kind with
  | 2 => [0, 1]
  | 3 => []
  | _ => if rig = 3 then [2] else [0, 1, 2]

/-- Quarantine leaves an input nothing to give (R242): a camera group or a lidar quarantined for any quantity, a wheel pair for
both of its own, an inertial unit for yaw rate. -/
def Fusion.shutOut (f : Fusion) (kind source : Nat) : Bool :=
  match kind with
  | 2 => f.quarantined 0 source && f.quarantined 1 source
  | 3 => f.quarantined 1 source
  | _ => f.quarantined 0 source || f.quarantined 1 source || f.quarantined 2 source || f.quarantined 3 source

/-- A late item dropped: counted for its source; the boundary records the span's (R238, R254). -/
def State.dropLate (s : State) (i : LateItem) : State :=
  let c : Fin 8 := ⟨i.source % 8, Nat.mod_lt _ (by decide)⟩
  let s := { s with fus := { s.fus with
    lateDrops := s.fus.lateDrops.set c (countUp s.fus.lateDrops[c] 1), lateSpan := s.fus.lateSpan.set c (s.fus.lateSpan[c] + 1)
    lateAge := s.fus.lateAge.set c (max s.fus.lateAge[c] ((s.dtNs - i.dt) / 1000)), lateDropped := true } }
  s.sticky 6

/-- A late item lies within the ring (R238). -/
def State.inWindow (s : State) (dt : Nat) : Bool :=
  decide (s.fus.params.retroSpans ≠ 0) && s.fus.history.any fun e => decide (e.dt ≤ dt)

/-- An item that reaches the late queue (R238). -/
def State.queueLate (s : State) (i : LateItem) : State :=
  if s.inWindow i.dt && decide (s.fus.late.length < 64) then { s with fus := { s.fus with late := s.fus.late ++ [i] } }
  else s.dropLate i

/-- What an item and its operation give the filter, as operands; a wheel pair's rows are those it is not quarantined for (R242). -/
def State.itemNats (s : State) (i : LateItem) : List Nat :=
  [i.kind, i.source, i.rig, i.noise, i.factor, b2n (s.fus.quarantined 0 i.source), b2n (s.fus.quarantined 1 i.source)]
    ++ natsOf i.data ++ natsOf s.rig

/-- The context of the landmark that an item names; an item of another kind names none. -/
def State.itemCtx (s : State) (i : LateItem) : List Byte :=
  if i.kind ≠ 0 then []
  else match s.residentAt (trackSlot (fieldAt i.data 0 4)) with
    | some r => s.sramCtx r.1
    | none => []

/-- An item applied to a filter (R236). -/
def State.takeMeasure (s : State) (e : Ego) (i : LateItem) : Ego :=
  e.with_ numUpdate (s.itemNats i ++ natsOf (s.itemCtx i) ++ e.nats) e.dt

/-- A landmark updated by a tracker result, with the posterior ego pose held fixed (R236). -/
def State.updateLandmark (s : State) (i : LateItem) : State :=
  match s.residentAt (trackSlot (fieldAt i.data 0 4)) with
  | some (k, h) =>
    if i.kind ≠ 0 ∨ h ≠ fieldAt i.data 0 4 ∨ ctxKind (s.sramCtx k) ≠ 1 then s
    else
      let s := s.updTrack k fun c => ctxUpdated c 3 i.dt (natsOf c ++ s.itemNats i ++ s.fus.ego.nats)
      { s with fus := { s.fus with observed := h :: s.fus.observed } }
  | none => s

/-- A filter on its way again through the stored records: the checkpoints written, newest first, and the items to come. -/
structure Replay where
  ego : Ego
  points : List Ego
  due : List LateItem

/-- One stored record: the items up to its instant, each at its own, then the record, then a checkpoint. -/
def State.replayRecord (s : State) (x : Replay) (r : PropRecord) : Replay :=
  let t := fieldAt r.bytes 0 8
  let now := x.due.takeWhile fun i => decide (i.dt ≤ t)
  let ego := now.foldl (fun e i => s.takeMeasure (e.carry s.rig r (max e.dt i.dt)) i) x.ego
  let ego := ego.carry s.rig r (max ego.dt t)
  { ego := ego, points := ego :: x.points, due := x.due.drop now.length }

/-- The stored records after an instant, oldest first. -/
def State.recordsAfter (s : State) (dt : Nat) : List PropRecord :=
  (s.fus.inertialLog.filter fun r => decide (dt < fieldAt r.bytes 0 8)).reverse

/-- The filter with items, in the order of their instants, applied (R237, R239): the checkpoint at or before the first is restored, the
filter goes again through every stored record and takes each item at its instant, and every checkpoint from there on is rewritten. An
item newer than the filter is applied at the filter's instant, and one older than every checkpoint at the oldest (log 67). -/
def State.retrodict (s : State) (items : List LateItem) : State :=
  match items with
  | [] => s
  | i :: _ =>
    let base := ((s.fus.history.find? fun e => decide (e.dt ≤ i.dt)).or s.fus.history.getLast?).getD s.fus.ego
    let x := (s.recordsAfter base.dt).foldl s.replayRecord { ego := base, points := [], due := items }
    let ego := x.due.foldl s.takeMeasure x.ego
    let points := x.points ++ s.fus.history.filter fun e => decide (e.dt ≤ base.dt)
    State.storeHistory { s with fus := { s.fus with ego := ego, history := if x.due.isEmpty then points else ego :: points.drop 1 } }
      (x.points.length + 1)

/-- Items in the order of their instants, ties by source. -/
def sortItems (is : List LateItem) : List LateItem :=
  sortBy (fun a b : LateItem => decide (a.dt < b.dt ∨ (a.dt = b.dt ∧ a.source ≤ b.source))) is

/-- Items applied: the ego state first, then each landmark with the posterior ego pose (R236). -/
def State.applyItems (s : State) (items : List LateItem) : State := items.foldl State.updateLandmark (s.retrodict items)

/-- FUS_UPDATE as it ends; `limit` items of it when a boundary stops it. An item older than `DUE_NS` at the issue is late. -/
def State.updateEnd (s : State) (n : NextOp) (startDt : Nat) (limit : Option Nat) : State :=
  match s.updateItems n with
  | (none, s) => s
  | (some items, s) =>
    let kind := n.arg 4 1
    let source := n.arg 5 1 % 8
    let rig := rigKind (rigEntry (s.rigBytes n.img) (n.arg 6 1))
    let items := match limit with
      | some k => items.take k
      | none => items
    let late := items.filter fun i => decide (i.dt + n.arg 8 4 < startDt)
    let now := items.filter fun i => decide (startDt ≤ i.dt + n.arg 8 4)
    let s := late.foldl State.queueLate s
    if !s.fus.initialised || now.isEmpty then s
    else
      let s := s.addVotes (votedBy kind rig) source (decide (kind = 2)) (now.flatMap s.itemNats)
      if s.fus.shutOut kind source then s
      else
        let s := s.applyItems (sortItems now)
        (if kind ≤ 1 then s.sticky 4 else s).rebasePublish

/-- A late item whose landmark is still there; a handle that is stale or not resident is skipped and counted. -/
def State.keepLate (a : List LateItem × State) (i : LateItem) : List LateItem × State :=
  if i.kind ≠ 0 then (a.1 ++ [i], a.2)
  else match a.2.findLandmark (fieldAt i.data 0 4) with
    | (some _, s) => (a.1 ++ [i], s)
    | (none, s) => (a.1, s)

/-- FUS_REPROP (R239): items that lie within the ring still, of sources that are not shut out by then (R242). -/
def State.repropEnd (s : State) : State :=
  let items := sortItems s.fus.late
  let s := { s with fus := { s.fus with late := [] } }
  let old := items.filter fun i => !s.inWindow i.dt
  let good := items.filter fun i => s.inWindow i.dt && !s.fus.shutOut i.kind i.source
  let s := old.foldl State.dropLate s
  let (good, s) := good.foldl State.keepLate (([] : List LateItem), s)
  if good.isEmpty || !s.fus.initialised then s
  else
    let s := s.applyItems good
    let s := { s with fus := { s.fus with lateCount := BitVec.ofNat 8 (min 255 good.length) } }
    (s.sticky 5).rebasePublish

/-! ## FUS_TRACK_REQ and FUS_SEED (R235) -/

/-- The unit that a flag belongs to: its channel and its slot. -/
def State.unitOfFlag (s : State) (f : Nat) : Option (Fin 32 × Slot) :=
  (List.finRange 32).findSome? fun ch =>
    (s.sm.chans[ch].slots.find? fun u => decide (u.state ≠ .free) && (unitFlags u).contains f).map fun u => (ch, u)

/-- The head as operands. -/
def Head.nats (h : Head) : List Nat :=
  h.dt :: h.pos.map (·.toNat) ++ (h.quat ++ h.vel ++ h.rate ++ [h.posStd, h.attStd]).map (·.toNat)

/-- The poses of the history that an instant lies between, as operands: the newest checkpoint at or before it, and the oldest at or
after it (R240, R250). -/
def State.posedAt (s : State) (dt : Nat) : List Nat :=
  ((s.fus.history.find? fun e => decide (dtDiff e.dt dt ≤ 0)).toList
    ++ (s.fus.history.reverse.find? fun e => decide (0 ≤ dtDiff e.dt dt)).toList).flatMap Ego.nats

/-- FUS_TRACK_REQ: a request for each resident landmark in view, predicted from the head. -/
def State.trackReqOp (s : State) (n : NextOp) : State :=
  let cam := n.arg 4 1
  let (h, s) : SrcHdr × State :=
    match s.unitOfFlag (n.arg 12 2) with
    | some (ch, u) => ({ exposureDt := u.exposureDt, seq := u.seq.toNat, unitStatus := u.status.toNat, source := ch.val }, s)
    | none =>
      let (v, s) := s.draw 64
      ({ exposureDt := v.toNat, seq := 0, unitStatus := 0, source := 0xFF }, s)
  let view : List (Nat × List Word) := s.residents.filterMap fun r =>
    let inp := cam :: h.exposureDt :: natsOf r.2 ++ s.fus.head.nats ++ natsOf s.rig
    if ctxKind r.2 = 1 ∧ Config.numeric numView inp 0 % 2 = 1 then some (ctxHandle r.2, rawWords numView inp 1 4) else none
  let run := view.take (n.arg 8 2)
  let left := view.length - run.length
  let recs := run.flatMap fun v => natLe 4 v.1 ++ wordBytes v.2 ++ List.replicate 12 0
  let s := { s with fus := { s.fus with
    requests := s.fus.requests ++ run.map fun (v : Nat × List Word) => (cam, (v.2.getD 2 0).toNat, (v.2.getD 3 0).toNat)
    inView := view.map (fun (v : Nat × List Word) => v.1) ++ s.fus.inView } }
  let out := n.arg 0 4
  s.startOp .fus n .main (64 + 20 * s.fus.resident.length)
    [poolWrite (out + 64) recs, poolWrite out (visionHdr h run.length left (b2n (decide (left ≠ 0))) 0 0 0)]

/-- A feature lies more than 2 pixels from every request of the span for its camera. -/
def clearOf (reqs : List (Nat × Nat × Nat)) (cam x y : Nat) : Bool :=
  reqs.all fun r =>
    let dx := signedOf 32 x - signedOf 32 r.2.1
    let dy := signedOf 32 y - signedOf 32 r.2.2
    decide (r.1 ≠ cam) || decide (131072 * 131072 < dx * dx + dy * dy)

/-- FUS_SEED as it ends: landmarks from features with a valid disparity (R154, R235). -/
def State.seedEnd (s : State) (n : NextOp) (limit : Option Nat) : State :=
  let feat := n.arg 0 4
  let disp := n.img16 4
  let cam := n.arg 20 1
  match flaggedFactor (s.listFlags feat).1 (s.listFlags feat).2 with
  | none => s.fusCount 3 1
  | some f =>
    let fs := (List.range (s.poolVal (feat + 12) 4)).map fun k => s.readPool (feat + 64 + 48 * k) 48
    let good := fs.filter fun r =>
      let px := (signedOf 32 (fieldAt r 0 4) / 65536).toNat
      let py := (signedOf 32 (fieldAt r 4 4) / 65536).toNat
      decide (px < disp.width ∧ py < disp.height) && decide (s.px16 disp px py < 0xFFFC)
        && clearOf s.fus.requests cam (fieldAt r 0 4) (fieldAt r 4 4)
    let good := (match limit with | some k => good.take k | none => good).take (n.arg 24 2)
    good.foldl (fun (s : State) r =>
      let px := (signedOf 32 (fieldAt r 0 4) / 65536).toNat
      let py := (signedOf 32 (fieldAt r 4 4) / 65536).toNat
      let inp := f :: cam :: s.px16 disp px py :: s.fus.ego.nats ++ s.posedAt (s.poolVal feat 8) ++ natsOf r ++ natsOf s.rig
      s.createTrack fun h => ctxNew h 1 3 n.part.val s.dtNs (s.poolVal feat 8) 0 [] ((r.drop 16).take 32) (List.replicate 12 0) inp) s

/-! ## FUS_PROJECT (R240) -/

/-- The records of a BATCH unit from its first on: the DT and the data of each (R91). -/
def unitRecords : Nat → List Byte → List (Nat × List Byte)
  | 0, _ => []
  | fuel + 1, bs =>
    if bs.length < 16 then []
    else
      let len := fieldAt bs 8 2
      (fieldAt bs 0 8, (bs.drop 16).take len) :: unitRecords fuel (bs.drop (up16 (16 + len)))

/-- The points of a record. -/
def recordPoints (stride dt : Nat) (data : List Byte) : List (Nat × List Byte) :=
  (List.range (if stride = 0 then 0 else data.length / stride)).map fun k => (dt, (data.drop (k * stride)).take stride)

/-- The units of a handoff record: slot and bytes (R95). -/
def State.handoffUnits (s : State) (addr : Nat) : List (Nat × Nat × Nat × Nat) :=
  (List.range (min 64 (s.poolVal (addr + 2) 2))).map fun i =>
    (s.poolVal (addr + 16 + 16 * i) 2, s.poolVal (addr + 18 + 16 * i) 2, s.poolVal (addr + 20 + 16 * i) 4,
      s.poolVal (addr + 24 + 16 * i) 4)

/-- FUS_PROJECT: image points or ray records after a vision header. -/
def State.projectOp (s : State) (n : NextOp) : State :=
  let hand := n.arg 0 4
  let ch : Fin 32 := ⟨s.poolVal hand 2 % 32, Nat.mod_lt _ (by decide)⟩
  let units := s.handoffUnits hand
  let stride := n.arg 28 1
  let pts : List (Nat × List Byte) := match s.sm.chans[ch].desc with
    | none => []
    | some d => units.flatMap fun (u : Nat × Nat × Nat × Nat) =>
        (unitRecords 4096 (s.readPool (dSlotBase d u.1 + 64) u.2.2.1)).flatMap fun (r : Nat × List Byte) => recordPoints stride r.1 r.2
  let at_ (p : Nat × List Byte) : Nat :=
    if n.arg 14 1 = 0xFF then p.1 else patOf 64 ((p.1 : Int) + signedOf 32 (fieldAt p.2 (n.arg 14 1) 4))
  let held (t : Nat) : Bool := (s.fus.history.any fun e => decide (e.dt ≤ t)) && (s.fus.history.any fun e => decide (t ≤ e.dt))
  let known := pts.filter fun p => held (at_ p)
  let s := s.fusCount 4 (pts.length - known.length)
  let mode := n.arg 8 1
  let expo := n.arg 20 8
  let outs := known.filterMap fun p =>
    let xyz := [n.arg 11 1, n.arg 12 1, n.arg 13 1].map fun o => fieldAt p.2 o 4
    let inp := mode :: n.arg 9 1 :: n.arg 10 1 :: n.arg 16 4 :: at_ p :: expo :: xyz
      ++ s.posedAt (at_ p) ++ s.posedAt expo ++ natsOf s.rig
    let light := if n.arg 15 1 = 0xFF then 0 else fieldAt p.2 (n.arg 15 1) 1
    if mode = 0 then
      if Config.numeric numView inp 0 % 2 = 1 then
        some (wordBytes (rawWords numView inp 1 2) ++ wordBytes (nums32 numView inp 3 1) ++ natLe 1 light ++ List.replicate 3 0)
      else none
    else
      let own := ownAcre ((nums64 numPointMap inp 10 3).map (·.toNat))
      some (wordBytes own.2 ++ wordBytes (nums32 numPointMap inp 3 1)
        ++ ((List.range 3).flatMap fun k => natLe 2 (Config.numeric numPointMap inp (4 + k) % 65536)) ++ natLe 6 own.1
        ++ List.replicate 3 (BitVec.ofNat 8 light) ++ natLe 1 5)
  let st := units.foldl (fun m u => m ||| u.2.1) 0
  let h : SrcHdr := { exposureDt := expo, seq := ((units.head?).map (·.2.2.2)).getD 0, unitStatus := st, source := ch.val }
  let out := n.arg 4 4
  s.startOp .fus n .main (64 + 30 * pts.length)
    [poolWrite (out + 64) outs.flatten, poolWrite out (visionHdr h outs.length (pts.length - outs.length) 0 0 0 0)]

/-! ## FUS_VOTE (R241 to R243) -/

/-- A squared difference of two FP32 numbers, exactly. -/
def sqDiff (a b : Word) : Num :=
  let d := Num.add (fp32.decode a.toNat) (Num.neg (fp32.decode b.toNat))
  Num.mul d d
/-- The square of an FP32 number, exactly. -/
def sq32 (a : Word) : Num := Num.mul (fp32.decode a.toNat) (fp32.decode a.toNat)

/-- Two estimates of a quantity are consistent (R242): the wheel pair's velocity is forward only, so a component is tested that
both give; directions of gravity by the angle between them, whose cosine is at least that of the bound. -/
def consistent (k : Nat) (a b : VoteEst) : Bool :=
  let bound := Num.mul (.fin false (k * k) 0) (Num.add (sq32 a.sigma) (sq32 b.sigma))
  if a.quantity = 3 then
    let dir (e : VoteEst) : Vec3 := fp32.vec (e.value.map (·.toNat))
    let u := dir a
    let v := dir b
    let angle := Num.root bound
    let inner := u.dot v
    if Num.le (.fin false 4 0) angle then decide (inner ≠ .nan)
    else
      let c := if 1069028584064966747859680373161870783301 ≤ Num.fixed angle then .fin true 1 0 else (cisOf (Num.fixed angle)).1
      Num.le (Num.mul c (Num.mul u.norm v.norm)) inner
  else (a.value.zip b.value).all fun v => Num.le (sqDiff v.1 v.2) bound

/-- The subsets of a list in the order that puts a set with the lower first member first. -/
def subsetsOf {α : Type} : List α → List (List α)
  | [] => [[]]
  | a :: l => (subsetsOf l).map (a :: ·) ++ subsetsOf l

/-- The largest set of mutually consistent sources; among equal sets, the one with the lowest source index. -/
def largestSet (k : Nat) (vs : List VoteEst) : List VoteEst :=
  (subsetsOf vs).foldl (fun best l =>
    if best.length < l.length && l.all (fun a => l.all fun b => decide (a.source = b.source) || consistent k a b) then l else best) []

/-- A source quarantined for a quantity, if it is not yet. -/
def State.quarantine (s : State) (q : Fin 4) (source : Nat) (major : List VoteEst) (v : VoteEst) : State :=
  if s.fus.quarantined q source then s
  else
    let inp := v.value.map (·.toNat) ++ major.flatMap fun m => m.value.map (·.toNat)
    let s := { s with fus := { s.fus with
      quar := s.fus.quar.set q (s.fus.quar[q] ||| (1 <<< source))
      quarOk := mapDel s.fus.quarOk (q.val * 8 + source), quarFor := mapSet s.fus.quarFor (q.val * 8 + source) 0 } }
    s.fusEvent 0x0A01 q.val source (fp32.unfixed numDiffer inp 0)

/-- The vote on one quantity (R242). -/
def State.voteOn (s : State) (q : Fin 4) : State :=
  let vs := sortBy (fun a b : VoteEst => decide (a.source ≤ b.source)) (s.fus.votes.filter fun v => decide (v.quantity = q.val))
  let k := s.fus.params.voteK
  let major := largestSet k vs
  let split : Bool :=
    decide (3 ≤ vs.length ∧ 2 * major.length ≤ vs.length) || decide (vs.length = 2 ∧ major.length < 2)
  if split then
    let s := vs.foldl (fun (s : State) v => s.quarantine q v.source [] v) s
    let s := { s with fus := { s.fus with contradiction := true } }
    (s.sticky 7).fusEvent 0x0A03 q.val (vs.foldl (fun m v => m ||| 2 ^ v.source) 0) 0
  else if 3 ≤ vs.length then
    (vs.filter fun v => !major.any fun m => decide (m.source = v.source)).foldl
      (fun (s : State) v => s.quarantine q v.source major v) s
  else s

/-- The filter's estimate of a quantity, made without a source, of as many components (R243): its operands are the filter, the newest
inertial record of another source, the rig, and what the source itself has given in this span, which is left out. -/
def State.ownEstimate (s : State) (q source parts : Nat) : VoteEst :=
  let last := ((s.fus.inertialLog.find? fun r => decide (inertialSource r.input ≠ source)).map (·.bytes)).getD []
  let own := (s.fus.votes.filter fun v => decide (v.source = source)).flatMap fun v => v.quantity :: v.sigma.toNat :: v.value.map (·.toNat)
  let inp := q :: source :: own ++ s.fus.ego.nats ++ natsOf last ++ natsOf s.rig
  { quantity := q, source := source, value := nums32 numOwn inp 0 parts
    sigma := BitVec.ofNat 32 (Config.numeric numOwn inp 3 % 0x7F800000) }

/-- A quarantined source's estimate set against the filter's (R243). -/
def State.requalifySource (s : State) (q : Fin 4) (source : Nat) : State :=
  if !s.fus.quarantined q source then s
  else
    match s.fus.votes.find? fun v => decide (v.quantity = q.val ∧ v.source = source) with
    | none => s
    | some v =>
      let key := q.val * 8 + source
      let ok := consistent s.fus.params.voteK v (s.ownEstimate q.val source v.value.length)
      let run := if ok then (mapGet s.fus.quarOk key).getD 0 + 1 else 0
      if s.fus.params.requalify ≤ run then
        let spans := (mapGet s.fus.quarFor key).getD 0
        let s := { s with fus := { s.fus with
          quar := s.fus.quar.set q (s.fus.quar[q] &&& ~~~((1 : Byte) <<< source))
          quarOk := mapDel s.fus.quarOk key, quarFor := mapDel s.fus.quarFor key } }
        s.fusEvent 0x0A02 q.val source spans
      else { s with fus := { s.fus with quarOk := mapSet s.fus.quarOk key run } }

/-- FUS_VOTE as it ends. -/
def State.voteEnd (s : State) : State :=
  let s := (List.finRange 4).foldl State.voteOn s
  (List.finRange 4).foldl (fun (s : State) q => (List.range 8).foldl (fun (s : State) c => s.requalifySource q c) s) s

/-! ## FUS_ANCHOR (R250, R251) -/

/-- The resident object that a detection is associated with: the nearest of its label and owner within `GATE`, ties to the lower
slot. -/
def State.associate (s : State) (owner : Nat) (taken : List Nat) (d : List Byte) (inp : List Nat) : Option (Nat × List Byte) :=
  let objs := s.residents.filter fun r =>
    decide (ctxKind r.2 = 2 ∧ ctxOwner r.2 = owner ∧ ctxLabel r.2 = fieldAt d 0 2 ∧ r.1 ∉ taken)
  let dist (r : Nat × List Byte) : Nat := Config.numeric numDistance (natsOf r.2 ++ inp) 0 % 0x7F800000
  let near := objs.filter fun r => decide (dist r ≤ s.fus.params.gate.toNat)
  near.foldl (fun best r =>
    match best with
    | none => some r
    | some b => if dist r < dist b then some r else best) none

/-- A matched object: updated, an observation appended, and queued for filing. -/
def State.anchorMatch (s : State) (k : Nat) (ctx : List Byte) (cam status dt : Nat) (inp : List Nat) : State :=
  let s := s.updTrack k fun c =>
    let head := fieldAt c 36 1 % 16
    let all := natsOf c ++ inp
    let obs := natLe 8 dt ++ wordBytes (nums32 numContext all 200 3) ++ natLe 1 cam ++ natLe 1 status ++ List.replicate 10 0
    ctxPut (ctxPut (ctxUpdated c 6 dt all) (480 + 32 * head) obs) 36 (natLe 1 ((head + 1) % 16))
  { s with fus := { s.fus with
    observed := ctxHandle ctx :: s.fus.observed
    filing := s.fus.filing ++ [{ track := ctxHandle ctx, dt := dt, label := ctxLabel ctx }] } }

/-- One detection: the objects taken, the objects created, and the state. The pose is that of the header's instant, from the history,
and the camera that of the operation (R250, log 67). -/
def State.anchorOne (n : NextOp) (f addr : Nat) (a : List Nat × Nat × State) (d : List Byte) : List Nat × Nat × State :=
  let s := a.2.2
  let dt := s.poolVal addr 8
  let cam := fieldAt d 4 1
  let owner := n.arg 5 1
  let depth := (fieldAt d 5 1).testBit 0
  let inp := f :: dt :: n.arg 4 1 :: natsOf d ++ s.posedAt dt ++ natsOf s.rig
  match s.associate owner a.1 d inp with
  | some (k, ctx) => (k :: a.1, a.2.1, s.anchorMatch k ctx cam (fieldAt d 5 1) dt inp)
  | none =>
    if depth ∧ a.2.1 < n.arg 8 2 then
      (a.1, a.2.1 + 1, s.createTrack fun h =>
        ctxNew h 2 6 owner s.dtNs dt (fieldAt d 0 2) ((d.drop 2).take 2) (List.replicate 32 0)
          ((List.range 3).flatMap fun k => natLe 4 (fp16.convert fp32 (fieldAt d (20 + 2 * k) 2))) inp)
    else a

/-- The resident objects of an owner that a camera has in view at an instant (R227): whether it has is free (log 67). -/
def State.objectsInView (s : State) (cam owner dt : Nat) : List Nat :=
  (s.residents.filter fun r =>
    decide (ctxKind r.2 = 2 ∧ ctxOwner r.2 = owner
      ∧ Config.numeric numView (cam :: dt :: natsOf r.2 ++ s.posedAt dt ++ natsOf s.rig) 0 % 2 = 1)).map fun r => ctxHandle r.2

/-- FUS_ANCHOR as it ends. -/
def State.anchorEnd (s : State) (n : NextOp) (limit : Option Nat) : State :=
  let addr := n.arg 0 4
  match flaggedFactor (s.listFlags addr).1 (s.listFlags addr).2 with
  | none => s.fusCount 3 1
  | some f =>
    let ds := (List.range (s.poolVal (addr + 12) 4)).map fun k => s.readPool (addr + 64 + 32 * k) 32
    let ds := match limit with
      | some k => ds.take k
      | none => ds
    let s := { s with fus := { s.fus with
      inView := s.objectsInView (n.arg 4 1) (n.arg 5 1) (s.poolVal addr 8) ++ s.fus.inView } }
    (ds.foldl (State.anchorOne n f addr) (([] : List Nat), 0, s)).2.2

/-! ## Completion, and the boundary -/

/-- What a fusion operation does as it ends: with `limit`, a boundary stops it and as much of it is done (R75). -/
def State.fusEnd (s : State) (n : NextOp) (startDt : Nat) (limit : Option Nat) : State :=
  match n.op.opcode with
  | 0x11 => s.updateEnd n startDt limit
  | 0x13 => s.seedEnd n limit
  | 0x15 => if limit.isNone then s.voteEnd else s
  | 0x16 => if limit.isNone then s.repropEnd else s
  | 0x17 => s.pageList (n.arg 0 4) (match limit with | some k => min k (n.arg 4 2) | none => n.arg 4 2)
  | 0x18 => s.anchorEnd n limit
  | _ => s

/-- The misses of a resident track at the end of a span: one more if it was in view and not observed, and else the run is broken
(R227). -/
def State.missOf (s : State) (r : Nat × Nat) : State :=
  let m := memNat s.sram[(5 : Fin 10)] (1024 * r.1 + 28) 4
  let missed : Bool := r.2 ∈ s.fus.inView && !(r.2 ∈ s.fus.observed : Bool)
  let m' := if missed then satInc m else 0
  if m' = m then s
  else { s with sram := s.sram.set 5 (memWriteN s.sram[(5 : Fin 10)] (1024 * r.1 + 28) (natLe 4 m')) }

/-- Tracks at a boundary: misses are counted, landmarks that have reached `TRACK_MAX_MISSES` are freed, and the creations dropped in
the span are recorded (R229, R254). -/
def State.trackBoundary (s : State) : State :=
  let s := s.fus.resident.foldl State.missOf s
  let gone := s.residents.filter fun r => decide (ctxKind r.2 = 1 ∧ s.fus.params.maxMisses ≤ ctxMisses r.2)
  let s := gone.foldl (fun (s : State) r => s.freeTrack (ctxHandle r.2)) s
  let s := if s.fus.fullSpan = 0 then s else s.fusEvent 0x0A05 s.fus.fullSpan 0 0
  s.reloadFree

/-- The late items dropped in a span recorded, once for each source (R238, R254). -/
def State.lateEvents (s : State) : State :=
  (List.finRange 8).foldl (fun (s : State) c =>
    if s.fus.lateSpan[c] = 0 then s else s.fusEvent 0x0A04 c.val s.fus.lateSpan[c] s.fus.lateAge[c]) s

/-- The engine at a boundary: bindings end, and what is counted by span starts again. -/
def State.fusBoundary (s : State) : State :=
  let s := s.trackBoundary.lateEvents
  { s with fus := { s.fus with
    binds := [], votes := [], noiseDouble := false, requests := [], inView := [], observed := [], leftNow := []
    lateSpan := Vector.replicate 8 0, lateAge := Vector.replicate 8 0
    quarFor := s.fus.quarFor.map fun q => (q.1, q.2 + 1)
    history := s.fus.history.filter fun e => decide (s.historyFrom ≤ e.dt) } }

/-- Rokan firmware sets the base of the track table, where it has none that it could keep (R226, log 67). -/
def State.placeTable (s : State) : State :=
  match s.fus.tableBase with
  | some _ => s
  | none => match s.freeRun 0 0 256 with
    | (some b, s) => State.fillRun { s with fus := { s.fus with tableBase := some b } } b trackTableBytes []
    | (none, s) => s

/-- The pose starts over at SCHED_START, and the track table has its base (R226, R230, R233). An average that had begun begins again
at a boundary of the new schedule. -/
def State.fusStart (s : State) : State :=
  let s := s.placeTable.placeHistory
  { s with
    fw := { s.fw with jobs := s.fw.jobs.map fun (j : Job) => match j.kind with
      | .poseAlign p _ false => { j with kind := .poseAlign p none false }
      | _ => j }
    fus := { s.fus with
      initialised := false, seq := 0, lastProp := none, propBad := false, gapSaid := false, direct := [], history := []
      inertialLog := [], late := [], votes := [], sticky := 0, lateCount := 0, binds := [], alignFrom := none, alignRecs := []
      head := Head.reset, ego := { dt := 0, mean := [], cov := [] } } }

/-! ## The motion port (R246, R247) -/

/-- The port answers: the device is powered and not in reset. -/
def State.mportUp (s : State) : Bool := !s.dev.inReset

/-- The fall of `MPORT_CS_N` binds the current buffer. -/
def State.mportFall (s : State) : State :=
  if s.pins.mportCsN && s.mportUp then
    { s with pins := { s.pins with mportCsN := false, mportMiso := some [] }, fus := { s.fus with bound := some s.fus.current } }
  else { s with pins := { s.pins with mportCsN := false } }

/-- The bytes that a command shifts out: the reply, then zeros. Only the first byte after the fall is a command. -/
def State.mportReply (s : State) (reply : List Byte) (n : Nat) : State :=
  if s.pins.mportMiso = some [] then
    { s with pins := { s.pins with mportMiso := some ((reply ++ List.replicate (n - reply.length) 0).take n) } }
  else s

/-- The buffer bound to the transaction. -/
def State.boundRecord (s : State) : List Byte :=
  match s.fus.bound with
  | some b => s.fus.bufs[b.toNat]'(by cases b <;> decide)
  | none => []

/-- The rise of `MPORT_CS_N`: the output is high-impedance, and the buffer is free. -/
def State.mportRise (s : State) : State :=
  { s with pins := { s.pins with mportCsN := true, mportMiso := none }, fus := { s.fus with bound := none } }

/-! ## The rows -/

/-- FUS_INERTIAL (R232). -/
def execFusInertial (s : State) : Host.Outcome State Fault Refusal := .next s.bindRing
/-- INERTIAL_RECORD_PROPAGATE (R232, R248). -/
def execInertialRecordPropagate (n : Fin 4) (chk : Check) (s : State) : Host.Outcome State Fault Refusal := .next (s.takeRecord n chk)
/-- FUSE cycles of an update: c for each item, and 160 for each record that it goes through again (R235). -/
def State.updateCycles (s : State) (n : NextOp) : Nat :=
  let addr := n.arg 0 4
  let again (dt : Nat) : Nat := 160 * (s.recordsAfter dt).length
  match n.arg 4 1 with
  | 0 => 64 + 80 * (s.trackerList n).length + again (s.poolVal addr 8)
  | 1 => 264 + again (s.poolVal addr 8)
  | 2 => 64 + 60 * n.arg 12 4 + again (s.poolVal addr 8)
  | _ => 64 + 40 * n.arg 12 4 + again (s.poolVal addr 8)

/-- FUSE cycles of FUS_REPROP: 160 for each record from the oldest item on, 300 for each item (R235, R239). -/
def State.repropCycles (s : State) : Nat :=
  match sortItems s.fus.late with
  | [] => 64
  | i :: is => 64 + 160 * (s.recordsAfter i.dt).length + 300 * (is.length + 1)

/-- FUS_UPDATE (R236, R237). -/
def execFusUpdate (chk : Check) (s : State) : Host.Outcome State Fault Refusal :=
  .next (s.fusIssue 0x11 chk fun n s => s.startOp .fus n .main (s.updateCycles n) [])
/-- FUS_TRACK_REQ (R235). -/
def execFusTrackReq (s : State) : Host.Outcome State Fault Refusal := .next (s.fusIssue 0x12 .clean fun n s => s.trackReqOp n)
/-- FUS_SEED (R235). -/
def execFusSeed (s : State) : Host.Outcome State Fault Refusal :=
  .next (s.fusIssue 0x13 .clean fun n s => s.startOp .fus n .main (64 + 60 * s.poolVal (n.arg 0 4 + 12) 4) [])
/-- FUS_PROJECT (R240). -/
def execFusProject (s : State) : Host.Outcome State Fault Refusal := .next (s.fusIssue 0x14 .clean fun n s => s.projectOp n)
/-- FUS_VOTE (R242). -/
def execFusVote (s : State) : Host.Outcome State Fault Refusal :=
  .next (s.fusIssue 0x15 .clean fun n s => s.startOp .fus n .main 2048 [])
/-- FUS_REPROP (R239). -/
def execFusReprop (chk : Check) (s : State) : Host.Outcome State Fault Refusal :=
  .next (s.fusIssue 0x16 chk fun n s => s.startOp .fus n .main s.repropCycles [])
/-- FUS_PAGE (R228). -/
def execFusPage (s : State) : Host.Outcome State Fault Refusal :=
  .next (s.fusIssue 0x17 .clean fun n s => s.startOp .fus n .main (200 + 16 * n.arg 4 2) [])
/-- FUS_ANCHOR (R250). -/
def execFusAnchor (s : State) : Host.Outcome State Fault Refusal :=
  .next (s.fusIssue 0x18 .clean fun n s => s.startOp .fus n .main (64 + 300 * s.poolVal (n.arg 0 4 + 12) 4) [])
/-- POSE_GAP_EXPIRY (R248). -/
def execPoseGapExpiry (s : State) : Host.Outcome State Fault Refusal := .next s.gapExpire
/-- MPORT_CS_FALL (R247). -/
def execMportCsFall (s : State) : Host.Outcome State Fault Refusal := .next s.mportFall
/-- MPORT_READ_POSE (R246): `n` bytes after the command byte. -/
def execMportReadPose (n : Nat) (s : State) : Host.Outcome State Fault Refusal := .next (s.mportReply s.boundRecord n)
/-- MPORT_READ_ID (R246). -/
def execMportReadId (n : Nat) (s : State) : Host.Outcome State Fault Refusal := .next (s.mportReply (natLe 4 0x54536440) n)
/-- MPORT_OTHER_COMMAND (R246): the port shifts out 0xFF; the bytes of the two commands that it knows are not this row's. -/
def execMportOtherCommand (op : Byte) (n : Nat) (s : State) : Host.Outcome State Fault Refusal :=
  .next (if op = 0x0B ∨ op = 0x9F then s else s.mportReply [0xFF] n)
/-- MPORT_CS_RISE (R247). -/
def execMportCsRise (s : State) : Host.Outcome State Fault Refusal := .next s.mportRise

end Sys2Proof.Machine
end

