-- ==== Sys2Proof/Machine/Cores.lean ====
section
/-!
DEFINITION. The compute cores: array and vector operations, DMA, residue checks, reruns, halts and fences (chapter 7, R459).
The device gives the results; how a network is laid out in array order is Filik's, so the place of a weight is
`Config.numeric` (log 9).
-/
namespace Sys2Proof.Machine

/-! ## Array operations (R161, R164 to R169, R193) -/

/-- the place of a weight, or of its scale, in Filik's array order; the binary point of FX32 weights -/
def numWeight : Nat := 0x1801
/-- a special function of the vector unit -/
def numSpecial : Nat := 0x1802
/-- the sign of a zero that the larger or smaller of two zeros has -/
def numZero : Nat := 0x1803

/-- The parameters of an array operation (R161). -/
structure ArrParams where
  a : Tensor
  c : Tensor
  wAddr : Nat
  wFormat : Nat
  kh : Nat
  kw : Nat
  stepX : Nat
  stepY : Nat
  pad : Nat
  relu : Bool
  stoch : Bool
  row0 : Nat
  rows : Nat
  scaleAddr : Nat
  flagsReserved : Nat
  reserved : Nat

/-- The parameters at an offset of `PARAMS`. -/
def Image.arr (img : Image) (o : Nat) : ArrParams where
  a := img.tensor o
  c := img.tensor (o + 32)
  wAddr := img.param (o + 64) 8
  wFormat := img.param (o + 72) 1
  kh := img.param (o + 73) 1
  kw := img.param (o + 74) 1
  stepX := img.param (o + 75) 1 % 16
  stepY := img.param (o + 75) 1 / 16
  pad := img.param (o + 76) 1
  relu := (img.param (o + 77) 1).testBit 0
  stoch := (img.param (o + 77) 1).testBit 1
  row0 := img.param (o + 78) 2
  rows := img.param (o + 80) 2
  scaleAddr := img.param (o + 88) 8
  flagsReserved := img.param (o + 77) 1 / 4
  reserved := img.param (o + 82) 6 + img.param (o + 96) 32

/-- N_out of a format (R159). -/
def nOut (code : Nat) : Nat :=
  match code with
  | 0x00 | 0x0C => 128
  | 0x08 | 0x09 => 32
  | 0x03 => 16
  | 0x05 | 0x0A => 8
  | _ => 64

/-- Output rows M, inner length K and columns N. -/
def ArrParams.m (p : ArrParams) (conv : Bool) : Nat := if conv then p.rows * p.c.w else p.rows
/-- K -/
def ArrParams.k (p : ArrParams) (conv : Bool) : Nat := if conv then p.kh * p.kw * p.a.c else p.a.c
/-- N -/
def ArrParams.n (p : ArrParams) : Nat := p.c.c

/-- An address lies in the pool. -/
def inPool (a : Nat) : Bool := decide (poolBase ≤ a ∧ a < poolBase + poolSize)

/-- An array operation's length in cycles (R164). -/
def arrCycles (p : ArrParams) (conv : Bool) : Nat :=
  let m := p.m conv
  let out := m * p.n * fmtBits p.c.format
  ceilDiv (p.k conv) 64 * ceilDiv p.n (nOut p.a.format) * max m 64 + 128 + ceilDiv out (8 * if inPool p.c.addr then 64 else 256)

/-- The operand element that output row `m` takes at inner index `k`: a position in the padding reads as zero. -/
def State.aElem (s : State) (p : ArrParams) (conv : Bool) (a : Option Tensor) (m k : Nat) : Num :=
  match a with
  | none => .fin false 0 0
  | some t =>
    if conv then
      let ch := k % t.c
      let x := m % p.c.w * p.stepX + k / t.c % p.kw
      let y := (p.row0 + m / p.c.w) * p.stepY + k / t.c / p.kw
      if x < p.pad ∨ y < p.pad ∨ t.w + p.pad ≤ x ∨ t.h + p.pad ≤ y then .fin false 0 0
      else s.elem t (y - p.pad) (x - p.pad) ch
    else s.elem t (m / t.w) (m % t.w) k

/-- The bytes of K x N weights in Filik's array order: the elements, and in an MX format a scale byte for each 32 of them. -/
def weightBytes (code kk n : Nat) : Nat := ceilDiv (kk * n * fmtBits code) 8 + (if fmtMx code then ceilDiv (kk * n) 32 else 0)

/-- The weight of inner index `k` and column `n`, read where Filik's array order puts it. -/
def State.wElem (s : State) (p : ArrParams) (kk k n : Nat) : Num :=
  let key := [p.wFormat, kk, p.n, k, n]
  let i := Config.numeric numWeight key 0 % max 1 (kk * p.n)
  let v := decodeElem p.wFormat (Config.numeric numWeight [p.wFormat, kk, p.n] 2 % 32) (s.rawAt p.wFormat p.wAddr i)
  if fmtMx p.wFormat then
    Num.mul v (scaleNum (s.memVal (p.wAddr + Config.numeric numWeight key 1 % max 1 (weightBytes p.wFormat kk p.n)) 1))
  else v

/-- An exact signed integer of a number that is one. -/
def Num.int : Num → Int
  | .fin neg m e => alignTo neg m e (min e 0) / (2 ^ (-(min e 0)).toNat : Nat)
  | _ => 0

/-- An element's significand bits (R167). -/
def sigBits (code : Nat) : Nat :=
  match code with
  | 0x0C => 2
  | 0x07 => 3
  | 0x06 | 0x0D => 4
  | 0x08 => 11
  | 0x0A => 24
  | _ => 8

/-- W of R167: the width of a significand product. -/
def prodBits (code : Nat) : Nat := if code = 0x0E then 15 else 2 * sigBits code

/-- The exponent that an element enters R167 with: its power of two is `e`, so a normal's is e less the fraction bits. -/
def sigExp (code : Nat) (e : Int) : Int := if code = 0x0E then e + 6 else e + (sigBits code - 1 : Nat)

/-- A block sum in floating point (R167, R193). -/
def blockSum (code : Nat) (ps : List (Num × Num)) : Num :=
  let prods := ps.map fun p => Num.mul p.1 p.2
  if prods.any fun v => v = .nan then .nan
  else
    let pos := prods.any fun v => v = .inf false
    let neg := prods.any fun v => v = .inf true
    if pos && neg then .nan
    else if pos then .inf false
    else if neg then .inf true
    else
      let w := prodBits code
      let terms : List (Bool × Nat × Int) := ps.filterMap fun p =>
        match p.1, p.2 with
        | .fin sa ma ea, .fin sb mb eb =>
          if ma * mb = 0 then none else some (sa ^^ sb, ma * mb, sigExp code ea + sigExp code eb)
        | _, _ => none
      match terms with
      | [] => .fin false 0 0
      | t :: ts =>
        let top := ts.foldl (fun e u => max e u.2.2) t.2.2
        let place (u : Bool × Nat × Int) : Int :=
          let d := (top - u.2.2).toNat
          let v : Nat := if w + d ≤ 41 then u.2.1 * 2 ^ (41 - w - d) else u.2.1 / 2 ^ (w + d - 41)
          if u.1 then -(v : Int) else v
        Num.ofInt ((t :: ts).foldl (fun acc u => acc + place u) 0) (top - (if code = 0x0E then 38 else 39)) false

/-- A sum of two integers held to a width, and whether it was beyond. -/
def satAdd (bits : Nat) (a b : Int) : Int × Bool :=
  let hi : Int := 2 ^ (bits - 1) - 1
  let lo : Int := -(2 ^ (bits - 1))
  if a + b < lo then (lo, true) else if hi < a + b then (hi, true) else (a + b, false)

/-- A list cut in blocks. -/
def chunks {α : Type} (n : Nat) : Nat → List α → List (List α)
  | 0, _ => []
  | fuel + 1, l => if l.isEmpty then [] else l.take n :: chunks n fuel (l.drop n)

/-- An accumulator entry: the number, its 32-bit word, and whether it saturated. -/
structure AccEntry where
  value : Num
  word : Nat
  sat : Bool
  /-- every product is finite -/
  finite : Bool

/-- The accumulator entry of products in K order (R166 to R169). `shift` is the FX32 shift. -/
def accumulate (code shift frac : Nat) (ps : List (Num × Num)) : AccEntry :=
  if fmtInt code then
    let r := (chunks 64 ps.length ps).foldl (fun (a : Int × Bool) b =>
      let n := satAdd 32 a.1 (b.foldl (fun t p => t + Num.int (Num.mul p.1 p.2)) 0)
      (n.1, a.2 || n.2)) ((0 : Int), false)
    { value := Num.ofInt r.1 0 false, word := patOf 32 r.1, sat := r.2, finite := true }
  else if code = 0x05 then
    let raw (v : Num) : Int := match v with
      | .fin neg m _ => if neg then -(m : Int) else m
      | _ => 0
    let r := ps.foldl (fun a p => (satAdd 64 a (rneShiftInt (raw p.1 * raw p.2) shift)).1) (0 : Int)
    let c := clampInt 0x05 r
    { value := Num.ofInt c.1 (-(frac : Int)) false, word := patOf 32 c.1, sat := c.2, finite := true }
  else
    let v := (chunks 64 ps.length ps).foldl (fun acc b => fp32.add acc (fp32.ofNum (blockSum code b))) 0
    { value := fp32.decode v, word := v, sat := false, finite := ps.all fun p => p.1.isFin && p.2.isFin }

/-- An accumulator entry as it is output before conversion to C's format (R165, R169). With a scale table every entry passes FP32; an
integer or FX32 entry without one meets an integer format or FX32 exactly (R188). RELU has no part in FX32. -/
def State.outValue (s : State) (p : ArrParams) (n : Nat) (a : AccEntry) : Num :=
  let whole (code : Nat) : Bool := fmtInt code || decide (code = 0x05)
  let y :=
    if p.scaleAddr = 0 then (if whole p.a.format && whole p.c.format then a.value else fp32.decode (fp32.ofNum a.value))
    else fp32.decode (fp32.fma (fp32.ofNum a.value) (s.memVal (p.scaleAddr + 8 * n) 4) (s.memVal (p.scaleAddr + 8 * n + 4) 4))
  if p.relu && decide (p.a.format ≠ 0x05) && Num.lt y (.fin false 0 0) then .fin false 0 0 else y

/-- The scale and the bias of a column are finite, or there is no table: an infinite one makes an infinity that no finite result rounded to
(R189). -/
def State.scaleFinite (s : State) (p : ArrParams) (n : Nat) : Bool :=
  decide (p.scaleAddr = 0) || (fp32.finite (s.memVal (p.scaleAddr + 8 * n) 4) && fp32.finite (s.memVal (p.scaleAddr + 8 * n + 4) 4))

/-- The rows of a tensor written: for each row position, its patterns from the first channel on. -/
def State.rowWrites (s : State) (t : Tensor) (cells : List (Nat × Nat)) (width : Nat) (pats : List Nat) : List MemWrite :=
  (cells.zip (chunks width cells.length pats)).map fun x =>
    let i := t.index x.1.2 0
    let base := t.addr + x.1.1 * t.stride + i * fmtBits t.format / 8
    let old := s.memVal (base + width * fmtBits t.format / 8) 1
    { space := .device, addr := base, data := packElems (fmtBits t.format) old x.2 }

/-- What an array operation writes: the output, the accumulator words, the saturated count and the generator (R165 to R169). An element
counts once, whether its conversion, its FX32 sum or FP32 on the way to it passed a limit; an INT32 entry that saturates counts once
more (R165, R189). -/
def State.arrResult (s : State) (part : Fin 4) (p : ArrParams) (conv : Bool) (g : Dword) : List MemWrite × List Nat × Nat × Dword :=
  let a := s.resolve part p.a
  let c := (s.resolve part p.c).getD p.c
  let m := p.m conv
  let kk := p.k conv
  let shift := p.a.frac + Config.numeric numWeight [p.wFormat, kk, p.n] 2 % 32 - p.c.frac
  let entries := (List.range m).flatMap fun i => (List.range p.n).map fun j =>
    accumulate p.a.format shift p.c.frac ((List.range kk).map fun k => (s.aElem p conv a i k, s.wElem p kk k j))
  let ys := ((List.range entries.length).zip entries).map fun e => s.outValue p (e.1 % max 1 p.n) e.2
  let out := convertAll c.format c.frac p.stoch g ys
  let lost := (((entries.zip ys).zip out.2.1).zipIdx).filter fun x =>
    x.1.2 || (decide (p.a.format = 0x05) && x.1.1.1.sat)
      || (x.1.1.1.finite && x.1.1.2.isInf && s.scaleFinite p (x.2 % max 1 p.n))
  let held := entries.filter fun e => fmtInt p.a.format && e.sat
  let cells := (List.range m).map fun i =>
    if conv then (p.row0 + i / c.w, i % c.w) else ((p.row0 + i) / c.w, (p.row0 + i) % c.w)
  (s.rowWrites c cells p.n out.1, entries.map (·.word), lost.length + held.length, out.2.2)

/-! ## Vector operations (R170, R171, R194) -/

/-- The sources of a function of the vector unit: one, or two. -/
def twoSources (func : Nat) : Bool := func ∈ [0x01, 0x02, 0x03, 0x04, 0x06, 0x07, 0x0A]
/-- A reduction along `DIM_C`. -/
def isReduction (func : Nat) : Bool := func ∈ [0x10, 0x11, 0x12]
/-- An integer function (R170). -/
def isIntFunc (func : Nat) : Bool := func ∈ [0x01, 0x02, 0x03, 0x06, 0x07, 0x08]
/-- Elements per cycle. -/
def vecRate (func : Nat) : Nat := if 0x20 ≤ func then 16 else 64

/-- The larger of two numbers, NaN if either is; the sign of a zero from two zeros of unlike signs is not stated. -/
def numMax (a b : Nat) : Nat :=
  let x := fp32.decode a
  let y := fp32.decode b
  if x = .nan ∨ y = .nan then fp32.nanBits
  else if Num.eqv x y then (if a = b then a else if Config.numeric numZero [a, b] 0 % 2 = 1 then a else b)
  else if Num.lt x y then b else a
/-- The smaller of two numbers. -/
def numMin (a b : Nat) : Nat :=
  let x := fp32.decode a
  let y := fp32.decode b
  if x = .nan ∨ y = .nan then fp32.nanBits
  else if Num.eqv x y then (if a = b then a else if Config.numeric numZero [a, b] 1 % 2 = 1 then a else b)
  else if Num.lt x y then a else b

/-- A special function of an FP32 pattern, and whether it is past its domain (R170): the values that the table states, and else any
result within the accuracy that it gives. -/
def special (func a : Nat) : Nat × Bool :=
  let x := fp32.decode a
  let neg := Num.lt x (.fin false 0 0)
  let zero := Num.eqv x (.fin false 0 0)
  let inf : Nat := 0x7F800000
  let nan := fp32.nanBits
  let ulp (k : Nat) (y : Num) : Nat × Bool := (fp32.bounded numSpecial [func, a] (fp32.ulps k y) y, false)
  let absolute (y : Num) : Nat × Bool := (fp32.bounded numSpecial [func, a] (.fin false 1 (-22)) y, false)
  match x with
  | .nan => (nan, false)
  | .inf s =>
    match func with
    | 0x20 => (b2n s * 2 ^ 31, false)
    | 0x21 => if s then (nan, true) else (0, false)
    | 0x22 => if s then (nan, true) else (inf, false)
    | 0x23 => if s then (0, true) else (inf, true)
    | 0x24 => if s then (nan, true) else (inf, false)
    | 0x25 | 0x26 => (nan, true)
    | 0x27 => (b2n s * 2 ^ 31 + 0x3F800000, false)
    | _ => (if s then 0 else 0x3F800000, false)
  | .fin s m e =>
    match func with
    | 0x20 => if zero then (b2n s * 2 ^ 31 + inf, true) else ulp 1 (Num.div 60 (.fin false 1 0) x)
    | 0x21 =>
      if zero then ((if s then fp32.unfixed numSpecial [func, a] 1 else inf), true)
      else if neg then (nan, true) else ulp 1 (Num.div 60 (.fin false 1 0) (Num.sqrt 60 x))
    | 0x22 => if neg then (nan, true) else (fp32.sqrt a, false)
    | 0x23 =>
      if Num.le (.fin false 128 0) x then (inf, true)
      else if Num.lt x (.fin true 149 0) then (0, true)
      else ulp 2 (exp2Of (Num.fixed x))
    | 0x24 =>
      if zero then ((if s then fp32.unfixed numSpecial [func, a] 1 else 0xFF800000), true)
      else if neg then (nan, true)
      else
        let y := log2Of m e
        if Num.le (.fin false 1 (-1)) x && Num.le x (.fin false 2 0) && Num.le (fp32.ulps 2 y) (.fin false 1 (-22)) then absolute y
        else ulp 2 y
    | 0x25 | 0x26 =>
      if Num.lt (.fin false 65536 0) (.fin false m e) then (nan, true)
      else absolute (if func = 0x25 then (cisOf (Num.fixed x)).2 else (cisOf (Num.fixed x)).1)
    | 0x27 => ulp 2 (tanhOf x)
    | _ => ulp 2 (sigmoidOf x)

/-- A function of one element in FP32: the number, and whether it is past its domain. -/
def vecFloat (func a b imm0 imm1 : Nat) : Nat × Bool :=
  match func with
  | 0x01 => (fp32.add a b, false)
  | 0x02 => (fp32.sub a b, false)
  | 0x03 => (fp32.mul a b, false)
  | 0x04 => (fp32.fma a b imm0, false)
  | 0x05 => (fp32.fma a imm0 imm1, false)
  | 0x06 => (numMax a b, false)
  | 0x07 => (numMin a b, false)
  | 0x08 => (numMin (numMax a imm0) imm1, false)
  | 0x09 => (a, false)
  | 0x0A => (if Num.lt (.fin false 0 0) (fp32.decode a) then b else imm0, false)
  | _ => special func a

/-- A function of one element in INT32, saturating, and whether it saturated. -/
def vecInt (func : Nat) (a b : Int) (imm0 imm1 : Nat) : Int × Bool :=
  let imm (p : Nat) : Int := signedOf 32 (toInteger 0x04 0 (fp32.decode p)).1
  match func with
  | 0x01 => clampInt 0x04 (a + b)
  | 0x02 => clampInt 0x04 (a - b)
  | 0x03 => clampInt 0x04 (a * b)
  | 0x06 => (max a b, false)
  | 0x07 => (min a b, false)
  | _ => (min (max a (imm imm0)) (imm imm1), false)

/-- A reduction of FP32 patterns in increasing order of c. -/
def vecReduce (func : Nat) (xs : List Nat) : Num :=
  match xs with
  | [] => .fin false 0 0
  | x :: rest =>
    match func with
    | 0x10 => fp32.decode (rest.foldl fp32.add x)
    | 0x11 => fp32.decode (rest.foldl numMax x)
    | _ =>
      let isNan (p : Nat) : Bool := decide (fp32.decode p = .nan)
      let best := ((List.range xs.length).zip xs).foldl (fun (b : Nat × Nat) e =>
        if isNan b.2 then b
        else if isNan e.2 || Num.lt (fp32.decode b.2) (fp32.decode e.2) then e else b) (0, x)
      Num.ofInt best.1 0 false

/-- The parameters of a VEC_OP (R170). -/
structure VecParams where
  src0 : Tensor
  src1 : Tensor
  dst : Tensor
  func : Nat
  stoch : Bool
  imm0 : Nat
  imm1 : Nat
  reserved : Nat

/-- The parameters at an offset of `PARAMS`. -/
def Image.vec (img : Image) (o : Nat) : VecParams where
  src0 := img.tensor o
  src1 := img.tensor (o + 32)
  dst := img.tensor (o + 64)
  func := img.param (o + 96) 1
  stoch := (img.param (o + 97) 1).testBit 0
  imm0 := img.param (o + 100) 4
  imm1 := img.param (o + 104) 4
  reserved := img.param (o + 97) 1 / 2 + img.param (o + 98) 2 + img.param (o + 108) 4

/-- An element of a source, zero for one whose handoff hands over nothing. -/
def State.srcElem (s : State) (t : Option Tensor) (h w c : Nat) : Num :=
  match t with
  | some t => s.elem t h w c
  | none => .fin false 0 0

/-- The value of one destination element, whether it is past the domain, and whether a finite result passed a limit of INT32 or of
FP32 on the way (R170, R189). -/
def State.vecElem (s : State) (p : VecParams) (s0 s1 : Option Tensor) (h w c : Nat) : Num × Bool × Bool :=
  let two := twoSources p.func
  let ints := isIntFunc p.func && fmtInt p.src0.format && (!two || fmtInt p.src1.format)
  if isReduction p.func then
    let xs := (List.range p.src0.c).map fun k => s.srcElem s0 h w k
    let y := vecReduce p.func (xs.map fp32.ofNum)
    (y, false, xs.all Num.isFin && y.isInf)
  else
    let x := s.srcElem s0 h w c
    let z := if two then s.srcElem s1 h w c else .fin false 0 0
    if ints then
      let r := vecInt p.func (Num.int x) (Num.int z) p.imm0 p.imm1
      (Num.ofInt r.1 0 false, false, r.2)
    else
      let r := vecFloat p.func (fp32.ofNum x) (fp32.ofNum z) p.imm0 p.imm1
      let y := fp32.decode r.1
      let imms := p.func ∉ [0x04, 0x05, 0x08, 0x0A] || (fp32.finite p.imm0 && (decide (p.func ∉ [0x05, 0x08]) || fp32.finite p.imm1))
      (y, r.2, !r.2 && x.isFin && z.isFin && imms && y.isInf)

/-- The positions of a tensor in order of h, then w. -/
def Tensor.cells (t : Tensor) : List (Nat × Nat) := (List.range t.h).flatMap fun h => (List.range t.w).map fun w => (h, w)

/-- An integer result that meets a floating format passes FP32 (R188). -/
def viaFp32 (code : Nat) (y : Num) : Num := if fmtInt code then y else fp32.decode (fp32.ofNum y)

/-- What a vector operation writes, its saturated and past-domain counts, and the generator. An element counts as saturated once. -/
def State.vecResult (s : State) (part : Fin 4) (p : VecParams) (g : Dword) : List MemWrite × Nat × Nat × Dword :=
  let s0 := s.resolve part p.src0
  let s1 := s.resolve part p.src1
  let d := (s.resolve part p.dst).getD p.dst
  let vs := d.cells.flatMap fun x => (List.range d.c).map fun c => s.vecElem p s0 s1 x.1 x.2 c
  let dom := (vs.filter (·.2.1)).length
  let count (marks : List Bool) : Nat := ((vs.zip marks).filter fun x => x.1.2.2 || x.2).length
  if fmtMx d.format then
    let blocks := (chunks 32 vs.length (vs.map (·.1))).map fun b => mxBlock d.format b
    let scales := (d.cells.zip (chunks (d.c / 32) d.cells.length (blocks.map (·.1)))).map fun x =>
      ({ space := .device, addr := d.plane + x.1.1 * d.scaleStride + d.index x.1.2 0 / 32
         data := x.2.map fun b => BitVec.ofNat 8 b } : MemWrite)
    (s.rowWrites d d.cells d.c (blocks.flatMap (·.2.1)) ++ scales, count (blocks.flatMap (·.2.2)), dom, g)
  else
    let out := convertAll d.format d.frac p.stoch g (vs.map fun v => viaFp32 d.format v.1)
    (s.rowWrites d d.cells d.c out.1, count out.2.1, dom, out.2.2)

/-- The elements E of a vector operation: of its sources for a reduction (R171). -/
def VecParams.elements (p : VecParams) : Nat :=
  if isReduction p.func then p.src0.h * p.src0.w * p.src0.c else p.dst.h * p.dst.w * p.dst.c

/-- The bits that a tensor of a shape moves through the pool: its elements, and the scales of an MX format. -/
def Tensor.poolBits (t : Tensor) (n : Nat) : Nat :=
  if inPool t.addr then n * fmtBits t.format + (if fmtMx t.format then n / 4 else 0) else 0

/-- A vector operation's length in cycles (R171). CVT into an MX format takes one block of 32 elements a cycle, or what the pool allows
(R190; DEDUCED, log 36). -/
def vecCycles (p : VecParams) : Nat :=
  let e := p.elements
  let pool := p.src0.poolBits e + (if twoSources p.func then p.src1.poolBits e else 0) + p.dst.poolBits (p.dst.h * p.dst.w * p.dst.c)
  max (ceilDiv e (if fmtMx p.dst.format then 32 else vecRate p.func)) (ceilDiv pool 512) + 32

/-! ## What a core does with a check's finding (R175 to R178, R420) -/

/-- An event of a core. -/
def State.coreEvent (s : State) (c : Fin 8) (code a0 a1 a2 : Nat) : State :=
  if (s.cores[c].ctrl).getLsbD 0 then s.event (0x18 + c.val) code a0 a1 a2 else s

/-- Two mismatches of a core fewer than 1,000 fence spans apart: Rokan firmware decides to fence it, and records that itself, so that
`EVT_EN` of the core has no part in it (R178, R181). -/
def State.fenceCheck (s : State) (c : Fin 8) : State :=
  let now := s.sched.fenceSpans
  let last := s.cores[c].lastFault
  let s := s.updCore c fun x => { x with lastFault := some now }
  match last with
  | some t =>
    if now - t < 1000 ∧ ¬ s.sched.fence.getLsbD c.val then
      let s := { s with sched := { s.sched with fence := s.sched.fence ||| (1 <<< c.val) } }
      s.event (0x18 + c.val) 0x1804 (now - t) (now % 2 ^ 32) 0
    else s
  | none => s

/-- A residue mismatch counted and recorded (R176). -/
def State.coreMismatch (s : State) (c : Fin 8) (index unit action : Nat) : State :=
  let s := s.updCore c fun x => { x with
    mismatch := true, mismatches := countUp x.mismatches 1, lastMismatch := BitVec.ofNat 32 (index * 256 + unit) }
  (s.coreEvent c 0x1801 index unit action).fenceCheck c

/-- An unrecovered mismatch halts the core's sequencer for the rest of the span (R177); unit 0xFF stands for a word or a line
that cannot be read (R414). -/
def State.coreHalt (s : State) (c : Fin 8) (index unit : Nat) : State :=
  let s := s.updCore c fun x => { x with haltUnread := decide (unit = 0xFF) }
  (s.onSeq (.core c) fun q => { q with halted := true }).coreEvent c 0x1803 index unit 0

/-- An operation's length in grains at a core's clock, rounded up: 400 cycles a grain at OP0, 200 more at each point above. -/
def State.grainsOf (s : State) (c : Fin 8) (cycles : Nat) : Nat := ceilDiv cycles (400 + 200 * s.pm.cores[c].op.toNat)

/-- Counts of a completed operation: saturated elements and results past the domain, with the first operation of the span that had
some, which the events at the boundary name (R180, R181). -/
def State.coreCounts (s : State) (c : Fin 8) (r : Running) : State :=
  let sat := r.aux.getD 0 0
  let dom := r.aux.getD 1 0
  s.updCore c fun x => { x with
    satCount := countUp x.satCount sat, domainCount := countUp x.domainCount dom
    sat := x.sat || decide (sat ≠ 0), spanSat := x.spanSat + sat, spanDomain := x.spanDomain + dom
    satOp := if sat = 0 then x.satOp else x.satOp.or (some r.index)
    domainOp := if dom = 0 then x.domainOp else x.domainOp.or (some (r.index, r.aux.getD 2 0)) }

/-- The saturated elements and the results past a domain of the span that ends, recorded (R181). -/
def State.coreSpanEvents (s : State) (c : Fin 8) : State :=
  let x := s.cores[c]
  let s := match x.satOp with
    | some i => if x.ctrl.getLsbD 2 then s.coreEvent c 0x1805 i x.spanSat 0 else s
    | none => s
  let s := match x.domainOp with
    | some i => s.coreEvent c 0x1806 i.1 x.spanDomain i.2
    | none => s
  s.updCore c fun x => { x with spanSat := 0, spanDomain := 0, satOp := none, domainOp := none }

/-- Words put into an accumulator memory from entry 0 on; a word of zero is not listed. -/
def putWords (m : List (Nat × Word)) : Nat → List Nat → List (Nat × Word)
  | _, [] => m
  | i, w :: ws => putWords (if w % 2 ^ 32 = 0 then mapDel m i else mapSet m i (BitVec.ofNat 32 w)) (i + 1) ws

/-- Writes with free bytes in the place of theirs: what a vector operation or a transfer leaves whose check failed. -/
def State.freeData (s : State) (ws : List MemWrite) : List MemWrite :=
  ws.map fun w => { w with data := (List.range w.data.length).map fun k => Config.freeValue 8 (s.free + w.addr + k) }

/-- An operation of a core ends: it completes, runs once more, or halts the core. `none` keeps the unit free; a rerun is given
back. -/
def State.coreEnd (s : State) (c : Fin 8) (r : Running) : Option Running × State :=
  let array := decide (r.unit = .main)
  let s := s.countBusy (.core c) r r.cycles
  let ok (s : State) : Option Running × State :=
    let s := s.applyMemWrites r.writes
    let s := if array then s.updCore c fun x => { x with acc := putWords x.acc 0 (r.aux.drop 3) } else s
    let s := ((s.coreCounts c r).countDone (.core c)).setOnDone r.op
    (none, if r.rerun then
        (s.updCore c fun x => { x with retries := countUp x.retries 1 }).coreEvent c 0x1802 r.index (s.grainsOf c r.cycles) s.cores[c].slackLeft
      else s)
  let fail (s : State) : State := if array then s else { (s.applyMemWrites (s.freeData r.writes)) with free := s.free + 1 }
  let mismatch (unit : Nat) (next : Check) : Option Running × State :=
    let cost := s.grainsOf c r.cycles
    if r.rerun then (none, (fail (s.coreMismatch c r.index unit 3)).coreHalt c r.index unit)
    else if !r.op.retryable || !(s.cores[c].ctrl).getLsbD 1 then
      (none, (fail (s.coreMismatch c r.index unit 2)).coreHalt c r.index unit)
    else if s.cores[c].slackLeft < cost then (none, (fail (s.coreMismatch c r.index unit 1)).coreHalt c r.index unit)
    else
      let s := (s.coreMismatch c r.index unit 0).updCore c fun x => { x with slackLeft := x.slackLeft - cost }
      (some { r with chk := next, rerun := true, startDt := s.dtNs }, s)
  match r.chk with
  | .clean => ok s
  | .sramCorrected => ok (s.sramCorrected (0x18 + c.val))
  | .dramCorrected a => ok (s.dramCorrected (a / 64))
  | .once u => mismatch u.toNat .clean
  | .twice u => mismatch u.toNat (.twice u)
  | .sramBad a =>
    let s := (s.sramUe (0x18 + c.val) a.toNat 0).writeMem (a.toNat / 8 * 8) (List.replicate 8 0)
    let s := s.updCore c fun x => { x with mismatch := true, mismatches := countUp x.mismatches 1 }
    (none, (fail (s.fenceCheck c)).coreHalt c r.index 0xFF)
  | .dramBad a => (none, (fail (s.dramUncorrectable a)).coreHalt c r.index 0xFF)

/-- A core's operation starts, with what its checks will find and what it counts. -/
def State.startCore (s : State) (c : Fin 8) (n : NextOp) (u : OpUnit) (cycles : Nat) (ws : List MemWrite) (chk : Check)
    (aux : List Nat) : State :=
  let r : Running :=
    { unit := u, index := n.index, op := n.op, startDt := s.dtNs, cycles := cycles, writes := ws, chk := chk, rerun := false, aux := aux }
  s.onSeq (.core c) fun q => { q with running := q.running ++ [r] }

/-- An array operation issues. -/
def State.arrOp (s : State) (c : Fin 8) (opcode : Nat) (conv : Bool) (chk : Check) : State :=
  s.tryIssue (.core c) opcode (some .main) fun n s =>
    let p := n.img.arr n.op.argB
    let r := s.arrResult n.part p conv s.cores[c].stoch[(0 : Fin 2)]
    let s := s.isolation n.part c.val [p.a]
    let s := s.updCore c fun x => { x with stoch := x.stoch.set 0 r.2.2.2 }
    s.startCore c n .main (arrCycles p conv) r.1 chk ([r.2.2.1, 0, 0] ++ r.2.1)

/-- A vector operation issues. -/
def State.vectorOp (s : State) (c : Fin 8) (chk : Check) : State :=
  s.tryIssue (.core c) 0x20 (some .vector) fun n s =>
    let p := n.img.vec n.op.argB
    let r := s.vecResult n.part p s.cores[c].stoch[(1 : Fin 2)]
    let s := s.isolation n.part c.val (if twoSources p.func then [p.src0, p.src1] else [p.src0])
    let s := s.updCore c fun x => { x with stoch := x.stoch.set 1 r.2.2.2 }
    s.startCore c n .vector (vecCycles p) r.1 chk [r.2.1, r.2.2.1, p.func]

/-! ## DMA (R459) -/

/-- A line of a transfer's source, outside any object, that is poisoned already (R414). -/
def State.dmaPoison (s : State) (t : Target) (d : DmaDesc) : Bool :=
  decide (spaceOf t d.srcSpace = .device) && s.mt.poisoned.any fun l =>
    (s.objAt (64 * l)).isNone && (List.range d.rows).any fun r =>
      decide (d.src + r * d.srcStride < 64 * l + 64 ∧ 64 * l < d.src + r * d.srcStride + d.rowBytes)

/-- The ranges of device addresses that a transfer reads and writes. -/
def dmaRanges (t : Target) (d : DmaDesc) : List (Nat × Nat) :=
  let rows (code base stride : Nat) : List (Nat × Nat) :=
    if spaceOf t code = .device then (List.range d.rows).map fun r => (base + r * stride, d.rowBytes) else []
  rows d.srcSpace d.src d.srcStride ++ rows d.dstSpace d.dst d.dstStride

/-- DMA by a core's engine or an engine's port. An engine whose transfer fails its check writes nothing and sets no flag; a
core's is judged as it ends. -/
def State.dmaOp (s : State) (t : Target) (chk : Check) : State :=
  s.tryIssue t 0x04 (some (match t with | .core _ => .dma | _ => .main)) fun n s =>
    let d := n.img.dmaDesc n.op.argB
    let bad := s.dmaPoison t d
    let writes := (s.dmaWrites t d).flatMap s.mappedParts
    let s := s.unmappedEvents (dmaRanges t d)
    match t with
    | .core c =>
      let chk := if bad && decide (chk = .clean) then .twice 0xFF else chk
      s.startCore c n .dma (s.dmaCycles t d) writes chk [0, 0, 0]
    | _ =>
      match s.engineCheck t chk with
      | (none, s) => if bad then s.engineFailed t.slot else s.startOp t n .main (s.dmaCycles t d) writes
      | (some _, s) => s

/-- A core at a span start: the retry budget and the generators start again (R176, R192). -/
def State.coreSpanStart (s : State) (c : Fin 8) : State :=
  match s.sectionOf (.core c) with
  | some (_, img, _) => s.updCore c fun x => { x with
      slackLeft := img.retrySlack
      stoch := #v[stochSeed img.familySig s.sched.spanCount c.val 0, stochSeed img.familySig s.sched.spanCount c.val 1] }
  | none => s.updCore c fun x => { x with slackLeft := 0 }

/-! ## The rows -/

/-- ARR_MM (R161). -/
def execArrMm (c : Fin 8) (chk : Check) (s : State) : Host.Outcome State Fault Refusal := .next (s.arrOp c 0x10 false chk)
/-- ARR_CONV (R161). -/
def execArrConv (c : Fin 8) (chk : Check) (s : State) : Host.Outcome State Fault Refusal := .next (s.arrOp c 0x11 true chk)
/-- VEC_OP (R170). -/
def execVecOp (c : Fin 8) (chk : Check) (s : State) : Host.Outcome State Fault Refusal := .next (s.vectorOp c chk)
/-- DMA (R459). -/
def execDma (t : Target) (chk : Check) (s : State) : Host.Outcome State Fault Refusal := .next (s.dmaOp t chk)

end Sys2Proof.Machine
end

