-- ==== Sys2Proof/Machine/HostPort.lean ====
section
/-!
DEFINITION. The host port: its frames, the host window, the direct registers and the rings (chapter 14).
-/
namespace Sys2Proof.Machine

/-! ## Direct registers (R334) -/

/-- `STATUS.STATE` (R334, R354). -/
def State.stateCode (s : State) : Nat :=
  match s.dev.phase with
  | .ready => if s.schedOn then 2 else 1
  | .parked | .waking => 3
  | .recovery => 4
  | .fault => 5
  | _ => 0

/-- `STATUS`. A scrub that a reset ended runs again from READY on, and shows from there (R9, R407). -/
def State.statusReg (s : State) : Word :=
  BitVec.ofNat 32 (s.stateCode * 4096
    + b2n (s.dev.fwUp && s.sec.grants.toList.any fun g => decide (g.state = 2)) * 128
    + b2n (s.tu.baseA.isLocked || s.tu.baseB.isLocked) * 64
    + b2n s.pins.motionPermit * 32 + b2n s.dev.fatal * 16 + b2n s.schedOn * 8
    + b2n s.dev.fwSlot * 2 + b2n s.isReady)

/-- `DEV_REV`: the release shows from READY on (R334). -/
def State.devRev (s : State) : Word := if s.dev.fwUp then 0x02040200 else 0x00000200

/-- `HOST_PORT_MODE`. -/
def Port.modeReg (p : Port) : Word := BitVec.ofNat 32 (p.latency.toNat * 256 + b2n p.crcEn * 4 + p.mode.toNat)

/-- `HOST_PORT_ERR`. -/
def Port.errReg (p : Port) : Word := BitVec.ofNat 32 (p.errCount.toNat * 65536 + p.err.toNat)

/-- `REC_HEAD`. -/
def Recorder.headReg (r : Recorder) : Word := BitVec.ofNat 32 (r.passes.toNat * 65536 + b2n r.frozen * 32768 + r.next.toNat)

/-- `MBX_STATEn`: `HELD` saturates at 255. -/
def Mbx.stateReg (m : Mbx) : Word :=
  BitVec.ofNat 32 (min m.held.length 255 * 256 + m.partition.val * 16 + b2n m.bulkMapped * 8
    + (match m.state with | .closed => 0 | .opened => 1 | .scrubbing => 2))

/-- The mailbox whose doorbell, head or tail register lies at an offset: 0x100 to 0x17F. -/
def ringRegMbx (off : Nat) : Option (Fin 8) :=
  if 0x100 ≤ off ∧ off < 0x180 then some ⟨off / 4 % 8, Nat.mod_lt _ (by decide)⟩ else none

/-- A doorbell, head or tail register; a SCRUBBING mailbox's indices read zero (R341). -/
def State.ringReg (s : State) (off : Nat) (n : Fin 8) : Word :=
  let m := s.mbx[n]
  if m.state = .scrubbing then 0
  else match (off - 0x100) / 0x20 with
    | 0 => m.sqTail.setWidth 32
    | 1 => m.sqHead.setWidth 32
    | 2 => m.cqHead.setWidth 32
    | _ => m.cqTail.setWidth 32

/-- The word a direct register reads, without the side effect of the read. In PARKED, and until firmware has resumed, the
first four read the values held at entry, and registers past `IRQ_MASK` read zero (R341, log 8). -/
def State.directReg (s : State) (off : Nat) : Word :=
  let held := decide (s.dev.phase = .parked) || decide (s.dev.phase = .waking)
  if held && decide (off = 0x000) then s.port.heldRegs[0]
  else if held && decide (off = 0x004) then s.port.heldRegs[1]
  else if held && decide (off = 0x008) then s.port.heldRegs[2]
  else if held && decide (off = 0x00C) then s.port.heldRegs[3]
  else if off = 0x000 then 0x54536440
  else if off = 0x004 then s.devRev
  else if off = 0x008 then s.statusReg
  else if off = 0x00C then s.dev.resetCause
  else if off = 0x010 then s.port.modeReg
  else if off = 0x014 then s.port.errReg
  else if off = 0x020 then s.port.irqStatus
  else if off = 0x024 then s.port.irqMask
  else if held then 0
  else match ringRegMbx off with
    | some n => s.ringReg off n
    | none =>
      if off = 0x180 then s.evr.headReg
      else if 0x1C0 ≤ off ∧ off < 0x1E0 then (s.mbx[(⟨off / 4 % 8, Nat.mod_lt _ (by decide)⟩ : Fin 8)]).stateReg
      else 0

/-- A read of a direct register: the RC count of `HOST_PORT_ERR` clears as it is read (R8, R330). -/
def State.directRead (s : State) (off : Nat) : Word × State :=
  let v := s.directReg off
  if off = 0x014 then (v, { s with port := { s.port with errCount := 0 } }) else (v, s)

/-! ## Errors of the port (R332) -/

/-- An error bit set, with its interrupt cause (R334). -/
def State.portErr (s : State) (bit : Nat) : State :=
  State.raiseIrq { s with port := { s.port with err := s.port.err ||| (1 <<< bit) } } irqPort

/-- A frame refused: its bit is set and the count advances, saturating (R332). -/
def State.refuseFrame (s : State) (bit : Nat) : State :=
  let s := { s with port := { s.port with
    errCount := if s.port.errCount = 0xFFFF then 0xFFFF else s.port.errCount + 1, readData := [], readCrc := none } }
  s.portErr bit

/-- `CRC_ERR` -/
def bitCrc : Nat := 0
/-- `FRAME_ERR` -/
def bitFrame : Nat := 1
/-- `NOT_READY` -/
def bitNotReady : Nat := 2
/-- `UNMAPPED` -/
def bitUnmapped : Nat := 3
/-- `RD_TIMEOUT` -/
def bitTimeout : Nat := 4
/-- `BAD_DOORBELL` -/
def bitDoorbell : Nat := 5
/-- `SCRUB_DROP` -/
def bitScrub : Nat := 6
/-- `MODE_ERR` -/
def bitMode : Nat := 7

/-! ## The host window (R333) -/

/-- A row of the window map, with the first mailbox and the last that a burst touches. -/
inductive Region where
  | direct
  | recorder
  | sq (lo hi : Nat)
  | cq (lo hi : Nat)
  | bulk (lo hi : Nat)
  deriving DecidableEq, Repr

/-- The row that holds a burst of `n` bytes from `a`, or none. -/
def regionOf (a n : Nat) : Option Region :=
  let last := a + n - 1
  if last < 0x1000 then some .direct
  else if 0x10000 ≤ a ∧ last < 0x20000 then some .recorder
  else if 0x20000 ≤ a ∧ last < 0x40000 then some (.sq ((a - 0x20000) / 0x4000) ((last - 0x20000) / 0x4000))
  else if 0x40000 ≤ a ∧ last < 0x50000 then some (.cq ((a - 0x40000) / 0x2000) ((last - 0x40000) / 0x2000))
  else if 0x1000000 ≤ a ∧ last < 0x2000000 then
    some (.bulk ((a - 0x1000000) / 0x200000) ((last - 0x1000000) / 0x200000))
  else none

/-- The row in which an address lies at all. -/
def rowOf (a : Nat) : Option Nat :=
  if a < 0x1000 then some 0
  else if 0x10000 ≤ a ∧ a < 0x20000 then some 1
  else if 0x20000 ≤ a ∧ a < 0x40000 then some 2
  else if 0x40000 ≤ a ∧ a < 0x50000 then some 3
  else if 0x1000000 ≤ a ∧ a < 0x2000000 then some 4
  else none

/-- The mailboxes from number `lo` to number `hi`. -/
def mbxRange (lo hi : Nat) : List (Fin 8) := (List.finRange 8).filter fun i => decide (lo ≤ i.val ∧ i.val ≤ hi)

/-- Ring and doorbell access is served: READY, SERVICE or FAULT by the mailbox's state, RECOVERY too (R341). -/
def State.ringsServed (s : State) : Bool :=
  match s.dev.phase with
  | .ready | .recovery | .fault => true
  | _ => false

/-- The mailboxes whose ring registers a burst of direct registers touches. -/
def ringRegsTouched (a n : Nat) : List (Fin 8) :=
  (List.range (n / 4)).filterMap fun k => ringRegMbx (a + 4 * k)

/-- Why ring or doorbell access to mailboxes is refused, if it is (R332, R341). -/
def State.ringRefusal (s : State) (ms : List (Fin 8)) (write : Bool) : Option Nat :=
  if ms.isEmpty then none
  else if !s.ringsServed || ms.any fun i => decide (s.mbx[i].state = .closed) then some bitNotReady
  else if write && ms.any fun i => decide (s.mbx[i].state = .scrubbing) then some bitScrub
  else none

/-- A doorbell value whose distance from the head is less than the tail's is out of range (R336). -/
def Mbx.doorbellOk (m : Mbx) (v : BitVec 6) : Bool := decide ((m.sqTail - m.sqHead).toNat ≤ (v - m.sqHead).toNat)

/-- A completion head lies from its present value up to the tail (R337). -/
def Mbx.cqHeadOk (m : Mbx) (v : Byte) : Bool := decide ((v - m.cqHead).toNat ≤ (m.cqTail - m.cqHead).toNat)

/-- A write of a doorbell or a completion head is in range; any other register takes any value. -/
def State.indexOk (s : State) (off : Nat) (v : Word) : Bool :=
  match ringRegMbx off with
  | none => true
  | some n =>
    match (off - 0x100) / 0x20 with
    | 0 => s.mbx[n].doorbellOk (v.setWidth 6)
    | 2 => s.mbx[n].cqHeadOk (v.setWidth 8)
    | _ => true

/-- The words of a burst, each with its address. -/
def wordsAt : Nat → List Byte → List (Nat × Word)
  | a, b0 :: b1 :: b2 :: b3 :: bs => (a, BitVec.ofNat 32 (leNat [b0, b1, b2, b3])) :: wordsAt (a + 4) bs
  | _, _ => []

/-- A slot lies from the head up to the tail: its entry is pending (R336). -/
def Mbx.pendingSlot (m : Mbx) (slot : Nat) : Bool :=
  decide ((BitVec.ofNat 6 slot - m.sqHead).toNat < (m.sqTail - m.sqHead).toNat)

/-- A burst over a submission ring touches a pending entry (R336). -/
def State.touchesPending (s : State) (a n : Nat) : Bool :=
  (mbxRange ((a - 0x20000) / 0x4000) ((a + n - 1 - 0x20000) / 0x4000)).any fun i =>
    (List.range 64).any fun slot =>
      let lo := 0x20000 + 0x4000 * i.val + 256 * slot
      decide (lo < a + n ∧ a < lo + 256) && s.mbx[i].pendingSlot slot

/-- A bulk window is mapped; in BOOT and while the device is parked none is (R333, R341). -/
def State.windowOpen (s : State) (i : Fin 8) : Bool := s.mbx[i].bulkMapped && s.ringsServed

/-- Why a write burst is refused, if it is (R332, R341). -/
def State.writeRefusal (s : State) (a : Nat) (data : List Byte) : Option Nat :=
  match regionOf a data.length with
  | none => some bitUnmapped
  | some .recorder => some bitUnmapped
  | some (.cq _ _) => some bitUnmapped
  | some .direct =>
    (s.ringRefusal (ringRegsTouched a data.length) true).or
      (if (wordsAt a data).all fun w => s.indexOk w.1 w.2 then none else some bitDoorbell)
  | some (.sq lo hi) =>
    (s.ringRefusal (mbxRange lo hi) true).or (if s.touchesPending a data.length then some bitDoorbell else none)
  | some (.bulk lo hi) =>
    if (mbxRange lo hi).all s.windowOpen then none else some bitUnmapped

/-- Held completions written in order while the ring has room (R337). -/
def Mbx.drain : Mbx → List Completion → Mbx
  | m, [] => { m with held := [] }
  | m, c :: cs => if m.cqCount < 255 then Mbx.drain (m.cqPut c) cs else { m with held := c :: cs }

/-- `CQ_HEADn` written: entries are freed, and held completions follow (R337). -/
def State.setCqHead (s : State) (n : Fin 8) (v : Byte) : State :=
  let m := { s.mbx[n] with cqHead := v }
  let m' := m.drain m.held
  let s' := s.updMbx n fun _ => m'
  if m'.cqTail = m.cqTail then s' else s'.raiseIrq (irqCq n)

/-- `HOST_PORT_MODE` written: a reserved mode code, or a latency outside 8 to 32, leaves its field (R326). -/
def Port.setMode (p : Port) (v : Word) : Port :=
  let lat : BitVec 6 := (v >>> 8).setWidth 6
  { p with
    mode := if v.setWidth 2 = 0 ∨ v.setWidth 2 = 1 then v.setWidth 2 else p.mode
    crcEn := v.getLsbD 2
    latency := if 8 ≤ lat.toNat ∧ lat.toNat ≤ 32 then lat else p.latency }

/-- The defined bits of `IRQ_STATUS` and `IRQ_MASK` (R334). -/
def irqBits : Word := 0x01F0FFFF

/-- A word written to a direct register (R8, R334); RO and unlisted registers ignore it. While parked only four registers
take a write (R341). -/
def State.directWrite (s : State) (off : Nat) (v : Word) : State :=
  let parked := decide (s.dev.phase = .parked) || decide (s.dev.phase = .waking)
  if off = 0x010 then { s with port := s.port.setMode v }
  else if off = 0x014 then { s with port := { s.port with err := s.port.err &&& ~~~ (v.setWidth 8) } }
  else if off = 0x020 then State.irqPin { s with port := { s.port with irqStatus := s.port.irqStatus &&& ~~~ v } }
  else if off = 0x024 then State.irqPin { s with port := { s.port with irqMask := v &&& irqBits } }
  else if parked then s
  else match ringRegMbx off with
    | none => s
    | some n =>
      match (off - 0x100) / 0x20 with
      | 0 => s.updMbx n fun m => { m with sqTail := v.setWidth 6 }
      | 2 => s.setCqHead n (v.setWidth 8)
      | _ => s

/-- The bytes of a burst that fall in a mailbox's part of a row of the map, and where in the part they begin. -/
def burstPart (base size a : Nat) (data : List Byte) : Nat × List Byte :=
  let lo := max a base
  let hi := min (a + data.length) (base + size)
  (lo - base, (data.drop (lo - a)).take (hi - lo))

/-- An accepted write burst applied in address order (R331). -/
def State.applyWrite (s : State) (a : Nat) (data : List Byte) : State :=
  match regionOf a data.length with
  | some .direct => (wordsAt a data).foldl (fun (s : State) (w : Nat × Word) => s.directWrite w.1 w.2) s
  | some (.sq lo hi) =>
    (mbxRange lo hi).foldl (fun (s : State) (i : Fin 8) =>
      let w := burstPart (0x20000 + 0x4000 * i.val) 0x4000 a data
      s.updMbx i fun m => { m with sq := memWriteN m.sq w.1 w.2 }) s
  | some (.bulk lo hi) =>
    (mbxRange lo hi).foldl (fun (s : State) (i : Fin 8) =>
      let w := burstPart (0x1000000 + 0x200000 * i.val) 0x200000 a data
      s.windowWrite i w.1 w.2) s
  | _ => s

/-- A write burst refused or applied. -/
def State.hostWrite (s : State) (a : Nat) (data : List Byte) : State :=
  match s.writeRefusal a data with
  | some bit => s.refuseFrame bit
  | none => s.applyWrite a data

/-! ## Reads -/

/-- Why a read burst is refused, if it is (R332, R341). -/
def State.readRefusal (s : State) (a n : Nat) : Option Nat :=
  match regionOf a n with
  | none => some bitUnmapped
  | some .recorder => none
  | some .direct => s.ringRefusal (ringRegsTouched a n) false
  | some (.sq lo hi) | some (.cq lo hi) => s.ringRefusal (mbxRange lo hi) false
  | some (.bulk lo hi) => if (mbxRange lo hi).all s.windowOpen then none else some bitUnmapped

/-- The words of direct registers read in order, with their side effects. -/
def State.readWords : State → Nat → Nat → List Byte × State
  | s, _, 0 => ([], s)
  | s, a, n + 1 =>
    let (v, s) := s.directRead a
    let (bs, s) := s.readWords (a + 4) n
    (natLe 4 v.toNat ++ bs, s)

/-- One byte of a completion ring; a SCRUBBING mailbox's entries read zero but for the status, `ERR_SCRUBBING` (R341). -/
def Mbx.cqByte (m : Mbx) (k : Nat) : Byte :=
  if m.state = .scrubbing then (if k % 32 = 2 then 0x01 else if k % 32 = 3 then 0x06 else 0) else memRead m.cq k

/-- One byte of a submission ring; a SCRUBBING mailbox's entries read zero (R341). -/
def Mbx.sqByte (m : Mbx) (k : Nat) : Byte := if m.state = .scrubbing then 0 else memRead m.sq k

/-- The mailbox of a ring or window address. -/
def mbxAt (s : State) (k : Nat) : Mbx := s.mbx[(⟨k % 8, Nat.mod_lt _ (by decide)⟩ : Fin 8)]

/-- The recorder ring reads zero while the device is parked (R341). -/
def State.recByte (s : State) (k : Nat) : Byte :=
  if s.dev.phase = .parked ∨ s.dev.phase = .waking then 0 else memRead s.evr.ring k

/-- The data of an accepted read burst. -/
def State.readBurst (s : State) (a n : Nat) : List Byte × State :=
  match regionOf a n with
  | some .direct => s.readWords a (n / 4)
  | some .recorder => ((List.range n).map fun k => s.recByte (a + k - 0x10000), s)
  | some (.sq _ _) =>
    ((List.range n).map fun k => (mbxAt s ((a + k - 0x20000) / 0x4000)).sqByte ((a + k - 0x20000) % 0x4000), s)
  | some (.cq _ _) =>
    ((List.range n).map fun k => (mbxAt s ((a + k - 0x40000) / 0x2000)).cqByte ((a + k - 0x40000) % 0x2000), s)
  | some (.bulk lo hi) =>
    ((mbxRange lo hi).flatMap fun i =>
      let w := burstPart (0x1000000 + 0x200000 * i.val) 0x200000 a (List.replicate n 0)
      s.windowRead i w.1 w.2.length, s)
  | none => ([], s)

/-! ## Frames (R327 to R331) -/

/-- Address and length bytes in transfer order, most significant first (R328). -/
def frameHead (f : Frame) : List Byte := (natLe 4 f.addr.toNat).reverse ++ (natLe 2 f.len.toNat).reverse

/-- The burst length of a frame: of its length field in 8D-8D-8D; of the whole words sent in 1S-1S-1S (R328). -/
def Port.burst (p : Port) (f : Frame) : Nat :=
  if p.mode = 1 then (f.len &&& 0x0FFF).toNat + 1 else f.data.length / 4 * 4

/-- The complement that a command carries is wrong: it is on the wire in 8D-8D-8D only (R327). -/
def Port.complementBad (p : Port) (opcode complement : Byte) : Bool := decide (p.mode = 1) && decide (complement ≠ ~~~ opcode)

/-- The header of a frame is wrong: opcode, complement, length field, alignment, a burst that crosses a row, or in 1S-1S-1S an end
before the address was whole (R331, R332). -/
def Port.headerBad (p : Port) (f : Frame) (opcode : Byte) : Bool :=
  let n := p.burst f
  decide (f.opcode ≠ opcode) || decide (f.addr.toNat % 4 ≠ 0) ||
    p.complementBad f.opcode f.complement || (decide (p.mode ≠ 1) && decide (f.clocks < 40)) ||
    (decide (p.mode = 1) && (decide (f.len >>> 12 ≠ 0) || decide (n % 4 ≠ 0))) ||
    (decide (n ≠ 0) && (rowOf f.addr.toNat).isSome && (regionOf f.addr.toNat n).isNone)

/-- A frame too short to act on: fewer than 8 clocks in 1S-1S-1S (R332). -/
def Port.ignores (p : Port) (f : Frame) : Bool := decide (p.mode ≠ 1) && decide (f.clocks < 8)

/-- What a frame that is a command alone does: READ_ID drives the device identifier; WAKE ends the parked state, and has no effect
in any other; PORT_RESET returns the port to 1S-1S-1S (R326, R327, R340, R393). -/
def State.bareAct (s : State) (opcode : Byte) : State :=
  if opcode = 0x9F then { s with port := { s.port with readData := natLe 4 0x54536440, readCrc := none } }
  else if opcode = 0xAB then
    if s.dev.phase = .parked then { s with dev := { s.dev with phase := .waking, selfRefresh := false } } else s
  else { s with port := { s.port with mode := 0, latency := 20, crcEn := false } }

/-- A frame that is a command alone: ignored where the port does not answer, refused with a wrong complement, a READ_ID then with zeros,
else carried out (R327, R332). -/
def State.bareFrame (s : State) (opcode complement : Byte) : State :=
  if !s.dev.portUp then s
  else if s.port.complementBad opcode complement then
    let t := s.refuseFrame bitFrame
    if opcode = 0x9F then { t with port := { t.port with readData := List.replicate 4 0, readCrc := none } } else t
  else s.bareAct opcode

/-- WRITE (R331): the burst is applied whole at the rise of `OSPI_CS_N`, or refused; a frame without a whole word ends short. A READ_ID,
WAKE or PORT_RESET frame whose complement is wrong is of this row too, which is the one that carries a frame's bytes (R332). -/
def State.writeFrame (s : State) (f : Frame) : State :=
  let n := s.port.burst f
  if !s.dev.portUp || s.port.ignores f then s
  else if f.opcode ∈ [0x9F, 0xAB, 0xF0] then s.bareFrame f.opcode f.complement
  else if s.port.headerBad f 0x02 then s.refuseFrame bitFrame
  else if n = 0 ∨ f.data.length < n then s.refuseFrame bitFrame
  else if s.port.mode = 1 ∧ s.port.crcEn ∧ crc16 (frameHead f ++ f.data.take n) ≠ f.crc then s.refuseFrame bitCrc
  else if s.port.mode ≠ 1 ∧ 0x1000 ≤ f.addr.toNat then s.refuseFrame bitMode
  else s.hostWrite f.addr.toNat (f.data.take n)

/-- The bytes that the host clocks out of a burst: all of them, or fewer where the frame ends short. -/
def Port.driven (p : Port) (f : Frame) : Nat := min (p.burst f) f.data.length

/-- The bytes and the trailer a read drives; a frame that ends short has no trailer. -/
def State.driveRead (s : State) (f : Frame) (bs : List Byte) : State :=
  { s with port := { s.port with
    readData := bs
    readCrc := if s.port.mode = 1 ∧ s.port.crcEn ∧ s.port.driven f = s.port.burst f then some (crc16 (frameHead f ++ bs)) else none } }

/-- The first `m` bytes of an accepted read burst: a side effect of a word takes place when its last byte is driven (R330). -/
def State.readPart (s : State) (a m : Nat) : List Byte × State :=
  let r := s.readBurst a (m / 4 * 4)
  (if m % 4 = 0 then r.1 else r.1 ++ (r.2.readBurst (a + m / 4 * 4) 4).1.take (m % 4), r.2)

/-- A read that ends short sets `FRAME_ERR` (R331; log 17). -/
def State.endRead (s : State) (f : Frame) : State :=
  if s.port.driven f < s.port.burst f then s.portErr bitFrame else s

/-- READ (R329): a refused frame returns zeros, and a bulk burst that is not staged in time returns zeros and sets
`RD_TIMEOUT`. -/
def State.readFrame (s : State) (f : Frame) (staged : Bool) : State :=
  let n := s.port.burst f
  let zeros := List.replicate (s.port.driven f) 0
  if !s.dev.portUp || s.port.ignores f then s
  else if s.port.headerBad f 0x0B then (s.refuseFrame bitFrame).driveRead f zeros
  else if n = 0 then s.driveRead f []
  else if s.port.mode ≠ 1 ∧ 0x1000 ≤ f.addr.toNat then (s.refuseFrame bitMode).driveRead f zeros
  else match s.readRefusal f.addr.toNat n with
    | some bit => (s.refuseFrame bit).driveRead f zeros
    | none =>
      if 0x1000000 ≤ f.addr.toNat ∧ !staged then ((s.portErr bitTimeout).driveRead f zeros).endRead f
      else
        let r := s.readPart f.addr.toNat (s.port.driven f)
        (r.2.driveRead f r.1).endRead f

/-- WRITE frame (R331). -/
def execWrite (f : Frame) (s : State) : Host.Outcome State Fault Refusal := .next (s.writeFrame f)
/-- READ frame (R329). -/
def execRead (f : Frame) (staged : Bool) (s : State) : Host.Outcome State Fault Refusal := .next (s.readFrame f staged)

/-- READ_ID frame (R327): 0x5453_6440, little-endian, in every state in which the port answers. -/
def execReadId (s : State) : Host.Outcome State Fault Refusal := .next (s.bareFrame 0x9F 0x60)

/-- WAKE frame (R327, R393): ends the parked state; no effect in any other. -/
def execWake (s : State) : Host.Outcome State Fault Refusal := .next (s.bareFrame 0xAB 0x54)

/-- PORT_RESET frame (R326): 1S-1S-1S, LATENCY 20, CRC off. -/
def execPortReset (s : State) : Host.Outcome State Fault Refusal := .next (s.bareFrame 0xF0 0x0F)

/-- A host write of one direct register, refused and applied as a WRITE frame's burst is. -/
def State.hostRegWrite (s : State) (off : Nat) (v : Word) : State :=
  if s.dev.portUp then s.hostWrite off (natLe 4 v.toNat) else s

/-- Write to `HOST_PORT_MODE` (R326). -/
def execHostPortModeWrite (v : Word) (s : State) : Host.Outcome State Fault Refusal := .next (s.hostRegWrite 0x010 v)
/-- Write of a submission tail (R336). -/
def execMbxDoorbellWrite (n : Fin 8) (v : Word) (s : State) : Host.Outcome State Fault Refusal :=
  .next (s.hostRegWrite (0x100 + 4 * n.val) v)
/-- Write of a completion head (R337). -/
def execCqHeadWrite (n : Fin 8) (v : Word) (s : State) : Host.Outcome State Fault Refusal :=
  .next (s.hostRegWrite (0x140 + 4 * n.val) v)
/-- W1C write to `IRQ_STATUS` (R338). -/
def execIrqStatusWrite (v : Word) (s : State) : Host.Outcome State Fault Refusal := .next (s.hostRegWrite 0x020 v)

end Sys2Proof.Machine
end

