-- ==== Sys2Proof/Machine/Mailbox.lean ====
section
/-!
DEFINITION. How Rokan firmware takes commands: the copy from the submission rings, the order of acceptance, the checks of
R347, replies, and the forms of the payloads (chapters 14 and 15).
-/
namespace Sys2Proof.Machine

/-! ## The payload forms (R346, R355 to R358) -/

/-- What the tables give of a command's form: open to partition 0 only, the reserved bytes among its fields as offset and
length, and the bytes its fields take. -/
structure CmdForm where
  p0 : Bool
  gaps : List (Nat × Nat)
  used : Nat

/-- The system and management commands (R356). -/
def sysForms : List (Nat × CmdForm) := [
  (0x0100, ⟨false, [], 0⟩), (0x0101, ⟨false, [], 0⟩), (0x0102, ⟨true, [], 1⟩), (0x0103, ⟨true, [], 0⟩),
  (0x0201, ⟨false, [], 0⟩), (0x0202, ⟨true, [], 32⟩), (0x0203, ⟨true, [], 0⟩), (0x0204, ⟨false, [], 3⟩),
  (0x0205, ⟨false, [], 1⟩), (0x0206, ⟨false, [], 0⟩), (0x0C01, ⟨true, [(3, 1), (34, 2)], 40⟩),
  (0x0C02, ⟨true, [], 1⟩), (0x0C03, ⟨false, [], 1⟩), (0x0D01, ⟨false, [], 1⟩), (0x0D02, ⟨false, [], 1⟩),
  (0x0E01, ⟨false, [], 32⟩), (0x0E02, ⟨false, [], 0⟩), (0x0F01, ⟨true, [], 8⟩), (0x0F02, ⟨true, [], 0⟩),
  (0x0F03, ⟨false, [], 0⟩), (0x1001, ⟨true, [], 4⟩), (0x1002, ⟨false, [], 0⟩), (0x1101, ⟨false, [(1, 3)], 36⟩),
  (0x1102, ⟨false, [], 1⟩), (0x1201, ⟨false, [], 240⟩), (0x1202, ⟨true, [], 1⟩)]

/-- The commands of the geometric pipeline (R357). -/
def pipeForms : List (Nat × CmdForm) := [
  (0x0301, ⟨false, [(1, 3), (33, 3), (100, 96)], 196⟩), (0x0302, ⟨false, [], 4⟩), (0x0303, ⟨false, [], 1⟩), (0x0304, ⟨true, [(3, 1)], 8⟩),
  (0x0305, ⟨true, [], 0⟩), (0x0306, ⟨true, [], 1⟩), (0x0401, ⟨true, [], 18⟩), (0x0402, ⟨true, [], 0⟩),
  (0x0403, ⟨true, [], 1⟩), (0x0404, ⟨false, [], 0⟩), (0x0405, ⟨false, [(3, 1)], 20⟩), (0x0406, ⟨true, [(1, 3)], 12⟩),
  (0x0501, ⟨true, [(1, 3)], 132⟩), (0x0502, ⟨true, [], 23⟩), (0x0503, ⟨true, [], 11⟩), (0x0504, ⟨false, [], 0⟩),
  (0x0601, ⟨false, [], 4⟩), (0x0602, ⟨false, [], 4⟩), (0x0603, ⟨false, [], 2⟩), (0x0701, ⟨true, [], 66⟩),
  (0x0702, ⟨true, [], 1⟩), (0x0703, ⟨true, [], 6⟩), (0x0704, ⟨false, [], 0⟩)]

/-- The service, model and object commands (R358). -/
def serviceForms : List (Nat × CmdForm) := [
  (0x0801, ⟨false, [], 28⟩), (0x0802, ⟨false, [(19, 1), (48, 80)], 132⟩), (0x0803, ⟨false, [], 6⟩), (0x0804, ⟨false, [(4, 4)], 16⟩),
  (0x0805, ⟨false, [], 4⟩), (0x0806, ⟨false, [], 4⟩), (0x0807, ⟨false, [], 4⟩), (0x0901, ⟨false, [], 16⟩),
  (0x0902, ⟨false, [(9, 3)], 20⟩), (0x0903, ⟨false, [(2, 2)], 16⟩), (0x0A01, ⟨false, [(7, 1)], 24⟩),
  (0x0A02, ⟨false, [], 4⟩), (0x0B01, ⟨false, [(7, 1)], 24⟩), (0x0B02, ⟨false, [], 6⟩), (0x0B03, ⟨false, [], 4⟩),
  (0x0B04, ⟨false, [], 4⟩), (0x0B05, ⟨false, [], 4⟩), (0x0B06, ⟨false, [], 4⟩), (0x0B07, ⟨false, [], 4⟩),
  (0x0B08, ⟨false, [], 4⟩)]

/-- Bytes of a descriptor's source block that its layout names (R86). -/
def sourceBytes (kind : Nat) : List (Nat × Nat) :=
  match kind with
  | 1 => [(32, 16)]
  | 2 => [(32, 1), (34, 10)]
  | 3 => [(32, 7), (40, 12)]
  | 4 => [(32, 1), (36, 4)]
  | _ => []

/-- The form of an opcode; none for one that is not defined. -/
def cmdForm (opcode : Nat) : Option CmdForm :=
  ((sysForms ++ pipeForms ++ serviceForms).find? fun x => decide (x.1 = opcode)).map (·.2)

/-! ## A command's fields -/

/-- A payload field of `n` bytes. -/
def SubEntry.p (c : SubEntry) (off n : Nat) : Nat := fieldAt c.entry.payload off n
/-- Payload bytes. -/
def SubEntry.bytes (c : SubEntry) (off n : Nat) : List Byte := (List.range n).map fun k => (c.entry.payload.drop (off + k)).headD 0
/-- The partition of a command's mailbox. -/
def State.partOf (s : State) (c : SubEntry) : Fin 4 := s.mbx[c.entry.mbx].partition
/-- The bulk input of a command (R346). -/
def State.bulkIn (s : State) (c : SubEntry) : List Byte :=
  s.windowRead c.entry.mbx c.entry.bulkOffset.toNat c.entry.bulkLength.toNat
/-- Bytes written into the window of a command's mailbox, at an offset of its bulk range. -/
def State.bulkOut (s : State) (c : SubEntry) (off : Nat) (bs : List Byte) : State :=
  s.windowWrite c.entry.mbx (c.entry.bulkOffset.toNat + off) bs

/-! ## Replies (R352) -/

/-- A command's completion, with DT now. -/
def State.reply (s : State) (c : SubEntry) (status r0 r1 r2 r3 : Nat) : State :=
  s.complete c.entry.mbx c.entry.tag c.opcode status r0 r1 r2 r3 s.dtNs
/-- `OK` with no result words. -/
def State.replyOk (s : State) (c : SubEntry) : State := s.reply c stOk 0 0 0 0
/-- A failure with no result words. -/
def State.replyErr (s : State) (c : SubEntry) (status : Nat) : State := s.reply c status 0 0 0 0
/-- A fixed-size output, then the completion; an output that does not fit completes with `ERR_ARG` (R346). -/
def State.replyOut (s : State) (c : SubEntry) (bs : List Byte) (r0 r1 r2 r3 : Nat) : State :=
  if c.entry.bulkLength.toNat < bs.length then s.replyErr c errArg else (s.bulkOut c 0 bs).reply c stOk r0 r1 r2 r3
/-- A list output cut to whole entries, then the completion with both counts (R346). -/
def State.replyList (s : State) (c : SubEntry) (size : Nat) (entries : List (List Byte)) : State :=
  let shown := entries.take (c.entry.bulkLength.toNat / size)
  (s.bulkOut c 0 (shown.flatMap id)).reply c stOk shown.length entries.length 0 0
/-- A command that waits, noted as in flight. -/
def State.addJob (s : State) (c : SubEntry) (k : JobKind) : State :=
  { s with fw := { s.fw with jobs := s.fw.jobs ++
      [{ mbx := c.entry.mbx, tag := c.entry.tag, opcode := c.opcode, acceptDt := s.dtNs, kind := k }] } }

/-! ## In flight (R347 to R349) -/

/-- Commands of a mailbox accepted, and not completed into the ring. -/
def State.accepted (s : State) (i : Fin 8) : List Half :=
  ((s.fw.jobs.filter fun j => decide (j.mbx = i)).map (·.tag)) ++ (s.mbx[i].held.filter fun h => !h.unsolicited).map (·.tag)
/-- Commands of a mailbox in flight: copied, accepted, or completed and held. -/
def State.inFlight (s : State) (i : Fin 8) : Nat :=
  (s.accepted i).length + (s.fw.queue.filter fun q => decide (q.entry.mbx = i)).length
/-- A command that waits for every earlier one of its mailbox. -/
def isOrdered (e : Entry) : Bool := e.flags.getLsbD 0
/-- A command that waits now, with no earlier one of its mailbox in the queue. -/
def State.orderedWaits (s : State) (e : Entry) : Bool := isOrdered e && !(s.accepted e.mbx).isEmpty

/-- The first entry of the queue that may be accepted: ring order within a mailbox, copy order between them. -/
def State.firstReady (s : State) : List (Fin 8) → List SubEntry → Option SubEntry
  | _, [] => none
  | blocked, q :: qs =>
    if q.entry.mbx ∈ blocked then s.firstReady blocked qs
    else if s.orderedWaits q.entry then s.firstReady (q.entry.mbx :: blocked) qs
    else some q

/-- The entry that firmware accepts next. -/
def State.nextEntry (s : State) : Option SubEntry := s.firstReady [] s.fw.queue

/-- The queue without an entry. -/
def State.dequeue (s : State) (q : SubEntry) : State := { s with fw := { s.fw with queue := s.fw.queue.erase q } }
/-- The queue with an entry behind the others. -/
def State.enqueue (s : State) (q : SubEntry) : State := { s with fw := { s.fw with queue := s.fw.queue ++ [q] } }

/-! ## The checks of R347 -/

/-- The device state serves an opcode on a mailbox (R354). -/
def State.serves (s : State) (i : Fin 8) (opcode : Half) : Bool :=
  match s.dev.phase with
  | .ready => true
  | .fault => servedInFault opcode
  | .recovery => decide (i = 0) && decide (opcode.toNat ∈ [0x0101, 0x0102, 0x0F01, 0x0F02, 0x0F03, 0x1102])
  | _ => false

/-- The reserved bits among a command's fields, for byte `k` of its payload: those of `STREAM_FLAGS` and `ENC_FLAGS`, and the bytes of the
source block that the layout of its `SOURCE_KIND` does not name, for STREAM_CONFIG; those of `Q_FLAGS` for PLACE_QUERY (R85, R86, R125,
R277). -/
def fieldReserved (opcode : Nat) (payload : List Byte) (k : Nat) : Byte :=
  match opcode with
  | 0x0301 =>
    let kind := (payload.getD 4 0).toNat
    if k = 10 then 0xFC
    else if k = 11 then 0xFF
    else if k < 36 ∨ 100 ≤ k then 0
    else if !(sourceBytes kind).any fun r => decide (r.1 + 4 ≤ k ∧ k < r.1 + 4 + r.2) then 0xFF
    else if k = 36 ∧ kind = 4 then 0x80
    else 0
  | 0x0802 => if k = 10 then 0xF0 else if k = 11 then 0xFF else 0
  | _ => 0

/-- The reserved bits of byte `k` of a payload: all of a byte after the last field or in a gap (R10, R346). -/
def CmdForm.reservedBits (f : CmdForm) (opcode : Nat) (payload : List Byte) (k : Nat) : Byte :=
  if decide (f.used ≤ k) || f.gaps.any fun g => decide (g.1 ≤ k ∧ k < g.1 + g.2) then 0xFF else fieldReserved opcode payload k

/-- The first payload byte with a reserved bit that is not zero, as an entry byte offset (R346). -/
def CmdForm.badByte (f : CmdForm) (opcode : Nat) (payload : List Byte) : Option Nat :=
  ((List.range payload.length).find? fun k => decide (payload.getD k 0 &&& f.reservedBits opcode payload k ≠ 0)).map (· + 16)

/-- No field is at fault. -/
def noField : Nat := 0xFFFFFFFF

/-- The first check of R347 that fails: its status and the entry byte offset of the failing field. -/
def State.acceptCheck (s : State) (c : SubEntry) : Option (Nat × Nat) :=
  let e := c.entry
  let m := s.mbx[e.mbx]
  match cmdForm c.opcode.toNat with
  | none => some (errOpcode, 0)
  | some f =>
    if e.partition.toNat ≠ m.partition.val then some (errPartition, 4)
    else if f.p0 ∧ m.partition ≠ 0 then some (errPartition, 0)
    else if !s.serves e.mbx c.opcode then some (errState, noField)
    else if 0xFEFF < e.tag.toNat ∨ e.tag ∈ s.accepted e.mbx then some (errArg, 2)
    else if e.flags.toNat / 2 ≠ 0 then some (errArg, 5)
    else if e.reserved ≠ 0 then some (errArg, 6)
    else
      match f.badByte c.opcode.toNat e.payload with
      | some off => some (errArg, off)
      | none =>
        if e.bulkOffset.toNat % 64 ≠ 0 ∨ bulkSize < e.bulkOffset.toNat then some (errArg, 8)
        else if bulkSize - e.bulkOffset.toNat < e.bulkLength.toNat ∨ (e.bulkLength ≠ 0 ∧ !m.bulkMapped) then some (errArg, 12)
        else none

/-- A command checked, and carried out if it passes. -/
def State.accept (s : State) (c : SubEntry) (act : SubEntry → State → State) : State :=
  match s.acceptCheck c with
  | some (status, off) => s.reply c status 0 0 0 off
  | none => act c s

/-- Commands reach firmware, or in RECOVERY the security processor: the mailbox is open, and `CP0` runs (R354, R403). -/
def State.takes (s : State) (i : Fin 8) : Bool :=
  decide (s.mbx[i].state = .opened) &&
    match s.dev.phase with
    | .ready | .fault => !s.dev.cpHalted[0]
    | .recovery => true
    | _ => false

/-- Entries with undefined opcodes at the front of the queue completed: no row stands for them (R347). -/
def State.dropUndefined : Nat → State → State
  | 0, s => s
  | n + 1, s =>
    match s.nextEntry with
    | none => s
    | some q =>
      if (cmdForm q.opcode.toNat).isNone && s.takes q.entry.mbx then
        State.dropUndefined n ((s.dequeue q).accept q fun _ s => s)
      else s

/-- Entries with undefined opcodes completed as far as they come next. -/
def State.skipUndefined (s : State) : State := s.dropUndefined s.fw.queue.length

/-- The row of a command: firmware accepts the entry that comes next in the order of R349, if it is this one. With no entry
that may be accepted, the command is taken as copied now: it waits if R349 says so, and is not taken while its mailbox has 64 in
flight (R348, log 1). -/
def State.serve (s : State) (opcode : Nat) (e : Entry) (act : SubEntry → State → State) : State :=
  let c : SubEntry := { opcode := BitVec.ofNat 16 opcode, entry := e }
  if !s.takes e.mbx then s
  else
    let s := s.skipUndefined
    match s.nextEntry with
    | some q => if q = c then ((s.dequeue q).accept c act).skipUndefined else s
    | none =>
      if 64 ≤ s.inFlight e.mbx then s
      else if s.orderedWaits e || s.fw.queue.any (fun q => decide (q.entry.mbx = e.mbx)) then s.enqueue c
      else s.accept c act

/-! ## The copy from the ring (R336) -/

/-- The entry of a submission slot. -/
def Mbx.entryAt (m : Mbx) (i : Fin 8) (slot : Nat) : SubEntry :=
  let b := memReadN m.sq (256 * slot) 256
  { opcode := BitVec.ofNat 16 (fieldAt b 0 2)
    entry := {
      mbx := i, tag := BitVec.ofNat 16 (fieldAt b 2 2), partition := BitVec.ofNat 8 (fieldAt b 4 1),
      flags := BitVec.ofNat 8 (fieldAt b 5 1), reserved := BitVec.ofNat 16 (fieldAt b 6 2),
      bulkOffset := BitVec.ofNat 32 (fieldAt b 8 4), bulkLength := BitVec.ofNat 32 (fieldAt b 12 4), payload := b.drop 16 } }

/-- Pending entries copied in ring order while fewer than 64 are in flight (R348). -/
def State.copyEntries (i : Fin 8) : Nat → State → State
  | 0, s => s
  | n + 1, s =>
    let m := s.mbx[i]
    if m.sqHead = m.sqTail ∨ 64 ≤ s.inFlight i then s
    else State.copyEntries i n ((s.enqueue (m.entryAt i m.sqHead.toNat)).updMbx i fun m => { m with sqHead := m.sqHead + 1 })

/-- The mailbox hardware copies what is pending; `SQ_FREE` is set if the head moved. -/
def State.copyRing (s : State) (i : Fin 8) : State :=
  if s.mbx[i].state ≠ .opened ∨ !s.ringsServed then s
  else
    let h := s.mbx[i].sqHead
    let s := State.copyEntries i 64 s
    let s := if s.mbx[i].sqHead = h then s else s.raiseIrq (irqSqFree i)
    s.skipUndefined

/-- MBX_COPY (R336). -/
def execMbxCopy (n : Fin 8) (s : State) : Host.Outcome State Fault Refusal := .next (s.copyRing n)

end Sys2Proof.Machine
end

