-- ==== Sys2Proof/Machine/Recorder.lean ====
section
/-!
DEFINITION. The event recorder as it writes and delivers, the firmware's entry windows, the archive, and the link check
(chapter 19).
-/
namespace Sys2Proof.Machine

/-! ## Delivery (R361, R362) -/

/-- What an event is about (R362). -/
inductive Subject where
  /-- some of the cores of a mask -/
  | cores (mask : Nat)
  | channel (n : Nat)
  | pin (n : Nat)
  /-- an object, an index or a namespace of a partition -/
  | ownedBy (p : Fin 4)

/-- What an event's arguments say that it is about, if they name a core, a channel, a pin, an object, an index or a namespace. A core is
named by its slot, its target code or its number, and 0xFF stands for all of them. -/
def RecEntry.subject (e : RecEntry) : Option Subject :=
  let src := e.source.toNat
  let a := e.arg0.toNat
  let b := e.arg1.toNat
  let part (n : Nat) : Fin 4 := ⟨n % 4, Nat.mod_lt _ (by decide)⟩
  let ofSlot (n : Nat) : Option Subject := if 0x18 ≤ n ∧ n < 0x20 then some (.cores (2 ^ (n - 0x18))) else none
  let ofCore (n : Nat) : Option Subject := if n < 8 then some (.cores (2 ^ n)) else if n = 0xFF then some (.cores 0xFF) else none
  if 0x18 ≤ src ∧ src < 0x20 then ofSlot src
  else match e.code.toNat with
    | 0x0001 => if a < 8 then some (.cores (2 ^ a)) else none
    | 0x0002 | 0x0003 => if a % 256 = 0 then none else some (.cores (a % 256))
    | 0x010D => some (.pin a)
    | 0x0208 => some (.ownedBy (part b))
    | 0x0D01 | 0x0D02 => some (.ownedBy (handlePart a))
    | 0x0D03 => some (.ownedBy (part a))
    | 0x0E01 | 0x0E02 | 0x0E06 | 0x0E07 => if a < 4 then some (.ownedBy (part a)) else none
    | 0x0F05 | 0x0F06 | 0x0F08 => ofCore b
    | 0x1001 | 0x1002 | 0x1005 => ofSlot a
    | _ => if src = 0x02 then some (.channel a) else if src = 0x0C then some (.ownedBy (handlePart a)) else none

/-- What an event is about belongs to a partition (R362). -/
def State.owns (s : State) (p : Fin 4) : Subject → Bool
  | .cores m => (List.range 8).any fun c => m.testBit c && s.sec.grants[p].coreMask.getLsbD c
  | .channel n => s.sec.grants[p].chanMask.getLsbD n
  | .pin n => s.sec.grants[p].trigMask.getLsbD n
  | .ownedBy q => decide (q = p)

/-- An event that reaches every OPEN mailbox concerned, whatever it subscribes to: a fatal one, a poisoned object or index, and
the unattainable cap. -/
def alwaysTold (e : RecEntry) : Bool :=
  decide (e.severity = 3) || decide (e.code.toNat ∈ [0x0D02, 0x0C06, 0x0F04])

/-- Whether a mailbox is told of an event. -/
def State.tells (s : State) (m : Mbx) (e : RecEntry) : Bool :=
  let own := e.subject.any (s.owns m.partition)
  let subscribed := m.subSources.getLsbD e.source.toNat && decide (m.subSeverity ≤ e.severity)
  let concerned : Bool := own || (e.subject.isNone && (decide (e.severity = 3) || decide (m.partition = 0)))
  ((decide (m.partition = 0) || own) && subscribed) || (alwaysTold e && concerned)

/-- Rokan firmware delivers a written entry. -/
def State.deliverEvent (s : State) (e : RecEntry) (seq : Nat) : State :=
  if !s.dev.fwUp || s.dev.cpHalted[0] then s
  else
    (List.finRange 8).foldl (fun (s : State) i =>
      let m := s.mbx[i]
      if m.state = .opened ∧ s.tells m e then
        let room := m.unsolicitedRoom && m.held.isEmpty
        let s := s.postUnsolicited i
          { tag := 0xFFFF, status := e.code, r0 := BitVec.ofNat 32 (e.source.toNat + 256 * e.severity.toNat + 65536 * seq)
            r1 := e.arg0, r2 := e.arg1, r3 := e.arg2, unsolicited := true, lost := 0, opcode := 0x1180, dt := e.dt }
          (·.lostEvents) (fun m v => { m with lostEvents := v })
        if room then s.raiseIrq irqEvent else s
      else s) s

/-! ## The ring (R421 to R424) -/

/-- An entry's 32 bytes. -/
def RecEntry.bytes (e : RecEntry) (seq : Half) : List Byte :=
  natLe 8 e.dt.toNat ++ natLe 4 e.tblLo.toNat ++ natLe 2 seq.toNat ++ [e.source, e.severity] ++ natLe 2 e.code.toNat ++ natLe 2 0
    ++ natLe 4 e.arg0.toNat ++ natLe 4 e.arg1.toNat ++ natLe 4 e.arg2.toNat

/-- An entry written at NEXT. -/
def Recorder.put (r : Recorder) (e : RecEntry) : Recorder :=
  { r with
    ring := memWriteN r.ring (32 * r.next.toNat) (e.bytes r.seq)
    seq := r.seq + 1, next := r.next + 1, passes := if r.next.toNat = 2047 then r.passes + 1 else r.passes }

/-- A REC_LOST entry staged once the FIFO has room (R421). -/
def State.stageLost (s : State) : State :=
  let n := s.evr.lostUnreported
  if n = 0 ∨ 64 ≤ s.evr.fifo.length then s
  else { s with evr := { s.evr with lostUnreported := 0 } }.event 0x10 0x1007 n 0 0

/-- The oldest staged entry written; behind the fatal entry the recorder freezes. -/
def State.recordWrite (s : State) : State :=
  match s.evr.fifo with
  | [] => s
  | e :: es =>
    let seq := s.evr.seq.toNat
    let freeze := s.evr.freezing && es.isEmpty
    let s := { s with evr := { s.evr.put e with fifo := es, frozen := s.evr.frozen || freeze, freezing := s.evr.freezing && !freeze } }
    (s.stageLost).deliverEvent e seq

/-- Every staged entry written, as a warm reset starts; a frozen recorder drops them (R425). -/
def State.drainFifo (s : State) : State :=
  if s.evr.frozen then
    { s with evr := { s.evr with fifo := [], frozenDrops := countUp s.evr.frozenDrops s.evr.fifo.length } }
  else s.evr.fifo.foldl (fun (s : State) e =>
    let freeze := s.evr.freezing && decide (s.evr.fifo.length ≤ 1)
    { s with evr := { s.evr.put e with
      fifo := s.evr.fifo.drop 1, frozen := s.evr.frozen || freeze, freezing := s.evr.freezing && !freeze } }) s

/-- The recorder writes nothing while the device is in reset or parked (R423, R425). -/
def State.recorderOn (s : State) : Bool := !s.dev.inReset && decide (s.dev.phase ≠ .parked)

/-- A step of the recorder, with what its code finds of the ring word that it touches (R414). -/
def State.recorderStep (s : State) (chk : Check) : State :=
  if !s.recorderOn then s
  else
    let s := match chk with
      | .sramCorrected => s.sramCorrected 0x10
      | .sramBad a =>
        let s := s.sramUe 0x10 a.toNat 0
        { s with evr := { s.evr with ring := memWriteN s.evr.ring (a.toNat % 65536 / 32 * 32) (List.replicate 32 0) } }
      | _ => s
    s.recordWrite

/-! ## Firmware's entries, panic and archive (R417, R421, R426) -/

/-- The entry that a window holds. -/
def windowEntry (w : Vector Word 8) : RecEntry where
  dt := BitVec.ofNat 64 (w[0].toNat + 2 ^ 32 * w[1].toNat)
  tblLo := w[2]
  source := BitVec.ofNat 8 (w[3].toNat / 65536)
  severity := BitVec.ofNat 8 (w[3].toNat / 16777216)
  code := BitVec.ofNat 16 w[4].toNat
  arg0 := w[5]
  arg1 := w[6]
  arg2 := w[7]

/-- An entry staged as it is. -/
def State.stage (s : State) (e : RecEntry) : State :=
  if s.dev.inReset then s
  else if s.evr.frozen || s.evr.freezing then { s with evr := { s.evr with frozenDrops := countUp s.evr.frozenDrops 1 } }
  else if s.evr.fifo.length ≥ 64 then
    { s with evr := { s.evr with lost := countUp s.evr.lost 1, lostBit := true, lostUnreported := s.evr.lostUnreported + 1 } }
  else { s with evr := { s.evr with fifo := s.evr.fifo ++ [e] } }

/-- A write of a window's word; the last word stages the entry. -/
def State.writeWindow (s : State) (cp : Fin 2) (k : Fin 8) (v : Word) : State :=
  let w := s.evr.fwWindow[cp].set k v
  let s := { s with evr := { s.evr with fwWindow := s.evr.fwWindow.set cp w } }
  if k = 7 then s.stage (windowEntry w) else s

/-- `REC_HEAD` (R334). -/
def Recorder.head (r : Recorder) : Word :=
  BitVec.ofNat 32 (r.next.toNat + 32768 * b2n r.frozen + 65536 * r.passes.toNat)

/-- A frozen ring copied to the archive: the newest first, sixteen at most. -/
def State.archiveRing (s : State) : State :=
  if s.evr.frozen && !s.evr.archived && s.cpRuns 1 then
    { s with evr := { s.evr with
      archive := ({ head := s.evr.head, ring := s.evr.ring } :: s.evr.archive).take 16, archived := true } }
  else s

/-- The freeze released at READY: the ring is archived first, and the recorder resumes (R425, R426). -/
def State.releaseFreeze (s : State) (warm : Bool) : State :=
  let was := s.evr.frozen
  let s : State :=
    if was && !s.evr.archived then
      { s with evr := { s.evr with archive := ({ head := s.evr.head, ring := s.evr.ring } :: s.evr.archive).take 16, archived := true } }
    else s
  let head := s.evr.head
  let s := { s with evr := { s.evr with frozen := false, freezing := false } }
  let s := if warm then s.event 0x10 0x1009 s.dev.resetCause.toNat s.evr.frozenDrops.toNat 0 else s
  if was then
    let (i, s) := s.drawBelow 16
    State.event { s with evr := { s.evr with archived := false } } 0x10 0x1008 i head.toNat 0
  else s

/-! ## Links (R415) -/

/-- The number of R457 of a link or a port: numbers from 64 on stand for the crossbar ports 0 to 31. An event carries the number alone,
so its argument does not tell a port from the mesh link of the same number (DESIGN CHOICE, log 62). -/
def linkNumber (link : Nat) : Nat := if link < 64 then link else link - 64

/-- A mismatch of a flit: a replay, counted; the ninth mismatch in a row, which is the eighth failed replay, takes the link
down. A replay takes at most 12.5 ns, so a later mismatch begins a new row. On a link that does not exist nothing happens. -/
def State.linkMismatch (s : State) (link : Nat) : State :=
  if s.dev.inReset || (decide (link < 64) && !linkExists link) then s
  else
    let row : Nat := match mapGet s.evr.linkFails link with
      | some (n, t) => if s.dtNs ≤ t + 13 then n + 1 else 1
      | none => 1
    let s := { s with evr := { s.evr with linkFails := mapSet s.evr.linkFails link (row, s.dtNs) } }
    if 9 ≤ row then s.fatal false 0x10 0x1004 (linkNumber link) 0 0
    else
      let n := (mapGet s.evr.linkSpan link).getD 0 + 1
      { s with evr := { s.evr with linkReplay := countUp s.evr.linkReplay 1, linkSpan := mapSet s.evr.linkSpan link n } }

/-- The span's `FAULT_LINK_CRC` of each link with more than 1,000 replays, in the order of their numbers. -/
def State.linkSpanEvents (s : State) : State :=
  (List.range 96).foldl (fun (s : State) link =>
    let n := (mapGet s.evr.linkSpan link).getD 0
    if 1000 < n then s.event 0x10 0x1003 (linkNumber link) n 0 else s) s

/-- The span's `FAULT_SRAM_CE` of each slot with corrected words, in the order of their numbers (R431). -/
def State.sramSpanEvents (s : State) : State :=
  (List.range 32).foldl (fun (s : State) slot =>
    let n := (mapGet s.evr.ceSpan slot).getD 0
    if 0 < n then s.event 0x10 0x1001 slot n 0 else s) s

/-- The span's events of the memories and the links are recorded, and what is counted by span starts again. -/
def State.recBoundary (s : State) : State :=
  let s := s.sramSpanEvents.linkSpanEvents
  { s with evr := { s.evr with linkSpan := [], ceSpan := [] } }

/-! ## The rows -/

/-- LINK_CRC_MISMATCH (R415). -/
def execLinkCrcMismatch (link : Fin 96) (s : State) : Host.Outcome State Fault Refusal := .next (s.linkMismatch link.val)
/-- FAULT_FW_PANIC (R417). -/
def execFaultFwPanic (cp : Fin 2) (code : Word) (s : State) : Host.Outcome State Fault Refusal :=
  .next (if s.cpRuns cp then s.fatal false 0x10 0x1006 cp.val code.toNat 0 else s)
/-- REC_FW_STAGE (R421). -/
def execRecFwStage (cp : Fin 2) (v : Word) (s : State) : Host.Outcome State Fault Refusal :=
  .next (if s.cpRuns cp then s.writeWindow cp 7 v else s)
/-- EVENT_RECORD_WRITE (R421). -/
def execEventRecordWrite (chk : Check) (s : State) : Host.Outcome State Fault Refusal := .next (s.recorderStep chk)
/-- REC_ARCHIVED (R426). -/
def execRecArchived (s : State) : Host.Outcome State Fault Refusal := .next s.archiveRing

end Sys2Proof.Machine
end

