-- ==== Sys2Proof/Machine/MapPolicy.lean ====
section
/-!
DEFINITION. The map policy of Rokan firmware, and the field engine at a boundary: the directory commit, the creation, training, residence
and deletion of acres, and the training allowance (R203, R204, R216 to R220).
-/
namespace Sys2Proof.Machine

/-! ## Creation (R201, R219) -/

/-- The seed of an acre's generator at the boundary that is being carried out: by the span count that it brings (R217). -/
def State.boundarySeed (s : State) (key : Nat) : Dword :=
  acreSeed (((s.image 0).map (·.familySig)).getD 0) (s.sched.spanCount.toNat + 1) key

/-- The seeds of the acres' generators for the span that starts (R217). -/
def State.seedAcres (s : State) : State :=
  { s with fld := { s.fld with acres := s.fld.acres.map fun a => { a with rng := s.boundarySeed a.key } } }

/-- A created table: one draw a feature, in global entry order (R219). -/
def initTables (base : Nat) : Nat → Nat → Dword → List Host.Cell → List Host.Cell × Dword
  | 0, _, r, m => (m, r)
  | k + 1, e, r, m =>
    let r1 := xorshift r
    let r2 := xorshift r1
    let feat (d : Dword) : List Byte :=
      let v : Int := (draw16 d : Int) - 32768
      natLe 2 (fp16.ofNum (Num.quot (.fin (decide (v < 0)) v.natAbs (-15)) (Num.nat 10000)))
    let (l, i) := entryLevel e
    initTables base k (e + 1) r2 (memWriteN m (base + levelOffset l + 4 * i) (feat r1 ++ feat r2))

/-- A new acre in a run of DRAM: its header, its tables, and an empty grid and reservoir; its generator goes on from the draws of its
tables (R201, R219). -/
def State.newAcre (s : State) (key base : Nat) : State :=
  let hdr := natLe 4 0x45524341 ++ natLe 2 1 ++ natLe 2 1 ++ natLe 6 key ++ natLe 2 0 ++ natLe 8 s.dtNs ++ natLe 8 0
    ++ natLe 8 s.dtNs ++ natLe 8 0 ++ natLe 8 0 ++ natLe 4 0 ++ natLe 4 0 ++ s.fld.decoder.getD (List.replicate 48 0)
  let t := initTables base acreEntries 0 (s.boundarySeed key) (s.unmapRun base acreBytes).mem
  let a : Acre := {
     key := key, base := base, trainBase := 0, training := false, trainedSpans := 0, resident := true, rng := t.2
     endpoints := [], renders := [], flash := none, snapshot := false, writing := false, changed := false, rewrite := false, beyond := false, poisoned := false
     evicting := false, deleting := false, mismatchSaid := false, unwrittenSpans := 0, lastUse := s.dtNs }
  let s := { s with
    mem := t.1, fld := { s.fld with acres := sortBy (fun a b => decide (a.key ≤ b.key)) (a :: s.fld.acres) } }
  s.putHdr a 0 hdr

/-- Acres created for the absent keys, or refused: the map is full, or DRAM has no room for one (R219). -/
def State.createAcres (s : State) : State :=
  let keys := s.fld.absentKeys.filter fun k => (s.acre k).isNone
  let r := keys.foldl (fun (r : State × Nat × Nat) k =>
    let s := r.1
    if 65536 ≤ s.fld.acres.length then (s, r.2.1 + 1, 0)
    else if s.poolFree 0 false < 512 then (s, r.2.1 + 1, 1)
    else match s.freeRun 0 0 512 with
      | (none, s) => (s, r.2.1 + 1, 1)
      | (some b, s) =>
        let s := s.newAcre k b
        (s.event 0x09 0x0906 (keyLo k) (keyHi k) s.fld.acres.length, r.2.1, r.2.2)) (s, 0, 0)
  let s := { r.1 with fld := { r.1.fld with absentKeys := [] } }
  if r.2.1 = 0 then s else s.event 0x09 0x0907 r.2.1 r.2.2 0

/-- The order of keys by iz, iy, ix (R219). -/
def keyBefore (a b : Nat) : Bool :=
  let t (k : Nat) := (keyAxis k 2, keyAxis k 1, keyAxis k 0)
  let (az, ay, ax) := t a
  let (bz, by', bx) := t b
  decide (az < bz ∨ (az = bz ∧ (ay < by' ∨ (ay = by' ∧ ax ≤ bx))))

/-- The history of endpoints and render samples brought up to the span that ends, and its counts of spans. -/
def State.rollHistory (s : State) : State :=
  let s := { s with fld := { s.fld with acres := s.fld.acres.map fun (a : Acre) =>
    { (a : Acre) with
      endpoints := (((mapGet s.fld.spanEnds a.key).getD 0) :: a.endpoints).take 200
      renders := (((mapGet s.fld.spanRenders a.key).getD 0) :: a.renders).take 16
      trainedSpans := if a.training then a.trainedSpans + 1 else 0, unwrittenSpans := a.unwrittenSpans + 1 } } }
  { s with fld := { s.fld with spanEnds := [], spanRenders := [] } }

/-- An acre may enter the directory copy: it is resident, is not being deleted or evicted, and was made for the loaded decoder (R219). -/
def State.acreListed (s : State) (a : Acre) : Bool :=
  a.resident && !a.deleting && !a.evicting && decide (some (s.acreRead a 64 48) = s.fld.decoder ∨ s.fld.decoder = none)

/-- The training set that the policy chooses: acres that have not trained 200 spans stay, then the most endpoints (R219). -/
def State.chooseTraining (s : State) : List Nat :=
  let sum (a : Acre) := a.endpoints.foldl (· + ·) 0
  let listed := s.fld.acres.filter s.acreListed
  let stay := listed.filter fun a => a.training && decide (a.trainedSpans < 200)
  let rest := sortBy (fun a b => decide (sum b < sum a) || (decide (sum a = sum b) && keyBefore a.key b.key))
    (listed.filter fun a => decide (0 < sum a) && !(stay.any fun x => decide (x.key = a.key)))
  ((stay ++ rest).take 8).map (·.key)

/-- The coarse slots: the resident acres with the most render samples (R219). -/
def State.chooseCoarse (s : State) : List Nat :=
  let sum (a : Acre) := a.renders.foldl (· + ·) 0
  ((sortBy (fun a b => decide (sum b < sum a) || (decide (sum a = sum b) && keyBefore a.key b.key))
    (s.fld.acres.filter fun a => s.acreListed a && decide (0 < sum a))).take 4).map (·.key)

/-- Chosen keys given numbered places: a key keeps the place it has, the others take the free ones in order. -/
def assignPlaces (size : Nat) (old : List (Option Nat)) (keys : List Nat) : List (Option Nat) :=
  let kept := (List.range size).map fun i => match old.getD i none with
    | some k => if k ∈ keys then some k else none
    | none => none
  (keys.filter fun k => some k ∉ kept).foldl (fun l k =>
    match l.findIdx? (·.isNone) with
    | some i => l.set i (some k)
    | none => l) kept

/-! ## The training set (R202, R219) -/

/-- The MASTER entries of an acre from an entry on, from its FP16 tables. -/
def State.masterFrom (a : Acre) : Nat → Nat → State → State
  | 0, _, s => s
  | k + 1, e, s =>
    let (l, i) := entryLevel e
    let w := s.acreVal a (levelOffset l + 4 * i) 4
    State.masterFrom a k (e + 1)
      (s.tput a 0 e (natLe 4 (fp16.convert fp32 (w % 65536)) ++ natLe 4 (fp16.convert fp32 (w / 65536))))

/-- An acre joins the training set: a run of DRAM for its training state, MASTER from the tables, and zeros. Without room it does not
join. -/
def State.joinTraining (s : State) (key : Nat) : State :=
  match s.acre key with
  | none => s
  | some a =>
    if a.training || decide (s.poolFree 0 false < 2560) then s
    else match s.freeRun 0 0 2560 with
      | (none, s) => s
      | (some b, s) =>
        let a : Acre := { a with training := true, trainBase := b, trainedSpans := 0 }
        State.masterFrom a acreEntries 0 ((s.unmapRun b trainBytes).updAcre key fun _ => a)

/-- An acre that the directory copy no longer trains: its training state is discarded, and it is written if it is dirty (R202, R220). -/
def State.leaveTraining (s : State) (a : Acre) : State :=
  ((s.unmapRun a.trainBase trainBytes).updAcre a.key fun x => { x with training := false, trainBase := 0 }).wantWrite a.key

/-! ## The directory (R203, R204, R219) -/

/-- The directory that the policy gives the engine next: a place in the training set takes a training state. -/
def State.nextDirectory (s : State) : List DirEntry :=
  let train := assignPlaces 8 ((List.range 8).map fun i =>
    (s.fld.dir.find? fun d => decide (d.train.map (·.val) = some i)).map (·.key)) s.chooseTraining
  let coarse := assignPlaces 4 ((List.range 4).map fun i =>
    (s.fld.dir.find? fun d => decide (d.coarse.map (·.val) = some i)).map (·.key)) s.chooseCoarse
  ((s.fld.acres.filter s.acreListed).take 256).map fun a =>
    { key := a.key, base := a.base, trainBase := a.trainBase
      coarse := (List.finRange 4).find? fun i => decide (coarse.getD i.val none = some a.key)
      train := if a.training then (List.finRange 8).find? fun i => decide (train.getD i.val none = some a.key) else none }

/-- A commit that waits is reloaded: the copy, the slots that change hands, and the map parameters (R203, R204, R216). A slot that is
given another acre starts FILLING for it. -/
def State.reloadDirectory (s : State) : State :=
  if !s.fld.commitPending then s
  else
    let dir := s.fld.dirNext
    let slots := Vector.ofFn fun (i : Fin 4) =>
      let key := (dir.find? fun d => decide (d.coarse = some i)).map (·.key)
      let old := s.fld.slots[i]
      if key = old.key then old else { key := key, filling := key.isSome }
    { s with fld := { s.fld with dir := dir, slots := slots, params := s.fld.paramsNext, commitPending := false } }

/-- Rokan firmware writes the directory that it wants, and commits it where that is a change. -/
def State.commitDirectory (s : State) (dir : List DirEntry) : State :=
  { s with fld := { s.fld with dirNext := dir, commitPending := s.fld.commitPending || decide (dir ≠ s.fld.dir) } }

/-- The training allowance for the spans to come (R218). `most` is the maximum that the running image was built for: the sum of
the counts of its training gathers. A span that hit a budget or left a backlog lowers it whatever image comes next; under an image without
training nothing raises it. -/
def State.trainBudget (s : State) (most : Nat) : State :=
  let old := s.fld.trainRays.toNat
  let top := most * s.fld.ceiling / 100
  let bad := s.fld.spanLines || s.fld.spanBacklog
  let clean := if bad then 0 else s.fld.cleanSpans + 1
  let raise := !bad && decide (64 ≤ clean ∧ most ≠ 0)
  let new := if bad then old - old / 8 else if most = 0 then old else if raise then min (old + most / 16) top else min old top
  let s' := { s with fld := { s.fld with
    trainRays := BitVec.ofNat 32 new, cleanSpans := if raise then 0 else clean, spanLines := false, spanBacklog := false } }
  if new = old then s'
  else s'.event 0x09 0x0909 old new (if bad then (if s.fld.spanLines then 0 else 1) else 2)

/-- The maximum training rays that an image carries. -/
def Image.trainMax (img : Image) : Nat :=
  match img.opsOf 0x14 with
  | none => 0
  | some ops => (ops.filter fun o => decide (o.opcode = 0x11) && (img.param (o.argB + 25) 1).testBit 0).foldl
      (fun n o => n + img.param (o.argB + 16) 4) 0

/-- The engine's events of the span that ends (R224). -/
def State.fldSpanEvents (s : State) : State :=
  let s := if s.fld.evtEn && decide (s.fld.spanAbsent ≠ 0) then
      s.event 0x09 0x0902 s.fld.spanAbsent (keyLo (s.fld.firstAbsent.getD 0)) (keyHi (s.fld.firstAbsent.getD 0)) else s
  let s := if s.fld.evtEn && decide (s.fld.spanNonfinite ≠ 0) then s.event 0x09 0x0903 s.fld.nonfiniteOp s.fld.spanNonfinite 0 else s
  { s with fld := { s.fld with
    spanAbsent := 0, firstAbsent := none, spanNonfinite := 0, limitSaid := false, batches := [], gridNext := [] } }

/-- Acres whose decoder differs, recorded once (R219). -/
def State.decoderEvents (s : State) : State :=
  match s.fld.decoder with
  | none => s
  | some d =>
    (s.fld.acres.filter fun a => a.resident && !a.mismatchSaid && decide (s.acreRead a 64 48 ≠ d)).foldl (fun (s : State) a =>
      (s.updAcre a.key fun a => { a with mismatchSaid := true }).event 0x09 0x0908 (keyLo a.key) (keyHi a.key) 0) s

/-! ## Residence (R219, R220) -/

/-- How far a coordinate, times 125, lies outside a cube's edge, for 125 x 8.192 is 1,024. -/
def outside (k : Int) (p : Num) : Num :=
  let q := Num.mul (Num.nat 125) p
  Num.larger (.fin false 0 0) (Num.larger (Num.sub (Num.ofInt (1024 * k) 0 false) q) (Num.sub q (Num.ofInt (1024 * (k + 1)) 0 false)))

/-- An acre lies beyond MAP_KEEP_RADIUS of the robot: the distance is that of the nearest point of its cube from the position of the
pose's head (DESIGN CHOICE, log 66). -/
def State.acreFar (s : State) (a : Acre) : Bool :=
  let p := fp64.vec (s.fus.head.pos.map (·.toNat))
  let d : Vec3 := { x := outside (keyAxis a.key 0) p.x, y := outside (keyAxis a.key 1) p.y, z := outside (keyAxis a.key 2) p.z }
  let r := Num.mul (Num.nat 125) (fp32.decode (s.fld.params.at_ 13))
  Num.lt (Num.mul r r) (d.dot d)

/-- The pages that the map would take at a boundary: for the acres to create, for those to read back, and for the training states to be
(R219, R372). -/
def State.pagesWanted (s : State) : Nat :=
  512 * (s.fld.absentKeys.filter fun k => (s.acre k).isNone).length
    + 512 * (s.fld.acres.filter fun a => !a.resident && a.flash.isSome && !s.acreFar a).length
    + 2560 * (s.fld.acres.filter fun a => !a.training && decide (a.key ∈ s.chooseTraining)).length

/-- How many acres beyond the radius may stay: 256, or fewer while DRAM is short, by as many as make up for what is wanted (R219, R372;
DEDUCED, log 66). -/
def State.furtherAcres (s : State) : Nat :=
  let far := (s.fld.acres.filter fun a => a.resident && s.acreFar a).length
  min 256 (far - ceilDiv (s.pagesWanted - s.poolFree 0 false) 512)

/-- Acres beyond the radius, other than the most recently observed ones that may stay, are to leave; so are those that an eviction by age has
chosen, as long as they lie beyond it (R219, R307). -/
def State.markEvictions (s : State) (further : Nat) : State :=
  let far := sortBy (fun a b => decide (s.acreVal b 32 8 ≤ s.acreVal a 32 8)) (s.fld.acres.filter fun a => a.resident && s.acreFar a)
  let gone := (far.drop further).map (·.key)
  { s with fld := { s.fld with acres := s.fld.acres.map fun a => 
    let beyond := far.any fun x => decide (x.key = a.key)
    { a with beyond := beyond, evicting := a.resident && (decide (a.key ∈ gone) || (a.evicting && beyond)) } } }

/-- Evicted acres that the directory copy no longer names leave DRAM once flash holds them as they are; a write is asked for at every
boundary until then (R220). -/
def State.evictAcres (s : State) : State :=
  (s.fld.acres.filter fun a => a.evicting && !a.training && (s.dirEntry a.key).isNone).foldl (fun (s : State) a =>
    if s.acreDirty a || a.flash.isNone then s.wantWrite a.key
    else if a.writing then s
    else (s.unmapRun a.base acreBytes).updAcre a.key fun a => { a with resident := false, evicting := false, base := 0 }) s

/-- Acres within the radius that are only on flash, requested in class 2 (R219, R310). -/
def State.recallAcres (s : State) : State :=
  (s.fld.acres.filter fun a => !a.resident && a.flash.isSome && !s.acreFar a
      && !(s.mt.queue.any fun r => decide (r.work = .acreFill a.key))).foldl (fun (s : State) a =>
    let q : MoverReq := { cls := 2, work := .acreFill a.key, bytes := acreBytes, fetch := 2048, tiles := false, fetched := false, held := false, onMirror := false, partition := 0 }
    { s with mt := { s.mt with queue := s.mt.queue ++ [q] } }) s

/-- Training acres written at least every 12,000 spans; a write that waits for the snapshot buffer has it when it is free (R220). -/
def State.periodicWrites (s : State) : State :=
  ((s.fld.acres.filter fun a => a.training && decide (12000 ≤ a.unwrittenSpans)).foldl
    (fun (s : State) a => s.wantWrite a.key) s).queueSnapshot

/-- Acres that MAP_ACRE_DELETE named: once they are out of the directory copy they are freed, and the command completes (R219). -/
def State.deleteAcres (s : State) (dt : Nat) : State :=
  (s.fld.acres.filter (·.deleting)).foldl (fun (s : State) a =>
    if (s.dirEntry a.key).isSome then s
    else
      let s := if a.training then s.unmapRun a.trainBase trainBytes else s
      let s := if a.resident then s.unmapRun a.base acreBytes else s
      let s := { s with
        fld := { s.fld with acres := s.fld.acres.filter fun x => decide (x.key ≠ a.key) }
        mt := { s.mt with queue := s.mt.queue.filter fun r =>
          match r.work with | .snapshot g | .acreWrite g | .acreFill g | .reloadAcre g _ _ => decide (g ≠ a.key) | _ => true } }
      let s := s.event 0x09 0x090B (keyLo a.key) (keyHi a.key) 0
      let mine (j : Job) : Bool := match j.kind with | .acreDelete g _ => decide (g = a.key) | _ => false
      (s.fw.jobs.filter mine).foldl (fun (s : State) (j : Job) => s.completeJob j stOk 0 0 0 0 dt) s) s

/-! ## The boundary -/

/-- What Rokan firmware decides at a boundary, once the commit before it has been reloaded: which acres exist, are resident and train,
and the directory that the engine reloads at the next boundary (R219). -/
def State.mapPolicy (s : State) (most : Nat) : State :=
  let dropped := s.fld.acres.filter fun a => a.training && ((s.dirEntry a.key).bind (·.train)).isNone
  let s := dropped.foldl State.leaveTraining s
  let further := s.furtherAcres
  let s := (s.createAcres.decoderEvents).trainBudget most
  let s := s.markEvictions further
  let s := s.chooseTraining.foldl State.joinTraining s
  let s := s.commitDirectory s.nextDirectory
  (s.evictAcres.recallAcres).periodicWrites

/-- The map and the field engine at a boundary: a commit that waits is reloaded, Rokan firmware decides, and the allowance comes into
force (R203, R216 to R220). -/
def State.fldBoundary (s : State) : State :=
  let most := ((s.image 0).map Image.trainMax).getD 0
  let s := ((s.fldSpanEvents.rollHistory).reloadDirectory).seedAcres
  let s := if s.cpRuns 0 then s.mapPolicy most else s
  { s with fld := { s.fld with trainLive := s.fld.trainRays, raysLeft := s.fld.trainRays.toNat } }

end Sys2Proof.Machine
end

