-- ==== Sys2Proof/Machine/Place.lean ====
section
/-!
DEFINITION. Place memory and the place search engine: distances, the walk of a shard, queries, inserts, spills, filing,
and publication at a boundary (chapter 12).
-/
namespace Sys2Proof.Machine

/-! ## The engine's counters and indexes -/

/-- The service operation that runs, with its `PARAMS`. -/
def State.psService (s : State) : Option (Running × Image) :=
  match (s.seq .ps).running.find? fun r => decide (r.op.opcode = 0x10), s.sectionOf .ps with
  | some r, some (_, img, _) => some (r, img)
  | _, _ => none
/-- A partition that is paused: its queued jobs wait (R77, R78). -/
def State.partPaused (s : State) (p : Fin 4) : Bool := s.sched.paused[p] || s.sched.hostPause[p]
/-- A window runs and takes queued work. -/
def State.psWindow (s : State) : Bool :=
  s.ps.queueEn && match s.psService with
    | some (r, img) => decide (s.grain ≤ img.param r.op.argB 2)
    | none => false

/-! ## Distances (R276, R277) -/

/-- The distance between two slices in FP32, summed in increasing order of the dimensions. -/
def sliceDist (metric : Nat) : List Nat → List Nat → Nat → Nat
  | a :: as, b :: bs, acc =>
    let x := fp16.convert fp32 a
    let y := fp16.convert fp32 b
    let d := fp32.sub x y
    let t := if metric = 0 then fp32.mul d d else fp32.mul (fp32.mul x y) 0xBF800000
    sliceDist metric as bs (fp32.add acc t)
  | _, _, acc => acc

/-- FP16 values of bytes. -/
def halves (bs : List Byte) : List Nat := (List.range (bs.length / 2)).map fun k => fieldAt bs (2 * k) 2
/-- A free vector of `dim` finite FP16 values. -/
def State.drawVec (s : State) (dim : Nat) : List Byte × State :=
  let r := s.drawBytes (2 * dim)
  ((halves r.1).flatMap fun v => natLe 2 (if fp16.finite v then v else 0), r.2)

/-- Centroid j of subspace m. -/
def centroid (tables : List Byte) (dim m subs j : Nat) : List Nat :=
  let n := dim / subs
  halves ((tables.drop (2 * n * (256 * m + j))).take (2 * n))

/-- The distance table of a vector: M rows of 256 entries. -/
def distTable (ix : PsIndex) (tables : List Byte) (vec : List Byte) : List (List Nat) :=
  let v := halves vec
  let n := ix.dim / ix.codeBytes
  (List.range ix.codeBytes).map fun m =>
    (List.range 256).map fun j => sliceDist ix.metric ((v.drop (n * m)).take n) (centroid tables ix.dim m ix.codeBytes j) 0

/-- The distance of a code under a table. -/
def codeDist (table : List (List Nat)) (code : List Byte) : Nat :=
  (table.zip code).foldl (fun a r => fp32.add a (r.1.getD r.2.toNat 0)) 0

/-- The distances of a code to every code, from the centroid-distance table. -/
def centroidTable (ix : PsIndex) (tables : List Byte) (code : List Byte) : List (List Nat) :=
  (code.zip (List.range ix.codeBytes)).map fun (c, m) =>
    (List.range 256).map fun j =>
      fp16.convert fp32 (fieldAt tables (512 * ix.dim + 2 * (65536 * m + 256 * c.toNat + j)) 2)

/-- The entry of least value, ties to the lower index. -/
def leastOf (row : List Nat) : Nat :=
  ((row.zip (List.range row.length)).foldl (fun (a : Option (Nat × Nat)) e =>
    match a with
    | none => some e
    | some b => if fp32.lt e.1 b.1 then some e else some b) none).map (·.2) |>.getD 0

/-- A vector's code. -/
def encodeVec (table : List (List Nat)) : List Byte := table.map fun row => BitVec.ofNat 8 (leastOf row)

/-! ## The walk (R280, R282) -/

/-- A slot of a record is visible at an epoch. -/
def slotVisible (r : PsRec) (slot : Nat × Nat) (e : Nat) : Bool := decide (r.epochIn + slot.2 ≤ e)

/-- The order of a queue: distance, then local index. -/
def candLe (a b : PsCand) : Bool := fp32.lt a.dist b.dist || (fp32.le a.dist b.dist && decide (a.idx ≤ b.idx))

/-- The distance of a record of a shard. -/
def recDist (table : List (List Nat)) (recs : List PsRec) (i : Nat) : Nat :=
  codeDist table (((recs[i]?).map (·.code)).getD [])

/-- A round's records expanded: every visible slot's record that has not been visited joins the queue, which keeps the l
best. -/
def expandRound (table : List (List Nat)) (recs : List PsRec) (l e : Nat) (batch : List Nat) (w : List PsCand × List Nat) :
    List PsCand × List Nat :=
  let w := batch.foldl (fun (w : List PsCand × List Nat) n =>
    match recs[n]? with
    | none => w
    | some r => r.slots.foldl (fun (w : List PsCand × List Nat) sl =>
        if slotVisible r sl e && !decide (sl.1 ∈ w.2) then
          ((insertBy candLe { dist := recDist table recs sl.1, idx := sl.1, expanded := false } w.1).take l, sl.1 :: w.2)
        else w) w) w
  (w.1.map fun c => if c.idx ∈ batch then { c with expanded := true } else c, w.2)

/-- The next round: the w best unexpanded records. -/
def nextRound (queue : List PsCand) (w : Nat) : List Nat := ((queue.filter fun c => !c.expanded).take w).map (·.idx)

/-- The queue and the visited set at the start of a walk. -/
def walkStart (table : List (List Nat)) (recs : List PsRec) (e : Nat) : List PsCand × List Nat :=
  match recs with
  | r :: _ => if r.epochIn ≤ e then ([{ dist := recDist table recs 0, idx := 0, expanded := false }], [0]) else ([], [])
  | [] => ([], [])

/-- A whole walk, one round a step: its queue and its rounds. -/
def walkFrom (table : List (List Nat)) (recs : List PsRec) (l w e : Nat) : Nat → List PsCand × List Nat → Nat → List PsCand × Nat
  | 0, st, n => (st.1, n)
  | fuel + 1, st, n =>
    match nextRound st.1 w with
    | [] => (st.1, n)
    | batch => walkFrom table recs l w e fuel (expandRound table recs l e batch st) (n + 1)

/-- The walk of a shard. -/
def walk (table : List (List Nat)) (recs : List PsRec) (l w e : Nat) : List PsCand × Nat :=
  walkFrom table recs l w e (recs.length + 1) (walkStart table recs e) 0

/-! ## Survivors (R280, R283, R285) -/

/-- A vector is deleted, or spilled, for an epoch. -/
def PsIndex.gone (ix : PsIndex) (r : PsRec) (e : Nat) : Bool :=
  (ix.tombs.any fun t => decide (t.1 = r.id ∧ t.2 ≤ e)) ||
    match r.spilled with
    | some t => decide (t ≤ e)
    | none => false

/-- Each component of an acre key is within bounds. -/
def acreWithin (a lo hi : Nat) : Bool :=
  (List.range 3).all fun k =>
    decide (signedOf 16 (lo / 2 ^ (16 * k)) ≤ signedOf 16 (a / 2 ^ (16 * k)) ∧
      signedOf 16 (a / 2 ^ (16 * k)) ≤ signedOf 16 (hi / 2 ^ (16 * k)))

/-- A record passes a query's filters. -/
def passes (d : List Byte) (r : PsRec) : Bool :=
  (decide (fieldAt d 16 2 = 0) || decide (r.label = fieldAt d 16 2)) && (fieldAt d 18 1).testBit r.kind
    && (!(fieldAt d 10 2).testBit 3 || acreWithin r.acre (fieldAt d 20 6) (fieldAt d 26 6))
    && decide (fieldAt d 32 8 ≤ r.obsDt) && (decide (fieldAt d 40 8 = 0) || decide (r.obsDt ≤ fieldAt d 40 8))

/-- The order of results. -/
def survivorLe (a b : Survivor) : Bool := fp32.lt a.dist b.dist || (fp32.le a.dist b.dist && decide (a.record.id ≤ b.record.id))

/-- The survivors of a final queue. -/
def survivors (ix : PsIndex) (recs : List PsRec) (d : List Byte) (e tier : Nat) (queue : List PsCand) : List Survivor :=
  queue.filterMap fun c =>
    match recs[c.idx]? with
    | none => none
    | some r => if !ix.gone r e && passes d r then some { dist := c.dist, tier := tier, record := r } else none

/-! ## Queries -/

/-- Its candidate queue: `QUEUE_L`, or four times that in a widened run, at most 4,096 (R286). -/
def PsQuery.l (q : PsQuery) : Nat := if q.widened then min 4096 (4 * q.d 6 2) else q.d 6 2
/-- Node blocks of a shard asked of the mover: one that is on its way already is read once for all (R284, R294). -/
def State.askBlocks (s : State) (ix : PsIndex) (serial : Nat) (blocks : List Nat) : State :=
  let coming (b : Nat) : Bool := s.mt.queue.any fun r => match r.work with
    | .nodeBlocks h n bs => decide (h = ix.handle ∧ n = serial ∧ b ∈ bs)
    | _ => false
  match blocks.filter fun b => !coming b with
  | [] => s
  | new =>
    let req : MoverReq := { cls := 1, work := .nodeBlocks ix.handle serial new, bytes := 4096 * new.length, fetch := 0, tiles := false,
                            fetched := false, held := false, onMirror := false, partition := ix.part }
    { s.psCount 6 new.length with mt := { s.mt with queue := s.mt.queue ++ [req] } }

/-- The flash walk's next round: its node blocks are asked of the mover; with none to read the walk is over (R294). -/
def State.flashRound (s : State) (q : PsQuery) (ix : PsIndex) : State :=
  match nextRound q.queue (q.d 8 1) with
  | [] => s.updQuery q.num fun q => { q with round := [], walking := false }
  | batch =>
    let blocks := (batch.map fun i => i / ix.perBlock).eraseDups
    let s := s.updQuery q.num fun q => { q with round := batch, blocks := q.blocks + blocks.length, rounds := q.rounds + 1 }
    s.askBlocks ix (ix.shardAt q.epoch).1 blocks

/-- The tables of an index. -/
def State.psTables (_ : State) (ix : PsIndex) : List Byte := ix.tables

/-- A run of a query starts: its flash walk from the entry record (R282). -/
def State.startWalk (s : State) (q : PsQuery) (ix : PsIndex) : State :=
  if (q.d 9 1).testBit 1 then
    let w := walkStart (distTable ix (s.psTables ix) q.vec) (ix.flashAt q.epoch) q.epoch
    let q := { q with queue := w.1, visited := w.2, walking := true }
    (s.updQuery q.num fun _ => q).flashRound q ix
  else s.updQuery q.num fun q => { q with walking := false }

/-- Queries in the order in which a window takes them: forced first, then by submission (R293); those of a paused partition wait
(R77, R78). -/
def State.queueOrder (s : State) (serve : Nat) : List PsQuery :=
  let waiting := s.ps.queries.filter fun q => q.taken.isNone && q.awaits.isNone && !s.partPaused (handlePart (q.d 0 4))
  let forced := waiting.filter fun q => (q.d 10 2).testBit 1
  if serve = 1 then forced else forced ++ waiting.filter fun q => !(q.d 10 2).testBit 1

/-- The longest prefix that a batch holds: at most 256 queries, with M and L the largest of the batch (R293). -/
def batchOf (m : PsQuery → Nat) : List PsQuery → List PsQuery → List PsQuery
  | [], acc => acc
  | q :: qs, acc =>
    let all := acc ++ [q]
    let bm := all.foldl (fun n x => max n (m x)) 0
    let bl := all.foldl (fun n x => max n x.l) 0
    if all.length ≤ min 256 (6291456 / (1024 * bm + 16 * bl)) then batchOf m qs all else acc

/-- A query that a batch takes: its epoch is fixed, and its run starts. -/
def State.takeQuery (s : State) (q : PsQuery) : State :=
  match s.psIndex (q.d 0 4) with
  | none => s
  | some ix =>
    let q := { q with taken := some (ix.epoch, s.dtNs) }
    (s.updQuery q.num fun _ => q).startWalk q ix

/-- A window takes the next batch once no query of the batch before runs. -/
def State.takeBatch (s : State) : State :=
  match s.psService with
  | none => s
  | some (r, img) =>
    if s.psWindow && !(s.ps.queries.any fun q => q.taken.isSome) then
      let m (q : PsQuery) : Nat := ((s.psIndex (q.d 0 4)).map (·.codeBytes)).getD 16
      let batch := batchOf m (s.queueOrder (img.param (r.op.argB + 2) 1)) []
      let s := { s with ps := { s.ps with batchMiss := false } }
      batch.foldl State.takeQuery s
    else s

/-- A flash round proceeds: its records are expanded, and the next round's blocks are asked for. -/
def State.roundOn (s : State) (q : PsQuery) (ix : PsIndex) : State :=
  let w := expandRound (distTable ix (s.psTables ix) q.vec) (ix.flashAt q.epoch) q.l q.epoch q.round (q.queue, q.visited)
  let q := { q with queue := w.1, visited := w.2, round := [] }
  (s.updQuery q.num fun _ => q).flashRound q ix

/-- A node block that a query needs could not be read: it is counted and recorded, and then either the mirror gives it and the bad copy is
rewritten, or its index is poisoned (R294, R316, R321). -/
def State.blockLost (s : State) (ix : PsIndex) (serial b : Nat) : State :=
  let page := (s.pagesFor (.shard ix.handle serial)).find? fun p => decide (p.pos = b / 4)
  let s := s.flashLost ix.part.castSucc ((page.map (·.lpn)).getD 0) 0
  if ix.mirror then (page.toList).foldl State.repairPage s
  else (State.poisonIndex { s with mt := { s.mt with moverUe := true } } ix b).takeBatch

/-- The node blocks that a query waits for have landed: `bad` of them could not be read (R294). -/
def State.blocksLanded (s : State) (n : Nat) (bad : List Nat) : State :=
  match s.ps.queries.find? fun q => decide (q.num = n) with
  | none => s
  | some q =>
    match s.psIndex (q.d 0 4) with
    | none => s
    | some ix =>
      let mine := q.blocksOf ix
      let serial := (ix.shardAt q.epoch).1
      let waits := s.mt.queue.any fun r => match r.work with
        | .nodeBlocks h k bs => decide (h = ix.handle ∧ k = serial) && bs.any fun b => decide (b ∈ mine)
        | _ => false
      if !s.psWindow || mine.isEmpty || waits then s
      else
        let s := (bad.filter fun b => decide (b ∈ mine)).foldl (fun (s : State) b => if s.psIndex ix.handle = some ix then s.blockLost ix serial b else s) s
        if s.psIndex ix.handle ≠ some ix then s
        else if q.scanning then s.updQuery n fun q => { q with scanning := false }
        else s.roundOn q ix

/-! ## The shares of a window (R293) -/

/-- A grain of the window in which inserts, spills or a scan have work. -/
def State.insertWork (s : State) : State :=
  { s with ps := { s.ps with
    insertAt := some s.grain, insertGrains := if s.ps.insertAt = some s.grain then s.ps.insertGrains else s.ps.insertGrains + 1 } }

/-- Inserts, spills and scans have their turn in the window that runs: it serves all work, and they have grains of `INSERT_SHARE` left, or no
query can use the time (R293; how the grains are counted is DEDUCED, log 51). -/
def State.insertTurn (s : State) : Bool :=
  match s.psService with
  | none => false
  | some (r, img) =>
    let serve := img.param (r.op.argB + 2) 1
    let grains := img.param r.op.argB 2 + 1 - s.ps.windowFrom
    let inShare := decide (s.ps.insertAt = some s.grain ∨ 100 * (s.ps.insertGrains + 1) ≤ img.param (r.op.argB + 3) 1 * grains)
    let idle := !(s.ps.queries.any fun q => q.taken.isSome && !q.scanning) && (s.queueOrder serve).isEmpty
    s.psWindow && decide (serve = 0) && (inShare || idle)

/-- Sixty grains were left when the work that ends now could have begun: after the window's issue and after the work before it (R288). -/
def State.insertFits (s : State) : Bool :=
  match s.psService with
  | none => false
  | some (r, img) => decide (max s.ps.windowFrom (s.ps.insertAt.getD 0) + 60 ≤ img.param r.op.argB 2)

/-- The exhaustive ranking of R295. -/
def exhaustive (ix : PsIndex) (table : List (List Nat)) (q : PsQuery) : List Survivor :=
  let all (recs : List PsRec) (tier : Nat) : List Survivor := recs.filterMap fun r =>
    if r.epochIn ≤ q.epoch ∧ !ix.gone r q.epoch ∧ passes q.desc r then
      some { dist := codeDist table r.code, tier := tier, record := r }
    else none
  let d := if (q.d 9 1).testBit 0 then all ix.dram 0 else []
  let f := if (q.d 9 1).testBit 1 then all (ix.flashAt q.epoch) 1 else []
  (sortBy survivorLe (d ++ f)).take (q.d 4 2)

/-- A query's walks are over: survivors, the merge, widening, and the result (R283, R286, R295). -/
def State.queryWalked (s : State) (q : PsQuery) (ix : PsIndex) : State :=
  let table := distTable ix (s.psTables ix) q.vec
  let dram := if (q.d 9 1).testBit 0 then walk table ix.dram q.l 1 q.epoch else ([], 0)
  let q := { q with rounds := q.rounds + dram.2 }
  let found := sortBy survivorLe (survivors ix ix.dram q.desc q.epoch 0 dram.1
    ++ (if (q.d 9 1).testBit 1 then survivors ix (ix.flashAt q.epoch) q.desc q.epoch 1 q.queue else []))
  let k := q.d 4 2
  if found.length < k ∧ (q.d 10 2).testBit 0 ∧ !q.widened then
    let q := { q with widened := true }
    ((s.psCount 2 1).updQuery q.num fun _ => q).startWalk q ix
  else
    let entries := found.take k
    let checked : Bool := (q.d 10 2).testBit 2
    if checked && !q.scanned then
      -- the scan: each record and each node block read once, in the insert share (R295)
      if !s.insertTurn then s
      else
        let blocks := if (q.d 9 1).testBit 1 then List.range (ceilDiv (ix.flashAt q.epoch).length ix.perBlock) else []
        let s := s.insertWork.updQuery q.num fun q => { q with scanned := true, scanning := !blocks.isEmpty }
        s.askBlocks ix (ix.shardAt q.epoch).1 blocks
    else
    let hits := if (q.d 10 2).testBit 2 then
        some ((entries.filter fun x => (exhaustive ix table q).any fun y => decide (y.record.id = x.record.id)).length)
      else none
    (s.endQuery q (if found.length < k then stShort else stOk) entries hits).takeBatch

/-- A mismatch: recorded, with 1 when it ends the batch or drops the insert. -/
def State.psMismatch (s : State) (h unit ended : Nat) : State :=
  State.psEvent { s with ps := { s.ps with mismatch := true } } 0x0C07 h unit ended

/-- A second mismatch of a batch, or a word or a line that it could not read, ends every query of the batch (R296, R414). -/
def State.endBatch (s : State) (h unit status : Nat) : State :=
  let s := (s.psMismatch h unit 1).engineFailed 0x0C
  ((s.ps.queries.filter fun q => q.taken.isSome).foldl (fun (s : State) (q : PsQuery) => s.endQuery q status [] none) s).takeBatch

/-- A query's walk ends. A mismatch runs the round again once for the batch; a second one ends the batch (R296). -/
def State.queryDone (s : State) (n : Nat) (chk : Check) : State :=
  match s.ps.queries.find? fun q => decide (q.num = n) with
  | none => s
  | some q =>
    match s.psIndex (q.d 0 4) with
    | none => s
    | some ix =>
      if !s.psWindow || q.taken.isNone || q.walking || q.scanning then s
      else
        match s.checkFound .ps chk with
        | (.nothing, s) => s.queryWalked q ix
        | (.unread status, s) => s.endBatch ix.handle 0xFF status
        | (.mismatch u both, s) =>
          let again := !s.ps.batchMiss
          let s := if again then s.psMismatch ix.handle u 0 else s
          let s := { s with ps := { s.ps with batchMiss := true } }
          if again && !both then s.queryWalked q ix else s.endBatch ix.handle u errResidue

/-- A query whose `MAX_WAIT_MS` has passed (R293). -/
def State.queryLate (s : State) (q : PsQuery) : Bool :=
  decide (q.d 12 4 ≠ 0 ∧ q.submitDt + q.d 12 4 * 1000000 ≤ s.dtNs)

/-- It completes with `ERR_DEADLINE` and no entries. -/
def State.expireQuery (s : State) (q : PsQuery) : State :=
  let h := q.d 0 4
  let s := (s.updIndex h fun i => { i with spanExpired := i.spanExpired + 1 }).psCount 7 1
  s.endQuery q errDeadline [] none

/-- Every query whose wait has passed. -/
def State.expireAll (s : State) : State := (s.ps.queries.filter s.queryLate).foldl State.expireQuery s

/-! ## Inserts (R288) -/

/-- The out-edges of a new record: candidates kept in queue order. -/
def keepEdges (ix : PsIndex) (tables : List Byte) (recs : List PsRec) : List PsCand → List Nat → List Nat
  | [], kept => kept
  | c :: cs, kept =>
    if ix.insertDegree ≤ kept.length then kept
    else
      let alpha := fp32.div (fp32.ofInt ix.alpha) 0x42800000
      let code := ((recs[c.idx]?).map (·.code)).getD []
      let shut := kept.any fun k =>
        fp32.le (fp32.mul alpha (codeDist (centroidTable ix tables (((recs[k]?).map (·.code)).getD [])) code)) c.dist
      keepEdges ix tables recs cs (if shut then kept else kept ++ [c.idx])

/-- A back-edge into a neighbour's first empty slot; the count of edges not written goes up otherwise. -/
def backEdge (degree pending new : Nat) (a : List PsRec × Nat) (k : Nat) : List PsRec × Nat :=
  match a.1[k]? with
  | none => a
  | some r =>
    if r.slots.length < degree ∧ pending - r.epochIn < 0xFFFFFFFF then
      (a.1.set k { r with slots := r.slots ++ [(new, pending - r.epochIn)] }, a.2)
    else (a.1, a.2 + 1)

/-- A record linked into a shard by a search with a table: the shard, and the back-edges dropped. -/
def linkRecord (ix : PsIndex) (tables : List Byte) (table : List (List Nat)) (recs : List PsRec) (r : PsRec) (pending : Nat) :
    List PsRec × Nat :=
  let kept := keepEdges ix tables recs (walk table recs ix.insertL 1 pending).1 []
  let new := recs.length
  kept.foldl (backEdge ix.degree pending new) (recs ++ [{ r with slots := kept.map fun k => (k, 0) }], 0)

/-- The most vectors that a flash shard holds (R279). -/
def PsIndex.flashCap (ix : PsIndex) : Nat := min (2 ^ 32) (ix.perBlock * (ix.flashBytes / 4096))

/-- The vectors of the DRAM shard that are not spilled. -/
def PsIndex.unspilled (ix : PsIndex) : Nat := (ix.dram.filter fun r => !r.reclaimed && r.spilled.isNone).length
/-- The DRAM shard has passed `SPILL_HIGH` (R289). -/
def PsIndex.passedHigh (ix : PsIndex) : Bool := decide (ix.dramCap * ix.spillHigh < 100 * ix.unspilled)
/-- A spill can still make room in the DRAM shard: one is under way, or one will begin and the flash shard has room. -/
def State.canSpill (s : State) (ix : PsIndex) : Bool :=
  (ix.dram.any fun r => r.spilled.isSome && !r.reclaimed)
    || ((ix.spilling || ix.passedHigh) && decide (ix.flash.length < ix.flashCap) && !s.flashFull && decide (ix.unspilled ≠ 0))

/-- The insert command of a queued vector. -/
def State.insertJob (s : State) (v : PsInsert) : Option Job :=
  match v.job with
  | none => none
  | some (m, tag) => s.fw.jobs.find? fun j => decide (j.mbx = m ∧ j.tag = tag) && match j.kind with
    | .placeInsert _ _ _ _ => true
    | _ => false

/-- An insert command counts one of its vectors as inserted with an ID, or as dropped. -/
def State.insertCounted (s : State) (v : PsInsert) (id : Option Nat) : State :=
  match s.insertJob v with
  | none => s
  | some j =>
    match j.kind with
    | .placeInsert h count first left =>
      let kind : JobKind := match id with
        | some i => .placeInsert h count (if first = 0 then i else first) (left - 1)
        | none => .placeInsert h (count - 1) first (left - 1)
      { s with fw := { s.fw with jobs := s.fw.jobs.map fun (x : Job) => if x = j then { x with kind := kind } else x } }
    | _ => s

/-- A vector turned away with a status: its command completes, and the rest of its vectors leave the queue. -/
def State.insertRefused (s : State) (ix : PsIndex) (v : PsInsert) (status : Nat) : State :=
  let s := s.updIndex ix.handle fun i => { i with
    queue := i.queue.drop 1 |>.filter (fun x => v.job.isNone || decide (x.job ≠ v.job)), insertRetried := false }
  match s.insertJob v with
  | some j => s.completeJob j status 0 0 0 0 s.dtNs
  | none => s

/-- A vector refused for want of room, counted for the span (R288). -/
def State.insertFull (s : State) (ix : PsIndex) (v : PsInsert) : State :=
  (s.updIndex ix.handle fun i => { i with spanFull := i.spanFull + 1 }).insertRefused ix v errNoResource

/-- The next vector of an index inserted into its DRAM shard. -/
def State.insertOne (s : State) (ix : PsIndex) (v : PsInsert) : State :=
  let pending := ix.epoch + 1
  let table := distTable ix (s.psTables ix) v.vec
  let r : PsRec := { id := ix.nextId, epochIn := pending, kind := v.kind, spilled := none, obsDt := v.obsDt, label := v.label
                     acre := v.acre, code := encodeVec table, slots := [], reclaimed := false, place := ix.freePlace }
  let link := linkRecord ix (s.psTables ix) table ix.dram r pending
  let edges := ix.spanEdges + link.2
  let s := (s.putShard ix link.1).updIndex ix.handle fun i => { i with
    nextId := i.nextId + 1, queue := i.queue.drop 1, changed := true, spanEdges := edges, insertRetried := false
    fresh := i.fresh ++ v.job.toList.map fun j => (ix.nextId, j) }
  let s := (s.psCount 3 1).psCount 5 link.2
  let s := if v.track = 0 then s else s.noteVector v.track v.obsDt ix.nextId
  s.insertCounted v (some ix.nextId)

/-- A vector is inserted, in the insert share of a window, with 60 grains left as it started (R288, R293). -/
def State.insertDone (s : State) (i : Fin 16) (chk : Check) : State :=
  match s.ps.indexes[i] with
  | none => s
  | some ix =>
    match ix.queue with
    | [] => s
    | v :: _ =>
      if !s.insertTurn || !s.insertFits || ix.poisoned || s.partPaused ix.part then s
      else if ix.dramCap ≤ ix.dramCount then (if s.canSpill ix then s else s.insertFull ix v)
      else
        let s := s.insertWork
        match s.checkFound .ps chk with
        | (.nothing, s) => s.insertOne ix v
        | (.unread status, s) => ((s.psMismatch ix.handle 0xFF 1).engineFailed 0x0C).insertRefused ix v status
        | (.mismatch u both, s) =>
          let s := if ix.insertRetried then s else s.psMismatch ix.handle u 0
          if !both && !ix.insertRetried then s.updIndex ix.handle fun i => { i with insertRetried := true }
          else
            let s := (s.psMismatch ix.handle u 1).engineFailed 0x0C
            (s.updIndex ix.handle fun i => { i with queue := i.queue.drop 1, insertRetried := false }).insertCounted v none

/-! ## Spills and compaction (R289, R291) -/

/-- The next spill batch: the oldest vectors, as many as bring the shard below `SPILL_LOW`, at most 4,096, and no more than the flash shard
has room for (R289). -/
def PsIndex.spillBatch (ix : PsIndex) : List PsRec :=
  let n := ix.unspilled - (ix.dramCap * ix.spillLow - 1) / 100
  (sortBy (fun a b : PsRec => decide (a.epochIn < b.epochIn ∨ (a.epochIn = b.epochIn ∧ a.id ≤ b.id)))
    (ix.dram.filter fun r => !r.reclaimed && r.spilled.isNone && !ix.gone r (ix.epoch + 1))).take (min (min n 4096) (ix.flashCap - ix.flash.length))

/-- Records linked one after another into a flash shard, by their codes. -/
def linkAll (ix : PsIndex) (tables : List Byte) (pending : Nat) (recs : List PsRec) (rs : List PsRec) : List PsRec × Nat :=
  rs.foldl (fun (a : List PsRec × Nat) r =>
    let link := linkRecord ix tables (centroidTable ix tables r.code) a.1 { r with epochIn := pending, spilled := none, place := 0 } pending
    (link.1, a.2 + link.2)) (recs, 0)

/-- The shard that an index is writing to flash: its number and its records. -/
def PsIndex.outShard (ix : PsIndex) : Nat × List PsRec :=
  match ix.compactOut with
  | some recs => (ix.serial + 1, recs)
  | none => (ix.serial, ix.flash)
/-- The number of that shard. -/
def PsIndex.outSerial (ix : PsIndex) : Nat := ix.outShard.1
/-- A record that carries the pending epoch: itself, or a slot of it. -/
def PsIndex.pendingRec (ix : PsIndex) (r : PsRec) : Bool :=
  decide (ix.epoch < r.epochIn) || r.slots.any fun sl => decide (ix.epoch < r.epochIn + sl.2)
/-- The node blocks that are written: those of new records, and in whole those that back-edges changed (R289). -/
def PsIndex.outBlocks (ix : PsIndex) : List Nat :=
  let recs := ix.outShard.2
  (List.range (ceilDiv recs.length ix.perBlock)).filter fun b => ((recs.drop (b * ix.perBlock)).take ix.perBlock).any ix.pendingRec
/-- The flash pages that hold those blocks: four blocks to a page. -/
def PsIndex.outPages (ix : PsIndex) : List Nat := (ix.outBlocks.map (· / 4)).eraseDups

/-- Bytes put over others. -/
def overlay (bs : List Byte) (ws : List (Nat × List Byte)) : List Byte :=
  ws.foldl (fun bs w => bs.take w.1 ++ w.2 ++ bs.drop (w.1 + w.2.length)) bs
/-- The fields of a flash record at an offset: an empty slot's `NB_EPOCH` is all ones, and its other fields are not written (R278). -/
def PsIndex.nodeWrites (ix : PsIndex) (recs : List PsRec) (off : Nat) (r : PsRec) : List (Nat × List Byte) :=
  let at_ := off + 32 + ix.codeBytes
  (off, natLe 8 r.id ++ natLe 6 r.epochIn ++ natLe 1 r.kind ++ natLe 1 0 ++ natLe 8 r.obsDt ++ natLe 2 r.label ++ natLe 6 r.acre ++ r.code)
    :: (List.range ix.degree).flatMap fun k => match r.slots[k]? with
      | some x => [(at_ + 8 * k, natLe 4 x.1 ++ natLe 4 x.2), (at_ + 8 * ix.degree + ix.codeBytes * k, ((recs[x.1]?).map (·.code)).getD [])]
      | none => [(at_ + 8 * k + 4, natLe 4 0xFFFFFFFF)]
/-- A flash page of a shard: record i lies in block i / P at (i mod P) x its size, and what no field takes is free (R278). -/
def State.nodePage (s : State) (ix : PsIndex) (recs : List PsRec) (pos : Nat) : List Byte × State :=
  let (filler, s) := s.drawBytes 16384
  let ws := (List.range 4).flatMap fun b => (List.range ix.perBlock).flatMap fun k =>
    match recs[(4 * pos + b) * ix.perBlock + k]? with
    | some r => ix.nodeWrites recs (4096 * b + k * ix.nodeBytes) r
    | none => []
  (overlay filler ws, s)
/-- The pages of the shard that an index is writing, with their positions. -/
def State.outData (s : State) (ix : PsIndex) : List (Nat × List Byte) × State :=
  ix.outPages.foldl (fun (a : List (Nat × List Byte) × State) pos =>
    let r := a.2.nodePage ix ix.outShard.2 pos
    (a.1 ++ [(pos, r.1)], r.2)) ([], s)

/-- A request of the mover for the writes of an index (class 4). -/
def State.queueSpill (s : State) (h : Nat) : State :=
  match s.psIndex h with
  | none => s
  | some ix =>
    let req : MoverReq := { cls := 4, work := .spill h, bytes := 4096 * max 1 ix.outBlocks.length, fetch := 0, tiles := false,
                            fetched := false, held := false, onMirror := false, partition := ix.part }
    { s with mt := { s.mt with queue := s.mt.queue ++ [req] } }

/-- A spill batch formed in a window that serves all work. -/
def State.spillOne (s : State) (ix : PsIndex) : State :=
  let batch := ix.spillBatch
  if !ix.spilling || ix.spillOut.isSome || ix.compactOut.isSome || batch.isEmpty || ix.poisoned || s.flashFull
      || s.partPaused ix.part then s
  else
    let pending := ix.epoch + 1
    let link := linkAll ix (s.psTables ix) pending ix.flash batch
    let ids := batch.map (·.id)
    let edges := ix.spanEdges + link.2
    let marked := ix.dram.map fun (r : PsRec) => if r.id ∈ ids ∧ r.spilled.isNone then { r with spilled := some pending } else r
    let s := (s.putShard ix marked).updIndex ix.handle fun i => { i with
      flash := link.1, changed := true, spillOut := some batch.length, written := false, spanEdges := edges }
    (s.psCount 5 link.2).insertWork.queueSpill ix.handle

/-- Spill work of every index that needs it. -/
def State.spillAll (s : State) : State :=
  (s.ps.indexes.toList.filterMap id).foldl (fun (s : State) (ix : PsIndex) => s.spillOne ix) s

/-- A compaction started: a new shard of the live vectors, which waits for its writes (R291). -/
def State.compactIndex (s : State) (ix : PsIndex) : State :=
  let pending := ix.epoch + 1
  let live := ix.flash.filter fun r => !ix.gone r pending
  let link := linkAll ix (s.psTables ix) pending [] live
  (s.updIndex ix.handle fun i => { i with compactOut := some link.1, changed := true, written := false }).queueSpill ix.handle

/-- An index without what its outstanding spill or compaction was to publish: no mark, record or slot of it is kept. -/
def PsIndex.withoutSpill (ix : PsIndex) : PsIndex :=
  let seen := (ix.flash.filter fun r => decide (r.epochIn ≤ ix.epoch)).map fun (r : PsRec) =>
    { r with slots := r.slots.filter fun sl => decide (r.epochIn + sl.2 ≤ ix.epoch) }
  { ix with
    flash := if ix.spillOut.isSome then seen else ix.flash
    dram := if ix.spillOut.isSome then
        ix.dram.map fun (r : PsRec) => if r.spilled = some (ix.epoch + 1) then { r with spilled := none } else r
      else ix.dram
    spillOut := none, compactOut := none, written := false }
/-- A change of an index waits to be published. -/
def PsIndex.hasPending (ix : PsIndex) : Bool :=
  ix.spillOut.isSome || ix.compactOut.isSome || ix.dram.any ix.pendingRec || ix.tombs.any fun t => decide (ix.epoch < t.2)

/-- The outstanding spill or compaction of an index given up, and its writes with it. -/
def State.spillDropped (s : State) (ix : PsIndex) : State :=
  let new := ix.withoutSpill
  let s := { s with mt := { s.mt with
    groups := s.mt.groups.filter fun (g : WriteGroup) => decide (g.kind ≠ GroupKind.spill ix.handle)
    queue := s.mt.queue.filter fun (r : MoverReq) => decide (r.work ≠ MoverWork.spill ix.handle) } }
  (s.putShard ix new.dram).updIndex ix.handle fun _ => { new with changed := new.hasPending }

/-- A discarded PLACE_COMPACT has no further effect (R351). -/
def State.compactionDropped (s : State) (h : Nat) : State :=
  match s.psIndex h with
  | none => s
  | some ix => if ix.compactOut.isSome then s.spillDropped ix else s

/-- The writes of an index fail for want of free blocks: the spill or the compaction is given up, and a PLACE_COMPACT fails with it
(R317, R373). -/
def State.spillFailed (s : State) (h : Nat) : State :=
  match s.psIndex h with
  | none => s
  | some ix =>
    let s := s.spillDropped ix
    if ix.compactOut.isNone then s
    else (s.fw.jobs.filter fun (j : Job) => decide (j.kind = .placeCompact h)).foldl
      (fun (s : State) (j : Job) => s.completeJob j errNoResource 0 0 0 0 s.dtNs) s

/-- The flash writes of an index are complete. -/
def State.spillWritten (s : State) (h : Nat) : State :=
  match s.psIndex h with
  | none => s
  | some ix =>
    let s := s.updIndex h fun i => { i with written := true }
    match ix.spillOut with
    | some n => s.psEvent 0x0C05 h n ((ix.epoch + 1) % 2 ^ 32)
    | none => s

/-! ## Filing (R292) -/

/-- One filing record of a list queued for its index, or dropped. -/
def State.fileOne (s : State) (r : List Byte) : State :=
  match s.psIndex (fieldAt r 0 4) with
  | none => s.psCount 4 1
  | some ix =>
    if 65536 ≤ ix.queue.length then
      (s.updIndex ix.handle fun i => { i with spanFile := i.spanFile + 1 }).psCount 4 1
    else
      let v : PsInsert := { obsDt := fieldAt r 4 8, track := fieldAt r 12 4, label := fieldAt r 16 2, kind := fieldAt r 18 1 % 8
                            acre := fieldAt r 20 6, vec := (r.drop 32).take (2 * ix.dim), job := none }
      let s := s.updIndex ix.handle fun i => { i with queue := i.queue ++ [v] }
      { s with fus := { s.fus with filing := s.fus.filing.eraseP fun f => decide (f.track = v.track ∧ v.track ≠ 0) } }

/-- The bytes of the filing record at a pool offset: its header, its values, and padding to 64 bytes. -/
def State.fileSize (s : State) (addr : Nat) : Nat :=
  let dim := ((s.psIndex (s.poolVal addr 4)).map (·.dim)).getD 0
  (32 + 2 * dim + 63) / 64 * 64

/-- Filing records from a pool offset on, as many as are asked. -/
def State.fileRecords (s : State) : Nat → Nat → List (List Byte)
  | 0, _ => []
  | n + 1, addr => s.readPool addr (s.fileSize addr) :: s.fileRecords n (addr + s.fileSize addr)

/-- The records that a PS_FILE copies. -/
def State.fileList (s : State) (img : Image) (o : Op) : List (List Byte) :=
  let addr := img.param o.argB 4
  s.fileRecords (min (s.poolVal (addr + 12) 4) (img.param (o.argB + 4) 2)) (addr + 64)

/-- A filed record of kind 0, a keyframe's place descriptor, given to the queries that wait for one of its length; one that holds an infinity
or a NaN completes them with ERR_ARG (R277). Which camera it is of is not in a filing record, and is free (R292, R358; log 64). -/
def State.keyframeFiled (s : State) (r : List Byte) : State :=
  let dimOf (h : Nat) : Nat := ((s.psIndex h).map (·.dim)).getD 0
  let dim := dimOf (fieldAt r 0 4)
  if dim = 0 ∨ fieldAt r 18 1 ≠ 0 then s
  else
    let vec := (r.drop 32).take (2 * dim)
    s.ps.queries.foldl (fun (s : State) (q : PsQuery) =>
      if q.awaits.isNone ∨ dimOf (q.d 0 4) ≠ dim then s
      else
        let (mine, s) := s.drawBelow 2
        if mine = 0 then s
        else if (halves vec).all fp16.finite then s.updQuery q.num fun q => { q with awaits := none, vec := vec }
        else s.endQuery q errArg [] none) s

/-- The filing record that the object memory makes of an observation that FUS_ANCHOR queued: which index of partition 0 it files into, the
values, and the acre are free, for no rule gives them; nothing while there is no index (R250, R292; log 59). -/
def State.fileObservation (s : State) (f : Filing) : State :=
  let mine := (s.ps.indexes.toList.filterMap id).filter fun i => decide (i.part = 0) && !i.destroying
  let (k, s) := s.drawBelow mine.length
  match mine[k]? with
  | none => s
  | some ix =>
    let (vec, s) := s.drawVec ix.dim
    let (acre, s) := s.draw 48
    s.fileOne (natLe 4 ix.handle ++ natLe 8 f.dt ++ natLe 4 f.track ++ natLe 2 f.label ++ natLe 1 1 ++ natLe 1 0 ++ natLe 6 acre.toNat
      ++ natLe 6 0 ++ vec)

/-- The queries that wait for a keyframe complete, as the schedule's work for it was lost (R75). -/
def State.keyframeLost (s : State) (status : Nat) : State :=
  (s.ps.queries.filter fun q => q.awaits.isSome).foldl (fun (s : State) (q : PsQuery) => s.endQuery q status [] none) s

/-- PS_FILE as it ends; `limit` records of it when a boundary stops it. -/
def State.fileEnd (s : State) (img : Image) (o : Op) (limit : Option Nat) : State :=
  let rs := s.fileList img o
  match limit with
  | some k => (rs.take k).foldl State.fileOne s
  | none =>
    let s := rs.foldl State.keyframeFiled (rs.foldl State.fileOne s)
    (s.fus.filing.foldl State.fileObservation s).takeBatch

/-! ## Boundaries (R281, R289, R291) -/

/-- The oldest epoch of a query that runs on an index, 0 when none does. -/
def State.oldestEpoch (s : State) (h : Nat) : Nat :=
  let es := s.ps.queries.filterMap fun q => if q.d 0 4 = h then q.taken.map (·.1) else none
  es.foldl (fun m e => if m = 0 ∨ e < m then e else m) 0

/-- The epoch from which a record of an index is out of use: its spill's, or its tombstone's. -/
def PsIndex.endEpoch (ix : PsIndex) (r : PsRec) : Option Nat :=
  r.spilled.or ((ix.tombs.find? fun x => decide (x.1 = r.id)).map (·.2))

/-- No query that may still run sees a record of an index: `oldest` is the oldest epoch of a running query, or 0. -/
def PsIndex.unseen (ix : PsIndex) (oldest : Nat) (r : PsRec) : Bool :=
  match ix.endEpoch r with
  | some t => decide (t ≤ ix.epoch) && (decide (oldest = 0) || decide (t ≤ oldest))
  | none => false

/-- Rokan firmware reclaims records that no running query can see (R291). -/
def State.reclaim (s : State) (ix : PsIndex) : State :=
  let oldest := s.oldestEpoch ix.handle
  let s := s.updIndex ix.handle fun i => { i with
    dram := i.dram.map fun (r : PsRec) => if ix.unseen oldest r then { r with reclaimed := true } else r
    oldFlash := i.oldFlash.filter fun o => decide (oldest ≠ 0 ∧ oldest < o.1) }
  -- the blocks of an old shard that no query sees are freed
  (ix.oldFlash.filter fun o => !decide (oldest ≠ 0 ∧ oldest < o.1)).foldl (fun (s : State) o => s.dropPagesFrom (.shard ix.handle o.2.1) 0) s

/-- A change of an index published: inserts, deletes and compactions that waited complete with the boundary's DT. -/
def State.publishJobs (s : State) (h epoch dt : Nat) (compacted : Bool) : State :=
  s.fw.jobs.foldl (fun (s : State) (j : Job) =>
    match j.kind with
    | .placeInsert i count first left =>
      if i = h ∧ left = 0 then s.completeJob j stOk count (first % 2 ^ 32) (first / 2 ^ 32) (epoch % 2 ^ 32) dt else s
    | .placeDelete i _ => if i = h then s.completeJob j stOk 0 0 0 (epoch % 2 ^ 32) dt else s
    | .placeCompact i => if i = h ∧ compacted then s.completeJob j stOk 0 0 0 0 dt else s
    | _ => s) s

/-- The location table of an index brought up to date in its namespace, at 8 B per vector: the pages of vectors that it does not list yet
are written. What an entry says is free, and a write waits while flash is full (R290, R317; log 72). -/
def State.locate (s : State) (ix : PsIndex) : State :=
  let last := ix.nextId - 1
  if last ≤ ix.located || s.flashFull then s
  else
    let first := 8 * ix.located / 16384
    let pages := (List.range (ceilDiv (8 * last) 16384 - first)).map fun k => first + k
    let s := pages.foldl (fun (s : State) pos =>
      let r := s.drawBytes 16384
      r.2.mapPage ix.part.castSucc (.location ix.handle) ix.mirror pos r.1) s
    (s.zeroiseOld ix.part.castSucc).updIndex ix.handle fun i => { i with located := last }

/-- The publication of one index, and the start or end of its spilling. -/
def State.publishIndex (s : State) (ix : PsIndex) : State :=
  let waits := (ix.spillOut.isSome || ix.compactOut.isSome) && !ix.written
  let s :=
    if ix.changed && !waits then
      let e := ix.epoch + 1
      let s := s.updIndex ix.handle fun i => { i with
        epoch := e, changed := false, spillOut := none, compactOut := none, fresh := []
        flash := ix.compactOut.getD i.flash, serial := if ix.compactOut.isSome then i.serial + 1 else i.serial
        oldFlash := if ix.compactOut.isSome then i.oldFlash ++ [(e, i.serial, i.flash)] else i.oldFlash }
      (s.locate ix).publishJobs ix.handle e s.sched.spanStart.toNat ix.compactOut.isSome
    else s
  match s.psIndex ix.handle with
  | none => s
  | some ix =>
    let s := (s.psSpanEvents ix).reclaim ix
    s.updIndex ix.handle fun i => { i with
      spilling := ix.passedHigh || (i.spilling && decide (ix.dramCap * ix.spillLow ≤ 100 * ix.unspilled))
      spanFile := 0, spanEdges := 0, spanFull := 0, spanExpired := 0 }

/-- A PLACE_COMPACT that waits for an index starts once no other shard of it has writes outstanding (R291). -/
def State.startCompaction (s : State) (h : Nat) : State :=
  match s.psIndex h with
  | none => s
  | some ix =>
    if ix.spillOut.isNone && ix.compactOut.isNone && (s.fw.jobs.any fun (j : Job) => decide (j.kind = .placeCompact h)) then s.compactIndex ix
    else s

/-- At the end of `END_GRAIN` a PS_SERVICE completes, and its queries are suspended (R293). -/
def State.psWindowEnd (s : State) : State :=
  match s.psService with
  | some (r, img) =>
    if img.param r.op.argB 2 < s.grain then
      (s.onSeq .ps fun q => { q with running := q.running.filter fun x => decide (x.op.opcode ≠ 0x10) }).setOnDone r.op
    else s
  | none => s

/-- Place memory at a boundary: waits that have passed, and, while Rokan firmware runs on `CP1`, publication and compactions that may
start (R281). -/
def State.psBoundary (s : State) : State :=
  let s := s.expireAll
  if !s.cpRuns 1 then s
  else
    let s := (s.ps.indexes.toList.filterMap id).foldl (fun (s : State) (ix : PsIndex) => s.publishIndex ix) s
    (s.ps.indexes.toList.filterMap id).foldl (fun (s : State) (ix : PsIndex) => s.startCompaction ix.handle) s

/-! ## The rows -/

/-- A PS_SERVICE issues: waits that have passed end, suspended queries go on, and the window takes spills and a batch. -/
def execPsService (s : State) : Host.Outcome State Fault Refusal :=
  .next (s.tryIssue .ps 0x10 (some .main) fun n s =>
    let s := (s.startOp .ps n .main 0 []).expireAll
    let s := { s with ps := { s.ps with windowFrom := s.grain, insertGrains := 0, insertAt := none } }
    if s.psWindow then (if s.insertTurn then s.spillAll else s).takeBatch else s)
/-- PS_FILE (R292), on the filing unit. -/
def execPsFile (s : State) : Host.Outcome State Fault Refusal :=
  .next (s.tryIssue .ps 0x11 (some .vector) fun n s =>
    s.startOp .ps n .vector ((s.fileList n.img n.op).foldl (fun c r => c + 4 * ceilDiv r.length 64) 64) [])
/-- PS_WINDOW_END (R293). -/
def execPsWindowEnd (s : State) : Host.Outcome State Fault Refusal := .next s.psWindowEnd
/-- PS_FLASH_BLOCKS_LANDED (R294). -/
def execPsFlashBlocksLanded (q : Nat) (bad : List Nat) (s : State) : Host.Outcome State Fault Refusal := .next (s.blocksLanded q bad)
/-- PS_QUERY_COMPLETE (R283). -/
def execPsQueryComplete (q : Nat) (chk : Check) (s : State) : Host.Outcome State Fault Refusal := .next (s.queryDone q chk)
/-- PS_QUERY_EXPIRED (R293). -/
def execPsQueryExpired (q : Nat) (s : State) : Host.Outcome State Fault Refusal :=
  .next (match s.ps.queries.find? fun x => decide (x.num = q) with
    | some x => if s.psService.isSome && s.queryLate x then (s.expireQuery x).takeBatch else s
    | none => s)
/-- PS_INSERT_DONE (R288). -/
def execPsInsertDone (i : Fin 16) (chk : Check) (s : State) : Host.Outcome State Fault Refusal := .next (s.insertDone i chk)

end Sys2Proof.Machine
end

