-- ==== Sys2Proof/Machine/MemHw.lean ====
section
/-!
DEFINITION. The memory mover, the flash controller, the patrol scrub, and what the memory manager does at a boundary
(chapter 13).
-/
namespace Sys2Proof.Machine

/-! ## Loads and placement changes that wait for their flash writes (R308, R360) -/

/-- A decoder of partition 0 is the one that acres are held against from its load on (R208, R219). -/
def State.noteDecoder (s : State) (h : Nat) : State :=
  match s.obj h with
  | some o =>
    if handleType h = 0x02 ∧ handlePart h = 0 then { s with fld := { s.fld with decoder := some (sha384 o.bytes) } } else s
  | none => s

/-- Jobs that a predicate names complete with a status; an OBJ_LOAD gives its word 0 where it succeeds. -/
def State.endObjJobs (s : State) (mine : JobKind → Bool) (status : Nat) : State :=
  (s.fw.jobs.filter fun (j : Job) => mine j.kind).foldl (fun (s : State) (j : Job) =>
    s.completeJob j status (match j.kind with | .objLoad _ w => if status = stOk then w else 0 | _ => 0) 0 0 0 s.dtNs) s

/-- A load or a placement change of an object names it. -/
def JobKind.loads (h : Nat) : JobKind → Bool
  | .objLoad g _ | .objPlace g _ _ => decide (g = h)
  | _ => false

/-- The pin of a running placement change is given up (R306). -/
def State.jobUnpinned (s : State) (h : Nat) : State :=
  if (s.obj h).any fun o => o.pins.contains (.job h) then s.unpin h (.job h) else s

/-- A load, a placement change or a write-back of an object is complete: its job completes, and a reload will clear the poison at the next
boundary. -/
def State.objWritten (s : State) (h : Nat) : State :=
  let s := s.updObj h fun o => { o with
    loaded := true, flashLeft := 0, clearing := o.poisoned && !o.loaded, bytes := o.staged.getD o.bytes, staged := none, before := none }
  ((s.jobUnpinned h).noteDecoder h).endObjJobs (JobKind.loads h) stOk

/-- The pages of flash that an object takes. -/
def Obj.flashPages (o : Obj) : Nat := ceilDiv o.size 16384

/-- An object leaves: its flash pages, its requests and its place in DRAM go with it. -/
def State.removeObj (s : State) (o : Obj) : State :=
  let s := if handleType o.handle = 0x02 ∧ handlePart o.handle = 0 ∧ s.fld.decoder = some (sha384 o.bytes) then
      { s with fld := { s.fld with decoder := none } } else s
  let s := s.dropPagesFrom (.object o.handle) 0
  State.unmap { s with mt := { s.mt with
    objects := s.mt.objects.filter fun (x : Obj) => decide (x.handle ≠ o.handle)
    groups := s.mt.groups.filter fun (g : WriteGroup) => decide (g.kind ≠ GroupKind.object o.handle)
    queue := s.mt.queue.filter fun (r : MoverReq) => match r.work with
      | .promote g _ | .objWrite g _ | .reload g _ _ => decide (g ≠ o.handle)
      | _ => true } } o

/-- A partial load discarded: a new object goes, a reload leaves its object poisoned. -/
def State.discardLoad (s : State) (h : Nat) : State :=
  match s.obj h with
  | none => s
  | some o =>
    if o.poisoned then (s.unmap o).updObj h fun o => { o with loaded := true, bytes := [], resident := [] }
    else s.removeObj o

/-- The writes of an object given up: a load is discarded, a placement change leaves the object as it was, and an eviction ends without its
drop. -/
def State.objReverted (s : State) (h : Nat) : State :=
  match s.obj h with
  | none => s
  | some o =>
    if !o.loaded then s.discardLoad h
    else
      let s := { s with mt := { s.mt with
        groups := s.mt.groups.filter fun (g : WriteGroup) => decide (g.kind ≠ GroupKind.object h)
        queue := s.mt.queue.filter fun (r : MoverReq) => match r.work with | .objWrite g _ => decide (g ≠ h) | _ => true } }
      State.jobUnpinned (s.updObj h fun o => { o with
        flashLeft := 0, staged := none, before := none, dropping := false, evictPending := false
        backed := (o.before.map (·.1)).getD o.backed, mirror := (o.before.map (·.2)).getD o.mirror }) h

/-- A write of an object that flash has no room for fails, and the command that asked for it with it (R317). -/
def State.objUnwritten (s : State) (h : Nat) : State :=
  (s.objReverted h).endObjJobs (fun k => k.loads h || match k with | .objEvict g => decide (g = h) | _ => false) errNoResource

/-- A write group handed to the flash controller; with fewer than 16 free blocks the write fails (R314, R317). -/
def State.startGroup (s : State) (g : WriteGroup) : State :=
  if s.flashFull then
    match g.kind with
    | .object h => s.objUnwritten h
    | .acre k => s.updAcre k fun a => { a with writing := false, rewrite := false, snapshot := false }
    | .spill h => s.spillFailed h
  else { s with mt := { s.mt with groups := s.mt.groups ++ [g] } }

/-! ## The mover (R309 to R311) -/

/-- A transfer of a request: a 64 KiB page, a 32 KiB tile, or a 4 KiB node block (R310, R312). -/
def MoverReq.unit (r : MoverReq) : Nat := if r.cls = 1 ∨ r.cls = 4 then 4096 else if r.tiles then 32768 else 65536

/-- The first request that a predicate accepts: those whose reads wait in page registers from an earlier window first, then in class order,
and then in order of arrival (R310). -/
def firstReq (ok : MoverReq → Bool) (q : List MoverReq) : Option MoverReq :=
  (q.find? fun r => r.held && ok r).or ((List.finRange 5).findSome? fun c => q.find? fun r => decide (r.cls = c) && ok r)

/-- The bytes of its next transfer are there: of an acre the pages that lie in front have been read. -/
def MoverReq.ready (r : MoverReq) : Bool :=
  decide (r.fetch = 0) || match r.work with
    | .acreFill _ => decide (16384 * r.fetch + r.unit ≤ r.bytes)
    | _ => false

/-- The first request of a queue that equals one, changed or taken out. -/
def replaceReq (r : MoverReq) (r' : Option MoverReq) : List MoverReq → List MoverReq
  | [] => []
  | x :: xs => if x = r then r'.toList ++ xs else x :: replaceReq r r' xs

/-- What a request does once its last byte has moved. -/
def State.moverWork (s : State) (w : MoverWork) : State :=
  match w with
  | .retire page =>
    { s with mt := { s.mt with remap := s.mt.remap.map fun (r : Retired) => if r.page = page then { r with copied := true } else r } }
  | .reload h page line =>
    let s := { s with mt := { s.mt with poisoned := s.mt.poisoned.filter fun l => decide (l ≠ line) } }
    match s.obj h with
    | some o => s.mapPages o [page]
    | none => s
  | .reloadAcre _ _ line => { s with mt := { s.mt with poisoned := s.mt.poisoned.filter fun l => decide (l ≠ line) } }
  | .nodeBlocks .. => s
  | .promote h page =>
    let s := match s.obj h with
      | some o => s.mapPages o [page]
      | none => s
    (s.updObj h fun o => { o with resident := if page ∈ o.resident then o.resident else o.resident ++ [page] }).promoted h
  | .acreFill key => s.acreFilled key
  | .snapshot key =>
    let s := s.takeSnapshot key
    let q : MoverReq := { cls := 3, work := .acreWrite key, bytes := acreBytes, fetch := 0, tiles := false, fetched := false, held := false, onMirror := false, partition := 0 }
    { s with mt := { s.mt with queue := s.mt.queue ++ [q] } }
  | .acreWrite key => s.startGroup { kind := .acre key, ns := 0, pages := 2048, mirror := false, left := 2048 }
  | .objWrite h _ =>
    match s.obj h with
    | none => s
    | some o =>
      let s := s.updObj h fun o => { o with flashLeft := o.flashLeft - 1 }
      if o.flashLeft ≤ 1 then
        s.startGroup { kind := .object h, ns := (handlePart h).castSucc, pages := o.flashPages, mirror := o.mirror
                       left := o.flashPages * (if o.mirror then 2 else 1) }
      else s
  | .spill h =>
    match s.psIndex h with
    | none => s
    | some ix =>
      let n := max 1 ix.outPages.length
      s.startGroup { kind := .spill h, ns := ix.part.castSucc, pages := n, mirror := ix.mirror
                     left := n * (if ix.mirror then 2 else 1) }

/-- A transfer of the open window, of the first request in its order: it waits while that request's data is not there, it must end by
`END_GRAIN`, and it stays within the budget (R310). -/
def State.transferDone (s : State) : State :=
  match s.mt.window with
  | none => s
  | some w =>
    match firstReq (fun r => w.classMask.testBit r.cls.val) s.mt.queue with
    | none => s
    | some r =>
      let n := min r.bytes r.unit
      if !r.ready ∨ w.endGrain < s.grain ∨ w.left < n then s
      else
        let r' : Option MoverReq := if n < r.bytes then some { r with bytes := r.bytes - n } else none
        let s := { s with mt := { s.mt with
          window := some { w with left := w.left - n }, mvBytes := countUp s.mt.mvBytes n
          queue := replaceReq r r' s.mt.queue } }
        if r'.isNone then s.moverWork r.work else s

/-- A window ends: `LOW` when its budget is spent with requests left (R323); pages that have been read and not moved wait, and go first in
the next (R310). -/
def State.closeWindow (s : State) : State :=
  match s.mt.window with
  | none => s
  | some w =>
    let short := match firstReq (fun r => w.classMask.testBit r.cls.val) s.mt.queue with
      | some r => decide (w.left < min r.bytes r.unit)
      | none => false
    { s with mt := { s.mt with
      window := none, moverLow := s.mt.moverLow || short
      queue := s.mt.queue.map fun (r : MoverReq) => { r with held := r.held || r.fetched } } }

/-! ## Flash reads (R316, R321, R322) -/

/-- The granule address at which a request reads next. -/
def State.fetchAddr (s : State) (r : MoverReq) : Option Nat :=
  match r.work with
  | .promote h page | .reload h page _ =>
    (s.obj h).bind fun o => s.pageAddr (.object h) (4 * page + (min 4 (ceilDiv (o.size - page * 65536) 16384) - r.fetch))
  | .reloadAcre key page _ => s.pageAddr (.acre key) (4 * page + (4 - r.fetch))
  | .acreFill key => s.pageAddr (.acre key) (2048 - r.fetch)
  | _ => none
/-- The flash page that a request reads next. -/
def State.fetchPage (s : State) (r : MoverReq) : Option FlashPage := (s.fetchAddr r).bind s.pageAt

/-- A page that no copy gives: its object is poisoned, and the page stays unmapped (R322). -/
def State.pageLost (s : State) (r : MoverReq) (lpn : Nat) : State :=
  let s := { s with mt := { s.mt with moverUe := true } }
  match r.work with
  | .promote h page => (s.updObj h fun o => { o with unreadable := page :: o.unreadable }).poisonObj h 0 lpn
  | .reload h page _ => (s.updObj h fun o => { o with unreadable := page :: o.unreadable }).poisonObj h 0 lpn
  | .acreFill key =>
    let k := 2048 - r.fetch
    let s := s.updAcre key fun a => { a with flash := a.flash.map fun m => m.filter fun c => decide (c.1 / 16384 ≠ k) }
    let s := { s with mt := { s.mt with queue := replaceReq r (some { r with fetch := r.fetch - 1, onMirror := false }) s.mt.queue } }
    s.poisonAcre key 0 lpn
  | .reloadAcre key _ _ =>
    let s := { s with mt := { s.mt with queue := replaceReq r none s.mt.queue } }
    s.poisonAcre key 0 lpn
  | _ => s

/-- An epoch that a key slot of a namespace holds (R319). -/
def NsKeys.reads (k : NsKeys) (e : Nat) : Bool := decide (e = k.epoch ∨ k.old = some e)

/-- What the controller finds of a copy: an epoch that no key slot holds makes any page uncorrectable (R319). -/
def State.readResult (s : State) (ns : Fin 5) (copy : Option PageCopy) (res : FlashRead) : FlashRead :=
  if copy.all fun c => s.sec.keys[ns].reads c.epoch then res else .badEpoch

/-- A flash page read ends, of the first request of the open window's classes that has pages to come (R310, R316). -/
def State.readDone (s : State) (res : FlashRead) : State :=
  match s.mt.window with
  | none => s
  | some w =>
    match firstReq (fun r => w.classMask.testBit r.cls.val && decide (0 < r.fetch)) s.mt.queue with
    | none => s
    | some r =>
      if w.endGrain < s.grain then s
      else
      let page := s.fetchPage r
      let lpn := (page.map (·.lpn)).getD 0
      let ns := (page.map (·.ns)).getD r.partition.castSucc
      let copy := page.bind fun p => p.copyOf r.onMirror
      let res := s.readResult ns copy res
      let s := match copy with
        | some c => s.updBlock c.die c.block fun b => { b with reads := b.reads + 1, degraded := b.degraded || decide (res = FlashRead.retried ∨ res = FlashRead.worn) }
        | none => s
      let s := if res = FlashRead.retried ∨ res = FlashRead.failed then { s with mt := { s.mt with fcRetries := countUp s.mt.fcRetries 1 } } else s
      match res with
      | .decoded | .worn | .retried =>
        let s := { s with mt := { s.mt with
          queue := replaceReq r (some { r with fetch := r.fetch - 1, fetched := true, onMirror := false }) s.mt.queue } }
        match page with
        | some p => if r.onMirror then s.repairPage p else s
        | none => s
      | .failed | .badCrc | .badEpoch =>
        let s := s.flashLost ns lpn (match res with | .badCrc => 1 | .badEpoch => 2 | _ => 0)
        if !r.onMirror && (page.bind fun p => p.copyOf true).isSome then
          { s with mt := { s.mt with queue := replaceReq r (some { r with onMirror := true }) s.mt.queue } }
        else s.pageLost r lpn

/-! ## Flash programs and background work (R314, R317, R319) -/

/-- Pages by their positions. -/
def numbered (pages : List (List Byte)) : List (Nat × List Byte) := (List.range pages.length).zip pages

/-- The whole of a write group is programmed: it enters the map (R314). -/
def State.groupDone (s : State) (g : WriteGroup) : State :=
  match g.kind with
  | .object h =>
    match s.obj h with
    | none => s
    | some o =>
      let bs := o.staged.getD o.bytes
      let s := s.enterMap g.ns (.object h) g.mirror (numbered (flashPagesOf bs))
      ((s.dropPagesFrom (.object h) o.flashPages).updObj h fun o => { o with flashSize := bs.length }).objWritten h
  | .acre key =>
    let s := s.acreWritten key
    match (s.acre key).bind (·.flash) with
    | none => s
    | some cells => s.enterMap g.ns (.acre key) g.mirror ((List.range 2048).map fun k => (k, memReadN cells (16384 * k) 16384))
  | .spill h =>
    match s.psIndex h with
    | none => s
    | some ix =>
      let (pages, s) := s.outData ix
      (s.enterMap g.ns (.shard h ix.outSerial) g.mirror pages).spillWritten h

/-- The copies in a block written elsewhere at the current epochs. -/
def State.moveBlock (s : State) (die block : Nat) : State :=
  let here (c : PageCopy) : Bool := decide (c.die = die ∧ c.block = block)
  let s := s.mt.pages.foldl (fun (s : State) p =>
    (p.copies.filter here).foldl (fun (s : State) c => s.rewriteCopy p c.mirror) s) s
  (List.finRange 5).foldl State.zeroiseOld s

/-- A block retired after a failure: cause 0 program, 1 erase; its valid pages are rewritten elsewhere (R317). Which good block it is lies with
the parts. -/
def State.blockFailed (s : State) (cause : Nat) : State :=
  let n := 32 * dieBlocks
  let (k, s) := s.drawBelow n
  let bad := s.mt.blocks.filter (·.retired)
  let i := (((List.range (bad.length + 1)).map fun j => (k + j) % n).find? fun i => !(bad.any fun b => decide (b.id = i))).getD k
  let (die, block) := (i / dieBlocks, i % dieBlocks)
  let used := s.mt.blocks.any fun b => decide (b.id = i ∧ 0 < b.filled)
  let s := s.updBlock die block fun b => { b with retired := true }
  let s := { s with mt := { s.mt with
    goodBlocks := s.mt.goodBlocks - 1, freeBlocks := if used then s.mt.freeBlocks else s.mt.freeBlocks - 1 } }
  let s := if s.mt.evtFlash then s.event 0x0E 0x0E03 die block cause else s
  s.moveBlock die block

/-- A program or an erase ends. -/
def State.programDone (s : State) (ok : Bool) : State :=
  match s.mt.groups with
  | [] => if ok then s else s.blockFailed 1
  | g :: gs =>
    if !ok then s.blockFailed 0
    else if g.left ≤ 1 then State.groupDone { s with mt := { s.mt with groups := gs } } g
    else { s with mt := { s.mt with groups := { g with left := g.left - 1 } :: gs } }

/-- A block's pages moved away, and the block erased: it is free again. -/
def State.recycle (s : State) (die block : Nat) : State :=
  let used := s.mt.blocks.any fun b => decide (b.die = die ∧ b.block = block ∧ 0 < b.filled)
  let s := (s.updBlock die block fun b => { b with filled := max b.filled Config.blockPages }).moveBlock die block
  let s := s.updBlock die block fun b => { b with erases := b.erases + 1, reads := 0, degraded := false, filled := 0 }
  { s with mt := { s.mt with freeBlocks := min s.mt.goodBlocks (s.mt.freeBlocks + b2n used) } }

/-- The good blocks on record. -/
def MemTiers.good (m : MemTiers) : List FlashBlock := m.blocks.filter fun b => !b.retired
/-- The spread of the good blocks' erase counts: a block that has never been used has none. -/
def MemTiers.spread (m : MemTiers) : Nat :=
  let most := (m.good.map (·.erases)).foldl max 0
  if m.good.length < m.goodBlocks then most else most - (m.good.map (·.erases)).foldl min most

/-- Static levelling: with a spread above 256 the coldest block that holds pages is relocated (R317). -/
def State.levelWear (s : State) : State :=
  if s.mt.spread ≤ 256 then s
  else match (sortBy (fun (a b : FlashBlock) => decide (a.erases ≤ b.erases)) (s.mt.good.filter fun b => decide (0 < b.filled))).head? with
    | some b => s.recycle b.die b.block
    | none => s

/-- A block relocated, collected or re-encrypted in the background share; after 50,000 reads, or marked degraded, that is a
refresh (R317, R320). -/
def State.relocate (s : State) (die block : Nat) : State :=
  match s.mt.blocks.find? fun b => decide (b.die = die ∧ b.block = block) with
  | none => s
  | some b =>
    if b.retired then s
    else
      let s := s.recycle die block
      let refresh (s : State) (c : Nat) : State := if s.mt.evtFlash then s.event 0x0E 0x0E04 die block c else s
      let s := if b.degraded then refresh s 1 else if 50000 ≤ b.reads then refresh s 0 else s
      s.levelWear

/-- The nanoseconds of an hour. -/
def hourNs : Nat := 3600000000000

/-- Spare blocks are below 1/64 of the good ones, and an hour has passed since the last report (R317). -/
def State.spareLow (s : State) : State :=
  let due : Bool := match s.mt.spareLowAt with
    | some t => decide (t + hourNs ≤ s.dtNs)
    | none => true
  if 64 * s.mt.freeBlocks < s.mt.goodBlocks ∧ due = true then
    let s := { s with mt := { s.mt with flashLow := true, spareLowAt := some s.dtNs } }
    if s.mt.evtFlash then s.event 0x0E 0x0E05 s.mt.freeBlocks s.mt.goodBlocks 0 else s
  else s

/-! ## Patrol scrub (R302) -/

/-- The lines of the DRAM. -/
def scrubLines : Nat := 402653184

/-- The patrol scrub goes on: the device is powered, out of reset, and DRAM is not in self-refresh. -/
def State.scrubOn (s : State) : Bool :=
  !s.dev.selfRefresh && match s.dev.phase with
    | .ready | .fwVerify | .fwStart | .recovery | .fault => true
    | _ => false

/-- The next line read and corrected. -/
def State.scrubStep (s : State) (e : LineCheck) : State :=
  if !s.scrubOn then s
  else
    let line := s.mt.scrubLine
    let s := match e with
      | .clean => s
      | .corrected =>
        let s := { s with mt := { s.mt with scrubCorrected := s.mt.scrubCorrected + 1, passLines := line :: s.mt.passLines } }
        let s := s.dramCorrected line
        if line ∈ s.mt.prevLines then s.retirePage (line / 1024) 1 else s
      | .bad => s.dramUncorrectable (64 * line)
    if line + 1 < scrubLines then { s with mt := { s.mt with scrubLine := line + 1 } }
    else
      let pass := s.mt.scrubPass + 1
      let n := s.mt.scrubCorrected
      let s := { s with mt := { s.mt with
        scrubLine := 0, scrubPass := pass, scrubCorrected := 0, prevLines := (s.mt.passLines ++ s.mt.prevLines).eraseDups, passLines := [] } }
      if s.mt.evtDram then s.event 0x13 0x1304 pass n 0 else s

/-! ## The boundary (R303, R307, R308, R322) -/

/-- Retired pages whose copy is complete: the remap takes effect. -/
def State.applyRemap (s : State) : State :=
  (s.mt.remap.filter fun r => r.copied && !r.applied).foldl (fun (s : State) (r : Retired) =>
    let s := { s with mt := { s.mt with remap := s.mt.remap.map fun (x : Retired) => if x.page = r.page then { x with applied := true } else x } }
    s.event 0x13 0x1302 r.page r.cause s.mt.remap.length) s

/-- Jobs of an object that a predicate names complete at a boundary. -/
def State.objJobs (s : State) (mine : Job → Bool) (dt : Nat) : State :=
  (s.fw.jobs.filter mine).foldl (fun (s : State) (j : Job) => s.completeJob j stOk 0 0 0 0 dt) s

/-- Flash still owes an object a write. -/
def State.objWriting (s : State) (o : Obj) : Bool :=
  decide (o.flashLeft ≠ 0) || s.mt.groups.any fun (g : WriteGroup) => decide (g.kind = GroupKind.object o.handle)

/-- Requests in class 3 for pages of an object that flash is to hold. -/
def State.queueWrites (s : State) (o : Obj) (ks : List Nat) : State :=
  let reqs : List MoverReq := ks.map fun k =>
    { cls := 3, work := .objWrite o.handle k, bytes := 65536, fetch := 0, tiles := false, fetched := false, held := false, onMirror := false, partition := handlePart o.handle }
  let s := s.updObj o.handle fun o => { o with flashLeft := reqs.length }
  { s with mt := { s.mt with queue := s.mt.queue ++ reqs } }

/-- One object that is to be dropped: dirty pages are written back first; without any its pages leave DRAM, and OBJ_EVICT
completes (R307, R308). -/
def State.dropOne (dt : Nat) (s : State) (o : Obj) : State :=
  let dirty := s.dirtyPages o
  if s.objWriting o then s
  else if dirty.isEmpty then
    let s := (s.unmap o).updObj o.handle fun o => { o with resident := [], dropping := false, evictPending := false }
    s.objJobs (fun j => match j.kind with | .objEvict g => decide (g = o.handle) | _ => false) dt
  else
    let now := (List.range o.pages).flatMap fun k =>
      if k ∈ o.resident then s.readMem (o.base + 65536 * k) (o.page k).length else o.page k
    (s.updObj o.handle fun o => { o with staged := some now }).queueWrites o dirty

/-- Drops: the pages of unpinned objects that are to be evicted (R307, R308). -/
def State.dropObjects (s : State) (dt : Nat) : State :=
  (s.mt.objects.filter fun o => o.dropping && o.pins.isEmpty && o.promoting.isEmpty).foldl (State.dropOne dt) s

/-- Objects that OBJ_UNLOAD named are freed, with their flash copies. -/
def State.freeObjects (s : State) (dt : Nat) : State :=
  let s := (s.mt.objects.filter (·.freeing)).foldl (fun (s : State) (o : Obj) =>
    (s.removeObj o).objJobs (fun j => match j.kind with | .objUnload g => decide (g = o.handle) | _ => false) dt) s
  (List.finRange 5).foldl State.zeroiseOld s

/-- A promotion that waits begins once its pages are free; where the evictions that it waited for are over and have not freed them, for flash
was full, it fails (R307, R317). -/
def State.startPromotion (s : State) (o : Obj) : State :=
  let p := handlePart o.handle
  let own := o.pages - o.resident.length
  let room := s.poolPages p - s.poolUsed p - (s.poolPromised p - own)
  if own ≤ room then s.queuePromotion o.handle
  else if s.poolLeaving p ≠ 0 then s
  else
    let s := (s.updObj o.handle fun o => { o with promoting := [] }).event 0x0D 0x0D03 p.val (own - room) 0
    (s.fw.jobs.filter fun (j : Job) => decide (j.kind = .objPromote o.handle)).foldl
      (fun (s : State) (j : Job) => s.completeJob j errNoResource 0 (own - room) 0 0 s.dtNs) s

/-- The memory manager at a boundary. A snapshot of an acre that has not ended in its span starts again (R220). -/
def State.memBoundary (s : State) (dt : Nat) : State :=
  let s := ((s.applyRemap).dropObjects dt).freeObjects dt
  let s := { s with mt := { s.mt with
    objects := s.mt.objects.map fun (o : Obj) =>
      if o.clearing then { o with poisoned := false, clearing := false, unreadable := [] } else o
    queue := s.mt.queue.map fun (r : MoverReq) => match r.work with
      | .snapshot _ => { r with bytes := acreBytes }
      | _ => r } }
  (s.mt.objects.filter fun o => !o.promoting.isEmpty).foldl State.startPromotion s

/-! ## The rows -/

/-- MV_WINDOW (R309, R310). -/
def execMvWindow (s : State) : Host.Outcome State Fault Refusal :=
  .next (s.tryIssue .mv 0x10 (some .main) fun n s =>
    let s := s.startOp .mv n .main 0 []
    { s with mt := { s.mt with window := some { endGrain := n.arg 0 2, classMask := n.arg 2 1, left := n.arg 4 4 } } })
/-- MOVER_TRANSFER_DONE (R310). -/
def execMoverTransferDone (s : State) : Host.Outcome State Fault Refusal := .next s.transferDone
/-- FLASH_READ_COMPLETE (R316). -/
def execFlashReadComplete (r : FlashRead) (s : State) : Host.Outcome State Fault Refusal := .next (s.readDone r)
/-- FLASH_PROGRAM_COMPLETE (R314). -/
def execFlashProgramComplete (ok : Bool) (s : State) : Host.Outcome State Fault Refusal := .next (s.programDone ok)
/-- FLASH_BACKGROUND_RELOCATE (R317). -/
def execFlashBackgroundRelocate (die block : Nat) (s : State) : Host.Outcome State Fault Refusal := .next (s.relocate die block)
/-- FLASH_SPARE_LOW (R317). -/
def execFlashSpareLow (s : State) : Host.Outcome State Fault Refusal := .next s.spareLow
/-- PATROL_SCRUB_STEP (R302). -/
def execPatrolScrubStep (e : LineCheck) (s : State) : Host.Outcome State Fault Refusal := .next (s.scrubStep e)

end Sys2Proof.Machine
end

