-- ==== Sys2Proof/Machine/TimeUnit.lean ====
section
/-!
DEFINITION. The time unit: counters, servos, the selection and slewing of DT, holdover, triggers, `PPS_OUT`, `PPS_IN`, and the
bridge's transparent clock (chapter 2).
-/
namespace Sys2Proof.Machine

/-! ## Counters and sources (R28, R33, R34) -/

/-- One nanosecond in units of 2^-32 ns. -/
def q32 : Int := 2 ^ 32

/-- A base's increment for one TIME cycle, in 2^-32 ns. -/
def BaseClock.inc (b : BaseClock) : Int := 4 * q32 + b.rate.toInt

/-- The code of a base in registers and events: 0 TB-A, 1 TB-B. -/
def baseCode : Base → Nat
  | .tbA => 0
  | .tbB => 1
/-- The other base. -/
def otherBase : Base → Base
  | .tbA => .tbB
  | .tbB => .tbA

/-- The holdover model's time now, in 2^-32 ns (R36). -/
def TimeUnit.holdover (t : TimeUnit) : Int :=
  (t.tbl.toNat : Int) + t.hoOffset + ((TimeFix.ns t.tbl : Int) - t.hoFrom) / 4 * t.hoRate.toInt

/-- The time of a source: 0 TB-A, 1 TB-B, 2 the holdover model. -/
def TimeUnit.sourceNow (t : TimeUnit) (src : BitVec 2) : Int :=
  if src = 0 then t.baseA.count.toNat else if src = 1 then t.baseB.count.toNat else t.holdover

/-- The increment of a source. -/
def TimeUnit.sourceInc (t : TimeUnit) (src : BitVec 2) : Int :=
  if src = 0 then t.baseA.inc else if src = 1 then t.baseB.inc else 4 * q32 + t.hoRate.toInt

/-- The difference of two times with their fractions, signed: 64 bits of nanoseconds and the fraction (R34, R42). -/
def fixDiff (a b : Int) : Int := (BitVec.ofInt 96 (a - b)).toInt

/-- `err` of R34: no steering before the first TIME_ALIGN. -/
def TimeUnit.err (t : TimeUnit) : Int := if t.aligned then fixDiff (t.sourceNow t.source) t.dt.toNat else 0

/-- A counter advanced. -/
def advance (t : TimeFix) (d : Int) : TimeFix := BitVec.ofInt 96 ((t.toNat : Int) + d)

/-- An error after n cycles that each take at most `lim` of it. -/
def slewed (err lim : Int) (n : Nat) : Int :=
  if err.natAbs ≤ (n * lim).natAbs then 0 else if 0 < err then err - n * lim else err + n * lim

/-- One second. -/
def secNs : Int := 1000000000

/-- The time stands still: no power, a cold reset, or parked (R9, R393). -/
def State.timeStopped (s : State) : Bool :=
  match s.dev.phase with
  | .unpowered | .coldReset | .parked => true
  | _ => false

/-- n TIME cycles (R28, R34, R35). -/
def State.timeCycles (s : State) (n : Nat) : State :=
  if n = 0 ∨ s.timeStopped then s
  else
    let t := s.tu
    let inc := t.sourceInc t.source
    let err := t.err
    let lim := inc * t.slewPpm.toNat / 1000000
    let left := slewed err lim n
    let last := slewed err lim (n - 1)
    let dt := advance t.dt (n * inc + (err - left))
    let far := decide (secNs * q32 < err.natAbs)
    let stillFar := decide (secNs * q32 < last.natAbs)
    let tick (b : BaseClock) : BaseClock := { b with count := advance b.count (n * b.inc) }
    let s' := { s with tu := { t with
      dt := dt, tbl := advance t.tbl (n * (4 * q32)), baseA := tick t.baseA, baseB := tick t.baseB
      slewing := decide (4 * q32 < last.natAbs), dtFar := stillFar } }
    if far && !t.dtFar then s'.event 0x01 0x0109 (patOf 32 (err / (1000000 * q32))) t.source.toNat 0 else s'

/-! ## Selection (R33, R37) -/

/-- The code of a base state (R32). -/
def BaseState.code : BaseState → Nat
  | .disabled => 0
  | .acquiring => 1
  | .locked => 2
  | .lost => 3
  | .suspect => 4

/-- The source that the mode and the states choose. In automatic mode without `REVERT` a LOCKED TB-B that DT follows stays selected
however it came to be selected, so also when a forced selection of TB-B is lifted: R33 speaks only of TB-A's return (DESIGN CHOICE, log 61). -/
def TimeUnit.chosen (t : TimeUnit) : BitVec 2 :=
  if t.selMode = 1 then (if t.baseA.state = .disabled then 2 else 0)
  else if t.selMode = 2 then (if t.baseB.state = .disabled then 2 else 1)
  else if t.selMode = 3 then 2
  else if t.source = 1 && t.baseB.isLocked && !t.revert then 1
  else if t.baseA.isLocked then 0
  else if t.baseB.isLocked then 1
  else 2

/-- The selection evaluated: a change is recorded, and so is the entry to holdover or the exit from it. A model that has never
been fitted advances at TB-L's rate (R33); that it starts at the DT of that moment is the model's choice (DESIGN CHOICE, log 61). -/
def State.reselect (s : State) : State :=
  let old := s.tu.source
  let new := s.tu.chosen
  if old = new then s
  else
    let s := if new = 2 ∧ !s.tu.fitted then
        { s with tu := { s.tu with
          hoOffset := (s.tu.dt.toNat : Int) - s.tu.tbl.toNat, hoRate := 0, hoFrom := TimeFix.ns s.tu.tbl } }
      else s
    let now := s.tu.sourceNow new
    let model := s.tu.holdover
    let s := s.event 0x01 0x0104 old.toNat new.toNat (patOf 32 (fixDiff s.tu.dt.toNat now / q32))
    let s := if new = 2 then s.event 0x01 0x0106 s.tu.hoRate.toNat 0 0
      else if old = 2 then s.event 0x01 0x0107 ((s.tblNs - s.tu.hoSince) / 1000000) (patOf 32 (fixDiff now model / q32)) 0
      else s
    { s with tu := { s.tu with source := new, hoSince := if new = 2 then s.tblNs else s.tu.hoSince } }

/-- The mode forces a base. -/
def TimeUnit.forces (t : TimeUnit) (b : Base) : Bool := decide (t.selMode.toNat = baseCode b + 1)

/-- A base's state changed: the run counts start again, and a forced base that is not LOCKED is recorded (R32, R33). -/
def State.setBase (s : State) (b : Base) (st : BaseState) : State :=
  if (s.tu.base b).state = st then s
  else
    let s := s.updBase b fun c => { c with state := st, goodRun := 0, badRun := 0 }
    if st ≠ .locked ∧ s.tu.forces b then s.event 0x01 0x0105 (baseCode b) st.code 0 else s

/-! ## The holdover model (R36, R37, R40) -/

/-- What fits the model to its points: element 0 its offset in 2^-32 ns, element 1 its rate in 2^-32 ns a cycle (log 9). -/
def numFit : Nat := 0x0201
/-- How a PPS interval corrects the rate (log 9). -/
def numPpsRate : Nat := 0x0202

/-- The fitting base: the base that DT follows if it is LOCKED, else the one automatic selection would pick. -/
def TimeUnit.fitBase (t : TimeUnit) : Option Base :=
  if t.source = 0 ∧ t.baseA.isLocked then some .tbA
  else if t.source = 1 ∧ t.baseB.isLocked then some .tbB
  else if t.baseA.isLocked then some .tbA
  else if t.baseB.isLocked then some .tbB
  else none

/-- The drift of the selected base from the model's prediction, at each of its measurements, whatever the base's state (R40). -/
def State.checkDrift (s : State) (b : Base) : State :=
  if s.tu.source.toNat = baseCode b ∧ s.tu.fitted then
    let drift := fixDiff (s.tu.base b).count.toNat s.tu.holdover / q32
    let bound := 1000 + (s.tblNs - s.tu.hoFitAt) / 10000000
    let overs := decide (bound < drift.natAbs)
    let s' := { s with tu := { s.tu with disagree := overs } }
    if overs && !s.tu.disagree then s'.event 0x01 0x0108 (baseCode b) (patOf 32 drift) bound else s'
  else s

/-- A measurement of the fitting base enters the fit (R36). -/
def State.fitModel (s : State) (b : Base) : State :=
  if s.tu.fitBase = some b then
    let p : FitPoint := { at_ := s.tblNs, offset := ((s.tu.base b).count.toNat : Int) - s.tu.tbl.toNat }
    let pts := (p :: s.tu.fit).take 64
    let inp := pts.flatMap fun q => [q.at_.toNat, patOf 128 q.offset]
    let resid := fixDiff (s.tu.base b).count.toNat s.tu.holdover / q32
    { s with tu := { s.tu with
      fit := pts, fitted := true
      hoOffset := signedOf 128 (Config.numeric numFit inp 0)
      hoRate := BitVec.ofNat 32 (Config.numeric numFit inp 1)
      hoResid := if s.tu.fitted then BitVec.ofInt 32 resid else s.tu.hoResid
      hoFitAt := s.tblNs, hoFrom := s.tblNs } }
  else s

/-! ## Measurements (R31, R32, R38, R39) -/

/-- The largest rate adjustment that `TB_x_RATE` reads: 8,589,934 (R31). -/
def rateMax : Int := 0x83126E

/-- The servo's adjustment (R31 step 3): the integrator, and the rate. -/
def BaseClock.servo (c : BaseClock) (e : Int) : BaseClock :=
  let kp : Int := c.kp.toNat
  let ki : Int := c.ki.toNat
  let i := c.integ + e
  let a := kp * e + ki * i
  let top : Int := 8000000
  let lim := if top < a then top else if a < -top then -top else a
  let i' := if lim = a ∨ ki = 0 then i else (lim - kp * e) / ki
  let r := (-lim * 2 ^ 30 * 2 + 1000000000) / 2000000000
  { c with integ := i', rate := BitVec.ofInt 32 (max (-rateMax) (min rateMax r)) }

/-- A base that takes its seconds from TIME_SET_TOD and has had none: it stays ACQUIRING (R50). -/
def BaseClock.awaitsTod (c : BaseClock) : Bool := c.srcPps && !c.todKnown

/-- The run of a base's measurements, which locks and unlocks it (R32). A PPS base that has no time of day stays ACQUIRING
(R50). -/
def State.countRun (s : State) (b : Base) (e : Int) : State :=
  let c := s.tu.base b
  let lock := s.tu.lockNs.toNat
  match c.state with
  | .acquiring =>
    let good := if e.natAbs ≤ lock then c.goodRun + 1 else 0
    let s := s.updBase b fun c => { c with goodRun := good }
    if 8 ≤ good ∧ !c.awaitsTod then s.setBase b .locked else s
  | .locked =>
    let bad := if 4 * lock < e.natAbs then c.badRun + 1 else 0
    let s := s.updBase b fun c => { c with badRun := bad }
    if 2 ≤ bad then s.setBase b .acquiring else s
  | _ => s

/-- The asymmetry check of R38 marks a domain: its change, and the other's. -/
def TimeUnit.asymmetric (t : TimeUnit) (b : Base) (e pd : Int) : Option (Int × Int) :=
  let c := t.base b
  let o := t.base (otherBase b)
  match c.prev, (if c.awaitsTod then none else o.lastChange) with
  | some p, some oc =>
    let ch := e - p.offset
    let asym := t.asymNs.toNat
    if asym < ch.natAbs ∧ 2 * (pd - p.pdelay).natAbs < ch.natAbs ∧ o.isLocked ∧ 2 * oc.natAbs < asym then some (ch, oc) else none
  | _, _ => none

/-- A measurement of a SUSPECT domain against the other domain (R39). -/
def State.requalify (s : State) (b : Base) (master : Int) : State :=
  let c := s.tu.base b
  let near : Bool :=
    match (s.tu.base (otherBase b)).master, c.refDiff with
    | some o, some r => decide (2 * (BitVec.ofInt 64 (master - o - r)).toInt.natAbs ≤ s.tu.asymNs.toNat)
    | _, _ => false
  let n := if near then c.requal + 1 else 0
  let s := s.updBase b fun c => { c with requal := n }
  if 64 ≤ n then (s.setBase b .acquiring).event 0x01 0x0103 (baseCode b) 0 0 else s

/-- The seconds of the counter that PPS_OUT follows. -/
def TimeUnit.ppsOutNow (t : TimeUnit) : Nat :=
  (if t.ppsOutSrc = 0 then TimeFix.ns t.dt else if t.ppsOutSrc = 1 then TimeFix.ns t.baseA.count
   else if t.ppsOutSrc = 2 then TimeFix.ns t.baseB.count else TimeFix.ns t.tbl) / 1000000000

/-- The counter of PPS_OUT may have stepped back: the seconds above it are crossed again (R48). -/
def State.ppsOutBack (s : State) : State := { s with tu := { s.tu with ppsOutSec := min s.tu.ppsOutSec s.tu.ppsOutNow } }

/-- The step of R31, or the servo, and the run count. -/
def State.applyMeasure (s : State) (b : Base) (e pd : Int) : State :=
  if 1000000 < e.natAbs then
    let s := s.updBase b fun c => { c with
      count := advance c.count (-e * q32), integ := 0, prev := some { offset := 0, pdelay := pd }, goodRun := 0, badRun := 0 }
    let s := (s.setBase b .acquiring).ppsOutBack
    s.event 0x01 0x0101 (baseCode b) (patOf 32 (-e)) (patOf 32 (-e / 2 ^ 32))
  else (s.updBase b fun c => c.servo e).countRun b e

/-- A measurement of a base that is enabled (R31, R32, R36, R38 to R40). -/
def State.measureOn (s : State) (b : Base) (e pd : Int) : State :=
  let c := s.tu.base b
  let suspect := s.tu.asymmetric b e pd
  let master := (c.count.toNat : Int) / q32 - e - s.tblNs
  let ref := match c.master, (s.tu.base (otherBase b)).master with
    | some m, some o => some (m - o)
    | _, _ => none
  let s := s.updBase b fun c => { c with
    prev := some { offset := e, pdelay := pd }, lastChange := c.prev.map fun p => e - p.offset
    master := some master, measAt := s.tblNs }
  let s := if c.state = .lost then s.setBase b .acquiring else s
  if c.state = .suspect then (s.requalify b master).checkDrift b
  else match suspect with
    | some (ch, oc) =>
      let s := s.updBase b fun c => { c with refDiff := ref, requal := 0 }
      State.checkDrift ((s.setBase b .suspect).event 0x01 0x0102 (baseCode b) (patOf 32 ch) (patOf 32 oc)) b
    | none => ((s.applyMeasure b e pd).checkDrift b).fitModel b

/-- A measurement: a DISABLED base takes none. The selection is evaluated after it (R33). -/
def State.measure (s : State) (b : Base) (e pd : Int) : State :=
  if (s.tu.base b).state = .disabled then s else (s.measureOn b e pd).reselect

/-- A write of `TB_x_OFFSET_HI`, which applies the measurement (R31, R51). With peer-to-peer delay, `TB_A_PDELAY` is taken for the mean
link delay that port A has measured, and `TB_B_PDELAY` for port B's: the spec names no other place for it (DESIGN CHOICE, log 61). -/
def State.offsetHi (s : State) (b : Base) (v : Word) : State :=
  let c := s.tu.base b
  let i : Fin 2 := if b = .tbA then 0 else 1
  let s := if c.peerDelay then { s with tu := { s.tu with linkDelay := s.tu.linkDelay.set i c.pdelay.toInt } } else s
  s.measure b (signedOf 64 (v.toNat * 2 ^ 32 + c.offsetLo.toNat)) c.pdelay.toInt

/-- BASE_TIMEOUT: no measurement for TIMEOUT (R32); a base that awaits its time of day stays ACQUIRING (R50). The rules give the time-out,
and the 1.001 s of `PPS_IN`, in units of time alone: that TB-L measures them is the model's choice (DESIGN CHOICE, log 61). -/
def State.baseTimeout (s : State) (b : Base) : State :=
  let c := s.tu.base b
  if c.state ≠ .disabled ∧ c.state ≠ .lost ∧ !c.awaitsTod ∧ c.measAt + s.tu.timeout.toNat * 100000000 ≤ s.tblNs ∧ !s.timeStopped then
    (s.setBase b .lost).reselect
  else s

/-! ## Writes of the control registers (R32, R33, R51) -/

/-- A base enabled or disabled. R32 gives the state alone: that an enable starts the servo and the checks afresh (integrator, previous
measurement, master time, re-qualification) and keeps the counter and the rate is the model's choice (DESIGN CHOICE, log 61). -/
def State.enableBase (s : State) (b : Base) (on : Bool) : State :=
  let st := (s.tu.base b).state
  if on && decide (st = .disabled) then
    (s.updBase b fun c => { c with
      integ := 0, prev := none, lastChange := none, master := none, measAt := s.tblNs, refDiff := none, requal := 0 }).setBase b .acquiring
  else if !on then s.setBase b .disabled
  else s

/-- The selection mode written: a forced base that is not LOCKED is recorded, unless its state has just changed. -/
def State.forceNote (s : State) (was : BitVec 2) (before : TimeUnit) : State :=
  let note (s : State) (b : Base) : State :=
    let st := (s.tu.base b).state
    if s.tu.forces b ∧ s.tu.selMode ≠ was ∧ st ≠ .locked ∧ st = (before.base b).state then
      s.event 0x01 0x0105 (baseCode b) st.code 0
    else s
  note (note s .tbA) .tbB

/-- A write of `TU_CTRL`. -/
def State.writeTuCtrl (s : State) (v : Word) : State :=
  let before := s.tu
  let slew := (v >>> 16).setWidth 8
  let s := { s with tu := { s.tu with
    slewPpm := if 1 ≤ slew.toNat ∧ slew.toNat ≤ 100 then slew else s.tu.slewPpm
    requireLock := v.getLsbD 11, revert := v.getLsbD 10, selMode := (v >>> 8).setWidth 2
    ppsOutSrc := (v >>> 6).setWidth 2, ppsOutEn := v.getLsbD 5, ppsInHoldover := v.getLsbD 4 } }
  let s := if (s.tu.ppsOutEn && !before.ppsOutEn) || decide (s.tu.ppsOutSrc ≠ before.ppsOutSrc) then
      { s with tu := { s.tu with ppsOutSec := s.tu.ppsOutNow } } else s
  let s := if s.tu.ppsOutEn then s else { (s.setPin .ppsOut false) with tu := { s.tu with ppsOutEnd := none } }
  let s := (s.enableBase .tbA (v.getLsbD 0)).enableBase .tbB (v.getLsbD 1)
  (s.forceNote before.selMode before).reselect

/-- A write of `TU_THRESH`. -/
def State.writeTuThresh (s : State) (v : Word) : State :=
  let asym : Half := (v >>> 16).setWidth 16
  let lock : Byte := (v >>> 8).setWidth 8
  let tov : Byte := v.setWidth 8
  { s with tu := { s.tu with
    asymNs := if 50 ≤ asym.toNat ∧ asym.toNat ≤ 10000 then asym else s.tu.asymNs
    lockNs := if lock = 0 then s.tu.lockNs else lock
    timeout := if tov = 0 then s.tu.timeout else tov } }

/-- A write of `TB_x_CFG`: an enabled base that now awaits its time of day goes to ACQUIRING (R50). -/
def State.writeTbCfg (s : State) (b : Base) (v : Word) : State :=
  let s := s.updBase b fun c => { c with
    domain := (v >>> 24).setWidth 8, srcPps := v.getLsbD 23, kp := (v >>> 8).setWidth 8, ki := v.setWidth 8 }
  let c := s.tu.base b
  if c.awaitsTod && decide (c.state ≠ .disabled) then (s.setBase b .acquiring).reselect else s

/-! ## Triggers (R46, R47, R62) -/

/-- The level of a pin while a pulse is active, and while none is. -/
def Trig.activeLevel (t : Trig) : Bool := !t.polarity
/-- The idle level. -/
def Trig.idleLevel (t : Trig) : Bool := t.polarity

/-- A pulse's length: whole cycles of 4 ns, 8 ns at least. -/
def pulseNs (width : Nat) : Nat := max 8 (ceilDiv width 4 * 4)

/-- A pulse starts on a pin, or extends the one that is active. -/
def State.pulse (s : State) (n : Fin 16) (width : Nat) : State :=
  let t := s.tu.trigs[n]
  let stop := s.dtNs + pulseNs width
  match t.pulseEnd with
  | some e =>
    let s' := s.updTrig n fun t => { t with pulseEnd := some (max e stop), merged := true
                                            merges := if s.schedOn then t.merges + 1 else t.merges }
    if s.schedOn then s' else s'.event 0x01 0x010D n.val 1 0
  | none => (s.updTrig n fun t => { t with pulseEnd := some stop }).setPin (.trigOut n) t.activeLevel

/-- The programmed instants of a pin: 1 one-shot and 2 periodic. -/
def State.programmedPulse (s : State) (n : Fin 16) : State :=
  let t := s.tu.trigs[n]
  match t.nextAt with
  | none => s
  | some at' =>
    if s.dtNs < at' then s
    else (s.updTrig n fun t => { t with nextAt := if t.mode = 2 then some (at' + t.period.toNat) else none }).pulse n t.width.toNat

/-- The image-mode pulse of a pin that is due: its exposure registers at this instant. -/
def State.imagePulse (s : State) (n : Fin 16) : State :=
  match s.tu.table.find? fun d => decide (d.pin = n.val ∧ d.due ≤ s.dtNs) with
  | none => s
  | some d =>
    let s := { s with tu := { s.tu with table := s.tu.table.erase d } }
    let s := s.pulse n d.width
    if d.stamps then s.registerExposure ⟨d.stream % 32, Nat.mod_lt _ (by decide)⟩ s.dtNs else s

/-- TRIG_PULSE_START: DT reaches a programmed instant of the pin's mode. -/
def State.trigStart (s : State) (n : Fin 16) : State :=
  if !s.pinsDriven then s
  else
    match s.tu.trigs[n].mode.toNat with
    | 0 => s
    | 3 => s.imagePulse n
    | _ => s.programmedPulse n

/-- TRIG_PULSE_END: the active pulse's end is reached. -/
def State.trigEnd (s : State) (n : Fin 16) : State :=
  match s.tu.trigs[n].pulseEnd with
  | none => s
  | some e =>
    if s.dtNs < e then s
    else (s.updTrig n fun t => { t with pulseEnd := none }).setPin (.trigOut n) s.tu.trigs[n].idleLevel

/-- The merges of the span that ends recorded, one event for each pin (R47). -/
def State.mergeEvents (s : State) : State :=
  (List.finRange 16).foldl (fun (s : State) n =>
    let m := s.tu.trigs[n].merges
    if m = 0 then s else (s.updTrig n fun t => { t with merges := 0 }).event 0x01 0x010D n.val m 0) s

/-- The stale items of the span that ends recorded, one event for each block (R43, R52). -/
def State.staleEvents (s : State) : State :=
  let s' := s.tu.staleSeen.foldl (fun (s : State) (x : Nat × Nat) => s.event 0x01 0x010A x.1 x.2 0) s
  { s' with tu := { s'.tu with staleSeen := [] } }

/-! ## PPS_OUT and PPS_IN (R48 to R50) -/

/-- PPS_OUT_EDGE: the chosen counter has crossed a whole second. -/
def State.ppsOutEdge (s : State) : State :=
  let now := s.tu.ppsOutNow
  if s.tu.ppsOutEn && decide (s.tu.ppsOutSec < now) && s.pinsDriven then
    { (s.setPin .ppsOut true) with tu := { s.tu with ppsOutSec := now, ppsOutEnd := some (s.dtNs + 10000000) } }
  else s

/-- PPS_OUT_END: the 10 ms are over. -/
def State.ppsOutDone (s : State) : State :=
  match s.tu.ppsOutEnd with
  | none => s
  | some e => if s.dtNs < e then s else { (s.setPin .ppsOut false) with tu := { s.tu with ppsOutEnd := none } }

/-- A base's distance from the nearest whole second, in ns. -/
def BaseClock.offSecond (c : BaseClock) : Int :=
  let r : Int := (TimeFix.ns c.count : Int) % secNs
  if 2 * r < secNs then r else r - secNs

/-- A base follows PPS_IN. -/
def BaseClock.onPps (c : BaseClock) : Bool := c.srcPps && decide (c.state ≠ .disabled)

/-- A LOCKED base refuses an edge more than 10 us from the expected second. -/
def BaseClock.refusesEdge (c : BaseClock) : Bool := c.onPps && c.isLocked && decide (10000 < c.offSecond.natAbs)

/-- An edge rejected by a base: counted and recorded; the third in a row returns it to ACQUIRING. -/
def State.rejectEdge (s : State) (b : Base) : State :=
  let c := s.tu.base b
  let n := c.ppsRejects + 1
  let s := (s.updBase b fun c => { c with ppsRejects := n, ppsAcceptNext := decide (3 ≤ n) }).event 0x01 0x010B
    (patOf 32 c.offSecond) n 0
  if 3 ≤ n then ((s.updBase b fun c => { c with ppsRejects := 0 }).setBase b .acquiring).reselect else s

/-- An edge as a base that follows PPS_IN takes it. -/
def State.edgeAt (s : State) (b : Base) : State :=
  let c := s.tu.base b
  if !c.onPps then s
  else if c.refusesEdge then s.rejectEdge b
  else (s.updBase b fun c => { c with ppsRejects := 0, ppsAcceptNext := false }).measure b c.offSecond 0

/-- The holdover rate corrected from the interval between qualified edges; the phase is kept (R37). -/
def State.correctRate (s : State) (before : Option Nat) : State :=
  match before with
  | some t0 =>
    if s.tu.ppsInHoldover then
      let r := BitVec.ofNat 32 (Config.numeric numPpsRate [s.tu.hoRate.toNat, s.tblNs - t0] 0)
      { s with tu := { s.tu with hoOffset := s.tu.holdover - s.tu.tbl.toNat, hoFrom := s.tblNs, hoRate := r } }
    else s
  | none => s

/-- TIME_SET_TOD at a qualified edge: a base that follows PPS_IN is moved by whole seconds, to the ones given (R50). -/
def State.giveTod (s : State) (b : Base) (seconds : Nat) : State :=
  let c := s.tu.base b
  if !c.onPps then s
  else
    let near : Int := (TimeFix.ns c.count : Int) - c.offSecond
    State.ppsOutBack
      (s.updBase b fun c => { c with count := advance c.count (((seconds : Int) * secNs - near) * q32), todKnown := true })

/-- The TIME_SET_TOD commands that wait for a qualified edge complete at it, in acceptance order. -/
def State.takeTods (s : State) : State :=
  s.fw.jobs.foldl (fun (s : State) (j : Job) =>
    match j.kind with
    | .setTod b seconds => (s.giveTod b seconds).completeJob j stOk 0 0 0 0 s.dtNs
    | _ => s) s

/-- PPS_IN_EDGE: a rising edge that has stayed high for 1 us, taken at its own instant. With both bases on `PPS_IN`, an edge that one
LOCKED base refuses is no qualified edge, though the other base still takes it as its measurement (DESIGN CHOICE, log 61). -/
def State.ppsEdge (s : State) : State :=
  if !s.pinsDriven then s
  else
    let refused := s.tu.baseA.refusesEdge || s.tu.baseB.refusesEdge
    let before := s.tu.ppsLast
    let s := (s.edgeAt .tbA).edgeAt .tbB
    if refused then s
    else
      let s := { s with tu := { s.tu with
        ppsCapt := BitVec.ofNat 64 s.dtNs, ppsValid := true, ppsLast := some s.tblNs, ppsMissed := 0 } }
      (s.correctRate before).takeTods

/-- PPS_LOST: 1.001 s of TB-L (log 61) without a qualified edge; each further second is counted. -/
def State.ppsLoss (s : State) : State :=
  match s.tu.ppsLast with
  | none => s
  | some t =>
    if s.tblNs < t + (s.tu.ppsMissed + 1) * 1000000000 + 1000000 ∨ s.timeStopped then s
    else
      let n := s.tu.ppsMissed + 1
      let s' := { s with tu := { s.tu with ppsMissed := n, ppsValid := false } }
      if s.tu.ppsValid then s'.event 0x01 0x010C n 0 0 else s'

/-! ## The transparent clock (R44, R45) -/

/-- A big-endian value, as network headers hold it. -/
def beNat (bs : List Byte) : Nat := leNat bs.reverse
/-- A big-endian field of a frame. -/
def beAt (f : List Byte) (o n : Nat) : Nat := beNat ((f.drop o).take n)
/-- Bytes put into a frame. -/
def putAt (f : List Byte) (o : Nat) (bs : List Byte) : List Byte := f.take o ++ bs ++ f.drop (o + bs.length)

/-- Where a PTP message lies in a frame, and where its UDP checksum lies (R44): EtherType 0x88F7, or UDP ports 319 and 320
over IPv4 or IPv6. -/
def ptpAt (f : List Byte) : Option (Nat × Option Nat) :=
  let udp (o : Nat) : Option (Nat × Option Nat) :=
    if beAt f (o + 2) 2 = 319 ∨ beAt f (o + 2) 2 = 320 then some (o + 8, some (o + 6)) else none
  match beAt f 12 2 with
  | 0x88F7 => some (14, none)
  | 0x0800 => if beAt f 23 1 = 17 then udp (14 + 4 * (beAt f 14 1 % 16)) else none
  | 0x86DD => if beAt f 20 1 = 17 then udp 54 else none
  | _ => none

/-- A ones' complement sum folded to 16 bits. -/
def fold16 (v : Nat) : Nat := let w := v % 65536 + v / 65536; w % 65536 + w / 65536
/-- A UDP checksum updated for eight bytes that change; a checksum of zero is none. -/
def newChecksum (old : Nat) (a b : List Byte) : Nat :=
  if old = 0 then 0
  else
    let words (l : List Byte) := (List.range 4).map fun i => beNat ((l.drop (2 * i)).take 2)
    let sum := (words a).foldl (fun t w => t + (65535 - w)) ((words b).foldl (· + ·) (65535 - old))
    let v := 65535 - fold16 (fold16 sum)
    if v = 0 then 65535 else v

/-- A correctionField advanced, in units of 2^-16 ns, and the UDP checksum with it. -/
def addCorrection (f : List Byte) (o : Nat) (csum : Option Nat) (d : Int) : List Byte :=
  let old := (f.drop (o + 8)).take 8
  let new := (natLe 8 (patOf 64 (signedOf 64 (beNat old) + d))).reverse
  let f' := putAt f (o + 8) new
  match csum with
  | none => f'
  | some c => putAt f' c (natLe 2 (newChecksum (beAt f c 2) old new)).reverse

/-- The messageType of a PTP message. -/
def ptpType (f : List Byte) (o : Nat) : Nat := beAt f o 1 % 16
/-- twoStepFlag -/
def ptpTwoStep (f : List Byte) (o : Nat) : Bool := (beAt f (o + 6) 1).testBit 1

/-- The port's number: 0 port A, 1 port B. -/
def portIdx : EthPort → Fin 2
  | .portA => 0
  | .portB => 1
/-- The delay mechanism of a port is peer-to-peer. -/
def State.peerMode (s : State) (p : EthPort) : Bool :=
  match p with
  | .portA => s.tu.baseA.peerDelay
  | .portB => s.tu.baseB.peerDelay

/-- The base that serves a PTP domain: enabled, on gPTP, and set to it; TB-A before TB-B (R41, R45). -/
def TimeUnit.serving (t : TimeUnit) (domain : Nat) : Option Base :=
  let on (c : BaseClock) : Bool := decide (c.state ≠ .disabled ∧ c.domain.toNat = domain) && !c.srcPps
  if on t.baseA then some .tbA else if on t.baseB then some .tbB else none

/-- The residence time of a message: the egress timestamp less the ingress one, which lies `ns` nanoseconds of TB-L before it, both
whole nanoseconds of the base that serves the message's domain, or of TB-L (R41, R45). -/
def TimeUnit.residence (t : TimeUnit) (domain ns : Nat) : Nat :=
  match t.serving domain with
  | none => ns
  | some b =>
    let c := t.base b
    ((c.count.toNat : Int) / q32 - (c.count.toNat - ns * c.inc / 4) / q32).toNat

/-- Two held Syncs are of one message: direction, domain, sequenceId and sourcePortIdentity (R45). -/
def HeldSync.same (a b : HeldSync) : Bool :=
  decide (a.fromB = b.fromB ∧ a.domain = b.domain ∧ a.seqId = b.seqId ∧ a.portId = b.portId)

/-- A Sync message's residence held, displacing the oldest of 16 of its domain and direction (R45). -/
def State.holdSync (s : State) (h : HeldSync) : State :=
  let same := s.tu.heldSyncs.filter fun x => decide (x.domain = h.domain ∧ x.fromB = h.fromB)
  match (if 16 ≤ same.length then same.head? else none) with
  | some x => { s with tu := { s.tu with heldSyncs := s.tu.heldSyncs.erase x ++ [h], displaced := s.tu.displaced ++ [x] } }
  | none => { s with tu := { s.tu with heldSyncs := s.tu.heldSyncs ++ [h] } }

/-- A Follow_Up takes the residence of its Sync; one whose Sync was displaced goes unchanged and is counted (R45). -/
def State.followUp (s : State) (key : HeldSync) : Option Nat × State :=
  match s.tu.heldSyncs.find? key.same, s.tu.displaced.find? key.same with
  | some h, _ => (some h.residence, { s with tu := { s.tu with heldSyncs := s.tu.heldSyncs.erase h } })
  | none, some h => (none, { s with tu := { s.tu with displaced := s.tu.displaced.erase h, syncDisplaced := s.tu.syncDisplaced + 1 } })
  | none, none => (none, s)

/-- A PTP message as the bridge forwards it: the frame that leaves, and the state. -/
def State.bridgePtp (s : State) (p : EthPort) (f : List Byte) (o : Nat) (csum : Option Nat) (residence : Nat) : List Byte × State :=
  let ty := ptpType f o
  let fromB := decide (p = .portB)
  let link : Int := if s.peerMode p then s.tu.linkDelay[portIdx p] * 65536 else 0
  let key : HeldSync := { fromB := fromB, domain := beAt f (o + 4) 1, seqId := beAt f (o + 30) 2, portId := (f.drop (o + 20)).take 10
                          residence := residence }
  if ty = 2 ∧ s.peerMode p then (Config.crypto 0x0203 f, s)
  else if ty = 0 ∧ ptpTwoStep f o then (if link = 0 then f else addCorrection f o csum link, s.holdSync key)
  else if ty = 0 then (addCorrection f o csum (residence * 65536 + link), s)
  else if ty < 4 then (addCorrection f o csum (residence * 65536), s)
  else if ty = 8 then
    let r := s.followUp key
    (match r.1 with | some n => addCorrection f o csum (n * 65536) | none => f, r.2)
  else (f, s)

/-- BRIDGE_FORWARD: a frame passes from a port to the other, while the bridge forwards; `ns` is the time by TB-L from its ingress to its
egress. In peer-to-peer mode the answer to a Pdelay_Req leaves by the port it came from. -/
def State.bridge (s : State) (p : EthPort) (f : List Byte) (ns : Nat) : State :=
  if !s.dev.ethForward then s
  else
    match ptpAt f with
    | none => { s with tu := { s.tu with bridged := some (decide (p = .portB), f) } }
    | some (o, csum) =>
      let r := s.bridgePtp p f o csum (s.tu.residence (beAt f (o + 4) 1) ns)
      { r.2 with tu := { r.2.tu with bridged := some (decide (p = .portB), r.1) } }

/-! ## The rows -/

/-- TIME_CYCLE (R34): n cycles at once. -/
def execTimeCycle (n : Nat) (s : State) : Host.Outcome State Fault Refusal := .next (s.timeCycles n)
/-- TB_OFFSET_HI_WRITE (R31). -/
def execTbOffsetHiWrite (b : Base) (v : Word) (s : State) : Host.Outcome State Fault Refusal :=
  .next (if s.timeStopped then s else s.offsetHi b v)
/-- BASE_TIMEOUT (R32). -/
def execBaseTimeout (b : Base) (s : State) : Host.Outcome State Fault Refusal := .next (s.baseTimeout b)
/-- PPS_IN_EDGE (R49, R50). -/
def execPpsInEdge (s : State) : Host.Outcome State Fault Refusal := .next s.ppsEdge
/-- PPS_LOST (R49). -/
def execPpsLost (s : State) : Host.Outcome State Fault Refusal := .next s.ppsLoss
/-- TRIG_PULSE_START (R46, R47, R62). -/
def execTrigPulseStart (n : Fin 16) (s : State) : Host.Outcome State Fault Refusal := .next (s.trigStart n)
/-- TRIG_PULSE_END (R47). -/
def execTrigPulseEnd (n : Fin 16) (s : State) : Host.Outcome State Fault Refusal := .next (s.trigEnd n)
/-- PPS_OUT_EDGE (R48). -/
def execPpsOutEdge (s : State) : Host.Outcome State Fault Refusal := .next s.ppsOutEdge
/-- PPS_OUT_END (R48). -/
def execPpsOutEnd (s : State) : Host.Outcome State Fault Refusal := .next s.ppsOutDone
/-- BRIDGE_FORWARD (R45). -/
def execBridgeForward (p : EthPort) (frame : List Byte) (ns : Nat) (s : State) : Host.Outcome State Fault Refusal :=
  .next (s.bridge p frame ns)

end Sys2Proof.Machine
end

