-- ==== Sys2Proof/Machine/StreamHw.lean ====
section
/-!
DEFINITION. Arrivals: CSI-2 frames, Ethernet frames and their templates, sensor SPI transactions, and the two opcodes of the
stream manager (R95, R99 to R106).
-/
namespace Sys2Proof.Machine

/-- A stream manager in service: the device is powered and not in reset. -/
def State.smUp (s : State) : Bool := !s.dev.inReset

/-- The sensor inputs are looked at: in every other state the camera, `DRDY` and sensor SPI pins are ignored (R444). -/
def State.sensorsOn (s : State) : Bool := s.isReady

/-- A link error of a channel. -/
def State.linkError (s : State) (ch : Fin 32) : State :=
  let s := { s with sm := { s.sm with status := s.sm.status ||| 2 } }
  s.updChan ch fun c => { c with counts := { c.counts with linkErrors := c.counts.linkErrors + 1 } }

/-! ## CSI-2 (R99, R101, R102) -/

/-- The channel of a virtual channel: the enabled one, or else one that has been enabled and is committed disabled, whose arrivals
are still its own (R90). -/
def State.csiChannel (s : State) (g : Fin 4) (vc : Fin 16) : Option (Fin 32 × List Byte) :=
  let pick (ok : Channel → List Byte → Bool) : Option (Fin 32 × List Byte) := (List.finRange 32).findSome? fun ch =>
    match s.sm.chans[ch].desc with
    | some d => if ok s.sm.chans[ch] d ∧ dKind d = 1 ∧ dIndex d = g.val ∧ dfield d 32 1 = vc.val then some (ch, d) else none
    | none => none
  (pick fun _ d => dEnable d).or (pick fun c _ => c.everEnabled)

/-- Bits of a pixel of a data type as received (R101): RAW8 to RAW16, YUV422 8-bit, RGB888. -/
def pixelBits (ty : Nat) : Option Nat :=
  match ty with
  | 0x2A => some 8
  | 0x2B => some 10
  | 0x2C => some 12
  | 0x2D => some 14
  | 0x2E => some 16
  | 0x1E => some 16
  | 0x24 => some 24
  | _ => none

/-- The pixels of a packed RAW line: the high bytes of a group, then the low bits of its pixels together. -/
def rawPixels (bits : Nat) (line : List Byte) : List Nat :=
  if bits ≤ 8 ∨ 16 < bits then line.map (·.toNat)
  else if bits = 16 then (List.range (line.length / 2)).map fun k => fieldAt line (2 * k) 2
  else
    let low := bits - 8
    let n := 8 / Nat.gcd 8 low
    let size := n * bits / 8
    (List.range (line.length / size)).flatMap fun g =>
      let b := line.drop (g * size)
      let lows := fieldAt b n (size - n)
      (List.range n).map fun k => fieldAt b k 1 * 2 ^ low + lows / 2 ^ (low * k) % 2 ^ low

/-- A line as it is stored, its first `WIDTH` pixels, and whether it was longer. -/
def storedLine (d : List Byte) (line : List Byte) : List Byte × Bool :=
  let ty := dfield d 33 1
  let bits := (pixelBits ty).getD 8
  let bytes := ceilDiv (dWidth d * bits) 8
  let long := decide (bytes < line.length)
  if dfield d 34 1 = 1 ∧ 0x2B ≤ ty ∧ ty ≤ 0x2E then
    (((rawPixels bits line).take (dWidth d)).flatMap fun v => natLe 2 v, long)
  else (line.take bytes, long)

/-- A frame closed: missing lines are filled with zeros and the unit is SHORT. One that a new frame start `cut` off is SHORT with every
line there too (R102). -/
def State.closeFrame (s : State) (ch : Fin 32) (i : Nat) (cut : Bool) : State :=
  let u := s.sm.chans[ch].slot i
  let d := u.desc
  let missing : Bool := decide (u.count < dHeight d)
  let s :=
    if missing then
      let s := s.writePool (dSlotBase d i + 64 + u.count * dStride d) (List.replicate ((dHeight d - u.count) * dStride d) 0)
      s.updChan ch fun c => c.onSlot i fun u => { u with bytes := max u.bytes (dHeight d * dStride d) }
    else s
  let s := if missing || cut then s.updChan ch fun c => c.onSlot i fun u => { u with status := u.status ||| 1 } else s
  (s.updChan ch fun c => c.onSlot i fun u => { u with lastDt := stampOf d s.dtNs }).closeUnit ch i

/-- A frame that is still open closed. -/
def State.endFrame (s : State) (ch : Fin 32) (cut : Bool) : State :=
  match s.sm.chans[ch].frame with
  | some i => s.closeFrame ch i cut
  | none => s

/-- A frame start on a channel that runs (R99, R102). -/
def State.frameStart (s : State) (ch : Fin 32) (d : List Byte) : State :=
  let s := s.endFrame ch true
  let now := stampOf d s.dtNs
  if dTriggered d then
    match s.sm.chans[ch].expect with
    | none => (s.countDrop ch true false).event 0x02 0x0204 ch.val (now % 2 ^ 32) 0
    | some (_, none) => s.updChan ch fun c => { c with expect := none, frame := none }
    | some (_, some i) =>
      let at_ := stampOf (s.sm.chans[ch].slot i).desc s.dtNs
      let s := s.updChan ch fun c =>
        { (c.onSlot i fun u => { u with firstDt := at_, lastDt := at_ }) with expect := none, frame := some i }
      s.writeHeader ch i
  else
    match s.anySlot ch d with
    | (some i, s) => (s.openSlot ch d i 0 0 now).updChan ch fun c => { c with frame := some i }
    | (none, s) => s

/-- A line of a frame stored, or discarded beyond `HEIGHT` (R102). -/
def State.frameLine (s : State) (ch : Fin 32) (i : Nat) (data : List Byte) (bad : Bool) : State :=
  let u := s.sm.chans[ch].slot i
  let d := u.desc
  let n := u.count
  let l := storedLine d data
  let late := decide (dHeight d ≤ n)
  let st : Half := (if l.2 || late then 2 else 0) ||| (if bad then 4 else 0)
  let s := if late then s else s.writePool (dSlotBase d i + 64 + n * dStride d) l.1
  let s := s.updChan ch fun c => c.onSlot i fun u =>
    { u with
      status := u.status ||| st, count := u.count + 1
      bytes := if late then u.bytes else max u.bytes (n * dStride d + l.1.length) }
  if late then s else s.progress ch i

/-- Embedded data stored after the last line, as much as `EMB_BYTES` allows (R86). -/
def State.frameEmbedded (s : State) (ch : Fin 32) (i : Nat) (data : List Byte) (bad : Bool) : State :=
  let u := s.sm.chans[ch].slot i
  let d := u.desc
  let data := data.take (dfield d 44 4 - u.embBytes)
  let at_ := dEmbBase d + u.embBytes
  let s := s.writePool (dSlotBase d i + at_) data
  let s := s.updChan ch fun c => c.onSlot i fun u =>
    { u with
      embBytes := u.embBytes + data.length, bytes := if data.isEmpty then u.bytes else max u.bytes (at_ - 64 + data.length)
      status := u.status ||| (if bad then 4 else 0) }
  s.progress ch i

/-- A long packet on a channel that runs. A payload CRC error is an error of the channel whether or not a frame is open, but none of a
data type that the receiver does not support (R87, R101, R102). -/
def State.longPacket (s : State) (ch : Fin 32) (ty : Nat) (data : List Byte) (link : LinkCheck) : State :=
  if link = .headerBad then s.linkError ch
  else
    let bad : Bool := decide (link = .payloadCrc)
    let s := if bad && ((pixelBits ty).isSome || decide (ty = 0x12)) then s.linkError ch else s
    match s.sm.chans[ch].frame with
    | none => s
    | some i =>
      let d := (s.sm.chans[ch].slot i).desc
      if ty = dfield d 33 1 then s.frameLine ch i data bad
      else if ty = 0x12 ∧ dfield d 35 1 = 0x12 then s.frameEmbedded ch i data bad
      else s

/-- What a frame start does on a virtual channel: a channel that does not run counts the unit (R90). -/
def State.csiStart (s : State) (g : Fin 4) (vc : Fin 16) : State :=
  match s.csiChannel g vc with
  | some (ch, d) => if s.sm.chans[ch].runs then s.frameStart ch d else s.countDisabled ch
  | none => s

/-- What a long packet does on a virtual channel. -/
def State.csiPacket (s : State) (g : Fin 4) (vc : Fin 16) (ty : Byte) (data : List Byte) (link : LinkCheck) : State :=
  match s.csiChannel g vc with
  | some (ch, _) => if s.sm.chans[ch].runs then s.longPacket ch ty.toNat data link else s
  | none => s

/-- What a frame end does on a virtual channel. -/
def State.csiEnd (s : State) (g : Fin 4) (vc : Fin 16) : State :=
  match s.csiChannel g vc with
  | some (ch, _) => if s.sm.chans[ch].runs then s.endFrame ch false else s
  | none => s

/-! ## Ethernet (R103, R104) -/

/-- A frame's header as matching reads it: VLAN identifier, EtherType, and where the payload of the EtherType begins. -/
def ethHead (f : List Byte) : Option Nat × Nat × Nat :=
  if beAt f 12 2 = 0x8100 then (some (beAt f 14 2 % 4096), beAt f 16 2, 18) else (none, beAt f 12 2, 14)

/-- The UDP destination port and the payload of an unfragmented IPv4 or IPv6 datagram. One of IPv6 whose UDP header comes behind extension
headers has none, so that it matches no port (DESIGN CHOICE, log 28). -/
def udpOf (f : List Byte) : Option (Nat × List Byte) :=
  let (_, ty, o) := ethHead f
  let at_ (u : Nat) : Option (Nat × List Byte) := some (beAt f (u + 2) 2, (f.drop (u + 8)).take (beAt f (u + 4) 2 - 8))
  if ty = 0x0800 ∧ beAt f (o + 9) 1 = 17 ∧ beAt f (o + 6) 2 % 0x4000 = 0 then at_ (o + 4 * (beAt f o 1 % 16))
  else if ty = 0x86DD ∧ beAt f (o + 6) 1 = 17 then at_ (o + 40)
  else none

/-- An enabled Ethernet channel takes a frame of a port. -/
def ethMatches (d : List Byte) (p : EthPort) (f : List Byte) : Bool :=
  let m := dfield d 32 1
  let (vlan, ty, _) := ethHead f
  dEnable d && decide (dKind d = 2) && (decide (dIndex d = 2) || decide (dIndex d = (portIdx p).val))
    && (!m.testBit 0 || decide (ty = dfield d 34 2))
    && (!m.testBit 1 || decide (vlan = some (dfield d 36 2 % 4096)))
    && (!m.testBit 2 || decide ((udpOf f).map (·.1) = some (dfield d 38 2)))

/-- The first channel that matches a frame. -/
def State.ethChannel (s : State) (p : EthPort) (f : List Byte) : Option (Fin 32 × List Byte) :=
  (List.finRange 32).findSome? fun ch =>
    match s.sm.chans[ch].desc with
    | some d => if ethMatches d p f then some (ch, d) else none
    | none => none

/-- A field of a template: where it lies in the payload for a block and a point, and its width. `SCOPE` 0 counts from the first byte of the
UDP payload, as `PAYLOAD_OFFSET` does (DEDUCED, log 31). -/
def fieldPlace (t : List Byte) (k block point : Nat) : Nat × Nat :=
  let o := 16 + 8 * k
  let base := fieldAt t 0 2 + block * fieldAt t 2 2
  let from' := match fieldAt t (o + 2) 1 with
    | 0 => 0
    | 1 => base
    | _ => base + fieldAt t 8 2 + point * fieldAt t 6 2
  (from' + fieldAt t o 2, 2 ^ (fieldAt t (o + 3) 1 % 4))

/-- A field's bytes in the output point: copied at its width, or extended to INT32 by its sign bit. -/
def fieldOut (t payload : List Byte) (k block point : Nat) : Nat × List Byte :=
  let o := 16 + 8 * k
  let fmt := fieldAt t (o + 3) 1
  let (at_, w) := fieldPlace t k block point
  let raw := (payload.drop at_).take w
  let v := if fmt.testBit 5 then beNat raw else leNat raw
  let out := if fieldAt t (o + 5) 1 = 0 then natLe w v
    else natLe 4 (if fmt.testBit 4 then patOf 32 (signedOf (8 * w) v) else v)
  (fieldAt t (o + 4) 1, out)

/-- The points of a payload, or a refusal (R104). -/
def extract (t payload : List Byte) : Option (List Byte) :=
  let blocks := fieldAt t 4 1
  let points := fieldAt t 5 1
  let fields := fieldAt t 10 1
  let stride := fieldAt t 11 1
  let cells := (List.range blocks).flatMap fun b => (List.range points).map fun q => (b, q)
  let fits := cells.all fun c => (List.range fields).all fun k =>
    let p := fieldPlace t k c.1 c.2
    decide (p.1 + p.2 ≤ payload.length)
  if t.isEmpty || decide (payload.length < fieldAt t 12 2) || !fits then none
  else some (cells.flatMap fun c => (List.range fields).foldl (fun out k =>
    let w := fieldOut t payload k c.1 c.2
    (out.take w.1 ++ w.2 ++ out.drop (w.1 + w.2.length)).take stride) (List.replicate stride 0))

/-- A frame taken by a channel, under the template of the unit that it joins or opens (R89, R103). The template is the object's bytes as they
stand, whatever the handle's type and partition, its ranges and its reserved bytes: no rule refuses one (DESIGN CHOICE, log 31). -/
def State.ethTake (s : State) (ch : Fin 32) (d f : List Byte) : State :=
  if !s.sm.chans[ch].runs then s.countDisabled ch
  else
    let now := s.dtNs
    let payload := ((udpOf f).map (·.2)).getD []
    s.appendRecord ch d fun d =>
      match (if dfield d 40 4 = 0 then some f else extract (s.objBytes (dfield d 40 4)) payload) with
      | some r => .ok (stampOf d now, r)
      | none => .error payload.length

/-- A counter of the Ethernet ports. -/
def State.ethCount (s : State) (i : Fin 5) : State :=
  { s with sm := { s.sm with ethCounts := s.sm.ethCounts.set i (countUp s.sm.ethCounts[i] 1) } }

/-- A frame that no channel took, for firmware on `CP1` or for no one. -/
def State.ethFirmware (s : State) (p : EthPort) (f : List Byte) : State :=
  let dst := f.take 6
  if s.sm.ethFwEn && (decide (dst = Config.macAddr (decide (p = .portB))) || decide (dst = List.replicate 6 0xFF)) then
    if s.sm.fwFrames.length < 1024 then { s with sm := { s.sm with fwFrames := s.sm.fwFrames ++ [f] } } else s.ethCount 4
  else s

/-- A PTP message received: firmware gets it with its timestamps, whole nanoseconds of the base that serves its domain and of DT
(R41, R44). -/
def State.ptpArrives (s : State) (f : List Byte) (domain : Nat) : State :=
  let m : PtpMsg :=
    { frame := f, onBase := (s.tu.serving domain).map fun b => BitVec.ofNat 64 (TimeFix.ns (s.tu.base b).count)
      onDt := BitVec.ofNat 64 s.dtNs }
  { s with tu := { s.tu with ptpIn := m :: s.tu.ptpIn } }

/-- A frame received (R103). The limit of 9,216 B counts the four bytes of the frame check sequence, which the operand leaves out (DESIGN
CHOICE, log 28). -/
def State.ethReceive (s : State) (p : EthPort) (f : List Byte) (fcsOk : Bool) : State :=
  if !s.dev.ethForward || decide (9216 < f.length + 4) then s
  else if !fcsOk then
    let s := State.ethCount { s with sm := { s.sm with status := s.sm.status ||| 2 } } (match p with | .portA => 2 | .portB => 3)
    match s.ethChannel p f with
    | some (ch, _) => s.linkError ch
    | none => s
  else
    let s := s.ethCount (match p with | .portA => 0 | .portB => 1)
    match ptpAt f with
    | some (o, _) => s.ptpArrives f (beAt f (o + 4) 1)
    | none =>
      match s.ethChannel p f with
      | some (ch, d) => s.ethTake ch d f
      | none => s.ethFirmware p f

/-! ## Sensor SPI (R105) -/

/-- A sensor SPI channel polls. -/
def dPolls (d : List Byte) : Bool := (dfield d 35 1).testBit 7
/-- Its controller. -/
def dCtl (d : List Byte) : Fin 4 := ⟨dIndex d % 4, Nat.mod_lt _ (by decide)⟩

/-- What a controller drives for the transaction at the head of its queue: the chip-select, and the command bytes (R105). -/
def State.spiDrive (s : State) (ctl : Fin 4) : State :=
  let bus : SpiBus := match s.sm.spi[ctl] with
    | [] => SpiBus.idle
    | j :: _ =>
      let d := s.sm.chans[j.channel].unitDesc ((s.sm.chans[j.channel].desc).getD [])
      { cs := some (dfield d 32 1), mode := dfield d 33 1, clkDiv := dfield d 34 1
        command := (d.drop 40).take (dfield d 38 1), readLen := dfield d 36 2 }
  { s with sm := { s.sm with spiBus := s.sm.spiBus.set ctl bus } }

/-- A trigger of a channel: it runs, waits, or is missed because one waits already. -/
def State.spiTrigger (s : State) (ch : Fin 32) (d : List Byte) : State :=
  let q := s.sm.spi[dCtl d]
  if (q.drop 1).any fun j => decide (j.channel = ch) then
    s.updChan ch fun c => { c with
      counts := { c.counts with drdyMissed := c.counts.drdyMissed + 1 }, spanMissed := c.spanMissed + 1 }
  else
    State.spiDrive { s with sm := { s.sm with spi := s.sm.spi.set (dCtl d) (q ++ [{ channel := ch, stamp := s.dtNs }]) } } (dCtl d)

/-- A `DRDY` edge: each running channel on the line that takes this edge is triggered; a channel that has been enabled and does not
run counts it as an arrival that it discards (R90). -/
def State.drdy (s : State) (line : Fin 8) (rising : Bool) : State :=
  (List.finRange 32).foldl (fun (s : State) ch =>
    match s.sm.chans[ch].desc with
    | none => s
    | some d =>
      if decide (dKind d = 3) && !dPolls d && decide (dfield d 35 1 % 8 = line.val) && decide ((dfield d 35 1).testBit 6 ≠ rising) then
        if s.sm.chans[ch].runs then s.spiTrigger ch d
        else if s.sm.chans[ch].everEnabled then s.countDisabled ch
        else s
      else s) s

/-- A poll period of a channel comes due; one of a channel that has been enabled and does not run is counted (R90). -/
def State.spiPoll (s : State) (ch : Fin 32) : State :=
  match s.sm.chans[ch].desc with
  | none => s
  | some d =>
    if decide (dKind d = 3) && dPolls d && s.sm.chans[ch].everEnabled && decide (s.sm.chans[ch].nextPoll ≤ s.dtNs) then
      let s := if s.sm.chans[ch].runs then s.spiTrigger ch d else s.countDisabled ch
      s.updChan ch fun c => { c with nextPoll := c.nextPoll + dfield d 48 4 }
    else s

/-- The transaction behind the one that ended starts: a polled one is stamped as `CS` is asserted (R106). -/
def State.spiNext (s : State) (ctl : Fin 4) : State :=
  let queue : List SpiJob := match s.sm.spi[ctl].drop 1 with
    | [] => []
    | j :: rest =>
      let polled : Bool := match s.sm.chans[j.channel].desc with
        | some d => dPolls d
        | none => false
      (bif polled then { j with stamp := s.dtNs } else j) :: rest
  State.spiDrive { s with sm := { s.sm with spi := s.sm.spi.set ctl queue } } ctl

/-- A record of a sensor SPI channel goes by its route to the pool, the front end or both; what the front end does with it follows the mode
of the binding, which no check holds against the route (DESIGN CHOICE, log 32). -/
def State.spiRecord (s : State) (ch : Fin 32) (d : List Byte) (stamp : Nat) (data : List Byte) : State :=
  let dt := stampOf d stamp
  let s := if dRoute d = 1 then s.noteArrival ch dt else s.appendRecord ch d fun d => .ok (stampOf d stamp, data)
  if dRoute d = 0 then s
  else
    match s.inputOf ch with
    | none => s
    | some (n, b) => if b.direct then s.directSample dt (directAxes (s.filterOf b) data) else s.chainSample n b dt data

/-- A transaction ends. -/
def State.spiDone (s : State) (ctl : Fin 4) (data : List Byte) : State :=
  match s.sm.spi[ctl] with
  | [] => s
  | j :: _ =>
    let len := s.sm.spiBus[ctl].readLen
    let s := s.spiNext ctl
    match s.sm.chans[j.channel].desc with
    | none => s
    | some d =>
      let data := data.take len ++ List.replicate (len - data.length) 0
      if s.sm.chans[j.channel].runs then s.spiRecord j.channel d j.stamp data else s.countDisabled j.channel

/-! ## TAKE and RELEASE (R95) -/

/-- The channel an operation names. -/
def Op.channel (o : Op) : Fin 32 := ⟨o.argA % 32, Nat.mod_lt _ (by decide)⟩

/-- An opcode of the stream manager that issues: what it does with the units comes before the flag wait holds one (R93). -/
def State.smIssue (s : State) (p : Fin 4) (opcode : Nat) (act : NextOp → State → List Byte × State)
    (start : NextOp → List Byte → State → State) : State :=
  match s.nextOp (.sm p) with
  | none => s
  | some n =>
    if decide (n.op.opcode = opcode) && s.mayIssue (.sm p) n.op (some .main) then
      let r := act n s
      start n r.1 (r.2.issued (.sm p) n.op)
    else s

/-- TAKE: the units are handed over as it issues, and the handoff record is written as it ends. -/
def State.takeOp (s : State) (p : Fin 4) : State :=
  s.smIssue p 0x10 (fun n s => s.takeUnits n.op.channel) fun n r s =>
    s.startOp (.sm p) n .main (64 + 4 * fieldAt r 2 2) [poolWrite (n.arg 0 4) r]

/-- RELEASE. -/
def State.releaseOp (s : State) (p : Fin 4) : State :=
  s.smIssue p 0x11 (fun n s => ([], s.releaseUnits n.op.channel n.op.argB)) fun n _ s => s.startOp (.sm p) n .main 16 []

/-! ## The rows -/

/-- CSI2_FRAME_START (R99, R102). -/
def execCsi2FrameStart (g : Fin 4) (vc : Fin 16) (s : State) : Host.Outcome State Fault Refusal :=
  .next (if s.sensorsOn then s.csiStart g vc else s)
/-- CSI2_LONG_PACKET (R102). -/
def execCsi2LongPacket (g : Fin 4) (vc : Fin 16) (ty : Byte) (data : List Byte) (link : LinkCheck) (s : State) :
    Host.Outcome State Fault Refusal := .next (if s.sensorsOn then s.csiPacket g vc ty data link else s)
/-- CSI2_FRAME_END (R102). -/
def execCsi2FrameEnd (g : Fin 4) (vc : Fin 16) (s : State) : Host.Outcome State Fault Refusal :=
  .next (if s.sensorsOn then s.csiEnd g vc else s)
/-- ETH_FRAME_RECEIVE (R103). -/
def execEthFrameReceive (p : EthPort) (f : List Byte) (fcsOk : Bool) (s : State) : Host.Outcome State Fault Refusal :=
  .next (s.ethReceive p f fcsOk)
/-- DRDY_EDGE (R105). -/
def execDrdyEdge (line : Fin 8) (rising : Bool) (s : State) : Host.Outcome State Fault Refusal :=
  .next (if s.sensorsOn then s.drdy line rising else s)
/-- SPI_POLL_PERIOD (R105). -/
def execSpiPollPeriod (ch : Fin 32) (s : State) : Host.Outcome State Fault Refusal := .next (if s.sensorsOn then s.spiPoll ch else s)
/-- SPI_TRANSACTION_DONE (R105). -/
def execSpiTransactionDone (ctl : Fin 4) (data : List Byte) (s : State) : Host.Outcome State Fault Refusal :=
  .next (if s.sensorsOn then s.spiDone ctl data else s)
/-- TAKE (R95). -/
def execTake (p : Fin 4) (s : State) : Host.Outcome State Fault Refusal :=
  .next (s.takeOp p)
/-- RELEASE (R95). -/
def execRelease (p : Fin 4) (s : State) : Host.Outcome State Fault Refusal :=
  .next (s.releaseOp p)

end Sys2Proof.Machine
end

