-- ==== Sys2Proof/Machine/StreamCmd.lean ====
section
/-!
DEFINITION. Stream descriptors as commands write, check and commit them, the inertial bindings, and what the stream manager
does in the boundary step (chapters 4 and 5).
-/
namespace Sys2Proof.Machine

/-! ## Views of the descriptors (R88, R349) -/

/-- A channel's running copy once every accepted commit has applied. -/
def State.copyOf (s : State) (ch : Fin 32) : Option (List Byte) := (s.committing ch).head?.or s.sm.chans[ch].desc

/-- The partition holds every flag of a range: its own block if it is granted, and for partition 0 block 0 and the blocks of
partitions that are not granted (R405). -/
def State.holdsFlags (s : State) (p : Fin 4) (base count : Nat) : Bool :=
  let holds (b : Nat) : Bool :=
    if p = 0 then
      match s.sec.grants.toList[b]? with
      | some g => decide (b = 0 ∨ g.state = 0)
      | none => false
    else decide (b = p.val)
  decide (base + count ≤ 4096) && (List.range 4).all fun b => !decide (0 < count ∧ base < 1024 * (b + 1) ∧ 1024 * b < base + count) || holds b

/-- The channel is granted to a partition; partition 0 holds what no other is granted (R405). -/
def State.ownsChannel (s : State) (p : Fin 4) (ch : Nat) : Bool :=
  if p = 0 then !(s.sec.grants.toList.drop 1).any fun g => g.chanMask.toNat.testBit ch
  else s.sec.grants[p].chanMask.toNat.testBit ch

/-- The pecks of a partition's pool share (R88, R405). -/
def State.poolShare (s : State) (p : Fin 4) : Nat :=
  if p = 0 then 3072 - (s.sec.grants.toList.drop 1).foldl (fun n g => n + g.poolPecks) 0 else s.sec.grants[p].poolPecks

/-- The resident images of a partition. -/
def State.imagesOf (s : State) (p : Fin 4) : List Image :=
  s.sched.slots.toList.filterMap fun x => x.bind fun img => if img.partition = p then some img else none

/-- The amount of a claim of an image, 0 without one. -/
def Image.claim (img : Image) (resource index : Nat) : Nat :=
  ((img.claims.find? fun c => decide (c.resource = resource ∧ c.index = index)).map (·.amount)).getD 0

/-- The largest peck claim among the resident images of a partition. -/
def State.peckClaim (s : State) (p : Fin 4) : Nat := (s.imagesOf p).foldl (fun m img => max m (img.claim 0x0003 0)) 0

/-! ## Commit checks (R84 to R89) -/

/-- Reserved bytes and bits of a descriptor are zero (check 3). -/
def dReservedOk (d : List Byte) : Bool :=
  let named := (0, 29) :: sourceBytes (dKind d)
  ((List.range 192).all fun k => named.any (fun r => decide (r.1 ≤ k ∧ k < r.1 + r.2)) || decide (d.getD k 0 = 0))
    && decide (dfield d 6 2 < 4)
    && (decide (dKind d ≠ 2) || decide (dfield d 32 1 < 8 ∧ dfield d 36 2 < 4096))
    && (decide (dKind d ≠ 3) || decide (dfield d 35 1 / 8 % 8 = 0))
    && (decide (dKind d ≠ 4) || decide (dfield d 32 1 < 128))

/-- The source exists, and its fields are in range, as R84 and R86 allow (check 3). `UNPACK` 1 with a data type that it does not name is out
of range (DEDUCED, log 31). -/
def dSourceOk (d : List Byte) : Bool :=
  let i := dIndex d
  let line (bits : Nat) : Nat := if dfield d 34 1 = 1 then 2 * dWidth d else ceilDiv (dWidth d * bits) 8
  match dKind d with
  | 0 => decide (i = 0) && !dEnable d
  | 1 =>
    (match pixelBits (dfield d 33 1) with
      | some bits => decide (dStride d % 64 = 0 ∧ line bits ≤ dStride d)
      | none => false)
      && decide (i ≤ 3 ∧ dfield d 32 1 ≤ 15 ∧ dfield d 34 1 ≤ 1 ∧ dfield d 35 1 ∈ [0, 0x12] ∧ dRoute d = 0) && dFrame d
      && (decide (dfield d 34 1 = 0) || decide (0x2B ≤ dfield d 33 1 ∧ dfield d 33 1 ≤ 0x2E))
  | 2 => decide (i ≤ 2 ∧ dRoute d = 0) && !dFrame d && !dTriggered d
  | 3 =>
    decide (i ≤ 3 ∧ dfield d 32 1 ≤ 3 ∧ dfield d 33 1 ≤ 3 ∧ 5 ≤ dfield d 34 1 ∧ 1 ≤ dfield d 36 2 ∧ dfield d 36 2 ≤ 256
      ∧ dfield d 38 1 ≤ 8) && (!(dfield d 35 1).testBit 7 || decide (10000 ≤ dfield d 48 4)) && !dFrame d && !dTriggered d
  | 4 =>
    decide (i ≤ 7 ∧ dRoute d ≤ 1 ∧ dfield d 32 1 / 4 % 8 ≠ 0 ∧ dfield d 32 1 % 4 ≠ 3 ∧ 10000 ≤ dfield d 36 4
      ∧ dfield d 36 4 ≤ 1000000) && !dFrame d && !dTriggered d
  | _ => false

/-- Every field within its range (check 3). -/
def dRangesOk (d : List Byte) : Bool :=
  decide (dfield d 2 1 ≤ 1 ∧ dfield d 3 1 ≤ 1 ∧ dfield d 4 1 ≤ 3 ∧ dRoute d ≤ 2 ∧ dQuotaBase d ≤ 3071
    ∧ dQuotaBase d + dQuotaPecks d ≤ 3072 ∧ 1 ≤ dSlotPecks d ∧ dSlotPecks d ≤ 1024 ∧ 1 ≤ dPecksPerFlag d
    ∧ dPecksPerFlag d ≤ 64 ∧ 1 ≤ dHoldLimit d ∧ dFlagBase d ≤ 4095 ∧ dFlagBase d + dFlagCount d ≤ 4096)
  && (decide (2 ≤ dSlots d ∧ dSlots d ≤ 64) || decide (dSlots d = 0 ∧ dRoute d = 1))
  && (decide (dFlagCount d = 0) || (dTriggered d && dFrame d && decide (dFlagCount d = 2 * dSlots d * dGroups d)))

/-- The sizes of check 4. -/
def dSizesOk (d : List Byte) : Bool :=
  decide (dQuotaPecks d = dSlots d * dSlotPecks d ∧ dMaxUnit d + 64 ≤ dSlotPecks d * 16384)
  && (decide (dKind d ≠ 1) || decide (dHeight d * dStride d + dfield d 44 4 ≤ dMaxUnit d))

/-- What a source feeds: a CSI-2 virtual channel, a chip-select or an encoder; an Ethernet port feeds every match (R84). -/
def dSource (d : List Byte) : Option (Nat × Nat × Nat) :=
  match dKind d with
  | 1 | 3 => some (dKind d, dIndex d, dfield d 32 1)
  | 4 => some (4, dIndex d, 0)
  | _ => none

/-- The fields that only a disabled channel may change (R89): bytes 0, 1, 2, 5 and 8 to 19. -/
def dLayout (d : List Byte) : List Byte := [0, 1, 2, 5, 8, 9, 10, 11, 12, 13, 14, 15, 16, 17, 18, 19].map fun k => d.getD k 0

/-- The view of a channel under a commit of descriptors. -/
def State.viewOf (s : State) (ds : List (Fin 32 × List Byte)) (ch : Fin 32) : Option (List Byte) :=
  ((ds.find? fun d => decide (d.1 = ch)).map (·.2)).or (s.copyOf ch)

/-- The enabled channels under a commit, other than one. -/
def State.othersEnabled (s : State) (ds : List (Fin 32 × List Byte)) (ch : Fin 32) : List (List Byte) :=
  ((List.finRange 32).filter fun o => decide (o ≠ ch)).filterMap fun o => (s.viewOf ds o).filter dEnable

/-- The pecks of the enabled channels of a partition under a commit. -/
def State.quotaOf (s : State) (ds : List (Fin 32 × List Byte)) (p : Fin 4) : Nat :=
  (List.finRange 32).foldl (fun n ch => match s.viewOf ds ch with
    | some d => if dEnable d ∧ dPart d = p then n + dQuotaPecks d else n
    | none => n) 0

/-- A check of R88 for one channel, its number given. None keeps an encoder from a channel of partition 1, 2 or 3, though every front-end
input belongs to partition 0, so such a channel is taken (R109; DESIGN CHOICE, log 32). -/
def State.commitCheck (s : State) (p : Fin 4) (ds : List (Fin 32 × List Byte)) (check : Nat) (ch : Fin 32) (d : List Byte) :
    Bool :=
  match check with
  | 1 => decide (dfield d 4 1 = p.val) && s.ownsChannel p ch.val
  | 2 => decide (s.sec.grants[p].state ≠ 2)
  | 3 => dReservedOk d && dRangesOk d && dSourceOk d && s.holdsFlags p (dFlagBase d) (dFlagCount d)
  | 4 => dSizesOk d
  | 5 =>
    !dEnable d || (s.othersEnabled ds ch).all fun o =>
      !rangesMeet (dQuotaBase d) (dQuotaPecks d) (dQuotaBase o) (dQuotaPecks o) &&
        !rangesMeet (dFlagBase d) (dFlagCount d) (dFlagBase o) (dFlagCount o)
  | 6 => decide (s.quotaOf ds p + s.peckClaim p ≤ s.poolShare p)
  | 7 =>
    !dEnable d || (decide (((s.othersEnabled ds ch).filter fun o => decide (dKind o = 1)).length + b2n (decide (dKind d = 1)) ≤ 16)
      && (decide (dSource d = none) || (s.othersEnabled ds ch).all fun o => decide (dSource o ≠ dSource d)))
  | _ =>
    match s.sm.chans[ch].desc with
    | some r => !dEnable r || !dEnable d || decide (dLayout r = dLayout d)
    | none => true

/-- The status of a failed check. -/
def commitStatus (check : Nat) : Nat :=
  match check with
  | 1 => errPartition
  | 2 => errScrubbing
  | 6 => errTooLarge
  | 7 => errNoResource
  | _ => errArg

/-- The first check that fails, every channel in order before the next check: its number and channel (R88). -/
def State.commitFails (s : State) (p : Fin 4) (ds : List (Fin 32 × List Byte)) : Option (Nat × Fin 32) :=
  (List.range 8).findSome? fun k => (ds.find? fun d => !s.commitCheck p ds (k + 1) d.1 d.2).map fun d => (k + 1, d.1)

/-- The pending descriptors of a mask, in channel order. -/
def State.pendingOf (s : State) (mask : Nat) : List (Fin 32 × List Byte) :=
  (List.finRange 32).filterMap fun ch => if mask.testBit ch.val then s.sm.chans[ch].pend.map fun d => (ch, d) else none

/-- STREAM_COMMIT carried out. -/
def State.commitStreams (c : SubEntry) (s : State) : State :=
  let p := s.partOf c
  let ds := s.pendingOf (c.p 0 4)
  match s.commitFails p ds with
  | some (k, ch) => s.reply c (commitStatus k) k ch.val (if k = 6 then s.quotaOf ds p + s.peckClaim p - s.poolShare p else 0) 0
  | none =>
    let s := ds.foldl (fun (s : State) d => s.updChan d.1 fun x => { x with pend := none }) s
    (s.addJob c (.streamCommit ds)).noteCommits

/-- STREAM_CONFIG carried out: the descriptor is written to its entry of the table in DRAM, where it is pending (R17, R88). -/
def State.configStream (c : SubEntry) (s : State) : State :=
  if h : c.p 0 1 < 32 then
    if s.ownsChannel (s.partOf c) (c.p 0 1) then
      let s := s.writeMem (Config.streamTableBase + 256 * c.p 0 1) (c.bytes 4 192)
      (s.updChan ⟨c.p 0 1, h⟩ fun x => { x with pend := some (c.bytes 4 192) }).replyOk c
    else s.replyErr c errPartition
  else s.replyErr c errArg

/-- STREAM_STATUS carried out: a commit that waits for its boundary shows as the pending descriptor (log 40). -/
def State.streamStatus (c : SubEntry) (s : State) : State :=
  if h : c.p 0 1 < 32 then
    let ch : Fin 32 := ⟨c.p 0 1, h⟩
    if s.ownsChannel (s.partOf c) ch.val then
      let x := s.sm.chans[ch]
      let pend := x.pend.or (s.committing ch).head?
      let run := match x.desc with | some d => d ++ x.statusBlock | none => List.replicate 256 0
      let next := match pend with | some d => d ++ List.replicate 64 0 | none => List.replicate 256 0
      s.replyOut c (run ++ next) (b2n x.desc.isSome + 2 * b2n pend.isSome) 0 0 0
    else s.replyErr c errPartition
  else s.replyErr c errArg

/-! ## Bindings and SYNC (R110, R123) -/

/-- The first configuration check of a binding that fails (R110). -/
def State.bindingFails (s : State) (ch : Fin 32) (direct : Bool) (h : Nat) : Option Nat :=
  let f := s.objBytes h
  let d := ((s.sm.chans[ch].pend.or (s.copyOf ch)).getD [])
  let named : Bool := decide (handleType h = 0x06) && decide (handlePart h = 0) && decide (f.length = 16640)
  if !named || !fsReserved f then some 2
  else if !fsRanges f then some 3
  else if !fsAxesFit f (dfield d 36 2) then some 4
  else if !direct && decide (fsOut f < 2 * (fsIn f * 2 ^ fsStages f)) then some 5
  else if !direct && decide (4 * fsUnit f < fsHeadroom f) then some 6
  else if !(List.range 6).all (fsGainOk f direct) then some 7
  else if !direct && decide (2 * fsLat f < fsMinLat f (dfield d 38 1) (dfield d 36 2) (dfield d 34 1)) then some 8
  else none

/-- STREAM_IFE_CONFIG carried out. -/
def State.configInput (c : SubEntry) (s : State) : State :=
  if h : c.p 0 1 < 4 ∧ c.p 1 1 < 32 ∧ c.p 2 1 ≤ 1 then
    let n : Fin 4 := ⟨c.p 0 1, h.1⟩
    let ch : Fin 32 := ⟨c.p 1 1, h.2.1⟩
    let direct : Bool := decide (c.p 2 1 = 1)
    let present : Bool := match s.ife.inputs[n].binding with
      | some b => s.sm.chans[b.channel].runs
      | none => false
    if !s.ownsChannel 0 ch.val then s.replyErr c errPartition
    else if present || s.sm.chans[ch].runs then s.reply c errArg 1 0 0 0
    else match s.bindingFails ch direct (c.p 4 4) with
      | some k => s.reply c errArg k 0 0 0
      | none =>
        (s.updInput n fun x => { x with nextBinding := some { channel := ch, direct := direct, filterSet := c.p 4 4 } }).replyOk c
  else s.replyErr c errArg

/-! ## The boundary step (R96) -/

/-- RELEASE operations that the boundary stopped or abandoned are carried out (R96 step 1). -/
def State.lateReleases (s : State) (ops : List Op) : State :=
  ops.foldl (fun (s : State) o =>
    if h : o.opcode = 0x11 ∧ o.argA < 32 then s.releaseUnits ⟨o.argA, h.2⟩ o.argB else s) s

/-- Committed copies applied in acceptance order (R96 step 4): which channels, for each commit of a partition. -/
def State.applyCommits (s : State) (dt : Nat) : State :=
  let jobs := s.fw.jobs.filter fun j => match j.kind with | .streamCommit _ => true | _ => false
  let s := jobs.foldl (fun (s : State) (j : Job) => match j.kind with
    | .streamCommit ds =>
      let s := ds.foldl (fun (s : State) d => s.updChan d.1 fun x => x.commit d.2) s
      let mask := ds.foldl (fun (m : Nat) d => m ||| 2 ^ d.1.val) 0
      let s := if mask = 0 then s else s.event 0x02 0x0208 mask s.mbx[j.mbx].partition.val 0
      s.completeJob j stOk 0 0 0 0 dt
    | _ => s) s
  s.noteCommits

/-- The stream manager in the boundary step; the images that start are in place, and `ops` were stopped or abandoned. -/
def State.streamBoundary (s : State) (ops : List Op) (dt : Nat) : State :=
  let all (f : State → Fin 32 → State) (s : State) : State := (List.finRange 32).foldl f s
  let s := s.lateReleases ops
  let s := all State.channelEvents s
  let s := all State.expireHolds s
  let s := all State.releaseMissing s
  let s := s.applyCommits dt
  let s := all State.settleChannel s
  all State.writeBackStatus s

/-! ## The rows -/

/-- STREAM_CONFIG (R88). -/
def execStreamConfig (e : Entry) (s : State) : Host.Outcome State Fault Refusal := .next (s.serve 0x0301 e State.configStream)
/-- STREAM_COMMIT (R88). -/
def execStreamCommit (e : Entry) (s : State) : Host.Outcome State Fault Refusal := .next (s.serve 0x0302 e State.commitStreams)
/-- STREAM_STATUS (R357). -/
def execStreamStatus (e : Entry) (s : State) : Host.Outcome State Fault Refusal := .next (s.serve 0x0303 e State.streamStatus)
/-- STREAM_IFE_CONFIG (R110). -/
def execStreamIfeConfig (e : Entry) (s : State) : Host.Outcome State Fault Refusal := .next (s.serve 0x0304 e State.configInput)
/-- STREAM_SYNC (R123). -/
def execStreamSync (e : Entry) (s : State) : Host.Outcome State Fault Refusal :=
  .next (s.serve 0x0305 e fun c s => s.addJob c .streamSync)
/-- STREAM_SYNC_MODE (R123). -/
def execStreamSyncMode (e : Entry) (s : State) : Host.Outcome State Fault Refusal :=
  .next (s.serve 0x0306 e fun c s =>
    if c.p 0 1 ≤ 1 then s.addJob c (.syncMode (decide (c.p 0 1 = 1))) else s.replyErr c errArg)

end Sys2Proof.Machine
end

