-- ==== Sys2Proof/Machine/Part.lean ====
section
/-!
DEFINITION. Partitions: what each holds, grants and releases, scrubs, and the mailboxes as a grant gives and takes them
(R344, R356, R405 to R408).
-/
namespace Sys2Proof.Machine

/-! ## What partition 0 holds (R372, R405) -/

/-- The grants of partitions 1 to 3 and of partition 0, which holds the rest: its pool base is that of its first free run. -/
def restOf (g : Vector Grant 4) : Grant :=
  let others := g.toList.drop 1
  let or8 (f : Grant → Byte) : Byte := others.foldl (fun m x => m ||| f x) 0
  let runs := sortBy (fun (a b : Nat × Nat) => decide (a.1 ≤ b.1))
    ((others.filter fun x => decide (0 < x.poolPecks)).map fun x => (x.poolBase, x.poolPecks))
  { g[0] with
    state := 1
    coreMask := ~~~ or8 (·.coreMask)
    poolBase := runs.foldl (fun b r => if r.1 ≤ b then max b (r.1 + r.2) else b) 0
    poolPecks := 3072 - others.foldl (fun n x => n + x.poolPecks) 0
    dramBase := 0
    dramBytes := Config.fwRegionBase - others.foldl (fun n x => n + x.dramBytes) 0
    flashBytes := Config.flashCapacity - others.foldl (fun n x => n + x.flashBytes) 0
    trigMask := ~~~ others.foldl (fun (m : Half) x => m ||| x.trigMask) 0
    chanMask := ~~~ others.foldl (fun (m : Word) x => m ||| x.chanMask) 0 }

/-- Partition 0's entry as the other grants leave it. -/
def State.settleRest (s : State) : State :=
  { s with sec := { s.sec with grants := s.sec.grants.set 0 (restOf s.sec.grants) } }

/-- The mailboxes that the layout gives a partition. -/
def Grant.mailboxes (g : Grant) : List (Fin 8) := (List.finRange 8).filter fun i => g.mbxMask.getLsbD i.val

/-! ## Mailboxes opened and closed (R344, R351) -/

/-- What a discarded command would still have done is not done (R351). -/
def State.undoJob (s : State) (j : Job) : State :=
  match j.kind with
  | .objPromote h => s.updObj h fun o => { o with promoting := o.promoting.filter fun u => decide (u ≠ j.mbx.val) }
  | .objEvict h => s.updObj h fun o => { o with dropping := false, evictPending := false }
  | .objUnload h => s.updObj h fun o => { o with freeing := false }
  | .objPlace h _ _ => s.objReverted h
  | .objLoad h _ => s.discardLoad h
  | .placeDestroy h => s.updIndex h fun x => { x with destroying := false }
  | .placeInsert h _ _ _ => s.updIndex h fun x => { x with
      queue := x.queue.filter fun v => decide (v.job ≠ some (j.mbx, j.tag))
      tombs := x.tombs ++ (x.fresh.filter fun f => decide (f.2 = (j.mbx, j.tag))).map fun f => (f.1, x.epoch + 1) }
  | .placeDelete h v => s.updIndex h fun x => { x with tombs := x.tombs.filter fun t => decide (t ≠ (v, x.epoch + 1)) }
  | .placeCompact h => s.compactionDropped h
  | _ => s

/-- A mailbox's commands in flight discarded without completion. -/
def State.discardMbx (s : State) (i : Fin 8) : State :=
  let ended := s.fw.jobs.filterMap fun j => if j.mbx = i then (match j.kind with | .placeQuery n => some n | _ => none) else none
  let s := (s.fw.jobs.filter fun j => decide (j.mbx = i)).foldl State.undoJob s
  let s := { s with fw := { s.fw with
    queue := s.fw.queue.filter fun q => decide (q.entry.mbx ≠ i)
    jobs := s.fw.jobs.filter fun j => decide (j.mbx ≠ i) } }
  let s := { s with ps := { s.ps with queries := s.ps.queries.filter fun q => decide (q.num ∉ ended) } }
  (s.updMbx i fun m => { m with held := [] }).noteCommits

/-- A bulk window unmapped: its buffer in DRAM is given up (R333). -/
def State.unmapWindow (s : State) (i : Fin 8) : State :=
  if s.mbx[i].bulkMapped then
    (s.unmapRun s.mbx[i].bulkBase bulkSize).updMbx i fun m => { m with bulkMapped := false, bulkBase := 0 }
  else s

/-- A mailbox open to a partition, with empty rings and its bulk window mapped onto 2 MiB of the partition's DRAM; the window stays unmapped
while no run of DRAM is long enough (R333, R344; log 6). -/
def State.openMbx (s : State) (i : Fin 8) (p : Fin 4) : State :=
  let r := (s.unmapWindow i).freeRun p 0 (bulkSize / 65536)
  let t := match r.1 with | some b => r.2.unmapRun b bulkSize | none => r.2
  t.updMbx i fun m => { Mbx.reset with
    state := .opened, partition := p, bulkMapped := r.1.isSome, bulkBase := r.1.getD 0, sq := m.sq, cq := m.cq }

/-- A mailbox closed, its window unmapped and its subscriptions ended. -/
def State.closeMbx (s : State) (i : Fin 8) : State :=
  ((s.discardMbx i).unmapWindow i).updMbx i fun m => { Mbx.reset with sq := m.sq, cq := m.cq }

/-- Every mailbox that the layout grants opened, as at each entry to READY (R344). -/
def State.openAll (s : State) : State :=
  (List.finRange 4).foldl (fun (s : State) p =>
    (if s.sec.grants[p].state = 0 then [] else s.sec.grants[p].mailboxes).foldl (fun (s : State) i => s.openMbx i p) s) s

/-! ## PART_GRANT: conflicts (R356, R405) -/

/-- The grants as they will stand once every accepted grant and release has applied. -/
def State.projected (s : State) : Vector Grant 4 :=
  s.sec.scrubs.foldl (fun (g : Vector Grant 4) x => g.set x.part (x.grant.getD Grant.empty)) s.sec.grants

/-- A PART_GRANT's payload as a grant. -/
def SubEntry.grant (c : SubEntry) : Grant where
  state := 1
  coreMask := BitVec.ofNat 8 (c.p 1 1)
  mbxMask := BitVec.ofNat 8 (c.p 2 1)
  poolBase := c.p 4 2
  poolPecks := c.p 6 2
  dramBase := c.p 8 8
  dramBytes := c.p 16 8
  flashBytes := c.p 24 8
  trigMask := BitVec.ofNat 16 (c.p 32 2)
  chanMask := BitVec.ofNat 32 (c.p 36 4)

/-- The enabled descriptors of partition 0, committed or on the way. -/
def State.quotas0 (s : State) : List (Fin 32 × List Byte) :=
  (List.finRange 32).filterMap fun ch => match s.copyOf ch with
    | some d => if dEnable d ∧ dPart d = 0 then some (ch, d) else none
    | none => none

/-- A claim of one of partition 0's resident images that a predicate holds of. -/
def State.claims0 (s : State) (f : Claim → Bool) : Bool := (s.imagesOf 0).any fun img => img.claims.any f

/-- The first resource of a new grant that another partition holds, or that an image, a committed quota, an object or an internal
service of partition 0 uses, as its code of R61; 0 for a mailbox or flash space, which have none (R356). -/
def State.grantConflict (s : State) (p : Fin 4) (g : Grant) : Option Nat :=
  let now := s.projected
  let own := now[p]
  let others := ((List.finRange 4).filter fun q => decide (q ≠ 0 ∧ q ≠ p)).map fun q => now[q]
  let q0 := s.quotas0
  let taken (b : Nat) (mine theirs : Grant → Nat) (used : Nat → Bool) : Bool :=
    (mine g).testBit b && (others.any (fun x => (theirs x).testBit b) || (used b && !(theirs own).testBit b))
  let cores : Bool := (List.range 8).any fun b =>
    taken b (·.coreMask.toNat) (·.coreMask.toNat) fun b => (s.imagesOf 0).any fun img => img.coreMask.getLsbD b
  let pecks : Bool := others.any (fun x => rangesMeet g.poolBase g.poolPecks x.poolBase x.poolPecks)
    || q0.any (fun d => rangesMeet g.poolBase g.poolPecks (dQuotaBase d.2) (dQuotaPecks d.2))
    || decide (3072 < others.foldl (fun n x => n + x.poolPecks) 0 + g.poolPecks + s.quotaOf [] 0 + s.peckClaim 0)
  let flags : Bool := decide (own.state = 0) &&
    (s.claims0 (fun c => decide (c.resource = 0x0004) && rangesMeet (1024 * p.val) 1024 c.index c.amount)
      || q0.any fun d => rangesMeet (1024 * p.val) 1024 (dFlagBase d.2) (dFlagCount d.2))
  let objs := s.mt.objects.filter fun o => decide (handlePart o.handle = 0)
  let dram : Bool := decide (Config.fwRegionBase < g.dramBase + g.dramBytes)
    || others.any (fun x => rangesMeet g.dramBase g.dramBytes x.dramBase x.dramBytes)
    || objs.any (fun o => s.holdsRun o && rangesMeet g.dramBase g.dramBytes o.base o.size)
    || ((s.serviceRuns fun ix => decide (ix.part = 0)) ++ s.windowRuns fun q => decide (q = 0)).any (fun r =>
      rangesMeet g.dramBase g.dramBytes r.1 r.2)
    || decide (Config.fwRegionBase < others.foldl (fun n x => n + x.dramBytes) 0 + g.dramBytes
      + (s.imagesOf 0).foldl (fun n img => n + img.claim 0x0005 0) 0)
  let pins : Bool := (List.range 16).any fun b =>
    taken b (·.trigMask.toNat) (·.trigMask.toNat) fun b => (s.imagesOf 0).any fun img => img.trigMask.testBit b
  let chans : Bool := (List.range 32).any fun b =>
    taken b (·.chanMask.toNat) (·.chanMask.toNat) fun b =>
      (s.imagesOf 0).any (fun img => img.channelMask.testBit b) || q0.any fun d => decide (d.1.val = b)
  let boxes : Bool := (List.range 8).any fun b => g.mbxMask.getLsbD b && others.any fun x => x.mbxMask.getLsbD b
  let flash : Bool := decide (Config.flashCapacity < others.foldl (fun n x => n + x.flashBytes) 0 + g.flashBytes)
  if cores then some 0x0001
  else if pecks then some 0x0003
  else if flags then some 0x0004
  else if dram then some 0x0005
  else if pins then some 0x0008
  else if chans then some 0x0009
  else if boxes || flash then some 0
  else none

/-- A new grant's fields are in range (R356, R405). -/
def Grant.inRange (g : Grant) : Bool :=
  !g.mbxMask.getLsbD 0 && decide (g.poolBase + g.poolPecks ≤ 3072 ∧ g.dramBase % 65536 = 0 ∧ g.dramBytes % 65536 = 0
    ∧ g.dramBase + g.dramBytes ≤ dramSize)

/-! ## Scrubs (R407, R408) -/

/-- Objects, place indexes and object tracks of a partition freed. -/
def State.freeWork (s : State) (p : Fin 4) : State :=
  let mine (h : Nat) : Bool := decide (handlePart h = p)
  let s := { s with mt := { s.mt with
    objects := s.mt.objects.filter fun o => !mine o.handle
    queue := s.mt.queue.filter fun r => decide (r.partition ≠ p)
    groups := s.mt.groups.filter fun g => decide (g.ns.val ≠ p.val)
    pages := s.mt.pages.filter fun x => decide (x.ns.val ≠ p.val) } }
  let s := { s with ps := { s.ps with
    indexes := s.ps.indexes.map (fun (x : Option PsIndex) => x.filter fun i => decide (i.part ≠ p))
    queries := s.ps.queries.filter fun q => !mine (q.d 0 4) } }
  let tracks := s.liveContexts.filter fun x => decide (ctxKind x = 2 ∧ ctxOwner x = p.val)
  tracks.foldl (fun (s : State) x => s.freeTrack (ctxHandle x)) s

/-- A partition's images freed, and the partition paused (R78, R407); the boundary records the change of its image. -/
def State.freeImages (s : State) (p : Fin 4) : State :=
  { s with sched := { s.sched with
    slots := s.sched.slots.map (fun (x : Option Image) => x.filter fun i => decide (i.partition ≠ p))
    running := s.sched.running.set p none, latchSlot := s.sched.latchSlot.set p none, named := s.sched.named.set p none
    family := s.sched.family.set p none, paused := s.sched.paused.set p true } }

/-- The stream descriptors of a partition disabled, and its pending ones discarded; its channels stop (R90, R407). -/
def State.disableStreams (s : State) (p : Fin 4) : State :=
  (List.finRange 32).foldl (fun (s : State) ch =>
    let s := if s.ownsChannel p ch.val then s.updChan ch fun x => { x with pend := none } else s
    match s.sm.chans[ch].desc with
    | some d =>
      if dPart d = p then
        let s := s.updChan ch fun x => { x with desc := some (d.take 6 ++ [d.getD 6 0 &&& 0xFE] ++ d.drop 7) }
        if s.sm.chans[ch].runs then s.stopChannel ch else s
      else s
    | none => s) s

/-- Trigger pins of a mask at their idle levels, with no pulse to come (R408). -/
def State.idlePins (s : State) (mask : Half) : State :=
  (List.finRange 16).foldl (fun (s : State) n =>
    if mask.getLsbD n.val then
      let s := s.updTrig n fun t => { t with mode := 0, nextAt := none, pulseEnd := none }
      s.setPin (.trigOut n) s.tu.trigs[n].idleLevel
    else s) s

/-- Both key slots zeroised, and a new key at epoch 1 (R407). -/
def NsKeys.fresh (key : List Byte) : NsKeys :=
  { epoch := 1, old := none, zeroised := false, slots := (Vector.replicate 2 (List.replicate 64 0)).set (0 : Fin 2) key, current := 0 }

/-- The namespace's keys zeroised, a new key at epoch 1 written, and its pages unmapped (R407). -/
def State.cryptoErase (s : State) (p : Fin 4) : State :=
  let n : Fin 5 := ⟨p.val, by omega⟩
  let (key, s) := s.drawBytes 64
  { s with sec := { s.sec with keys := s.sec.keys.set n (NsKeys.fresh key) } }

/-- The bytes of DRAM that a scrub clears: the range of the new grant and the old one. -/
def scrubDram (old new : Grant) : Nat :=
  let shared := if rangesMeet old.dramBase old.dramBytes new.dramBase new.dramBytes then
      min (old.dramBase + old.dramBytes) (new.dramBase + new.dramBytes) - max old.dramBase new.dramBase
    else 0
  old.dramBytes + new.dramBytes - shared

/-- The oldest scrub that is not done starts to clear memory, once its partition is `SCRUBBING`: scrubs run one at a time, in acceptance
order (R407). -/
def State.startScrub (s : State) : State :=
  match s.sec.scrubs.find? fun x => !x.done with
  | none => s
  | some x =>
    if !x.begun || x.running then s
    else
      let s := { s with sec := { s.sec with scrubs := s.sec.scrubs.map fun (y : Scrub) =>
        if y.part = x.part then { y with running := true, start := s.dtNs } else y } }
      s.event 0x12 0x1207 x.part.val (scrubDram s.sec.grants[x.part] (x.grant.getD Grant.empty) / 65536) 0

/-- A partition enters `SCRUBBING` (R407). -/
def State.beginScrub (s : State) (x : Scrub) : State :=
  let p := x.part
  let old := s.sec.grants[p]
  let s := s.updGrant p fun g => { g with state := 2 }
  let s := { s with sec := { s.sec with scrubs := s.sec.scrubs.map fun (y : Scrub) =>
    if y.part = p then { y with begun := true, running := false, done := false } else y } }
  let s := (List.finRange 8).foldl (fun (s : State) i =>
    if s.mbx[i].state ≠ .closed ∧ s.mbx[i].partition = p then
      (s.discardMbx i).updMbx i fun _ => { Mbx.reset with state := .scrubbing, partition := p }
    else s) s
  let s := (((s.freeImages p).freeWork p).disableStreams p).idlePins old.trigMask
  let s := { s with flags := s.flags.filter fun f => decide (f.1 / 1024 ≠ p.val) }
  (s.cryptoErase p).startScrub

/-- Memory cleared over a range. -/
def zeroRange (m : List Host.Cell) (a n : Nat) : List Host.Cell := m.filter fun c => decide (c.1 < a ∨ a + n ≤ c.1)

/-- The DRAM, pecks, scratchpads and accumulators of the old and of the new grant are zero (R407). -/
def State.clearFor (s : State) (g : Grant) : State :=
  let m := zeroRange (zeroRange s.mem g.dramBase g.dramBytes) (poolBase + 16384 * g.poolBase) (16384 * g.poolPecks)
  let cores := (List.finRange 8).filter fun c => g.coreMask.getLsbD c.val
  let s := { s with mem := cores.foldl (fun m c => zeroRange m (scratchBase c.val) scratchSize) m }
  cores.foldl (fun (s : State) c => s.updCore c fun x => { x with acc := [] }) s

/-- The scrub under way. -/
def State.scrubNow (s : State) : Option Scrub := s.sec.scrubs.find? fun x => x.running && !x.done

/-- A scrub ends: its memories are zero, the grant waits for the boundary, and the next scrub starts. -/
def State.scrubDone (s : State) (p : Fin 4) : State :=
  match s.scrubNow with
  | none => s
  | some x =>
    if x.part ≠ p ∨ s.dev.phase ≠ .ready then s
    else
      let s := (s.clearFor s.sec.grants[p]).clearFor (x.grant.getD Grant.empty)
      let s := { s with sec := { s.sec with scrubs := s.sec.scrubs.map fun (y : Scrub) => if y.part = p then { y with done := true } else y } }
      (s.event 0x12 0x1208 p.val ((s.dtNs - x.start) / 1000) 0).startScrub

/-- A grant or release applied: the layout changes, mailboxes open or close, and the command completes. -/
def State.applyGrant (s : State) (x : Scrub) (dt : Nat) : State :=
  let p := x.part
  let g := x.grant.getD Grant.empty
  let s := { s with sec := { s.sec with
    grants := s.sec.grants.set p g, scrubs := s.sec.scrubs.filter fun y => decide (y.part ≠ p) } }
  let s := { s with sched := { s.sched with paused := s.sched.paused.set p false, hostPause := s.sched.hostPause.set p false } }
  let s := (List.finRange 8).foldl (fun (s : State) i =>
    if g.mbxMask.getLsbD i.val then ((s.discardMbx i).openMbx i p).updMbx i fun m => { m with sq := [], cq := [] }
    else if s.mbx[i].state = .scrubbing ∧ s.mbx[i].partition = p then s.closeMbx i else s) s
  let s := s.updGrant 0 fun z => { z with mbxMask := z.mbxMask &&& ~~~ g.mbxMask }
  let s := s.settleRest
  (s.fw.jobs.filter fun j => match j.kind with | .partGrant q => decide (q = p) | _ => false).foldl
    (fun (s : State) (j : Job) => s.completeJob j stOk 0 0 0 0 dt) s

/-- Grants whose scrub is done apply, and partitions whose scrub waited for the boundary enter it. -/
def State.partBoundary (s : State) (dt : Nat) : State :=
  let s := (s.sec.scrubs.filter (·.done)).foldl (fun (s : State) x => s.applyGrant x dt) s
  (s.sec.scrubs.filter fun x => !x.begun).foldl State.beginScrub s

/-- A grant or a release accepted: a partition that runs no image enters `SCRUBBING` at once. -/
def State.queueScrub (s : State) (c : SubEntry) (p : Fin 4) (g : Option Grant) : State :=
  let x : Scrub := { part := p, grant := g, begun := false, running := false, done := false, start := 0 }
  let s := s.addJob c (.partGrant p)
  let s := { s with sec := { s.sec with scrubs := s.sec.scrubs ++ [x] } }
  if s.sched.running[p].isNone then s.beginScrub x else s

/-- A grant that names partition 0: its mailboxes only, at once (R356). -/
def State.grantZero (s : State) (c : SubEntry) : State :=
  let mask : Byte := BitVec.ofNat 8 (c.p 2 1)
  let rest := c.bytes 1 1 ++ c.bytes 3 37
  if rest.any (fun b => decide (b ≠ 0)) ∨ mask.getLsbD 0 then s.replyErr c errArg
  else if ((s.projected.toList.drop 1) ++ s.sec.grants.toList.drop 1).any fun g => decide (g.mbxMask &&& mask ≠ 0) then
    s.replyErr c errNoResource
  else
    let s := (List.finRange 8).foldl (fun (s : State) i =>
      if i = 0 then s
      else if mask.getLsbD i.val ∧ s.mbx[i].state = .closed then (s.openMbx i 0).updMbx i fun m => { m with sq := [], cq := [] }
      else if !mask.getLsbD i.val ∧ s.mbx[i].state = .opened ∧ s.mbx[i].partition = 0 then s.closeMbx i else s) s
    (s.updGrant 0 fun g => { g with mbxMask := mask ||| 1 }).replyOk c

/-- A grant or release of a partition is not applied. -/
def State.granting (s : State) (p : Fin 4) : Bool := s.sec.scrubs.any fun x => decide (x.part = p)

/-- PART_GRANT carried out. -/
def State.partGrant (c : SubEntry) (s : State) : State :=
  if h : c.p 0 1 < 4 then
    let p : Fin 4 := ⟨c.p 0 1, h⟩
    if p = 0 then s.grantZero c
    else if s.granting p then s.replyErr c errScrubbing
    else if !c.grant.inRange then s.replyErr c errArg
    else match s.grantConflict p c.grant with
      | some r => s.reply c errNoResource r 0 0 0
      | none => s.queueScrub c p (some c.grant)
  else s.replyErr c errArg

/-- PART_RELEASE carried out. -/
def State.partRelease (c : SubEntry) (s : State) : State :=
  if h : 1 ≤ c.p 0 1 ∧ c.p 0 1 < 4 then
    let p : Fin 4 := ⟨c.p 0 1, h.2⟩
    if s.granting p then s.replyErr c errScrubbing else s.queueScrub c p none
  else s.replyErr c errArg

/-- A grant in the payload order of PART_GRANT, in 64 bytes. -/
def Grant.bytes (g : Grant) (p : Nat) : List Byte :=
  natLe 1 p ++ natLe 1 g.coreMask.toNat ++ natLe 1 g.mbxMask.toNat ++ natLe 1 0 ++ natLe 2 g.poolBase ++ natLe 2 g.poolPecks
    ++ natLe 8 g.dramBase ++ natLe 8 g.dramBytes ++ natLe 8 g.flashBytes ++ natLe 2 g.trigMask.toNat ++ natLe 2 0
    ++ natLe 4 g.chanMask.toNat ++ List.replicate 24 0

/-- PART_STATUS carried out: a partition reads its own grant, partition 0 any (R355). -/
def State.partStatus (c : SubEntry) (s : State) : State :=
  if h : c.p 0 1 < 4 then
    let p : Fin 4 := ⟨c.p 0 1, h⟩
    if s.partOf c = 0 ∨ s.partOf c = p then s.replyOut c (s.sec.grants[p].bytes p.val) 0 0 0 0 else s.replyErr c errPartition
  else s.replyErr c errArg

/-! ## The rows -/

/-- PART_GRANT (R356). -/
def execPartGrant (e : Entry) (s : State) : Host.Outcome State Fault Refusal := .next (s.serve 0x0C01 e State.partGrant)
/-- PART_RELEASE (R356). -/
def execPartRelease (e : Entry) (s : State) : Host.Outcome State Fault Refusal := .next (s.serve 0x0C02 e State.partRelease)
/-- PART_STATUS (R356). -/
def execPartStatus (e : Entry) (s : State) : Host.Outcome State Fault Refusal := .next (s.serve 0x0C03 e State.partStatus)
/-- PART_SCRUB_DONE (R407). -/
def execPartScrubDone (p : Fin 4) (s : State) : Host.Outcome State Fault Refusal := .next (s.scrubDone p)

end Sys2Proof.Machine
end

