-- ==== Sys2Proof/Machine/OpCheck.lean ====
section
/-!
DEFINITION. Check 5 of a load: the opcodes that each target defines, the limits of their operands, the ranges that an image
claims, and the rules of a section (R56, R60, R64 to R66, R135, R459).
-/
namespace Sys2Proof.Machine

/-- An operation of a section, at a place among its operations, as the load check sees it. -/
structure OpAt where
  s : State
  img : Image
  code : Nat
  pos : Nat
  op : Op

/-- A field of the operation's `PARAMS` entry. -/
def OpAt.p (x : OpAt) (off n : Nat) : Nat := x.img.param (x.op.argB + off) n
/-- Bytes of the entry are zero. -/
def OpAt.zero (x : OpAt) (off n : Nat) : Bool := (x.img.paramBytes (x.op.argB + off) n).all fun b => decide (b = 0)
/-- A value lies from `lo` to `hi`. -/
def within (v lo hi : Nat) : Bool := decide (lo ≤ v ∧ v ≤ hi)

/-! ## Opcodes (R65) and the bytes of their `PARAMS` entries -/

/-- The bytes of the entry of an opcode that a target defines; none for an opcode that it does not. -/
def entryBytes (code opcode : Nat) : Option Nat :=
  let table : List (Nat × Nat) :=
    if code < 8 then [(0x10, 128), (0x11, 128), (0x20, 112)]
    else match code with
    | 0x10 => [(0x10, 48), (0x11, 80)]
    | 0x11 => [(0x10, 64)]
    | 0x12 => [(0x10, 160)]
    | 0x13 => [(0x10, 96)]
    | 0x14 => [(0x10, 128), (0x11, 128), (0x12, 128), (0x13, 128), (0x14, 128), (0x15, 128), (0x16, 128), (0x17, 128)]
    | 0x15 => [(0x10, 16), (0x11, 64), (0x12, 32), (0x13, 48), (0x14, 64), (0x15, 0), (0x16, 0), (0x17, 16), (0x18, 32)]
    | 0x16 => [(0x10, 128), (0x11, 16), (0x12, 16)]
    | 0x17 => [(0x10, 8), (0x11, 16)]
    | 0x18 => [(0x10, 16)]
    | 0x19 => [(0x10, 16)]
    | 0x1A => [(0x10, 8), (0x11, 0)]
    | _ => []
  let all : List (Nat × Nat) := [(0x00, 0), (0x01, 0), (0x02, 0), (0x03, 0), (0x04, 48), (0x05, 0)] ++ table
  (all.find? fun e => decide (e.1 = opcode)).map (·.2)

/-- A number names a sequencer target (R60). -/
def isTarget (code : Nat) : Bool := decide (code < 8 ∨ (0x10 ≤ code ∧ code ≤ 0x1A))

/-! ## Claimed ranges (R61, R405, R456) -/

/-- A byte range of the pool lies in the quota of a stream channel that is enabled. -/
def OpAt.inQuotaOf (x : OpAt) (ch a n : Nat) : Bool :=
  match (if h : ch < 32 then x.s.copyOf ⟨ch, h⟩ else none) with
  | some d => dEnable d && decide (16384 * dQuotaBase d ≤ a ∧ a + n ≤ 16384 * (dQuotaBase d + dQuotaPecks d))
  | none => false

/-- A byte range of the pool lies in the quota of a stream channel that the image claims. -/
def OpAt.inQuota (x : OpAt) (a n : Nat) : Bool :=
  (List.range 32).any fun ch => (x.img.claim 0x0009 0).testBit ch && x.inQuotaOf ch a n

/-- A byte range of the pool lies in pecks that the image claims: a claim names an amount only, so any range of the partition's
share will do (log 44). -/
def OpAt.inPecks (x : OpAt) (a n : Nat) : Bool :=
  decide (a + n ≤ poolSize ∧ n ≤ 16384 * x.img.claim 0x0003 0) && x.s.inShare x.img.partition a n

/-- A byte range of the pool lies in claimed pecks or in a claimed quota. -/
def OpAt.inPoolRange (x : OpAt) (a n : Nat) : Bool := x.inPecks a n || x.inQuota a n

/-- A byte range of a scratchpad lies in the claim of its core; the core is of the image's partition (R172). -/
def OpAt.inScratch (x : OpAt) (a n : Nat) : Bool :=
  (List.range 8).any fun c =>
    decide (scratchBase c ≤ a ∧ a + n ≤ scratchBase c + min scratchSize (x.img.claim 0x0006 c)) &&
      x.s.sec.grants[x.img.partition].coreMask.getLsbD c

/-- A byte range of DRAM lies in the partition's range, of which the image claims bytes, or in an object that it names. -/
def OpAt.inDram (x : OpAt) (a n : Nat) : Bool :=
  (x.s.ownsDram x.img.partition a n && decide (n ≤ x.img.claim 0x0005 0)) ||
    x.img.objects.any fun h => match x.s.obj h with
      | some o => decide (o.base ≤ a ∧ a + n ≤ o.base + o.size)
      | none => false

/-- A byte range at a device address lies within what the image claims. -/
def OpAt.inClaims (x : OpAt) (a n : Nat) : Bool :=
  if a < dramSize then x.inDram a n
  else if decide (poolBase ≤ a ∧ a < poolBase + poolSize) then x.inPoolRange (a - poolBase) n
  else x.inScratch a n

/-- The image names the flag: it is in the claimed range, in `FLAGS`, and held by the partition. -/
def OpAt.flagOk (x : OpAt) (f : Nat) : Bool :=
  x.img.claims.any (fun c => decide (c.resource = 0x0004 ∧ c.index ≤ f ∧ f < c.index + c.amount))
    && (x.img.flagEntry f).isSome && x.s.holdsFlags x.img.partition f 1

/-- The flag is produced by the operation's target. -/
def OpAt.produces (x : OpAt) (f : Nat) : Bool := decide ((x.img.flagEntry f).map (·.producer) = some x.code)

/-! ## DMA (R459) -/

/-- An end of a transfer lies within its claim. -/
def OpAt.dmaEnd (x : OpAt) (space a n : Nat) : Bool :=
  match space with
  | 0 => x.inClaims a n
  | 1 => within x.code 0x10 0x17 && decide (a + n ≤ x.img.claim 0x0007 x.code)
  | _ => false

/-- A DMA descriptor is as R459 gives it. -/
def OpAt.dmaOk (x : OpAt) : Bool :=
  let d := x.img.dmaDesc x.op.argB
  let span (stride : Nat) : Nat := (d.rows - 1) * stride + d.rowBytes
  decide (64 ≤ d.rowBytes ∧ d.rowBytes ≤ 4194304 ∧ d.rowBytes % 64 = 0 ∧ 1 ≤ d.rows ∧ d.rows ≤ 65535
      ∧ d.srcStride % 64 = 0 ∧ d.dstStride % 64 = 0 ∧ d.reserved = 0 ∧ d.reservedTail = 0)
    && x.dmaEnd d.srcSpace d.src (span d.srcStride) && x.dmaEnd d.dstSpace d.dst (span d.dstStride)

/-! ## Core operations (R160 to R163, R169, R170, R174, R176, R182, R183, R187, R191) -/

/-- The array takes a format for A and the weights. -/
def fmtArrayIn (c : Nat) : Bool := c ∈ [0x00, 0x01, 0x02, 0x03, 0x05, 0x06, 0x07, 0x08, 0x09, 0x0A, 0x0C, 0x0D, 0x0E]
/-- The array writes a format. -/
def fmtArrayOut (c : Nat) : Bool := decide (c ≤ 0x0A)
/-- The vector unit reads a format. -/
def fmtVec (c : Nat) : Bool := decide (c ≤ 0x0E ∧ c ≠ 0x0B)
/-- Stochastic rounding goes into a format (R191). -/
def fmtStoch (c : Nat) : Bool := decide (0x06 ≤ c ∧ c ≤ 0x09)

/-- A tensor descriptor's fields are in range. -/
def Tensor.ok (t : Tensor) : Bool :=
  within t.w 1 4096 && within t.h 1 4096 && decide (1 ≤ t.c) && within t.step 1 16
    && decide (t.stride % 64 = 0 ∧ t.reserved = 0 ∧ t.mode ≤ 1)
    && (if t.format = 0x05 then decide (t.frac ≤ 31) else decide (t.frac = 0))
    && (decide (t.mode = 1) || decide (t.handoff = 0 ∧ t.slotBytes = 0))
    && (!decide (t.format = 0x00) || decide (t.step * t.c % 2 = 0))
    && (!fmtMx t.format || decide (t.c % 32 = 0 ∧ t.stride % (4 * mxBlockBytes t.format) = 0))

/-- The operations of an image that write a handoff record: a TAKE with its pool offset (R95, R174). -/
def Image.takesOf (img : Image) (handoff : Nat) : List Op :=
  ((img.opsOf 0x1A).getD []).filter fun o => decide (o.opcode = 0x10 ∧ img.param o.argB 4 = handoff)

/-- A channel's slots, as an indirect operand reaches them. -/
def State.slotsOf (s : State) (t : Tensor) (ch : Nat) : List Nat :=
  match (if h : ch < 32 then s.copyOf ⟨ch, h⟩ else none) with
  | some d => (List.range (dSlots d)).map fun k => t.addr + k * t.slotBytes
  | none => []

/-- The addresses that an indirect operand can reach: the slots of the channels of the TAKEs that write its record. -/
def OpAt.slotAddrs (x : OpAt) (t : Tensor) : List Nat := (x.img.takesOf t.handoff).flatMap fun o => x.s.slotsOf t o.argA

/-- Flags with those added that an operation sets which waits on one of them itself, or behind an operation of its section that does. -/
def flagChainStep (img : Image) (fs : List Nat) : List Nat :=
  img.sections.foldl (fun fs x =>
    (x.ops.foldl (fun (a : Bool × List Nat) o =>
      let behind := a.1 || (o.wait && a.2.contains o.waitFlag)
      (behind, match o.sets with
        | some f => if behind && !a.2.contains f then a.2 ++ [f] else a.2
        | none => a.2)) (false, fs)).2) fs

/-- The flags that are set only behind one of some flags: a flag joins in each of as many rounds as the image has operations. -/
def Image.flagsBehind (img : Image) (fs : List Nat) : List Nat :=
  (List.range (img.sections.foldl (fun n x => n + x.ops.length) 0)).foldl (fun fs _ => flagChainStep img fs) fs

/-- The operation waits on the flag of a TAKE, directly or through a chain of flags, itself or behind an earlier operation of its section
(R174; DEDUCED, log 44). -/
def OpAt.waitsOn (x : OpAt) (takes : List Op) : Bool :=
  let fs := x.img.flagsBehind (takes.filterMap Op.sets)
  (((x.img.opsOf x.code).getD []).take (x.pos + 1)).any fun o => o.wait && fs.contains o.waitFlag

/-- An indirect operand: a TAKE writes its record, every slot that it can reach lies in the quota of that TAKE's channel, which the image
claims, and the operation waits for the TAKE (R174). -/
def OpAt.slotsOk (x : OpAt) (t : Tensor) : Bool :=
  let takes := x.img.takesOf t.handoff
  !takes.isEmpty && x.waitsOn takes && takes.all fun o =>
    (x.img.claim 0x0009 0).testBit o.argA && decide (o.argA < 32) && !(x.s.slotsOf t o.argA).isEmpty
      && (x.s.slotsOf t o.argA).all fun a => decide (poolBase ≤ a) && x.inQuotaOf o.argA (a - poolBase) t.extent

/-- Some address of an operand has an extent that meets another's (R162, R176). -/
def OpAt.overlaps (x : OpAt) (t dst : Tensor) : Bool :=
  (if t.mode = 1 then x.slotAddrs t else [t.addr]).any fun a => rangesMeet a t.extent dst.addr dst.extent

/-- A range lies in the core's own claimed scratchpad. -/
def OpAt.own (x : OpAt) (a n : Nat) : Bool :=
  decide (scratchBase x.code ≤ a ∧ a + n ≤ scratchBase x.code + min scratchSize (x.img.claim 0x0006 x.code))

/-- An operand lies in the core's own scratchpad, in claimed pecks, or with `quota` in a claimed quota (R163, R174). -/
def OpAt.placed (x : OpAt) (t : Tensor) (quota : Bool) : Bool :=
  if t.mode = 1 then quota && x.inPecks t.handoff 32 && x.slotsOk t
  else x.own t.addr t.extent ||
    (decide (poolBase ≤ t.addr) && (x.inPecks (t.addr - poolBase) t.extent || (quota && x.inQuota (t.addr - poolBase) t.extent)))

/-- An array operation is as its rules give it. -/
def OpAt.arrOk (x : OpAt) (conv : Bool) : Bool :=
  let q := x.img.arr x.op.argB
  let a := q.a
  let c := q.c
  let out (i k step : Nat) : Nat := (i + 2 * q.pad - k) / step + 1
  a.ok && c.ok && fmtArrayIn a.format && fmtArrayOut c.format
    && (decide (a.format = q.wFormat) || decide (a.format = 0x02 ∧ q.wFormat = 0x01))
    && (!q.stoch || fmtStoch c.format)
    && (if conv then within q.kh 1 7 && within q.kw 1 7 && within q.stepX 1 4 && within q.stepY 1 4 && decide (q.pad ≤ 3)
          && decide (q.kw ≤ a.w + 2 * q.pad ∧ q.kh ≤ a.h + 2 * q.pad ∧ c.w = out a.w q.kw q.stepX ∧ c.h = out a.h q.kh q.stepY)
        else decide (q.kh = 1 ∧ q.kw = 1 ∧ q.stepX = 1 ∧ q.stepY = 1 ∧ q.pad = 0))
    && decide (1 ≤ q.rows ∧ q.m conv * q.n ≤ 65536 ∧ q.k conv ≤ 65535 ∧ q.n ≤ 4096)
    && decide (q.flagsReserved = 0 ∧ q.reserved = 0)
    && (!decide (a.format = 0x05) || decide (q.scaleAddr = 0 ∧ c.frac ≤ a.frac + Config.numeric numWeight [q.wFormat, q.k conv, q.n] 2 % 32))
    && x.own q.wAddr (weightBytes q.wFormat (q.k conv) q.n) && (decide (q.scaleAddr = 0) || x.own q.scaleAddr (8 * q.n))
    && x.placed a true && x.placed c false
    && (!(decide (a.mode = 1 ∨ poolBase ≤ a.addr ∧ a.addr < poolBase + poolSize)) || decide (fmtBits a.format ≤ 8))

/-- A vector operation is as its rules give it. -/
def OpAt.vecOk (x : OpAt) : Bool :=
  let q := x.img.vec x.op.argB
  let two := twoSources q.func
  let srcs := if two then [q.src0, q.src1] else [q.src0]
  let known := q.func ∈ [0x01, 0x02, 0x03, 0x04, 0x05, 0x06, 0x07, 0x08, 0x09, 0x0A, 0x10, 0x11, 0x12, 0x20, 0x21, 0x22, 0x23, 0x24,
    0x25, 0x26, 0x27, 0x28]
  let shape (t : Tensor) : Bool := decide (t.w = q.dst.w ∧ t.h = q.dst.h) && (isReduction q.func || decide (t.c = q.dst.c))
  let rerun : Bool := x.op.retryable && srcs.any fun t => x.overlaps t q.dst
  known && q.dst.ok && srcs.all (fun t => t.ok && fmtVec t.format && shape t && x.placed t true)
    && (two || x.zero 32 32) && fmtVec q.dst.format && x.placed q.dst false
    && (!fmtMx q.dst.format || decide (q.func = 0x09)) && (!q.stoch || fmtStoch q.dst.format)
    && (!isReduction q.func || decide (q.dst.c = 1)) && decide (q.reserved = 0 ∧ q.elements ≤ 4194304)
    && !rerun

/-! ## Vision operations (R132, R135, R136, R140, R147, R150) -/

/-- The bytes of a pixel of a format. -/
def pixelBytes (f : Nat) : Nat := if f = 1 then 3 else if 2 ≤ f ∧ f ≤ 4 then 2 else 1

/-- An image descriptor of one of the formats is in range and lies in claimed memory. -/
def OpAt.imgOk (x : OpAt) (off : Nat) (formats : List Nat) : Bool :=
  let d := x.img.imgDesc (x.op.argB + off)
  decide (d.format ∈ formats ∧ d.addr % 64 = 0 ∧ d.stride % 64 = 0 ∧ d.width * pixelBytes d.format ≤ d.stride ∧ d.hdrKind ≤ 1)
    && within d.width 16 4096 && within d.height 16 4096
    && (decide (d.shift = 0) || decide (d.format = 3 ∧ d.shift ≤ 8)) && x.zero (off + 13) 3
    && x.inPoolRange d.addr (64 + d.height * d.stride)

/-- Two descriptors give the same size. -/
def OpAt.sameSize (x : OpAt) (a b : Nat) : Bool := decide (x.p (a + 6) 2 = x.p (b + 6) 2 ∧ x.p (a + 8) 2 = x.p (b + 8) 2)
/-- Rows end within the image of a descriptor. -/
def OpAt.rowsIn (x : OpAt) (row0 rows desc : Nat) : Bool := decide (x.p row0 2 + x.p rows 2 ≤ x.p (desc + 8) 2)

/-- A warp map that is there has the sizes of the operation, a grid of 8, 16 or 32 pixels with its nodes, and reserved bytes of zero
(R137). -/
def OpAt.mapOk (x : OpAt) : Bool :=
  match x.s.obj (x.img.objects.getD (x.p 32 2) 0) with
  | none => true
  | some o =>
    let f (off n : Nat) : Nat := fieldAt o.bytes off n
    let grid := 2 ^ f 8 1
    decide (f 0 2 = x.p 22 2 ∧ f 2 2 = x.p 24 2 ∧ f 4 2 = x.p 6 2 ∧ f 6 2 = x.p 8 2)
      && within (f 8 1) 3 5 && decide (f 9 1 = 0 ∧ f 14 18 = 0)
      && decide (f 10 2 = ceilDiv (f 0 2) grid + 1 ∧ f 12 2 = ceilDiv (f 2 2) grid + 1)

/-- PW_WARP. -/
def OpAt.warpOk (x : OpAt) : Bool :=
  x.imgOk 0 [0, 2, 3] && x.imgOk 16 [0, 1] && decide ((x.p 10 1, x.p 26 1) ∈ [(0, 0), (3, 0), (2, 0), (2, 1)])
    && (if x.p 32 2 = 0xFFFF then x.sameSize 0 16 else decide (x.p 32 2 < x.img.objects.length) && x.mapOk)
    && within (x.p 36 2) 1 256 && x.rowsIn 34 36 16 && x.zero 39 9

/-- PW_PYRAMID. Its source rows have no limits: R460 gives every pair of them a meaning. -/
def OpAt.pyramidOk (x : OpAt) : Bool :=
  let half (a b : Nat) : Bool :=
    decide (x.p (b + 6) 2 = (x.p (a + 6) 2 + 1) / 2 ∧ x.p (b + 8) 2 = (x.p (a + 8) 2 + 1) / 2)
  within (x.p 64 1) 1 3 && x.imgOk 0 [0]
    && (List.range (x.p 64 1)).all (fun l => x.imgOk (16 * (l + 1)) [0] && half (16 * l) (16 * (l + 1)))
    && x.zero 65 1 && x.zero 70 10

/-- FE_DETECT. -/
def OpAt.detectOk (x : OpAt) : Bool :=
  let cell := 2 ^ x.p 30 1
  x.imgOk 0 [0] && within (x.p 20 2) 1 8192 && x.inPoolRange (x.p 16 4) (64 + 48 * x.p 20 2) && within (x.p 24 2) 16 512
    && within (x.p 30 1) 4 7 && x.rowsIn 22 24 0 && decide (x.p 22 2 % cell = 0 ∧ (x.p 24 2 % cell = 0 ∨ x.p 22 2 + x.p 24 2 = x.p 8 2))
    && decide (x.p 26 1 ≤ 3 ∧ x.p 27 1 < 4 ∧ 1 ≤ x.p 29 1 ∧ x.p 32 1 ≤ 64 ∧ x.p 33 1 ≤ 31) && within (x.p 28 1) 9 12
    && within (x.p 31 1) 1 16 && (!(x.p 27 1).testBit 1 || decide (x.p 34 2 < x.img.objects.length)) && x.zero 41 23

/-- TRK_RUN. -/
def OpAt.trackOk (x : OpAt) : Bool :=
  let levels := x.p 10 1
  within (x.p 8 2) 1 4096 && within levels 1 4 && decide (x.p 11 1 ∈ [7, 9, 11, 15] ∧ x.p 13 1 < 2) && within (x.p 12 1) 1 16
    && x.inPoolRange (x.p 0 4) (64 + 32 * x.p 8 2) && x.inPoolRange (x.p 4 4) (64 + 32 * x.p 8 2) && x.zero 24 8
    && (List.range 4).all fun l =>
      if l < levels then x.imgOk (32 + 16 * l) [0] && x.imgOk (96 + 16 * l) [0]
      else x.zero (32 + 16 * l) 16 && x.zero (96 + 16 * l) 16

/-- FTH_STRIPE. -/
def OpAt.stripeOk (x : OpAt) : Bool :=
  x.imgOk 0 [0] && x.imgOk 16 [0] && x.imgOk 32 [4] && x.imgOk 48 [5] && x.sameSize 0 16 && x.sameSize 0 32 && x.sameSize 0 48
    && within (x.p 66 2) 1 128 && x.rowsIn 64 66 0 && decide (x.p 68 2 ≤ 1023 ∧ x.p 70 1 ≤ 3 ∧ x.p 71 1 < 4 ∧ x.p 74 1 ≤ 15)
    && decide (1 ≤ x.p 72 1 ∧ x.p 72 1 ≤ x.p 73 1 ∧ x.p 6 2 * 64 * (x.p 70 1 + 1) ≤ 393216) && x.zero 86 10

/-! ## Field operations (R206) -/

/-- The fields of a field operation's entry that are used by name: offset, bytes, opcodes; the three reserved fields by none. -/
def fldFields (train : Bool) : List (Nat × Nat × List Nat) := [
  (0, 4, [0x10, 0x11, 0x12, 0x13, 0x15, 0x16]), (4, 4, [0x10, 0x11, 0x12, 0x15, 0x16]), (8, 4, [0x12, 0x15]),
  (12, 4, if train then [0x10, 0x15] else [0x10, 0x11, 0x15]), (16, 4, [0x10, 0x11, 0x12, 0x13, 0x14, 0x15, 0x16]),
  (20, 4, [0x11, 0x13, 0x14]), (24, 1, [0x11, 0x12, 0x13]), (25, 1, [0x11, 0x12, 0x13, 0x16]), (26, 1, [0x10, 0x15]),
  (27, 1, [0x10]), (28, 10, if train then [0x10, 0x15] else [0x10, 0x11, 0x15]), (38, 2, []), (40, 16, [0x10, 0x11, 0x15]),
  (56, 12, [0x11]), (68, 4, [0x10, 0x15]), (72, 8, []), (80, 16, [0x10, 0x15]), (96, 16, [0x10, 0x15]), (112, 16, [])]

/-- A field engine operation: its entry, and its addresses at the whole of what it can read or write for its `COUNT`, `GRID` and
`SAMPLES_PER_RAY` (the results of a render batch, whose place follows the earlier batches, are `OpAt.batches`'). -/
def OpAt.fieldOk (x : OpAt) : Bool :=
  let o := x.op.opcode
  let mode := x.p 25 1
  let train := mode.testBit 0
  let k := x.p 24 1
  let grid := x.p 32 2 * x.p 34 2
  let rays := min (x.p 16 4) (4096 / max 1 k)
  let points := min (x.p 16 4) grid
  let addr (off : Nat) (ops : List (Nat × Nat)) : Bool :=
    ops.all fun e => decide (o ≠ e.1) || x.inPoolRange (x.p off 4) e.2
  (fldFields (train && decide (o = 0x11))).all (fun f => decide (o ∈ f.2.2) || x.zero f.1 f.2.1)
    && (decide (o ∉ [0x11, 0x13, 0x14]) || within (x.p 20 4) 1 16777216)
    && (decide (o ∉ [0x11, 0x12, 0x13]) || (within (x.p 24 1) 8 64 && decide (x.p 24 1 % 2 = 0 ∧ mode < 2)))
    && (decide (o ≠ 0x16) || decide (mode < 4)) && (decide (o ≠ 0x10) || decide (1 ≤ x.p 27 1))
    && (decide (o ≠ 0x11) || decide (x.p 16 4 * x.p 24 1 ≤ 4096))
    && (decide (o ∉ [0x10, 0x15]) || (x.imgOk 80 [4] && x.imgOk 96 [0, 1]))
    && addr 0 [(0x10, x.p 88 2 * (x.p 84 2 / 2)), (0x11, if train then 64 + 32 * x.p 16 4 else 64), (0x12, 64), (0x13, 128 * (rays * k)),
      (0x15, 64), (0x16, if mode.testBit 1 then 64 else 64 + 32 * x.p 16 4)]
    && addr 4 [(0x10, 64 + 32 * points), (0x11, 64 * (rays * k)), (0x12, if train then 16 * (rays * k) else 64), (0x15, 256),
      (0x16, if mode.testBit 1 then 64 + 32 * x.p 16 4 else 64)]
    && addr 8 [(0x12, 8 * (rays * k)), (0x15, 64 + 16 * grid)]
    && addr 12 [(0x10, 64), (0x11, if train then 0 else 64), (0x15, 64)]

/-! ## The other engines (R95, R120, R235, R240, R267, R292, R309) -/

/-- IFE_EMIT and FUS_INERTIAL. A ring holds records of 48 bytes, or of 32 bytes for an encoder (R119, R127). -/
def OpAt.emitOk (x : OpAt) (emit : Bool) : Bool :=
  let n := x.p 8 2
  let size := if 8 ≤ x.op.argA then 32 else 48
  (decide (x.op.argA ≤ 3) || (emit && within x.op.argA 8 15)) && within (x.p 4 2) 1 64 && within n 1 64
    && decide (x.p 10 2 + 1 < x.img.spanGrains) && x.zero 12 4 && x.inPecks (x.p 0 4) (size * x.p 4 2)
    && (List.range n).all fun i => x.flagOk (x.p 6 2 + i) && (!emit || x.produces (x.p 6 2 + i))

/-- The bytes of an input of FUS_UPDATE: a tracker list of at most 4,096 results, a compare record, or the first record of a ring. -/
def updateBytes (kind count : Nat) : Nat :=
  if kind = 0 then 64 + 32 * min count 4096 else if kind = 1 then 256 else if kind = 2 then 32 else 48

/-- A fusion operation other than FUS_INERTIAL. -/
def OpAt.fusOk (x : OpAt) : Bool :=
  match x.op.opcode with
  | 0x11 => x.inPoolRange (x.p 0 4) (updateBytes (x.p 4 1) (x.p 12 4)) && decide (x.p 4 1 ≤ 3 ∧ x.p 5 1 ≤ 7 ∧ x.p 8 4 ≤ 40000000) && x.zero 7 1 && x.zero 20 44
  | 0x12 => x.inPoolRange (x.p 0 4) (64 + 32 * x.p 8 2) && x.zero 5 3 && x.zero 10 2 && x.zero 14 18
  | 0x13 => x.inPoolRange (x.p 0 4) 64 && x.imgOk 4 [4] && x.zero 21 3 && x.zero 26 22
  | 0x14 => x.inPoolRange (x.p 0 4) 16 && x.inPoolRange (x.p 4 4) 64 && decide (x.p 8 1 ≤ 1) && x.zero 29 35
  | 0x17 => x.inPoolRange (x.p 0 4) (8 * x.p 4 2) && decide (x.p 4 2 ≤ 2048) && x.zero 6 10
  | 0x18 => x.inPoolRange (x.p 0 4) 64 && decide (x.p 5 1 ≤ 3) && x.zero 6 2 && x.zero 10 22
  | _ => decide (x.op.argB = 0)

/-- A window ends at least 60 grains before its span does. -/
def OpAt.endOk (x : OpAt) (g : Nat) : Bool := decide (g + 60 ≤ x.img.spanGrains)

/-- The problem, result and warm record of a window job lie in claimed DRAM at the largest sizes that its pattern allows (R256 to
R258, R265). -/
def OpAt.windowOk (x : OpAt) (pattern : List Byte) : Bool :=
  let kf := fieldAt pattern 4 2
  let lm := fieldAt pattern 6 2
  let problem := 64 + 64 * kf + 64 * ceilDiv (32 * lm) 64 + 24 * fieldAt pattern 8 4
  let result := 128 + 64 * kf + 32 * lm
  x.inDram (x.p 16 8) problem && x.inDram (x.p 24 8) result && (decide (x.p 32 8 = 0) || x.inDram (x.p 32 8) result)

/-- A solver operation. -/
def OpAt.slvOk (x : OpAt) : Bool :=
  match x.op.opcode with
  | 0x10 =>
    let h := x.img.objects.getD (x.p 40 2) 0
    x.endOk (x.p 8 8) && decide (x.p 40 2 < x.img.objects.length)
      && (match x.s.obj h with
        | some o => decide (fieldAt o.bytes 16 4 ≤ x.p 4 4) && x.windowOk o.bytes
        | none => true)
  | 0x11 => x.endOk (x.p 0 2) && x.zero 2 2 && x.zero 12 4 && decide (x.p 4 4 + x.p 8 4 ≤ x.img.claim 0x0007 0x16)
  | _ => x.inDram (x.p 0 8) 64 && x.zero 8 8

/-- The offsets of the operation's own entry that the target asks for, and its argument. The pool address of TAKE's entry is taken as a pool
offset or as a device address of the pool (R95 says neither; DESIGN CHOICE, log 44). -/
def OpAt.ownOk (x : OpAt) : Bool :=
  let o := x.op.opcode
  match x.code with
  | 0x10 => if o = 0x10 then x.warpOk else x.pyramidOk
  | 0x11 => x.detectOk
  | 0x12 => x.trackOk
  | 0x13 => x.stripeOk
  | 0x14 => x.fieldOk
  | 0x15 => if o = 0x10 then x.emitOk false else x.fusOk
  | 0x16 => x.slvOk
  | 0x17 =>
    if o = 0x10 then x.endOk (x.p 0 2) && decide (x.p 2 1 ≤ 1 ∧ x.p 3 1 ≤ 100) && x.zero 4 4
    else x.inPoolRange (x.p 0 4) 64 && within (x.p 4 2) 1 1024 && x.zero 6 10
  | 0x18 => x.emitOk true
  | 0x19 => x.endOk (x.p 0 2) && decide (x.p 2 1 < 32) && x.zero 3 1 && x.zero 8 8
  | 0x1A =>
    (x.img.claim 0x0009 0).testBit x.op.argA && decide (x.op.argA < 32) &&
      (decide (o = 0x11) || (x.inPecks (x.p 0 4) 1040 && decide (x.p 4 4 = 0 ∨ x.p 4 4 = 0x10)))
  | _ => if o = 0x20 then x.vecOk else x.arrOk (decide (o = 0x11))

/-- The argument `ARG_A` of a target's own opcode is zero where nothing else is said. -/
def OpAt.argOk (x : OpAt) : Bool :=
  decide (x.op.argA = 0) || decide (x.code = 0x18 ∨ x.code = 0x1A ∨ (x.code = 0x15 ∧ x.op.opcode = 0x10))

/-- Rung 5 carries no services, no training and no draws (R56). -/
def OpAt.rungOk (x : OpAt) : Bool :=
  decide (x.img.rung ≠ 5) ||
    !(decide ((x.code = 0x17 ∧ x.op.opcode = 0x10) ∨ (x.code = 0x16 ∧ x.op.opcode = 0x11))
      || (decide (x.code = 0x14 ∧ 0x10 ≤ x.op.opcode) && decide (x.p 25 1 % 4 ≠ 0)))

/-- An operation passes check 5, apart from what the section as a whole asks. -/
def OpAt.ok (x : OpAt) : Bool :=
  let o := x.op
  match entryBytes x.code o.opcode with
  | none => false
  | some n =>
    decide (o.earliest ≤ o.latest ∧ o.latest < x.img.spanGrains)
      && (decide (n = 0) || decide (o.argB + n ≤ x.img.params.length))
      && (!(o.wait || o.clearOnIssue) || x.flagOk o.waitFlag)
      && (match o.sets with
        | some f => x.flagOk f && x.produces f
        | none => true)
      && (!o.retryable || decide (x.code < 8 ∧ 0x10 ≤ o.opcode))
      && (match o.opcode with
        | 0x03 => decide (o.argA ≤ 63 ∧ o.argB % 2 ^ 27 / 2 ^ 8 % 2 ^ 8 = 0 ∧ o.argB < 2 ^ 27)
        | 0x04 => x.dmaOk
        | k => decide (k < 0x10) || (x.argOk && x.rungOk && x.ownOk))

/-- The batches that a section holds, oldest first: whether each trains, and for a render batch where in its grid it ends; and how
far the render gathers have come in each grid (R206, R207). -/
structure HeldBatches where
  held : List (Bool × Nat)
  grids : List (Nat × Nat)

/-- What of a section the checks of its operations carry on: the last `EARLIEST`, whether `END` is past, and the batches. -/
structure SectionScan where
  earliest : Nat
  ended : Bool
  batches : HeldBatches

/-- An operation's effect on the batches that the section holds. A third batch is refused, and so is a composite whose results, up to
the end of its batch in the grid, lie outside the claims. -/
def OpAt.batches (x : OpAt) (k : HeldBatches) : Option HeldBatches :=
  let train := (x.p 25 1).testBit 0
  let key := x.p 28 10 + 2 ^ 80 * x.p 12 4
  let first := (mapGet k.grids key).getD 0
  let upto := first + min (x.p 16 4) (x.p 32 2 * x.p 34 2 - first)
  let release (t : Bool) (ok : Bool × Nat → Bool) : Option HeldBatches :=
    match k.held.find? fun b => decide (b.1 = t) with
    | none => some k
    | some b => if ok b then some { k with held := k.held.erase b } else none
  if x.code ≠ 0x14 then some k
  else if x.op.opcode = 0x11 then
    if 2 ≤ k.held.length then none
    else if train then some { k with held := k.held ++ [(true, 0)] }
    else some { held := k.held ++ [(false, upto)], grids := mapSet k.grids key upto }
  else if x.op.opcode = 0x12 ∧ !train then release false fun b => x.inPoolRange (x.p 4 4) (64 + 16 * b.2)
  else if x.op.opcode = 0x13 then release true fun _ => true
  else some k

/-- The index of the first operation of a section that fails. -/
def Image.badOp (img : Image) (s : State) (code : Nat) : Nat → SectionScan → List Op → Option Nat
  | _, _, [] => none
  | i, k, o :: os =>
    let x : OpAt := { s := s, img := img, code := code, pos := i, op := o }
    if !x.ok || k.ended || decide (o.earliest < k.earliest) then some i
    else match x.batches k.batches with
      | none => some i
      | some b => img.badOp s code (i + 1) { earliest := o.earliest, ended := decide (o.opcode = 0x05), batches := b } os

/-- The bytes that the mover windows of a section may move lie within the claim of mover traffic (R309). -/
def Image.moverOk (img : Image) (x : OpsSection) : Bool :=
  decide (x.target ≠ 0x19) || decide ((x.ops.filter fun o => decide (o.opcode = 0x10)).foldl
    (fun n o => n + img.param (o.argB + 4) 4) 0 ≤ img.claim 0x000A 0)

end Sys2Proof.Machine
end

