-- ==== Sys2Proof/Machine/SolverMath.lean ====
section
/-!
DEFINITION. What the solver minimises (R260): residuals, their weights and the cost, a correction applied to a pose, and the structure
signature of a problem (R262). The equations are R260's; the order of the sums and the last places of a value are free (log 9).
-/
namespace Sys2Proof.Machine

/-! ## Rigid motions -/

/-- A rigid correction of the map frame. -/
structure Rigid where
  rot : Quat
  shift : Vec3

/-- A point moved. -/
def Rigid.point (c : Rigid) (p : Vec3) : Vec3 := (c.rot.rotate p).add c.shift
/-- One motion after another. -/
def Rigid.after (a b : Rigid) : Rigid := { rot := a.rot.mul b.rot, shift := a.point b.shift }
/-- The inverse motion. -/
def Rigid.inverse (a : Rigid) : Rigid := { rot := a.rot.conj, shift := (a.rot.conj.rotate a.shift).scale (.fin true 1 0) }

/-- The position of a pose item: FP64 x 3. -/
def posePos (p : List Byte) : Vec3 := fp64.vec ((List.range 3).map fun k => fieldAt p (8 * k) 8)
/-- The attitude of a pose item: FP64 x 4, scalar first. -/
def poseRot (p : List Byte) : Quat := Quat.unit (fp64.quat ((List.range 4).map fun k => fieldAt p (24 + 8 * k) 8))
/-- A pose item as a motion, map-from-body. -/
def poseMotion (p : List Byte) : Rigid := { rot := poseRot p, shift := posePos p }

/-- An angle in the first octant in radians, of a vector in fixed point with `0 ≤ y ≤ x`. -/
def octantAngle (x y : Int) : Num :=
  let eighth : Int × Int := (isqrt (turnOne * turnOne / 2).toNat, isqrt (turnOne * turnOne / 2).toNat)
  Num.quot (.fin false (turnBits 80 (halfAngle eighth) (x, y)) (-83))
    (.fin false 255752132986241185678408580023709873616295664310550962376831 (-200))

/-- The angle of a vector in the first quadrant, in radians. -/
def quadrantAngle (x y : Num) : Num :=
  let a := Num.fixed x
  let b := Num.fixed y
  if b ≤ a then octantAngle a b else Num.sub (Num.mul (.fin false 2 0) (octantAngle 1 1)) (octantAngle b a)

/-- A number so small that the first terms of a series stand for the function. -/
def Num.tiny (x : Num) : Bool := Num.lt x (.fin false 1 (-20))

/-- exp of a correction, translation first: the motion whose rotation vector is `phi` (R260). -/
def expRigid (rho phi : Vec3) : Rigid :=
  let t2 := phi.dot phi
  let t := phi.norm
  let half := cisOf (Num.fixed t / 2)
  let full := cisOf (Num.fixed t)
  let one := Num.nat 1
  let part (n d : Nat) : Num := Num.quot (Num.nat n) (Num.nat d)
  let small := t.tiny
  let a := if small then Num.sub (part 1 2) (Num.mul t2 (part 1 48)) else Num.quot half.2 t
  let b := if small then Num.sub (part 1 2) (Num.mul t2 (part 1 24)) else Num.quot (Num.sub one full.1) t2
  let c := if small then Num.sub (part 1 6) (Num.mul t2 (part 1 120)) else Num.quot (Num.sub t full.2) (Num.mul t2 t)
  let x := phi.cross rho
  { rot := Quat.unit { w := half.1, v := phi.scale a }
    shift := (rho.add (x.scale b)).add ((phi.cross x).scale c) }

/-- log of a motion, translation first. -/
def logRigid (m : Rigid) : List Num :=
  let q : Quat := if Num.lt m.rot.w (Num.nat 0) then { w := Num.neg m.rot.w, v := m.rot.v.scale (.fin true 1 0) } else m.rot
  let n := q.v.norm
  let small := n.tiny
  let t := Num.mul (.fin false 2 0) (quadrantAngle q.w n)
  let phi := q.v.scale (if small then .fin false 2 0 else Num.quot t n)
  let full := cisOf (Num.fixed t)
  let c := if small then Num.quot (Num.nat 1) (Num.nat 12)
    else Num.sub (Num.quot (Num.nat 1) (Num.mul t t))
      (Num.quot (Num.add (Num.nat 1) full.1) (Num.mul (Num.mul (.fin false 2 0) t) full.2))
  let x := phi.cross m.shift
  let rho := (m.shift.sub (x.scale (.fin false 1 (-1)))).add ((phi.cross x).scale c)
  rho.list ++ phi.list

/-! ## Residuals (R260) -/

/-- The whitened squares of an observation: the reprojection error of a landmark through the rig entry's mounting and intrinsics, each
component divided by `SIGMA` (R231, R257, R260). -/
def obsSquares (rig : List Byte) (pose land f : List Byte) : List Num :=
  let e := rigEntry rig (fieldAt f 1 1)
  let w (k : Nat) : Nat := fieldAt e k 4
  let mount : Rigid := { rot := Quat.unit (fp32.quat [w 0, w 4, w 8, w 12]), shift := fp32.vec [w 16, w 20, w 24] }
  let p := ((poseMotion pose).after mount).inverse.point (posePos land)
  let intr (k : Nat) : Num := fp32.decode (w (32 + 4 * k))
  let sigma := fp32.decode (fieldAt f 16 4)
  let part (v : Num) (k at_ : Nat) : Num :=
    let r := Num.quot (Num.sub (Num.add (Num.mul (intr k) (Num.quot v p.z)) (intr (k + 2))) (fp32.decode (fieldAt f at_ 4))) sigma
    Num.mul r r
  [part p.x 0 8, part p.y 1 12]

/-- The square of an edge's whitened residual: the quadratic form of `INFO` at log(T_rel⁻¹ T_from⁻¹ T_to) (R257, R260). -/
def edgeSquare (from_ to_ f : List Byte) : Num :=
  let rel : Rigid := { rot := Quat.unit (fp64.quat ((List.range 4).map fun k => fieldAt f (32 + 8 * k) 8))
                       shift := fp64.vec ((List.range 3).map fun k => fieldAt f (8 + 8 * k) 8) }
  let r := logRigid ((rel.inverse.after (poseMotion from_).inverse).after (poseMotion to_))
  let info (i j : Nat) : Num :=
    let a := min i j
    let b := max i j
    fp64.decode (fieldAt f (64 + 8 * (6 * a - a * (a - 1) / 2 + (b - a))) 8)
  (List.range 36).foldl (fun t k =>
    Num.add t (Num.mul (info (k / 6) (k % 6)) (Num.mul (r.getD (k / 6) .nan) (r.getD (k % 6) .nan)))) (Num.nat 0)

/-- A square with its Huber weight at `k` standard deviations: the residual's weight is 1 up to `k`, and `k` over its size beyond (R260;
one weight for a factor is a DESIGN CHOICE, log 49). -/
def huberSquare (k e2 : Num) : Num :=
  if Num.le e2 (Num.mul k k) then e2 else Num.mul k (Num.root e2)

/-! ## The structure signature (R262) -/

/-- `STRUCT_SIG` as Rokan firmware forms it: the first 8 bytes of the SHA-384 digest of the job kind, the identities, the tracks and the
index pairs, each in its bytes of R257 and in array order (the bytes that go into the digest are a DESIGN CHOICE, log 49). -/
def structSig (kind : Nat) (poses lands factors : List (List Byte)) : List Byte :=
  (sha384 (natLe 1 kind ++ poses.flatMap (fun p => (p.drop 60).take 4) ++ lands.flatMap (fun l => (l.drop 28).take 4)
    ++ factors.flatMap fun f => if kind = 2 then f.take 8 else f.take 1 ++ (f.drop 4).take 2)).take 8

end Sys2Proof.Machine
end

