-- ==== Sys2Proof/Machine/Solver.lean ====
section
/-!
DEFINITION. The solver engine: job checks, warm starts, iterations, the deadline guard, results, service windows, and the
commits that Rokan firmware makes at span boundaries (chapter 11).
-/
namespace Sys2Proof.Machine

/-! ## Arithmetic whose evaluation the spec does not give (log 9) -/

/-- An iteration: its pivots, and the solution of its damped normal equations. -/
def numIter : Nat := 0x0B01
/-- The last places of a cost. -/
def numCost : Nat := 0x0B02
/-- The last places of a stepped point. -/
def numPoint3 : Nat := 0x0B03
/-- The last places of a norm. -/
def numNorm : Nat := 0x0B04
/-- The factor that a graph job keeps in DRAM. -/
def numFactor : Nat := 0x0B07
/-- What a graph correction moves: the rounding of it. -/
def numMoved : Nat := 0x0B05
/-- The correction of a node whose earlier pose the keyframe store does not hold. -/
def numCorrection : Nat := 0x0B06

/-- FP64 1e-12. -/
def fp1em12 : Nat := 0x3D719799812DEA11
/-- FP64 1e6. -/
def fp1e6 : Nat := 0x412E848000000000
/-- FP64 1e12. -/
def fp1e12 : Nat := 0x426D1A94A2000000

/-! ## The engine's counters and fields -/

/-- `SLV_JOBS`, `SLV_TRUNCATED`, `SLV_DEADLINE_MISS`, `SLV_W_EXCEEDED`, `SLV_WARM_REJECTED`, `SLV_MISMATCH`,
`SLV_COMMIT_STALE`. -/
def State.slvCount (s : State) (i : Fin 7) (n : Nat) : State :=
  { s with slv := { s.slv with counts := s.slv.counts.set i (countUp s.slv.counts[i] n) } }
/-- An event of the engine, while its events are enabled. -/
def State.slvEvent (s : State) (code a0 a1 a2 : Nat) : State := if s.slv.evtEn then s.event 0x0B code a0 a1 a2 else s

/-- Zero bytes. -/
def zerosOnly (bs : List Byte) : Bool := bs.all fun b => decide (b = 0)
/-- A range within partition 0's DRAM range. -/
def State.inDram0 (s : State) (a n : Nat) : Bool := s.ownsDram 0 a n

/-- A field of a job's descriptor. -/
def SlvJob.d (j : SlvJob) (o n : Nat) : Nat := fieldAt j.desc o n
/-- A field of its problem header. -/
def SlvJob.h (j : SlvJob) (o n : Nat) : Nat := fieldAt j.hdr o n
/-- Its `TAG`. -/
def SlvJob.tag (j : SlvJob) : Nat := j.d 92 2
/-- Its `W_NS`. -/
def SlvJob.wNs (j : SlvJob) : Nat := j.d 4 4
/-- A flag of the result. -/
def SlvJob.flag (j : SlvJob) (bit : Nat) : SlvJob := { j with flags := j.flags ||| 2 ^ bit }

/-- The items of an array. -/
def itemsOf (bs : List Byte) (size n : Nat) : List (List Byte) := (List.range n).map fun k => (bs.drop (size * k)).take size
/-- A multiple of 64, at least as great. -/
def up64 (n : Nat) : Nat := (n + 63) / 64 * 64

/-! ## Reading a job, and its checks (R256 to R259) -/

/-- A job as its descriptor and its problem give it. -/
def State.readJob (s : State) (desc : List Byte) (graph : Bool) (deadline : Nat) (plan : List Byte) : SlvJob :=
  let a := fieldAt desc 16 8
  let hdr := s.readMem a 64
  let nv := min (fieldAt hdr 24 4) 65536
  let nl := min (fieldAt hdr 28 4) 4096
  let nf := min (fieldAt hdr 32 4) 262144
  { desc := desc, hdr := hdr, graph := graph, deadline := deadline
    poses := s.readMem (a + 64) (64 * nv)
    lands := s.readMem (a + 64 + 64 * nv) (32 * nl)
    factors := s.readMem (a + up64 (64 + 64 * nv + 32 * nl)) ((if graph then 256 else 24) * nf)
    plan := plan, lambda := BitVec.ofNat 64 (fieldAt desc 56 8), costInit := 0, cost := 0, excluded := [], startDt := none
    iterating := false, iterStart := 0, iters := 0, accepted := 0, pivotFails := 0, flags := 0, cyclesMax := 0, mismatches := 0 }

/-- The rig of a job: the object that a window job's header names (R257). -/
def State.jobRig (s : State) (j : SlvJob) : List Byte := if j.graph then [] else s.objBytes (j.h 36 4)

/-- A factor's indices lie within their arrays; the camera of an observation is one of the rig, and its `SIGMA` is greater than 0. -/
def SlvJob.factorOk (j : SlvJob) (rig f : List Byte) : Bool :=
  if j.graph then
    decide (fieldAt f 0 4 < j.h 24 4 ∧ fieldAt f 4 4 < j.h 24 4 ∧ fieldAt f 0 4 ≠ fieldAt f 4 4)
  else decide (fieldAt f 0 1 < j.h 24 4 ∧ fieldAt f 4 2 < j.h 28 4 ∧ fieldAt f 1 1 < 64 ∧ rigKind (rigEntry rig (fieldAt f 1 1)) = 2)
    && fp32.finite (fieldAt f 16 4) && fp32.lt 0 (fieldAt f 16 4)

/-- The factors one by one. -/
def SlvJob.factorList (j : SlvJob) : List (List Byte) := itemsOf j.factors (if j.graph then 256 else 24) (j.h 32 4)

/-- Check 1: reserved fields, magic numbers, kinds, ranges and indices. -/
def State.slvCheck1 (s : State) (j : SlvJob) : Bool :=
  let g := j.graph
  decide (j.d 0 1 = if g then 2 else 1) && decide (j.d 1 1 < 4) && decide (1 ≤ j.d 2 2 ∧ j.d 2 2 ≤ 64)
    && decide (1000 ≤ j.wNs ∧ j.wNs ≤ 4000000000)
    && decide (j.d 16 8 % 64 = 0 ∧ j.d 24 8 % 64 = 0) && s.inDram0 (j.d 16 8) 64 && s.inDram0 (j.d 24 8) 128
    && (decide (j.d 32 8 = 0) || s.inDram0 (j.d 32 8) 128)
    && (if g then s.inDram0 (j.d 40 8) 64 && s.inDram0 (j.d 48 8) 0 else decide (j.d 48 8 = 0))
    && fp64.le fp1em12 (j.d 56 8) && fp64.le (j.d 56 8) fp1e6 && fp64.le (j.d 56 8) (j.d 64 8) && fp64.le (j.d 64 8) fp1e12
    && zerosOnly ((j.desc.drop 94).take 34)
    && decide (j.h 0 4 = 0x4C425250 ∧ j.h 4 1 = j.d 0 1) && zerosOnly ((j.hdr.drop 5).take 3) && zerosOnly ((j.hdr.drop 40).take 24)
    && (if g then decide (j.h 24 4 ≤ 65536 ∧ j.h 28 4 = 0 ∧ j.h 32 4 ≤ 262144 ∧ j.h 36 4 = 0)
        else decide (j.h 24 4 ≤ 32 ∧ j.h 28 4 ≤ 4096 ∧ j.h 32 4 ≤ 65536))
    && j.factorList.all (j.factorOk (s.jobRig j))

/-- The first check of R259 that fails: its status. -/
def State.slvChecks (s : State) (j : SlvJob) : Option Nat :=
  if !s.slvCheck1 j then some errArg
  else if j.graph then
    if fieldAt j.plan 4 8 ≠ j.h 16 8 ∨ fieldAt j.plan 12 4 ≠ j.h 24 4 then some errArg
    else if fieldAt j.plan 20 8 ≤ 2 ^ 30 ∧ s.inDram0 (j.d 48 8) (fieldAt j.plan 20 8) then none else some errTooLarge
  else if j.h 24 4 ≤ fieldAt j.plan 4 2 ∧ j.h 28 4 ≤ fieldAt j.plan 6 2 ∧ j.h 32 4 ≤ fieldAt j.plan 8 4 then none
  else some errTooLarge

/-- What a window problem's first count over the pattern's limit exceeds it by: result word 1 of a job too large (R259). -/
def SlvJob.deficit (j : SlvJob) : Nat :=
  let above := [j.h 24 4 - fieldAt j.plan 4 2, j.h 28 4 - fieldAt j.plan 6 2, j.h 32 4 - fieldAt j.plan 8 4]
  if j.graph then 0 else (above.find? fun n => decide (0 < n)).getD 0

/-- The DRAM that a job's start reads: its problem, and the record that it is to start from (R257, R262). -/
def SlvJob.reads (j : SlvJob) : List (Nat × Nat) :=
  (j.d 16 8, up64 (64 + j.poses.length + j.lands.length) + j.factors.length) ::
    (if (j.d 1 1).testBit 0 ∧ j.d 32 8 ≠ 0 then [(j.d 32 8, 128 + j.poses.length + j.lands.length)] else [])

/-- The fill blocks of a pattern, each a pair of keyframes (R258). -/
def fillBlocks (plan : List Byte) : List (Nat × Nat) :=
  (itemsOf (plan.drop 64) 2 (fieldAt plan 20 2)).map fun e => (fieldAt e 0 1, fieldAt e 1 1)

/-- The landmarks of a window job that a keyframe pair which is not a fill block observes (R260). -/
def SlvJob.leftOut (j : SlvJob) : List Nat :=
  if j.graph then []
  else
    let obs := j.factorList.map fun f => (fieldAt f 4 2, fieldAt f 0 1)
    let fill := fillBlocks j.plan
    (List.range (j.h 28 4)).filter fun l =>
      let ks := (obs.filter fun o => decide (o.1 = l)).map (·.2)
      ks.any fun a => ks.any fun b => decide (a < b) && !decide ((a, b) ∈ fill)

/-- Why a warm record is not used: 0 its signature, 1 its counts, 2 its status (R262). -/
def SlvJob.warmCause (j : SlvJob) (r : List Byte) : Option Nat :=
  if fieldAt r 16 8 ≠ j.h 16 8 then some 0
  else if fieldAt r 32 4 ≠ j.h 24 4 ∨ fieldAt r 36 4 ≠ j.h 28 4 then some 1
  else if fieldAt r 0 2 < 256 ∨ fieldAt r 0 2 = errDeadline then none
  else some 2

/-- An array's items with the values of a record's: their flags and identities stay the problem's (R265). -/
def withValues (size values : Nat) (own record : List Byte) : List Byte :=
  (List.range (own.length / size)).flatMap fun k =>
    (record.drop (size * k)).take values ++ (own.drop (size * k + values)).take (size - values)

/-- The start from a warm record, or the cold start; at address 0 there is no record (R256, R262). -/
def State.warmStart (s : State) (j : SlvJob) : SlvJob × State :=
  if !(j.d 1 1).testBit 0 ∨ j.d 32 8 = 0 then (j, s)
  else
    let r := s.readMem (j.d 32 8) 128
    match j.warmCause r with
    | none =>
      let a := j.d 32 8 + 128
      ({ j.flag 5 with
          lambda := BitVec.ofNat 64 (fieldAt r 56 8), poses := withValues 64 56 j.poses (s.readMem a j.poses.length)
          lands := withValues 32 24 j.lands (s.readMem (a + j.poses.length) j.lands.length) }, s)
    | some c => (j.flag 6, (s.slvCount 4 1).slvEvent 0x0B04 j.tag c 0)

/-! ## Results (R265, R266) -/

/-- The status of a job that no error ended (R266). -/
def SlvJob.okStatus (j : SlvJob) (trunc : Bool) : Nat :=
  if trunc then stTruncated else if j.flags.testBit 6 then stWarmRejected else stOk

/-- The result header. -/
def SlvJob.header (j : SlvJob) (status flags endDt start : Nat) : List Byte :=
  natLe 2 status ++ natLe 2 j.tag ++ natLe 4 flags ++ natLe 2 j.iters ++ natLe 2 j.accepted ++ natLe 2 j.pivotFails ++ natLe 2 0
    ++ natLe 8 (j.h 16 8) ++ natLe 8 (j.h 8 8) ++ natLe 4 (j.h 24 4) ++ natLe 4 (j.h 28 4)
    ++ natLe 8 j.costInit.toNat ++ natLe 8 j.cost.toNat ++ natLe 8 j.lambda.toNat ++ natLe 8 start ++ natLe 8 endDt
    ++ natLe 8 j.deadline ++ natLe 4 j.cyclesMax ++ natLe 4 j.excluded.length ++ List.replicate 32 0

/-- `MAP_GRAPH_DONE` to the mailboxes of partition 0 that subscribe to source 0x0B (R361, R362). -/
def State.graphDone (s : State) (status tag iters frame dt : Nat) : State :=
  (List.finRange 8).foldl (fun (s : State) i =>
    if s.mbx[i].partition = 0 ∧ s.mbx[i].subSources.getLsbD 0x0B then
      s.postUnsolicited i
        { tag := 0xFFFD, status := BitVec.ofNat 16 status, r0 := BitVec.ofNat 32 tag, r1 := BitVec.ofNat 32 iters
          r2 := BitVec.ofNat 32 frame, r3 := 0, unsolicited := true, lost := 0, opcode := 0x0780, dt := BitVec.ofNat 64 dt }
        (·.lostGraphs) (fun m v => { m with lostGraphs := v })
    else s) s

/-- A graph job's descriptor enters the queue: D is the DT of submission plus `LOOP_DEADLINE_MS` (R268). -/
def State.enqueueGraph (s : State) (addr : Nat) : State :=
  let s := s.writeMem (addr + 8) (natLe 8 (s.dtNs + s.fld.params.loopDeadlineMs * 1000000))
  { s with slv := { s.slv with queue := BitVec.ofNat 64 (addr + 1) } }

/-- The running solver operation of an opcode ends, and its flag is set (R267). -/
def State.slvOpDone (s : State) (opcode : Nat) : State :=
  match (s.seq .slv).running.find? fun r => decide (r.op.opcode = opcode) with
  | none => s
  | some r => (s.onSeq .slv fun q => { q with running := q.running.filter fun r => decide (r.op.opcode ≠ opcode) }).setOnDone r.op

/-- A job's place emptied: the window operation ends, or the pending graph job enters the queue. -/
def State.slvLeave (s : State) (graph : Bool) : State :=
  if graph then
    let s := { s with slv := { s.slv with graph := none, queue := 0 } }
    match s.slv.waiting with
    | some a => State.enqueueGraph { s with slv := { s.slv with waiting := none } } a
    | none => s
  else State.slvOpDone { s with slv := { s.slv with window := none } } 0x10

/-- A job completes: with a check's failure only the header is written, for a window too large with the deficit in its
word 1 (log 49); otherwise the header and the iterate. A committable
result waits for its boundary; a graph result that is not is reported now (R259, R265, R266, R270). -/
def State.slvClose (s : State) (j : SlvJob) (err : Option Nat) (trunc : Bool) : State :=
  let refused := decide (err = some errArg ∨ err = some errTooLarge)
  let (j, start, s) : SlvJob × Nat × State :=
    if refused then
      let (a, s) := s.draw 64
      let (b, s) := s.draw 64
      let (c, s) := s.draw 64
      let (d, s) := s.draw 64
      let fp (v : Dword) : Dword := BitVec.ofNat 64 (fp64.canon v.toNat)
      ({ j with costInit := fp a, cost := fp b, lambda := fp c }, d.toNat, s)
    else
      match j.startDt with
      | some t => (j, t, s)
      | none => (let r := s.draw 64; (j, r.1.toNat, r.2))
  let status := err.getD (j.okStatus trunc)
  let flags0 := if trunc then j.flags ||| 8 else j.flags
  let commit := decide (status < 256 ∧ 1 ≤ j.accepted)
  let flags := if err = some errTooLarge then j.deficit else if commit then flags0 ||| 1 else flags0
  let out := j.d 24 8
  let bytes := j.header status flags s.dtNs start ++ (if refused then [] else j.poses ++ j.lands)
  let s := if s.inDram0 out bytes.length then s.writeDram out bytes else s
  let s := s.slvCount 0 1
  let s := if status = stTruncated then
      (s.slvCount 1 1).slvEvent 0x0B02 j.tag j.iters
        (fp32.ofNum (Num.div 30 (fp64.decode j.cost.toNat) (fp64.decode j.costInit.toNat)))
    else s
  let s := if status = errDeadline then
      State.slvEvent { s.slvCount 2 1 with slv := { (s.slvCount 2 1).slv with miss := true } } 0x0B01 j.tag j.iters
        ((s.dtNs - j.deadline) / 1000)
    else s
  let s := if status = errResidue then s.engineFailed 0x0B else s
  let s :=
    if commit then
      { s with slv := { s.slv with done := s.slv.done ++
        [{ graph := j.graph, tag := j.tag, status := status, iters := j.iters, setupDt := j.h 8 8, endDt := s.dtNs, poses := j.poses
           lands := j.lands, latched := false }] } }
    else if j.graph then s.graphDone status j.tag j.iters 0xFFFFFFFF s.dtNs
    else s
  s.slvLeave j.graph

/-! ## The guard, and the start of a job (R259, R263) -/

/-- A job held where it stands. -/
def State.slvHold (s : State) (j : SlvJob) : State :=
  if j.graph then { s with slv := { s.slv with graph := some j } } else { s with slv := { s.slv with window := some j } }

/-- The cost at a point: the sum of the squared weighted residuals over the factors that the job keeps (R260). -/
def SlvJob.costAt (j : SlvJob) (rig poses lands : List Byte) : Dword :=
  let pose (k : Nat) : List Byte := (poses.drop (64 * k)).take 64
  let k := fp32.decode (j.d 88 4)
  let one (f : List Byte) : Num :=
    let e2 :=
      if j.graph then edgeSquare (pose (fieldAt f 0 4)) (pose (fieldAt f 4 4)) f
      else (obsSquares rig (pose (fieldAt f 0 1)) ((lands.drop (32 * fieldAt f 4 2)).take 32) f).foldl Num.add (Num.nat 0)
    if (j.d 1 1).testBit 1 then huberSquare k e2 else e2
  let kept := j.factorList.filter fun f => j.graph || decide (fieldAt f 4 2 ∉ j.excluded)
  BitVec.ofNat 64 (fp64.near numCost (natsOf (j.plan.take 64)) (fp64.ofNum (kept.foldl (fun t f => Num.add t (one f)) (Num.nat 0))))

/-- The guard before an iteration: it starts if DT + `W_NS` is at most D, else the job ends truncated. -/
def State.slvGuard (s : State) (j : SlvJob) : State :=
  if s.dtNs + j.wNs ≤ j.deadline then
    s.slvHold { j with iterating := true, iterStart := s.dtNs, startDt := some (j.startDt.getD s.dtNs) }
  else s.slvClose j none true

/-- A job starts: the checks, the warm record, and the first guard. A problem with no variable is done at once. -/
def State.slvStart (s : State) (j : SlvJob) : State :=
  let s := s.unmappedEvents j.reads
  match s.slvChecks j with
  | some e => s.slvClose j (some e) false
  | none =>
    if j.h 24 4 = 0 then s.slvClose { j with startDt := some s.dtNs } none false
    else
      let (j, s) := s.warmStart { j with excluded := j.leftOut }
      let c := j.costAt (s.jobRig j) j.poses j.lands
      s.slvGuard { j with costInit := c, cost := c }

/-- The service operation that runs, if its window is still open. -/
def State.slvService (s : State) : Option Running := (s.seq .slv).running.find? fun r => decide (r.op.opcode = 0x11)

/-- The window serves the head of the queue: a job between iterations meets the guard, and a queued one starts (R268). -/
def State.slvServe : Nat → State → State
  | 0, s => s
  | n + 1, s =>
    if s.slv.queueEn && s.slvService.isSome then
      match s.slv.graph with
      | some j => if j.iterating then s else State.slvServe n (s.slvGuard j)
      | none =>
        if s.slv.queue.getLsbD 0 then
          let a := s.slv.queue.toNat % 2 ^ 40 / 64 * 64
          let desc := s.readMem a 128
          let at_ := fieldAt desc 40 8
          let nodes := min (s.memVal (at_ + 12) 4) 65536
          let supers := min (s.memVal (at_ + 16) 4) 65536
          let list := at_ + 64 + 4 * nodes
          let rows := (List.range supers).foldl (fun n k => n + min (s.memVal (list + 32 * k + 12) 4) 65536) 0
          let plan := s.readMem at_ (64 + 4 * nodes + 32 * supers + 4 * rows)
          State.slvServe n (s.slvStart (s.readJob desc true (fieldAt desc 8 8) plan))
        else s
    else s

/-! ## Iterations (R260, R261, R264, R269) -/

/-- The correction of an item in the solution of the damped normal equations: none for a `FIXED` item, or for a landmark left out. -/
def stepOf (item : List Byte) (flagAt words : Nat) (inp : List Nat) (k : Nat) (fixed : Bool) : List Dword :=
  if fixed || (fieldAt item flagAt 1).testBit 0 then List.replicate words 0 else nums64 numIter inp (8 * k + 8) words

/-- FP64 values of an item, each the nearest to a real number but for the last places (log 9). -/
def steppedVals (vs : List Num) : List Byte := vs.flatMap fun v => natLe 8 (fp64.near numPoint3 [] (fp64.ofNum v))

/-- A pose with a correction applied on its left, translation first (R260). -/
def steppedPose (item : List Byte) (step : List Dword) : List Byte :=
  if step.all fun x => decide (x = 0) then item
  else
    let v (k : Nat) : Vec3 := fp64.vec ((step.drop k).map (·.toNat))
    let m := (expRigid (v 0) (v 3)).after (poseMotion item)
    steppedVals (m.shift.list ++ m.rot.w :: m.rot.v.list) ++ item.drop 56

/-- A landmark with a correction added (R260). -/
def steppedLand (item : List Byte) (step : List Dword) : List Byte :=
  if step.all fun x => decide (x = 0) then item
  else steppedVals ((posePos item).add (fp64.vec (step.map (·.toNat)))).list ++ item.drop 24

/-- The norm of FP64 values. -/
def normOf (vs : List Nat) : Nat :=
  fp64.near numNorm [] (fp64.ofNum (Num.root (vs.foldl (fun t v => Num.add t (Num.mul (fp64.decode v) (fp64.decode v))) (Num.nat 0))))

/-- The FP64 values of a point: positions and quaternions of its poses, and positions of its landmarks. -/
def pointVals (poses lands : List (List Byte)) : List Nat :=
  poses.flatMap (fun p => (List.range 7).map fun k => fieldAt p (8 * k) 8) ++ lands.flatMap fun l => (List.range 3).map fun k => fieldAt l (8 * k) 8

/-- An iteration (R260, R261): the job with its step accepted or rejected, and the outcome that stops it, if one does. The solution of the
damped normal equations, and whether a pivot of the factorisation is not positive, are free (log 9); the stepped point, the costs, the
norms and the damping follow from them. -/
def SlvJob.iterate (j : SlvJob) (rig : List Byte) : SlvJob × Bool :=
  let inp := j.lambda.toNat :: natsOf (j.desc ++ j.hdr ++ j.poses ++ j.lands ++ j.factors ++ j.plan ++ rig)
  let pivot := decide (Config.numeric numIter inp 0 % 2 = 1)
  let nv := j.h 24 4
  let vars := itemsOf j.poses 64 nv
  let pts := itemsOf j.lands 32 (j.h 28 4)
  let moves := vars.zipIdx.map fun x => (x.1, stepOf x.1 56 6 inp x.2 false)
  let shifts := pts.zipIdx.map fun x => (x.1, stepOf x.1 24 3 inp (nv + x.2) (decide (x.2 ∈ j.excluded)))
  let poses := moves.flatMap fun x => steppedPose x.1 x.2
  let lands := shifts.flatMap fun x => steppedLand x.1 x.2
  let cost := (j.costAt rig poses lands).toNat
  let ok := !pivot && fp64.lt cost j.cost.toNat
  let down := fp64.div j.lambda.toNat 0x4010000000000000
  let lambda := if ok then (if fp64.lt down fp1em12 then fp1em12 else down) else fp64.mul j.lambda.toNat 0x4020000000000000
  let tolStep := j.d 72 8
  let step := normOf ((moves ++ shifts).flatMap fun x => x.2.map (·.toNat))
  let small := fp64.le step (fp64.mul tolStep (fp64.add (normOf (pointVals vars pts)) tolStep))
  let flat := fp64.le (fp64.div (fp64.sub j.cost.toNat cost) j.cost.toNat) (j.d 80 8)
  let j : SlvJob := { j with
    iters := j.iters + 1, iterating := false, lambda := BitVec.ofNat 64 lambda
    pivotFails := j.pivotFails + b2n pivot, accepted := j.accepted + b2n ok
    cost := if ok then BitVec.ofNat 64 cost else j.cost
    poses := if ok then poses else j.poses, lands := if ok then lands else j.lands }
  if ok && (small || flat) then (j.flag 1, true)
  else if fp64.lt (j.d 64 8) lambda then (j.flag 4, true)
  else if j.d 2 2 ≤ j.iters then (j.flag 2, true)
  else (j, false)

/-- The factor that a graph job keeps at `SCRATCH_ADDR`: its bytes are free (R260, R268; log 9). -/
def State.keepFactor (s : State) (j : SlvJob) : State :=
  if !j.graph then s
  else
    let inp := j.iters :: j.lambda.toNat :: natsOf (j.hdr ++ j.poses)
    s.writeDram (j.d 48 8) ((List.range (fieldAt j.plan 20 8)).map fun k => BitVec.ofNat 8 (Config.numeric numFactor inp k))

/-- The time an iteration took: its cycles, which saturate in their field, and what is counted and recorded when it exceeds
`W_NS` (R195, R264). -/
def State.slvElapsed (s : State) (j : SlvJob) : SlvJob × State :=
  let ns := s.dtNs - j.iterStart
  let j := { j with cyclesMax := min 0xFFFFFFFF (max j.cyclesMax (ns * 3 / 2)) }
  if j.wNs < ns then
    let s := s.slvCount 3 1
    (j.flag 7, if j.flags.testBit 7 then s else s.slvEvent 0x0B03 j.tag j.cyclesMax j.wNs)
  else (j, s)

/-- A residue mismatch of an iteration: the first reruns it, a second ends the job (R269). -/
def State.slvMismatch (s : State) (j : SlvJob) (unit : Nat) : State :=
  let s := (s.slvCount 5 1)
  let s := { s with slv := { s.slv with mismatch := true } }
  let j' := { j with mismatches := j.mismatches + 1 }
  if j.mismatches = 0 then (s.slvEvent 0x0B05 j.tag unit 0).slvHold j'
  else
    let (j, s) := (s.slvEvent 0x0B05 j.tag unit 1).slvElapsed { j' with iterating := false }
    s.slvClose j (some errResidue) false

/-- The job that an iteration end belongs to: the window job, or the graph job of an open window. -/
def State.slvActive (s : State) : Option SlvJob :=
  match s.slv.window with
  | some j => some j
  | none => if s.slvService.isSome && s.slv.queueEn then s.slv.graph else none

/-- Whether DT is past D by more than a comparison's distance, 4,096 `SOLVE` cycles (R264). -/
def SlvJob.overdue (j : SlvJob) (now : Nat) : Bool := decide (2 * 4096 < 3 * (now - j.deadline))

/-- An iteration ends. A word or a line that it could not read ends the job as a second mismatch does (R414). -/
def State.slvIterationEnd (s : State) (chk : Check) : State :=
  match s.slvActive with
  | none => s
  | some j =>
    if !j.iterating || j.overdue s.dtNs then s
    else
      match s.checkFound .slv chk with
      | (.unread _, s) => State.slvServe 3 (s.slvMismatch { j with mismatches := max 1 j.mismatches } 0xFF)
      | (.mismatch u both, s) =>
        let s := s.slvMismatch j u
        let s := if both && decide (j.mismatches = 0) then s.slvMismatch { j with mismatches := 1 } u else s
        State.slvServe 3 s
      | (.nothing, s) =>
        let (j, s) := s.slvElapsed j
        let s := s.keepFactor j
        let (j, stop) := j.iterate (s.jobRig j)
        State.slvServe 3 (if stop then s.slvClose j none false else s.slvGuard j)

/-- An iteration abandoned: its time counts (R264), and the job ends with `ERR_DEADLINE`. -/
def State.slvAbandon (s : State) (j : SlvJob) : State :=
  let (j, s) := s.slvElapsed { j with iterating := false }
  s.slvClose j (some errDeadline) false

/-- DT passes D while an iteration runs or is suspended: it is abandoned (R264). -/
def State.slvMiss (s : State) : State :=
  let late (j : SlvJob) : Bool := j.iterating && decide (j.deadline < s.dtNs)
  match s.slv.window.filter late, s.slv.graph.filter late with
  | some j, _ => s.slvAbandon j
  | none, some j => State.slvServe 3 (s.slvAbandon j)
  | none, none => s

/-- A service window ends: a job that has started is suspended, with its factor state at `SCRATCH_ADDR` (R268). -/
def State.slvSuspend (s : State) : State :=
  let s := match s.slv.graph with
    | some j => if j.iterating then s.keepFactor j else s
    | none => s
  let s := { s with slv := { s.slv with graph := s.slv.graph.map fun (j : SlvJob) => j.flag 8 } }
  s.slvOpDone 0x11

/-- The end of the window's `END_GRAIN`. -/
def State.slvWindowEnd (s : State) : State :=
  match s.slvService, s.sectionOf .slv with
  | some r, some (_, img, _) => if img.param r.op.argB 2 < s.grain then s.slvSuspend else s
  | _, _ => s

/-! ## SLV_COMMIT (R271) -/

/-- A context with a committed mean and anchor. -/
def ctxCommit (c e : List Byte) : List Byte := ctxPut (ctxPut c 40 ((e.drop 12).take 12)) 88 ((e.drop 6).take 6)

/-- One entry of a commit list. -/
def State.commitEntry (s : State) (e : List Byte) : State :=
  let h := fieldAt e 0 4
  let slot := fieldAt e 4 2
  if slot = 0xFFFF then
    if h = 0 ∨ s.tableVal (trackSlot h) 0 4 ≠ h then s.slvCount 6 1
    else s.putTable (trackSlot h) (ctxCommit (s.tableCtx (trackSlot h)) e)
  else if mapGet s.fus.resident slot = some h ∧ ctxHandle (s.sramCtx slot) = h then s.updTrack slot fun c => ctxCommit c e
  else s.slvCount 6 1

/-- The entries of the list at an address. -/
def State.commitList (s : State) (addr : Nat) : List (List Byte) :=
  let n := min (s.memVal addr 4) 20480
  itemsOf (s.readMem (addr + 64) (32 * n)) 32 n

/-- SLV_COMMIT as it ends; `limit` entries of it when a boundary stops it. -/
def State.slvEnd (s : State) (img : Image) (o : Op) (limit : Option Nat) : State :=
  if o.opcode = 0x12 then
    let es := s.commitList (img.param o.argB 8)
    let es := match limit with
      | some k => es.take k
      | none => es
    let a := img.param o.argB 8
    es.foldl State.commitEntry (s.unmappedEvents [(a, 64 + 32 * min (s.memVal a 4) 20480)])
  else s

/-! ## Commits at a boundary (R270) -/

/-- A latch: results completed before it are due at the coming boundary. -/
def State.slvLatch (s : State) : State :=
  { s with slv := { s.slv with done := s.slv.done.map fun d => { d with latched := true } } }

/-- A result's poses put into the keyframe store. -/
def storePoses (store : List (Nat × List Byte)) (poses : List Byte) : List (Nat × List Byte) :=
  (itemsOf poses 64 (poses.length / 64)).foldl (fun m p => mapSet m (fieldAt p 60 4) (p.take 56)) store

/-- An entry of the commit list. -/
def State.commitOf (s : State) (h key : Nat) (mean : List Word) : List Byte :=
  let slot := ((s.residentAt (trackSlot h)).map (·.1)).getD 0xFFFF
  natLe 4 h ++ natLe 2 slot ++ natLe 6 key ++ wordBytes mean ++ List.replicate 8 0

/-- The entries of a window result's landmarks. -/
def State.landmarkEntries (s : State) (lands : List Byte) : List (List Byte) :=
  (itemsOf lands 32 (lands.length / 32)).map fun l =>
    let a := ownAcre [fieldAt l 0 8, fieldAt l 8 8, fieldAt l 16 8]
    s.commitOf (fieldAt l 28 4) a.1 a.2

/-- The correction that takes an earlier pose to a new one. -/
def Rigid.between (old new : List Byte) : Rigid :=
  let q := (poseRot new).mul (poseRot old).conj
  { rot := q, shift := (posePos new).sub (q.rotate (posePos old)) }

/-- A number in FP64, as firmware rounds it (log 9). -/
def moved64 (v : Num) : Nat := fp64.near numMoved [] (fp64.ofNum v)
/-- A vector of FP64 patterns. -/
def movedVec (v : Vec3) : List Dword := v.list.map fun x => BitVec.ofNat 64 (moved64 x)
/-- A quaternion of FP64 patterns. -/
def movedQuat (q : Quat) : List Dword := (q.w :: q.v.list).map fun x => BitVec.ofNat 64 (moved64 x)
/-- FP64 patterns as FP32. -/
def narrow (ws : List Dword) : List Word := ws.map fun w => BitVec.ofNat 32 (fp64.convert fp32 w.toNat)

/-- A pose moved: position and attitude as bytes. -/
def Rigid.pose (c : Rigid) (p : List Byte) : List Byte :=
  (movedVec (c.point (posePos p)) ++ movedQuat (c.rot.mul (poseRot p))).flatMap fun w => natLe 8 w.toNat

/-- Where a context's mean lies in the map frame (R227). -/
def ctxPoint (c : List Byte) : Vec3 :=
  let key := fieldAt c 88 6
  let axis (i : Nat) : Num := Num.add (fp64.decode (fp64.mul dp8192 (fp64.ofInt (keyAxis key i)))) (fp32.decode (fieldAt c (40 + 4 * i) 4))
  { x := axis 0, y := axis 1, z := axis 2 }

/-- The entries of the contexts that a correction moves, anchored where they come to lie. -/
def State.movedEntries (s : State) (r : Rigid) : List (List Byte) :=
  let live := sortBy (fun a b : List Byte => decide (ctxHandle a ≤ ctxHandle b)) (s.liveContexts.filter fun c => decide (ctxKind c ≤ 2))
  (live.take 20480).map fun c =>
    let own := ownAcre ((movedVec (r.point (ctxPoint c))).map (·.toNat))
    s.commitOf (ctxHandle c) own.1 own.2

/-- The filter with its position, velocity and attitude moved; biases and covariance stay. -/
def Ego.moved (e : Ego) (r : Rigid) : Ego :=
  let vec (k : Nat) : Vec3 := fp64.vec (((e.mean.drop k).take 3).map (·.toNat))
  { e with mean := movedVec (r.point (vec 0)) ++ movedVec (r.rot.rotate (vec 3)) ++ movedQuat (r.rot.mul e.attitude) ++ e.mean.drop 10 }

/-- The head moved: position, attitude and velocity. -/
def Head.moved (h : Head) (r : Rigid) : Head :=
  { h with
    pos := movedVec (r.point (fp64.vec (h.pos.map (·.toNat))))
    quat := quatRecord (r.rot.mul (fp32.quat (h.quat.map (·.toNat))))
    vel := narrow (movedVec (r.rot.rotate (fp32.vec (h.vel.map (·.toNat))))) }

/-- The correction of a graph result: that of its newest node, from the pose that the keyframe store holds. -/
def State.correction (s : State) (newest : List Byte) : Rigid :=
  match mapGet s.slv.keyframes (fieldAt newest 60 4) with
  | some old => Rigid.between old newest
  | none =>
    let n := (nums64 numCorrection (natsOf newest) 0 7).map (·.toNat)
    { rot := Quat.unit (fp64.quat n), shift := fp64.vec (n.drop 4) }

/-- The correction of the newest node applied to the ego state, the head and the keyframe store; old checkpoints become
unusable and old late items are dropped (R270). -/
def State.moveFrame (s : State) (d : SlvDone) : State :=
  let boundary := s.sched.spanStart.toNat
  let r := s.correction (d.poses.drop (d.poses.length - 64))
  let inStore := (itemsOf d.poses 64 (d.poses.length / 64)).map fun p => fieldAt p 60 4
  let moved := s.slv.keyframes.map fun k => if k.1 ∈ inStore then k else (k.1, r.pose k.2)
  let old := s.fus.late.filter fun i => decide (i.dt < boundary)
  let s := { s with
    slv := { s.slv with keyframes := storePoses moved d.poses, entries := s.slv.entries ++ s.movedEntries r, lastCommit := some boundary }
    fus := { s.fus with
      frameId := s.fus.frameId + 1
      ego := if s.fus.initialised then s.fus.ego.moved r else s.fus.ego
      head := if s.fus.initialised then s.fus.head.moved r else s.fus.head
      history := s.fus.history.filter fun c => decide (boundary ≤ c.dt)
      late := s.fus.late.filter fun i => decide (boundary ≤ i.dt) } }
  old.foldl State.dropLate s

/-- One result at its boundary: stale, or committed. -/
def State.commitOne (s : State) (d : SlvDone) : State :=
  let kind := if d.graph then 2 else 1
  let stale : Bool :=
    match s.slv.lastCommit with
    | some b => decide (d.setupDt < b)
    | none => false
  if stale then
    let s := State.slvEvent { s with slv := { s.slv with stale := s.slv.stale + 1 } } 0x0B07 kind d.tag 0
    if d.graph then s.graphDone d.status d.tag d.iters 0xFFFFFFFF d.endDt else s
  else if d.graph then
    let s := s.moveFrame d
    (s.slvEvent 0x0B06 kind d.tag s.fus.frameId.toNat).graphDone d.status d.tag d.iters s.fus.frameId.toNat s.sched.spanStart.toNat
  else
    let s := { s with slv := { s.slv with
      keyframes := storePoses s.slv.keyframes d.poses, entries := s.slv.entries ++ s.landmarkEntries d.lands } }
    s.slvEvent 0x0B06 kind d.tag 0

/-- The commit list written where the starting image's SLV_COMMIT reads it. -/
def State.writeCommits (s : State) : State :=
  match s.sectionOf .slv with
  | none => s
  | some (_, img, ops) =>
    match ops.find? fun o => decide (o.opcode = 0x12) with
    | none => s
    | some o =>
      let es := s.slv.entries.drop (s.slv.entries.length - 20480)
      let s := s.writeMem (img.param o.argB 8) (natLe 4 es.length ++ List.replicate 60 0 ++ es.flatten)
      { s with slv := { s.slv with entries := [] } }

/-- The results due at a boundary, a graph result first (R270). -/
def State.slvCommits (s : State) : State :=
  let due := s.slv.done.filter (·.latched)
  let s := { s with slv := { s.slv with done := s.slv.done.filter fun d => !d.latched } }
  let s := (due.filter (·.graph)).foldl State.commitOne s
  (due.filter fun d => !d.graph).foldl State.commitOne s

/-- A boundary finds no solver operation running (R267); a service window that has not ended does so here, and a window job
is given up. -/
def State.slvBoundary (s : State) : State :=
  { s with slv := { s.slv with window := none, graph := s.slv.graph.map fun (j : SlvJob) => if s.slvService.isSome then j.flag 8 else j } }

/-! ## What Rokan firmware writes: problems, and a compiled schedule (R257, R258, R262, R268) -/

/-- Free numbers in a row, and the state with the counter advanced past them. -/
def State.drawMany (s : State) (n : Nat) : (Nat → Nat) × State := (fun k => Config.freeNat (s.free + k), { s with free := s.free + n })

/-- Free bytes among free numbers. -/
def someBytes (g : Nat → Nat) (at_ n : Nat) : List Byte := (List.range n).map fun k => BitVec.ofNat 8 (g (at_ + k))

/-- A pose variable whose values firmware took: 58 free numbers. -/
def someVar (g : Nat → Nat) (at_ : Nat) : List Byte :=
  someBytes g at_ 56 ++ natLe 1 (g (at_ + 56) % 2) ++ List.replicate 3 0 ++ natLe 4 (g (at_ + 57))
/-- A landmark: 26 free numbers. -/
def someLand (g : Nat → Nat) (at_ : Nat) : List Byte :=
  someBytes g at_ 24 ++ natLe 1 (g (at_ + 24) % 2) ++ List.replicate 3 0 ++ natLe 4 (g (at_ + 25))
/-- An observation of one of so many landmarks by one of so many keyframes through a camera of the rig: 6 free numbers. -/
def someObs (g : Nat → Nat) (kfs lands : Nat) (cams : List Nat) (at_ : Nat) : List Byte :=
  natLe 1 (g at_ % kfs) ++ natLe 1 (cams.getD (g (at_ + 1) % cams.length) 0) ++ natLe 2 0 ++ natLe 2 (g (at_ + 2) % lands) ++ natLe 2 0
    ++ natLe 4 (g (at_ + 3)) ++ natLe 4 (g (at_ + 4)) ++ natLe 4 (1 + g (at_ + 5) % 0x7F7FFFFF) ++ natLe 4 0
/-- An edge between two of so many nodes: 227 free numbers. -/
def someEdge (g : Nat → Nat) (nodes at_ : Nat) : List Byte :=
  let a := g at_ % nodes
  natLe 4 a ++ natLe 4 ((a + 1 + g (at_ + 1) % (nodes - 1)) % nodes) ++ someBytes g (at_ + 2) 224 ++ natLe 1 (g (at_ + 226) % 2)
    ++ List.replicate 23 0

/-- A problem block (R257). -/
def problemBytes (kind dt rig : Nat) (vars lands factors : List (List Byte)) : List Byte :=
  let hdr := natLe 4 0x4C425250 ++ natLe 1 kind ++ natLe 3 0 ++ natLe 8 dt ++ structSig kind vars lands factors
    ++ natLe 4 vars.length ++ natLe 4 lands.length ++ natLe 4 factors.length ++ natLe 4 rig ++ List.replicate 24 0
  let first := hdr ++ vars.flatten ++ lands.flatten
  first ++ List.replicate (up64 first.length - first.length) 0 ++ factors.flatten

/-- A free order of `n` items: each in turn takes a free place among those before it. -/
def someOrder (g : Nat → Nat) (n : Nat) : List Nat :=
  (List.range n).foldl (fun l i => let k := g i % (i + 1); l.take k ++ i :: l.drop k) []

/-- An elimination schedule (R258): a permutation of the nodes, supernodes of adjacent columns, and the rows below each. Which nodes,
columns and rows is free, for approximate minimum degree leaves it open (log 49). -/
def compileSchedule (g : Nat → Nat) (sig : List Byte) (nodes : Nat) : List Byte :=
  let starts := (List.range nodes).filter fun i => decide (i = 0 ∨ i % 32768 = 0) || (g (nodes + i)).testBit 0
  let spans := starts.zip (starts.drop 1 ++ [nodes])
  let rows (x : Nat × Nat) : List Nat := (List.range nodes).filter fun r => decide (x.2 ≤ r) && (g (2 * nodes + x.1 * nodes + r)).testBit 0
  let parent (x : Nat × Nat) : Nat := match rows x with
    | [] => 0xFFFFFFFF
    | r :: _ => (spans.findIdx? fun y => decide (y.1 ≤ r ∧ r < y.2)).getD 0xFFFFFFFF
  let size (x : Nat × Nat) : Nat := 288 * (x.2 - x.1) * (x.2 - x.1 + (rows x).length)
  let sum (f : Nat × Nat → Nat) (k : Nat) : Nat := (spans.take k).foldl (fun n x => n + f x) 0
  let supers := spans.zipIdx.flatMap fun x =>
    natLe 4 x.1.1 ++ natLe 2 (x.1.2 - x.1.1) ++ natLe 2 0 ++ natLe 4 (sum (fun y => (rows y).length) x.2) ++ natLe 4 (rows x.1).length
      ++ natLe 4 (parent x.1) ++ natLe 8 (sum size x.2) ++ natLe 4 0
  natLe 4 0x48435345 ++ sig ++ natLe 4 nodes ++ natLe 4 spans.length ++ natLe 8 (sum size spans.length) ++ List.replicate 36 0
    ++ (someOrder g nodes).flatMap (natLe 4) ++ supers ++ (spans.flatMap rows).flatMap (natLe 4)

/-- The free numbers that a schedule of so many nodes is compiled from. -/
def scheduleDraws (nodes : Nat) : Nat := 2 * nodes + nodes * nodes

/-- Rokan firmware's graph problem, its schedule and its descriptor, at addresses of its own and with values in the ranges of R256 to
R258. Answers the descriptor's address. -/
def State.writeGraph (s : State) : Nat × State :=
  let place (n : Nat) : Nat := s.sec.grants[0].dramBase + 64 * (n % (s.sec.grants[0].dramBytes / 64))
  let (g, s) := s.drawMany 44
  let nodes := 2 + g 0 % 65535
  let edges := 1 + g 1 % 262144
  let (v, s) := s.drawMany (58 * nodes)
  let (e, s) := s.drawMany (227 * edges)
  let (c, s) := s.drawMany (scheduleDraws nodes)
  let vars := (List.range nodes).map fun k => someVar v (58 * k)
  let facts := (List.range edges).map fun k => someEdge e nodes (227 * k)
  let plan := compileSchedule c (structSig 2 vars [] facts) nodes
  let lambda := fp1em12 + g 2 % (fp1e6 - fp1em12 + 1)
  let desc := natLe 1 2 ++ natLe 1 (2 * (g 3 % 2)) ++ natLe 2 (1 + g 4 % 64) ++ natLe 4 (1000 + g 5 % 3999999001) ++ natLe 8 0
    ++ natLe 8 (place (g 6)) ++ natLe 8 (place (g 7)) ++ natLe 8 0 ++ natLe 8 (place (g 8)) ++ natLe 8 (place (g 9))
    ++ natLe 8 lambda ++ natLe 8 (lambda + g 10 % (fp1e12 - lambda + 1)) ++ someBytes g 12 22 ++ List.replicate 34 0
  (place (g 11), ((s.writeMem (place (g 6)) (problemBytes 2 s.dtNs 0 vars [] facts)).writeMem (place (g 8)) plan).writeMem
    (place (g 11)) desc)

/-- A closure added to the edges of the pending job, and its schedule compiled anew (R268). -/
def State.addClosure (s : State) (addr : Nat) : State :=
  let a := s.memVal (addr + 16) 8
  let nodes := min (s.memVal (a + 24) 4) 65536
  let edges := min (s.memVal (a + 32) 4) 262144
  if nodes < 2 ∨ 262144 ≤ edges then s
  else
    let (e, s) := s.drawMany 227
    let (c, s) := s.drawMany (scheduleDraws nodes)
    let vars := itemsOf (s.readMem (a + 64) (64 * nodes)) 64 nodes
    let facts := itemsOf (s.readMem (a + up64 (64 + 64 * nodes)) (256 * edges)) 256 edges ++ [someEdge e nodes 0]
    let plan := compileSchedule c (structSig 2 vars [] facts) nodes
    (s.writeMem a (problemBytes 2 (s.memVal (a + 8) 8) 0 vars [] facts)).writeMem (s.memVal (addr + 40) 8) plan

/-- A schedule is compiled: the job enters the queue, or waits as the pending one; while one is pending, the closure is added to it. -/
def State.graphCompiled (s : State) : State :=
  if !s.isReady || s.dev.cpHalted[1] then s
  else match s.slv.waiting with
    | some a => s.addClosure a
    | none =>
      let (a, s) := s.writeGraph
      if s.slv.graph.isSome || s.slv.queue.getLsbD 0 then { s with slv := { s.slv with waiting := some a } }
      else s.enqueueGraph a

/-! ## The rows -/

/-- SLV_WINDOW (R267). -/
def execSlvWindow (s : State) : Host.Outcome State Fault Refusal :=
  .next (s.tryIssue .slv 0x10 (some .main) fun n s =>
    let desc := n.img.paramBytes n.op.argB 128
    let plan := s.objBytes (n.img.objects.getD (fieldAt desc 40 2) 0)
    (s.startOp .slv n .main 0 []).slvStart
      (s.readJob desc false (s.sched.spanStart.toNat + fieldAt desc 8 8 * 1000) plan))
/-- SLV_SERVICE (R268). -/
def execSlvService (s : State) : Host.Outcome State Fault Refusal :=
  .next (s.tryIssue .slv 0x11 (some .main) fun n s => State.slvServe 3 (s.startOp .slv n .main 0 []))
/-- SLV_COMMIT (R271): 2,064 cycles and 24 for each entry. -/
def execSlvCommit (s : State) : Host.Outcome State Fault Refusal :=
  .next (s.tryIssue .slv 0x12 (some .main) fun n s =>
    s.startOp .slv n .main (2064 + 24 * (s.commitList (n.arg 0 8)).length) [])
/-- SLV_ITERATION_END (R263). -/
def execSlvIterationEnd (chk : Check) (s : State) : Host.Outcome State Fault Refusal := .next (s.slvIterationEnd chk)
/-- SLV_DEADLINE_MISS (R264). -/
def execSlvDeadlineMiss (s : State) : Host.Outcome State Fault Refusal := .next s.slvMiss
/-- SLV_WINDOW_END (R268). -/
def execSlvWindowEnd (s : State) : Host.Outcome State Fault Refusal := .next s.slvWindowEnd
/-- GRAPH_SCHEDULE_COMPILED (R258). -/
def execGraphScheduleCompiled (s : State) : Host.Outcome State Fault Refusal := .next s.graphCompiled

end Sys2Proof.Machine
end

