-- ==== Sys2Proof/Machine/MapCmd.lean ====
section
/-!
DEFINITION. The MAP_ commands (R216, R218, R219, R268, R297, R357).
-/
namespace Sys2Proof.Machine

/-- The limits of the FP32 fields of MAP_CONFIG in its order, each the pattern nearest to the limit of the tables. -/
def mapLimits : List (Nat × Nat) := [
  (0x358637BD, 0x3F800000), (0, 0x3F7FF972), (0, 0x3F7FF972), (0x1E3CE508, 0x3A83126F), (0x358637BD, 0x49742400),
  (0, 0x447A0000), (0, 0x447A0000), (0, 0x447A0000), (0x3DCCCCCD, 0x42C80000), (0, 0x3F800000), (0, 0x3F800000),
  (0x3A83126F, 0x3F800000), (0x3A83126F, 0x3F800000), (0x4103126F, 0x4383126F)]

/-- Every field of MAP_CONFIG lies in its range. -/
def mapConfigOk (payload : List Byte) : Bool :=
  let fp (i : Nat) : Nat := fieldAt payload (4 * i) 4
  ((List.range 14).all fun i =>
    let l := mapLimits.getD i (0, 0)
    fp32.finite (fp i) && fp32.le l.1 (fp i) && fp32.le (fp i) l.2)
    && within (fieldAt payload 56 4) 10 10000 && within (fieldAt payload 60 4) 1000 3600000 && within (fieldAt payload 64 2) 1 64

/-- The parameters that a payload gives. -/
def mapParamsOf (payload : List Byte) : MapParams where
  fp := (List.range 14).map fun i => BitVec.ofNat 32 (fieldAt payload (4 * i) 4)
  loopDeadlineMs := fieldAt payload 56 4
  loopExcludeMs := fieldAt payload 60 4
  loopK := fieldAt payload 64 2

/-- MAP_CONFIG carried out. -/
def State.mapConfig (c : SubEntry) (s : State) : State :=
  let payload := c.bytes 0 66
  if mapConfigOk payload then s.addJob c (.mapConfig payload) else s.replyErr c errArg

/-- MAP_TRAIN carried out. -/
def State.mapTrain (c : SubEntry) (s : State) : State :=
  if 100 < c.p 0 1 then s.replyErr c errArg else s.addJob c (.mapTrain (c.p 0 1))

/-- MAP_ACRE_DELETE carried out: the acre leaves the directory at the next boundary, and is then freed. -/
def State.mapAcreDelete (c : SubEntry) (s : State) : State :=
  let key := c.p 0 6
  if (s.acre key).isNone then s.replyErr c errArg
  else
    let s := (s.addJob c (.acreDelete key false)).updAcre key fun a => { a with deleting := true }
    s.commitDirectory (s.fld.dirNext.filter fun d => decide (d.key ≠ key))

/-- MAP_STATUS carried out. -/
def State.mapStatus (c : SubEntry) (s : State) : State :=
  let jobs := b2n (s.slv.graph.isSome || s.slv.queue.getLsbD 0) + b2n s.slv.waiting.isSome
  s.reply c stOk s.fld.acres.length (s.fld.acres.filter (·.training)).length s.fus.frameId.toNat jobs

/-- A MAP_ command that waits for a boundary applied at it. -/
def State.applyMapJob (s : State) (j : Job) (dt : Nat) : State :=
  match j.kind with
  | .mapConfig p => State.completeJob { s with fld := { s.fld with paramsNext := mapParamsOf p, commitPending := true } } j stOk 0 0 0 0 dt
  | .mapTrain n => State.completeJob { s with fld := { s.fld with ceiling := n } } j stOk 0 0 0 0 dt
  | _ => s

/-- MAP_CONFIG (R216). -/
def execMapConfig (e : Entry) (s : State) : Host.Outcome State Fault Refusal := .next (s.serve 0x0701 e State.mapConfig)
/-- MAP_TRAIN (R218). -/
def execMapTrain (e : Entry) (s : State) : Host.Outcome State Fault Refusal := .next (s.serve 0x0702 e State.mapTrain)
/-- MAP_ACRE_DELETE (R219). -/
def execMapAcreDelete (e : Entry) (s : State) : Host.Outcome State Fault Refusal := .next (s.serve 0x0703 e State.mapAcreDelete)
/-- MAP_STATUS (R357). -/
def execMapStatus (e : Entry) (s : State) : Host.Outcome State Fault Refusal := .next (s.serve 0x0704 e State.mapStatus)

end Sys2Proof.Machine
end

