-- ==== Sys2Proof/Machine/PlaceCmd.lean ====
section
/-!
DEFINITION. The PLACE_ and SCENE_ commands (R275, R279, R285, R288, R290, R291, R358).
-/
namespace Sys2Proof.Machine

/-! ## Namespaces and handles -/

/-- A page that the room of an index counts: one of the flash shard in use. -/
def State.inShard (s : State) (p : FlashPage) : Bool :=
  match p.owner with
  | .shard h n => (s.psIndex h).any fun ix => decide (ix.serial = n)
  | _ => false

/-- The bytes of a partition's namespace in use: mapped pages, pages still to be written, the room of its indexes and the shards that they
compact into, and in partition 0 one generation of each acre and another of each that trains (R373). -/
def State.nsUsed (s : State) (p : Fin 4) : Nat :=
  let mapped := (s.mt.pages.filter fun x => decide (x.ns.val = p.val) && !s.inShard x).foldl (fun n x => n + 16384 * x.copies.length) 0
  let coming := (s.mt.objects.filter fun o => o.backed && decide (handlePart o.handle = p) && (s.objPages o.handle).isEmpty).foldl
    (fun n o => n + 16384 * ceilDiv o.size 16384 * (if o.mirror then 2 else 1)) 0
  let acres := if p ≠ 0 then 0 else s.fld.acres.foldl (fun n a =>
    n + (if (s.pagesFor (.acre a.key)).isEmpty then acreBytes else 0) + (if a.training then acreBytes else 0)) 0
  (s.ps.indexes.toList.filterMap id).foldl (fun n ix =>
    if ix.part = p then
      n + (ix.flashBytes + (if ix.compactOut.isSome then 16384 * ix.outPages.length else 0)) * (if ix.mirror then 2 else 1)
    else n) (mapped + coming + acres)

/-- A number for a new handle that none of a list bears: Rokan firmware assigns it, and the spec does not say how (log 7). -/
def State.newNumber (s : State) (used : List Nat) : Nat × State :=
  let (start, s) := s.drawBelow (2 ^ 24)
  let tries := (List.range (used.length + 1)).map fun k => (start + k) % 2 ^ 24
  ((tries.find? fun n => !decide (n ∈ used)).getD start, s)

/-- A handle of a partition and a type. -/
def handleOf (p : Fin 4) (type number : Nat) : Nat := p.val * 2 ^ 30 + type * 2 ^ 24 + number % 2 ^ 24

/-! ## PLACE_CREATE (R275, R279) -/

/-- The index that a command asks for, empty, at epoch 1. -/
def SubEntry.newIndex (c : SubEntry) (part : Fin 4) (handle : Nat) (tables : List Byte) : PsIndex where
  handle := handle
  part := part
  tables := tables
  dim := c.p 4 2
  codeBytes := c.p 6 1
  metric := c.p 7 1
  degree := c.p 8 1
  insertDegree := c.p 9 1
  insertL := c.p 10 2
  alpha := c.p 12 1
  spillHigh := c.p 13 1
  spillLow := c.p 14 1
  mirror := decide (c.p 15 1 = 1)
  dramCap := c.p 16 4
  flashBytes := c.p 20 8
  epoch := 1
  dramBase := none
  dram := []
  flash := []
  serial := 0
  oldFlash := []
  located := 0
  changed := false
  spillOut := none
  compactOut := none
  written := false
  spilling := false
  nextId := 1
  queue := []
  fresh := []
  tombs := []
  poisoned := false
  destroying := false
  insertRetried := false
  spanFile := 0
  spanEdges := 0
  spanFull := 0
  spanExpired := 0

/-- The parameters lie in their ranges, and a flash record takes at most 4,096 B. -/
def PsIndex.inRange (ix : PsIndex) (mirror : Nat) : Bool :=
  decide (ix.codeBytes = 16 ∨ ix.codeBytes = 32 ∨ ix.codeBytes = 64) && within ix.dim 8 512 && decide (ix.dim % ix.codeBytes = 0)
    && decide (ix.metric ≤ 1) && within ix.degree 8 64 && within ix.insertDegree 4 ix.degree && within ix.insertL 16 256
    && within ix.alpha 64 128 && within ix.spillHigh 1 100 && within ix.spillLow 1 100 && decide (ix.spillLow < ix.spillHigh)
    && decide (mirror ≤ 1) && decide (ix.dramCap ≤ 33554432) && decide (32 + ix.codeBytes + ix.degree * (8 + ix.codeBytes) ≤ 4096)

/-- An object that a command names: its status where it cannot be used. -/
def State.objFails (s : State) (c : SubEntry) (h : Nat) : Option Nat :=
  if handlePart h ≠ s.partOf c then some errPartition
  else match s.obj h with
    | none => some errArg
    | some o => if o.poisoned then some errPoisoned else if o.whole && !o.freeing then none else some errArg

/-- PLACE_CREATE carried out. -/
def State.placeCreate (c : SubEntry) (s : State) : State :=
  let p := s.partOf c
  let th := c.p 0 4
  let ix := c.newIndex p 0 (s.objBytes th)
  let open_ := s.ps.indexes.toList.filterMap id
  match s.objFails c th with
  | some e => s.replyErr c e
  | none =>
    if handleType th ≠ 0x09 ∨ ix.tables.length ≠ 512 * ix.dim + 131072 * ix.codeBytes ∨ !ix.inRange (c.p 15 1) then s.replyErr c errArg
    else if s.poolFree p false < ix.dramPages ∨ s.sec.grants[p].flashBytes < s.nsUsed p + ix.flashBytes * (if ix.mirror then 2 else 1)
        ∨ 4 ≤ (open_.filter fun x => decide (x.part = p)).length then s.replyErr c errNoResource
    else match (List.finRange 16).find? fun i => s.ps.indexes[i].isNone with
      | none => s.replyErr c errNoResource
      | some i =>
        let (base, s) := if ix.dramPages = 0 then (none, s) else s.freeRun p 0 ix.dramPages
        if ix.dramPages ≠ 0 ∧ base.isNone then s.replyErr c errNoResource else
        let (n, s) := s.newNumber ((open_.filter fun x => decide (x.part = p)).map fun x => x.handle % 2 ^ 24)
        let h := handleOf p 0x10 n
        let new : PsIndex := { ix with handle := h, dramBase := base }
        let s := (base.toList).foldl (fun (s : State) (b : Nat) => s.fillRun b (65536 * ix.dramPages) []) s
        let s := { s with ps := { s.ps with indexes := s.ps.indexes.set i (some new) } }
        s.reply c stOk h 0 0 0

/-- The index that a command names, or the status that turns it away: poisoned indexes answer only where the caller allows
it (R275, R294, R308). -/
def State.indexFor (s : State) (c : SubEntry) (h : Nat) (poisonOk : Bool) : Except Nat PsIndex :=
  if handleType h ≠ 0x10 then .error errArg
  else if handlePart h ≠ s.partOf c then .error errPartition
  else match s.psIndex h with
    | none => .error errArg
    | some ix =>
      if ix.poisoned && !poisonOk then .error errPoisoned
      else if ix.destroying && !poisonOk then .error errArg
      else .ok ix

/-! ## Queries (R277, R285, R287) -/

/-- The descriptor's fields lie in their ranges. -/
def queryInRange (d : List Byte) : Bool :=
  let f (off n : Nat) : Nat := fieldAt d off n
  within (f 6 2) 16 1024 && within (f 4 2) 1 (min 256 (f 6 2)) && within (f 8 1) 1 8 && within (f 9 1) 1 3 && decide (f 10 2 < 16)
    && decide (f 12 4 ≤ 600000) && decide (f 18 1 ≠ 0) && decide (f 19 1 = 0) && (d.drop 48).all fun b => decide (b = 0)

/-- A query of a descriptor and a vector accepted, or turned away; its result goes to an offset of the command's bulk range. With a
camera in `awaits` the vector is that of the camera's next keyframe, and comes later. -/
def State.submitQuery (s : State) (c : SubEntry) (desc vec : List Byte) (outOffset : Nat) (lastSeen : Bool) (awaits : Option Nat) : State :=
  match s.indexFor c (fieldAt desc 0 4) false with
  | .error e => s.replyErr c e
  | .ok ix =>
    let need := outOffset + 32 + 32 * fieldAt desc 4 2
    let vecBad : Bool := decide (vec.length < 2 * ix.dim) || (halves (vec.take (2 * ix.dim))).any fun v => !fp16.finite v
    if !queryInRange desc ∨ c.entry.bulkLength.toNat < need ∨ (awaits.isNone && vecBad) then s.replyErr c errArg
    else
      let n := s.ps.nextQuery
      let q : PsQuery := {
        num := n, desc := desc, vec := vec.take (2 * ix.dim), submitDt := s.dtNs
        outOffset := c.entry.bulkOffset.toNat + outOffset, awaits := awaits, lastSeen := lastSeen, taken := none, widened := false, rounds := 0, blocks := 0
        queue := [], visited := [], round := [], walking := false, scanned := false, scanning := false }
      let s := { s with ps := { s.ps with nextQuery := n + 1, queries := s.ps.queries ++ [q] } }
      (s.addJob c (.placeQuery n)).takeBatch

/-- PLACE_QUERY carried out. -/
def State.placeQuery (c : SubEntry) (s : State) : State := s.submitQuery c (c.bytes 0 128) (s.bulkIn c) (c.p 128 4) false none

/-- A descriptor that the object memory builds: index, `K`, `QUEUE_L`, `BEAM`, `TIERS`, `Q_FLAGS`, wait, label and kinds. -/
def buildDesc (index k l beam tiers flags wait label kinds : Nat) : List Byte :=
  natLe 4 index ++ natLe 2 k ++ natLe 2 l ++ natLe 1 beam ++ natLe 1 tiers ++ natLe 2 flags ++ natLe 4 wait ++ natLe 2 label
    ++ natLe 1 kinds ++ List.replicate 109 0

/-- The loop-closure query that Rokan firmware issues for a new keyframe: both tiers, `LOOP_K` results of kind 0, seen no later
than `LOOP_EXCLUDE_MS` before the keyframe (R297). Which index of partition 0 it asks, the keyframe's descriptor and the settings
that the rule does not give are free values (log 59). -/
def State.loopQuery (s : State) : State :=
  let mine := s.ps.indexes.toList.filterMap fun (x : Option PsIndex) => x.filter fun i =>
    decide (i.part = 0) && !i.destroying && !i.poisoned
  if mine.isEmpty then s
  else
    let (which, s) := s.drawBelow mine.length
    match mine[which]? with
    | none => s
    | some ix =>
      let k := s.fld.params.loopK
      let (extra, s) := s.drawBelow 1009
      let (beam, s) := s.drawBelow 8
      let (wait, s) := s.drawBelow 600001
      let (vec, s) := s.drawVec ix.dim
      let desc := buildDesc ix.handle k (max k (16 + extra)) (beam + 1) 3 0 wait 0 1
      let last := max 1 (s.dtNs - s.fld.params.loopExcludeMs * 1000000)
      let q : PsQuery := {
        num := s.ps.nextQuery, desc := desc.take 40 ++ natLe 8 last ++ desc.drop 48, vec := vec, submitDt := s.dtNs, outOffset := 0
        awaits := none, lastSeen := false, taken := none, widened := false, rounds := 0, blocks := 0, queue := [], visited := [], round := []
        walking := false, scanned := false, scanning := false }
      { s with ps := { s.ps with nextQuery := s.ps.nextQuery + 1, queries := s.ps.queries ++ [q] } }

/-- SCENE_LAST_SEEN carried out: the query that the worked example of chapter 12 builds from such a request, in the DRAM
shard with `QUEUE_L` 128. -/
def State.sceneLastSeen (c : SubEntry) (s : State) : State :=
  let k := c.p 6 2
  s.submitQuery c (buildDesc (c.p 0 4) k (max 128 k) 1 1 1 (c.p 8 4) (c.p 4 2) 2) (s.bulkIn c) (c.p 12 4) true none

/-- SCENE_RESEMBLE carried out: with `SOURCE` 0 the query waits for the place descriptor of the camera's next keyframe (log 64).
`QUEUE_L` and `BEAM` are free values, for the spec does not give them (log 7). -/
def State.sceneResemble (c : SubEntry) (s : State) : State :=
  let k := c.p 6 2
  let (extra, s) := s.drawBelow 1009
  let (beam, s) := s.drawBelow 8
  let desc := buildDesc (c.p 0 4) k (max k (16 + extra)) (beam + 1) (c.p 8 1) 0 (c.p 12 4) 0 1
  match c.p 4 1 with
  | 0 => s.submitQuery c desc [] (c.p 16 4) false (some (c.p 5 1))
  | 1 => s.submitQuery c desc (s.bulkIn c) (c.p 16 4) false none
  | _ => s.replyErr c errArg

/-- The live contexts of a partition's objects, by rising slot. -/
def State.objects (s : State) (p : Nat) : List (List Byte) :=
  s.liveContexts.filter fun c => decide (ctxKind c = 2 ∧ ctxOwner c = p)

/-- SCENE_IN_REGION carried out. -/
def State.sceneInRegion (c : SubEntry) (s : State) : State :=
  let label := c.p 0 2
  let found := (s.objects (s.partOf c).val).filter fun x =>
    decide (label = 0 ∨ ctxLabel x = label) && acreWithin (fieldAt x 88 6) (c.p 4 6) (c.p 10 6)
  s.replyList c 36 (found.map fun x =>
    natLe 4 (ctxHandle x) ++ natLe 4 0 ++ natLe 8 (fieldAt x 8 8) ++ (x.drop 40).take 12 ++ natLe 6 (fieldAt x 88 6) ++ natLe 2 0)

/-! ## Inserts, deletes, compaction and the end of an index (R288, R290, R291) -/

/-- The vector of a filing record. -/
def insertOf (dim : Nat) (job : Option (Fin 8 × Half)) (r : List Byte) : PsInsert where
  obsDt := fieldAt r 4 8
  track := fieldAt r 12 4
  label := fieldAt r 16 2
  kind := fieldAt r 18 1 % 8
  acre := fieldAt r 20 6
  vec := (r.drop 32).take (2 * dim)
  job := job

/-- PLACE_INSERT carried out. -/
def State.placeInsert (c : SubEntry) (s : State) : State :=
  match s.indexFor c (c.p 0 4) false with
  | .error e => s.replyErr c e
  | .ok ix =>
    let n := c.p 4 2
    let size := (32 + 2 * ix.dim + 63) / 64 * 64
    let recs := itemsOf (s.bulkIn c) size n
    if !within n 1 1024 ∨ c.entry.bulkLength.toNat < n * size ∨ (recs.any fun r => decide (7 < fieldAt r 18 1)) then s.replyErr c errArg
    else if 65536 < ix.queue.length + n then s.replyErr c errNoResource
    else
      let vs := recs.map (insertOf ix.dim (some (c.entry.mbx, c.entry.tag)))
      (s.addJob c (.placeInsert ix.handle n 0 n)).updIndex ix.handle fun i => { i with queue := i.queue ++ vs }

/-- The one flash read by which Rokan firmware finds a vector in its index's location table (R290): it counts as a read of its block. -/
def State.readLocation (s : State) (ix : PsIndex) (id : Nat) : State :=
  match (s.pagesFor (.location ix.handle)).find? fun p => decide (p.pos = 8 * (id - 1) / 16384) with
  | none => s
  | some p => ((p.copyOf false).toList).foldl (fun (s : State) c => s.updBlock c.die c.block fun b => { b with reads := b.reads + 1 }) s

/-- PLACE_DELETE carried out: a tombstone with the pending epoch. -/
def State.placeDelete (c : SubEntry) (s : State) : State :=
  match s.indexFor c (c.p 0 4) false with
  | .error e => s.replyErr c e
  | .ok ix =>
    let id := c.p 8 8
    let s := s.readLocation ix id
    let known := (ix.dram.any fun r => decide (r.id = id) && !r.reclaimed) || ix.flash.any fun r => decide (r.id = id)
    if !known ∨ (ix.tombs.any fun t => decide (t.1 = id)) then s.replyErr c errArg
    else if 65536 ≤ (ix.tombs.filter fun t => decide (ix.epoch < t.2)).length then s.replyErr c errNoResource
    else
      (s.addJob c (.placeDelete ix.handle id)).updIndex ix.handle fun i => { i with
        tombs := i.tombs ++ [(id, i.epoch + 1)], changed := true }

/-- The bytes of a namespace that a compacted shard would take at most: the live vectors, each copy of them. -/
def PsIndex.compactBytes (ix : PsIndex) : Nat :=
  16384 * ceilDiv (ceilDiv (ix.flash.filter fun r => !ix.gone r (ix.epoch + 1)).length ix.perBlock) 4 * (if ix.mirror then 2 else 1)

/-- PLACE_COMPACT carried out: the new shard needs free space in the namespace (R291, R373). -/
def State.placeCompact (c : SubEntry) (s : State) : State :=
  match s.indexFor c (c.p 0 4) false with
  | .error e => s.replyErr c e
  | .ok ix =>
    if s.sec.grants[ix.part].flashBytes < s.nsUsed ix.part + ix.compactBytes then s.replyErr c errNoResource
    else (s.addJob c (.placeCompact ix.handle)).startCompaction ix.handle

/-- PLACE_DESTROY carried out. -/
def State.placeDestroy (c : SubEntry) (s : State) : State :=
  match s.indexFor c (c.p 0 4) true with
  | .error e => s.replyErr c e
  | .ok ix =>
    ((s.addJob c (.placeDestroy ix.handle)).updIndex ix.handle fun i => { i with destroying := true }).destroyIdle ix.handle

/-- PLACE_STATUS carried out. -/
def State.placeStatus (c : SubEntry) (s : State) : State :=
  match s.indexFor c (c.p 0 4) true with
  | .error e => s.replyErr c e
  | .ok ix => s.reply c stOk (ix.epoch % 2 ^ 32) ix.dramCount ix.flash.length ix.queue.length

/-! ## The rows -/

/-- PLACE_CREATE (R275). -/
def execPlaceCreate (e : Entry) (s : State) : Host.Outcome State Fault Refusal := .next (s.serve 0x0801 e State.placeCreate)
/-- PLACE_QUERY (R285). -/
def execPlaceQuery (e : Entry) (s : State) : Host.Outcome State Fault Refusal := .next (s.serve 0x0802 e State.placeQuery)
/-- PLACE_INSERT (R288). -/
def execPlaceInsert (e : Entry) (s : State) : Host.Outcome State Fault Refusal := .next (s.serve 0x0803 e State.placeInsert)
/-- PLACE_DELETE (R290). -/
def execPlaceDelete (e : Entry) (s : State) : Host.Outcome State Fault Refusal := .next (s.serve 0x0804 e State.placeDelete)
/-- PLACE_COMPACT (R291). -/
def execPlaceCompact (e : Entry) (s : State) : Host.Outcome State Fault Refusal := .next (s.serve 0x0805 e State.placeCompact)
/-- PLACE_DESTROY (R358). -/
def execPlaceDestroy (e : Entry) (s : State) : Host.Outcome State Fault Refusal := .next (s.serve 0x0806 e State.placeDestroy)
/-- PLACE_STATUS (R358). -/
def execPlaceStatus (e : Entry) (s : State) : Host.Outcome State Fault Refusal := .next (s.serve 0x0807 e State.placeStatus)
/-- SCENE_LAST_SEEN (R358). -/
def execSceneLastSeen (e : Entry) (s : State) : Host.Outcome State Fault Refusal := .next (s.serve 0x0901 e State.sceneLastSeen)
/-- SCENE_RESEMBLE (R358). -/
def execSceneResemble (e : Entry) (s : State) : Host.Outcome State Fault Refusal := .next (s.serve 0x0902 e State.sceneResemble)
/-- SCENE_IN_REGION (R358). -/
def execSceneInRegion (e : Entry) (s : State) : Host.Outcome State Fault Refusal := .next (s.serve 0x0903 e State.sceneInRegion)

end Sys2Proof.Machine
end

