-- ==== Sys2Proof/Machine/Sec.lean ====
section
/-!
DEFINITION. The security processor: signatures, lifecycle, firmware images, namespace keys, attestation and debug
(chapter 18).
-/
namespace Sys2Proof.Machine

/-! ## Signature blocks (R397, R398) -/

/-- The bytes of a signature block. -/
def sigBytes : Nat := 5748
/-- What `Config.crypto` makes: a fused key hash; the hash of the identity keys; the digests of the security processor's and of
Rokan firmware in a bundle; an ECDSA and an HSS signature of the device; the identity certificates; a firmware version. -/
def cryptoKeyHash : Nat := 0x1201
/-- the hash of the identity keys -/
def cryptoIdHash : Nat := 0x1202
/-- the digest of the security processor's firmware -/
def cryptoSpDigest : Nat := 0x1203
/-- the digest of Rokan firmware -/
def cryptoFwDigest : Nat := 0x1204
/-- an ECDSA signature by the device -/
def cryptoEcdsa : Nat := 0x1205
/-- an HSS signature by the device -/
def cryptoHss : Nat := 0x1206
/-- the identity certificates -/
def cryptoCerts : Nat := 0x1207
/-- the version that FW_STATUS shows of a bundle -/
def cryptoVersion : Nat := 0x1208


/-- Fused key hash `k` of the device: two of class 0, one of class 2 and one of class 3 (R398). -/
def fusedHash (k : Nat) : List Byte := exactly 48 (Config.crypto cryptoKeyHash [BitVec.ofNat 8 k])

/-- The fused hashes of a class that are not revoked. -/
def Security.hashesOf (x : Security) (cls : Nat) : List (List Byte) :=
  match cls with
  | 0 => (if x.revoked.getLsbD 0 then [] else [fusedHash 0]) ++ (if x.revoked.getLsbD 1 then [] else [fusedHash 1])
  | 1 => x.ownerHash.toList
  | 2 => [fusedHash 2]
  | 3 => [fusedHash 3]
  | _ => []

/-- Why an item's signature block is not accepted: 0 key hash, 1 ECDSA, 2 HSS; none when it is. A block that is malformed, or
whose digest is not that of the content, is covered by no signature, and counts with ECDSA (log 41). -/
def Security.sigFails (x : Security) (classes : List Nat) (item : List Byte) : Option Nat :=
  let content := item.take (item.length - sigBytes)
  let b := item.drop (item.length - sigBytes)
  let cls := fieldAt b 6 1
  let m := sha384 (b.take 256)
  let pubs := (b.drop 72).take 156
  if item.length < sigBytes then some 0
  else if cls ∉ classes ∨ sha384 pubs ∉ x.hashesOf cls then some 0
  else if fieldAt b 0 4 ≠ 0x4E474953 ∨ fieldAt b 4 2 ≠ 1 ∨ fieldAt b 16 8 ≠ content.length ∨ (b.drop 24).take 48 ≠ sha384 content
    ∨ ((b.drop 7).take 1 ++ (b.drop 10).take 6 ++ (b.drop 228).take 28).any fun v => decide (v ≠ 0) then some 1
  else if !Config.verifies 1 (m ++ (b.drop 72).take 96 ++ (b.drop 256).take 96) then some 1
  else if !Config.verifies 2 (m ++ (b.drop 168).take 60 ++ (b.drop 352).take 5396) then some 2
  else none

/-- `KEY_CLASS` of an item's block. -/
def sigClass (item : List Byte) : Nat := fieldAt (item.drop (item.length - sigBytes)) 6 1
/-- `SVN` of an item's block. -/
def sigSvn (item : List Byte) : Nat := fieldAt (item.drop (item.length - sigBytes)) 8 2

/-- `SEC_AUTH_FAIL`. -/
def State.authFail (s : State) (item : List Byte) (kind cause : Nat) : State := s.event 0x12 0x1202 (sigClass item) kind cause

/-! ## Firmware images (R401 to R403, R438, R439) -/

/-- The classes whose firmware the lifecycle accepts (R399). -/
def Security.fwClasses (x : Security) : List Nat := if x.lifecycle = .manufacture then [0, 2, 3] else [0]

/-- What the check of a bundle gives: passed, a bad signature, an `SVN` above the width of a counter or below its value. -/
inductive FwVerdict where
  | passed
  | auth (cause : Nat)
  | width
  | rollback (counter : Nat)
  deriving DecidableEq, Repr

/-- A bundle checked under R398 and R401. Its `SVN` is held against the counters of the two firmwares that it holds
(log 42). -/
def Security.fwCheck (x : Security) (item : List Byte) : FwVerdict :=
  match x.sigFails x.fwClasses item with
  | some c => .auth c
  | none =>
    if 24 < sigSvn item then .width
    else if sigSvn item < x.rollback[0] then .rollback 0
    else if sigSvn item < x.rollback[1] then .rollback 1
    else .passed

/-- A slot holds a whole image that passes. -/
def Security.slotPasses (x : Security) (i : Fin 2) : Bool :=
  decide (x.slots[i].bytes.length = x.slots[i].total ∧ x.fwCheck x.slots[i].bytes = .passed)

/-- The events of a bundle that did not pass. -/
def State.fwRefused (s : State) (item : List Byte) : State :=
  match s.sec.fwCheck item with
  | .auth c => s.authFail item 0 c
  | .rollback k => s.event 0x12 0x1203 k (sigSvn item) (s.sec.rollback.toList.getD k 0)
  | _ => s

/-- The slot that FW_WRITE writes: the inactive one, or in RECOVERY the one that failed, slot A if both did. -/
def State.writeSlot (s : State) : Fin 2 :=
  if s.dev.phase = .recovery then (if s.sec.slotFailed[1] && !s.sec.slotFailed[0] then 1 else 0)
  else if s.dev.fwSlot then 0 else 1

/-- An item of 5,828 bytes is a lifecycle record: 80 bytes and a signature block (R400, log 43). -/
def recordBytesTotal : Nat := 80 + sigBytes

/-- FW_WRITE carried out: pieces come in order (log 43). -/
def State.fwWrite (c : SubEntry) (s : State) : State :=
  let off := c.p 0 4
  let total := c.p 4 4
  let piece := s.bulkIn c
  let have_ := if off = 0 then [] else s.sec.staged.bytes
  if off + piece.length ≤ total ∧ (off = 0 ∨ (off = have_.length ∧ total = s.sec.staged.total))
      ∧ !(s.dev.hostPortBoot ∧ 0x4000000 < total) then
    let img : FwImage := { bytes := have_ ++ piece, total := total }
    let s := { s with sec := { s.sec with staged := img } }
    let s :=
      if total = recordBytesTotal then s
      else if s.dev.phase = .recovery && s.dev.hostPortBoot then { s with sec := { s.sec with hostImage := img } }
      else { s with sec := { s.sec with slots := s.sec.slots.set s.writeSlot img } }
    s.replyOk c
  else s.replyErr c errArg

/-- The number of a lifecycle state (R399). -/
def Lifecycle.code : Lifecycle → Nat
  | .manufacture => 1
  | .provisioned => 2
  | .owned => 3
  | .decommissioned => 4

/-- The state after one, with the class that signs the record that moves to it. -/
def Lifecycle.next : Lifecycle → Option (Lifecycle × Nat)
  | .manufacture => some (.provisioned, 3)
  | .provisioned => some (.owned, 3)
  | .owned => some (.decommissioned, 1)
  | .decommissioned => none

/-- A lifecycle record activated (R400). -/
def State.activateRecord (s : State) (c : SubEntry) (item : List Byte) : State :=
  let target := fieldAt item 16 1
  let cls := if target = 4 then 1 else 3
  let zero (o n : Nat) : Bool := ((item.drop o).take n).all fun b => decide (b = 0)
  match s.sec.sigFails [cls] item with
  | some cause => (s.authFail item 2 cause).replyErr c errAuth
  | none =>
    if item.take 16 ≠ s.sec.serial ∨ !zero 17 15 ∨ (target ≠ 3 ∧ !zero 32 48) then s.replyErr c errArg
    else match s.sec.lifecycle.next with
      | some (l, _) =>
        if l.code = target then
          let old := s.sec.lifecycle.code
          let s := { s with sec := { s.sec with
            lifecycle := l, ownerHash := if target = 3 then some ((item.drop 32).take 48) else s.sec.ownerHash } }
          (s.event 0x12 0x1206 old target 0).replyOk c
        else s.replyErr c errLocked
      | none => s.replyErr c errLocked

/-- An image that passed is activated: preferred from now on, or in a host-port boot started at once (R403, R439). -/
def State.activateImage (s : State) (item : List Byte) : State :=
  if s.dev.phase = .recovery && s.dev.hostPortBoot then
    let s := { s with sec := { s.sec with keptCopy := item, keptHost := true, keptSlot := false, reloadNand := false } }
    let s := { s with dev := { s.dev with fwSlot := false, phase := .fwStart } }
    ((s.closeMbx 0).raiseIrq irqState).event 0x12 0x1201 0 (sigSvn item) 1
  else
    let tov : Bool := decide (s.writeSlot = 1)
    { s with sec := { s.sec with preferred := tov, reloadNand := s.sec.reloadNand || decide (s.sec.preferred ≠ tov) } }

/-- FW_ACTIVATE carried out. -/
def State.fwActivate (c : SubEntry) (s : State) : State :=
  let item := s.sec.staged.bytes
  let whole := decide (item.length = s.sec.staged.total ∧ 0 < item.length)
  let record := decide (item.length = recordBytesTotal)
  let s' := { s with sec := { s.sec with staged := FwImage.empty } }
  if !whole then s.replyErr c errArg
  else if record then s'.activateRecord c item
  else match s.sec.fwCheck item with
    | .passed => (s'.replyOk c).activateImage item
    | .width => s'.replyErr c errArg
    | .rollback _ => (s'.fwRefused item).replyErr c errRollback
    | .auth _ =>
      let s := s'.fwRefused item
      let s :=
        if s.dev.phase = .recovery && s.dev.hostPortBoot then { s with sec := { s.sec with hostImage := FwImage.empty } }
        else { s with sec := { s.sec with slots := s.sec.slots.set s.writeSlot FwImage.empty } }
      s.replyErr c errAuth

/-- The version of a slot's image, whose place in the bundle the spec does not give (log 10). -/
def fwVersion (img : FwImage) : Nat := fieldAt (Config.crypto cryptoVersion img.bytes) 0 4

/-- FW_STATUS carried out. -/
def State.fwStatus (c : SubEntry) (s : State) : State :=
  s.reply c stOk (fwVersion s.sec.slots[0]) (fwVersion s.sec.slots[1]) (b2n s.dev.fwSlot) 0

/-- Each counter raised to the lesser `SVN` of the slots that verify, at each entry to READY (R401). -/
def State.raiseCounters (s : State) : State :=
  let svns := ((List.finRange 2).filter fun i => s.sec.slotPasses i).map fun i => sigSvn s.sec.slots[i].bytes
  match svns with
  | [] => s
  | v :: vs =>
    let least := vs.foldl min v
    [0, 1].foldl (fun (s : State) (k : Fin 3) =>
      let old := s.sec.rollback[k]
      if old < least then
        State.event { s with sec := { s.sec with rollback := s.sec.rollback.set k least } } 0x12 0x1205 k.val old least
      else s) s

/-! ## Namespace keys (R318 to R320, R404) -/

/-- The namespace of a command, if the caller may name it: its own, or 4 for partition 0. -/
def State.nsOf (s : State) (c : SubEntry) : Option (Fin 5) :=
  if h : c.p 0 1 < 5 then
    let p := s.partOf c
    if c.p 0 1 = p.val ∨ (c.p 0 1 = 4 ∧ p = 0) then some ⟨c.p 0 1, h⟩ else none
  else none

/-- The valid physical pages of a namespace. -/
def State.nsPages (s : State) (n : Fin 5) : Nat :=
  (s.mt.pages.filter fun p => decide (p.ns = n)).foldl (fun m p => m + p.copies.length) 0

/-- KEY_ROTATE carried out: refused while old-epoch pages remain; pages are old, too, once a rotation is accepted. -/
def State.rotateKey (c : SubEntry) (s : State) : State :=
  match s.nsOf c with
  | none => s.replyErr c (if c.p 0 1 < 5 then errPartition else errArg)
  | some n =>
    let waits := s.fw.jobs.any fun j => match j.kind with | .keyRotate m => decide (m = n.val) | _ => false
    let left := if waits then s.nsPages n else s.oldPages n
    if left ≠ 0 then s.reply c errBusyRekey 0 left 0 0
    else if !s.sec.rngOk then
      let (v, s) := s.draw 32
      s.reply c errInternal v.toNat 0 0 0
    else s.addJob c (.keyRotate n.val)

/-- The epoch after one: 0 is never used (R319). -/
def nextEpoch (e : Nat) : Nat := if e = 65535 then 1 else e + 1

/-- A new key takes the slot that is not current (R318, R320). -/
def NsKeys.rotate (k : NsKeys) (key : List Byte) : NsKeys :=
  { epoch := nextEpoch k.epoch, old := some k.epoch, zeroised := k.zeroised, slots := k.slots.set k.other key, current := k.other }

/-- Rotations apply at a boundary (R320). -/
def State.keyBoundary (s : State) (dt : Nat) : State :=
  s.fw.jobs.foldl (fun (s : State) (j : Job) =>
    match j.kind with
    | .keyRotate m =>
      if h : m < 5 then
        let n : Fin 5 := ⟨m, h⟩
        let (key, s) := s.drawBytes 64
        let s := { s with sec := { s.sec with keys := s.sec.keys.set n (s.sec.keys[n].rotate key) } }
        let left := s.oldPages n
        let e := s.sec.keys[n].epoch
        let s := if s.mt.evtFlash then s.event 0x0E 0x0E06 m e left else s
        (s.completeJob j stOk e left 0 0 dt).zeroiseOld n
      else s
    | _ => s) s

/-- KEY_STATUS carried out. -/
def State.keyStatus (c : SubEntry) (s : State) : State :=
  match s.nsOf c with
  | none => s.replyErr c (if c.p 0 1 < 5 then errPartition else errArg)
  | some n => s.reply c stOk s.sec.keys[n].epoch (s.oldPages n) 0 0

/-! ## Attestation (R409, R410) -/

/-- The debug byte of the report. -/
def Security.debugByte (x : Security) : Nat :=
  (if x.lifecycle = .manufacture ∨ x.lifecycle = .decommissioned then 3 else x.debugLevel) + (if x.debugDisable then 0x80 else 0)

/-- The 64 fuse bits of the thermometer counters (R401). -/
def Security.fuseBits (x : Security) : Nat :=
  (2 ^ x.rollback[0] - 1) + (2 ^ x.rollback[1] - 1) * 2 ^ 24 + (2 ^ x.rollback[2] - 1) * 2 ^ 48

/-- A partition's entry. -/
def State.partEntry (s : State) (p : Fin 4) : List Byte :=
  let g := s.sec.grants[p]
  let k := s.sec.keys.toList.getD p.val NsKeys.reset
  exactly 64 (natLe 1 p.val ++ natLe 1 g.state ++ natLe 1 g.coreMask.toNat ++ natLe 1 g.mbxMask.toNat ++ natLe 2 g.poolBase
    ++ natLe 2 g.poolPecks ++ natLe 8 g.dramBase ++ natLe 8 g.dramBytes ++ natLe 8 g.flashBytes ++ natLe 2 k.epoch
    ++ natLe 2 (k.old.getD 0) ++ natLe 2 g.trigMask.toNat ++ natLe 2 0 ++ natLe 4 g.chanMask.toNat)

/-- The image entries that a partition sees: partition 0 sees all. -/
def State.imageEntries (s : State) (p : Fin 4) : List (List Byte) :=
  (List.finRange 64).filterMap fun i => (s.sched.slots[i]).bind fun img =>
    if p = 0 ∨ img.partition = p then
      some (exactly 64 (natLe 1 i.val ++ natLe 1 img.partition.val ++ natLe 1 img.rung ++ natLe 1 img.variantKind
        ++ natLe 4 img.buildId ++ exactly 48 img.digest))
    else none

/-- The model entries that a partition sees. -/
def State.modelEntries (s : State) (p : Fin 4) : List (List Byte) :=
  (s.mt.objects.filter fun o => o.loaded && decide (handleType o.handle ≤ 2) && (decide (p = 0) || decide (handlePart o.handle = p))).map
    fun o => exactly 64 (natLe 4 o.handle ++ natLe 4 o.size ++ sha384 o.bytes)

/-- The signed part of a report. -/
def State.reportBody (s : State) (p : Fin 4) (nonce : List Byte) : List Byte :=
  let imgs := s.imageEntries p
  let models := s.modelEntries p
  let x := s.sec
  let fuse := x.revoked.toNat + 4 * b2n x.ownerHash.isSome + 8 * b2n x.bootLock
  let head := natLe 4 0x54535441 ++ natLe 2 1 ++ natLe 2 imgs.length ++ natLe 4 models.length
    ++ natLe 4 (576 + 64 * (imgs.length + models.length)) ++ exactly 16 x.serial ++ exactly 48 (Config.crypto cryptoIdHash [])
    ++ exactly 32 nonce ++ natLe 8 s.dtNs ++ natLe 1 x.lifecycle.code ++ natLe 1 x.debugByte ++ natLe 1 (b2n s.dev.fwSlot)
    ++ natLe 5 0 ++ natLe 8 x.fuseBits ++ natLe 8 fuse ++ natLe 48 0 ++ exactly 48 (Config.crypto cryptoSpDigest x.keptCopy)
    ++ exactly 48 (Config.crypto cryptoFwDigest x.keptCopy) ++ natLe 32 0
  head ++ (List.finRange 4).flatMap s.partEntry ++ imgs.flatMap id ++ models.flatMap id

/-- A leaf taken, with a block of 1,024 reserved before its first use (R410). -/
def Security.takeLeaf (x : Security) : Security :=
  { x with leafReserved := if x.leafNext < x.leafReserved then x.leafReserved else x.leafReserved + 1024, leafNext := x.leafNext + 1 }

/-- ATTEST_REPORT carried out. -/
def State.attest (c : SubEntry) (s : State) : State :=
  let recent := s.sec.reports.filter fun t => decide (s.dtNs < t + 1000000000)
  if !s.sec.rngOk then
    let (v, s) := s.draw 32
    s.reply c errInternal v.toNat 0 0 0
  else if 2 ^ 30 ≤ s.sec.leafNext ∨ 10 ≤ recent.length then s.replyErr c errNoResource
  else
    let body := s.reportBody (s.partOf c) (c.bytes 0 32)
    let d := sha384 body
    let report := body ++ exactly 96 (Config.crypto cryptoEcdsa d)
      ++ exactly 5396 (Config.crypto cryptoHss (natLe 4 s.sec.leafNext ++ d))
    if c.entry.bulkLength.toNat < report.length then s.replyErr c errArg
    else
      let s := { s with sec := { s.sec.takeLeaf with reports := recent ++ [s.dtNs] } }
      s.replyOut c report report.length 0 0 0

/-- ATTEST_CERTS carried out. -/
def State.attestCerts (c : SubEntry) (s : State) : State :=
  let certs := Config.crypto cryptoCerts []
  s.replyOut c certs certs.length 0 0 0

/-! ## Debug (R411) -/

/-- The security processor runs. -/
def State.secRuns (s : State) : Bool := !s.dev.inReset && decide (s.dev.phase ≠ .parked)

/-- The challenge register read. -/
def State.readChallenge (s : State) : State :=
  if !s.secRuns then s
  else
    let (v, s) := s.drawBytes 32
    { s with sec := { s.sec with challenge := some v } }

/-- The class that signs a debug token in the present lifecycle state (R399). -/
def Security.tokenClass (x : Security) : Nat := if x.lifecycle = .owned then 1 else Config.gortaifTokenClass

/-- A token is as R411 asks. -/
def State.tokenOk (s : State) (t : List Byte) : Bool :=
  let level := fieldAt t 48 1
  decide (t.length = 64 + sigBytes ∧ t.take 16 = s.sec.serial ∧ s.sec.challenge = some ((t.drop 16).take 32)
    ∧ (level = 1 ∨ level = 2) ∧ ((t.drop 49).take 15).all (fun b => decide (b = 0)))
  && !(decide (level = 2) && s.isReady && s.schedOn) && (s.sec.sigFails [s.sec.tokenClass] t).isNone

/-- A token written. -/
def State.writeToken (s : State) (t : List Byte) : State :=
  if !s.secRuns || s.sec.debugDisable || decide (3 ≤ s.sec.refusals) then s
  else
    let level := fieldAt t 48 1
    if s.tokenOk t then
      State.event { s with sec := { s.sec with debugLevel := level } } 0x12 0x120A level 0 s.sec.refusals
    else
      let s := match s.sec.sigFails [s.sec.tokenClass] t with
        | some cause => s.authFail t 3 cause
        | none => s
      let n := s.sec.refusals + 1
      State.event { s with sec := { s.sec with refusals := n } } 0x12 0x120A level 1 n

/-! ## The rows -/

/-- FW_WRITE (R403). -/
def execFwWrite (e : Entry) (s : State) : Host.Outcome State Fault Refusal := .next (s.serve 0x0F01 e State.fwWrite)
/-- FW_ACTIVATE (R403). -/
def execFwActivate (e : Entry) (s : State) : Host.Outcome State Fault Refusal := .next (s.serve 0x0F02 e State.fwActivate)
/-- FW_STATUS (R356). -/
def execFwStatus (e : Entry) (s : State) : Host.Outcome State Fault Refusal := .next (s.serve 0x0F03 e State.fwStatus)
/-- KEY_ROTATE (R320). -/
def execKeyRotate (e : Entry) (s : State) : Host.Outcome State Fault Refusal := .next (s.serve 0x0D01 e State.rotateKey)
/-- KEY_STATUS (R356). -/
def execKeyStatus (e : Entry) (s : State) : Host.Outcome State Fault Refusal := .next (s.serve 0x0D02 e State.keyStatus)
/-- ATTEST_REPORT (R409). -/
def execAttestReport (e : Entry) (s : State) : Host.Outcome State Fault Refusal := .next (s.serve 0x0E01 e State.attest)
/-- ATTEST_CERTS (R409). -/
def execAttestCerts (e : Entry) (s : State) : Host.Outcome State Fault Refusal := .next (s.serve 0x0E02 e State.attestCerts)
/-- JTAG_CHALLENGE_READ (R411). -/
def execJtagChallengeRead (s : State) : Host.Outcome State Fault Refusal := .next s.readChallenge
/-- DEBUG_TOKEN_WRITE (R411). -/
def execDebugTokenWrite (token : List Byte) (s : State) : Host.Outcome State Fault Refusal := .next (s.writeToken token)

end Sys2Proof.Machine
end

