-- ==== Sys2Proof/Machine/ObjCmd.lean ====
section
/-!
DEFINITION. The MODEL_ and OBJ_ commands (R304 to R308, R358 to R360).
-/
namespace Sys2Proof.Machine

/-! ## Loads (R359, R360) -/

/-- A type that MODEL_LOAD accepts. -/
def isModelType (t : Nat) : Bool := decide (t = 1 ∨ t = 2)
/-- A type that OBJ_LOAD accepts. -/
def isObjType (t : Nat) : Bool := within t 3 9 || decide (t = 0x3F)

/-- What is wrong with the room of an object that a first piece asks for: more than the whole pool, or more than is free in the
pool or in the namespace (R305). -/
def State.roomFails (s : State) (p : Fin 4) (total : Nat) (backed mirror : Bool) : Option Nat :=
  let pages := ceilDiv total 65536
  if s.poolPages p < pages then some errTooLarge
  else if s.poolFree p false < pages then some errNoResource
  else if backed ∧ s.sec.grants[p].flashBytes < s.nsUsed p + 16384 * ceilDiv total 16384 * (if mirror then 2 else 1) then
    some errNoResource
  else none

/-- The object that the first piece of a load makes, or the poisoned one that it loads again. -/
def SubEntry.firstPiece (c : SubEntry) (h base : Nat) (again : Option Obj) (bs : List Byte) : Obj where
  handle := h
  size := c.p 8 8
  backed := decide (c.p 5 1 = 1)
  mirror := decide (c.p 6 1 = 1)
  bytes := bs
  staged := none
  tiles := false
  loaded := false
  base := base
  resident := List.range (ceilDiv (c.p 8 8) 65536)
  unreadable := (again.map (·.unreadable)).getD []
  pins := (again.map (·.pins)).getD []
  charged := c.entry.mbx.val
  evictPending := false
  dropping := false
  promoting := []
  poisoned := again.isSome
  clearing := false
  freeing := false
  flashLeft := 0
  flashSize := (again.map (·.flashSize)).getD 0
  before := none
  lastUse := 0

/-- Objects in handle order. -/
def sortObjs (os : List Obj) : List Obj := sortBy (fun (a b : Obj) => decide (a.handle ≤ b.handle)) os

/-- An object put into the list in the place of one of its handle. -/
def State.putObj (s : State) (o : Obj) : State :=
  { s with mt := { s.mt with objects := sortObjs (o :: s.mt.objects.filter fun x => decide (x.handle ≠ o.handle)) } }

/-- The handle's bytes are all there: signatures of a model, the pages put into DRAM, and the flash copies of a backed
object. Whether its header gives it the tile layout is free, for the spec does not lay that header out (R312; log 72). -/
def State.finishLoad (s : State) (c : SubEntry) (model : Bool) (h word0 : Nat) : State :=
  match s.obj h with
  | none => s
  | some o =>
    match if model then s.sec.sigFails [1] o.bytes else none with
    | some cause => ((s.authFail o.bytes 1 cause).discardLoad h).replyErr c errAuth
    | none =>
      let s := (s.mapPages o (List.range o.pages)).addJob c (.objLoad h word0)
      let (t, s) := s.drawBelow 2
      let s := s.updObj h fun o => { o with lastUse := s.dtNs, tiles := decide (t = 1) }
      if o.backed then s.queueWrites o (List.range o.pages) else s.objWritten h

/-- A piece of an object accepted: the last one finishes the load, any other completes at once. -/
def State.pieceDone (s : State) (c : SubEntry) (model : Bool) (o : Obj) (word0 : Nat) : State :=
  if o.bytes.length = o.size then s.finishLoad c model o.handle word0 else s.reply c stOk word0 0 0 0

/-- The object of a load is partial: it has bytes to come. -/
def Obj.partialLoad (o : Obj) : Bool := !o.loaded && decide (o.bytes.length < o.size)

/-- The first piece of a load: a new object, or a poisoned one loaded again. -/
def State.loadFirst (s : State) (c : SubEntry) (model : Bool) (bs : List Byte) : State :=
  let p := s.partOf c
  let h := c.p 0 4
  let total := c.p 8 8
  let again := if h = 0 then none else s.obj h
  if h ≠ 0 ∧ handlePart h ≠ p then s.replyErr c errPartition
  else if h ≠ 0 ∧ !(again.any fun o => o.poisoned && !o.freeing && o.loaded && decide (handleType h = c.p 4 1)) then s.replyErr c errArg
  else
    -- the place that the poisoned copy held counts as free
    let s' := match again with
      | some o => { s with mt := { s.mt with objects := s.mt.objects.erase o } }
      | none => s
    match s'.roomFails p total (decide (c.p 5 1 = 1)) (decide (c.p 6 1 = 1)) with
    | some e => s.replyErr c e
    | none =>
      match s'.freeRun p h (ceilDiv total 65536) with
      | (none, _) => s.replyErr c errNoResource
      | (some a, s') =>
        let s := { s with free := s'.free }
        let s := match again with
          | some o => s.unmap o
          | none => s
        let (n, s) : Nat × State := if h = 0 then
            s.newNumber ((s.mt.objects.filter fun o => decide (handlePart o.handle = p)).map fun o => o.handle % 2 ^ 24) else (0, s)
        let handle := if h = 0 then handleOf p (c.p 4 1) n else h
        let o := c.firstPiece handle a again bs
        (s.putObj o).pieceDone c model o handle

/-- A later piece of a load. -/
def State.loadNext (s : State) (c : SubEntry) (model : Bool) (bs : List Byte) : State :=
  let h := c.p 0 4
  if handlePart h ≠ s.partOf c then s.replyErr c errPartition
  else match s.obj h with
    | none => s.replyErr c errArg
    | some o =>
      if !o.partialLoad then s.replyErr c errArg
      else if c.p 16 8 ≠ o.bytes.length ∨ c.p 8 8 ≠ o.size ∨ o.size < o.bytes.length + bs.length ∨ handleType h ≠ c.p 4 1 then
        (s.discardLoad h).replyErr c errArg
      else
        let o := { o with bytes := o.bytes ++ bs }
        (s.putObj o).pieceDone c model o h

/-- A piece names a partial object of its partition: it is no first piece, whatever its offset (R360). -/
def State.ownPartial (s : State) (c : SubEntry) : Bool :=
  decide (c.p 0 4 ≠ 0) && decide (handlePart (c.p 0 4) = s.partOf c) && (s.obj (c.p 0 4)).any (·.partialLoad)

/-- MODEL_LOAD and OBJ_LOAD carried out. -/
def State.loadPiece (model : Bool) (c : SubEntry) (s : State) : State :=
  let bs := s.bulkIn c
  let good := if model then isModelType (c.p 4 1) else isObjType (c.p 4 1)
  if model ∧ s.sec.lifecycle ≠ .owned then s.replyErr c errLocked
  else if c.p 16 8 ≠ 0 ∨ s.ownPartial c then s.loadNext c model bs
  else if !good ∨ 1 < c.p 5 1 ∨ 1 < c.p 6 1 ∨ c.p 8 8 = 0 then s.replyErr c errArg
  else if c.p 8 8 < bs.length then s.replyErr c errArg
  else s.loadFirst c model bs

/-! ## The object that a command names (R308) -/

/-- The object that a command names, or the status that turns the command away. -/
def State.objFor (s : State) (c : SubEntry) : Except Nat Obj :=
  let h := c.p 0 4
  if handlePart h ≠ s.partOf c then .error errPartition
  else match s.obj h with
    | none => .error errArg
    | some o => .ok o

/-- A loaded, sound object that a command may use. -/
def State.usableObj (s : State) (c : SubEntry) : Except Nat Obj :=
  match s.objFor c with
  | .error e => .error e
  | .ok o => if o.poisoned then .error errPoisoned else if o.loaded && !o.freeing then .ok o else .error errArg

/-- MODEL_INFO carried out. -/
def State.modelInfo (c : SubEntry) (s : State) : State :=
  match s.usableObj c with
  | .error e => s.replyErr c e
  | .ok o =>
    if isModelType (handleType o.handle) then
      s.replyOut c (sha384 o.bytes ++ natLe 8 o.size ++ natLe 1 (handleType o.handle) ++ natLe 1 (if o.backed then 1 else 0)
        ++ List.replicate 6 0) 0 0 0 0
    else s.replyErr c errArg

/-- Flash copies of an object given up; only the mirror copies of it. -/
def State.dropCopies (s : State) (h : Nat) (mirrorOnly : Bool) : State :=
  let one (p : FlashPage) : FlashPage :=
    if p.owner = .object h then { p with copies := p.copies.filter fun c => !c.mirror } else p
  if mirrorOnly then State.zeroiseOld { s with mt := { s.mt with pages := s.mt.pages.map one } } (handlePart h).castSucc
  else (s.dropPagesFrom (.object h) 0).updObj h fun o => { o with flashSize := 0 }

/-- OBJ_PLACE carried out: it pins the object while it runs (R306). A change to DRAM needs every page resident (log 50). -/
def State.objPlace (c : SubEntry) (s : State) : State :=
  let backed := decide (c.p 4 1 = 1)
  let mirror := decide (c.p 5 1 = 1)
  match s.usableObj c with
  | .error e => s.replyErr c e
  | .ok o =>
    if 1 < c.p 4 1 ∨ 1 < c.p 5 1 ∨ !o.pins.isEmpty ∨ !o.promoting.isEmpty ∨ s.objWriting o then s.replyErr c errArg
    else if !backed ∧ !o.whole then s.replyErr c errArg
    else
      let set (s : State) : State := s.updObj o.handle fun o => { o with backed := backed, mirror := mirror }
      let grows : Bool := backed && (!o.backed || (mirror && !o.mirror))
      let more := 16384 * o.flashPages * (if o.backed then 1 else if mirror then 2 else 1)
      if grows then
        if s.sec.grants[s.partOf c].flashBytes < s.nsUsed (s.partOf c) + more then s.replyErr c errNoResource
        else
          let s := (((set s).updObj o.handle fun x => { x with before := some (o.backed, o.mirror) }).pin o.handle (.job o.handle)).addJob c
            (.objPlace o.handle (c.p 4 1) mirror)
          if o.backed ∧ !o.whole then s.startGroup { kind := .object o.handle, ns := (handlePart o.handle).castSucc
                                                     pages := o.flashPages, mirror := true, left := o.flashPages * 2 }
          else
            let s := s.updObj o.handle fun o => { o with staged := some (s.readMem o.base o.size), resident := List.range o.pages }
            s.queueWrites o (List.range o.pages)
      else if !backed then ((set s).dropCopies o.handle false).replyOk c
      else if o.mirror && !mirror then ((set s).dropCopies o.handle true).replyOk c
      else (set s).replyOk c

/-- OBJ_PROMOTE carried out. -/
def State.objPromote (c : SubEntry) (s : State) : State :=
  match s.usableObj c with
  | .error e => s.replyErr c e
  | .ok o =>
    if !o.backed then s.replyErr c errArg
    else match s.promote o.handle c.entry.mbx.val with
      | (some d, s) => s.reply c errNoResource 0 d 0 0
      | (none, s) => (s.addJob c (.objPromote o.handle)).promoted o.handle

/-- OBJ_PIN carried out. -/
def State.objPin (c : SubEntry) (s : State) : State :=
  match s.usableObj c with
  | .error e => s.replyErr c e
  | .ok o => if o.whole then (s.pin o.handle (.pinned c.entry.mbx.val)).replyOk c else s.replyErr c errArg

/-- OBJ_UNPIN carried out: a pin of OBJ_PIN first, then one of a promotion. -/
def State.objUnpin (c : SubEntry) (s : State) : State :=
  let u := c.entry.mbx.val
  match s.usableObj c with
  | .error e => s.replyErr c e
  | .ok o =>
    if o.pins.contains (.pinned u) then (s.unpin o.handle (.pinned u)).replyOk c
    else if o.pins.contains (.promoted u) then (s.unpin o.handle (.promoted u)).replyOk c
    else s.replyErr c errArg

/-- The object is a filter set that an inertial input is bound to, or is to be: no command unloads it (R110). -/
def State.boundFilter (s : State) (h : Nat) : Bool :=
  s.ife.inputs.toList.any fun x => (x.binding.toList ++ x.nextBinding.toList).any fun b => decide (b.filterSet = h)

/-- OBJ_EVICT carried out. -/
def State.objEvict (c : SubEntry) (s : State) : State :=
  match s.usableObj c with
  | .error e => s.replyErr c e
  | .ok o =>
    if !o.backed || s.boundFilter o.handle then s.replyErr c errArg
    else (s.updObj o.handle Obj.evict).addJob c (.objEvict o.handle)

/-- OBJ_UNLOAD carried out. -/
def State.objUnload (c : SubEntry) (s : State) : State :=
  let u := c.entry.mbx.val
  match s.objFor c with
  | .error e => s.replyErr c e
  | .ok o =>
    if o.freeing || s.boundFilter o.handle || !(o.pins.all fun p => decide (p = .pinned u ∨ p = .promoted u)) || (!o.loaded && !o.partialLoad) then
      s.replyErr c errArg
    else (s.updObj o.handle fun o => { o with freeing := true }).addJob c (.objUnload o.handle)

/-- OBJ_STATUS carried out: the fourth byte of word 0 holds the poisoned bit and `EVICT_PENDING` (DEDUCED, log 50). -/
def State.objStatus (c : SubEntry) (s : State) : State :=
  match s.objFor c with
  | .error e => s.replyErr c e
  | .ok o =>
    let bit (b : Bool) : Nat := if b then 1 else 0
    s.reply c stOk
      (handleType o.handle + 256 * bit o.backed + 65536 * bit o.mirror + 2 ^ 24 * (bit o.poisoned + 2 * bit o.evictPending))
      o.resident.length o.pins.length o.charged

/-! ## The rows -/

/-- MODEL_LOAD (R359, R360). -/
def execModelLoad (e : Entry) (s : State) : Host.Outcome State Fault Refusal := .next (s.serve 0x0A01 e (State.loadPiece true))
/-- MODEL_INFO (R358). -/
def execModelInfo (e : Entry) (s : State) : Host.Outcome State Fault Refusal := .next (s.serve 0x0A02 e State.modelInfo)
/-- OBJ_LOAD (R359, R360). -/
def execObjLoad (e : Entry) (s : State) : Host.Outcome State Fault Refusal := .next (s.serve 0x0B01 e (State.loadPiece false))
/-- OBJ_PLACE (R308). -/
def execObjPlace (e : Entry) (s : State) : Host.Outcome State Fault Refusal := .next (s.serve 0x0B02 e State.objPlace)
/-- OBJ_PROMOTE (R307, R308). -/
def execObjPromote (e : Entry) (s : State) : Host.Outcome State Fault Refusal := .next (s.serve 0x0B03 e State.objPromote)
/-- OBJ_PIN (R306, R308). -/
def execObjPin (e : Entry) (s : State) : Host.Outcome State Fault Refusal := .next (s.serve 0x0B04 e State.objPin)
/-- OBJ_UNPIN (R306, R308). -/
def execObjUnpin (e : Entry) (s : State) : Host.Outcome State Fault Refusal := .next (s.serve 0x0B05 e State.objUnpin)
/-- OBJ_EVICT (R307, R308). -/
def execObjEvict (e : Entry) (s : State) : Host.Outcome State Fault Refusal := .next (s.serve 0x0B06 e State.objEvict)
/-- OBJ_UNLOAD (R308). -/
def execObjUnload (e : Entry) (s : State) : Host.Outcome State Fault Refusal := .next (s.serve 0x0B07 e State.objUnload)
/-- OBJ_STATUS (R358). -/
def execObjStatus (e : Entry) (s : State) : Host.Outcome State Fault Refusal := .next (s.serve 0x0B08 e State.objStatus)

end Sys2Proof.Machine
end

