-- ==== Sys2Proof/Machine/PoseCmd.lean ====
section
/-!
DEFINITION. The POSE_ and TRACK_ commands (R229, R230, R244, R252, R357, R363).
-/
namespace Sys2Proof.Machine

/-! ## POSE_INIT (R230) -/

/-- The initial state where neither the command nor the average gives it exactly (log 9). -/
def numInit : Nat := 0x0A0C

/-- The inertial inputs bound, U of R230. -/
def State.boundUnits (s : State) : Nat := ((List.finRange 4).filter fun n => s.ife.inputs[n].binding.isSome).length
/-- Wheels are bound, W of R230: the running rig has a wheel pair. -/
def State.hasWheels (s : State) : Bool := (List.range 64).any fun i => decide (rigKind (rigEntry s.rig i) = 4)

/-- Where an entry of `COV` lies: rows and columns 0 to 2 are the position, 3 to 5 the attitude; the upper triangle, row by row. -/
def covEntry (payload : List Byte) (r c : Nat) : Nat :=
  let i := min r c
  let j := max r c
  fieldAt payload (48 + 4 * (6 * i - i * (i - 1) / 2 + (j - i))) 4

/-- The row of `COV` that holds an element of the error state: position, then attitude, which follows the velocity. -/
def covRow (k : Nat) : Option Nat := if k < 3 then some k else if 6 ≤ k ∧ k < 9 then some (k - 3) else none

/-- The variance of the yaw after an align, the square of π, in FP64. The yaw is the third attitude error: the rotation about the map's
vertical (log 67). -/
def yawVariance : Dword := 0x4023BD3CC9BE45DE

/-- The average of a field of three axes over records, in the sensor's own axes (R119, R230). -/
def averageAxes (recs : List (List Byte)) (off frac : Nat) : Vec3 :=
  let axis (k : Nat) : Num :=
    Num.quot (Num.ofInt (recs.foldl (fun n r => n + signedOf 32 (fieldAt r (off + 4 * k) 4)) 0) (-(frac : Int)) false)
      (Num.nat recs.length)
  { x := axis 0, y := axis 1, z := axis 2 }

/-- The cosine and the sine of half an angle, from those of the angle. -/
def halfTurn (c s : Num) : Num × Num :=
  let half (k : Num) : Num := Num.root (Num.mul (.fin false 1 (-1)) k)
  let sn := half (Num.sub (Num.nat 1) c)
  (half (Num.add (Num.nat 1) c), if Num.lt s (Num.nat 0) then Num.neg sn else sn)

/-- The attitude, map-from-body, of a body at rest whose upward direction is `up`, with a yaw: the yaw is about the map's vertical, after
the pitch and the roll that level the body (R230; the order of the three turns is a DESIGN CHOICE, log 67). -/
def levelAttitude (up : Vec3) (yaw : Num) : Quat :=
  let h := Num.root (Num.add (Num.mul up.y up.y) (Num.mul up.z up.z))
  let pitch := halfTurn h (Num.neg up.x)
  let roll := if Num.le h (Num.nat 0) then (Num.nat 1, Num.nat 0) else halfTurn (Num.quot up.z h) (Num.quot up.y h)
  let turn := cisOf (Num.fixed yaw / 2)
  let o := Num.nat 0
  Quat.mul { w := turn.1, v := ⟨o, o, turn.2⟩ } (Quat.mul { w := pitch.1, v := ⟨o, pitch.2, o⟩ } { w := roll.1, v := ⟨roll.2, o, o⟩ })

/-- The filter set of an inertial input's binding. -/
def State.inputFilter (s : State) (n : Nat) : List Byte :=
  match s.ife.inputs[(⟨n % 4, Nat.mod_lt _ (by decide)⟩ : Fin 4)].binding with
  | some b => s.filterOf b
  | none => []

/-- The rotation body-from-sensor of an inertial input, if the rig has it (R231). -/
def State.unitTurn (s : State) (n : Nat) : Option Quat :=
  (((List.range 64).map (rigEntry s.rig)).find? fun e => decide (rigKind e = 1 ∧ fieldAt e 29 1 = n)).map fun e =>
    fp32.quat ((List.range 4).map fun k => fieldAt e (4 * k) 4)

/-- The attitude that an average gives: gravity's direction from the accelerometer, turned into the body frame, and the host's yaw. None
where nothing was averaged, the average has no direction, or the rig has no such unit. -/
def State.alignAttitude (s : State) (payload : List Byte) (recs : List (List Byte)) : Option (List Dword) :=
  let n := s.fus.params.primary
  let a := averageAxes recs 28 (fsAccel (s.inputFilter n))
  match s.unitTurn n with
  | some q =>
    if recs.isEmpty || Num.le a.norm (Num.nat 0) then none
    else
      let r := levelAttitude (q.unit.rotate a.unit) (fp32.decode (fieldAt payload 4 4))
      some ([r.w, r.v.x, r.v.y, r.v.z].map fun v => BitVec.ofNat 64 (fp64.ofNum v))
  | none => none

/-- The gyroscope bias of the primary unit that an average gives, and where it stands in the nominal state: units stand in the order of
their inputs (R230). -/
def State.alignBias (s : State) (recs : List (List Byte)) : Option (Nat × List Dword) :=
  let n := s.fus.params.primary
  let below := ((List.finRange 4).filter fun i => decide (i.val < n) && s.ife.inputs[i].binding.isSome).length
  if recs.isEmpty then none
  else some (10 + 6 * below, (averageAxes recs 16 (fsGyro (s.inputFilter n))).list.map fun v => BitVec.ofNat 64 (fp64.ofNum v))

/-- The filter that POSE_INIT starts at an instant: the position is the command's, and in mode 0 so are the attitude and the
covariance; in mode 1 the attitude and the primary unit's gyroscope bias are the average's, with the host's yaw, whose standard deviation is
π. The rest follows from the command, the records averaged and the rig. -/
def State.initialEgo (s : State) (payload : List Byte) (recs : List (List Byte)) (dt : Nat) : Ego :=
  let given := decide (fieldAt payload 0 1 = 0)
  let u := s.boundUnits
  let w := b2n s.hasWheels
  let inp := natsOf payload ++ recs.flatMap natsOf ++ natsOf s.rig
  let num (k : Nat) : Dword := BitVec.ofNat 64 (fp64.unfixed numInit inp k)
  let wide (v : Nat) : Dword := BitVec.ofNat 64 (fp32.convert fp64 v)
  let turn := s.alignAttitude payload recs
  let bias := s.alignBias recs
  let mean := (List.range (10 + 6 * u + 3 * w)).map fun k =>
    if k < 3 then BitVec.ofNat 64 (fieldAt payload (8 + 8 * k) 8)
    else if given then (if 6 ≤ k ∧ k < 10 then wide (fieldAt payload (32 + 4 * (k - 6)) 4) else num k)
    else if 6 ≤ k ∧ k < 10 then
      match turn with
      | some q => q.getD (k - 6) 0
      | none => num k
    else match bias with
      | some b => if b.1 ≤ k ∧ k < b.1 + 3 then b.2.getD (k - b.1) 0 else num k
      | none => num k
  let n := 9 + 6 * u + 3 * w
  let rest := covNums numInit inp n
  let cov := (List.range (n * n)).map fun k =>
    if !given && decide (k = 8 * n + 8) then yawVariance
    else match covRow (k / n), covRow (k % n) with
    | some r, some c => if given || decide (r < 3 ∧ c < 3) then wide (covEntry payload r c) else rest.getD k 0
    | _, _ => rest.getD k 0
  { dt := dt, mean := mean, cov := cov }

/-- The ego state initialised at a boundary. -/
def State.initPose (s : State) (payload : List Byte) (recs : List (List Byte)) (dt : Nat) : State :=
  { s with fus := { s.fus with
    ego := s.initialEgo payload recs dt, initialised := true, history := [], late := [] } }

/-- POSE_INIT carried out. -/
def State.poseInit (c : SubEntry) (s : State) : State :=
  if s.sched.state = .stopped ∨ 1 < c.p 0 1 then s.replyErr c errArg
  else
    let payload := c.bytes 0 132
    if c.p 0 1 = 0 then s.addJob c (.poseGiven payload)
    else s.addJob c (.poseAlign payload none false)

/-- The 200 ms of the average, in ns. -/
def alignNs : Nat := 200000000

/-- The oldest POSE_INIT whose average still runs, if its 200 ms are over; they run from a boundary. -/
def State.alignDue (s : State) : Option Job :=
  s.fw.jobs.find? fun j => match j.kind with
    | .poseAlign _ (some t) false => decide (t + alignNs ≤ s.dtNs)
    | _ => false

/-- POSE_ALIGN_DONE: the average is complete, and the command waits for the boundary. -/
def State.alignDone (s : State) : State :=
  match s.alignDue with
  | none => s
  | some j =>
    match j.kind with
    | .poseAlign payload (some t) _ =>
      let recs := s.fus.alignRecs.filter fun r => decide (t ≤ fieldAt r 0 8 ∧ fieldAt r 0 8 ≤ t + alignNs)
      let j' : Job := { j with kind := .poseAlign (payload ++ recs.flatten) (some t) true }
      let s := { s with fw := { s.fw with jobs := s.fw.jobs.map fun (x : Job) => if x = j then j' else x } }
      let more := s.fw.jobs.any fun x => match x.kind with | .poseAlign _ (some _) false => true | _ => false
      if more then s else { s with fus := { s.fus with alignFrom := none, alignRecs := [] } }
    | _ => s

/-! ## POSE_CONFIG (R252) -/

/-- FP32 limits of `POS_BOUND`, `ATT_BOUND` and `GATE`, each the pattern nearest to the limit of R252. -/
def poseFpOk (payload : List Byte) : Bool :=
  let within32 (off lo hi : Nat) : Bool :=
    let v := fieldAt payload off 4
    fp32.finite v && fp32.le lo v && fp32.le v hi
  within32 0 0x3A83126F 0x42C80000 && within32 4 0x38D1B717 0x3F800000 && within32 12 0x3F800000 0x42C80000

/-- An input has a binding, in force or one that STREAM_IFE_CONFIG has left to its boundary: a command sees the pending changes of the
earlier ones (R349). -/
def IfeInput.isBound (x : IfeInput) : Bool := x.binding.isSome || x.nextBinding.isSome

/-- Every field of POSE_CONFIG lies in its range, and the primary unit is bound. -/
def State.poseConfigOk (s : State) (payload : List Byte) : Bool :=
  let f (off n : Nat) : Nat := fieldAt payload off n
  poseFpOk payload && within (f 8 4) 250000 20000000 && decide (1 ≤ f 16 2) && decide (f 18 1 ≤ 8) && within (f 19 1) 1 10
    && decide (1 ≤ f 20 1) && decide (f 22 1 ≤ 100)
    && if h : f 21 1 < 4 then s.ife.inputs[(⟨f 21 1, h⟩ : Fin 4)].isBound else false

/-- The parameters that a payload gives. -/
def poseParamsOf (payload : List Byte) : PoseParams where
  posBound := BitVec.ofNat 32 (fieldAt payload 0 4)
  attBound := BitVec.ofNat 32 (fieldAt payload 4 4)
  maxGapNs := fieldAt payload 8 4
  gate := BitVec.ofNat 32 (fieldAt payload 12 4)
  maxMisses := fieldAt payload 16 2
  retroSpans := fieldAt payload 18 1
  voteK := fieldAt payload 19 1
  requalify := fieldAt payload 20 1
  primary := fieldAt payload 21 1
  oowFrac := fieldAt payload 22 1

/-- POSE_CONFIG carried out. -/
def State.poseConfig (c : SubEntry) (s : State) : State :=
  let payload := c.bytes 0 23
  if s.poseConfigOk payload then s.addJob c (.poseConfig payload) else s.replyErr c errArg

/-! ## POSE_SUBSCRIBE and POSE_GET (R244, R363) -/

/-- The current pose record. -/
def State.currentPose (s : State) : List Byte := s.fus.bufs[s.fus.current.toNat]'(by cases s.fus.current <;> decide)

/-- POSE_SUBSCRIBE carried out. -/
def State.poseSubscribe (c : SubEntry) (s : State) : State :=
  let off := c.p 0 4
  let recs := c.p 4 2
  match c.p 10 1 with
  | 0 => (s.updMbx c.entry.mbx fun m => { m with poseSub := none }).replyOk c
  | 1 =>
    if off % 64 ≠ 0 ∨ !within recs 2 1024 ∨ bulkSize < off + 64 + 96 * recs ∨ c.p 6 2 = 0 ∨ 1024 < c.p 8 2 then s.replyErr c errArg
    else
      let sub : PoseSub :=
        { ringOffset := off, ringRecords := recs, decimate := c.p 6 2, notifyEvery := c.p 8 2, delivered := 0, sinceNotice := 0
          lastPermit := (fieldAt s.currentPose 12 4).testBit 1 }
      ((s.windowWrite c.entry.mbx off (natLe 8 0)).updMbx c.entry.mbx fun m => { m with poseSub := some sub }).replyOk c
  | _ => s.replyErr c errArg

/-- POSE_GET carried out. -/
def State.poseGet (c : SubEntry) (s : State) : State := s.replyOut c s.currentPose 0 0 0 0

/-! ## Tracks (R226 to R229) -/

/-- The context of a handle as DRAM holds it: written back, or as it was paged in. None for a handle of no live track. -/
def State.stored (s : State) (h : Nat) : Option (List Byte) :=
  if h = 0 ∨ s.liveHandle (trackSlot h) ≠ h ∨ s.tableVal (trackSlot h) 4 1 = 0 then none else some (s.tableCtx (trackSlot h))

/-- TRACK_READ carried out. -/
def State.trackRead (c : SubEntry) (s : State) : State :=
  match s.stored (c.p 0 4) with
  | none => s.replyErr c errArg
  | some x => if ctxOwner x ≠ (s.partOf c).val then s.replyErr c errPartition else s.replyOut c x 0 0 0 0

/-- TRACK_DELETE carried out: an object of the caller is freed at the boundary. -/
def State.trackDelete (c : SubEntry) (s : State) : State :=
  match s.stored (c.p 0 4) with
  | none => s.replyErr c errArg
  | some x =>
    if ctxOwner x ≠ (s.partOf c).val then s.replyErr c errPartition
    else if ctxKind x ≠ 2 then s.replyErr c errArg
    else s.addJob c (.trackDelete (c.p 0 4))

/-- The handles of the live tracks of a partition with a label, 0 for any, by rising slot. -/
def State.owned (s : State) (p label : Nat) : List Nat :=
  (s.liveContexts.filter fun c => decide (ctxOwner c = p ∧ (label = 0 ∨ ctxLabel c = label))).map ctxHandle

/-- TRACK_LIST carried out. -/
def State.trackList (c : SubEntry) (s : State) : State :=
  s.replyList c 4 ((s.owned (s.partOf c).val (c.p 0 2)).map (natLe 4))

/-! ## What applies at a boundary (R230, R252, R229) -/

/-- A POSE_ or TRACK_ command that waits for a boundary applied at it. -/
def State.applyPoseJob (s : State) (j : Job) (dt : Nat) : State :=
  match j.kind with
  | .poseGiven p => (s.initPose p [] dt).completeJob j stOk 0 0 0 0 dt
  | .poseAlign p none false =>
    let j' : Job := { j with kind := .poseAlign p (some dt) false }
    { s with
      fw := { s.fw with jobs := s.fw.jobs.map fun (x : Job) => if x = j then j' else x }
      fus := { s.fus with alignFrom := some (s.fus.alignFrom.getD dt) } }
  | .poseAlign p _ true => (s.initPose (p.take 132) (itemsOf (p.drop 132) 48 ((p.length - 132) / 48)) dt).completeJob j stOk 0 0 0 0 dt
  | .poseConfig p =>
    let s := State.permitCheck { s with fus := { s.fus with params := poseParamsOf p } }
    s.placeHistory.completeJob j stOk 0 0 0 0 dt
  | .trackDelete h =>
    let s := if s.liveHandle (trackSlot h) = h then s.freeTrack h else s
    s.completeJob j stOk 0 0 0 0 dt
  | _ => s

/-! ## The rows -/

/-- POSE_INIT (R230). -/
def execPoseInit (e : Entry) (s : State) : Host.Outcome State Fault Refusal := .next (s.serve 0x0501 e State.poseInit)
/-- POSE_ALIGN_DONE (R230). -/
def execPoseAlignDone (s : State) : Host.Outcome State Fault Refusal := .next s.alignDone
/-- POSE_CONFIG (R252). -/
def execPoseConfig (e : Entry) (s : State) : Host.Outcome State Fault Refusal := .next (s.serve 0x0502 e State.poseConfig)
/-- POSE_SUBSCRIBE (R363). -/
def execPoseSubscribe (e : Entry) (s : State) : Host.Outcome State Fault Refusal := .next (s.serve 0x0503 e State.poseSubscribe)
/-- POSE_GET (R244). -/
def execPoseGet (e : Entry) (s : State) : Host.Outcome State Fault Refusal := .next (s.serve 0x0504 e State.poseGet)
/-- TRACK_READ (R227). -/
def execTrackRead (e : Entry) (s : State) : Host.Outcome State Fault Refusal := .next (s.serve 0x0601 e State.trackRead)
/-- TRACK_DELETE (R229). -/
def execTrackDelete (e : Entry) (s : State) : Host.Outcome State Fault Refusal := .next (s.serve 0x0602 e State.trackDelete)
/-- TRACK_LIST (R357). -/
def execTrackList (e : Entry) (s : State) : Host.Outcome State Fault Refusal := .next (s.serve 0x0603 e State.trackList)

end Sys2Proof.Machine
end

