-- ==== Sys2Proof/Machine/Power.lean ====
section
/-!
DEFINITION. The power manager: operating points, the core rail, clamps, the cap, power control at the latch, thermal
sensors, path-delay monitors and margins (chapter 17).
-/
namespace Sys2Proof.Machine

/-! ## Operating points and the rail (R374 to R376) -/

/-- The nominal voltage of a point in mV. -/
def opMv (op : Nat) : Nat := [550, 570, 600, 650, 700, 750, 800, 850].getD op 850
/-- A point's margin. -/
def Power.margin (p : Power) (op : Nat) : Nat := p.margins.toList.getD op 50
/-- The voltage that a point needs. -/
def Power.needMv (p : Power) (op : Nat) : Nat := opMv op + p.margin op
/-- `CLAMP_OP`. -/
def Power.clampOp (p : Power) : Nat := p.thermCfg.toNat % 8
/-- `THROTTLE_C` in 0.1 degrees. -/
def Power.throttle (p : Power) : Int := 10 * (p.thermCfg.toNat / 65536 % 256 : Nat)
/-- `RELEASE_C` in 0.1 degrees. -/
def Power.release (p : Power) : Int := 10 * (p.thermCfg.toNat / 256 % 256 : Nat)
/-- `LIMIT_OP`. -/
def Power.limitOp (p : Power) : Nat := p.limitCfg.toNat % 8
/-- `LIMIT_RUNG`. -/
def Power.limitRung (p : Power) : Nat := p.limitCfg.toNat / 16 % 16
/-- A sensor's reading. -/
def Power.temp (p : Power) (n : Fin 24) : Int := p.temps[n].toInt

/-- The lowest point of the clamps on a core, the monitor clamp left out with `monitors` false (R375). -/
def Power.clampTarget (p : Power) (c : Fin 8) (monitors : Bool) : Nat :=
  let x := p.cores[c]
  let t := if x.thermal = 0 then 7 else p.clampOp
  let t := if p.limitClamp then min t p.limitOp else t
  match x.monitor with
  | some (op, _) => if monitors then min t op.toNat else t
  | none => t

/-- The lowest of the ceiling and the clamps on a core (R375). -/
def Power.target (p : Power) (c : Fin 8) (monitors : Bool) : Nat :=
  min (min p.ceiling.toNat p.topOp) (p.clampTarget c monitors)

/-- The causes that hold a core down: ceiling, thermal, limit, monitor (R375, R394, R447). -/
def Power.causes (p : Power) (c : Fin 8) : Nat :=
  let x := p.cores[c]
  b2n (decide (min p.ceiling.toNat p.topOp < 7)) + 2 * b2n (decide (x.thermal ≠ 0)) + 4 * b2n p.limitClamp + 8 * b2n x.monitor.isSome

/-- A clamp holds a core below the ceiling in force (R79). -/
def Power.heldBelow (p : Power) (c : Fin 8) : Bool := decide (p.target c true < min p.ceiling.toNat p.topOp)

/-- A filler whose core goes from one operating point to a lower one (R72). -/
def Filler.lower (f : Filler) (now was : Nat) : Filler :=
  match f with
  | .ballast level => .ballast (scaleLevel level now was)
  | f => f

/-- Clocks lowered at once to what the clamps allow, and the fillers of those cores with them; a ceiling waits for its boundary (R72, R375
to R377). -/
def State.clampClocks (s : State) : State :=
  (List.finRange 8).foldl (fun (s : State) c =>
    let t := s.pm.clampTarget c true
    s.updCorePower c fun x =>
      if t < x.op.toNat then { x with op := BitVec.ofNat 3 t, filler := x.filler.lower t x.op.toNat } else x) s

/-- The voltage that the rail is to hold: that of the highest point that a core runs at or is to run at, with its margin, so that a core
lowers its clock before the rail follows (R376). -/
def Power.railTarget (p : Power) : Nat :=
  (List.finRange 8).foldl (fun m c => max m (max (p.needMv p.cores[c].op.toNat) (p.needMv (p.target c false)))) 0

/-- The rail at a latch: lowered at once, or raised by at most 50 mV (R376). -/
def State.stepRail (s : State) : State :=
  if !s.pm.pmbusOk then s
  else
    let t := s.pm.railTarget
    { s with pm := { s.pm with railMv := if s.pm.railMv < t then min t (s.pm.railMv + 50) else t } }

/-- A core's clock at a boundary: lowered to its target, or raised as far as the rail allows (R376). -/
def State.boundaryClock (s : State) (c : Fin 8) : State :=
  let t := s.pm.target c true
  let now := s.pm.cores[c].op.toNat
  let reach := ((List.range (t + 1)).filter fun k => decide (now < k ∧ s.pm.needMv k ≤ s.pm.railMv)).foldl max now
  s.updCorePower c fun x => { x with op := BitVec.ofNat 3 (if t ≤ now then t else reach) }

/-- An event of the power manager, while its events are enabled. -/
def State.pmEvent (s : State) (code a0 a1 a2 : Nat) : State := if s.pm.evtEn then s.event 0x0F code a0 a1 a2 else s

/-- The hottest reading. -/
def Power.hottest (p : Power) : Int := p.temps.toList.foldl (fun m t => max m t.toInt) (p.temps[0].toInt)

/-! ## Power control at the latch (R379 to R384) -/

/-- The required rung of partition 0: the greater of the host's rung and power control's (R76). -/
def State.requiredRung (s : State) : Nat := max s.sched.hostRung[0] s.pm.rungReq.toNat

/-- Power control's rung changed, with the cause: 0 cap, 1 thermal, 2 limit, 3 ascent. -/
def State.setRung (s : State) (new cause : Nat) : State :=
  if s.pm.rungReq.toNat = new then s
  else
    let old := s.pm.rungReq.toNat
    State.pmEvent { s with pm := { s.pm with rungReq := BitVec.ofNat 3 new } } 0x0F01 old new cause

/-- The ceiling changed; it comes into force at the boundary. -/
def State.setCeiling (s : State) (new avg : Nat) : State :=
  let old := s.pm.ceiling.toNat
  State.pmEvent { s with pm := { s.pm with ceiling := BitVec.ofNat 3 new } } 0x0F02 old new avg

/-- A sensor outside the cores stands at or above `RELEASE_C` and clamps every core (R386). -/
def Power.engineHot (p : Power) : Bool :=
  (List.finRange 24).any fun n => decide (16 ≤ n.val ∧ p.release ≤ p.temp n) && p.cores[0].thermal.getLsbD n.val

/-- `PWR_LIMIT_N` stands asserted. -/
def State.limitActive (s : State) : Bool := !s.pins.pwrLimitN

/-- The pending PWR_CAP completed. -/
def State.capDone (s : State) (status r0 r1 : Nat) : State :=
  (s.fw.jobs.filter fun j => decide (j.kind = .pwrCap)).foldl
    (fun (s : State) (j : Job) => s.completeJob j status r0 r1 0 0 s.dtNs) s

/-- The cap cannot be met (R381). -/
def State.capUnattainable (s : State) (avg : Nat) : State :=
  let s := { s with pm := { s.pm with unattainable := true } }
  let s :=
    if s.pm.unattRecorded then s
    else State.pmEvent { s with pm := { s.pm with unattRecorded := true } } 0x0F04 s.pm.capMw.toNat avg (patOf 32 s.pm.hottest)
  s.capDone errCap 0 avg

/-- One step of ascent: the ceiling first, then the rung; none to a rung or point that exceeded within 12,000 spans a cap
that was no lower than the cap now (R382). -/
def State.ascend (s : State) (avg : Nat) : State :=
  let blocked (r o : Nat) : Bool := s.pm.exceeded.any fun e => decide (e.1 = r ∧ e.2.1 = o ∧ s.pm.capMw.toNat ≤ e.2.2.2)
  let top := s.pm.topOp
  let c := s.pm.ceiling.toNat
  let r := s.pm.rungReq.toNat
  let done (s : State) : State := { s with pm := { s.pm with lowSpans := 0 } }
  if c < top then (if blocked s.rung0 (c + 1) then s else done (s.setCeiling (c + 1) avg))
  else if 0 < r then (if blocked (r - 1) top then s else done (s.setRung (r - 1) 3))
  else s

/-- The power manager's average of the span up to the latch, and whether it meets the cap (R379, R394). -/
def State.powerMeasure (s : State) : State :=
  let avg := if s.pm.sampleCount = 0 then s.pm.powerMw.toNat else s.pm.sampleSum / s.pm.sampleCount
  let met : Bool := decide (avg ≤ s.pm.capMw.toNat)
  let s' := { s with pm := { s.pm with powerMw := BitVec.ofNat 32 avg, capMet := met } }
  if met && !s.pm.capMet then s'.pmEvent 0x0F03 s.pm.capMw.toNat s.rung0 s.pm.ceiling.toNat else s'

/-- What power control does with the average. Its steps raise and lower the rung that it requires itself, which the greater of it and the
host's makes the required rung (R76); R380 and R384 say no more than "the required rung" (DEDUCED, log 25). -/
def State.powerControl (s : State) : State :=
  let avg := s.pm.powerMw.toNat
  let cap := s.pm.capMw.toNat
  let rung := s.rung0
  let c := s.pm.ceiling.toNat
  let met := s.pm.capMet
  let exceeded := (s.pm.exceeded.map fun e => (e.1, e.2.1, e.2.2.1 + 1, e.2.2.2)).filter fun e => decide (e.2.2.1 < 12000)
  let exceeded := if met then exceeded else (rung, c, 0, cap) :: exceeded.filter fun e => decide (e.1 ≠ rung ∨ e.2.1 ≠ c)
  let s := { s with pm := { s.pm with
    exceeded := exceeded
    lowSpans := if 100 * avg ≤ 85 * cap then s.pm.lowSpans + 1 else 0
    unattRecorded := s.pm.unattRecorded && !met } }
  let s : State := if met then s.capDone stOk rung c else s
  let req : Nat := s.pm.rungReq.toNat
  let limit : Bool := s.limitActive && decide (req < s.pm.limitRung)
  let held : Bool := s.pm.engineHot || (s.limitActive && decide (req ≤ s.pm.limitRung))
  if !met && decide (req < 5) then s.setRung (req + 1) 0
  else if !met && decide (0 < c) then s.setCeiling (c - 1) avg
  else if !met then s.capUnattainable avg
  else if s.pm.engineHot && decide (req < 5) then s.setRung (req + 1) 1
  else if limit && decide (req < 5) then s.setRung (req + 1) 2
  else if decide (64 ≤ s.pm.lowSpans) && !held then s.ascend avg
  else s

/-- A table of margins as its CRC-32 takes it: the serial number, and 2 bytes for each margin (log 25). -/
def marginBytes (serial : Nat) (m : Vector Nat 8) : List Byte := natLe 8 serial ++ m.toList.flatMap (natLe 2)

/-- The valid copies of the margin table, the newest first (R390). -/
def Power.validCopies (p : Power) : List MarginCopy :=
  let ok := (p.marginTable.toList.filterMap id).filter fun c => decide (c.crc = crc32 (marginBytes c.serial c.margins))
  match ok with
  | [a, b] => if a.serial < b.serial then [b, a] else [a, b]
  | l => l

/-- The margins that firmware loads at a cold boot: the newer valid copy, else 50 mV each (R390). -/
def Power.loadedMargins (p : Power) : Vector Nat 8 :=
  match p.validCopies with
  | c :: _ => c.margins
  | [] => Vector.replicate 8 50

/-- The first copy of the table rewritten with the margins as they are; the second follows at the next latch (R390, log 25). -/
def Power.writeTable (p : Power) : Power :=
  let n := (p.validCopies.map (·.serial)).foldl max 0 + 1
  { p with marginTable := p.marginTable.set 0 (some { serial := n, margins := p.margins, crc := crc32 (marginBytes n p.margins) }) }

/-- The second copy of the table made equal to the first. -/
def Power.copyTable (p : Power) : Power := { p with marginTable := p.marginTable.set 1 p.marginTable[0] }

/-- A margin changed: the change is recorded, and the table rewritten (R389, R390). -/
def State.setMargin (s : State) (k : Fin 8) (new : Nat) : State :=
  if s.pm.margins[k] = new then s
  else
    let old := s.pm.margins[k]
    let p := { s.pm with margins := s.pm.margins.set k new }
    State.pmEvent { s with pm := p.writeTable } 0x0F09 k.val old new

/-- Margins raised by 10 mV, to at most 50, after an alarm (R389). -/
def State.raiseMargins (s : State) : State :=
  let due := s.pm.marginDue
  (List.finRange 8).foldl (fun (s : State) k => if due.getLsbD k.val then s.setMargin k (min 50 (s.pm.margins[k] + 10)) else s)
    { s with pm := { s.pm.copyTable with marginDue := 0 } }

/-- A core that a latched image names has its clock restarted (R378). -/
def State.restartClocks (s : State) : State :=
  let mask := s.sched.latchSlot.toList.foldl (fun (m : Byte) x =>
    match x.bind fun i => s.sched.slots[i] with
    | some img => m ||| img.coreMask
    | none => m) 0
  (List.finRange 8).foldl (fun (s : State) c => if mask.getLsbD c.val then s.updCorePower c fun x => { x with stopped := false, stopDue := none } else s) s

/-- What firmware does about power at the latch: power control, and the margins after alarms. -/
def State.powerLatch (s : State) : State := s.powerControl.raiseMargins

/-! ## The boundary (R376, R378, R384, R387, R389) -/

/-- Thermal clamps that end: each causing sensor's release is recorded. -/
def State.thermalEnd (s : State) : State :=
  let ends := (List.finRange 8).filter fun c => s.pm.cores[c].thermalEnding
  let sensors := (List.finRange 24).filter fun n => ends.any fun c => s.pm.cores[c].thermal.getLsbD n.val
  let s := sensors.foldl (fun (s : State) n =>
    s.pmEvent 0x0F06 n.val (if n.val < 16 then n.val / 2 else 0xFF) s.pm.clampSpans[n]) s
  ends.foldl (fun (s : State) c => s.updCorePower c fun x => { x with thermal := 0, thermalEnding := false }) s

/-- The cores whose clocks go on at a boundary: those that a running image names, and those of a paused partition, which hold
ballast (R78, R378). -/
def State.clockedCores (s : State) : Byte :=
  (List.finRange 4).foldl (fun (m : Byte) p =>
    match s.image p with
    | some img => m ||| img.coreMask
    | none => if s.sched.paused[p] || s.sched.hostPause[p] then m ||| s.sec.grants[p].coreMask else m) 0

/-- The other cores ramp their ballast down from the boundary on, and their clocks stop after the 16 grains of the ramp (R178, R378); a
clock whose ramp has ended is stopped. -/
def State.stopClocks (s : State) : State :=
  let mask := s.clockedCores
  (List.finRange 8).foldl (fun (s : State) c =>
    if mask.getLsbD c.val then s
    else if s.clockStopped c then s.updCorePower c fun x => { x with stopped := true, stopDue := none, filler := .off }
    else s.updCorePower c fun x => { x with
      filler := .rampDown, stopDue := x.stopDue.or (some (s.sched.spanStart.toNat + 16000)) }) s

/-- The nanoseconds of an operating hour. -/
def opHourNs : Nat := 3600000000000

/-- The power manager at a boundary that ends `ns` nanoseconds of service; images have started. -/
def State.powerBoundary (s : State) (ns : Nat) : State :=
  let s := s.thermalEnd
  let s := if s.pm.limitEnding then { s with pm := { s.pm with limitClamp := false, limitEnding := false } } else s
  let s := (List.finRange 8).foldl (fun (s : State) c => s.updCorePower c fun x => { x with
    monitor := x.monitor.bind fun m => if s.pm.needMv m.2.toNat ≤ s.pm.railMv ∧ !s.pm.marginDue.getLsbD m.2.toNat then none else some m }) s
  let s := (List.finRange 8).foldl State.boundaryClock s
  let ran := (List.finRange 8).foldl (fun (m : Byte) c =>
    if s.clockStopped c then m else m ||| (1 <<< s.pm.cores[c].op.toNat)) s.pm.ranAt
  let total := s.pm.opNs + ns
  { s with pm := { s.pm with
    clampSpans := s.pm.clampSpans.map (· + 1), sampleSum := 0, sampleCount := 0, ranAt := ran
    opHours := countUp s.pm.opHours (total / opHourNs), opNs := total % opHourNs } }.stopClocks

/-! ## Sensors, pins and monitors -/

/-- The clocks of the power manager run. -/
def State.powerOn (s : State) : Bool := !s.dev.inReset && decide (s.dev.phase ≠ .parked)

/-- A reading of the regulator, and the estimate of the other rails, which the spec does not give (R379, log 7). -/
def State.pmbusPoll (s : State) (answered : Bool) (mv : Half) (ma : Word) : State :=
  if !s.powerOn || !s.pm.pmbusOk || !answered then s
  else
    let (other, s) := s.drawBelow 65536
    { s with pm := { s.pm with
      vrailMv := mv, sampleSum := s.pm.sampleSum + mv.toNat * ma.toNat / 1000 + other, sampleCount := s.pm.sampleCount + 1 } }

/-- A sensor clamps: its core, or every core. A clamp is recorded unless all those cores are clamped by this sensor already (R386). -/
def State.thermalClamp (s : State) (n : Fin 24) : State :=
  let bit : BitVec 24 := 1 <<< n.val
  let mine (c : Fin 8) : Bool := decide (16 ≤ n.val ∨ c.val = n.val / 2)
  let on := (List.finRange 8).all fun c => !mine c || s.pm.cores[c].thermal.getLsbD n.val
  let s := (List.finRange 8).foldl (fun (s : State) c =>
    if mine c then s.updCorePower c fun x => { x with thermal := x.thermal ||| bit, thermalEnding := false } else s) s
  let s := if on then s else
    State.pmEvent { s with pm := { s.pm with clampSpans := s.pm.clampSpans.set n 0 } } 0x0F05 n.val
      (if n.val < 16 then n.val / 2 else 0xFF) (patOf 32 (s.pm.temp n))
  s.clampClocks

/-- A conversion (R386 to R388). -/
def State.conversion (s : State) (n : Fin 24) (t : Half) : State :=
  if !s.powerOn then s
  else
    let s := { s with pm := { s.pm with
      temps := s.pm.temps.set n t
      coolSince := s.pm.coolSince.set n (if t.toInt < s.pm.release then some (s.pm.coolSince[n].getD s.dtNs) else none) } }
    let s := if s.pm.throttle ≤ t.toInt then s.thermalClamp n else s
    if 1250 ≤ t.toInt ∧ !s.pm.thermtrip then
      State.fatal { s with pm := { s.pm with thermtrip := true } } true 0x0F 0x0F0A n.val (patOf 32 t.toInt) 0
    else s

/-- The nanoseconds for which the causing sensors are to have read below `RELEASE_C`: 10 ms. -/
def coolNs : Nat := 10000000

/-- Clamps whose every causing sensor has read below `RELEASE_C` for 10 ms end at the next boundary (R387). -/
def State.thermRelease (s : State) : State :=
  (List.finRange 8).foldl (fun (s : State) (c : Fin 8) =>
    let x := s.pm.cores[c]
    let cool : Bool := (List.finRange 24).all fun n => !x.thermal.getLsbD n.val ||
      match s.pm.coolSince[n] with
      | some t => decide (t + coolNs ≤ s.dtNs)
      | none => false
    if x.thermal ≠ 0 ∧ cool then s.updCorePower c fun x => { x with thermalEnding := true } else s) s

/-- The pin moves while it is ignored: a level that it holds when READY is reached clamps from there on, and in FAULT nothing more happens
(R444). -/
def State.limitIgnored (s : State) (low : Bool) : State :=
  { s with pins := { s.pins with pwrLimitN := !low }
           pm := { s.pm with limitClamp := if s.dev.phase = .fault then s.pm.limitClamp else low } }

/-- `PWR_LIMIT_N` has been low for 1 us (R384). -/
def State.limitAssert (s : State) : State :=
  if !s.isReady then s.limitIgnored true
  else if s.limitActive then s
  else
    let s := { s with pins := { s.pins with pwrLimitN := false } }
    let s := { s with pm := { s.pm with limitClamp := true, limitEnding := false, limitSince := s.dtNs } }
    (s.pmEvent 0x0F07 0 0 0).clampClocks

/-- `PWR_LIMIT_N` has been high for 1 ms. -/
def State.limitRelease (s : State) : State :=
  if !s.isReady then s.limitIgnored false
  else if !s.limitActive then s
  else
    let s := { s with pins := { s.pins with pwrLimitN := true }, pm := { s.pm with limitEnding := true } }
    s.pmEvent 0x0F07 1 ((s.dtNs - s.pm.limitSince) / 1000) 0

/-- A monitor reports low slack (R389). -/
def State.monitorAlarm (s : State) (m : Fin 48) : State :=
  if !s.powerOn then s
  else
    let s := { s with pm := { s.pm with monCount := countUp s.pm.monCount 1, monAlarm := true } }
    if h : m.val < 40 then
      let c : Fin 8 := ⟨m.val / 5, by omega⟩
      let op := s.pm.cores[c].op
      let bit : Byte := 1 <<< op.toNat
      let s := s.updCorePower c fun x => { x with monitor := some (BitVec.ofNat 3 (op.toNat - 1), op) }
      let s := { s with pm := { s.pm with marginDue := s.pm.marginDue ||| bit, alarmAt := s.pm.alarmAt ||| bit } }
      (s.pmEvent 0x0F08 m.val c.val op.toNat).clampClocks
    else
      let (p, s) := s.drawBelow 8
      s.pmEvent 0x0F08 m.val 0xFF p

/-- The margins of the points that cores ran at without an alarm go down by 5 mV, to no less than 15; whether the least slack
recorded was enough is not given, and is free (R390, log 7). -/
def State.marginTrim (s : State) : State :=
  if !s.pm.trimEn || !s.isReady || decide (s.pm.opHours.toNat < s.pm.trimHours.toNat + 1000) then s
  else
    let s := (List.finRange 8).foldl (fun (s : State) (k : Fin 8) =>
      let (slack, s) : Nat × State := s.drawBelow 2
      let old := s.pm.margins[k]
      let new := max 15 (old - 5)
      if s.pm.ranAt.getLsbD k.val ∧ !s.pm.alarmAt.getLsbD k.val ∧ slack = 1 ∧ new < old then s.setMargin k new else s) s
    { s with pm := { s.pm with ranAt := 0, alarmAt := 0, trimHours := s.pm.opHours } }

/-! ## The rows -/

/-- PMBUS_POLL (R379). -/
def execPmbusPoll (answered : Bool) (mv : Half) (ma : Word) (s : State) : Host.Outcome State Fault Refusal :=
  .next (s.pmbusPoll answered mv ma)
/-- THERMAL_CONVERSION (R386). -/
def execThermalConversion (n : Fin 24) (t : Half) (s : State) : Host.Outcome State Fault Refusal := .next (s.conversion n t)
/-- PWR_THERM_RELEASE (R387). -/
def execPwrThermRelease (s : State) : Host.Outcome State Fault Refusal := .next s.thermRelease
/-- PWR_LIMIT_ASSERT (R384). -/
def execPwrLimitAssert (s : State) : Host.Outcome State Fault Refusal := .next s.limitAssert
/-- PWR_LIMIT_RELEASE (R384). -/
def execPwrLimitRelease (s : State) : Host.Outcome State Fault Refusal := .next s.limitRelease
/-- PWR_MON_ALARM (R389). -/
def execPwrMonAlarm (m : Fin 48) (s : State) : Host.Outcome State Fault Refusal := .next (s.monitorAlarm m)
/-- PWR_MARGIN_TRIM (R390). -/
def execPwrMarginTrim (s : State) : Host.Outcome State Fault Refusal := .next s.marginTrim

end Sys2Proof.Machine
end

