-- ==== Sys2Proof/Machine/SchedLoad.lean ====
section
/-!
DEFINITION. SCHED_LOAD: a span image read from its bytes, the ten load checks, and what the SCHED_ commands do (R54 to R66,
R77, R81, R458).
-/
namespace Sys2Proof.Machine

/-- A check that failed: its number, the failing item and the deficit (R66). -/
structure LoadFail where
  check : Nat
  detail : Nat
  deficit : Nat
  deriving DecidableEq, Repr

/-- A failing claim in result word 1. -/
def itemClaim (resource index : Nat) : Nat := 65536 * (index % 256) + resource % 65536
/-- A failing item of another kind: its code, its target, its index. -/
def itemOf (kind target index : Nat) : Nat := 2 ^ 24 * kind + 2 ^ 16 * target + index

/-! ## The image's bytes (R58 to R64, R458) -/

/-- A section table entry. -/
structure SectionEntry where
  index : Nat
  type : Nat
  target : Nat
  reserved : Nat
  offset : Nat
  size : Nat
  crc : Nat
  deriving DecidableEq, Repr

/-- The section table. -/
def sectionTable (raw : List Byte) : List SectionEntry :=
  (List.range (fieldAt raw 16 2)).map fun i =>
    let e := raw.drop (128 + 16 * i)
    { index := i, type := fieldAt e 0 2, target := fieldAt e 2 1, reserved := fieldAt e 3 1, offset := fieldAt e 4 4,
      size := fieldAt e 8 4, crc := fieldAt e 12 4 }

/-- The bytes of a section. -/
def SectionEntry.body (e : SectionEntry) (raw : List Byte) : List Byte := (raw.drop e.offset).take e.size

/-- The body of the section of a type, empty without one. -/
def bodyOf (raw : List Byte) (type : Nat) : List Byte :=
  match (sectionTable raw).find? fun e => decide (e.type = type) with
  | some e => e.body raw
  | none => []

/-- The entries of a section, `n` bytes each. -/
def rowsOf (n : Nat) (bs : List Byte) : List (List Byte) := (List.range (bs.length / n)).map fun i => (bs.drop (n * i)).take n

/-- A 16-byte operation (R64). -/
def parseOp (b : List Byte) : Op :=
  let fl := fieldAt b 1 1
  { opcode := fieldAt b 0 1, wait := fl.testBit 0, set := fl.testBit 1, clearOnIssue := fl.testBit 2, retryable := fl.testBit 3
    waitFlag := fieldAt b 2 2 % 4096, setFlag := fieldAt b 4 2 % 4096, earliest := fieldAt b 6 2, latest := fieldAt b 8 2
    argA := fieldAt b 10 2, argB := fieldAt b 12 4 }

/-- A resource claim (R61). -/
def parseClaim (b : List Byte) : Claim := { resource := fieldAt b 0 2, index := fieldAt b 2 2, amount := fieldAt b 8 8 }
/-- A trigger entry (R62). -/
def parseTrigger (b : List Byte) : TrigEntry :=
  { offsetNs := fieldAt b 0 4, widthNs := fieldAt b 4 4, pin := fieldAt b 8 1, stamps := (fieldAt b 9 1).testBit 0, stream := fieldAt b 10 1 }
/-- A flag entry (R63). -/
def parseFlag (b : List Byte) : FlagEntry :=
  { flag := fieldAt b 0 2, producer := fieldAt b 2 1, policy := fieldAt b 3 1, consumers := fieldAt b 4 4 }
/-- A traffic entry of a number of windows (R458). -/
def parseTraffic (windows : Nat) (b : List Byte) : TrafficEntry :=
  { kind := fieldAt b 0 1, index := fieldAt b 1 1, dir := fieldAt b 2 1
    values := (List.range windows).map fun w => fieldAt b (8 + 4 * w) 4 }

/-- The windows that a TRAFFIC section gives. -/
def trafficWindows (body : List Byte) : Nat := fieldAt body 2 2
/-- The entries of a TRAFFIC section, as bytes. -/
def trafficEntries (body : List Byte) : List (List Byte) :=
  (rowsOf (8 + 4 * trafficWindows body) (body.drop 16)).take (fieldAt body 4 2)

/-- The image that the bytes give. -/
def parseImage (raw : List Byte) : Image where
  spanGrains := fieldAt raw 12 4
  partition := ⟨fieldAt raw 18 1 % 4, Nat.mod_lt _ (by decide)⟩
  rung := fieldAt raw 19 1
  coreMask := raw.getD 20 0
  variantKind := fieldAt raw 21 1
  variantCore := fieldAt raw 22 1
  familySig := fieldAt raw 24 8
  retrySlack := fieldAt raw 32 4
  ballastStart := fieldAt raw 36 4
  trigMask := fieldAt raw 40 2
  buildId := fieldAt raw 44 4
  digest := (raw.drop 80).take 48
  claims := (rowsOf 16 (bodyOf raw 1)).map parseClaim
  triggers := (rowsOf 16 (bodyOf raw 2)).map parseTrigger
  flags := (rowsOf 8 (bodyOf raw 3)).map parseFlag
  sections := ((sectionTable raw).filter fun e => decide (e.type = 4)).map fun e =>
    { target := e.target, ops := (rowsOf 16 (e.body raw)).map parseOp }
  traffic := (trafficEntries (bodyOf raw 5)).map (parseTraffic (trafficWindows (bodyOf raw 5)))
  objects := (rowsOf 4 (bodyOf raw 6)).map fun b => fieldAt b 0 4
  params := bodyOf raw 7

/-! ## Check 2 -/

/-- Bytes of a range are zero. -/
def zeroAt (bs : List Byte) (off n : Nat) : Bool := ((bs.drop off).take n).all fun b => decide (b = 0)

/-- The first header field out of its range, as its byte offset (R58). -/
def headerBad (raw : List Byte) : Option Nat :=
  let span := fieldAt raw 12 4
  let tests : List (Nat × Bool) := [
    (0, decide (fieldAt raw 0 4 = 0x4E415053)), (4, decide (fieldAt raw 4 2 = 2)), (6, decide (fieldAt raw 6 2 = 0x80)),
    (8, decide (fieldAt raw 8 4 = raw.length ∧ raw.length ≤ 0x200000)), (12, within span 1000 50000),
    (16, within (fieldAt raw 16 2) 1 64 && decide (128 + 16 * fieldAt raw 16 2 ≤ raw.length)), (18, decide (fieldAt raw 18 1 ≤ 3)),
    (19, decide (fieldAt raw 19 1 ≤ 5)), (21, decide (fieldAt raw 21 1 ≤ 1)),
    (22, decide (fieldAt raw 22 1 ≤ if fieldAt raw 21 1 = 1 then 7 else 0)), (23, zeroAt raw 23 1),
    (32, decide (fieldAt raw 32 4 ≤ 1000)), (36, decide (fieldAt raw 36 4 + 16 ≤ span)), (42, zeroAt raw 42 2), (48, zeroAt raw 48 32)]
  (tests.find? fun t => !t.2).map (·.1)

/-- The bytes of an entry of a section type; none for a type that is not known. -/
def sectionUnit : Nat → Option Nat
  | 1 | 2 | 4 => some 16
  | 3 => some 8
  | 5 | 7 => some 1
  | 6 => some 4
  | _ => none

/-- A section table entry is as R59 gives it. That a section which overlaps the header or the table, or whose size is no multiple of
its entries', is refused here, under check 2, is the model's choice (DESIGN CHOICE, log 63). -/
def SectionEntry.ok (e : SectionEntry) (raw : List Byte) : Bool :=
  let tbl := sectionTable raw
  match sectionUnit e.type with
  | none => false
  | some u =>
    decide (e.reserved = 0 ∧ e.offset % 64 = 0 ∧ 128 + 16 * tbl.length ≤ e.offset ∧ e.offset + e.size ≤ raw.length ∧ e.size % u = 0)
      && (if e.type = 4 then isTarget e.target else decide (e.target = 0)) && (decide (e.type ≠ 2) || decide (e.size ≤ 4096))
      && !(tbl.take e.index).any fun x => decide (x.type = e.type ∧ x.target = e.target)

/-- The first element of a list that fails a test, by its index. -/
def firstBad {α : Type} (ok : α → Bool) (l : List α) : Option Nat := l.findIdx? fun a => !ok a

/-- The first entry of TRAFFIC that breaks the layout. -/
def trafficBad (entries : List (List Byte)) : Option Nat :=
  (List.range entries.length).find? fun i =>
    let b := entries.getD i []
    let k := fieldAt b 0 1
    !((if k = 0 then linkExists (fieldAt b 1 1) && decide (fieldAt b 2 1 = 0)
        else decide (k = 1 ∧ fieldAt b 1 1 ≤ 31 ∧ fieldAt b 2 1 ≤ 1)) && zeroAt b 3 5)
      || (entries.take i).any fun x => decide (x.take 3 = b.take 3)

/-- The header of TRAFFIC is as R458 gives it. -/
def trafficHeadOk (raw body : List Byte) : Bool :=
  let g := fieldAt body 0 2
  let n := fieldAt body 4 2
  within g 1 1000 && decide (trafficWindows body = ceilDiv (fieldAt raw 12 4) g) && within n 1 112 && zeroAt body 6 10
    && decide (body.length = 16 + n * (8 + 4 * trafficWindows body))

/-- Reserved fields of a claim are zero, and its resource is one of R61. -/
def claimRowOk (b : List Byte) : Bool := within (fieldAt b 0 2) 1 0x0B && zeroAt b 4 4
/-- Reserved fields of a trigger entry are zero. -/
def triggerRowOk (b : List Byte) : Bool := decide (fieldAt b 9 1 ≤ 1) && zeroAt b 11 5
/-- A flag entry names a flag, a target, a policy and targets. -/
def flagRowOk (b : List Byte) : Bool :=
  decide (fieldAt b 0 2 < 4096 ∧ fieldAt b 3 1 ≤ 1 ∧ fieldAt b 4 4 % 2 ^ 16 / 2 ^ 8 = 0 ∧ fieldAt b 4 4 < 2 ^ 27) && isTarget (fieldAt b 2 1)
/-- Reserved bits of an operation are zero. -/
def opRowOk (b : List Byte) : Bool := decide (fieldAt b 1 1 < 16 ∧ fieldAt b 2 2 < 4096 ∧ fieldAt b 4 2 < 4096)

/-- The first flag entry that fails, or repeats a flag, by its flag. That a repeat is refused under check 2, and that an entry outside
the claimed range which no operation names is accepted, is the model's choice (DESIGN CHOICE, log 63). -/
def flagBad (rows : List (List Byte)) : Option Nat :=
  ((List.range rows.length).find? fun i =>
    let b := rows.getD i []
    !flagRowOk b || (rows.take i).any fun x => decide (fieldAt x 0 2 = fieldAt b 0 2)).map fun i => fieldAt (rows.getD i []) 0 2

/-- The first operation with reserved bits set, as result word 1 names it. -/
def opBad (raw : List Byte) : Option Nat :=
  ((sectionTable raw).filter fun e => decide (e.type = 4)).findSome? fun e =>
    (firstBad opRowOk (rowsOf 16 (e.body raw))).map fun i => itemOf 2 e.target i

/-- The first item that fails check 2, as result word 1 names it. The order of the tests inside the check, and that a missing CLAIMS,
FLAGS or TRAFFIC section is reported as the header's `SECTION_COUNT` at byte 16, is the model's choice (DESIGN CHOICE, log 63). -/
def formatBad (raw : List Byte) : Option Nat :=
  let tbl := sectionTable raw
  let missing : Bool := [1, 3, 5].any fun t => !tbl.any fun e => decide (e.type = t)
  let claims := rowsOf 16 (bodyOf raw 1)
  let traffic := bodyOf raw 5
  let at5 := ((tbl.find? fun e => decide (e.type = 5)).map (·.index)).getD 0
  ((headerBad raw).map (itemOf 7 0)).or <|
    ((firstBad (fun e => e.ok raw) tbl).map (itemOf 1 0)).or <|
    (if missing then some (itemOf 7 0 16) else none).or <|
    ((claims.find? fun b => !claimRowOk b).map fun b => itemClaim (fieldAt b 0 2) (fieldAt b 2 2)).or <|
    ((firstBad triggerRowOk (rowsOf 16 (bodyOf raw 2))).map (itemOf 4 0)).or <|
    ((flagBad (rowsOf 8 (bodyOf raw 3))).map (itemOf 3 0)).or <|
    (opBad raw).or <|
    (if trafficHeadOk raw traffic then (trafficBad (trafficEntries traffic)).map (itemOf 6 0) else some (itemOf 1 0 at5)).or <|
    ((firstBad (fun e => decide ((crc32 (e.body raw)).toNat = e.crc)) tbl).map (itemOf 1 0)).or <|
    if sha384 (raw.take 80 ++ raw.drop 128) = (raw.drop 80).take 48 then none else some (itemOf 7 0 80)

/-! ## Checks 5 to 10 on a parsed image -/

/-- Check 5: the first operation or section that fails. -/
def Image.check5 (img : Image) (s : State) (sec : Nat → Nat) : Option LoadFail :=
  img.sections.findSome? fun x =>
    match img.badOp s x.target 0 { earliest := 0, ended := false, batches := { held := [], grids := [] } } x.ops with
    | some i => some { check := 5, detail := itemOf 2 x.target i, deficit := 0 }
    | none => if img.moverOk x then none else some { check := 5, detail := itemOf 1 0 (sec x.target), deficit := 0 }

/-- A claim's index lies in its column of R61. -/
def Claim.inColumn (c : Claim) : Bool :=
  match c.resource with
  | 0x0001 | 0x0006 | 0x000B => decide (c.index < 8)
  | 0x0002 => within c.index 0x10 0x1A
  | 0x0004 => decide (c.index < 4096)
  | 0x0007 => within c.index 0x10 0x17
  | _ => decide (c.index = 0)

/-- Check 6: sections claimed, cores in the mask and in the grant, and the claims' indexes. -/
def Image.check6 (img : Image) (s : State) (sec : Nat → Nat) : Option LoadFail :=
  let fail (d : Nat) : LoadFail := { check := 6, detail := d, deficit := 0 }
  let claimed (t : Nat) : Bool := img.claims.any fun c => decide (c.resource = (if t < 8 then 1 else 2) ∧ c.index = t)
  let inMask (t : Nat) : Bool := decide (8 ≤ t) || img.coreMask.getLsbD t
  let claimBad : Option Nat := (List.range img.claims.length).find? fun i =>
    match img.claims[i]? with
    | none => false
    | some c => !c.inColumn || (decide (c.resource = 1) && !inMask c.index) ||
        (img.claims.take i).any fun y => decide (y.resource = c.resource ∧ y.index = c.index)
  match img.sections.find? fun x => !claimed x.target || !inMask x.target with
  | some x => some (fail (itemOf 1 0 (sec x.target)))
  | none =>
    if img.coreMask &&& ~~~ s.sec.grants[img.partition].coreMask ≠ 0 then some (fail (itemOf 7 0 20))
    else (claimBad.bind fun i => img.claims[i]?).map fun c => fail (itemClaim c.resource c.index)

/-- A trigger entry passes check 7. -/
def Image.triggerOk (img : Image) (s : State) (e : TrigEntry) : Bool :=
  decide (e.offsetNs < img.spanGrains * 1000) && img.trigMask.testBit e.pin
    && (if h : e.pin < 16 then
          let m := s.tu.trigs[e.pin].mode
          decide (m ≠ 1 ∧ m ≠ 2) && s.sec.grants[img.partition].trigMask.getLsbD e.pin
        else false)
    && (!e.stamps || (decide (e.stream < 32) && (img.claim 0x0009 0).testBit e.stream))

/-- Check 7. -/
def Image.check7 (img : Image) (s : State) : Option LoadFail :=
  (firstBad (img.triggerOk s) img.triggers).map fun i => { check := 7, detail := itemOf 4 0 i, deficit := 0 }

/-- Check 8: the objects are loaded, every page of them resident, and of the partition (R306). -/
def Image.check8 (img : Image) (s : State) : Option LoadFail :=
  let ok (h : Nat) : Bool := decide (handlePart h = img.partition) && match s.obj h with
    | some o => o.whole && !o.freeing
    | none => false
  (firstBad ok img.objects).map fun i => { check := 8, detail := itemOf 5 0 i, deficit := 0 }

/-- The SRAM of the engine of a target, 0 where an image may claim none (R61). -/
def sramSize : Nat → Nat
  | 0x10 | 0x12 => 0x100000
  | 0x11 => 0x80000
  | 0x13 | 0x15 => 0x200000
  | 0x14 | 0x16 | 0x17 => 0x800000
  | _ => 0

/-- By how much a claim exceeds its row's limit or the grant; none within both (check 9). Pins and channels have no unit, and
show none. -/
def Image.claimOver (img : Image) (s : State) (c : Claim) : Option Nat :=
  let p := img.partition
  let g := s.sec.grants[p]
  let overs (limit : Nat) : Option Nat := if limit < c.amount then some (c.amount - limit) else none
  let core := g.coreMask.getLsbD c.index
  match c.resource with
  | 0x0001 => overs (if core then img.spanGrains else 0)
  | 0x0002 => if p = 0 ∨ c.index = 0x1A then overs img.spanGrains else some (max c.amount 1)
  | 0x0003 => if 3072 < c.amount + s.quotaOf [] p ∨ s.poolShare p < c.amount + s.quotaOf [] p then
      some (c.amount + s.quotaOf [] p - min 3072 (s.poolShare p)) else none
  | 0x0004 =>
    let bad := ((List.range (min c.amount 4096)).filter fun k => !s.holdsFlags p (c.index + k) 1).length + (c.amount - 4096)
    if bad = 0 then none else some bad
  | 0x0005 => overs g.dramBytes
  | 0x0006 => overs (if core then scratchSize else 0)
  | 0x0007 => if p = 0 then overs (sramSize c.index) else some (max c.amount 1)
  | 0x0008 => if c.amount &&& g.trigMask.toNat = c.amount then none else some 0
  | 0x0009 => if c.amount &&& g.chanMask.toNat = c.amount then none else some 0
  | 0x000A => if p = 0 then none else overs 0
  | _ => overs (if core then 100 else 0)

/-- Check 9: the first claim beyond the grant. -/
def Image.check9 (img : Image) (s : State) : Option LoadFail :=
  img.claims.findSome? fun c =>
    (img.claimOver s c).map fun d => { check := 9, detail := itemClaim c.resource c.index, deficit := d }

/-- The bytes that a path may carry in a grain: 90 % of a link or of one direction of a port (R458). -/
def TrafficEntry.cap (e : TrafficEntry) : Nat := if e.kind = 0 then 184320 else 92160
/-- The greatest value of an entry. -/
def TrafficEntry.peak (e : TrafficEntry) : Nat := e.values.foldl max 0

/-- Check 10. -/
def Image.check10 (img : Image) : Option LoadFail :=
  (img.traffic.findIdx? fun e => decide (e.cap < e.peak)).map fun i =>
    { check := 10, detail := itemOf 6 0 i, deficit := ((img.traffic[i]?).map fun e => e.peak - e.cap).getD 0 }

/-- Some partition runs an image of another span length (check 4). -/
def State.otherLength (s : State) (grains : Nat) : Bool :=
  (List.finRange 4).any fun p => match s.image p with
    | some i => decide (i.spanGrains ≠ grains)
    | none => false

/-- Checks 3 to 10 of an image, the section table index of each target given. -/
def Image.failing (img : Image) (s : State) (sec : Nat → Nat) : Option LoadFail :=
  let fail (k : Nat) : LoadFail := { check := k, detail := 0, deficit := 0 }
  (if s.sec.grants[img.partition].state = 2 then some { fail 3 with detail := itemOf 7 0 18 } else none).or <|
    (if s.otherLength img.spanGrains then some { fail 4 with detail := itemOf 7 0 12 } else none).or <|
    (img.check5 s sec).or <| (img.check6 s sec).or <| (img.check7 s).or <| (img.check8 s).or <| (img.check9 s).or img.check10

/-- The status of a failed check (R66). -/
def LoadFail.status (f : LoadFail) : Nat :=
  match f.check with
  | 1 => errNoResource
  | 3 => errScrubbing
  | 9 | 10 => errTooLarge
  | _ => errArg

/-- The first check that fails (R66). -/
def State.loadFails (s : State) (raw : List Byte) : Option LoadFail :=
  if s.sched.slots.all (·.isSome) then some { check := 1, detail := 0, deficit := 0 }
  else match formatBad raw with
    | some d => some { check := 2, detail := d, deficit := 0 }
    | none =>
      let sec (t : Nat) : Nat := (((sectionTable raw).find? fun e => decide (e.type = 4 ∧ e.target = t)).map (·.index)).getD 0
      (parseImage raw).failing s sec

/-! ## Slots (R46, R54, R306) -/

/-- Trigger pins that some resident image's table names. -/
def State.pinNamed (s : State) (n : Fin 16) : Bool :=
  s.sched.slots.any fun x => match x with
    | some img => img.triggers.any fun e => decide (e.pin = n.val)
    | none => false

/-- Image mode set on the pins that a resident image names, and ended on the others (R46). -/
def State.settlePins (s : State) : State :=
  (List.finRange 16).foldl (fun (s : State) n =>
    if s.pinNamed n then s.updTrig n fun t => { t with mode := 3, nextAt := none }
    else if s.tu.trigs[n].mode = 3 then s.updTrig n fun t => { t with mode := 0 } else s) s

/-- An image put into a slot: it pins its objects, and its pins go to image mode. -/
def State.placeImage (s : State) (k : Fin 64) (img : Image) : State :=
  let s := { s with sched := { s.sched with slots := s.sched.slots.set k (some img) } }
  (img.objects.foldl (fun (s : State) h => s.pin h (.image k.val)) s).settlePins

/-- A slot freed: the image unpins its objects, and no mode 1 command names it any longer (R77). -/
def State.dropImage (s : State) (k : Fin 64) : State :=
  match s.sched.slots[k] with
  | none => s
  | some img =>
    let s := img.objects.foldl (fun (s : State) h => s.unpin h (.image k.val)) s
    let s := { s with sched := { s.sched with
      slots := s.sched.slots.set k none
      named := s.sched.named.map fun (x : Option (Fin 64)) => if x = some k then none else x } }
    s.settlePins

/-- SCHED_LOAD carried out. -/
def State.schedLoad (c : SubEntry) (s : State) : State :=
  let raw := s.bulkIn c
  if fieldAt raw 18 1 ≠ (s.partOf c).val then s.replyErr c errPartition
  else match s.loadFails raw with
    | some f => (s.event 0x00 0x0007 f.check f.detail f.deficit).reply c f.status f.check f.detail f.deficit 0
    | none =>
      match (List.finRange 64).find? fun k => s.sched.slots[k].isNone with
      | some k => (s.placeImage k (parseImage raw)).reply c stOk k.val 0 0 0
      | none => s

/-! ## Starting (R30, R55, R57, R81) -/

/-- The resident images of a family of a partition, with their slots, the lowest first. -/
def State.familyOf (s : State) (p : Fin 4) (sig : Nat) : List (Fin 64 × Image) :=
  if sig = 0 then [] else
  (List.finRange 64).filterMap fun k => match s.sched.slots[k] with
    | some img => if img.partition = p ∧ img.familySig = sig then some (k, img) else none
    | none => none

/-- The time requirement of SCHED_START (R30). -/
def State.timeReady (s : State) : Bool :=
  !s.tu.requireLock || (s.tu.aligned && (s.tu.baseA.isLocked || s.tu.baseB.isLocked))

/-- The span length of the first image of partition 0's family. -/
def State.refLength (s : State) (sig : Nat) : Nat := ((s.familyOf 0 sig).head?.map fun x => x.2.spanGrains).getD 0

/-- The lowest slot of an image of the named families whose length differs from the reference. -/
def State.oddLength (s : State) (fams : Fin 4 → Nat) : Option (Fin 64) :=
  (List.finRange 64).find? fun k => match s.sched.slots[k] with
    | some img => decide (fams img.partition ≠ 0 ∧ img.familySig = fams img.partition ∧ img.spanGrains ≠ s.refLength (fams 0))
    | none => false

/-- The schedule RUNNING, with S0 to come: `grains` a span, and the family of each partition (R57, R77, R81). -/
def State.schedBegin (s : State) (grains : Nat) (fams : Fin 4 → Nat) : State :=
  let s0 := 1000 * ceilDiv (s.dtNs + 2000000) 1000
  let s := { s with sched := { s.sched with
    state := .running, beforeS0 := true, spanGrains := BitVec.ofNat 16 grains, spanCount := 0, nextBoundary := s0
    latched := false, running := Vector.replicate 4 none, latchSlot := Vector.replicate 4 none
    paused := Vector.replicate 4 false, rungCur := Vector.replicate 4 none, overCur := 0, overPrev := 0
    family := Vector.ofFn fun p => if fams p = 0 then none else some (fams p)
    named := Vector.ofFn fun p => if fams p = 0 then s.sched.named[p] else none } }
  s.fusStart.raiseIrq irqState

/-- SCHED_START carried out. -/
def State.schedStart (c : SubEntry) (s : State) : State :=
  let fams (p : Fin 4) : Nat := c.p (8 * p.val) 8
  let own := s.familyOf 0 (fams 0)
  let has (r : Nat) : Bool := own.any fun x => decide (x.2.rung = r)
  if s.sched.state ≠ .stopped then s.replyErr c errArg
  else if !s.timeReady then s.replyErr c errTime
  else if !has 0 then s.reply c errArg 0xFFFFFFFF 0 0 0
  else if !has 5 then s.reply c errArg 0xFFFFFFFF 5 0 0
  else match s.oddLength fams with
    | some k => s.reply c errArg k.val 0xFFFFFFFF 0 0
    | none =>
      if (List.finRange 4).any fun p => decide (fams p ≠ 0 ∧ s.sec.grants[p].state = 2) then s.replyErr c errScrubbing
      else (s.addJob c .schedStart).schedBegin (s.refLength (fams 0)) fams

/-- A stop requested: `STOPPING`, which ends the service of R248. -/
def State.beginStop (s : State) : State :=
  State.leaveService { s with sched := { s.sched with state := .stopping } } s.permitService

/-- SCHED_STOP carried out. -/
def State.schedStop (c : SubEntry) (s : State) : State :=
  match s.sched.state with
  | .stopped => s.replyOk c
  | _ => (s.addJob c .schedStop).beginStop

/-! ## SCHED_SELECT, SCHED_UNLOAD and SCHED_STATUS (R77, R81, R356) -/

/-- A selection recorded: the rung, the named slot or the pause. -/
def State.applySelect (s : State) (p : Fin 4) (mode rung slot : Nat) : State :=
  match mode with
  | 0 => { s with sched := { s.sched with hostRung := s.sched.hostRung.set p rung } }
  | 1 =>
    { s with sched := { s.sched with
      named := s.sched.named.set p (if h : slot < 64 then some ⟨slot, h⟩ else none), hostPause := s.sched.hostPause.set p false } }
  | _ => { s with sched := { s.sched with named := s.sched.named.set p none, hostPause := s.sched.hostPause.set p true } }

/-- Why a SCHED_SELECT is turned away. -/
def State.selectFails (s : State) (p : Fin 4) (mode rung slot : Nat) : Option Nat :=
  let img : Option Image := if h : slot < 64 then s.sched.slots[slot] else none
  if s.sched.state = .stopping ∨ 2 < mode ∨ 5 < rung ∨ 63 < slot then some errArg
  else if s.sec.grants[p].state = 2 then some errScrubbing
  else if mode = 2 ∧ p = 0 then some errArg
  else if mode = 1 then
    match img with
    | none => some errArg
    | some i =>
      if i.partition ≠ p then some errPartition
      else if s.sched.state = .running ∧ i.spanGrains ≠ s.sched.spanGrains.toNat then some errArg
      else none
  else none

/-- SCHED_SELECT carried out: while the schedule is STOPPED the mode is recorded at once, and the command completes at S0. -/
def State.schedSelect (c : SubEntry) (s : State) : State :=
  let p := s.partOf c
  match s.selectFails p (c.p 0 1) (c.p 1 1) (c.p 2 1) with
  | some e => s.replyErr c e
  | none =>
    let stopped : Bool := decide (s.sched.state = .stopped)
    let s := s.addJob c (.schedSelect (c.p 0 1) (c.p 1 1) (c.p 2 1) stopped)
    if stopped then s.applySelect p (c.p 0 1) (c.p 1 1) (c.p 2 1) else s

/-- SCHED_UNLOAD carried out. -/
def State.schedUnload (c : SubEntry) (s : State) : State :=
  if h : c.p 0 1 < 64 then
    let k : Fin 64 := ⟨c.p 0 1, h⟩
    match s.sched.slots[k] with
    | none => s.replyErr c errArg
    | some img =>
      let used (v : Vector (Option (Fin 64)) 4) : Bool := v.any fun x => decide (x = some k)
      if img.partition ≠ s.partOf c then s.replyErr c errPartition
      else if s.sec.grants[img.partition].state = 2 then s.replyErr c errScrubbing
      else if s.sched.state ≠ .stopped ∧ (used s.sched.running || used s.sched.latchSlot) then s.replyErr c errArg
      else (s.dropImage k).replyOk c
  else s.replyErr c errArg

/-- `SC_RUNNING_p` (R82). -/
def State.runningByte (s : State) (p : Fin 4) : Nat :=
  let x := s.sched
  if !s.inSpan ∨ s.sec.grants[p].state = 0 then 0x40
  else match x.running[p] with
    | some k => k.val
    | none => if x.paused[p] || x.hostPause[p] || decide (s.sec.grants[p].state = 2) then 0x80 else 0x40

/-- The state of the span controller as `SC_STATUS` gives it. -/
def SpanState.code : SpanState → Nat
  | .stopped => 0
  | .running => 1
  | .stopping => 2

/-- SCHED_STATUS carried out. -/
def State.schedStatus (c : SubEntry) (s : State) : State :=
  let row (x : Option Image) : List Byte :=
    match x with
    | some i => natLe 1 i.partition.val ++ natLe 1 i.rung ++ natLe 1 i.variantKind ++ natLe 1 i.variantCore ++ natLe 4 i.buildId
    | none => natLe 1 0xFF ++ List.replicate 7 0
  let packed := (List.finRange 4).foldl (fun n p => n + 2 ^ (8 * p.val) * s.runningByte p) 0
  s.replyOut c (s.sched.slots.toList.flatMap row) s.sched.state.code (s.sched.spanCount.toNat % 2 ^ 32)
    (s.sched.spanCount.toNat / 2 ^ 32) packed

/-! ## The rows -/

/-- SCHED_LOAD (R66). -/
def execSchedLoad (e : Entry) (s : State) : Host.Outcome State Fault Refusal := .next (s.serve 0x0201 e State.schedLoad)
/-- SCHED_START (R57, R81). -/
def execSchedStart (e : Entry) (s : State) : Host.Outcome State Fault Refusal := .next (s.serve 0x0202 e State.schedStart)
/-- SCHED_STOP (R81). -/
def execSchedStop (e : Entry) (s : State) : Host.Outcome State Fault Refusal := .next (s.serve 0x0203 e State.schedStop)
/-- SCHED_SELECT (R77). -/
def execSchedSelect (e : Entry) (s : State) : Host.Outcome State Fault Refusal := .next (s.serve 0x0204 e State.schedSelect)
/-- SCHED_UNLOAD (R81). -/
def execSchedUnload (e : Entry) (s : State) : Host.Outcome State Fault Refusal := .next (s.serve 0x0205 e State.schedUnload)
/-- SCHED_STATUS (R356). -/
def execSchedStatus (e : Entry) (s : State) : Host.Outcome State Fault Refusal := .next (s.serve 0x0206 e State.schedStatus)

end Sys2Proof.Machine
end

