-- ==== Sys2Proof/Machine/Reset.lean ====
section
/-!
DEFINITION. Cold and warm reset, power, boot, the watchdog and the parked state (chapter 20; R391 to R393, R446, R447).
-/
namespace Sys2Proof.Machine

/-! ## The pins of a reset (R249, R437, R440, R441) -/

/-- `MOTION_PERMIT` falls, then `FAULT_N` is asserted, and every pulse pin goes low. A fall shows as cause 5 (R253). -/
def State.resetPins (s : State) : State :=
  let s : State := if s.pins.motionPermit then
      { s.setPin .motionPermit false with fus := { s.fus with lastCause := 5, fell := true } } else s
  let s := s.setPin .faultN false
  let s := (List.finRange 16).foldl (fun (s : State) n => s.setPin (.trigOut n) false) s
  let s := ((s.setPin .ppsOut false).setPin .poseStrobe false).setPin .hostIrqN true
  { s with pins := { s.pins with mportMiso := none } }

/-! ## What a cold reset keeps (R314, R426, R433, R434) -/

/-- A grant or release that was being scrubbed runs again; one that had not begun is discarded with its command (R351, R407). -/
def Security.keptScrubs (x : Security) : List Scrub := (x.scrubs.filter (·.begun)).map fun (y : Scrub) => { y with running := false, done := false }

/-- The fuses, the layout, the keys, the firmware slots and what namespace 4 holds. -/
def Security.cold (x : Security) : Security :=
  { Security.reset with
    lifecycle := x.lifecycle, serial := x.serial, revoked := x.revoked, ownerHash := x.ownerHash, rollback := x.rollback
    bootLock := x.bootLock, debugDisable := x.debugDisable, slots := x.slots, preferred := x.preferred, keys := x.keys
    grants := x.grants, scrubs := x.keptScrubs, leafReserved := x.leafReserved, leafNext := x.leafReserved }

/-- An object that flash holds whole, as its pages give it: nothing of it is resident, and nobody pins it (R314). -/
def Obj.cold (pages : List FlashPage) (o : Obj) : Obj :=
  let mine := sortBy (fun (a b : FlashPage) => decide (a.pos ≤ b.pos)) (pages.filter fun p => decide (p.owner = .object o.handle))
  { o with
    size := o.flashSize, bytes := (mine.flatMap (·.data)).take o.flashSize, staged := none, before := none, loaded := true, backed := true
    mirror := mine.all fun p => p.copies.any (·.mirror)
    resident := [], pins := [], evictPending := false, dropping := false, promoting := [], poisoned := false, clearing := false
    freeing := false, flashLeft := 0, lastUse := 0 }

/-- Flash contents, the retirement list and the objects that flash holds whole. Retired pages whose copy was not complete are copied anew
(R303). -/
def MemTiers.cold (m : MemTiers) : MemTiers :=
  { MemTiers.reset with
    remap := m.remap, freeBlocks := m.freeBlocks, goodBlocks := m.goodBlocks, blocks := m.blocks, pages := m.pages
    writeSeq := m.writeSeq
    queue := (m.remap.filter fun r => !r.copied).map fun r => { cls := 0, work := .retire r.page, bytes := 65536, fetch := 0, tiles := false,
                                                                fetched := false, held := false, onMirror := false, partition := 0 }
    objects := (m.objects.filter fun o => decide (o.flashSize ≠ 0)).map (Obj.cold m.pages) }

/-- An acre that flash holds. -/
def Acre.cold (a : Acre) : Acre :=
  { a with
    base := 0, trainBase := 0, training := false, trainedSpans := 0, resident := false, endpoints := [], renders := []
    snapshot := false, writing := false, changed := false, rewrite := false, beyond := false, poisoned := false, evicting := false, deleting := false, mismatchSaid := false, unwrittenSpans := 0, lastUse := 0 }

/-- An index without any change that waits for publication: records, slots, marks and tombstones of the pending epoch are gone, for a reset
keeps only what had applied before it (R281, R351). -/
def PsIndex.published (x : PsIndex) : PsIndex :=
  let seen (rs : List PsRec) : List PsRec := (rs.filter fun r => decide (r.epochIn ≤ x.epoch)).map fun (r : PsRec) =>
    { r with slots := r.slots.filter (fun sl => decide (r.epochIn + sl.2 ≤ x.epoch)), spilled := r.spilled.filter fun t => decide (t ≤ x.epoch) }
  { x with
    dram := seen x.dram, flash := seen x.flash, tombs := x.tombs.filter fun t => decide (t.2 ≤ x.epoch)
    changed := false, spillOut := none, compactOut := none, written := false, fresh := [] }

/-- An index's flash shard and its tombstones. -/
def PsIndex.cold (x : PsIndex) : PsIndex :=
  { x.published with
    dram := [], oldFlash := [], spilling := false
    queue := [], poisoned := false, destroying := false, insertRetried := false, spanFile := 0, spanEdges := 0, spanFull := 0
    spanExpired := 0 }

/-- The margin table of namespace 4, and the hours it counts. -/
def Power.cold (p : Power) (limited : Bool) : Power :=
  { Power.reset with
    margins := p.loadedMargins, opHours := p.opHours, opNs := p.opNs
    trimHours := p.trimHours, ranAt := p.ranAt, alarmAt := p.alarmAt, marginTable := p.marginTable, limitClamp := limited }

/-- The front end at reset, as its input pins stand: a hold is on while `SYNC_IN` is high. -/
def Ife.atReset (x : Ife) (syncIn : Bool) (now : Nat) : Ife :=
  { Ife.reset with
    held := syncIn, holdSince := now
    encs := x.encs.map fun (e : Encoder) => { Encoder.reset with levelA := e.levelA, levelB := e.levelB } }

/-- The device in a cold reset: everything at its reset value but for what a cold reset keeps, and the pins that come from
outside. -/
def State.coldState (s : State) : State :=
  let s := (s.resetPins).setPin .thermtripN true
  { State.reset with
    pins := s.pins
    sec := s.sec.cold, mt := s.mt.cold, pm := s.pm.cold (!s.pins.pwrLimitN), ife := s.ife.atReset s.pins.syncIn 0
    evr := { Recorder.reset with archive := s.evr.archive }
    fld := { Field.reset with acres := (s.fld.acres.filter fun a => a.flash.isSome).map Acre.cold }
    ps := { PlaceEngine.reset with indexes := s.ps.indexes.map fun (x : Option PsIndex) => x.map PsIndex.cold }
    free := s.free, pending := s.pending }

/-- PORESET_ASSERT: `PORESET_N` falls. -/
def State.poresetFall (s : State) : State :=
  if !s.pins.poresetN then s
  else
    let s := { s with pins := { s.pins with poresetN := false } }
    if s.dev.phase = .unpowered then s else s.coldState

/-- RAIL_POWER_LOSS: the rails go; `FAULT_N` reads high, and the board holds `PORESET_N` low (R440, R446). -/
def State.powerLoss (s : State) : State :=
  if s.dev.phase = .unpowered then s
  else
    let s := (s.coldState).setPin .faultN true
    { s with pins := { s.pins with poresetN := false }, dev := { s.dev with phase := .unpowered } }

/-- RAIL_POWER_UP: the rails rise, with `PORESET_N` low. -/
def State.powerUp (s : State) : State :=
  if s.dev.phase = .unpowered then { s with dev := { s.dev with phase := .coldReset } }.setPin .faultN false else s

/-! ## Warm reset (R425, R432 to R434, R441) -/

/-- Objects across a warm reset: loads and placement changes under way end, and discarded commands leave no promotion, eviction
or freeing behind. -/
def Obj.warm (o : Obj) : Obj :=
  { o with
    promoting := [], freeing := false, dropping := false, evictPending := false, flashLeft := 0, staged := none, before := none
    backed := (o.before.map (·.1)).getD o.backed, mirror := (o.before.map (·.2)).getD o.mirror
    pins := o.pins.filter fun p => match p with | .job _ => false | _ => true }

/-- A request of the mover's firmware queue that outlives the commands: no promotion, and no write to flash. -/
def MoverReq.outlives (r : MoverReq) : Bool :=
  match r.work with
  | .retire _ | .reload .. | .reloadAcre .. | .acreFill _ => true
  | _ => false

/-- The memory tiers: DRAM and flash keep their contents, a write group under way is abandoned (R314), and the registers return
to their reset values. -/
def MemTiers.warm (m : MemTiers) : MemTiers :=
  { MemTiers.reset with
    scrubLine := m.scrubLine, scrubPass := m.scrubPass, scrubCorrected := m.scrubCorrected, ceLog := m.ceLog
    passLines := m.passLines, prevLines := m.prevLines, poisoned := m.poisoned, remap := m.remap, remapFull := m.remapFull
    queue := m.queue.filter MoverReq.outlives, freeBlocks := m.freeBlocks, goodBlocks := m.goodBlocks, blocks := m.blocks
    pages := m.pages, writeSeq := m.writeSeq, spareLowAt := m.spareLowAt
    objects := (m.objects.filter (·.loaded)).map Obj.warm }

/-- An acre across a warm reset: its snapshot and its write are dropped. -/
def Acre.warm (a : Acre) : Acre := { a with
  snapshot := false, writing := false, rewrite := false, evicting := false, deleting := false }

/-- An index across a warm reset: changes that had not been published are dropped, and so are the vectors of commands. -/
def PsIndex.warm (x : PsIndex) : PsIndex :=
  { x.published with
    destroying := false, insertRetried := false
    queue := x.queue.filter fun v => v.job.isNone, spanFile := 0, spanEdges := 0, spanFull := 0, spanExpired := 0 }

/-- The DRAM shards as a warm reset leaves them. -/
def State.publishedShards (s : State) : State :=
  (s.ps.indexes.toList.filterMap id).foldl (fun (s : State) (ix : PsIndex) => s.putShard ix ix.published.dram) s

/-- The time unit keeps its counters, states and settings; pulses and tables end. -/
def TimeUnit.warm (t : TimeUnit) : TimeUnit :=
  { t with
    table := [], shadow := [], ppsOutEnd := none, heldSyncs := [], displaced := [], bridged := none, ptpIn := [], staleSeen := []
    trigs := t.trigs.map fun (x : Trig) => { x with pulseEnd := none, merged := false, merges := 0 } }

/-- A channel keeps its committed descriptor and its status block. -/
def Channel.warm (c : Channel) : Channel :=
  { Channel.reset with desc := c.desc, everEnabled := c.everEnabled, statusBlock := c.statusBlock, counts := c.counts }

/-- What the security processor keeps: all but what a command or a boot has under way. -/
def Security.warm (x : Security) : Security :=
  { x with
    slotFailed := Vector.replicate 2 false, staged := FwImage.empty, scrubs := x.keptScrubs, rngOk := true
    leafNext := x.leafReserved, challenge := none, isolationSeen := false }

/-- What the recorder keeps (R425). -/
def Recorder.warm (r : Recorder) : Recorder :=
  { Recorder.reset with
    ring := r.ring, next := r.next, passes := r.passes, frozen := r.frozen, seq := r.seq, freezing := r.freezing
    frozenDrops := r.frozenDrops, archived := r.archived, fatalCause := r.fatalCause, archive := r.archive }

/-- What the power manager keeps: the cap, the rail and the margins. -/
def Power.warm (p : Power) (limited : Bool) : Power :=
  { p.cold limited with capMw := p.capMw, margins := p.margins, railMv := p.railMv }

/-- The device in a warm reset, `cause` its bit of `RESET_CAUSE`. `PERMIT_STATUS` shows the fall that the reset itself makes, and nothing from
before it (R9, R253; DEDUCED, log 14). -/
def State.warmState (s : State) (cause : Nat) : State :=
  let s := s.drainFifo
  let fell := s.pins.motionPermit
  let s := s.resetPins.publishedShards
  { State.reset with
    pins := s.pins
    dev := { Dev.reset with
      phase := .warmReset, warmBoot := s.dev.everReady, everReady := s.dev.everReady, resetCause := BitVec.ofNat 32 cause
      selfRefresh := true, dramKept := s.dev.everReady }
    sched := { Sched.reset with
      slots := s.sched.slots, fence := s.sched.fence, fenceLatched := s.sched.fenceLatched, fenceLive := s.sched.fenceLive
      fenceSpans := s.sched.fenceSpans }
    tu := s.tu.warm
    sm := { Streams.reset with chans := s.sm.chans.map Channel.warm }
    ife := { s.ife.atReset s.pins.syncIn s.dtNs with
      inputs := s.ife.inputs.map fun (x : IfeInput) => { IfeInput.reset with binding := x.binding } }
    cores := s.cores.map fun (c : Core) => { Core.reset with acc := c.acc, lastFault := c.lastFault }
    fld := { Field.reset with
      acres := s.fld.acres.map Acre.warm, params := s.fld.params, paramsNext := s.fld.params, ceiling := s.fld.ceiling
      decoder := s.fld.decoder }
    fus := { Fusion.reset with
      tableBase := s.fus.tableBase, params := s.fus.params, frameId := s.fus.frameId, frameIdPub := s.fus.frameIdPub
      filing := s.fus.filing, vectors := s.fus.vectors, lastCause := if fell then 5 else 0, fell := fell }
    slv := { Solver.reset with keyframes := s.slv.keyframes }
    ps := { PlaceEngine.reset with indexes := s.ps.indexes.map fun (x : Option PsIndex) => x.map PsIndex.warm }
    mem := if s.dev.everReady then s.mem else []
    sram := s.sram, mt := s.mt.warm, pm := s.pm.warm (!s.pins.pwrLimitN), sec := s.sec.warm, evr := s.evr.warm
    free := s.free, pending := s.pending }

/-- A warm reset starts: not in a cold reset, not twice, and not while a thermal trip holds the device (R433). -/
def State.warmReset (s : State) (cause : Nat) : State :=
  if s.dev.inReset || !s.pins.thermtripN then s else s.warmState cause

/-- SYSRESET_ASSERT: `SYSRESET_N` has been low for 10 us. -/
def State.sysresetFall (s : State) : State :=
  State.warmReset { s with pins := { s.pins with sysresetN := false } } 2

/-- SYSRESET_RELEASE: the pin is high, or the internal pulse is over, and the boot ROM starts. -/
def State.sysresetRise (s : State) : State :=
  let s := { s with pins := { s.pins with sysresetN := true } }
  if s.dev.phase = .warmReset then { s with dev := { s.dev with phase := .bootRom } } else s

/-! ## SYS_RESET and the watchdog (R432, R435, R356) -/

/-- SYS_RESET carried out: `OK`, then a warm reset 1 ms later. -/
def State.sysReset (c : SubEntry) (s : State) : State :=
  if c.p 0 1 ≠ 0 then s.replyErr c errArg
  else if !s.pins.thermtripN then s.replyErr c errState
  else { s.replyOk c with dev := { s.dev with resetPending := true } }

/-- SYS_RESET_DELAY_EXPIRY. -/
def State.resetDelayOver (s : State) : State := if s.dev.resetPending then s.warmReset 4 else s

/-- WATCHDOG_REFRESH: a processor that runs firmware refreshes its bit. -/
def State.watchdogRefresh (s : State) (cp : Fin 2) : State :=
  if s.cpRuns cp then { s with dev := { s.dev with wdBits := s.dev.wdBits.set cp true } } else s

/-- WATCHDOG_EXPIRY: 1,000 ms of a bit are over. A bit refreshed in them starts its next period. -/
def State.watchdogExpiry (s : State) (cp : Fin 2) : State :=
  if !s.dev.wdArmed || s.dev.fatal || !s.isReady then s
  else if s.dev.wdBits[cp] then { s with dev := { s.dev with wdBits := s.dev.wdBits.set cp false } }
  else s.warmReset 8

/-! ## Boot (R402, R436 to R439) -/

/-- PORESET_RELEASE: the straps latch, and the boot ROM starts. -/
def State.poresetRise (s : State) (bootSrc : BitVec 2) : State :=
  if s.dev.phase = .coldReset then
    { s with pins := { s.pins with poresetN := true, bootSrc := bootSrc }, dev := { s.dev with phase := .bootRom } }
  else s

/-- HOST_PORT_READY: 1 ms after the release of either reset (R340). -/
def State.portAnswers (s : State) : State :=
  if s.dev.inReset || s.dev.portUp then s else { s with dev := { s.dev with portUp := true } }

/-- BOOT_ROM_DONE: DRAM initialises or leaves self-refresh, the bridge forwards, and the power manager takes control of the
regulator if it acknowledges (R437, R438, R447). The random-number generator's health test has run (R404); which argument its
event carries is not given, and is free. -/
def State.bootRomEnds (s : State) (pmbusAck rngOk : Bool) : State :=
  if s.dev.phase ≠ .bootRom then s
  else
    let s := { s with
      dev := { s.dev with phase := .dramInit, ethForward := true, selfRefresh := false }
      pm := { s.pm with pmbusOk := pmbusAck } }
    let s := s.clampClocks
    if rngOk then s
    else
      let s := { s with sec := { s.sec with rngOk := false } }
      let (v, s) := s.draw 32
      s.fatal false 0x12 0x120B v.toNat 0 0

/-- The boot source: the lock fuse and the reserved code stand for 0b00. -/
def State.bootSource (s : State) : Nat := if s.sec.bootLock then 0 else if s.pins.bootSrc = 3 then 0 else s.pins.bootSrc.toNat

/-- RECOVERY: mailbox 0 opens for its commands; with `host`, no slot has failed (R402, R439). -/
def State.enterRecovery (s : State) (host : Bool) : State :=
  let s := { s with dev := { s.dev with
    phase := .recovery, hostPortBoot := host, resetCause := s.dev.resetCause ||| 0x100 } }
  let s := s.openMbx 0 0
  s.raiseIrq irqState

/-- DRAM_INIT_DONE: the boot ROM turns to the firmware, or for host-port boot to RECOVERY at once. -/
def State.dramReady (s : State) : State :=
  if s.dev.phase ≠ .dramInit then s
  else if s.bootSource = 1 ∧ !s.dev.warmBoot then s.enterRecovery true
  else { s with dev := { s.dev with phase := .fwVerify } }

/-- Firmware starts from an image. -/
def State.startFirmware (s : State) (slot : Bool) (item : List Byte) (host : Bool) : State :=
  { s with
    dev := { s.dev with phase := .fwStart, fwSlot := slot }
    sec := { s.sec with keptCopy := item, keptHost := host, keptSlot := slot, reloadNand := false } }

/-- The slots tried in order: a slot that fails is recorded, and the first that passes starts. -/
def State.trySlots : List (Fin 2) → State → State
  | [], s =>
    let (v, s) := s.drawBelow 4
    let (w, s) := s.drawBelow 4
    (s.event 0x12 0x1204 v w 0).enterRecovery false
  | k :: ks, s =>
    if s.sec.slotPasses k then
      let item := s.sec.slots[k].bytes
      (s.startFirmware (decide (k = 1)) item false).event 0x12 0x1201 k.val (sigSvn item) 0
    else
      let s := s.fwRefused s.sec.slots[k].bytes
      State.trySlots ks { s with sec := { s.sec with slotFailed := s.sec.slotFailed.set k true } }

/-- FIRMWARE_VERIFIED: a warm boot starts the kept copy if it passes and no other slot has been activated; otherwise the boot
source is read. -/
def State.verifyFirmware (s : State) : State :=
  if s.dev.phase ≠ .fwVerify then s
  else if s.dev.warmBoot ∧ !s.sec.reloadNand ∧ s.sec.fwCheck s.sec.keptCopy = .passed then
    s.startFirmware s.sec.keptSlot s.sec.keptCopy s.sec.keptHost
  else if s.bootSource = 1 then s.enterRecovery true
  else if s.bootSource = 2 then s.trySlots [1, 0]
  else s.trySlots (if s.sec.preferred then [1, 0] else [0, 1])

/-- The images left in their slots checked again; one that fails is freed (R434, R438). -/
def State.recheckImages (s : State) : State :=
  (List.finRange 64).foldl (fun (s : State) k => match s.sched.slots[k] with
    | some img => if (img.failing s fun _ => 0).isSome then s.dropImage k else s
    | none => s) s

/-- The first instant of a periodic pin that DT has not reached; a one-shot instant that passed gives no pulse. -/
def Trig.rephase (t : Trig) (now : Nat) : Trig :=
  match t.nextAt with
  | none => t
  | some a =>
    if now < a ∨ (now = a ∧ t.mode ≠ 2) then t
    else if t.mode = 2 then { t with nextAt := some (now + (t.period.toNat - (now - a) % t.period.toNat)) }
    else { t with nextAt := none }

/-- The pulse pins take their idle levels as the device reaches READY (R440). -/
def State.driveTriggers (s : State) : State :=
  let s := { s with tu := { s.tu with
    trigs := s.tu.trigs.map (fun (t : Trig) => t.rephase s.dtNs), ppsOutSec := s.tu.ppsOutNow } }
  (List.finRange 16).foldl (fun (s : State) n => s.setPin (.trigOut n) s.tu.trigs[n].idleLevel) s

/-- Keys zeroised in DECOMMISSIONED (R399). -/
def Security.endKeys (x : Security) : Security :=
  if x.lifecycle = .decommissioned then { x with keys := x.keys.map fun (k : NsKeys) =>
    { k with zeroised := true, slots := Vector.replicate 2 (List.replicate 64 0) } } else x

/-- ENTER_READY: Rokan firmware reaches READY, or FAULT with a fatal error present (R344, R401, R418, R419, R425, R435, R437). -/
def State.reachReady (s : State) : State :=
  if s.dev.phase ≠ .fwStart then s
  else
    let warm := s.dev.warmBoot
    let fatal := s.dev.fatal
    let s := { s with
      dev := { s.dev with
        phase := if fatal then .fault else .ready, fwUp := true, everReady := true, wdArmed := true
        wdBits := Vector.replicate 2 false, dramKept := false }
      sec := s.sec.endKeys }
    let s := (s.settleRest).recheckImages
    let s := s.openAll
    let s := s.sec.scrubs.foldl State.beginScrub s
    let s := (s.raiseCounters).driveTriggers
    let s := if fatal then s else (s.releaseFreeze warm).setPin .faultN true
    s.raiseIrq irqState

/-! ## The parked state (R391 to R393) -/

/-- Pulses end, and the pulse pins take their levels of R392. -/
def State.parkPins (s : State) : State :=
  let s := (List.finRange 16).foldl (fun (s : State) n =>
    (s.updTrig n fun t => { t with pulseEnd := none }).setPin (.trigOut n) s.tu.trigs[n].idleLevel) s
  { (s.setPin .ppsOut false) with tu := { s.tu with ppsOutEnd := none } }

/-- The ballast is down, DRAM is in self-refresh, and the core rail holds 0.55 V. -/
def State.parkPower (s : State) : State :=
  let s := (List.finRange 8).foldl (fun (s : State) c => s.updCorePower c fun x => { x with filler := .off }) s
  { s with pm := { s.pm with railMv := 550 } }

/-- The direct registers held for the parked state (R341). -/
def State.holdRegs (s : State) : State :=
  { s with port := { s.port with heldRegs := #v[0x54536440, s.devRev, s.statusReg, s.dev.resetCause, s.port.modeReg] } }

/-- PARK_ENTRY: the stop boundary is past. -/
def State.park (s : State) : State :=
  if !s.dev.parkReady || !s.isReady then s
  else
    let s := (((s.pageOutAll).event 0x0F 0x0F0B 0 (s.dtNs % 2 ^ 32) 0).parkPins).parkPower
    let s := { s with dev := { s.dev with phase := .parked, parkReady := false, selfRefresh := true, ethForward := false } }
    (s.holdRegs).raiseIrq irqState

/-- WAKE_COMPLETE: firmware has resumed. -/
def State.wakeUp (s : State) : State :=
  if s.dev.phase ≠ .waking then s
  else
    let s := { s with
      dev := { s.dev with phase := .ready, ethForward := true }
      pm := { s.pm with railMv := s.pm.railTarget } }
    (s.event 0x0F 0x0F0B 1 (s.dtNs % 2 ^ 32) 0).raiseIrq irqState

/-! ## The rows -/

/-- PORESET_ASSERT (R433). -/
def execPoresetAssert (s : State) : Host.Outcome State Fault Refusal := .next s.poresetFall
/-- PORESET_RELEASE (R437). -/
def execPoresetRelease (bootSrc : BitVec 2) (s : State) : Host.Outcome State Fault Refusal := .next (s.poresetRise bootSrc)
/-- HOST_PORT_READY (R340). -/
def execHostPortReady (s : State) : Host.Outcome State Fault Refusal := .next s.portAnswers
/-- BOOT_ROM_DONE (R437). -/
def execBootRomDone (pmbusAck rngOk : Bool) (s : State) : Host.Outcome State Fault Refusal := .next (s.bootRomEnds pmbusAck rngOk)
/-- DRAM_INIT_DONE (R437). -/
def execDramInitDone (s : State) : Host.Outcome State Fault Refusal := .next s.dramReady
/-- FIRMWARE_VERIFIED (R402). -/
def execFirmwareVerified (s : State) : Host.Outcome State Fault Refusal := .next s.verifyFirmware
/-- ENTER_READY (R437). -/
def execEnterReady (s : State) : Host.Outcome State Fault Refusal := .next s.reachReady
/-- SYSRESET_ASSERT (R441). -/
def execSysresetAssert (s : State) : Host.Outcome State Fault Refusal := .next s.sysresetFall
/-- SYSRESET_RELEASE (R438). -/
def execSysresetRelease (s : State) : Host.Outcome State Fault Refusal := .next s.sysresetRise
/-- SYS_RESET (R356). -/
def execSysReset (e : Entry) (s : State) : Host.Outcome State Fault Refusal := .next (s.serve 0x0102 e State.sysReset)
/-- SYS_RESET_DELAY_EXPIRY (R432). -/
def execSysResetDelayExpiry (s : State) : Host.Outcome State Fault Refusal := .next s.resetDelayOver
/-- WATCHDOG_REFRESH (R435). -/
def execWatchdogRefresh (cp : Fin 2) (s : State) : Host.Outcome State Fault Refusal := .next (s.watchdogRefresh cp)
/-- WATCHDOG_EXPIRY (R435). -/
def execWatchdogExpiry (cp : Fin 2) (s : State) : Host.Outcome State Fault Refusal := .next (s.watchdogExpiry cp)
/-- RAIL_POWER_LOSS (R446). -/
def execRailPowerLoss (s : State) : Host.Outcome State Fault Refusal := .next s.powerLoss
/-- RAIL_POWER_UP (R446). -/
def execRailPowerUp (s : State) : Host.Outcome State Fault Refusal := .next s.powerUp
/-- PARK_ENTRY (R391). -/
def execParkEntry (s : State) : Host.Outcome State Fault Refusal := .next s.park
/-- WAKE_COMPLETE (R393). -/
def execWakeComplete (s : State) : Host.Outcome State Fault Refusal := .next s.wakeUp

end Sys2Proof.Machine
end

