-- ==== Sys2Proof/Machine/Vision.lean ====
section
/-!
DEFINITION. The vision engines: warps and pyramids, features, tracks and disparity (chapter 6).
-/
namespace Sys2Proof.Machine

/-! ## What the four engines share (R131 to R134, R156) -/

/-- The slot of a vision engine: 0x05 to 0x08. -/
def visSlot (i : Fin 4) : Nat := 5 + i.val

/-- An event of a vision engine, recorded at most once in a span. -/
def State.visOnce (s : State) (i : Fin 4) (bit code a0 a1 a2 : Nat) : State :=
  if s.vis[i].evtSeen.getLsbD bit || !s.vis[i].evtEn then s
  else (s.updVis i fun v => { v with evtSeen := v.evtSeen ||| (1 <<< bit) }).event (visSlot i) code a0 a1 a2

/-- A flagged source noted (R134). -/
def State.visFlagged (s : State) (i : Fin 4) (n : NextOp) (h : SrcHdr) : State :=
  if h.flagged then
    (s.updVis i fun v => { v with flagged := true }).visOnce i 0 (visSlot i * 256 + 1) n.index h.unitStatus h.seq
  else s

/-- A counter of an engine's own advanced. -/
def State.visCount (s : State) (i : Fin 4) (c : Fin 8) (k : Nat) : State :=
  s.updVis i fun v => { v with own := v.own.set c (countUp v.own[c] k) }

/-- The limits of a span recorded with what they discarded in it: each full list, then the span (R146, R157). -/
def State.featureEvents (s : State) : State :=
  let v := s.vis[(1 : Fin 4)]
  if !v.evtEn then s
  else
    let s := v.listsFull.reverse.foldl (fun (s : State) l => s.event 0x06 0x0602 l.index l.camera l.discarded) s
    match v.spanFull with
    | some i => s.event 0x06 0x0603 i v.spanDiscards 0
    | none => s

/-- The limits that acted in the span are recorded, and counts that run over one span start again (R134, R146, R157). -/
def State.visBoundary (s : State) : State :=
  (List.finRange 4).foldl (fun (s : State) i =>
    s.updVis i fun v => { v with evtSeen := 0, listsFull := [], spanFull := none, spanFeatures := 0, spanDiscards := 0 }) s.featureEvents

/-- An index mirrored at the edges without repeating the edge element (R139). -/
def mirror (size : Nat) (i : Int) : Nat :=
  if i < 0 then (-i).toNat else if (size : Int) ≤ i then (2 * ((size : Int) - 1) - i).toNat else i.toNat

/-- An integer quotient rounded to nearest, ties to even; the denominator is positive. -/
def rneDiv (num : Int) (den : Nat) : Int :=
  let q := num / den
  let r := num - q * den
  if (den : Int) < 2 * r ∨ (2 * r = den ∧ q % 2 = 1) then q + 1 else q

/-- An integer saturated to a byte. -/
def sat8 (v : Int) : Nat := if v < 0 then 0 else min v.toNat 255

/-! ## PW_WARP (R136 to R138) -/

/-- A source pixel in the destination's channels, before interpolation. -/
def State.srcPixel (s : State) (d : ImgDesc) (rgb : Bool) (x y : Nat) : List Nat :=
  if d.format = 3 then [min 255 (rneShift (s.px16 d x y) d.shift)]
  else if d.format = 2 then
    let o := d.row y
    let luma := s.poolVal (o + 2 * x + 1) 1
    if rgb then
      let c : Int := 298 * ((luma : Int) - 16)
      let u : Int := (s.poolVal (o + 4 * (x / 2)) 1 : Int) - 128
      let v : Int := (s.poolVal (o + 4 * (x / 2) + 2) 1 : Int) - 128
      [sat8 ((c + 459 * v + 128) / 256), sat8 ((c - 55 * u - 136 * v + 128) / 256), sat8 ((c + 541 * u + 128) / 256)]
    else [luma]
  else [s.px8 d x y]

/-- A node of a warp map: a coordinate with binary point 16. -/
def warpNode (m : List Byte) (i j axis : Nat) : Int :=
  signedOf 32 (fieldAt m (32 + 8 * (j * fieldAt m 10 2 + i) + 4 * axis) 4)

/-- The source coordinate of an output pixel, with binary point 8 (R138 step 1). -/
def warpCoord (m : List Byte) (x y axis : Nat) : Int :=
  let g := fieldAt m 8 1
  let n := 2 ^ g
  let i := x / n
  let j := y / n
  let fx : Int := x % n
  let fy : Int := y % n
  let w : Int := n
  rneShiftInt ((w - fx) * (w - fy) * warpNode m i j axis + fx * (w - fy) * warpNode m (i + 1) j axis
    + (w - fx) * fy * warpNode m i (j + 1) axis + fx * fy * warpNode m (i + 1) (j + 1) axis) (8 + 2 * g)

/-- An output pixel through a warp map; none outside the source (R138 steps 2 and 3). -/
def State.warpPixel (s : State) (m : List Byte) (src : ImgDesc) (rgb : Bool) (x y : Nat) : Option (List Nat) :=
  let px := warpCoord m x y 0
  let py := warpCoord m x y 1
  if px < 0 ∨ py < 0 ∨ ((src.width : Int) - 1) * 256 < px ∨ ((src.height : Int) - 1) * 256 < py then none
  else
    let x0 := px.toNat / 256
    let y0 := py.toNat / 256
    let fx := px.toNat % 256
    let fy := py.toNat % 256
    let x1 := min (x0 + 1) (src.width - 1)
    let y1 := min (y0 + 1) (src.height - 1)
    let a := s.srcPixel src rgb x0 y0
    let b := s.srcPixel src rgb x1 y0
    let c := s.srcPixel src rgb x0 y1
    let d := s.srcPixel src rgb x1 y1
    some ((List.range a.length).map fun k =>
      min 255 (rneShift ((256 - fx) * (256 - fy) * a.getD k 0 + fx * (256 - fy) * b.getD k 0
        + (256 - fx) * fy * c.getD k 0 + fx * fy * d.getD k 0) 16))

/-- A row of output: its bytes, and the pixels filled. -/
def State.warpRow (s : State) (m : Option (List Byte)) (src dst : ImgDesc) (fill y : Nat) : List Byte × Nat :=
  let rgb := decide (dst.format = 1)
  let px := (List.range dst.width).map fun x =>
    match m with
    | none => some (s.srcPixel src rgb x y)
    | some m => s.warpPixel m src rgb x y
  (px.flatMap fun p => ((p.getD (List.replicate (if rgb then 3 else 1) fill)).map fun v => BitVec.ofNat 8 v),
    (px.filter (·.isNone)).length)

/-- PW_WARP: the output rows of a stripe, and the header. -/
def State.warpOp (s : State) (n : NextOp) : State :=
  let src := n.img16 0
  let dst := n.img16 16
  let idx := n.arg 32 2
  let row0 := n.arg 34 2
  let rows := n.arg 36 2
  let map := if idx = 0xFFFF then none else some (s.objBytes (n.img.objects.getD idx 0))
  let out := (List.range rows).map fun r => (dst.row (row0 + r), s.warpRow map src dst (n.arg 38 1) (row0 + r))
  let h := s.srcHdr src
  let filled := out.foldl (fun t o => t + o.2.2) 0
  let s := (s.visFlagged 0 n h).visCount 0 0 filled
  s.startOp .pw n .main (ceilDiv (dst.width * rows) 2 + 16)
    (out.map (fun o => poolWrite o.1 o.2.1) ++ [poolWrite dst.addr (visionHdr h 0 0 0 dst.width dst.height (row0 + rows))])

/-! ## PW_PYRAMID (R136, R139, R460) -/

/-- The binomial weight of a tap. -/
def binomial (k : Nat) : Nat := [1, 4, 6, 4, 1].getD k 0

/-- The 2-D binomial sum round a pixel of an image, over 256, rounded to nearest with ties to even. -/
def State.smoothAt (s : State) (d : ImgDesc) (x y : Nat) : Nat :=
  let row (j : Nat) : Nat := (List.range 5).foldl (fun t i =>
    t + binomial i * s.px8 d (mirror d.width ((x : Int) + i - 2)) (mirror d.height ((y : Int) + j - 2))) 0
  rneShift ((List.range 5).foldl (fun t j => t + binomial j * row j) 0) 8

/-- The size of a level below one. -/
def halfUp (v : Nat) : Nat := (v + 1) / 2

/-- Whether row u of a level is due under a source row R; the heights are those of the levels above it, nearest first (R460). -/
def rowDue (r : Int) : List Nat → Nat → Bool
  | [], u => decide ((u : Int) ≤ r)
  | h :: hs, u => (List.range 5).all fun k => rowDue r hs (mirror h (2 * (u : Int) + k - 2))

/-- The rows of a level that an operation writes. -/
def dueRows (heights : List Nat) (row0 rows : Nat) : List Nat :=
  (List.range (halfUp (heights.headD 0))).filter fun u =>
    rowDue ((row0 : Int) + rows - 1) heights u && !rowDue ((row0 : Int) - 1) heights u

/-- The rows of one level, from the level above it. -/
def State.levelWrites (s : State) (up down : ImgDesc) (us : List Nat) : List MemWrite :=
  us.map fun u => poolWrite (down.row u)
    ((List.range (halfUp up.width)).map fun x => BitVec.ofNat 8 (s.smoothAt up (2 * x) (2 * u)))

/-- The levels of a PW_PYRAMID in turn: a level's rows are formed from those of the level above it. -/
def State.pyramidLevels (s : State) (row0 rows : Nat) (h : SrcHdr) : List ImgDesc → List Nat → ImgDesc → List MemWrite × Nat
  | [], _, _ => ([], 0)
  | d :: ds, heights, up =>
    let us := dueRows heights row0 rows
    let ws := s.levelWrites up d us
    let done := match us.getLast? with
      | some u => u + 1
      | none => ((List.range (halfUp up.height)).filter fun u => rowDue ((row0 : Int) - 1) heights u).length
    let r := (s.applyMemWrites ws).pyramidLevels row0 rows h ds (halfUp up.height :: heights) d
    (ws ++ [poolWrite d.addr (visionHdr h 0 0 0 d.width d.height done)] ++ r.1, us.length * halfUp up.width + r.2)

/-- PW_PYRAMID. -/
def State.pyramidOp (s : State) (n : NextOp) : State :=
  let src := n.img16 0
  let h := s.srcHdr src
  let dsts := ([n.img16 16, n.img16 32, n.img16 48]).take (n.arg 64 1)
  let r := s.pyramidLevels (n.arg 66 2) (n.arg 68 2) h dsts [src.height] src
  (s.visFlagged 0 n h).startOp .pw n .main (ceilDiv r.2 2 + 16) r.1

/-! ## FE_DETECT (R140 to R146) -/

/-- A pixel as an integer. -/
def State.lum (s : State) (d : ImgDesc) (x y : Int) : Int := s.px8 d x.toNat y.toNat

/-- The circle of radius 3 (R141), in order round the pixel. -/
def circle3 : List (Int × Int) :=
  [(0, -3), (1, -3), (2, -2), (3, -1), (3, 0), (3, 1), (2, 2), (1, 3), (0, 3), (-1, 3), (-2, 2), (-3, 1), (-3, 0), (-3, -1),
   (-2, -2), (-1, -3)]

/-- A run of at least `arc` in a circle of marks. -/
def hasArc (arc : Nat) (marks : List Bool) : Bool :=
  (List.range marks.length).any fun i => (List.range arc).all fun k => (marks ++ marks).getD (i + k) false

/-- A candidate is a corner (R141). -/
def State.isCorner (s : State) (d : ImgDesc) (arc thresh : Nat) (x y : Nat) : Bool :=
  decide (16 ≤ x ∧ x + 16 < d.width ∧ 16 ≤ y ∧ y + 16 < d.height) &&
    (let p := s.lum d x y
     let at' (o : Int × Int) : Int := s.lum d ((x : Int) + o.1) ((y : Int) + o.2)
     hasArc arc (circle3.map fun o => decide (p + thresh < at' o)) || hasArc arc (circle3.map fun o => decide (at' o < p - thresh)))

/-- The Sobel gradients at a pixel (R142). -/
def State.sobel (s : State) (d : ImgDesc) (x y : Int) : Int × Int :=
  let i (a b : Int) := s.lum d (x + a) (y + b)
  (i 1 (-1) + 2 * i 1 0 + i 1 1 - i (-1) (-1) - 2 * i (-1) 0 - i (-1) 1,
   i (-1) 1 + 2 * i 0 1 + i 1 1 - i (-1) (-1) - 2 * i 0 (-1) - i 1 (-1))

/-- An integer saturated to INT32. -/
def satInt32 (v : Int) : Int := max (-2147483648) (min 2147483647 v)

/-- SCORE (R142). -/
def State.score (s : State) (d : ImgDesc) (k shift : Nat) (x y : Nat) : Int :=
  let gs := (List.range 49).map fun i => s.sobel d ((x : Int) + (i % 7 : Nat) - 3) ((y : Int) + (i / 7 : Nat) - 3)
  let sxx := gs.foldl (fun t g => t + g.1 * g.1) 0
  let syy := gs.foldl (fun t g => t + g.2 * g.2) 0
  let sxy := gs.foldl (fun t g => t + g.1 * g.2) 0
  satInt32 (rneShiftInt (256 * (sxx * syy - sxy * sxy) - k * ((sxx + syy) * (sxx + syy))) (8 + shift))

/-- A corner with its score. -/
structure Corner where
  x : Nat
  y : Nat
  score : Int

/-- The corner at a pixel, if it is one. -/
def State.cornerAt (s : State) (n : NextOp) (d : ImgDesc) (x y : Nat) : Option Corner :=
  if s.isCorner d (n.arg 28 1) (n.arg 29 1) x y then some { x := x, y := y, score := s.score d (n.arg 32 1) (n.arg 33 1) x y } else none

/-- A corner survives: its score is high enough, and no neighbouring corner has a greater one, or an equal one earlier in raster
order (R142). -/
def State.survives (s : State) (n : NextOp) (d : ImgDesc) (c : Corner) : Bool :=
  decide (signedOf 32 (n.arg 36 4) ≤ c.score) &&
    (List.range 9).all fun i =>
      let dx := i % 3
      let dy := i / 3
      if i = 4 then true
      else match s.cornerAt n d (c.x + dx - 1) (c.y + dy - 1) with
        | none => true
        | some o => decide (o.score < c.score ∨ (o.score = c.score ∧ 4 < i))

/-- The corners kept of a cell: the best, ties to the smaller y, then the smaller x (R143). -/
def State.cellCorners (s : State) (n : NextOp) (d : ImgDesc) (cx y0 y1 : Nat) : List Corner :=
  let size := 2 ^ n.arg 30 1
  let pts := (List.range (y1 - y0)).flatMap fun j => (List.range size).map fun i => (cx * size + i, y0 + j)
  let cs := (pts.filterMap fun p => if p.1 < d.width then s.cornerAt n d p.1 p.2 else none).filter fun c => s.survives n d c
  (sortBy (fun a b => decide (b.score < a.score ∨ (b.score = a.score ∧ (a.y < b.y ∨ (a.y = b.y ∧ a.x ≤ b.x))))) cs).take (n.arg 31 1)

/-- The corners of a stripe, cell row by cell row (R143). -/
def State.stripeCorners (s : State) (n : NextOp) (d : ImgDesc) : List Corner :=
  let size := 2 ^ n.arg 30 1
  let row0 := n.arg 22 2
  let stop := min (row0 + n.arg 24 2) d.height
  (List.range (ceilDiv (stop - row0) size)).flatMap fun r =>
    (List.range (ceilDiv d.width size)).flatMap fun c =>
      s.cellCorners n d c (row0 + r * size) (min stop (row0 + (r + 1) * size))

/-- The last unit of a corner's angle, whose rounding the spec does not fix, and the angle of a disc without a direction (log 9). -/
def numAngle : Nat := 0x0601
/-- The smoothed intensity at a point outside the image, which the spec does not state (log 9). -/
def numOutside : Nat := 0x0602

/-- The moments m10 and m01 of the intensity over the disc of radius 15 (R144). -/
def State.moments (s : State) (d : ImgDesc) (x y : Nat) : Int × Int :=
  let pts := (List.range 961).map fun i => (((i % 31 : Nat) : Int) - 15, ((i / 31 : Nat) : Int) - 15)
  let disc := pts.filter fun p => decide (p.1 * p.1 + p.2 * p.2 ≤ 225)
  let m (w : Int × Int → Int) : Int := disc.foldl (fun t p => t + w p * s.lum d ((x : Int) + p.1) ((y : Int) + p.2)) 0
  (m (·.1), m (·.2))

/-- ANGLE (R144): atan2(m01, m10) in units of 2π / 65,536. Only whether it is rounded down or up is open, and what two zeros give. -/
def State.angleAt (s : State) (d : ImgDesc) (x y : Nat) : Nat :=
  let m := s.moments d x y
  let key := [patOf 64 m.1, patOf 64 m.2]
  if m.1 = 0 ∧ m.2 = 0 then Config.numeric numAngle key 0 % 65536
  else
    let t := turnFloor m.1 m.2
    if t.2 then t.1 % 65536 else (t.1 + Config.numeric numAngle key 1 % 2) % 65536

/-- cos(2πk/32) x 2^20 for k from 0 to 8. -/
def cosTable : List Int := [1048576, 1028428, 968758, 871859, 741455, 582558, 401273, 204567, 0]
/-- cos(2πk/32) x 2^20. -/
def cos32 (k : Nat) : Int :=
  let k := k % 32
  if k ≤ 8 then cosTable.getD k 0
  else if k ≤ 16 then - cosTable.getD (16 - k) 0
  else if k ≤ 24 then - cosTable.getD (k - 16) 0
  else cosTable.getD (32 - k) 0

/-- An offset rotated by a step of 1/32 turn, rounded to the nearest pixel (R144). The table is fine enough: no offset of a
pattern comes so near a half that its rounding could differ. -/
def rotate32 (k : Nat) (x y : Int) : Int × Int :=
  let c := cos32 k
  let n := cos32 (k + 24)
  (Int.fdiv (x * c - y * n + 524288) 1048576, Int.fdiv (x * n + y * c + 524288) 1048576)

/-- The smoothed intensity at a point; outside the image it is a value the spec does not state. -/
def State.smoothPoint (s : State) (d : ImgDesc) (x y : Int) : Nat :=
  if 0 ≤ x ∧ x < d.width ∧ 0 ≤ y ∧ y < d.height then s.smoothAt d x.toNat y.toNat
  else Config.numeric numOutside [s.free, patOf 32 x, patOf 32 y] 0 % 256

/-- The 256 bits of a descriptor (R144). -/
def State.descAt (s : State) (d : ImgDesc) (pattern : List Byte) (angle x y : Nat) : List Byte :=
  let step := (angle + 1024) / 2048 % 32
  let off (i k : Nat) : Int := signedOf 8 (fieldAt pattern (4 * i + k) 1)
  let at' (i k : Nat) : Nat :=
    let r := rotate32 step (off i k) (off i (k + 1))
    s.smoothPoint d ((x : Int) + r.1) ((y : Int) + r.2)
  natLe 32 ((List.range 256).foldl (fun v i => if at' i 0 < at' i 2 then v + 2 ^ i else v) 0)

/-- A feature record (R145). -/
def State.featureRec (s : State) (n : NextOp) (d : ImgDesc) (c : Corner) : List Byte :=
  let level := n.arg 26 1
  let pos (v : Nat) : Nat := v * 2 ^ level * 65536 + (2 ^ level - 1) * 32768
  let angle := s.angleAt d c.x c.y
  let desc := if (n.arg 27 1).testBit 1 then s.descAt d (s.objBytes (n.img.objects.getD (n.arg 34 2) 0)) angle c.x c.y
    else List.replicate 32 0
  natLe 4 (pos c.x) ++ natLe 4 (pos c.y) ++ natLe 4 (patOf 32 c.score) ++ natLe 2 angle ++ natLe 1 level ++ natLe 1 (n.arg 40 1) ++ desc

/-- A full list noted, with the features of it that an operation discards (R146). -/
def noteFull (list index camera cut : Nat) (ls : List FullList) : List FullList :=
  if ls.any fun l => decide (l.list = list) then
    ls.map fun l => if l.list = list then { l with discarded := l.discarded + cut } else l
  else { list := list, index := index, camera := camera, discarded := cut } :: ls

/-- FE_DETECT: the list grows as its limit and the span's allow (R146). Once either limit is reached nothing more is written, so every
further feature meets that one; a list that fills with the last feature of the span counts as the full list (DESIGN CHOICE, log 65). -/
def State.detectOp (s : State) (n : NextOp) : State :=
  let d := n.img16 0
  let list := n.arg 16 4
  let new := (n.arg 27 1).testBit 0
  let count := if new then 0 else s.poolVal (list + 12) 4
  let gone := if new then 0 else s.poolVal (list + 16) 4
  let old := if new then 0 else s.poolVal (list + 22) 2 % 4
  let h := s.srcHdr d
  let cs := s.stripeCorners n d
  let room := n.arg 20 2 - count
  let span := 65536 - s.vis[(1 : Fin 4)].spanFeatures
  let k := min cs.length (min room span)
  let cut := cs.length - k
  let listCut := if room ≤ span then cut else 0
  let spanCut := cut - listCut
  let recs := (cs.take k).flatMap fun c => s.featureRec n d c
  let flags := old ||| b2n (decide (listCut ≠ 0)) ||| 2 * b2n (decide (spanCut ≠ 0))
  let cells := ceilDiv d.width (2 ^ n.arg 30 1) * ceilDiv (n.arg 24 2) (2 ^ n.arg 30 1)
  let s := { (s.visFlagged 1 n h) with free := s.free + 1 }
  let s := (s.visCount 1 0 listCut).visCount 1 1 spanCut
  let s := s.updVis 1 fun v => { v with
    spanFeatures := v.spanFeatures + k, spanDiscards := v.spanDiscards + spanCut
    spanFull := if spanCut = 0 then v.spanFull else v.spanFull.or (some n.index)
    listsFull := if listCut = 0 then v.listsFull else noteFull list n.index (n.arg 40 1) listCut v.listsFull
    limit := v.limit || decide (cut ≠ 0) }
  s.startOp .fe n .main (ceilDiv (d.width * n.arg 24 2) 2 + 32 * cells * n.arg 31 1 + 16)
    [poolWrite (list + 64 + 48 * count) recs,
     poolWrite list (visionHdr h (count + k) (gone + cut) flags 0 0 (n.arg 22 2 + n.arg 24 2))]

/-! ## TRK_RUN (R147 to R149) -/

/-- A number of the tracker that the spec leaves open: the operator of a gradient, the last places of a short FP32 formula, which count
`ITERS` is, and fields of a result that nothing computes (log 9). -/
def numTrack : Nat := 0x0603

/-- A position in an image: x and y as FP32 patterns. -/
abbrev FpPoint := Nat × Nat

/-- An FX32 of binary point 16 in FP32. -/
def fxToFp32 (v : Nat) : Nat := fp32.ofNum (Num.ofInt (signedOf 32 v) (-16) false)
/-- An FP32 pattern times a power of two. -/
def FpFmt.scale (f : FpFmt) (p : Nat) (k : Int) : Nat := f.ofNum (Num.mul (f.decode p) (.fin false 1 k))
/-- A point times a power of two. -/
def FpPoint.scale (p : FpPoint) (k : Int) : FpPoint := (fp32.scale p.1 k, fp32.scale p.2 k)
/-- A point in FX32 of binary point 16, rounded and saturated. -/
def fpToFx (p : Nat) : Nat := patOf 32 (satInt32 (Num.toIntRne (Num.mul (fp32.decode p) (.fin false 1 16))))

/-- An image sampled at an offset from a point: bilinear, with weights from bits 15 to 8 of the position's fraction (R148). -/
def State.sampleAt (s : State) (d : ImgDesc) (p : FpPoint) (o : Int × Int) : Nat :=
  let q (v : Nat) : Int := Num.floor (Num.mul (fp32.decode v) (.fin false 1 16))
  let x := q p.1 / 65536 + o.1
  let y := q p.2 / 65536 + o.2
  let wx := (q p.1 % 65536 / 256).toNat
  let wy := (q p.2 % 65536 / 256).toNat
  let at' (a b : Int) : Nat := s.px8 d (min (max a 0).toNat (d.width - 1)) (min (max b 0).toNat (d.height - 1))
  fp32.encode false ((256 - wx) * (256 - wy) * at' x y + wx * (256 - wy) * at' (x + 1) y + (256 - wx) * wy * at' x (y + 1)
    + wx * wy * at' (x + 1) (y + 1)) (-16)

/-- The offsets of a patch, row by row. -/
def patchAt (size : Nat) : List (Int × Int) :=
  (List.range (size * size)).map fun i => (((i % size : Nat) : Int) - (size / 2 : Nat), ((i / size : Nat) : Int) - (size / 2 : Nat))

/-- A patch round a point lies in the image. -/
def patchInside (d : ImgDesc) (size : Nat) (p : FpPoint) : Bool :=
  let axis (v len : Nat) : Bool :=
    Num.le (.fin false (size / 2) 0) (fp32.decode v) && Num.le (Num.add (fp32.decode v) (.fin false (size / 2) 0)) (.fin false (len - 1) 0)
  axis p.1 d.width && axis p.2 d.height

/-- The gradient of the template at an offset: of the samples round it, by an operator that the spec does not give. -/
def State.gradAt (s : State) (d : ImgDesc) (p : FpPoint) (o : Int × Int) : Nat × Nat :=
  let near := (List.range 9).map fun i => s.sampleAt d p (o.1 + (i % 3 : Nat) - 1, o.2 + (i / 3 : Nat) - 1)
  (fp32.unfixed numTrack near 0, fp32.unfixed numTrack near 1)

/-- A product summed over a patch. -/
def patchSum (as bs : List Nat) : Nat := fp32.sum numTrack (List.zipWith fp32.mul as bs)

/-- The template of a level: its samples, its gradients and their matrix. -/
structure Template where
  vals : List Nat
  gx : List Nat
  gy : List Nat
  xx : Nat
  xy : Nat
  yy : Nat

/-- The template of an image round a point. -/
def State.templateAt (s : State) (d : ImgDesc) (size : Nat) (p : FpPoint) : Template :=
  let gs := (patchAt size).map (s.gradAt d p)
  let gx := gs.map (·.1)
  let gy := gs.map (·.2)
  { vals := (patchAt size).map (s.sampleAt d p), gx := gx, gy := gy, xx := patchSum gx gx, xy := patchSum gx gy, yy := patchSum gy gy }

/-- The smaller eigenvalue of the gradient matrix, per pixel of the patch. -/
def Template.minEig (t : Template) (size : Nat) : Nat :=
  let mean := fp32.scale (fp32.add t.xx t.yy) (-1)
  let half := fp32.scale (fp32.sub t.xx t.yy) (-1)
  let radius := fp32.sqrt (fp32.add (fp32.mul half half) (fp32.mul t.xy t.xy))
  fp32.near numTrack [t.xx, t.xy, t.yy] (fp32.div (fp32.sub mean radius) (fp32.ofInt (size * size)))

/-- The update of an estimate: the inverse of the matrix on the gradients times the differences (R148). -/
def Template.step (t : Template) (warped : List Nat) : FpPoint :=
  let err := List.zipWith fp32.sub warped t.vals
  let bx := patchSum t.gx err
  let by' := patchSum t.gy err
  let det := fp32.sub (fp32.mul t.xx t.yy) (fp32.mul t.xy t.xy)
  let key := [t.xx, t.xy, t.yy, bx, by']
  (fp32.near numTrack (0 :: key) (fp32.div (fp32.sub (fp32.mul t.yy bx) (fp32.mul t.xy by')) det),
   fp32.near numTrack (1 :: key) (fp32.div (fp32.sub (fp32.mul t.xx by') (fp32.mul t.xy bx)) det))

/-- What a track asks of the engine: the images by level, the patch, the iterations and the least eigenvalue. -/
structure TrackJob where
  prev : List ImgDesc
  cur : List ImgDesc
  patch : Nat
  iterMax : Nat
  minEig : Nat
  deriving DecidableEq, Repr

/-- Where a track stands: its code and the level of a failure, the estimate at a level's scale, whether an iteration has been made,
the iterations in all and at the last level, the eigenvalue and the residual once they are formed. -/
structure TrackAt where
  code : Nat
  level : Nat
  est : FpPoint
  begun : Bool
  iters : Nat
  lastIters : Nat
  eig : Option Nat
  resid : Option Nat
  deriving DecidableEq, Repr

/-- An estimate lies within 16 pixels of the prediction on each axis. -/
def nearPred (est pred : FpPoint) : Bool :=
  let axis (a b : Nat) : Bool :=
    Num.le (.fin true 16 0) (fp32.decode (fp32.sub a b)) && Num.le (fp32.decode (fp32.sub a b)) (.fin false 16 0)
  axis est.1 pred.1 && axis est.2 pred.2

/-- Both components of an update are less than 2^-6 pixel. -/
def converged (u : FpPoint) : Bool :=
  let axis (a : Nat) : Bool := Num.lt (.fin true 1 (-6)) (fp32.decode a) && Num.lt (fp32.decode a) (.fin false 1 (-6))
  axis u.1 && axis u.2

/-- The iterations of one level from an estimate: the answer is the track, with whether it converged. -/
def State.trackIter (s : State) (j : TrackJob) (d : ImgDesc) (t : Template) (pred : FpPoint) : Nat → TrackAt → TrackAt × Bool
  | fuel, k =>
    if !patchInside d j.patch k.est then ({ k with code := 1 }, false)
    else if !nearPred k.est pred then ({ k with code := 3 }, false)
    else match fuel with
      | 0 => (k, false)
      | fuel + 1 =>
        let u := t.step ((patchAt j.patch).map (s.sampleAt d k.est))
        let k := { k with est := (fp32.sub k.est.1 u.1, fp32.sub k.est.2 u.2), begun := true, iters := k.iters + 1, lastIters := k.lastIters + 1 }
        if converged u then
          (if !patchInside d j.patch k.est then { k with code := 1 } else if !nearPred k.est pred then { k with code := 3 } else k, true)
        else s.trackIter j d t pred fuel k

/-- One level of a track (R148, R149): template and start, texture, iterations, and at level 0 the residual. -/
def State.trackLevel (s : State) (j : TrackJob) (from' pred : FpPoint) (maxResid level : Nat) (k : TrackAt) : TrackAt :=
  let prev := j.prev.getD level (j.prev.headD { addr := 0, stride := 0, width := 0, height := 0, format := 0, hdrKind := 0, shift := 0 })
  let cur := j.cur.getD level prev
  let at' := FpPoint.scale from' (-(level : Int))
  let k := { k with level := level, lastIters := 0 }
  if !patchInside prev j.patch at' then { k with code := 1 }
  else
    let t := s.templateAt prev j.patch at'
    let eig := t.minEig j.patch
    let k := { k with eig := some eig }
    if !patchInside cur j.patch k.est then { k with code := 1 }
    else if fp32.lt eig j.minEig then { k with code := 2 }
    else
      let r := s.trackIter j cur t (FpPoint.scale pred (-(level : Int))) j.iterMax k
      if r.1.code ≠ 0 ∨ level ≠ 0 then r.1
      else if !r.2 then { r.1 with code := 4 }
      else
        let warped := (patchAt j.patch).map (s.sampleAt cur r.1.est)
        let sum := fp32.sum numTrack (List.zipWith (fun a b => fp32.sub a b % 2 ^ 31) warped t.vals)
        let resid := fp32.div sum (fp32.ofInt (j.patch * j.patch))
        if fp32.lt maxResid resid then { r.1 with code := 5, resid := some resid } else { r.1 with resid := some resid }

/-- The levels of a track from one down, until one fails; each starts from twice the estimate of the one above. -/
def State.trackDown (s : State) (j : TrackJob) (from' pred : FpPoint) (maxResid : Nat) : Nat → TrackAt → TrackAt
  | 0, k => s.trackLevel j from' pred maxResid 0 k
  | level + 1, k =>
    let k := s.trackLevel j from' pred maxResid (level + 1) k
    if k.code ≠ 0 then k else s.trackDown j from' pred maxResid level { k with est := k.est.scale 1 }

/-- A position tracked from one frame to another. A position of level 0 scales to level L by 2^-L, so that twice an estimate is its
place one level down (DEDUCED, log 71). -/
def State.trackPatch (s : State) (j : TrackJob) (from' pred : FpPoint) (maxResid : Nat) : TrackAt :=
  let top := j.prev.length - 1
  s.trackDown j from' pred maxResid top
    { code := 0, level := top, est := FpPoint.scale pred (-(top : Int)), begun := false, iters := 0, lastIters := 0, eig := none, resid := none }

/-- The estimate of a track at level 0 scale, or the prediction if no iteration was made. -/
def TrackAt.place (k : TrackAt) (pred : FpPoint) : FpPoint := if k.begun then k.est.scale k.level else pred

/-- The distance between two points. -/
def distance (a b : FpPoint) : Nat :=
  let dx := fp32.sub a.1 b.1
  let dy := fp32.sub a.2 b.2
  fp32.near numTrack [dx, dy] (fp32.sqrt (fp32.add (fp32.mul dx dx) (fp32.mul dy dy)))

/-- A number in sixteenths, rounded and saturated to 16 bits. -/
def sixteenths (bits : Nat) : Nat :=
  let v := Num.toIntRne (Num.mul (fp32.decode bits) (.fin false 1 4))
  if v < 0 then 0 else min 65535 v.toNat

/-- A result of the tracker: its record and its code (R147 to R149). A field that nothing computed for this result is free: the spec
gives none. A backward track that fails counts with its last estimate (DESIGN CHOICE, log 65). -/
def State.trackResult (s : State) (n : NextOp) (r : List Byte) : List Byte × Nat :=
  let v (off : Nat) : Nat := fieldAt r off 4
  let levels := n.arg 10 1
  let job : TrackJob :=
    { prev := (List.range levels).map fun l => n.img16 (32 + 16 * l), cur := (List.range levels).map fun l => n.img16 (96 + 16 * l)
      patch := n.arg 11 1, iterMax := n.arg 12 1, minEig := n.arg 16 4 }
  let from' : FpPoint := (fxToFp32 (v 4), fxToFp32 (v 8))
  let pred : FpPoint := (fxToFp32 (v 12), fxToFp32 (v 16))
  let k := s.trackPatch job from' pred (n.arg 20 4)
  let est := k.place pred
  let fb : Option Nat :=
    if k.code = 0 ∧ (n.arg 13 1).testBit 0 then
      let back := s.trackPatch { job with prev := job.cur, cur := job.prev } est est (fp32.infBits false)
      some (sixteenths (distance (back.place est) from'))
    else none
  let code := if (match fb with | some e => decide (n.arg 14 2 < e) | none => false) then 6 else k.code
  let free (i m : Nat) : Nat := Config.numeric numTrack (r.map (·.toNat)) i % m
  let pos (p : Nat) (off : Nat) : Nat := if k.begun then fpToFx p else v off
  let iters := if free 2 2 = 0 then k.iters else k.lastIters
  (r.take 4 ++ natLe 4 (pos est.1 12) ++ natLe 4 (pos est.2 16) ++ natLe 2 ((k.resid.map sixteenths).getD (free 3 65536))
    ++ natLe 2 ((k.eig.map sixteenths).getD (free 4 65536)) ++ natLe 1 code ++ natLe 1 (if code = 0 then 0xFF else k.level)
    ++ natLe 1 iters ++ [0] ++ natLe 2 (fb.getD (free 5 65536)) ++ List.replicate 10 0, code)

/-- TRK_RUN: one result for each request that runs. -/
def State.trackOp (s : State) (n : NextOp) : State :=
  let req := n.arg 0 4
  let res := n.arg 4 4
  let asked := s.poolVal (req + 12) 4
  let run := min asked (n.arg 8 2)
  let left := asked - run
  let rs := (List.range run).map fun i => s.trackResult n (s.readPool (req + 64 + 32 * i) 32)
  let h : SrcHdr := { s.srcHdr { (n.img16 32) with addr := req, hdrKind := 1 } with source := s.poolVal (req + 30) 1 }
  let s := s.visFlagged 2 n h
  let s := (List.finRange 7).foldl (fun (s : State) (c : Fin 7) =>
    s.visCount 2 ⟨c.val, by omega⟩ (rs.filter fun r => decide (r.2 = c.val)).length) s
  let s := s.visCount 2 7 left
  let s := if left = 0 then s
    else (s.updVis 2 fun v => { v with limit := true }).visOnce 2 2 0x0702 n.index left 0
  let factor := (if n.arg 11 1 = 15 then 2 else 1) * (if (n.arg 13 1).testBit 0 then 2 else 1)
  s.startOp .trk n .main (600 * run * factor + 16)
    [poolWrite (res + 64) (rs.flatMap (·.1)), poolWrite res (visionHdr h run left (b2n (decide (left ≠ 0))) 0 0 0)]

/-! ## FTH_STRIPE (R150 to R154) -/

/-- The disparities of an operation. -/
def fthCount (n : NextOp) : Nat := 64 * (n.arg 70 1 % 4 + 1)

/-- The cost of a pixel whose census window leaves the image, which the spec does not state (log 9). -/
def numCensus : Nat := 0x0801
/-- Whether a winner left of the image counts as occluded, which the spec does not state (log 9). -/
def numLeft : Nat := 0x0802

/-- The census code of a pixel: its 62 comparisons (R151). -/
def State.census (s : State) (d : ImgDesc) (x y : Nat) : List Bool :=
  let c := s.px8 d x y
  (List.range 63).filterMap fun k =>
    if k = 31 then none else some (decide (s.px8 d (x + k % 9 - 4) (y + k / 9 - 3) < c))

/-- The number of places in which two codes differ. -/
def hamming (a b : List Bool) : Nat := ((a.zip b).filter fun p => p.1 != p.2).length

/-- The costs of a pixel over the disparities (R151). -/
def State.costs (s : State) (n : NextOp) (left : List (List Bool)) (right : List (List Bool)) (y x : Nat) : List Nat :=
  let d := n.img16 0
  (List.range (fthCount n)).map fun k =>
    let disp := n.arg 68 2 + k
    if x < disp + 4 then 63
    else if d.width ≤ x + 4 ∨ y < 3 ∨ d.height ≤ y + 3 then Config.numeric numCensus [s.free, y, x, disp] 0 % 63
    else hamming (left.getD x []) (right.getD (x - disp) [])

/-- The least of a list of costs. -/
def least (l : List Nat) : Nat := l.foldl min 0xFFFF

/-- One step of a path (R152); a path that starts takes the costs themselves. -/
def pathStep (p1 p2 : Nat) (prev : Option (List Nat)) (c : List Nat) : List Nat :=
  match prev with
  | none => c
  | some l =>
    let m := least l
    (List.range c.length).map fun k =>
      let up := if k + 1 < l.length then l.getD (k + 1) 0 + p1 else 0xFFFF
      let down := if 0 < k then l.getD (k - 1) 0 + p1 else 0xFFFF
      c.getD k 0 + min (min (l.getD k 0) (min up down)) (m + p2) - m

/-- A row of the horizontal path. -/
def pathRow (p1 p2 : Nat) : Option (List Nat) → List (List Nat) → List (List Nat)
  | _, [] => []
  | prev, c :: cs => let l := pathStep p1 p2 prev c; l :: pathRow p1 p2 (some l) cs

/-- A row of a path that comes from the row above, a column to the left or right of it. -/
def pathDown (p1 p2 : Nat) (above : Option (List (List Nat))) (dx : Int) (cs : List (List Nat)) : List (List Nat) :=
  (List.range cs.length).map fun (x : Nat) =>
    let from' : Option (List Nat) :=
      match above with
      | none => none
      | some rows => if (x : Int) + dx < 0 then none else rows[((x : Int) + dx).toNat]?
    pathStep p1 p2 from' (cs.getD x [])

/-- The index of the first least element. -/
def argLeast (l : List Nat) : Nat := (l.findIdx? fun v => decide (v = least l)).getD 0

/-- A disparity in sixteenths (R153 steps 2 and 3). -/
def refine (sums : List Nat) (k disp : Nat) : Nat :=
  let a : Int := sums.getD (k - 1) 0
  let z : Int := sums.getD k 0
  let b : Int := sums.getD (k + 1) 0
  let den := a + b - 2 * z
  if disp = 0 ∨ k = 0 ∨ sums.length ≤ k + 1 ∨ den ≤ 0 then 16 * disp
  else
    let num := 8 * (a - b)
    let num := max (-8 * den) (min (8 * den) num)
    (rneDiv (16 * disp * den + num) den.toNat).toNat

/-- The texture test of R154. -/
def State.noTexture (s : State) (d : ImgDesc) (thresh x y : Nat) : Bool :=
  let vs := (List.range 63).map fun k => s.px8 d (x + k % 9 - 4) (y + k / 9 - 3)
  let sum := vs.foldl (· + ·) 0
  decide (63 * vs.foldl (fun t v => t + v * v) 0 < sum * sum + 3969 * thresh)

/-- A pixel's disparity and confidence, or its reserved code (R153, R154). `sums` holds the row's sums by column. -/
def State.fthPixel (s : State) (n : NextOp) (sums : List (List Nat)) (y x : Nat) : Nat × Nat :=
  let d := n.img16 0
  let lo := n.arg 68 2
  let count := fthCount n
  let mine := sums.getD x []
  let k := argLeast mine
  let disp := lo + k
  let inRoi := decide (4 ≤ x ∧ x + 4 < d.width ∧ 3 ≤ y ∧ y + 3 < d.height ∧ n.arg 78 2 ≤ x ∧ x < n.arg 82 2 ∧ n.arg 80 2 ≤ y
    ∧ y < n.arg 84 2)
  if !inRoi then (0xFFFC, 0)
  else if s.noTexture d (n.arg 76 2) x y then (0xFFFF, 0)
  else
    let none' := decide (x < lo + 4)
    let last := min (lo + count - 1) (x - 4)
    if none' || decide (disp = last) || (decide (disp = lo) && decide (0 < lo)) then (0xFFFD, 0)
    else
      let right (x' : Nat) : Nat :=
        lo + argLeast ((List.range count).map fun j =>
          if x' + lo + j < d.width then (sums.getD (x' + lo + j) []).getD j 0xFFFE else 0xFFFE)
      let far : Bool :=
        if x < disp then decide (Config.numeric numLeft [s.free, y, x] 0 % 2 = 1)
        else decide (n.arg 74 1 < ((disp : Int) - right (x - disp)).natAbs)
      if (n.arg 71 1).testBit 1 && far then (0xFFFE, 0)
      else
        let others := ((List.range mine.length).filter fun j => decide (j + 1 < k ∨ k + 1 < j)).map fun j => mine.getD j 0
        let margin := least others - mine.getD k 0
        (refine mine k disp, min 255 (max 1 (margin * n.arg 75 1 / 16)))

/-- One row of a stripe: the paths of its three vertical directions, and its pixels. -/
def State.fthRow (s : State) (n : NextOp) (above : Option (List (List (List Nat)))) (y : Nat) :
    List (List (List Nat)) × List (Nat × Nat) :=
  let l := n.img16 0
  let r := n.img16 16
  let p1 := n.arg 72 1
  let p2 := n.arg 73 1
  let codes (d : ImgDesc) := (List.range d.width).map fun x => s.census d x y
  let left := codes l
  let right := codes r
  let cs := (List.range l.width).map fun x => s.costs n left right y x
  let up (i : Nat) : Option (List (List Nat)) := above.map fun a => a.getD i []
  let h := pathRow p1 p2 none cs
  let v := pathDown p1 p2 (up 0) 0 cs
  let a := pathDown p1 p2 (up 1) (-1) cs
  let b := pathDown p1 p2 (up 2) 1 cs
  let sums := (List.range l.width).map fun x => (List.range (fthCount n)).map fun k =>
    (h.getD x []).getD k 0 + (v.getD x []).getD k 0 + (a.getD x []).getD k 0 + (b.getD x []).getD k 0
  ([v, a, b], (List.range l.width).map fun x => s.fthPixel n sums y x)

/-- The rows of a stripe in turn. -/
def State.fthRows (s : State) (n : NextOp) : Nat → Option (List (List (List Nat))) → Nat →
    List (List (List Nat)) × List (List (Nat × Nat))
  | 0, above, _ => (above.getD [], [])
  | k + 1, above, y =>
    let r := s.fthRow n above y
    let q := s.fthRows n k (some r.1) (y + 1)
    (q.1, r.2 :: q.2)

/-- FTH_STRIPE. -/
def State.stripeOp (s : State) (n : NextOp) : State :=
  let left := n.img16 0
  let disp := n.img16 32
  let conf := n.img16 48
  let row0 := n.arg 64 2
  let rows := n.arg 66 2
  let v := s.vis[(3 : Fin 4)]
  let fresh := (n.arg 71 1).testBit 0 || v.stripeSkipped || v.path.isEmpty
  let r := s.fthRows n rows (if fresh then none else some v.path) row0
  let h := s.srcHdr left
  let px := r.2.flatten
  let ws := ((List.range rows).zip r.2).flatMap fun (i, row) =>
    [poolWrite (disp.row (row0 + i)) (row.flatMap fun p => natLe 2 p.1), poolWrite (conf.row (row0 + i)) (row.flatMap fun p => natLe 1 p.2)]
  let hdr (d : ImgDesc) : MemWrite := poolWrite d.addr (visionHdr h 0 0 0 d.width d.height (row0 + rows))
  let s := { (s.visFlagged 3 n h) with free := s.free + 1 }
  let s := s.updVis 3 fun v => { v with path := r.1, stripeSkipped := false }
  let count (c : Fin 8) (code : Nat) (s : State) : State := s.visCount 3 c (px.filter fun p => decide (p.1 = code)).length
  let s := count 3 0xFFFE (count 2 0xFFFD (count 1 0xFFFF (count 0 0xFFFC s)))
  s.startOp .fth n .main (ceilDiv (left.width * rows * fthCount n) 64 + 16) (ws ++ [hdr disp, hdr conf])

/-! ## The rows -/

/-- PW_WARP (R136 to R138). -/
def execPwWarp (s : State) : Host.Outcome State Fault Refusal := .next (s.tryIssue .pw 0x10 (some .main) fun n s => s.warpOp n)
/-- PW_PYRAMID (R136, R139, R460). -/
def execPwPyramid (s : State) : Host.Outcome State Fault Refusal := .next (s.tryIssue .pw 0x11 (some .main) fun n s => s.pyramidOp n)
/-- FE_DETECT (R140 to R146). -/
def execFeDetect (s : State) : Host.Outcome State Fault Refusal := .next (s.tryIssue .fe 0x10 (some .main) fun n s => s.detectOp n)
/-- TRK_RUN (R147 to R149). -/
def execTrkRun (s : State) : Host.Outcome State Fault Refusal := .next (s.tryIssue .trk 0x10 (some .main) fun n s => s.trackOp n)
/-- FTH_STRIPE (R150 to R154). -/
def execFthStripe (s : State) : Host.Outcome State Fault Refusal := .next (s.tryIssue .fth 0x10 (some .main) fun n s => s.stripeOp n)

end Sys2Proof.Machine
end

