-- ==== Sys2Proof/Machine/Boundary.lean ====
section
/-!
DEFINITION. The end of an operation, the latch, and the boundary of a span (R20, R67, R73 to R80).
-/
namespace Sys2Proof.Machine

/-! ## The end of an operation (R67) -/

/-- What an engine does as an operation of it ends, beside the bytes it writes; with `limit`, a boundary stops it, and as much
of it is done (R75). -/
def State.engineEffect (s : State) (t : Target) (n : NextOp) (r : Running) (limit : Option Nat) : State :=
  match t with
  | .fld => s.fldEnd n limit
  | .fus => s.fusEnd n r.startDt limit
  | .slv => s.slvEnd n.img n.op limit
  | .ps => if n.op.opcode = 0x11 then s.fileEnd n.img n.op limit else s
  | .ife => if n.op.opcode = 0x10 then s.emitEnd n.op.argA else s
  | .mv => if n.op.opcode = 0x10 then s.closeWindow else s
  | _ => s

/-- The operation of a running entry, as the section gives it. -/
def State.opOfRun (s : State) (t : Target) (r : Running) : Option NextOp :=
  (s.sectionOf t).map fun x => { part := x.1, img := x.2.1, index := r.index, op := r.op }

/-- An operation may end now: a window runs to the end of its `END_GRAIN`, and those of the solver and of the place search
engine end by rows of their own (R120, R267, R293, R309). -/
def State.mayEnd (s : State) (t : Target) (r : Running) : Bool :=
  let grain (off : Nat) : Bool := match s.opOfRun t r with
    | some n => decide (n.arg off 2 < s.grain)
    | none => true
  if r.op.opcode < 0x10 then true
  else match t with
    | .ife => grain 10
    | .mv => grain 0
    | .ps => decide (r.op.opcode = 0x11)
    | .slv => decide (r.op.opcode = 0x12)
    | _ => true

/-- A running operation taken out of its sequencer. -/
def State.dropRun (s : State) (t : Target) (r : Running) : State := s.onSeq t fun q => { q with running := q.running.erase r }

/-- A running operation ends: its bytes are written, the engine does the rest, and `SET_FLAG` is set. -/
def State.runDone (s : State) (t : Target) (r : Running) : State :=
  match t with
  | .core c =>
    let e := (s.dropRun t r).coreEnd c r
    ((e.2).onSeq t fun q => { q with running := e.1.toList ++ q.running }).settleFiller t
  | _ =>
    let s := (s.dropRun t r).applyMemWrites r.writes
    let s := match s.opOfRun t r with
      | some n => s.engineEffect t n r none
      | none => s
    ((s.countDone t).countBusy t r r.ownCycles).setOnDone r.op

/-- The operation of a unit of a target ends, if one runs and may end. -/
def State.opComplete (s : State) (t : Target) (u : OpUnit) : State :=
  match (s.seq t).running.find? fun r => decide (r.unit = u) && s.mayEnd t r with
  | some r => s.runDone t r
  | none => s

/-! ## Selection (R76 to R79) -/

/-- The images of a partition that rules 1 and 2 leave: of a family, with the running span length, and no fenced core. -/
def State.candidates (s : State) (p : Fin 4) (fam : Nat) (fence : Byte) : List (Fin 64 × Image) :=
  (List.finRange 64).filterMap fun k => match s.sched.slots[k] with
    | some img =>
      if img.partition = p ∧ img.familySig = fam ∧ img.coreMask &&& fence = 0 ∧ img.spanGrains = s.sched.spanGrains.toNat then
        some (k, img) else none
    | none => none

/-- Rules 4 and 5 over the images of one rung; a named image among them comes first (R77). -/
def chooseOf (named : Option (Fin 64)) (relief : Byte) (cs : List (Fin 64 × Image)) : Option (Fin 64) :=
  let byName := cs.find? fun x => decide (named = some x.1)
  let relieves := cs.find? fun x => decide (x.2.variantKind = 1) && relief.getLsbD x.2.variantCore
  let base := cs.find? fun x => decide (x.2.variantKind = 0)
  ((byName.or relieves).or (base.or cs.head?)).map (·.1)

/-- The slot that rules 1 to 5 choose: at the required rung, else at the next higher, up to rung 5. -/
def State.chooseSlot (s : State) (p : Fin 4) (fam rung : Nat) (fence relief : Byte) : Option (Fin 64) :=
  let cs := s.candidates p fam fence
  (List.range 6).findSome? fun r =>
    if r < rung then none else chooseOf s.sched.named[p] relief (cs.filter fun x => decide (x.2.rung = r))

/-- A rung moved towards the required one, by one at most (R79). -/
def stepRung (now : Option Nat) (required : Nat) : Nat :=
  match now with
  | none => required
  | some r => if required < r then r - 1 else if r < required then r + 1 else r

/-- The family of a named image becomes the running family (R77). -/
def State.adoptFamily (s : State) (p : Fin 4) : State :=
  match s.sched.named[p].bind fun k => s.sched.slots[k] with
  | some img => { s with sched := { s.sched with family := s.sched.family.set p (some img.familySig) } }
  | none => s

/-- A partition's selection put through `SC_SELECT_p` into the latch. The latch takes the selection and clears its valid bit, so that
one written after the latch is still there at the next (DESIGN CHOICE, log 63). -/
def State.latchTo (s : State) (p : Fin 4) (k : Option (Fin 64)) : State :=
  { s with sched := { s.sched with
    latchSlot := s.sched.latchSlot.set p k
    select := s.sched.select.set p (match k with | some i => BitVec.ofNat 8 i.val | none => 0) } }

/-- A chosen relief image goes on being chosen until R79 ends it. -/
def State.noteRelief (s : State) (k : Fin 64) (relief : Byte) : State :=
  match s.sched.slots[k] with
  | some img =>
    if img.variantKind = 1 ∧ relief.getLsbD img.variantCore then
      { s with sched := { s.sched with relieved := s.sched.relieved ||| (1 <<< img.variantCore) } }
    else s
  | none => s

/-- One partition's image selected (R76 to R78). -/
def State.selectFor (s : State) (p : Fin 4) : State :=
  let s := s.adoptFamily p
  match s.sched.family[p] with
  | none => s.latchTo p none
  | some fam =>
    if s.sched.hostPause[p] || decide (s.sched.state ≠ .running) then s.latchTo p none
    else
      let required := if p = 0 then s.requiredRung else max ((s.sched.rungCur[(0 : Fin 4)]).getD 0) s.sched.hostRung[p]
      let rung := min 5 (stepRung s.sched.rungCur[p] required)
      let s := { s with sched := { s.sched with rungCur := s.sched.rungCur.set p (some rung) } }
      let relief := s.sched.overCur ||| s.sched.overPrev ||| s.sched.relieved
      let fence := s.sched.fenceLive ||| s.sched.fence
      match s.chooseSlot p fam rung fence relief with
      | some k =>
        ({ (s.latchTo p (some k)) with sched := { (s.latchTo p (some k)).sched with paused := s.sched.paused.set p false } } : State).noteRelief k relief
      | none =>
        let s := s.latchTo p none
        if p = 0 then
          let s := { s with sched := { s.sched with statusW1c := s.sched.statusW1c ||| 8, state := .stopping } }
          (s.fatal false 0x00 0x0006 0 fence.toNat rung)
        else { s with sched := { s.sched with paused := s.sched.paused.set p true } }

/-- With `CP0` halted nothing is selected: what `SC_SELECT_p` holds is taken, else the running image runs again (R73, R435). -/
def State.repeatFor (s : State) (p : Fin 4) : State :=
  let sel := s.sched.select[p]
  let s := { s with sched := { s.sched with select := s.sched.select.set p (sel &&& 0x7F) } }
  let k : Option (Fin 64) :=
    if h : sel.toNat % 128 < 64 then (if sel.getLsbD 7 then some ⟨sel.toNat % 128, h⟩ else none) else none
  match k with
  | some k => { s with sched := { s.sched with latchSlot := s.sched.latchSlot.set p (some k) } }
  | none =>
    let old := s.sched.running[p]
    let s := { s with sched := { s.sched with latchSlot := s.sched.latchSlot.set p old } }
    match old with
    | some k =>
      let s := { s with sched := { s.sched with statusW1c := s.sched.statusW1c ||| 4 } }
      s.event 0x00 0x0005 p.val k.val 0
    | none => s

/-! ## The latch (R73) -/

/-- The pulses of the images in given slots for a span that starts at an instant (R62). -/
def State.pulsesAt (s : State) (slots : List (Option (Fin 64))) (start : Nat) : List TrigDue :=
  (slots.filterMap fun x => x.bind fun k => s.sched.slots[k]).flatMap fun img =>
    img.triggers.map fun e => { due := start + e.offsetNs, pin := e.pin, width := e.widthNs, stamps := e.stamps, stream := e.stream }

/-- Selections that wait are recorded, in acceptance order (R77). -/
def State.applySelects (s : State) : State :=
  s.fw.jobs.foldl (fun (s : State) (j : Job) => match j.kind with
    | .schedSelect mode rung slot false =>
      let s := s.applySelect s.mbx[j.mbx].partition mode rung slot
      { s with fw := { s.fw with jobs := s.fw.jobs.map fun (x : Job) => if x = j then { x with kind := .schedSelect mode rung slot true } else x } }
    | _ => s) s

/-- The latch carried out: the power manager's average, selections, power control, the choice of images, the rail, the shadow table,
clocks that restart, and results of the solver that are due at the boundary. Only what firmware does waits for `CP0` (R376, R379, R435). -/
def State.latchNow (s : State) : State :=
  let s := { s with sched := { s.sched with latched := true, fenceLatched := s.sched.fence } }
  let s := s.powerMeasure
  let s := if s.dev.cpHalted[0] then (List.finRange 4).foldl State.repeatFor s
    else (List.finRange 4).foldl State.selectFor (s.applySelects.powerLatch)
  let s := s.stepRail
  let s := { s with tu := { s.tu with shadow := s.pulsesAt s.sched.latchSlot.toList s.sched.nextBoundary } }
  (s.restartClocks).slvLatch

/-- SCHED_LATCH: grain `SPAN_GRAINS` - 50 is reached, before S0 at the same distance. -/
def State.latchStep (s : State) : State :=
  if s.schedOn && !s.sched.latched && decide (s.sched.nextBoundary ≤ s.dtNs + 50000) then s.latchNow else s

/-! ## Stopping and abandoning (R70, R74, R75) -/

/-- Windows whose `END_GRAIN` is past complete. -/
def State.endWindows (s : State) : State :=
  let one (t : Target) (s : State) : State := (s.seq t).running.foldl (fun (s : State) r =>
    if r.op.opcode = 0x10 ∧ s.mayEnd t r then s.runDone t r else s) s
  ((one .mv (one .ife s)).slvMiss.slvWindowEnd).psWindowEnd

/-- The first `k` bytes of what an operation writes. -/
def takeWrites : Nat → List MemWrite → List MemWrite
  | _, [] => []
  | k, w :: ws => if k = 0 then [] else { w with data := w.data.take k } :: takeWrites (k - w.data.length) ws

/-- A running operation stopped: its output stays incomplete, how far is a free value (log 7), and an array operation has
written nothing. -/
def State.stopRun (t : Target) (s : State) (r : Running) : State :=
  let array : Bool := match t with
    | .core _ => decide (r.unit = .main)
    | _ => false
  let s := s.countStopped t r
  if array then s
  else
    let (k, s) := s.drawBelow (r.writes.foldl (fun n w => n + w.data.length) 1)
    let (m, s) := s.drawBelow 65537
    let s := s.applyMemWrites (takeWrites k r.writes)
    match s.opOfRun t r with
    | some n => s.engineEffect t n r (some m)
    | none => s

/-- The operations of a target that a boundary stops, and those that it abandons. -/
def State.leftOps (s : State) (t : Target) : List Op × List Op :=
  match s.sectionOf t with
  | some (_, _, ops) => ((s.seq t).running.map (·.op), ops.drop (s.seq t).next)
  | none => ([], [])

/-- The time for which the next operation of a target has been held as a boundary comes (R71). -/
def State.heldNs (s : State) (t : Target) : Nat :=
  match s.nextOp t with
  | some n => if (s.seq t).halted then 0 else s.sched.nextBoundary - s.holdFrom t n.op
  | none => 0

/-- A target's waits added to its total, in grains. -/
def State.addWaits (s : State) (t : Target) : State :=
  if h : t.code < 27 then
    let w := ((s.seq t).waitNs + s.heldNs t) / 1000
    { s with sched := { s.sched with waitTotal := s.sched.waitTotal.set t.code (countUp s.sched.waitTotal[t.code] w) } }
  else s

/-- The flags of `POLICY` 1 that the stopped and abandoned operations of a target would have set. -/
def State.voidsOf (s : State) (t : Target) : List Nat :=
  match s.sectionOf t with
  | some (_, img, _) =>
    ((s.leftOps t).1 ++ (s.leftOps t).2).filterMap fun o => o.sets.bind fun f =>
      match img.flagEntry f with
      | some e => if e.policy = 1 then some f else none
      | none => none
  | none => []

/-- The flags that an image gives `POLICY` 0. -/
def Image.clears (img : Image) : List Nat := (img.flags.filter fun e => decide (e.policy = 0)).map (·.flag)

/-- The skips of the span recorded, once (R69). -/
def State.skipEvent (s : State) : State :=
  let ts := allTargets.filter fun t => decide (0 < (s.seq t).skips)
  if ts.isEmpty then s else s.event 0x00 0x0003 (maskOf (ts.map Target.code)) (ts.foldl (fun n t => n + (s.seq t).skips) 0) 0

/-- What was stopped or abandoned recorded. -/
def State.abandonEvent (s : State) (left : List (Target × List Op × List Op)) : State :=
  let some_ := left.filter fun x => !x.2.1.isEmpty || !x.2.2.isEmpty
  let stopped := left.foldl (fun n x => n + x.2.1.length) 0
  let dropped := left.foldl (fun n x => n + x.2.2.length) 0
  if some_.isEmpty then s
  else
    let s := { s with sched := { s.sched with
      statusW1c := s.sched.statusW1c ||| 2, abandonCount := countUp s.sched.abandonCount (stopped + dropped) } }
    s.event 0x00 0x0002 (maskOf (some_.map fun x => x.1.code)) stopped dropped

/-- Overruns of operations whose `LATEST` ends with the span, before anything is abandoned (R70). -/
def State.lastOverruns (s : State) : State := allTargets.foldl (fun (s : State) t => s.overrunAll t s.sched.spanGrains.toNat) s

/-- A core that has run for 64 spans in a row without an overrun, and without a clamp that holds it below the ceiling, is
relieved no longer (R79). -/
def State.reliefCount (s : State) (c : Fin 8) : State :=
  let good : Bool := !(s.seq (.core c)).overrunEvt && !s.pm.heldBelow c
  let n := if good then s.sched.cleanSpans[c] + 1 else 0
  if !s.sched.relieved.getLsbD c.val then s
  else if 64 ≤ n then
    { s with sched := { s.sched with relieved := s.sched.relieved &&& ~~~ ((1 : Byte) <<< c.val), cleanSpans := s.sched.cleanSpans.set c 0 } }
  else { s with sched := { s.sched with cleanSpans := s.sched.cleanSpans.set c n } }

/-- Queries that wait for a keyframe, in a span whose filing was stopped or abandoned: where a core had halted, whose
withheld flag the filing may have waited for, ERR_UNCORRECTABLE or ERR_RESIDUE by what halted it, and ERR_SCHED_OVERRUN otherwise
(R75, R177, R414; DEDUCED, log 64). -/
def State.scheduleLost (s : State) (left : List (Target × List Op × List Op)) : State :=
  let halted := (List.finRange 8).filter fun c => (s.seq (.core c)).halted
  let status := if halted.isEmpty then errOverrun else if halted.any fun c => s.cores[c].haltUnread then errUncorrectable else errResidue
  if left.any fun x => decide (x.1 = .ps) && (x.2.1 ++ x.2.2).any fun o => decide (o.opcode = 0x11) then
    s.keyframeLost status
  else s

/-- OP_VOID_SKIP: the skip of R69; a query that waits for a keyframe ends with the filing that is skipped (R75, log 64). -/
def State.skipStep (s : State) (t : Target) : State :=
  let files : Bool := match s.nextOp t with
    | some n => decide (t = .ps ∧ n.op.opcode = 0x11 ∧ ((s.voidSkip t).seq t).next ≠ (s.seq t).next)
    | none => false
  let s := s.voidSkip t
  if files then s.keyframeLost errOverrun else s

/-- Every sequencer stopped: the flags follow R68, and the sections end. -/
def State.stopAll (s : State) (clears named : List Nat) : State :=
  let s := (s.endWindows.slvBoundary).lastOverruns
  let left := allTargets.map fun t => (t, s.leftOps t)
  let voids := allTargets.flatMap s.voidsOf
  let s := (List.finRange 8).foldl State.reliefCount (allTargets.foldl State.addWaits s)
  let s := allTargets.foldl (fun (s : State) t => (s.seq t).running.foldl (State.stopRun t) s) s
  let s := ((s.skipEvent).boundaryFlags voids clears named).abandonEvent left
  let s := s.scheduleLost left
  let s := allTargets.foldl (fun (s : State) t => s.onSeq t fun q => { q with running := [] }) s
  let s := (List.finRange 8).foldl (fun (s : State) c => s.settleFiller (.core c)) s
  let s := allTargets.foldl (fun (s : State) t => s.onSeq t fun _ => Seq.start) s
  { s with sched := { s.sched with overPrev := s.sched.overCur, overCur := 0 } }

/-! ## The boundary (R20, R74, R80, R350) -/

/-- The slot that starts: the latched one, while it is resident, needs no fenced core, and its partition is not scrubbed. -/
def State.startSlot (s : State) (p : Fin 4) (fence : Byte) : Option (Fin 64) :=
  match s.sched.latchSlot[p] with
  | none => none
  | some k =>
    match s.sched.slots[k] with
    | none => none
    | some img =>
      if s.sched.state = .running ∧ img.coreMask &&& fence = 0 ∧ s.sec.grants[p].state ≠ 2 then some k else none

/-- The images that end or start at a boundary. -/
def State.imagesAt (s : State) (fence : Byte) : List Image :=
  (List.finRange 4).flatMap fun p => (s.image p).toList ++ ((s.startSlot p fence).bind fun k => s.sched.slots[k]).toList

/-- A command that applied at this boundary, and has no step of its own there (R350). -/
def State.boundaryJob (dt : Nat) (s : State) (j : Job) : State :=
  let done (s : State) : State := s.completeJob j stOk 0 0 0 0 dt
  match j.kind with
  | .streamSync => done s.softSync
  | .syncMode ignore => done (s.syncMode ignore)
  | .poseGiven _ | .poseAlign _ _ _ | .poseConfig _ | .trackDelete _ => s.applyPoseJob j dt
  | .mapConfig _ | .mapTrain _ => s.applyMapJob j dt
  | .schedSelect _ _ _ true => done s
  | .schedStart => done s
  | _ => s

/-- The fence mask, the grants and the partition changes, and the images in place (T + 40 to T + 350). -/
def State.applyControl (s : State) (t : Nat) : State :=
  let s := { s with sched := { s.sched with
    fenceLive := s.sched.fenceLatched, spanStart := BitVec.ofNat 64 t, beforeS0 := false } }
  let s := (s.partBoundary t).keyBoundary t
  { s with sched := { s.sched with running := Vector.ofFn fun p => s.startSlot p s.sched.fenceLive } }

/-- The blocks at a boundary, after the images are in place: `held` are abandoned operations of the stream manager, `ns` the
length of the span that ended. -/
def State.applyBlocks (s : State) (t ns : Nat) (held : List Op) : State :=
  let s := (s.streamBoundary held t).ifeBoundary
  let s := s.fw.jobs.foldl (State.boundaryJob t) s
  let s := (List.finRange 8).foldl State.coreSpanEvents s
  let s := ((s.visBoundary).fldBoundary.deleteAcres t).fusBoundary
  let s := ((s.slvCommits).writeCommits).psBoundary
  let s := ((s.memBoundary t).powerBoundary ns).recBoundary
  let s := s.mergeEvents.staleEvents
  { s with sec := { s.sec with isolationSeen := false } }

/-- The change of a partition's image recorded (R83). -/
def State.imageEvent (old : Vector (Option (Fin 64)) 4) (s : State) (p : Fin 4) : State :=
  let code (k : Option (Fin 64)) : Nat := match k with | some k => k.val | none => 0xFF
  if old[p] = s.sched.running[p] then s else s.event 0x00 0x0004 p.val (code old[p]) (code s.sched.running[p])

/-! ## What Rokan firmware prepares for a span (R228, R259, R297)

Which contexts it pages, and which spans hold a keyframe, are its decisions, for which the spec gives no rule: they are free values,
and so is what it writes (log 59). -/

/-- The page lists of the images' FUS_PAGE operations. -/
def State.writePageLists (s : State) : State :=
  match s.sectionOf .fus with
  | none => s
  | some (_, img, ops) =>
    (ops.filter fun o => decide (o.opcode = 0x17)).foldl (fun (s : State) (o : Op) =>
      let r := s.drawBytes (8 * img.param (o.argB + 4) 2)
      r.2.writePool (img.param o.argB 4) r.1) s

/-- The problem that SLV_WINDOW of the running image reads: of size 0 in a span that holds no keyframe, and of a size within the
pattern's in a span that holds one (R257, R259). -/
def State.writeProblem (keyframe : Bool) (img : Image) (s : State) (o : Op) : State :=
  let desc := img.paramBytes o.argB 128
  let plan := s.objBytes (img.objects.getD (fieldAt desc 40 2) 0)
  let a := fieldAt desc 16 8
  let rig := (img.objects.find? fun h => decide (handleType h = 0x07)).getD 0
  let cams := (List.range 64).filter fun k => decide (rigKind (rigEntry (s.objBytes rig) k) = 2)
  let (g, s) := s.drawMany 3
  let nv := if keyframe then 1 + g 0 % max 1 (fieldAt plan 4 2) else 0
  let nl := if keyframe then g 1 % (fieldAt plan 6 2 + 1) else 0
  let nf := if keyframe ∧ nl ≠ 0 ∧ !cams.isEmpty then g 2 % (fieldAt plan 8 4 + 1) else 0
  let (v, s) := s.drawMany (58 * nv)
  let (l, s) := s.drawMany (26 * nl)
  let (o, s) := s.drawMany (6 * nf)
  let bytes := problemBytes 1 s.dtNs rig ((List.range nv).map fun k => someVar v (58 * k)) ((List.range nl).map fun k => someLand l (26 * k))
    ((List.range nf).map fun k => someObs o nv nl cams (6 * k))
  if s.inDram0 a bytes.length then s.writeMem a bytes else s

/-- Rokan firmware at the beginning of a span: page lists, the window problem, and with a new keyframe its loop-closure query. -/
def State.firmwareWork (s : State) : State :=
  if !s.cpRuns 0 then s
  else
    let s := s.writePageLists
    let (k, s) := s.drawBelow 2
    let keyframe : Bool := decide (k = 1)
    let s := match s.sectionOf .slv with
      | none => s
      | some (_, img, ops) => (ops.filter fun o => decide (o.opcode = 0x10)).foldl (State.writeProblem keyframe img) s
    if keyframe then s.loopQuery else s

/-- The new images run (T + 400): the span is counted, changes are recorded, and what runs by span starts again. -/
def State.startSpan (s : State) (old : Vector (Option (Fin 64)) 4) : State :=
  let any : Bool := s.sched.running.any (·.isSome)
  let s := { s with sched := { s.sched with
    spanCount := countUp s.sched.spanCount 1, fenceSpans := s.sched.fenceSpans + (if any then 1 else 0) } }
  let s := (List.finRange 4).foldl (State.imageEvent old) s
  let s := ((List.finRange 8).foldl State.coreSpanStart s).firmwareWork
  let mine := s.pulsesAt s.sched.running.toList s.sched.spanStart.toNat
  { s with tu := { s.tu with table := s.tu.shadow.filter fun d => decide (d ∈ mine), shadow := [] } }

/-- The schedule ends: contexts are written back, and `STOPPED` is entered (R81, R228). -/
def State.endSchedule (s : State) (old : Vector (Option (Fin 64)) 4) : State :=
  let s := (List.finRange 4).foldl (State.imageEvent old) s.pageOutAll
  let s := { s with
    sched := { s.sched with state := .stopped, latchSlot := Vector.replicate 4 none, paused := Vector.replicate 4 false }
    tu := { s.tu with table := [], shadow := [] } }
  if s.isReady then s.raiseIrq irqState else s

/-- Commands that wait for the stop boundary; a SYS_PARK completes last, and the device parks (R391). -/
def State.stopJobs (s : State) (t : Nat) : State :=
  let park (j : Job) : Bool := decide (j.kind = .sysPark)
  let stops := s.fw.jobs.filter fun j => decide (j.kind = .schedStop)
  let parks := s.fw.jobs.filter park
  let s := (stops ++ parks).foldl (fun (s : State) (j : Job) => s.completeJob j stOk 0 0 0 0 t) s
  { s with dev := { s.dev with parkReady := s.dev.parkReady || !parks.isEmpty } }

/-- A boundary carried out. -/
def State.boundaryNow (s : State) : State :=
  let t := s.sched.nextBoundary
  let was := s.permitService
  let spanning := s.inSpan
  let ns := if spanning then t - s.sched.spanStart.toNat else 0
  let held := ((List.finRange 4).flatMap fun p => (s.leftOps (.sm p)).2)
  let old := s.sched.running
  let images := s.imagesAt s.sched.fenceLatched
  let clears := images.flatMap Image.clears
  let named := images.flatMap fun i => i.flags.map (·.flag)
  let s := if spanning then s.stopAll clears named else s.boundaryFlags [] clears named
  let ending : Bool := decide (s.sched.state = .stopping)
  let s := (s.applyControl t).applyBlocks t ns (if spanning then held else [])
  -- a fatal error that arises in the step itself stops the schedule at the next boundary
  let s := if ending then s.endSchedule old else s.startSpan old
  let s := { s with sched := { s.sched with
    nextBoundary := t + 1000 * s.sched.spanGrains.toNat, latched := false } }
  let s := if ending then s.stopJobs t else s
  s.leaveService was

/-- SPAN_BOUNDARY: DT reaches the boundary. A latch that no row has carried out comes first. -/
def State.boundaryStep (s : State) : State :=
  if s.schedOn && decide (s.sched.nextBoundary ≤ s.dtNs) then (s.latchStep).boundaryNow else s

/-! ## The rows -/

/-- OP_COMPLETE (R67). -/
def execOpComplete (t : Target) (u : OpUnit) (s : State) : Host.Outcome State Fault Refusal := .next (s.opComplete t u)
/-- OP_VOID_SKIP (R69). -/
def execOpVoidSkip (t : Target) (s : State) : Host.Outcome State Fault Refusal := .next (s.skipStep t)
/-- SCHED_LATCH (R73). -/
def execSchedLatch (s : State) : Host.Outcome State Fault Refusal := .next s.latchStep
/-- SPAN_BOUNDARY (R74). -/
def execSpanBoundary (s : State) : Host.Outcome State Fault Refusal := .next s.boundaryStep

end Sys2Proof.Machine
end

