-- ==== Sys2Proof/Machine/TimeCmd.lean ====
section
/-!
DEFINITION. The TIME_ commands (R29, R33, R35, R39, R46, R50, R357).
-/
namespace Sys2Proof.Machine

/-- The reserved bits of `TU_CTRL` and of `TB_x_CFG`, which TIME_CONFIG must carry as zero (R10, R51). -/
def timeReserved (ctrl cfgA cfgB : Nat) : Bool :=
  decide (ctrl &&& 0xFF00F00C ≠ 0 ∨ cfgA &&& 0x007F0000 ≠ 0 ∨ cfgB &&& 0x007F0000 ≠ 0)

/-- TIME_CONFIG carried out: each register is written as R51 gives. -/
def State.timeConfig (c : SubEntry) (s : State) : State :=
  if timeReserved (c.p 0 4) (c.p 8 4) (c.p 12 4) ∨ 1 < c.p 16 1 ∨ 1 < c.p 17 1 then s.replyErr c errArg
  else
    let reg (off : Nat) : Word := BitVec.ofNat 32 (c.p off 4)
    let s := (((s.writeTuCtrl (reg 0)).writeTuThresh (reg 4)).writeTbCfg .tbA (reg 8)).writeTbCfg .tbB (reg 12)
    let s := s.updBase .tbA fun b => { b with peerDelay := decide (c.p 16 1 = 1) }
    let s := s.updBase .tbB fun b => { b with peerDelay := decide (c.p 17 1 = 1) }
    s.replyOk c

/-- DT brought to its source: loaded the first time, and afterwards only moved forward (R29). Two points are the model's (DESIGN CHOICE, log 61): with
DT on the holdover model, which R29 does not name, DT is brought to that model and the event names source 2; and the first load may
lower DT, since R29 says that it loads where R28 and R34 say that DT never decreases. -/
def State.alignDt (s : State) : State :=
  let now := s.tu.sourceNow s.tu.source
  let ahead := fixDiff now s.tu.dt.toNat
  let loaded : State := State.ppsOutBack { s with tu := { s.tu with dt := BitVec.ofInt 96 now, aligned := true } }
  if !s.tu.aligned then loaded
  else if 0 < ahead then
    loaded.event 0x01 0x010E (patOf 32 (ahead / q32)) (patOf 32 (ahead / q32 / 2 ^ 32)) s.tu.source.toNat
  else s

/-- TIME_ALIGN carried out. -/
def State.timeAlign (c : SubEntry) (s : State) : State :=
  if s.sched.state ≠ .stopped then s.replyErr c errArg
  else if !s.tu.baseA.isLocked && !s.tu.baseB.isLocked then s.replyErr c errTime
  else s.alignDt.replyOk c

/-- A domain that the command forces is re-qualified (R39). -/
def State.forceRequalify (s : State) (b : Base) : State :=
  if s.tu.forces b ∧ (s.tu.base b).state = .suspect then (s.setBase b .acquiring).event 0x01 0x0103 (baseCode b) 1 0 else s

/-- TIME_SELECT carried out. -/
def State.timeSelect (c : SubEntry) (s : State) : State :=
  if 3 < c.p 0 1 then s.replyErr c errArg
  else
    let before := s.tu
    let s := { s with tu := { s.tu with selMode := BitVec.ofNat 2 (c.p 0 1) } }
    let s := (s.forceRequalify .tbA).forceRequalify .tbB
    ((s.forceNote before.selMode before).reselect).replyOk c

/-- What TIME_GET returns: DT, TB-A, TB-B and TB-L of one cycle, the holdover time, and DT less its source. -/
def State.timeSample (s : State) : List Byte :=
  let t := s.tu
  let held := if t.source = 2 then s.tblNs - t.hoSince else 0
  natLe 8 s.dtNs ++ natLe 8 (TimeFix.ns t.baseA.count) ++ natLe 8 (TimeFix.ns t.baseB.count) ++ natLe 8 s.tblNs
    ++ natLe 8 held ++ natLe 8 (patOf 64 (fixDiff t.dt.toNat (t.sourceNow t.source) / q32))

/-- TIME_GET carried out. -/
def State.timeGet (c : SubEntry) (s : State) : State := s.replyOut c s.timeSample 0 0 0 0

/-- The next programmed instant of a pin (R42, R46): a one-shot instant that has passed is due at once, and of a periodic pin's
instants the first that DT has not yet reached. -/
def firstInstant (mode start period now : Nat) : Option Nat :=
  let ahead := dtDiff start now
  if mode = 0 then none
  else if 0 < ahead then some (now + ahead.toNat)
  else if mode = 1 then some now
  else some (now + (period - (-ahead).toNat % period))

/-- A pin's mode, polarity, instant, period and width written; a pulse that has started keeps its width (R46, R47). -/
def State.setTrigger (s : State) (n : Fin 16) (mode : Nat) (polarity : Bool) (start period width : Nat) : State :=
  let now := s.dtNs
  let s := s.updTrig n fun t => { t with
    mode := BitVec.ofNat 2 mode, polarity := polarity, start := BitVec.ofNat 64 start, period := BitVec.ofNat 32 period
    width := BitVec.ofNat 32 width, nextAt := firstInstant mode start period now }
  let t := s.tu.trigs[n]
  s.setPin (.trigOut n) (if t.pulseEnd.isSome then t.activeLevel else t.idleLevel)

/-- TIME_TRIG_SET carried out. -/
def State.timeTrigSet (c : SubEntry) (s : State) : State :=
  if h : c.p 0 1 < 16 then
    let n : Fin 16 := ⟨c.p 0 1, h⟩
    if !s.sec.grants[s.partOf c].trigMask.getLsbD n.val then s.replyErr c errPartition
    else if s.tu.trigs[n].mode = 3 ∨ 2 < c.p 1 1 ∨ 1 < c.p 2 1 ∨ (c.p 1 1 = 2 ∧ c.p 12 4 < 1000) then s.replyErr c errArg
    else (s.setTrigger n (c.p 1 1) (decide (c.p 2 1 = 1)) (c.p 4 8) (c.p 12 4) (c.p 16 4)).replyOk c
  else s.replyErr c errArg

/-- TIME_SET_TOD carried out: it waits for the next qualified edge. -/
def State.timeSetTod (c : SubEntry) (s : State) : State :=
  match c.p 0 1 with
  | 0 => s.addJob c (.setTod .tbA (c.p 4 8))
  | 1 => s.addJob c (.setTod .tbB (c.p 4 8))
  | _ => s.replyErr c errArg

/-- TIME_CONFIG (R357). -/
def execTimeConfig (e : Entry) (s : State) : Host.Outcome State Fault Refusal := .next (s.serve 0x0401 e State.timeConfig)
/-- TIME_ALIGN (R29). -/
def execTimeAlign (e : Entry) (s : State) : Host.Outcome State Fault Refusal := .next (s.serve 0x0402 e State.timeAlign)
/-- TIME_SELECT (R33, R39). -/
def execTimeSelect (e : Entry) (s : State) : Host.Outcome State Fault Refusal := .next (s.serve 0x0403 e State.timeSelect)
/-- TIME_GET (R35). -/
def execTimeGet (e : Entry) (s : State) : Host.Outcome State Fault Refusal := .next (s.serve 0x0404 e State.timeGet)
/-- TIME_TRIG_SET (R46). -/
def execTimeTrigSet (e : Entry) (s : State) : Host.Outcome State Fault Refusal := .next (s.serve 0x0405 e State.timeTrigSet)
/-- TIME_SET_TOD (R50). -/
def execTimeSetTod (e : Entry) (s : State) : Host.Outcome State Fault Refusal := .next (s.serve 0x0406 e State.timeSetTod)

end Sys2Proof.Machine
end

