-- ==== Sys2Proof/Machine/Regs.lean ====
section
/-!
DEFINITION. Block registers as Rokan firmware and an unlocked debug port read and write them (R8, R14), by the register table
of each chapter: what a read returns, what it clears or latches, and what a write does. A register that no table lists reads
zero and ignores a write.
-/
namespace Sys2Proof.Machine

/-- A word from a number. -/
def wd (n : Nat) : Word := BitVec.ofNat 32 n
/-- Busy cycles in units of 1,024, which saturate (R195). -/
def busyUnits (cycles : Nat) : Word := countUp 0 (cycles / 1024)
/-- The low word of a 64-bit register. -/
def loWord (v : Dword) : Word := v.setWidth 32
/-- The high word of a 64-bit register. -/
def hiWord (v : Dword) : Word := (v >>> 32).setWidth 32
/-- A W1C bit after a write (R8). -/
def w1c (b : Bool) (v : Word) (i : Nat) : Bool := b && !v.getLsbD i
/-- The index of an offset in a row of `n` registers, `stride` bytes apart from `base`. -/
def rowIdx (n : Nat) [NeZero n] (base stride off : Nat) : Option (Fin n) :=
  if base ≤ off ∧ (off - base) % stride = 0 ∧ (off - base) / stride < n then some (Fin.ofNat n ((off - base) / stride)) else none
/-- A target's sequencer runs an operation: the `BUSY` bit of its block. -/
def State.busy (s : State) (t : Target) : Bool := !(s.seq t).running.isEmpty

/-! ## Span controller (R82) -/

/-- Wait grains of the targets with code `t` in the current span (R71). -/
def State.waitGrains (s : State) (t : Nat) : Nat :=
  (allTargets.filter fun x => decide (x.code = t)).foldl (fun n x =>
    let held := match s.nextOp x with
      | some o => if s.sectionOpen && !(s.seq x).halted then s.dtNs - s.holdFrom x o.op else 0
      | none => 0
    n + ((s.seq x).waitNs + held) / 1000) 0

/-- A span controller register as it reads. -/
def State.scReg (s : State) (off : Nat) : Word :=
  let x := s.sched
  match off with
  | 0x000 => wd (x.spanGrains.toNat * 65536 + b2n x.overrunIrqEn)
  | 0x004 => wd (x.statusW1c.toNat * 16 + x.state.code)
  | 0x008 => loWord x.spanCount
  | 0x00C => x.spanCountHi
  | 0x010 => loWord x.spanStart
  | 0x014 => hiWord x.spanStart
  | 0x018 => wd (if s.inSpan then s.grain else 0)
  | 0x040 => wd x.fence.toNat
  | 0x044 => x.overrunCount
  | 0x048 => x.abandonCount
  | 0x04C => x.skipCount
  | _ =>
    match rowIdx 4 0x020 4 off, rowIdx 4 0x030 4 off, rowIdx 27 0x100 4 off, rowIdx 27 0x180 4 off with
    | some p, _, _, _ => wd (s.runningByte p)
    | _, some p, _, _ => wd x.select[p].toNat
    | _, _, some t, _ => wd (s.waitGrains t.val)
    | _, _, _, some t => x.waitTotal[t]
    | _, _, _, _ => 0

/-- What a read of a span controller register clears or latches. -/
def State.scTouch (s : State) (off : Nat) : State :=
  let x := s.sched
  match off with
  | 0x008 => { s with sched := { x with spanCountHi := hiWord x.spanCount } }
  | 0x044 => { s with sched := { x with overrunCount := 0 } }
  | 0x048 => { s with sched := { x with abandonCount := 0 } }
  | 0x04C => { s with sched := { x with skipCount := 0 } }
  | _ =>
    match rowIdx 27 0x180 4 off with
    | some t => { s with sched := { x with waitTotal := x.waitTotal.set t 0 } }
    | none => s

/-- `SC_CTRL` written: the length in `STOPPED` alone, then `START` and `STOP_REQ`. -/
def State.writeScCtrl (s : State) (v : Word) : State :=
  let stopped : Bool := decide (s.sched.state = .stopped)
  let s : State := { s with sched := { s.sched with
    overrunIrqEn := v.getLsbD 0, spanGrains := if stopped then (v >>> 16).setWidth 16 else s.sched.spanGrains } }
  let s : State :=
    if v.getLsbD 1 && stopped then s.schedBegin s.sched.spanGrains.toNat (fun p => (s.sched.family[p]).getD 0) else s
  if v.getLsbD 2 && decide (s.sched.state ≠ .stopped) then s.beginStop else s

/-- A span controller register written. -/
def State.scWrite (s : State) (off : Nat) (v : Word) : State :=
  let x := s.sched
  match off with
  | 0x000 => s.writeScCtrl v
  | 0x004 => { s with sched := { x with
      statusW1c := x.statusW1c &&& ~~~ ((v >>> 4).setWidth 4), overrunIrq := x.overrunIrq && !v.getLsbD 4 } }
  | 0x040 => { s with sched := { x with fence := v.setWidth 8 } }
  | _ =>
    match rowIdx 4 0x030 4 off with
    | some p => { s with sched := { x with select := x.select.set p (v.setWidth 8 &&& 0xBF) } }
    | none => s

/-! ## Time unit (R51) -/

/-- `TB_x_CFG`. -/
def BaseClock.cfgReg (b : BaseClock) : Word :=
  wd (b.domain.toNat * 16777216 + b2n b.srcPps * 8388608 + b.kp.toNat * 256 + b.ki.toNat)

/-- `TU_CTRL`. -/
def TimeUnit.ctrlReg (t : TimeUnit) : Word :=
  let on (b : BaseClock) : Nat := b2n (decide (b.state ≠ .disabled))
  wd (t.slewPpm.toNat * 65536 + b2n t.requireLock * 2048 + b2n t.revert * 1024 + t.selMode.toNat * 256 + t.ppsOutSrc.toNat * 64
    + b2n t.ppsOutEn * 32 + b2n t.ppsInHoldover * 16 + on t.baseB * 2 + on t.baseA)

/-- `TU_STATUS`. -/
def TimeUnit.statusReg (t : TimeUnit) : Word :=
  wd (t.baseA.state.code * 1048576 + t.baseB.state.code * 65536 + t.source.toNat * 16384 + b2n t.slewing * 8192
    + b2n t.dtFar * 4096 + b2n t.aligned * 2048 + b2n t.ppsValid * 1024)

/-- The registers of a trigger, in order. -/
def Trig.reg (t : Trig) (k : Nat) : Word :=
  match k with
  | 0 => wd (b2n t.merged * 32 + b2n t.polarity * 16 + t.mode.toNat * 4)
  | 1 => loWord t.start
  | 2 => hiWord t.start
  | 3 => t.period
  | 4 => t.width
  | _ => 0

/-- A counter of 64 bits in ns, from its value with a fraction. -/
def nsWord (t : TimeFix) : Dword := BitVec.ofNat 64 (TimeFix.ns t)

/-- A time unit register as it reads. -/
def State.tuReg (s : State) (off : Nat) : Word :=
  let t := s.tu
  match off with
  | 0x000 => t.ctrlReg
  | 0x004 => t.statusReg
  | 0x008 => wd (t.asymNs.toNat * 65536 + t.lockNs.toNat * 256 + t.timeout.toNat)
  | 0x010 => t.baseA.cfgReg
  | 0x014 => t.baseB.cfgReg
  | 0x020 => loWord (nsWord t.dt)
  | 0x024 => t.hiLatch[0]
  | 0x028 => loWord (nsWord t.baseA.count)
  | 0x02C => t.hiLatch[1]
  | 0x030 => loWord (nsWord t.baseB.count)
  | 0x034 => t.hiLatch[2]
  | 0x038 => loWord (nsWord t.tbl)
  | 0x03C => t.hiLatch[3]
  | 0x04C => t.baseA.rate
  | 0x05C => t.baseB.rate
  | 0x080 => t.hoRate
  | 0x084 => t.hoResid
  | 0x090 => loWord t.ppsCapt
  | 0x094 => hiWord t.ppsCapt
  | _ => if h : 0x100 ≤ off ∧ off < 0x300 ∧ off % 4 = 0 then (t.trigs[(off - 0x100) / 0x20]'(by omega)).reg (off % 0x20 / 4) else 0

/-- What a read of a time unit register latches. -/
def State.tuTouch (s : State) (off : Nat) : State :=
  let t := s.tu
  let latch (i : Fin 4) (v : Dword) : State := { s with tu := { t with hiLatch := t.hiLatch.set i (hiWord v) } }
  match off with
  | 0x020 => latch 0 (nsWord t.dt)
  | 0x028 => latch 1 (nsWord t.baseA.count)
  | 0x030 => latch 2 (nsWord t.baseB.count)
  | 0x038 => latch 3 (nsWord t.tbl)
  | _ => s

/-- `TRIG_CFGn` written: `MODE` 3 is the span controller's to set, so no write sets or ends it; a new mode takes the
instant from `TRIG_STARTn`. -/
def State.writeTrigCfg (s : State) (n : Fin 16) (v : Word) : State :=
  let t := s.tu.trigs[n]
  let m : BitVec 2 := (v >>> 2).setWidth 2
  let mode := if m = 3 ∨ t.mode = 3 then t.mode else m
  let s := s.updTrig n fun t => { t with merged := w1c t.merged v 5 }
  let s' := s.setTrigger n mode.toNat (v.getLsbD 4) t.start.toNat t.period.toNat t.width.toNat
  if mode = t.mode then s'.updTrig n fun x => { x with nextAt := t.nextAt } else s'

/-- A trigger's register written: the high word of the start takes the instant. `TRIG_PERIODn` keeps a value below 1,000 ns as written,
and the pin pulses with it: R46 gives the range, and no rule says what a register write outside it does (DESIGN CHOICE, log 61). -/
def State.writeTrig (s : State) (n : Fin 16) (k : Nat) (v : Word) : State :=
  match k with
  | 0 => s.writeTrigCfg n v
  | 1 => s.updTrig n fun t => { t with start := hiWord t.start ++ v }
  | 2 =>
    let s := s.updTrig n fun t => { t with start := v ++ loWord t.start }
    let t := s.tu.trigs[n]
    if t.mode = 1 ∨ t.mode = 2 then
      s.updTrig n fun x => { x with nextAt := firstInstant t.mode.toNat t.start.toNat t.period.toNat s.dtNs }
    else s
  | 3 => s.updTrig n fun t => { t with period := v }
  | 4 => s.updTrig n fun t => { t with width := v }
  | _ => s

/-- A time unit register written. -/
def State.tuWrite (s : State) (off : Nat) (v : Word) : State :=
  match off with
  | 0x000 => s.writeTuCtrl v
  | 0x008 => s.writeTuThresh v
  | 0x010 => s.writeTbCfg .tbA v
  | 0x014 => s.writeTbCfg .tbB v
  | 0x040 => s.updBase .tbA fun c => { c with offsetLo := v }
  | 0x044 => if s.timeStopped then s else s.offsetHi .tbA v
  | 0x048 => s.updBase .tbA fun c => { c with pdelay := v }
  | 0x050 => s.updBase .tbB fun c => { c with offsetLo := v }
  | 0x054 => if s.timeStopped then s else s.offsetHi .tbB v
  | 0x058 => s.updBase .tbB fun c => { c with pdelay := v }
  | _ =>
    if h : 0x100 ≤ off ∧ off < 0x300 ∧ off % 4 = 0 then s.writeTrig ⟨(off - 0x100) / 0x20, by omega⟩ (off % 0x20 / 4) v else s

/-! ## Stream manager and buffer pool (R107) -/

/-- `SM_CREDITS_c`. -/
def Channel.creditsReg (c : Channel) : Word :=
  let n (st : SlotState) : Nat := (c.slots.filter fun u => decide (u.state = st)).length
  wd (b2n (decide (0 < n .opened)) * 16777216 + n .held * 65536 + n .ready * 256 + n .free)

/-- A stream manager register as it reads. -/
def State.smReg (s : State) (off : Nat) : Word :=
  let m := s.sm
  match off with
  | 0x000 => wd (b2n m.ethFwEn * 2 + b2n m.dropEvtEn)
  | 0x004 => wd m.status.toNat
  | 0x010 => m.commitPending
  | 0x014 => wd ((List.finRange 32).foldl (fun a c => a + b2n m.chans[c].runs * 2 ^ c.val) 0)
  | _ =>
    match rowIdx 5 0x200 4 off, rowIdx 32 0x400 0x10 off, rowIdx 32 0x404 0x10 off with
    | some i, _, _ => m.ethCounts[i]
    | _, some c, _ => m.chans[c].creditsReg
    | _, _, some c => m.chans[c].drops
    | _, _, _ => 0

/-- What a read of a stream manager register clears. -/
def State.smTouch (s : State) (off : Nat) : State :=
  match rowIdx 5 0x200 4 off, rowIdx 32 0x404 0x10 off with
  | some i, _ => { s with sm := { s.sm with ethCounts := s.sm.ethCounts.set i 0 } }
  | _, some c => s.updChan c fun x => { x with drops := 0 }
  | _, _ => s

/-- A stream manager register written. -/
def State.smWrite (s : State) (off : Nat) (v : Word) : State :=
  match off with
  | 0x000 => { s with sm := { s.sm with ethFwEn := v.getLsbD 1, dropEvtEn := v.getLsbD 0 } }
  | 0x004 => { s with sm := { s.sm with status := s.sm.status &&& ~~~ (v.setWidth 5) } }
  | _ => s

/-- `FLAG_STATE`: sixteen flags a word, two bits each. -/
def State.flagReg (s : State) (off : Nat) : Word :=
  if off < 0x400 ∧ off % 4 = 0 then
    wd ((List.range 16).foldl (fun (a k : Nat) =>
      let v := match s.flag (4 * off + k) with
        | none => 0
        | some .set => 1
        | some (.void _) => 2
      a + v * 4 ^ k) 0)
  else 0

/-! ## Inertial front end (R128) -/

/-- An input is settling or held. -/
def State.inputSettling (s : State) (n : Fin 4) : Bool :=
  let x := s.ife.inputs[n]
  x.runs && (match x.binding with
    | some b => !b.direct
    | none => false) && (!x.settled || s.ife.held)

/-- `IN_CFGn`. -/
def IfeInput.cfgReg (x : IfeInput) : Word :=
  match x.binding with
  | some b => wd (512 + b2n b.direct * 256 + b.channel.val)
  | none => 0

/-- A front-end register as it reads. -/
def State.ifeReg (s : State) (off : Nat) : Word :=
  let x := s.ife
  match off with
  | 0x000 => wd (b2n x.syncIgnore * 2)
  | 0x004 =>
    let mask (f : Fin 4 → Bool) : Nat := (List.finRange 4).foldl (fun a n => a + b2n (f n) * 2 ^ n.val) 0
    wd (mask s.inputSettling * 256 + mask (fun n => x.inputs[n].runs) * 16 + b2n s.pins.syncIn * 8 + b2n x.stuck * 4
      + b2n x.stuckSeen * 2 + b2n x.gap)
  | 0x008 => loWord x.syncDt
  | 0x00C => x.syncDtHi
  | _ =>
    if h : 0x010 ≤ off ∧ off < 0x090 ∧ off % 4 = 0 then
      let n : Fin 4 := ⟨(off - 0x010) / 0x20, by omega⟩
      let k := (off - 0x010) % 0x20 / 4
      if k = 0 then x.inputs[n].cfgReg else if h' : k - 1 < 5 then x.inputs[n].counts[k - 1] else 0
    else if h : 0x100 ≤ off ∧ off < 0x180 ∧ off % 4 = 0 then
      let e := x.encs[(off - 0x100) / 0x10]'(by omega)
      match off % 0x10 with
      | 0 => e.pos
      | 4 => wd (e.status.toNat * 4 + b2n e.spanInvalid * 2 + b2n e.runs)
      | 8 => e.overspeed
      | _ => 0
    else 0

/-- What a read of a front-end register clears or latches. -/
def State.ifeTouch (s : State) (off : Nat) : State :=
  if off = 0x008 then { s with ife := { s.ife with syncDtHi := hiWord s.ife.syncDt } }
  else if h : 0x014 ≤ off ∧ off < 0x090 ∧ off % 4 = 0 then
    let k := (off - 0x010) % 0x20 / 4
    if h' : 1 ≤ k ∧ k ≤ 5 then
      s.updInput ⟨(off - 0x010) / 0x20, by omega⟩ fun x => { x with counts := x.counts.set (k - 1) 0 }
    else s
  else match rowIdx 8 0x108 0x10 off with
    | some e => s.updEnc e fun x => { x with overspeed := 0 }
    | none => s

/-- A front-end register written. -/
def State.ifeWrite (s : State) (off : Nat) (v : Word) : State :=
  match off with
  | 0x000 =>
    let s := if v.getLsbD 1 = s.ife.syncIgnore then s else s.syncMode (v.getLsbD 1)
    if v.getLsbD 2 then { s with ife := { s.ife with swSync := true } } else s
  | 0x004 => { s with ife := { s.ife with stuckSeen := w1c s.ife.stuckSeen v 1, gap := w1c s.ife.gap v 0 } }
  | _ =>
    match rowIdx 8 0x104 0x10 off with
    | some e => s.updEnc e fun x => { x with status := x.status &&& ~~~ ((v >>> 2).setWidth 3) }
    | none => s

/-! ## Vision engines (R156) -/

/-- The target of a vision engine. -/
def visTarget (i : Fin 4) : Target :=
  match i with
  | 0 => .pw
  | 1 => .fe
  | 2 => .trk
  | 3 => .fth

/-- A vision engine's register as it reads; `FE_SPAN_FEATURES` alone of the engines' own is not a counter that clears. -/
def State.visReg (s : State) (i : Fin 4) (off : Nat) : Word :=
  let x := s.vis[i]
  match off with
  | 0x000 => wd (b2n x.evtEn)
  | 0x004 => wd (b2n x.limit * 4 + b2n x.flagged * 2 + b2n (s.busy (visTarget i)))
  | 0x008 => x.ops
  | 0x00C => x.skips
  | 0x010 => busyUnits x.busyCycles
  | _ =>
    if i = 1 ∧ off = 0x028 then wd x.spanFeatures
    else match rowIdx 8 0x020 4 off with
      | some k => x.own[k]
      | none => 0

/-- What a read of a vision engine's register clears. -/
def State.visTouch (s : State) (i : Fin 4) (off : Nat) : State :=
  match off with
  | 0x008 => s.updVis i fun x => { x with ops := 0 }
  | 0x00C => s.updVis i fun x => { x with skips := 0 }
  | 0x010 => s.updVis i fun x => { x with busyCycles := x.busyCycles % 1024 }
  | _ =>
    match rowIdx 8 0x020 4 off with
    | some k => s.updVis i fun x => { x with own := x.own.set k 0 }
    | none => s

/-- A vision engine's register written. -/
def State.visWrite (s : State) (i : Fin 4) (off : Nat) (v : Word) : State :=
  match off with
  | 0x000 => s.updVis i fun x => { x with evtEn := v.getLsbD 0 }
  | 0x004 => s.updVis i fun x => { x with limit := w1c x.limit v 2, flagged := w1c x.flagged v 1 }
  | _ => s

/-! ## Cores (R180) -/

/-- A core's unit runs an operation. -/
def State.unitBusy (s : State) (c : Fin 8) (u : OpUnit) : Bool := (s.seq (.core c)).running.any fun r => decide (r.unit = u)

/-- A core's register as it reads. -/
def State.coreReg (s : State) (c : Fin 8) (off : Nat) : Word :=
  let x := s.cores[c]
  match off with
  | 0x000 => wd x.ctrl.toNat
  | 0x004 => wd (b2n (s.sched.fenceLive.getLsbD c.val) * 64 + b2n x.sat * 32 + b2n x.mismatch * 16
      + b2n (s.seq (.core c)).halted * 8 + b2n (s.unitBusy c .dma) * 4 + b2n (s.unitBusy c .vector) * 2 + b2n (s.unitBusy c .main))
  | 0x008 => x.ops
  | 0x00C => busyUnits x.busyCycles
  | 0x010 => x.mismatches
  | 0x014 => x.retries
  | 0x018 => wd x.slackLeft
  | 0x01C => x.satCount
  | 0x020 => x.domainCount
  | 0x024 => x.lastMismatch
  | _ => 0

/-- What a read of a core's register clears. -/
def State.coreTouch (s : State) (c : Fin 8) (off : Nat) : State :=
  match off with
  | 0x008 => s.updCore c fun x => { x with ops := 0 }
  | 0x00C => s.updCore c fun x => { x with busyCycles := x.busyCycles % 1024 }
  | 0x010 => s.updCore c fun x => { x with mismatches := 0 }
  | 0x014 => s.updCore c fun x => { x with retries := 0 }
  | 0x01C => s.updCore c fun x => { x with satCount := 0 }
  | 0x020 => s.updCore c fun x => { x with domainCount := 0 }
  | _ => s

/-- A core's register written. -/
def State.coreWrite (s : State) (c : Fin 8) (off : Nat) (v : Word) : State :=
  match off with
  | 0x000 => s.updCore c fun x => { x with ctrl := v.setWidth 3 }
  | 0x004 => s.updCore c fun x => { x with sat := w1c x.sat v 5, mismatch := w1c x.mismatch v 4 }
  | _ => s

/-! ## Field engine (R223) -/

/-- A field engine register as it reads. -/
def State.fldReg (s : State) (off : Nat) : Word :=
  let x := s.fld
  match off with
  | 0x000 => wd (b2n x.evtEn)
  | 0x004 =>
    let filling := (List.finRange 4).foldl (fun a k => a + b2n x.slots[k].filling * 2 ^ k.val) 0
    wd (filling * 256 + x.batches.length * 16 + b2n x.commitPending * 8 + b2n x.mismatch * 4 + b2n x.limit * 2 + b2n (s.busy .fld))
  | 0x008 => x.trainRays
  | 0x00C => x.trainLive
  | 0x02C => wd x.backlog
  | 0x030 => wd x.absentKeys.length
  | _ =>
    match rowIdx 7 0x010 4 off, rowIdx 128 0x100 4 off with
    | some k, _ => x.counts[k]
    | _, some k => if k.val % 2 = 0 then wd (x.absentKeys.getD (k.val / 2) 0) else wd (x.absentKeys.getD (k.val / 2) 0 / 2 ^ 32)
    | _, _ => 0

/-- What a read of a field engine register clears. -/
def State.fldTouch (s : State) (off : Nat) : State :=
  match rowIdx 7 0x010 4 off with
  | some k => { s with fld := { s.fld with counts := s.fld.counts.set k 0 } }
  | none => s

/-- A field engine register written. -/
def State.fldWrite (s : State) (off : Nat) (v : Word) : State :=
  match off with
  | 0x000 =>
    let s : State := { s with fld := { s.fld with evtEn := v.getLsbD 0 } }
    let s := if v.getLsbD 1 then s.dirCommit else s
    if v.getLsbD 2 then s.absentClear else s
  | 0x004 => { s with fld := { s.fld with mismatch := w1c s.fld.mismatch v 2, limit := w1c s.fld.limit v 1 } }
  | 0x008 => { s with fld := { s.fld with trainRays := v } }
  | _ => s

/-! ## Fusion engine (R253) -/

/-- `PERMIT_STATUS`. -/
def State.permitReg (s : State) : Word :=
  wd (s.fus.lastCause.toNat * 256 + b2n s.fus.fell * 32 + b2n s.pins.motionPermit * 16 + b2n (!s.dev.fatal && !s.dev.inReset) * 8
    + b2n (s.fus.initialised && s.covWithin 10) * 4 + b2n s.permitPose * 2 + b2n s.permitService)

/-- A fusion engine register as it reads. -/
def State.fusReg (s : State) (off : Nat) : Word :=
  let x := s.fus
  match off with
  | 0x000 => wd (b2n x.evtEn)
  | 0x004 => wd (b2n x.mismatch * 128 + b2n x.trackFull * 64 + b2n (x.quar.any fun q => decide (q ≠ 0)) * 32
      + b2n x.contradiction * 16 + b2n x.lateDropped * 8 + b2n x.initialised * 4 + b2n (x.binds.any fun b => decide (s.grain ≤ b.endGrain)) * 2 + b2n (s.busy .fus))
  | 0x008 => s.permitReg
  | 0x038 => wd x.late.length
  | _ =>
    match rowIdx 4 0x010 4 off, rowIdx 6 0x020 4 off, rowIdx 8 0x040 4 off with
    | some q, _, _ => wd x.quar[q].toNat
    | _, some k, _ => x.counts[k]
    | _, _, some c => x.lateDrops[c]
    | _, _, _ => 0

/-- What a read of a fusion engine register clears. -/
def State.fusTouch (s : State) (off : Nat) : State :=
  match rowIdx 6 0x020 4 off, rowIdx 8 0x040 4 off with
  | some k, _ => { s with fus := { s.fus with counts := s.fus.counts.set k 0 } }
  | _, some c => { s with fus := { s.fus with lateDrops := s.fus.lateDrops.set c 0 } }
  | _, _ => s

/-- A fusion engine register written. -/
def State.fusWrite (s : State) (off : Nat) (v : Word) : State :=
  match off with
  | 0x000 => { s with fus := { s.fus with evtEn := v.getLsbD 0 } }
  | 0x004 => { s with fus := { s.fus with
      mismatch := w1c s.fus.mismatch v 7, trackFull := w1c s.fus.trackFull v 6
      contradiction := w1c s.fus.contradiction v 4, lateDropped := w1c s.fus.lateDropped v 3 } }
  | 0x008 => { s with fus := { s.fus with fell := w1c s.fus.fell v 5 } }
  | _ => s

/-! ## Solver engine (R272) -/

/-- A solver engine register as it reads. -/
def State.slvReg (s : State) (off : Nat) : Word :=
  let x := s.slv
  match off with
  | 0x000 => wd (b2n x.queueEn * 2 + b2n x.evtEn)
  | 0x004 => wd (b2n x.miss * 16 + b2n x.mismatch * 8 + b2n (x.graph.isSome && s.slvService.isNone) * 4 + b2n x.graph.isSome * 2
      + b2n (s.busy .slv))
  | 0x008 => loWord x.queue
  | 0x00C => hiWord x.queue
  | _ =>
    match rowIdx 7 0x010 4 off with
    | some k => x.counts[k]
    | none => 0

/-- What a read of a solver engine register clears. -/
def State.slvTouch (s : State) (off : Nat) : State :=
  match rowIdx 7 0x010 4 off with
  | some k => { s with slv := { s.slv with counts := s.slv.counts.set k 0 } }
  | none => s

/-- A solver engine register written: the window that is open serves what is now queued (R268). -/
def State.slvWrite (s : State) (off : Nat) (v : Word) : State :=
  match off with
  | 0x000 => State.slvServe 3 { s with slv := { s.slv with queueEn := v.getLsbD 1, evtEn := v.getLsbD 0 } }
  | 0x004 => { s with slv := { s.slv with miss := w1c s.slv.miss v 4, mismatch := w1c s.slv.mismatch v 3 } }
  | 0x008 => State.slvServe 3 { s with slv := { s.slv with queue := hiWord s.slv.queue ++ (v &&& 0xFFFFFFC1) } }
  | 0x00C => State.slvServe 3 { s with slv := { s.slv with queue := (v &&& 0xFF) ++ loWord s.slv.queue } }
  | _ => s

/-! ## Place search engine (R298) -/

/-- The epoch of an index context, and the oldest epoch of a query that runs on it. -/
def State.psEpoch (s : State) (i : Fin 16) (oldest : Bool) : Dword :=
  match s.ps.indexes[i] with
  | some ix => BitVec.ofNat 64 (if oldest then s.oldestEpoch ix.handle else ix.epoch)
  | none => 0

/-- Queries suspended between windows. -/
def State.psSuspended (s : State) : Nat :=
  if s.psService.isSome then 0 else (s.ps.queries.filter fun q => q.taken.isSome).length

/-- A place search engine register as it reads. -/
def State.psReg (s : State) (off : Nat) : Word :=
  let x := s.ps
  match off with
  | 0x000 => wd (b2n x.queueEn * 2 + b2n x.evtEn)
  | 0x004 =>
    let ixs := x.indexes.toList.filterMap id
    let inserts := s.insertTurn && s.insertFits && ixs.any fun ix => !ix.queue.isEmpty && !ix.poisoned && !s.partPaused ix.part
    let work := s.psWindow && ((x.queries.any fun q => q.taken.isSome) || inserts)
    let filing := (s.seq .ps).running.any fun r => decide (r.op.opcode = 0x11)
    wd (b2n x.poisoned * 16 + b2n x.mismatch * 8 + b2n (ixs.any fun ix => ix.spillOut.isSome && !ix.written) * 4
      + b2n s.psService.isSome * 2 + b2n (work || filing))
  | 0x030 => wd s.psSuspended
  | _ =>
    match rowIdx 8 0x010 4 off with
    | some k => x.counts[k]
    | none =>
      if h : 0x100 ≤ off ∧ off < 0x200 ∧ off % 4 = 0 then
        let i : Fin 16 := ⟨(off - 0x100) / 0x10, by omega⟩
        match off % 0x10 with
        | 0 => loWord (s.psEpoch i false)
        | 4 => x.hiLatch[i.val]
        | 8 => loWord (s.psEpoch i true)
        | _ => hiWord (s.psEpoch i true)
      else 0

/-- What a read of a place search engine register clears or latches. -/
def State.psTouch (s : State) (off : Nat) : State :=
  match rowIdx 8 0x010 4 off, rowIdx 16 0x100 0x10 off with
  | some k, _ => { s with ps := { s.ps with counts := s.ps.counts.set k 0 } }
  | _, some i => { s with ps := { s.ps with hiLatch := s.ps.hiLatch.set i (hiWord (s.psEpoch i false)) } }
  | _, _ => s

/-- A place search engine register written: an open window takes what is queued (R293). -/
def State.psWrite (s : State) (off : Nat) (v : Word) : State :=
  match off with
  | 0x000 => State.takeBatch { s with ps := { s.ps with queueEn := v.getLsbD 1, evtEn := v.getLsbD 0 } }
  | 0x004 => { s with ps := { s.ps with poisoned := w1c s.ps.poisoned v 4, mismatch := w1c s.ps.mismatch v 3 } }
  | _ => s

/-! ## DRAM controllers, mover and flash controller (R323) -/

/-- A DRAM controller register as it reads. Whether the block moves data at that instant is a free value (log 7). -/
def State.dcReg (s : State) (off : Nat) : Word :=
  let x := s.mt
  match off with
  | 0x000 => wd (b2n x.evtDram)
  | 0x004 => wd (b2n x.dramLow * 4 + b2n x.dramUe * 2 + (if s.dev.inReset then 0 else Config.freeNat s.free % 2))
  | 0x008 => x.ceCount
  | 0x00C => x.ueCount
  | 0x010 => wd x.scrubLine
  | 0x014 => wd x.remap.length
  | _ => 0

/-- What a read of a DRAM controller register clears. -/
def State.dcTouch (s : State) (off : Nat) : State :=
  match off with
  | 0x004 => { s with free := s.free + 1 }
  | 0x008 => { s with mt := { s.mt with ceCount := 0 } }
  | 0x00C => { s with mt := { s.mt with ueCount := 0 } }
  | _ => s

/-- A DRAM controller register written. -/
def State.dcWrite (s : State) (off : Nat) (v : Word) : State :=
  match off with
  | 0x000 => { s with mt := { s.mt with evtDram := v.getLsbD 0 } }
  | 0x004 => { s with mt := { s.mt with dramLow := w1c s.mt.dramLow v 2, dramUe := w1c s.mt.dramUe v 1 } }
  | _ => s

/-- The open window serves a request: of a class of its mask, up to `END_GRAIN` (R309). -/
def State.mvServes (s : State) (r : MoverReq) : Bool :=
  s.mt.window.any fun w => w.classMask.testBit r.cls.val && decide (s.grain ≤ w.endGrain)

/-- A mover register as it reads. -/
def State.mvReg (s : State) (off : Nat) : Word :=
  let x := s.mt
  match off with
  | 0x000 => wd (b2n x.evtMover)
  | 0x004 => wd (b2n x.moverLow * 4 + b2n x.moverUe * 2 + b2n (x.queue.any s.mvServes))
  | 0x008 => x.mvBytes
  | _ =>
    match rowIdx 5 0x010 4 off with
    | some k => wd (x.queue.filter fun r => decide (r.cls = k)).length
    | none => 0

/-- What a read of a mover register clears. -/
def State.mvTouch (s : State) (off : Nat) : State :=
  if off = 0x008 then { s with mt := { s.mt with mvBytes := 0 } } else s

/-- A mover register written. -/
def State.mvWrite (s : State) (off : Nat) (v : Word) : State :=
  match off with
  | 0x000 => { s with mt := { s.mt with evtMover := v.getLsbD 0 } }
  | 0x004 => { s with mt := { s.mt with moverLow := w1c s.mt.moverLow v 2, moverUe := w1c s.mt.moverUe v 1 } }
  | _ => s

/-- A flash controller register as it reads. -/
def State.fcReg (s : State) (off : Nat) : Word :=
  let x := s.mt
  match off with
  | 0x000 => wd (x.bgShare.toNat * 2 + b2n x.evtFlash)
  | 0x004 => wd (b2n (s.sec.keys.any fun k => k.old.isSome) * 8 + b2n x.flashLow * 4 + b2n x.flashUe * 2
      + b2n (!x.groups.isEmpty || x.queue.any fun r => s.mvServes r && decide (0 < r.fetch)))
  | 0x008 => x.fcUncorrectable
  | 0x00C => x.fcRetries
  | 0x010 => wd x.freeBlocks
  | 0x014 => x.rekeyRate
  | _ =>
    match rowIdx 5 0x020 4 off with
    | some n => wd (s.oldPages n)
    | none => 0

/-- What a read of a flash controller register clears. -/
def State.fcTouch (s : State) (off : Nat) : State :=
  match off with
  | 0x008 => { s with mt := { s.mt with fcUncorrectable := 0 } }
  | 0x00C => { s with mt := { s.mt with fcRetries := 0 } }
  | _ => s

/-- A flash controller register written: a share or a rate out of range leaves its field. -/
def State.fcWrite (s : State) (off : Nat) (v : Word) : State :=
  match off with
  | 0x000 =>
    let share : BitVec 7 := (v >>> 1).setWidth 7
    { s with mt := { s.mt with
      evtFlash := v.getLsbD 0, bgShare := if within share.toNat 5 75 then share else s.mt.bgShare } }
  | 0x004 => { s with mt := { s.mt with flashLow := w1c s.mt.flashLow v 2, flashUe := w1c s.mt.flashUe v 1 } }
  | 0x014 => { s with mt := { s.mt with rekeyRate := if within v.toNat 1 400 then v else s.mt.rekeyRate } }
  | _ => s

/-! ## Power manager (R394) -/

/-- `PM_CORE_OPn`. -/
def State.coreOpReg (s : State) (c : Fin 8) : Word :=
  wd (s.pm.causes c * 256 + b2n (s.clockStopped c) * 128 + s.pm.cores[c].op.toNat)

/-- A power manager register as it reads. -/
def State.pmReg (s : State) (off : Nat) : Word :=
  let x := s.pm
  match off with
  | 0x000 => wd (b2n x.trimEn * 2 + b2n x.evtEn)
  | 0x004 => wd (b2n x.unattainable * 32 + b2n x.monAlarm * 16 + b2n x.thermtrip * 8 + b2n s.limitActive * 4
      + b2n (x.cores.any fun c => decide (c.thermal ≠ 0)) * 2 + b2n x.capMet)
  | 0x008 => x.capMw
  | 0x00C => x.powerMw
  | 0x010 => wd x.ceiling.toNat
  | 0x014 => wd x.rungReq.toNat
  | 0x018 => x.thermCfg
  | 0x01C => x.limitCfg
  | 0x0C0 => x.monCount
  | 0x0C4 => x.opHours
  | 0x0C8 => wd x.vrailMv.toNat
  | _ =>
    match rowIdx 8 0x020 4 off, rowIdx 24 0x040 4 off, rowIdx 8 0x0A0 4 off with
    | some c, _, _ => s.coreOpReg c
    | _, some n, _ => wd x.temps[n].toNat
    | _, _, some k => wd x.margins[k]
    | _, _, _ => 0

/-- What a read of a power manager register clears. -/
def State.pmTouch (s : State) (off : Nat) : State :=
  if off = 0x0C0 then { s with pm := { s.pm with monCount := 0 } } else s

/-- A power manager register written: a cap out of range leaves the field, clocks fall at once to a lower clamp, and a ceiling comes into
force at the boundary (R375, R376). -/
def State.pmWrite (s : State) (off : Nat) (v : Word) : State :=
  match off with
  | 0x000 => { s with pm := { s.pm with trimEn := v.getLsbD 1, evtEn := v.getLsbD 0 } }
  | 0x004 => { s with pm := { s.pm with unattainable := w1c s.pm.unattainable v 5, monAlarm := w1c s.pm.monAlarm v 4 } }
  | 0x008 => { s with pm := { s.pm with capMw := if within v.toNat 1000 35000 then v else s.pm.capMw } }
  | 0x010 => { s with pm := { s.pm with ceiling := v.setWidth 3 } }
  | 0x018 => State.clampClocks { s with pm := { s.pm with thermCfg := v &&& 0x00FFFF07 } }
  | 0x01C => State.clampClocks { s with pm := { s.pm with limitCfg := v &&& 0x000000F7 } }
  | _ => s

/-! ## Event recorder (R430) -/

/-- A recorder register as it reads. -/
def State.recReg (s : State) (off : Nat) : Word :=
  let x := s.evr
  match off with
  | 0x000 => wd (b2n x.archived * 8 + b2n x.lostBit * 4 + b2n x.frozen * 2 + b2n s.dev.fatal)
  | 0x004 => x.head
  | 0x008 => x.lost
  | 0x00C => x.frozenDrops
  | 0x010 => x.sramCe
  | 0x014 => x.sramUe
  | 0x018 => x.linkReplay
  | 0x01C => x.fatalCause
  | _ => 0

/-- What a read of a recorder register clears. -/
def State.recTouch (s : State) (off : Nat) : State :=
  match off with
  | 0x008 => { s with evr := { s.evr with lost := 0 } }
  | 0x00C => { s with evr := { s.evr with frozenDrops := 0 } }
  | 0x010 => { s with evr := { s.evr with sramCe := 0 } }
  | 0x014 => { s with evr := { s.evr with sramUe := 0 } }
  | 0x018 => { s with evr := { s.evr with linkReplay := 0 } }
  | _ => s

/-- A recorder register written: the last word of a window stages its entry. -/
def State.recWrite (s : State) (off : Nat) (v : Word) : State :=
  if off = 0x000 then { s with evr := { s.evr with archived := v.getLsbD 3, lostBit := w1c s.evr.lostBit v 2 } }
  else match rowIdx 8 0x100 4 off, rowIdx 8 0x120 4 off with
    | some k, _ => s.writeWindow 0 k v
    | _, some k => s.writeWindow 1 k v
    | _, _ => s

/-! ## Slots (R14) -/

/-- The blocks of R14 with a register table. -/
inductive RegBlock where
  | sc | tu | sm | pool | ife
  | vis (i : Fin 4)
  | fld | fus | slv | ps | mv | fc | pm | evr
  /-- a block whose registers the spec does not give: mailbox hardware and the security processor's window -/
  | unlisted
  | dc
  | core (c : Fin 8)
  deriving DecidableEq, Repr

/-- The block of a slot, none if it is unassigned. -/
def blockOf (slot : Nat) : Option RegBlock :=
  match slot with
  | 0x00 => some .sc
  | 0x01 => some .tu
  | 0x02 => some .sm
  | 0x03 => some .pool
  | 0x04 => some .ife
  | 0x05 => some (.vis 0)
  | 0x06 => some (.vis 1)
  | 0x07 => some (.vis 2)
  | 0x08 => some (.vis 3)
  | 0x09 => some .fld
  | 0x0A => some .fus
  | 0x0B => some .slv
  | 0x0C => some .ps
  | 0x0D => some .mv
  | 0x0E => some .fc
  | 0x0F => some .pm
  | 0x10 => some .evr
  | 0x11 => some .unlisted
  | 0x12 => some .unlisted
  | 0x13 => some .dc
  | _ => if h : 0x18 ≤ slot ∧ slot < 0x20 then some (.core ⟨slot - 0x18, by omega⟩) else none

/-- The value of a block register. -/
def State.blockReg (s : State) (b : RegBlock) (off : Nat) : Word :=
  match b with
  | .sc => s.scReg off
  | .tu => s.tuReg off
  | .sm => s.smReg off
  | .pool => s.flagReg off
  | .ife => s.ifeReg off
  | .vis i => s.visReg i off
  | .fld => s.fldReg off
  | .fus => s.fusReg off
  | .slv => s.slvReg off
  | .ps => s.psReg off
  | .mv => s.mvReg off
  | .fc => s.fcReg off
  | .pm => s.pmReg off
  | .evr => s.recReg off
  | .unlisted => 0
  | .dc => s.dcReg off
  | .core c => s.coreReg c off

/-- What a read of a block register clears or latches. -/
def State.blockTouch (s : State) (b : RegBlock) (off : Nat) : State :=
  match b with
  | .sc => s.scTouch off
  | .tu => s.tuTouch off
  | .sm => s.smTouch off
  | .pool => s
  | .ife => s.ifeTouch off
  | .vis i => s.visTouch i off
  | .fld => s.fldTouch off
  | .fus => s.fusTouch off
  | .slv => s.slvTouch off
  | .ps => s.psTouch off
  | .mv => s.mvTouch off
  | .fc => s.fcTouch off
  | .pm => s.pmTouch off
  | .evr => s.recTouch off
  | .unlisted => s
  | .dc => s.dcTouch off
  | .core c => s.coreTouch c off

/-- A block register written. -/
def State.blockWrite (s : State) (b : RegBlock) (off : Nat) (v : Word) : State :=
  match b with
  | .sc => s.scWrite off v
  | .tu => s.tuWrite off v
  | .sm => s.smWrite off v
  | .pool => s
  | .ife => s.ifeWrite off v
  | .vis i => s.visWrite i off v
  | .fld => s.fldWrite off v
  | .fus => s.fusWrite off v
  | .slv => s.slvWrite off v
  | .ps => s.psWrite off v
  | .mv => s.mvWrite off v
  | .fc => s.fcWrite off v
  | .pm => s.pmWrite off v
  | .evr => s.recWrite off v
  | .unlisted => s
  | .dc => s.dcWrite off v
  | .core c => s.coreWrite c off v

/-- A read of an unassigned slot returns zero and is recorded, each time (R14, R456): as SEC_ISOLATION of tag 0, with the slot and the
low 32 bits of its address (log 56). -/
def State.unassignedRead (s : State) (slot off : Nat) : State := s.event 0x12 0x1209 0 slot (slot * 0x100000 + off)

/-- A block register read: its value, then what the read clears or latches. -/
def State.blockRead (s : State) (slot off : Nat) : Word × State :=
  match blockOf slot with
  | some b => (s.blockReg b off, s.blockTouch b off)
  | none => (0, s.unassignedRead slot off)

/-- A block register written; an unassigned slot takes no write. -/
def State.slotWrite (s : State) (slot off : Nat) (v : Word) : State :=
  match blockOf slot with
  | some b => s.blockWrite b off v
  | none => s

/-! ## Who reaches them (R14, R411) -/

/-- The blocks are clocked: no reset is on, and the device is not parked. -/
def State.blocksUp (s : State) : Bool := !s.dev.inReset && decide (s.dev.phase ≠ .parked ∧ s.dev.phase ≠ .waking)
/-- Rokan firmware runs on a processor, or the debug port is open at the level that the access needs. -/
def State.reaches (s : State) (level : Nat) : Bool :=
  s.blocksUp && (s.cpRuns 0 || s.cpRuns 1 || decide (level ≤ s.sec.debugLevel))

/-- A direct register read by the host: one word, refused as a READ frame is (R332, R334). -/
def State.hostRegRead (s : State) (off : Nat) : State :=
  let drive (s : State) (bs : List Byte) : State := { s with port := { s.port with readData := bs, readCrc := none } }
  if !s.dev.portUp then s
  else if off % 4 ≠ 0 then drive (s.refuseFrame bitFrame) (List.replicate 4 0)
  else match s.readRefusal off 4 with
    | some bit => drive (s.refuseFrame bit) (List.replicate 4 0)
    | none => let r := s.readBurst off 4; drive r.2 r.1

/-- A register read: RC fields clear, and a `_LO` half latches its `_HI` half, in the same read (R8). -/
def State.regRead (s : State) (a : RegAddr) : State :=
  match a with
  | .direct off => s.hostRegRead off.toNat
  | .block slot off =>
    if s.reaches 1 then
      let r := s.blockRead slot.toNat off.toNat
      { r.2 with dev := { r.2.dev with fwReadData := r.1 } }
    else s

/-- A register written, each field by its access type (R8). -/
def State.regWrite (s : State) (a : RegAddr) (v : Word) : State :=
  match a with
  | .direct off => if s.dev.portUp ∧ off.toNat % 4 ≠ 0 then s.refuseFrame bitFrame else s.hostRegWrite off.toNat v
  | .block slot off => if s.reaches 2 then s.slotWrite slot.toNat off.toNat v else s

/-- A debugger at level 2 acts on a processor, or writes a block register (R411). A single step of a processor moves no state that
the spec describes. -/
def State.debugAct (s : State) (cp : Fin 2) (act : DebugAct) : State :=
  if s.sec.debugLevel ≠ 2 ∨ !s.blocksUp then s
  else match act with
    | .halt => { s with dev := { s.dev with cpHalted := s.dev.cpHalted.set cp true } }
    | .resume => { s with dev := { s.dev with cpHalted := s.dev.cpHalted.set cp false } }
    | .step => s
    | .writeReg slot off v => s.slotWrite slot.toNat off.toNat v

/-! ## The rows -/

/-- REGISTER_WRITE (R8). -/
def execRegisterWrite (a : RegAddr) (v : Word) (s : State) : Host.Outcome State Fault Refusal := .next (s.regWrite a v)
/-- RC_FIELD_READ (R8). -/
def execRcFieldRead (a : RegAddr) (s : State) : Host.Outcome State Fault Refusal := .next (s.regRead a)
/-- LATCHING_LO_READ (R51). -/
def execLatchingLoRead (a : RegAddr) (s : State) : Host.Outcome State Fault Refusal := .next (s.regRead a)
/-- DEBUG_HALT_AND_STEP (R411). -/
def execDebugHaltAndStep (cp : Fin 2) (act : DebugAct) (s : State) : Host.Outcome State Fault Refusal :=
  .next (s.debugAct cp act)

end Sys2Proof.Machine
end

