-- ==== Sys2Proof/Machine/SysCmd.lean ====
section
/-!
DEFINITION. The system, power, recorder and diagnostic commands (R356, R362, R383, R391, R426).
-/
namespace Sys2Proof.Machine

/-- SYS_STATUS carried out: the rung and the fence mask share a word. -/
def State.sysStatus (c : SubEntry) (s : State) : State :=
  s.reply c stOk s.statusReg.toNat s.dev.resetCause.toNat (s.rung0 + 256 * s.sched.fenceLive.toNat) s.permitReg.toNat

/-- SYS_PARK carried out: with no schedule to stop, the device is ready to park at once (R391). -/
def State.sysPark (c : SubEntry) (s : State) : State :=
  match s.sched.state with
  | .stopped =>
    let s := s.replyOk c
    { s with dev := { s.dev with parkReady := true } }
  | _ => (s.addJob c .sysPark).beginStop

/-- PWR_CAP carried out: it supersedes one still pending, which completes with `ERR_ARG` and 2 (R383). -/
def State.pwrCap (c : SubEntry) (s : State) : State :=
  if within (c.p 0 4) 1000 35000 then
    let s := s.capDone errArg 2 0
    State.addJob { s with pm := { s.pm with capMw := BitVec.ofNat 32 (c.p 0 4) } } c .pwrCap
  else s.replyErr c errArg

/-- PWR_STATUS carried out. -/
def State.pwrStatus (c : SubEntry) (s : State) : State :=
  s.reply c stOk s.pm.powerMw.toNat s.pm.capMw.toNat s.rung0 (patOf 32 s.pm.hottest)

/-- REC_SUBSCRIBE carried out: a new subscription replaces the old one (R362). -/
def State.recSubscribe (c : SubEntry) (s : State) : State :=
  if 3 < c.p 0 1 then s.replyErr c errArg
  else (s.updMbx c.entry.mbx fun m => { m with
    subSources := BitVec.ofNat 256 (c.p 4 32), subSeverity := BitVec.ofNat 8 (c.p 0 1) }).replyOk c

/-- The bytes of an event ring. -/
def ringBytes (ring : List Host.Cell) : List Byte := memReadN ring 0 65536

/-- REC_READ carried out: the live ring, or an archived one, the newest first (R426). -/
def State.recRead (c : SubEntry) (s : State) : State :=
  match c.p 0 1 with
  | 0 => s.replyOut c (ringBytes s.evr.ring) s.evr.head.toNat 0 0 0
  | n + 1 =>
    match s.evr.archive[n]? with
    | some a => s.replyOut c (ringBytes a.ring) a.head.toNat 0 0 0
    | none => s.replyErr c errArg

/-- The registers of a slot read in order from an offset, `n` words, with what each read clears or latches. -/
def State.readSlot (slot : Nat) : Nat → Nat → State → List Byte × State
  | 0, _, s => ([], s)
  | n + 1, off, s =>
    let r := s.blockRead slot off
    let t := State.readSlot slot n (off + 4) r.2
    (natLe 4 r.1.toNat ++ t.1, t.2)

/-- DIAG_READ_BLOCK carried out: nothing is read where the output does not fit. -/
def State.diagReadBlock (c : SubEntry) (s : State) : State :=
  if (blockOf (c.p 0 1)).isNone || decide (c.entry.bulkLength.toNat < 4096) then s.replyErr c errArg
  else
    let r := State.readSlot (c.p 0 1) 1024 0 s
    r.2.replyOut c r.1 0 0 0 0

/-! ## The rows -/

/-- SYS_NOP (R356). -/
def execSysNop (e : Entry) (s : State) : Host.Outcome State Fault Refusal := .next (s.serve 0x0100 e fun c s => s.replyOk c)
/-- SYS_STATUS (R356). -/
def execSysStatus (e : Entry) (s : State) : Host.Outcome State Fault Refusal := .next (s.serve 0x0101 e State.sysStatus)
/-- SYS_PARK (R391). -/
def execSysPark (e : Entry) (s : State) : Host.Outcome State Fault Refusal := .next (s.serve 0x0103 e State.sysPark)
/-- PWR_CAP (R383). -/
def execPwrCap (e : Entry) (s : State) : Host.Outcome State Fault Refusal := .next (s.serve 0x1001 e State.pwrCap)
/-- PWR_STATUS (R356). -/
def execPwrStatus (e : Entry) (s : State) : Host.Outcome State Fault Refusal := .next (s.serve 0x1002 e State.pwrStatus)
/-- REC_SUBSCRIBE (R362). -/
def execRecSubscribe (e : Entry) (s : State) : Host.Outcome State Fault Refusal := .next (s.serve 0x1101 e State.recSubscribe)
/-- REC_READ (R356). -/
def execRecRead (e : Entry) (s : State) : Host.Outcome State Fault Refusal := .next (s.serve 0x1102 e State.recRead)
/-- DIAG_ECHO (R356). -/
def execDiagEcho (e : Entry) (s : State) : Host.Outcome State Fault Refusal :=
  .next (s.serve 0x1201 e fun c s => s.replyOut c (c.bytes 0 240) 0 0 0 0)
/-- DIAG_READ_BLOCK (R356). -/
def execDiagReadBlock (e : Entry) (s : State) : Host.Outcome State Fault Refusal := .next (s.serve 0x1202 e State.diagReadBlock)

end Sys2Proof.Machine
end

