-- ==== Sys2Proof/Machine/Dispatch.lean ====
section
/-!
DEFINITION. One arm per command, operation and event: a direct call of its meaning, or a rejection by name.
-/
namespace Sys2Proof.Machine

/-- What a command, an operation or an event does to everything but the queue. -/
def exec (i : Instr) (s : State) : Host.Outcome State Fault Refusal :=
  match i with
  | .write f => Sys2Proof.Machine.execWrite f s
  | .read f staged => Sys2Proof.Machine.execRead f staged s
  | .readId => Sys2Proof.Machine.execReadId s
  | .wake => Sys2Proof.Machine.execWake s
  | .portReset => Sys2Proof.Machine.execPortReset s
  | .hostPortModeWrite v => Sys2Proof.Machine.execHostPortModeWrite v s
  | .mbxDoorbellWrite n v => Sys2Proof.Machine.execMbxDoorbellWrite n v s
  | .mbxCopy n => Sys2Proof.Machine.execMbxCopy n s
  | .cqHeadWrite n v => Sys2Proof.Machine.execCqHeadWrite n v s
  | .irqStatusWrite v => Sys2Proof.Machine.execIrqStatusWrite v s
  | .registerWrite a v => Sys2Proof.Machine.execRegisterWrite a v s
  | .rcFieldRead a => Sys2Proof.Machine.execRcFieldRead a s
  | .latchingLoRead a => Sys2Proof.Machine.execLatchingLoRead a s
  | .sysNop e => Sys2Proof.Machine.execSysNop e s
  | .sysStatus e => Sys2Proof.Machine.execSysStatus e s
  | .sysReset e => Sys2Proof.Machine.execSysReset e s
  | .sysResetDelayExpiry => Sys2Proof.Machine.execSysResetDelayExpiry s
  | .sysPark e => Sys2Proof.Machine.execSysPark e s
  | .parkEntry => Sys2Proof.Machine.execParkEntry s
  | .wakeComplete => Sys2Proof.Machine.execWakeComplete s
  | .schedLoad e => Sys2Proof.Machine.execSchedLoad e s
  | .schedStart e => Sys2Proof.Machine.execSchedStart e s
  | .schedStop e => Sys2Proof.Machine.execSchedStop e s
  | .schedSelect e => Sys2Proof.Machine.execSchedSelect e s
  | .schedUnload e => Sys2Proof.Machine.execSchedUnload e s
  | .schedStatus e => Sys2Proof.Machine.execSchedStatus e s
  | .partGrant e => Sys2Proof.Machine.execPartGrant e s
  | .partRelease e => Sys2Proof.Machine.execPartRelease e s
  | .partStatus e => Sys2Proof.Machine.execPartStatus e s
  | .partScrubDone p => Sys2Proof.Machine.execPartScrubDone p s
  | .keyRotate e => Sys2Proof.Machine.execKeyRotate e s
  | .keyStatus e => Sys2Proof.Machine.execKeyStatus e s
  | .attestReport e => Sys2Proof.Machine.execAttestReport e s
  | .attestCerts e => Sys2Proof.Machine.execAttestCerts e s
  | .fwWrite e => Sys2Proof.Machine.execFwWrite e s
  | .fwActivate e => Sys2Proof.Machine.execFwActivate e s
  | .fwStatus e => Sys2Proof.Machine.execFwStatus e s
  | .pwrCap e => Sys2Proof.Machine.execPwrCap e s
  | .pwrStatus e => Sys2Proof.Machine.execPwrStatus e s
  | .recSubscribe e => Sys2Proof.Machine.execRecSubscribe e s
  | .recRead e => Sys2Proof.Machine.execRecRead e s
  | .diagEcho e => Sys2Proof.Machine.execDiagEcho e s
  | .diagReadBlock e => Sys2Proof.Machine.execDiagReadBlock e s
  | .streamConfig e => Sys2Proof.Machine.execStreamConfig e s
  | .streamCommit e => Sys2Proof.Machine.execStreamCommit e s
  | .streamStatus e => Sys2Proof.Machine.execStreamStatus e s
  | .streamIfeConfig e => Sys2Proof.Machine.execStreamIfeConfig e s
  | .streamSync e => Sys2Proof.Machine.execStreamSync e s
  | .streamSyncMode e => Sys2Proof.Machine.execStreamSyncMode e s
  | .timeConfig e => Sys2Proof.Machine.execTimeConfig e s
  | .timeAlign e => Sys2Proof.Machine.execTimeAlign e s
  | .timeSelect e => Sys2Proof.Machine.execTimeSelect e s
  | .timeGet e => Sys2Proof.Machine.execTimeGet e s
  | .timeTrigSet e => Sys2Proof.Machine.execTimeTrigSet e s
  | .timeSetTod e => Sys2Proof.Machine.execTimeSetTod e s
  | .poseInit e => Sys2Proof.Machine.execPoseInit e s
  | .poseAlignDone => Sys2Proof.Machine.execPoseAlignDone s
  | .poseConfig e => Sys2Proof.Machine.execPoseConfig e s
  | .poseSubscribe e => Sys2Proof.Machine.execPoseSubscribe e s
  | .poseGet e => Sys2Proof.Machine.execPoseGet e s
  | .trackRead e => Sys2Proof.Machine.execTrackRead e s
  | .trackDelete e => Sys2Proof.Machine.execTrackDelete e s
  | .trackList e => Sys2Proof.Machine.execTrackList e s
  | .mapConfig e => Sys2Proof.Machine.execMapConfig e s
  | .mapTrain e => Sys2Proof.Machine.execMapTrain e s
  | .mapAcreDelete e => Sys2Proof.Machine.execMapAcreDelete e s
  | .mapStatus e => Sys2Proof.Machine.execMapStatus e s
  | .placeCreate e => Sys2Proof.Machine.execPlaceCreate e s
  | .placeQuery e => Sys2Proof.Machine.execPlaceQuery e s
  | .placeInsert e => Sys2Proof.Machine.execPlaceInsert e s
  | .placeDelete e => Sys2Proof.Machine.execPlaceDelete e s
  | .placeCompact e => Sys2Proof.Machine.execPlaceCompact e s
  | .placeDestroy e => Sys2Proof.Machine.execPlaceDestroy e s
  | .placeStatus e => Sys2Proof.Machine.execPlaceStatus e s
  | .sceneLastSeen e => Sys2Proof.Machine.execSceneLastSeen e s
  | .sceneResemble e => Sys2Proof.Machine.execSceneResemble e s
  | .sceneInRegion e => Sys2Proof.Machine.execSceneInRegion e s
  | .modelLoad e => Sys2Proof.Machine.execModelLoad e s
  | .modelInfo e => Sys2Proof.Machine.execModelInfo e s
  | .objLoad e => Sys2Proof.Machine.execObjLoad e s
  | .objPlace e => Sys2Proof.Machine.execObjPlace e s
  | .objPromote e => Sys2Proof.Machine.execObjPromote e s
  | .objPin e => Sys2Proof.Machine.execObjPin e s
  | .objUnpin e => Sys2Proof.Machine.execObjUnpin e s
  | .objEvict e => Sys2Proof.Machine.execObjEvict e s
  | .objUnload e => Sys2Proof.Machine.execObjUnload e s
  | .objStatus e => Sys2Proof.Machine.execObjStatus e s
  | .nop t => Sys2Proof.Machine.execNop t s
  | .waitOp t => Sys2Proof.Machine.execWaitOp t s
  | .setf t => Sys2Proof.Machine.execSetf t s
  | .barrier t => Sys2Proof.Machine.execBarrier t s
  | .dma t chk => Sys2Proof.Machine.execDma t chk s
  | .endOp t => Sys2Proof.Machine.execEndOp t s
  | .opComplete t u => Sys2Proof.Machine.execOpComplete t u s
  | .opVoidSkip t => Sys2Proof.Machine.execOpVoidSkip t s
  | .schedOverrun t => Sys2Proof.Machine.execSchedOverrun t s
  | .ballastRampStart => Sys2Proof.Machine.execBallastRampStart s
  | .schedLatch => Sys2Proof.Machine.execSchedLatch s
  | .spanBoundary => Sys2Proof.Machine.execSpanBoundary s
  | .timeCycle n => Sys2Proof.Machine.execTimeCycle n s
  | .tbOffsetHiWrite b v => Sys2Proof.Machine.execTbOffsetHiWrite b v s
  | .baseTimeout b => Sys2Proof.Machine.execBaseTimeout b s
  | .ppsInEdge => Sys2Proof.Machine.execPpsInEdge s
  | .ppsLost => Sys2Proof.Machine.execPpsLost s
  | .trigPulseStart n => Sys2Proof.Machine.execTrigPulseStart n s
  | .trigPulseEnd n => Sys2Proof.Machine.execTrigPulseEnd n s
  | .ppsOutEdge => Sys2Proof.Machine.execPpsOutEdge s
  | .ppsOutEnd => Sys2Proof.Machine.execPpsOutEnd s
  | .ethFrameReceive p frame fcsOk => Sys2Proof.Machine.execEthFrameReceive p frame fcsOk s
  | .bridgeForward p frame residence => Sys2Proof.Machine.execBridgeForward p frame residence s
  | .csi2FrameStart g vc => Sys2Proof.Machine.execCsi2FrameStart g vc s
  | .csi2LongPacket g vc dataType data link => Sys2Proof.Machine.execCsi2LongPacket g vc dataType data link s
  | .csi2FrameEnd g vc => Sys2Proof.Machine.execCsi2FrameEnd g vc s
  | .drdyEdge line rising => Sys2Proof.Machine.execDrdyEdge line rising s
  | .spiPollPeriod ch => Sys2Proof.Machine.execSpiPollPeriod ch s
  | .spiTransactionDone ctl data => Sys2Proof.Machine.execSpiTransactionDone ctl data s
  | .ifeRecordComplete n => Sys2Proof.Machine.execIfeRecordComplete n s
  | .syncInRise => Sys2Proof.Machine.execSyncInRise s
  | .syncInRelease => Sys2Proof.Machine.execSyncInRelease s
  | .ifeSyncStuck => Sys2Proof.Machine.execIfeSyncStuck s
  | .encTransition e a b => Sys2Proof.Machine.execEncTransition e a b s
  | .encZEdge e => Sys2Proof.Machine.execEncZEdge e s
  | .encSample e => Sys2Proof.Machine.execEncSample e s
  | .encRecordComplete e => Sys2Proof.Machine.execEncRecordComplete e s
  | .take p => Sys2Proof.Machine.execTake p s
  | .release p => Sys2Proof.Machine.execRelease p s
  | .ifeEmit => Sys2Proof.Machine.execIfeEmit s
  | .pwWarp => Sys2Proof.Machine.execPwWarp s
  | .pwPyramid => Sys2Proof.Machine.execPwPyramid s
  | .feDetect => Sys2Proof.Machine.execFeDetect s
  | .trkRun => Sys2Proof.Machine.execTrkRun s
  | .fthStripe => Sys2Proof.Machine.execFthStripe s
  | .arrMm c chk => Sys2Proof.Machine.execArrMm c chk s
  | .arrConv c chk => Sys2Proof.Machine.execArrConv c chk s
  | .vecOp c chk => Sys2Proof.Machine.execVecOp c chk s
  | .fldRays chk => Sys2Proof.Machine.execFldRays chk s
  | .fldGather chk => Sys2Proof.Machine.execFldGather chk s
  | .fldComposite chk => Sys2Proof.Machine.execFldComposite chk s
  | .fldScatter chk => Sys2Proof.Machine.execFldScatter chk s
  | .fldAdam chk => Sys2Proof.Machine.execFldAdam chk s
  | .fldCompare chk => Sys2Proof.Machine.execFldCompare chk s
  | .fldReplay chk => Sys2Proof.Machine.execFldReplay chk s
  | .fldSlotFill => Sys2Proof.Machine.execFldSlotFill s
  | .fldDirCommit => Sys2Proof.Machine.execFldDirCommit s
  | .fldAbsentClear => Sys2Proof.Machine.execFldAbsentClear s
  | .fusInertial => Sys2Proof.Machine.execFusInertial s
  | .inertialRecordPropagate n chk => Sys2Proof.Machine.execInertialRecordPropagate n chk s
  | .fusUpdate chk => Sys2Proof.Machine.execFusUpdate chk s
  | .fusTrackReq => Sys2Proof.Machine.execFusTrackReq s
  | .fusSeed => Sys2Proof.Machine.execFusSeed s
  | .fusProject => Sys2Proof.Machine.execFusProject s
  | .fusVote => Sys2Proof.Machine.execFusVote s
  | .fusReprop chk => Sys2Proof.Machine.execFusReprop chk s
  | .fusPage => Sys2Proof.Machine.execFusPage s
  | .fusAnchor => Sys2Proof.Machine.execFusAnchor s
  | .poseGapExpiry => Sys2Proof.Machine.execPoseGapExpiry s
  | .mportCsFall => Sys2Proof.Machine.execMportCsFall s
  | .mportReadPose n => Sys2Proof.Machine.execMportReadPose n s
  | .mportReadId n => Sys2Proof.Machine.execMportReadId n s
  | .mportOtherCommand op n => Sys2Proof.Machine.execMportOtherCommand op n s
  | .mportCsRise => Sys2Proof.Machine.execMportCsRise s
  | .slvWindow => Sys2Proof.Machine.execSlvWindow s
  | .slvService => Sys2Proof.Machine.execSlvService s
  | .slvCommit => Sys2Proof.Machine.execSlvCommit s
  | .slvIterationEnd chk => Sys2Proof.Machine.execSlvIterationEnd chk s
  | .slvDeadlineMiss => Sys2Proof.Machine.execSlvDeadlineMiss s
  | .slvWindowEnd => Sys2Proof.Machine.execSlvWindowEnd s
  | .psService => Sys2Proof.Machine.execPsService s
  | .psFile => Sys2Proof.Machine.execPsFile s
  | .psWindowEnd => Sys2Proof.Machine.execPsWindowEnd s
  | .psFlashBlocksLanded q bad => Sys2Proof.Machine.execPsFlashBlocksLanded q bad s
  | .psQueryComplete q chk => Sys2Proof.Machine.execPsQueryComplete q chk s
  | .psQueryExpired q => Sys2Proof.Machine.execPsQueryExpired q s
  | .psInsertDone n chk => Sys2Proof.Machine.execPsInsertDone n chk s
  | .mvWindow => Sys2Proof.Machine.execMvWindow s
  | .moverTransferDone => Sys2Proof.Machine.execMoverTransferDone s
  | .flashReadComplete r => Sys2Proof.Machine.execFlashReadComplete r s
  | .flashProgramComplete ok => Sys2Proof.Machine.execFlashProgramComplete ok s
  | .flashBackgroundRelocate die block => Sys2Proof.Machine.execFlashBackgroundRelocate die block s
  | .flashSpareLow => Sys2Proof.Machine.execFlashSpareLow s
  | .patrolScrubStep e => Sys2Proof.Machine.execPatrolScrubStep e s
  | .pmbusPoll answered mv ma => Sys2Proof.Machine.execPmbusPoll answered mv ma s
  | .thermalConversion n t => Sys2Proof.Machine.execThermalConversion n t s
  | .pwrThermRelease => Sys2Proof.Machine.execPwrThermRelease s
  | .pwrLimitAssert => Sys2Proof.Machine.execPwrLimitAssert s
  | .pwrLimitRelease => Sys2Proof.Machine.execPwrLimitRelease s
  | .pwrMonAlarm m => Sys2Proof.Machine.execPwrMonAlarm m s
  | .pwrMarginTrim => Sys2Proof.Machine.execPwrMarginTrim s
  | .linkCrcMismatch link => Sys2Proof.Machine.execLinkCrcMismatch link s
  | .faultFwPanic cp code => Sys2Proof.Machine.execFaultFwPanic cp code s
  | .recFwStage cp v => Sys2Proof.Machine.execRecFwStage cp v s
  | .eventRecordWrite chk => Sys2Proof.Machine.execEventRecordWrite chk s
  | .recArchived => Sys2Proof.Machine.execRecArchived s
  | .poresetAssert => Sys2Proof.Machine.execPoresetAssert s
  | .poresetRelease bootSrc => Sys2Proof.Machine.execPoresetRelease bootSrc s
  | .hostPortReady => Sys2Proof.Machine.execHostPortReady s
  | .bootRomDone pmbusAck rngOk => Sys2Proof.Machine.execBootRomDone pmbusAck rngOk s
  | .dramInitDone => Sys2Proof.Machine.execDramInitDone s
  | .firmwareVerified => Sys2Proof.Machine.execFirmwareVerified s
  | .enterReady => Sys2Proof.Machine.execEnterReady s
  | .sysresetAssert => Sys2Proof.Machine.execSysresetAssert s
  | .sysresetRelease => Sys2Proof.Machine.execSysresetRelease s
  | .watchdogRefresh cp => Sys2Proof.Machine.execWatchdogRefresh cp s
  | .watchdogExpiry cp => Sys2Proof.Machine.execWatchdogExpiry cp s
  | .railPowerLoss => Sys2Proof.Machine.execRailPowerLoss s
  | .railPowerUp => Sys2Proof.Machine.execRailPowerUp s
  | .jtagChallengeRead => Sys2Proof.Machine.execJtagChallengeRead s
  | .debugTokenWrite token => Sys2Proof.Machine.execDebugTokenWrite token s
  | .graphScheduleCompiled => Sys2Proof.Machine.execGraphScheduleCompiled s
  | .debugHaltAndStep cp act => Sys2Proof.Machine.execDebugHaltAndStep cp act s

end Sys2Proof.Machine
end

