-- ==== Sys2Proof/Safety.lean ====
section
/-!
DEFINITION. The terms that the statements about the model use: when a command is accepted, when an operation may issue, what
starting one leaves, and the canonical form of every memory.
-/
namespace Sys2Proof.Machine

/-! ## Commands of the mailboxes (R347 to R349) -/

/-- A command and its opcode as a submission entry. -/
abbrev asSub (op : Nat) (e : Entry) : SubEntry := { opcode := BitVec.ofNat 16 op, entry := e }

/-- Firmware takes commands of the mailbox, no earlier entry is waiting, and the entry passes every check of R347: the command is
carried out now. -/
def State.Accepts (s : State) (op : Nat) (e : Entry) : Prop :=
  s.takes e.mbx = true ∧ s.fw.queue = [] ∧ s.inFlight e.mbx < 64 ∧ s.orderedWaits e = false
    ∧ s.acceptCheck (asSub op e) = none

/-- Nothing but the mailboxes, the pins and the host port differs. -/
def State.sameBeside (s t : State) : Prop := { t with mbx := s.mbx, pins := s.pins, port := s.port } = s

/-- A completion of a command as R352 gives it. -/
def completionOf (op : Nat) (e : Entry) (status r0 r1 r2 r3 dt : Nat) : Completion where
  tag := e.tag
  status := BitVec.ofNat 16 status
  r0 := BitVec.ofNat 32 r0
  r1 := BitVec.ofNat 32 r1
  r2 := BitVec.ofNat 32 r2
  r3 := BitVec.ofNat 32 r3
  unsolicited := false
  lost := 0
  opcode := BitVec.ofNat 16 op
  dt := BitVec.ofNat 64 dt

/-! ## Operations of the sequencers (R67) -/

/-- The next operation of a target has the opcode and may issue on the unit. -/
def State.Issues (s : State) (t : Target) (opcode : Nat) (u : Option OpUnit) (n : NextOp) : Prop :=
  s.nextOp t = some n ∧ n.op.opcode = opcode ∧ s.mayIssue t n.op u = true

/-- The operation has started on a unit: the sequencer has moved on by one, and its running operations are those before and this
one, from now. -/
def State.Started (s t : State) (tg : Target) (u : OpUnit) (n : NextOp) : Prop :=
  (t.seq tg).next = (s.seq tg).next + 1 ∧ ∃ r : Running, (t.seq tg).running = (s.seq tg).running ++ [r]
    ∧ r.unit = u ∧ r.index = n.index ∧ r.op = n.op ∧ r.startDt = s.dtNs

/-- The operation has started, and its unit keeps it for so many cycles and will write these bytes as it ends. -/
def State.StartedWith (s t : State) (tg : Target) (u : OpUnit) (n : NextOp) (cycles : Nat) (ws : List MemWrite) : Prop :=
  (t.seq tg).next = (s.seq tg).next + 1 ∧ ∃ r : Running, (t.seq tg).running = (s.seq tg).running ++ [r]
    ∧ r.unit = u ∧ r.index = n.index ∧ r.op = n.op ∧ r.startDt = s.dtNs ∧ r.cycles = cycles ∧ r.writes = ws

/-! ## Scrubs (R407) -/

/-- The bytes of memory that a scrub clears for a grant: its DRAM, its pecks, and the scratchpads of its cores. -/
def scrubClears (g : Grant) (a : Nat) : Prop :=
  (g.dramBase ≤ a ∧ a < g.dramBase + g.dramBytes)
    ∨ (poolBase + 16384 * g.poolBase ≤ a ∧ a < poolBase + 16384 * g.poolBase + 16384 * g.poolPecks)
    ∨ ∃ c : Fin 8, g.coreMask.getLsbD c.val = true ∧ scratchBase c.val ≤ a ∧ a < scratchBase c.val + scratchSize

/-! ## The canonical form of the memories -/

/-- The memories of a mailbox are canonical. -/
def Mbx.memOk (m : Mbx) : Prop := memWf m.sq = true ∧ memWf m.cq = true

/-- Every memory of the device is canonical: device addresses, in which the bulk windows lie, engine SRAM, and the mailboxes' rings. -/
def State.memOk (s : State) : Prop :=
  memWf s.mem = true ∧ (∀ i : Fin 10, memWf s.sram[i] = true) ∧ ∀ i : Fin 8, (s.mbx[i]).memOk

end Sys2Proof.Machine
end

