-- ==== Sys2Proof/Certificates/Slice0/Obligations.lean ====
section
/-!
DEFINITION. The statements about the model that the provers prove.
-/
open Sys2Proof Sys2Proof.Machine

/-- A step takes the command at the front of the queue and runs it with the queue's rest; on an empty queue the block idles, which is
the model's choice (log 1). -/
def Obligations.StepRunsFront : Prop :=
  (∀ (s : State) (c : Instr), step { s with pending := c :: s.pending } = exec c s) ∧ ∀ s : State, s.pending = [] → step s = .next s

/-! ## Commands of the mailboxes: answered at once (chapter 15) -/

/-- SYS_NOP writes its 32 B completion, status `OK`, at the tail of the mailbox's ring, moves the tail and raises the mailbox's cause; the
rest of the ring, the other mailboxes and everything else stay (R352, R356). Completes: SYS_NOP. -/
def Obligations.NopWritesItsCompletion : Prop :=
  ∀ (s : State) (e : Entry), s.Accepts 0x0100 e → s.mbx[e.mbx].held = [] → s.mbx[e.mbx].cqCount < 255 →
    memWf s.mbx[e.mbx].cq = true →
    ∃ t : State, exec (.sysNop e) s = .next t
      ∧ memReadN t.mbx[e.mbx].cq (32 * s.mbx[e.mbx].cqTail.toNat) 32 = (completionOf 0x0100 e 0 0 0 0 0 s.dtNs).bytes
      ∧ t.mbx[e.mbx].cqTail = s.mbx[e.mbx].cqTail + 1 ∧ t.port.irqStatus = s.port.irqStatus ||| irqCq e.mbx
      ∧ t.pins.hostIrqN = decide (t.port.irqStatus &&& t.port.irqMask = 0)
      ∧ (∀ a, a < 32 * s.mbx[e.mbx].cqTail.toNat ∨ 32 * s.mbx[e.mbx].cqTail.toNat + 32 ≤ a →
          memRead t.mbx[e.mbx].cq a = memRead s.mbx[e.mbx].cq a)
      ∧ (∀ j, j ≠ e.mbx → t.mbx[j] = s.mbx[j]) ∧ s.sameBeside t

/-- The status commands complete with `OK` and the result words that the tables give (R356 to R358). Completes: SYS_STATUS, KEY_STATUS,
FW_STATUS, PWR_STATUS, MAP_STATUS, PLACE_STATUS, OBJ_STATUS. -/
def Obligations.StatusCommandsAnswer : Prop :=
  ∀ (s : State) (e : Entry),
    (s.Accepts 0x0101 e → exec (.sysStatus e) s = .next (s.reply (asSub 0x0101 e) stOk s.statusReg.toNat s.dev.resetCause.toNat
        (s.rung0 + 256 * s.sched.fenceLive.toNat) s.permitReg.toNat))
    ∧ (s.Accepts 0x1002 e → exec (.pwrStatus e) s = .next (s.reply (asSub 0x1002 e) stOk s.pm.powerMw.toNat s.pm.capMw.toNat
        s.rung0 (patOf 32 s.pm.hottest)))
    ∧ (s.Accepts 0x0704 e → exec (.mapStatus e) s = .next (s.reply (asSub 0x0704 e) stOk s.fld.acres.length
        (s.fld.acres.filter (·.training)).length s.fus.frameId.toNat
        (b2n (s.slv.graph.isSome || s.slv.queue.getLsbD 0) + b2n s.slv.waiting.isSome)))
    ∧ (s.Accepts 0x0F03 e → exec (.fwStatus e) s = .next (s.reply (asSub 0x0F03 e) stOk (fwVersion s.sec.slots[0])
        (fwVersion s.sec.slots[1]) (b2n s.dev.fwSlot) 0))
    ∧ (∀ n, s.Accepts 0x0D02 e → s.nsOf (asSub 0x0D02 e) = some n →
        exec (.keyStatus e) s = .next (s.reply (asSub 0x0D02 e) stOk s.sec.keys[n].epoch (s.oldPages n) 0 0))
    ∧ (∀ ix, s.Accepts 0x0807 e → s.indexFor (asSub 0x0807 e) ((asSub 0x0807 e).p 0 4) true = .ok ix →
        exec (.placeStatus e) s =
          .next (s.reply (asSub 0x0807 e) stOk (ix.epoch % 2 ^ 32) ix.dramCount ix.flash.length ix.queue.length))
    ∧ (∀ o, s.Accepts 0x0B08 e → s.objFor (asSub 0x0B08 e) = .ok o →
        exec (.objStatus e) s = .next (s.reply (asSub 0x0B08 e) stOk
          (handleType o.handle + 256 * b2n o.backed + 65536 * b2n o.mirror + 2 ^ 24 * (b2n o.poisoned + 2 * b2n o.evictPending))
          o.resident.length o.pins.length o.charged))

/-- The commands with an output of a fixed size answer with it: grants, certificates, poses, times, contexts, descriptors, digests, rings and
registers; and DIAG_ECHO returns its 240 bytes, which with room for them stand in the caller's window, with the completion `OK` (R356 to
R358, R426). Completes: PART_STATUS, ATTEST_CERTS, REC_READ, DIAG_ECHO, DIAG_READ_BLOCK, TIME_GET, POSE_GET, TRACK_READ, MODEL_INFO. -/
def Obligations.OutputCommandsAnswer : Prop :=
  (∀ (s : State) (e : Entry),
      (∀ p : Fin 4, s.Accepts 0x0C03 e → (asSub 0x0C03 e).p 0 1 = p.val →
          s.partOf (asSub 0x0C03 e) = 0 ∨ s.partOf (asSub 0x0C03 e) = p →
          exec (.partStatus e) s = .next (s.replyOut (asSub 0x0C03 e) (s.sec.grants[p].bytes p.val) 0 0 0 0))
      ∧ (s.Accepts 0x0E02 e → exec (.attestCerts e) s = .next (s.replyOut (asSub 0x0E02 e) (Config.crypto cryptoCerts [])
          (Config.crypto cryptoCerts []).length 0 0 0))
      ∧ (s.Accepts 0x0504 e → exec (.poseGet e) s = .next (s.replyOut (asSub 0x0504 e) s.currentPose 0 0 0 0))
      ∧ (s.Accepts 0x0404 e → exec (.timeGet e) s = .next (s.replyOut (asSub 0x0404 e) s.timeSample 0 0 0 0))
      ∧ (∀ x, s.Accepts 0x0601 e → s.stored ((asSub 0x0601 e).p 0 4) = some x → ctxOwner x = (s.partOf (asSub 0x0601 e)).val →
          exec (.trackRead e) s = .next (s.replyOut (asSub 0x0601 e) x 0 0 0 0))
      ∧ (∀ o, s.Accepts 0x0A02 e → s.usableObj (asSub 0x0A02 e) = .ok o → isModelType (handleType o.handle) = true →
          exec (.modelInfo e) s = .next (s.replyOut (asSub 0x0A02 e) (sha384 o.bytes ++ natLe 8 o.size
            ++ natLe 1 (handleType o.handle) ++ natLe 1 (b2n o.backed) ++ List.replicate 6 0) 0 0 0 0))
      ∧ (s.Accepts 0x1102 e → (asSub 0x1102 e).p 0 1 = 0 →
          exec (.recRead e) s = .next (s.replyOut (asSub 0x1102 e) (ringBytes s.evr.ring) s.evr.head.toNat 0 0 0))
      ∧ (∀ n a, s.Accepts 0x1102 e → (asSub 0x1102 e).p 0 1 = n + 1 → s.evr.archive[n]? = some a →
          exec (.recRead e) s = .next (s.replyOut (asSub 0x1102 e) (ringBytes a.ring) a.head.toNat 0 0 0))
      ∧ (s.Accepts 0x1202 e → (blockOf ((asSub 0x1202 e).p 0 1)).isSome = true → 4096 ≤ e.bulkLength.toNat →
          exec (.diagReadBlock e) s = .next (State.replyOut (State.readSlot ((asSub 0x1202 e).p 0 1) 1024 0 s).2
            (asSub 0x1202 e) (State.readSlot ((asSub 0x1202 e).p 0 1) 1024 0 s).1 0 0 0 0)))
  ∧ (∀ (s : State) (e : Entry), s.Accepts 0x1201 e → 240 ≤ e.bulkLength.toNat → memWf s.mem = true →
      ∃ t : State, exec (.diagEcho e) s = .next t
        ∧ memReadN t.mem (s.mbx[e.mbx].bulkBase + e.bulkOffset.toNat) 240 = (asSub 0x1201 e).bytes 0 240
        ∧ (∀ a, a < s.mbx[e.mbx].bulkBase + e.bulkOffset.toNat ∨ s.mbx[e.mbx].bulkBase + e.bulkOffset.toNat + 240 ≤ a →
            memRead t.mem a = memRead s.mem a)
        ∧ { t with mem := s.mem } = s.replyOk (asSub 0x1201 e))

/-- The commands with a list as output answer with whole entries, as many as fit, and both counts (R346, R357, R358). Completes: SCHED_STATUS,
TRACK_LIST, SCENE_IN_REGION. -/
def Obligations.ListCommandsAnswer : Prop :=
  ∀ (s : State) (e : Entry),
    (s.Accepts 0x0603 e → exec (.trackList e) s = .next (s.replyList (asSub 0x0603 e) 4
        ((s.owned (s.partOf (asSub 0x0603 e)).val ((asSub 0x0603 e).p 0 2)).map (natLe 4))))
    ∧ (s.Accepts 0x0903 e → exec (.sceneInRegion e) s = .next (s.replyList (asSub 0x0903 e) 36
        (((s.objects (s.partOf (asSub 0x0903 e)).val).filter fun x =>
          decide ((asSub 0x0903 e).p 0 2 = 0 ∨ ctxLabel x = (asSub 0x0903 e).p 0 2)
            && acreWithin (fieldAt x 88 6) ((asSub 0x0903 e).p 4 6) ((asSub 0x0903 e).p 10 6)).map fun x =>
          natLe 4 (ctxHandle x) ++ natLe 4 0 ++ natLe 8 (fieldAt x 8 8) ++ (x.drop 40).take 12 ++ natLe 6 (fieldAt x 88 6)
            ++ natLe 2 0)))
    ∧ (s.Accepts 0x0206 e → ∃ t : State, exec (.schedStatus e) s = .next t ∧ t = s.replyOut (asSub 0x0206 e)
        (s.sched.slots.toList.flatMap fun x => match x with
          | some i => natLe 1 i.partition.val ++ natLe 1 i.rung ++ natLe 1 i.variantKind ++ natLe 1 i.variantCore ++ natLe 4 i.buildId
          | none => natLe 1 0xFF ++ List.replicate 7 0)
        s.sched.state.code (s.sched.spanCount.toNat % 2 ^ 32) (s.sched.spanCount.toNat / 2 ^ 32)
        (s.runningByte 0 + 2 ^ 8 * s.runningByte 1 + 2 ^ 16 * s.runningByte 2 + 2 ^ 24 * s.runningByte 3))
    ∧ (∀ l : List (List Byte), (∀ x ∈ l, x.length = 4) → ∀ c : SubEntry,
        s.replyList c 4 l = (s.bulkOut c 0 ((l.take (c.entry.bulkLength.toNat / 4)).flatMap id)).reply c stOk
          (min (c.entry.bulkLength.toNat / 4) l.length) l.length 0 0)

/-! ## Commands that change state at once, or wait (chapter 15) -/

/-- A completion of an accepted command is one entry (R337, R352): on an OPEN mailbox with nothing held and room in its ring the
entry stands in the slot at the tail, the tail moves by one and the mailbox's cause is raised; with no room, or behind held ones,
it is held; on a mailbox that is not OPEN nothing is written. Nothing but that mailbox, the pins and the port changes. -/
def Obligations.CompletionWrittenOrHeld : Prop :=
  ∀ (s : State) (c : SubEntry) (st r0 r1 r2 r3 : Nat),
    let x : Completion := { completionOf 0 c.entry st r0 r1 r2 r3 s.dtNs with opcode := c.opcode }
    let m := s.mbx[c.entry.mbx]
    let t := s.reply c st r0 r1 r2 r3
    s.sameBeside t ∧ (∀ j, j ≠ c.entry.mbx → t.mbx[j] = s.mbx[j])
    ∧ (m.state = .opened → m.held = [] → m.cqCount < 255 →
        t.mbx[c.entry.mbx] = m.cqPut x ∧ t.port = { s.port with irqStatus := s.port.irqStatus ||| irqCq c.entry.mbx }
        ∧ t.pins.hostIrqN = decide (t.port.irqStatus &&& t.port.irqMask = 0))
    ∧ (m.state = .opened → ¬ (m.held = [] ∧ m.cqCount < 255) →
        t.mbx[c.entry.mbx] = { m with held := m.held ++ [x] } ∧ t.port = s.port ∧ t.pins = s.pins)
    ∧ (m.state ≠ .opened → t = s)

/-- The TIME_ commands: TIME_CONFIG writes the registers of its fields, and with a reserved bit set or a delay code above 1 completes with
`ERR_ARG`; TIME_ALIGN brings DT to its source while no schedule runs and a base is LOCKED, TIME_SELECT records the selection mode and
selects again, TIME_TRIG_SET programs a granted pin that no image names, and TIME_SET_TOD waits for the next qualified edge (R29, R33,
R39, R46, R50). Completes: TIME_CONFIG, TIME_ALIGN, TIME_SELECT, TIME_TRIG_SET, TIME_SET_TOD. -/
def Obligations.TimeCommandsAnswer : Prop :=
  ∀ (s : State) (e : Entry),
    (s.Accepts 0x0401 e → timeReserved ((asSub 0x0401 e).p 0 4) ((asSub 0x0401 e).p 8 4) ((asSub 0x0401 e).p 12 4) = false →
      (asSub 0x0401 e).p 16 1 ≤ 1 → (asSub 0x0401 e).p 17 1 ≤ 1 →
      ∃ t : State, exec (.timeConfig e) s = .next (t.replyOk (asSub 0x0401 e))
        ∧ t.tu.baseA.peerDelay = decide ((asSub 0x0401 e).p 16 1 = 1) ∧ t.tu.baseB.peerDelay = decide ((asSub 0x0401 e).p 17 1 = 1)
        ∧ t.tu.baseA.domain.toNat = (asSub 0x0401 e).p 11 1 ∧ t.tu.baseB.domain.toNat = (asSub 0x0401 e).p 15 1
        ∧ t.tu.baseA.kp.toNat = (asSub 0x0401 e).p 9 1 ∧ t.tu.baseA.ki.toNat = (asSub 0x0401 e).p 8 1
        ∧ t.tu.baseB.kp.toNat = (asSub 0x0401 e).p 13 1 ∧ t.tu.baseB.ki.toNat = (asSub 0x0401 e).p 12 1
        ∧ t.tu.selMode.toNat = (asSub 0x0401 e).p 1 1 % 4
        ∧ t.tu.requireLock = ((asSub 0x0401 e).p 0 4).testBit 11 ∧ t.tu.ppsOutEn = ((asSub 0x0401 e).p 0 4).testBit 5
        ∧ { t with tu := s.tu, evr := s.evr, pins := s.pins } = s)
    ∧ (s.Accepts 0x0401 e → (timeReserved ((asSub 0x0401 e).p 0 4) ((asSub 0x0401 e).p 8 4) ((asSub 0x0401 e).p 12 4) = true
          ∨ 1 < (asSub 0x0401 e).p 16 1 ∨ 1 < (asSub 0x0401 e).p 17 1) →
        exec (.timeConfig e) s = .next (s.replyErr (asSub 0x0401 e) errArg))
    ∧ (s.Accepts 0x0402 e → s.sched.state = .stopped → (s.tu.baseA.isLocked || s.tu.baseB.isLocked) = true →
        exec (.timeAlign e) s = .next (s.alignDt.replyOk (asSub 0x0402 e))
        ∧ (s.tu.aligned = false → s.alignDt.tu.dt = BitVec.ofInt 96 (s.tu.sourceNow s.tu.source) ∧ s.alignDt.tu.aligned = true
            ∧ { s.alignDt with tu := { s.alignDt.tu with dt := s.tu.dt, aligned := s.tu.aligned, ppsOutSec := s.tu.ppsOutSec } } = s)
        ∧ (s.tu.aligned = true → (s.tu.dt.toNat : Int) < s.tu.sourceNow s.tu.source →
            s.alignDt.tu.dt = BitVec.ofInt 96 (s.tu.sourceNow s.tu.source) ∧ s.alignDt.tu.aligned = true
            ∧ { s.alignDt with evr := s.evr, tu := { s.alignDt.tu with dt := s.tu.dt, ppsOutSec := s.tu.ppsOutSec } } = s)
        ∧ (s.tu.aligned = true → s.tu.sourceNow s.tu.source ≤ s.tu.dt.toNat → s.alignDt = s))
    ∧ (s.Accepts 0x0403 e → (asSub 0x0403 e).p 0 1 ≤ 3 →
        ∃ t : State, exec (.timeSelect e) s = .next (t.replyOk (asSub 0x0403 e)) ∧ t.tu.selMode.toNat = (asSub 0x0403 e).p 0 1
          ∧ { t with tu := s.tu, evr := s.evr } = s)
    ∧ (∀ n : Fin 16, s.Accepts 0x0405 e → (asSub 0x0405 e).p 0 1 = n.val →
        s.sec.grants[s.partOf (asSub 0x0405 e)].trigMask.getLsbD n.val = true → s.tu.trigs[n].mode ≠ 3 →
        (asSub 0x0405 e).p 1 1 ≤ 2 → (asSub 0x0405 e).p 2 1 ≤ 1 → ((asSub 0x0405 e).p 1 1 = 2 → 1000 ≤ (asSub 0x0405 e).p 12 4) →
        exec (.timeTrigSet e) s = .next ((s.setTrigger n ((asSub 0x0405 e).p 1 1) (decide ((asSub 0x0405 e).p 2 1 = 1))
          ((asSub 0x0405 e).p 4 8) ((asSub 0x0405 e).p 12 4) ((asSub 0x0405 e).p 16 4)).replyOk (asSub 0x0405 e)))
    ∧ (s.Accepts 0x0406 e → (asSub 0x0406 e).p 0 1 = 0 →
        exec (.timeSetTod e) s = .next (s.addJob (asSub 0x0406 e) (.setTod .tbA ((asSub 0x0406 e).p 4 8))))
    ∧ (s.Accepts 0x0406 e → (asSub 0x0406 e).p 0 1 = 1 →
        exec (.timeSetTod e) s = .next (s.addJob (asSub 0x0406 e) (.setTod .tbB ((asSub 0x0406 e).p 4 8))))
    ∧ (s.Accepts 0x0406 e → 1 < (asSub 0x0406 e).p 0 1 →
        exec (.timeSetTod e) s = .next (s.replyErr (asSub 0x0406 e) errArg))

/-- The STREAM_ commands: a descriptor is held pending, a commit that passes every check moves the pending copies into the commit, the status
shows both copies, a binding that passes its checks waits, and a SYNC waits for its boundary (R88, R110, R123). Completes: STREAM_CONFIG,
STREAM_COMMIT, STREAM_STATUS, STREAM_IFE_CONFIG, STREAM_SYNC, STREAM_SYNC_MODE. -/
def Obligations.StreamCommandsAnswer : Prop :=
  ∀ (s : State) (e : Entry),
    (∀ ch : Fin 32, s.Accepts 0x0301 e → (asSub 0x0301 e).p 0 1 = ch.val → s.ownsChannel (s.partOf (asSub 0x0301 e)) ch.val = true →
      exec (.streamConfig e) s =
        .next ((s.updChan ch fun x => { x with pend := some ((asSub 0x0301 e).bytes 4 192) }).replyOk (asSub 0x0301 e)))
    ∧ (s.Accepts 0x0302 e →
        s.commitFails (s.partOf (asSub 0x0302 e)) (s.pendingOf ((asSub 0x0302 e).p 0 4)) = none →
        exec (.streamCommit e) s = .next (State.noteCommits (State.addJob
          ((s.pendingOf ((asSub 0x0302 e).p 0 4)).foldl (fun (u : State) (d : Fin 32 × List Byte) =>
            u.updChan d.1 fun x => { x with pend := none }) s)
          (asSub 0x0302 e) (.streamCommit (s.pendingOf ((asSub 0x0302 e).p 0 4))))))
    ∧ (∀ (ch : Fin 32) (run next : List Byte), s.Accepts 0x0303 e → (asSub 0x0303 e).p 0 1 = ch.val →
        s.ownsChannel (s.partOf (asSub 0x0303 e)) ch.val = true → s.sm.chans[ch].desc = some run → s.sm.chans[ch].pend = some next →
        exec (.streamStatus e) s = .next (s.replyOut (asSub 0x0303 e)
          (run ++ s.sm.chans[ch].statusBlock ++ (next ++ List.replicate 64 0)) 3 0 0 0))
    ∧ (∀ (n : Fin 4) (ch : Fin 32), s.Accepts 0x0304 e → (asSub 0x0304 e).p 0 1 = n.val → (asSub 0x0304 e).p 1 1 = ch.val →
        (asSub 0x0304 e).p 2 1 ≤ 1 → s.ownsChannel 0 ch.val = true → s.sm.chans[ch].runs = false →
        (∀ b, s.ife.inputs[n].binding = some b → s.sm.chans[b.channel].runs = false) →
        s.bindingFails ch (decide ((asSub 0x0304 e).p 2 1 = 1)) ((asSub 0x0304 e).p 4 4) = none →
        exec (.streamIfeConfig e) s = .next ((s.updInput n fun x =>
          { x with nextBinding := some (IfeBinding.mk ch (decide ((asSub 0x0304 e).p 2 1 = 1)) ((asSub 0x0304 e).p 4 4)) }).replyOk
            (asSub 0x0304 e)))
    ∧ (s.Accepts 0x0305 e → exec (.streamSync e) s = .next (s.addJob (asSub 0x0305 e) .streamSync))
    ∧ (s.Accepts 0x0306 e → (asSub 0x0306 e).p 0 1 ≤ 1 →
        exec (.streamSyncMode e) s = .next (s.addJob (asSub 0x0306 e) (.syncMode (decide ((asSub 0x0306 e).p 0 1 = 1)))))
    ∧ (s.Accepts 0x0306 e → 1 < (asSub 0x0306 e).p 0 1 →
        exec (.streamSyncMode e) s = .next (s.replyErr (asSub 0x0306 e) errArg))

/-- The POSE_, TRACK_ and MAP_ commands that act wait for the boundary with what they set, and POSE_SUBSCRIBE starts a ring with a count of
zero in the caller's window (R229, R230, R216, R218, R219, R252, R363). Completes: POSE_INIT, POSE_CONFIG, POSE_SUBSCRIBE, TRACK_DELETE, MAP_CONFIG, MAP_TRAIN,
MAP_ACRE_DELETE. -/
def Obligations.PoseAndMapCommandsAnswer : Prop :=
  ∀ (s : State) (e : Entry),
    (s.Accepts 0x0501 e → s.sched.state ≠ .stopped → (asSub 0x0501 e).p 0 1 = 0 →
      exec (.poseInit e) s = .next (s.addJob (asSub 0x0501 e) (.poseGiven ((asSub 0x0501 e).bytes 0 132))))
    ∧ (s.Accepts 0x0501 e → s.sched.state ≠ .stopped → (asSub 0x0501 e).p 0 1 = 1 →
        exec (.poseInit e) s = .next (s.addJob (asSub 0x0501 e) (.poseAlign ((asSub 0x0501 e).bytes 0 132) none false)))
    ∧ (s.Accepts 0x0501 e → s.sched.state = .stopped →
        exec (.poseInit e) s = .next (s.replyErr (asSub 0x0501 e) errArg))
    ∧ (s.Accepts 0x0502 e → s.poseConfigOk ((asSub 0x0502 e).bytes 0 23) = true →
        exec (.poseConfig e) s = .next (s.addJob (asSub 0x0502 e) (.poseConfig ((asSub 0x0502 e).bytes 0 23))))
    ∧ (s.Accepts 0x0503 e → (asSub 0x0503 e).p 10 1 = 1 → (asSub 0x0503 e).p 0 4 % 64 = 0 →
        2 ≤ (asSub 0x0503 e).p 4 2 → (asSub 0x0503 e).p 4 2 ≤ 1024 →
        (asSub 0x0503 e).p 0 4 + 64 + 96 * (asSub 0x0503 e).p 4 2 ≤ 0x200000 → (asSub 0x0503 e).p 6 2 ≠ 0 →
        (asSub 0x0503 e).p 8 2 ≤ 1024 →
        ∃ sub : PoseSub, exec (.poseSubscribe e) s = .next (((s.windowWrite e.mbx ((asSub 0x0503 e).p 0 4) (natLe 8 0)).updMbx e.mbx
            fun m => { m with poseSub := some sub }).replyOk (asSub 0x0503 e))
          ∧ sub.ringOffset = (asSub 0x0503 e).p 0 4 ∧ sub.ringRecords = (asSub 0x0503 e).p 4 2
          ∧ sub.decimate = (asSub 0x0503 e).p 6 2 ∧ sub.notifyEvery = (asSub 0x0503 e).p 8 2 ∧ sub.delivered = 0)
    ∧ (s.Accepts 0x0503 e → (asSub 0x0503 e).p 10 1 = 0 →
        exec (.poseSubscribe e) s = .next ((s.updMbx e.mbx fun m => { m with poseSub := none }).replyOk (asSub 0x0503 e)))
    ∧ (∀ x, s.Accepts 0x0602 e → s.stored ((asSub 0x0602 e).p 0 4) = some x → ctxOwner x = (s.partOf (asSub 0x0602 e)).val →
        ctxKind x = 2 → exec (.trackDelete e) s = .next (s.addJob (asSub 0x0602 e) (.trackDelete ((asSub 0x0602 e).p 0 4))))
    ∧ (s.Accepts 0x0701 e → mapConfigOk ((asSub 0x0701 e).bytes 0 66) = true →
        exec (.mapConfig e) s = .next (s.addJob (asSub 0x0701 e) (.mapConfig ((asSub 0x0701 e).bytes 0 66))))
    ∧ (s.Accepts 0x0702 e → (asSub 0x0702 e).p 0 1 ≤ 100 →
        exec (.mapTrain e) s = .next (s.addJob (asSub 0x0702 e) (.mapTrain ((asSub 0x0702 e).p 0 1))))
    ∧ (s.Accepts 0x0703 e → (s.acre ((asSub 0x0703 e).p 0 6)).isSome = true →
        ∃ t : State, exec (.mapAcreDelete e) s = .next t
          ∧ t.fw = (s.addJob (asSub 0x0703 e) (.acreDelete ((asSub 0x0703 e).p 0 6) false)).fw
          ∧ t.fld.acres = s.fld.acres.map (fun (a : Acre) => if a.key = (asSub 0x0703 e).p 0 6 then { a with deleting := true } else a)
          ∧ (∀ d ∈ t.fld.dirNext, d.key ≠ (asSub 0x0703 e).p 0 6) ∧ t.fld.dir = s.fld.dir
          ∧ { t with fw := s.fw, fld := s.fld } = s)

/-- What the waiting POSE_, TRACK_, MAP_ and SYNC commands do at the boundary at which they apply, and their completion at its
instant (R123, R216, R218, R229, R230, R252). -/
def Obligations.WaitingCommandsApply : Prop :=
  ∀ (s : State) (j : Job) (dt : Nat),
    (∀ p, j.kind = .poseAlign p none false → s.fw.jobs = [j] →
      State.boundaryJob dt s j = { s with
        fw := { s.fw with jobs := [{ j with kind := .poseAlign p (some dt) false }] }
        fus := { s.fus with alignFrom := some (s.fus.alignFrom.getD dt) } })
    ∧ (∀ p, j.kind = .poseConfig p →
      State.boundaryJob dt s j =
        (State.permitCheck { s with fus := { s.fus with params := poseParamsOf p } }).placeHistory.completeJob j stOk 0 0 0 0 dt)
    ∧ (∀ p, j.kind = .poseGiven p →
        ∃ t : State, State.boundaryJob dt s j = State.completeJob t j stOk 0 0 0 0 dt ∧ t.fus.initialised = true
          ∧ t.fus.ego.dt = dt ∧ t.fus.history = [] ∧ { t with fus := s.fus } = s
          ∧ ∀ k, k < 3 → t.fus.ego.mean[k]? = some (BitVec.ofNat 64 (fieldAt p (8 + 8 * k) 8)))
    ∧ (∀ h, j.kind = .trackDelete h → s.liveHandle (trackSlot h) = h →
        State.boundaryJob dt s j = (s.freeTrack h).completeJob j stOk 0 0 0 0 dt)
    ∧ (∀ p, j.kind = .mapConfig p →
        State.boundaryJob dt s j = State.completeJob { s with fld := { s.fld with
          paramsNext := mapParamsOf p, commitPending := true } } j stOk 0 0 0 0 dt)
    ∧ (∀ n, j.kind = .mapTrain n →
        State.boundaryJob dt s j = State.completeJob { s with fld := { s.fld with ceiling := n } } j stOk 0 0 0 0 dt)
    ∧ (j.kind = .streamSync → State.boundaryJob dt s j = s.softSync.completeJob j stOk 0 0 0 0 dt)
    ∧ (∀ b, j.kind = .syncMode b → State.boundaryJob dt s j = (s.syncMode b).completeJob j stOk 0 0 0 0 dt)

/-- The PLACE_ and SCENE_ commands on an index that the caller may use: a new index is empty at epoch 1 with the handle it answers, a query
joins those that wait, vectors join the insert queue in their order, a delete reads the location table once and leaves a tombstone of the pending
epoch, compaction starts where the namespace has room for the new shard, and destruction starts (R275, R279, R285, R288, R290, R291). Completes: PLACE_CREATE, PLACE_QUERY, PLACE_INSERT, PLACE_DELETE, PLACE_COMPACT,
PLACE_DESTROY, SCENE_LAST_SEEN, SCENE_RESEMBLE. -/
def Obligations.PlaceCommandsAnswer : Prop :=
  ∀ (s : State) (e : Entry),
    (∀ (i : Fin 16) (ix : PsIndex), s.Accepts 0x0801 e → ix.dramPages ≤ s.poolFree ix.part false →
      ix = (asSub 0x0801 e).newIndex (s.partOf (asSub 0x0801 e)) 0 (s.objBytes ((asSub 0x0801 e).p 0 4)) →
      s.objFails (asSub 0x0801 e) ((asSub 0x0801 e).p 0 4) = none → handleType ((asSub 0x0801 e).p 0 4) = 0x09 →
      ix.tables.length = 512 * ix.dim + 131072 * ix.codeBytes → ix.inRange ((asSub 0x0801 e).p 15 1) = true →
      s.nsUsed ix.part + ix.flashBytes * (if ix.mirror then 2 else 1) ≤ s.sec.grants[ix.part].flashBytes →
      ((s.ps.indexes.toList.filterMap id).filter fun x => decide (x.part = ix.part)).length < 4 →
      ((List.finRange 16).find? fun k => s.ps.indexes[k].isNone) = some i →
      (ix.dramPages = 0 → ∃ h, exec (.placeCreate e) s = .next (State.reply { s with
          free := s.free + 1, ps := { s.ps with indexes := s.ps.indexes.set i (some { ix with handle := h }) } }
          (asSub 0x0801 e) stOk h 0 0 0)
        ∧ handleType h = 0x10 ∧ handlePart h = ix.part)
      ∧ (∀ base : Nat, ix.dramPages ≠ 0 → (s.freeRun ix.part 0 ix.dramPages).1 = some base → ∃ (t : State) (h : Nat),
          exec (.placeCreate e) s = .next (t.reply (asSub 0x0801 e) stOk h 0 0 0) ∧ handleType h = 0x10 ∧ handlePart h = ix.part
          ∧ t.ps = { s.ps with indexes := s.ps.indexes.set i (some { ix with handle := h, dramBase := some base }) }
          ∧ t.mem = (s.fillRun base (65536 * ix.dramPages) []).mem ∧ { t with ps := s.ps, mem := s.mem, free := s.free } = s)
      ∧ (ix.dramPages ≠ 0 → (s.freeRun ix.part 0 ix.dramPages).1 = none → ∃ t : State,
          exec (.placeCreate e) s = .next (t.replyErr (asSub 0x0801 e) errNoResource) ∧ { t with free := s.free } = s))
    ∧ (∀ ix, s.Accepts 0x0802 e → s.indexFor (asSub 0x0802 e) (fieldAt ((asSub 0x0802 e).bytes 0 128) 0 4) false = .ok ix →
        queryInRange ((asSub 0x0802 e).bytes 0 128) = true → 2 * ix.dim ≤ (s.bulkIn (asSub 0x0802 e)).length →
        (asSub 0x0802 e).p 128 4 + 32 + 32 * fieldAt ((asSub 0x0802 e).bytes 0 128) 4 2 ≤ e.bulkLength.toNat →
        (∀ v ∈ halves ((s.bulkIn (asSub 0x0802 e)).take (2 * ix.dim)), fp16.finite v = true) →
        ∃ q : PsQuery, exec (.placeQuery e) s = .next (State.takeBatch (State.addJob
            { s with ps := { s.ps with nextQuery := s.ps.nextQuery + 1, queries := s.ps.queries ++ [q] } }
            (asSub 0x0802 e) (.placeQuery s.ps.nextQuery)))
          ∧ q.num = s.ps.nextQuery ∧ q.desc = (asSub 0x0802 e).bytes 0 128 ∧ q.submitDt = s.dtNs
          ∧ q.vec = (s.bulkIn (asSub 0x0802 e)).take (2 * ix.dim)
          ∧ q.outOffset = e.bulkOffset.toNat + (asSub 0x0802 e).p 128 4 ∧ q.taken = none)
    ∧ (∀ ix, s.Accepts 0x0803 e → s.indexFor (asSub 0x0803 e) ((asSub 0x0803 e).p 0 4) false = .ok ix →
        1 ≤ (asSub 0x0803 e).p 4 2 → (asSub 0x0803 e).p 4 2 ≤ 1024 →
        (asSub 0x0803 e).p 4 2 * ((32 + 2 * ix.dim + 63) / 64 * 64) ≤ e.bulkLength.toNat →
        (∀ r ∈ itemsOf (s.bulkIn (asSub 0x0803 e)) ((32 + 2 * ix.dim + 63) / 64 * 64) ((asSub 0x0803 e).p 4 2), fieldAt r 18 1 ≤ 7) →
        ix.queue.length + (asSub 0x0803 e).p 4 2 ≤ 65536 →
        exec (.placeInsert e) s = .next ((s.addJob (asSub 0x0803 e)
          (.placeInsert ix.handle ((asSub 0x0803 e).p 4 2) 0 ((asSub 0x0803 e).p 4 2))).updIndex ix.handle fun i => { i with
            queue := i.queue ++ (itemsOf (s.bulkIn (asSub 0x0803 e)) ((32 + 2 * ix.dim + 63) / 64 * 64) ((asSub 0x0803 e).p 4 2)).map
              (insertOf ix.dim (some (e.mbx, e.tag))) }))
    ∧ (∀ ix, s.Accepts 0x0804 e → s.indexFor (asSub 0x0804 e) ((asSub 0x0804 e).p 0 4) false = .ok ix →
        ((∃ r ∈ ix.dram, r.id = (asSub 0x0804 e).p 8 8 ∧ r.reclaimed = false) ∨ ∃ r ∈ ix.flash, r.id = (asSub 0x0804 e).p 8 8) →
        (∀ t ∈ ix.tombs, t.1 ≠ (asSub 0x0804 e).p 8 8) →
        (ix.tombs.filter fun t => decide (ix.epoch < t.2)).length < 65536 →
        exec (.placeDelete e) s = .next (((s.readLocation ix ((asSub 0x0804 e).p 8 8)).addJob (asSub 0x0804 e)
          (.placeDelete ix.handle ((asSub 0x0804 e).p 8 8))).updIndex ix.handle fun i =>
            { i with tombs := i.tombs ++ [((asSub 0x0804 e).p 8 8, i.epoch + 1)], changed := true })
        ∧ { s.readLocation ix ((asSub 0x0804 e).p 8 8) with mt := s.mt } = s)
    ∧ (∀ ix, s.Accepts 0x0805 e → s.indexFor (asSub 0x0805 e) ((asSub 0x0805 e).p 0 4) false = .ok ix →
        s.sec.grants[ix.part].flashBytes < s.nsUsed ix.part + ix.compactBytes →
        exec (.placeCompact e) s = .next (s.replyErr (asSub 0x0805 e) errNoResource))
    ∧ (∀ ix, s.Accepts 0x0805 e → s.indexFor (asSub 0x0805 e) ((asSub 0x0805 e).p 0 4) false = .ok ix →
        s.nsUsed ix.part + ix.compactBytes ≤ s.sec.grants[ix.part].flashBytes →
        exec (.placeCompact e) s = .next ((s.addJob (asSub 0x0805 e) (.placeCompact ix.handle)).startCompaction ix.handle))
    ∧ (∀ ix, s.Accepts 0x0806 e → s.indexFor (asSub 0x0806 e) ((asSub 0x0806 e).p 0 4) true = .ok ix →
        exec (.placeDestroy e) s = .next (((s.addJob (asSub 0x0806 e) (.placeDestroy ix.handle)).updIndex ix.handle fun i =>
          { i with destroying := true }).destroyIdle ix.handle))
    ∧ (s.Accepts 0x0901 e → exec (.sceneLastSeen e) s = .next (s.submitQuery (asSub 0x0901 e)
        (buildDesc ((asSub 0x0901 e).p 0 4) ((asSub 0x0901 e).p 6 2) (max 128 ((asSub 0x0901 e).p 6 2)) 1 1 1
          ((asSub 0x0901 e).p 8 4) ((asSub 0x0901 e).p 4 2) 2) (s.bulkIn (asSub 0x0901 e)) ((asSub 0x0901 e).p 12 4) true none))
    ∧ (s.Accepts 0x0902 e → (asSub 0x0902 e).p 4 1 = 1 →
        ∃ l b, (asSub 0x0902 e).p 6 2 ≤ l ∧ 16 ≤ l ∧ 1 ≤ b ∧ b ≤ 8 ∧
          exec (.sceneResemble e) s = .next (State.submitQuery { s with free := s.free + 2 } (asSub 0x0902 e)
            (buildDesc ((asSub 0x0902 e).p 0 4) ((asSub 0x0902 e).p 6 2) l b ((asSub 0x0902 e).p 8 1) 0
              ((asSub 0x0902 e).p 12 4) 0 1) (s.bulkIn (asSub 0x0902 e)) ((asSub 0x0902 e).p 16 4) false none))
    ∧ (s.Accepts 0x0902 e → (asSub 0x0902 e).p 4 1 = 0 →
        ∃ l b, (asSub 0x0902 e).p 6 2 ≤ l ∧ 16 ≤ l ∧ 1 ≤ b ∧ b ≤ 8 ∧
          exec (.sceneResemble e) s = .next (State.submitQuery { s with free := s.free + 2 } (asSub 0x0902 e)
            (buildDesc ((asSub 0x0902 e).p 0 4) ((asSub 0x0902 e).p 6 2) l b ((asSub 0x0902 e).p 8 1) 0
              ((asSub 0x0902 e).p 12 4) 0 1) [] ((asSub 0x0902 e).p 16 4) false (some ((asSub 0x0902 e).p 5 1))))

/-- The pieces of MODEL_LOAD and OBJ_LOAD: a piece that continues a load appends its bytes and completes at once with the handle while more
are to come; the first piece of a new object makes one of the type and the partition, in a run of its own; in a device that is not OWNED
no model is loaded (R358 to R360, R399). Completes: MODEL_LOAD, OBJ_LOAD. -/
def Obligations.LoadCommandsAnswer : Prop :=
  ∀ (s : State) (e : Entry),
    (∀ (o : Obj) (op : Nat) (model : Bool) (i : Instr),
      (op = 0x0B01 ∧ model = false ∧ i = .objLoad e ∧ isObjType ((asSub op e).p 4 1) = true)
        ∨ (op = 0x0A01 ∧ model = true ∧ i = .modelLoad e ∧ isModelType ((asSub op e).p 4 1) = true ∧ s.sec.lifecycle = .owned) →
      s.Accepts op e → (asSub op e).p 5 1 ≤ 1 → (asSub op e).p 6 1 ≤ 1 → (asSub op e).p 8 8 = o.size →
      (asSub op e).p 16 8 = o.bytes.length → o.bytes ≠ [] → handlePart ((asSub op e).p 0 4) = s.partOf (asSub op e) →
      handleType ((asSub op e).p 0 4) = (asSub op e).p 4 1 → s.obj ((asSub op e).p 0 4) = some o → o.partialLoad = true →
      o.bytes.length + (s.bulkIn (asSub op e)).length < o.size →
      exec i s = .next ((s.putObj { o with bytes := o.bytes ++ s.bulkIn (asSub op e) }).reply (asSub op e) stOk
        ((asSub op e).p 0 4) 0 0 0))
    ∧ (∀ (op a : Nat) (model : Bool) (i : Instr),
      (op = 0x0B01 ∧ model = false ∧ i = .objLoad e ∧ isObjType ((asSub op e).p 4 1) = true)
        ∨ (op = 0x0A01 ∧ model = true ∧ i = .modelLoad e ∧ isModelType ((asSub op e).p 4 1) = true ∧ s.sec.lifecycle = .owned) →
      s.Accepts op e → (asSub op e).p 5 1 ≤ 1 → (asSub op e).p 6 1 ≤ 1 → (asSub op e).p 16 8 = 0 → (asSub op e).p 0 4 = 0 →
      (s.bulkIn (asSub op e)).length < (asSub op e).p 8 8 →
      s.roomFails (s.partOf (asSub op e)) ((asSub op e).p 8 8) (decide ((asSub op e).p 5 1 = 1))
        (decide ((asSub op e).p 6 1 = 1)) = none →
      (s.freeRun (s.partOf (asSub op e)) 0 (ceilDiv ((asSub op e).p 8 8) 65536)).1 = some a →
      ∃ h, exec i s = .next ((State.putObj { s with free := s.free + 2 } ((asSub op e).firstPiece h a none (s.bulkIn (asSub op e)))).reply
          (asSub op e) stOk h 0 0 0)
        ∧ handleType h = (asSub op e).p 4 1 ∧ handlePart h = s.partOf (asSub op e))
    ∧ (s.Accepts 0x0A01 e → s.sec.lifecycle ≠ .owned →
        exec (.modelLoad e) s = .next (s.replyErr (asSub 0x0A01 e) errLocked))

/-- The commands on a loaded object: a placement that does not grow drops flash copies, a promotion joins or starts, a pin counts for the
mailbox, the pin of the mailbox is taken back, an eviction waits while the object is pinned (a pin that comes before the drop makes the drop wait too), and an
unload waits for the boundary; a filter set that an inertial input is bound to is neither evicted nor unloaded (R110, R306 to R308). Completes: OBJ_PLACE, OBJ_PROMOTE, OBJ_PIN, OBJ_UNPIN, OBJ_EVICT, OBJ_UNLOAD. -/
def Obligations.ObjectCommandsAnswer : Prop :=
  ∀ (s : State) (e : Entry) (o : Obj),
    (s.Accepts 0x0B02 e → s.usableObj (asSub 0x0B02 e) = .ok o → (asSub 0x0B02 e).p 4 1 = 0 → (asSub 0x0B02 e).p 5 1 ≤ 1 →
      o.pins = [] → o.promoting = [] → s.objWriting o = false → o.whole = true →
      exec (.objPlace e) s = .next (((s.updObj o.handle fun o => { o with
        backed := false, mirror := decide ((asSub 0x0B02 e).p 5 1 = 1) }).dropCopies o.handle false).replyOk (asSub 0x0B02 e)))
    ∧ (∀ t : State, s.Accepts 0x0B03 e → s.usableObj (asSub 0x0B03 e) = .ok o → o.backed = true →
        s.promote o.handle e.mbx.val = (none, t) →
        exec (.objPromote e) s = .next ((t.addJob (asSub 0x0B03 e) (.objPromote o.handle)).promoted o.handle))
    ∧ (∀ (d : Nat) (t : State), s.Accepts 0x0B03 e → s.usableObj (asSub 0x0B03 e) = .ok o → o.backed = true →
        s.promote o.handle e.mbx.val = (some d, t) →
        exec (.objPromote e) s = .next (t.reply (asSub 0x0B03 e) errNoResource 0 d 0 0))
    ∧ (s.Accepts 0x0B04 e → s.usableObj (asSub 0x0B04 e) = .ok o → o.whole = true →
        exec (.objPin e) s = .next ((s.updObj o.handle fun o => { o with
          pins := o.pins ++ [.pinned e.mbx.val], evictPending := o.evictPending || o.dropping, dropping := false }).replyOk
            (asSub 0x0B04 e)))
    ∧ (s.Accepts 0x0B05 e → s.usableObj (asSub 0x0B05 e) = .ok o → Pin.pinned e.mbx.val ∈ o.pins →
        exec (.objUnpin e) s = .next ((s.unpin o.handle (.pinned e.mbx.val)).replyOk (asSub 0x0B05 e)))
    ∧ (s.Accepts 0x0B06 e → s.usableObj (asSub 0x0B06 e) = .ok o → o.backed = true → s.boundFilter o.handle = false →
        exec (.objEvict e) s = .next ((s.updObj o.handle fun o =>
          if o.pins = [] ∧ o.promoting = [] then { o with dropping := true } else { o with evictPending := true }).addJob
            (asSub 0x0B06 e) (.objEvict o.handle)))
    ∧ (s.Accepts 0x0B06 e → s.usableObj (asSub 0x0B06 e) = .ok o → (o.backed = false ∨ s.boundFilter o.handle = true) →
        exec (.objEvict e) s = .next (s.replyErr (asSub 0x0B06 e) errArg))
    ∧ (s.Accepts 0x0B07 e → s.objFor (asSub 0x0B07 e) = .ok o → o.freeing = false → o.loaded = true → s.boundFilter o.handle = false →
        (∀ p ∈ o.pins, p = .pinned e.mbx.val ∨ p = .promoted e.mbx.val) →
        exec (.objUnload e) s = .next ((s.updObj o.handle fun o => { o with freeing := true }).addJob (asSub 0x0B07 e)
          (.objUnload o.handle)))

/-- The security commands: a piece of an image goes to its slot, an activated image becomes the preferred one, a rotation without old pages
waits for the boundary, and a report is signed over its body with a fresh leaf (R320, R403, R409, R410). Completes: KEY_ROTATE,
ATTEST_REPORT, FW_WRITE, FW_ACTIVATE. -/
def Obligations.SecurityCommandsAnswer : Prop :=
  ∀ (s : State) (e : Entry),
    (s.Accepts 0x0F01 e → (asSub 0x0F01 e).p 0 4 = 0 → (s.bulkIn (asSub 0x0F01 e)).length ≤ (asSub 0x0F01 e).p 4 4 →
      s.dev.phase = .ready → s.dev.hostPortBoot = false → (asSub 0x0F01 e).p 4 4 ≠ 5828 →
      exec (.fwWrite e) s = .next (State.replyOk { s with sec := { s.sec with
        staged := { bytes := s.bulkIn (asSub 0x0F01 e), total := (asSub 0x0F01 e).p 4 4 }
        slots := s.sec.slots.set (if s.dev.fwSlot then 0 else 1)
          { bytes := s.bulkIn (asSub 0x0F01 e), total := (asSub 0x0F01 e).p 4 4 }
          (by cases s.dev.fwSlot <;> decide) } } (asSub 0x0F01 e)))
    ∧ (s.Accepts 0x0F02 e → s.dev.phase = .ready → s.sec.staged.bytes.length = s.sec.staged.total →
        5828 < s.sec.staged.bytes.length → s.sec.fwCheck s.sec.staged.bytes = .passed →
        ∃ t : State, exec (.fwActivate e) s = .next t ∧ t.sec.preferred = !s.dev.fwSlot ∧ t.sec.staged = FwImage.empty
          ∧ t.sec.slots = s.sec.slots ∧ t.sec.keptCopy = s.sec.keptCopy ∧ t.dev = s.dev)
    ∧ (s.Accepts 0x0F02 e → s.sec.staged.bytes = [] → exec (.fwActivate e) s = .next (s.replyErr (asSub 0x0F02 e) errArg))
    ∧ (∀ n : Fin 5, s.Accepts 0x0D01 e → s.nsOf (asSub 0x0D01 e) = some n → s.oldPages n = 0 →
        (∀ j ∈ s.fw.jobs, j.kind ≠ .keyRotate n.val) → s.sec.rngOk = true →
        exec (.keyRotate e) s = .next (s.addJob (asSub 0x0D01 e) (.keyRotate n.val)))
    ∧ (∀ n : Fin 5, s.Accepts 0x0D01 e → s.nsOf (asSub 0x0D01 e) = some n → s.oldPages n ≠ 0 →
        (∀ j ∈ s.fw.jobs, j.kind ≠ .keyRotate n.val) →
        exec (.keyRotate e) s = .next (s.reply (asSub 0x0D01 e) errBusyRekey 0 (s.oldPages n) 0 0))
    ∧ (s.Accepts 0x0E01 e → s.sec.rngOk = true → s.sec.leafNext < 2 ^ 30 →
        (s.sec.reports.filter fun t => decide (s.dtNs < t + 1000000000)).length < 10 →
        (s.reportBody (s.partOf (asSub 0x0E01 e)) ((asSub 0x0E01 e).bytes 0 32)).length + 5492 ≤ e.bulkLength.toNat →
        ∃ (t : State) (report : List Byte), exec (.attestReport e) s = .next (t.replyOut (asSub 0x0E01 e) report report.length 0 0 0)
          ∧ report.take (s.reportBody (s.partOf (asSub 0x0E01 e)) ((asSub 0x0E01 e).bytes 0 32)).length =
              s.reportBody (s.partOf (asSub 0x0E01 e)) ((asSub 0x0E01 e).bytes 0 32)
          ∧ t.sec.leafNext = s.sec.leafNext + 1 ∧ { t with sec := s.sec } = s)

/-- PART_GRANT and PART_RELEASE of a partition other than 0 with no grant to come: the grant waits for its scrub, which starts at once where
the partition runs no image; a conflict completes with `ERR_NO_RESOURCE` and the resource (R356, R405, R407). Completes: PART_GRANT,
PART_RELEASE. -/
def Obligations.GrantCommandsAnswer : Prop :=
  ∀ (s : State) (e : Entry) (p : Fin 4),
    (s.Accepts 0x0C01 e → (asSub 0x0C01 e).p 0 1 = p.val → p ≠ 0 → s.granting p = false → (asSub 0x0C01 e).grant.inRange = true →
      s.grantConflict p (asSub 0x0C01 e).grant = none →
      exec (.partGrant e) s = .next (s.queueScrub (asSub 0x0C01 e) p (some (asSub 0x0C01 e).grant)))
    ∧ (∀ r, s.Accepts 0x0C01 e → (asSub 0x0C01 e).p 0 1 = p.val → p ≠ 0 → s.granting p = false →
        (asSub 0x0C01 e).grant.inRange = true → s.grantConflict p (asSub 0x0C01 e).grant = some r →
        exec (.partGrant e) s = .next (s.reply (asSub 0x0C01 e) errNoResource r 0 0 0))
    ∧ (s.Accepts 0x0C02 e → (asSub 0x0C02 e).p 0 1 = p.val → p ≠ 0 → s.granting p = false →
        exec (.partRelease e) s = .next (s.queueScrub (asSub 0x0C02 e) p none))
    ∧ (s.Accepts 0x0C02 e → (asSub 0x0C02 e).p 0 1 = p.val → p ≠ 0 → s.granting p = true →
        exec (.partRelease e) s = .next (s.replyErr (asSub 0x0C02 e) errScrubbing))
    ∧ (∀ (c : SubEntry) (g : Option Grant), s.sched.running[p] ≠ none → ∃ t : State, s.queueScrub c p g = t
        ∧ t.sec.scrubs = s.sec.scrubs ++ [{ part := p, grant := g, begun := false, running := false, done := false, start := 0 }]
        ∧ t.sec.grants = s.sec.grants ∧ t.mbx = s.mbx)
    ∧ (∀ x : Scrub, x.part = p → (s.beginScrub x).sec.grants[p].state = 2)

/-- The SCHED_ commands that change state, each with what it leaves alone: a load that passes every check occupies the lowest empty slot, and
one that fails says which check; a start with rungs 0 and 5 resident of one length runs from the first grain 2 ms or more ahead, with the
ego state uninitialised, and changes no memory but the runs that the track table and the fusion history take where they have none; a
stop begins and waits for its boundary, or is over at once with no schedule; a selection of any of the three modes waits for its latch, in
a stopped schedule it is recorded at once; a slot mode names a resident image of the partition, of the span length while a schedule runs,
and partition 0 is never paused; an unload frees its slot (R54, R57, R66, R77, R81, R225, R226). Completes: SCHED_LOAD, SCHED_START,
SCHED_STOP, SCHED_SELECT, SCHED_UNLOAD. -/
def Obligations.ScheduleCommandsAnswer : Prop :=
  ∀ (s : State) (e : Entry),
    (∀ k : Fin 64, s.Accepts 0x0201 e → fieldAt (s.bulkIn (asSub 0x0201 e)) 18 1 = (s.partOf (asSub 0x0201 e)).val →
      s.loadFails (s.bulkIn (asSub 0x0201 e)) = none →
      ((List.finRange 64).find? fun k => s.sched.slots[k].isNone) = some k →
      exec (.schedLoad e) s =
        .next ((s.placeImage k (parseImage (s.bulkIn (asSub 0x0201 e)))).reply (asSub 0x0201 e) stOk k.val 0 0 0))
    ∧ (∀ f : LoadFail, s.Accepts 0x0201 e → fieldAt (s.bulkIn (asSub 0x0201 e)) 18 1 = (s.partOf (asSub 0x0201 e)).val →
        s.loadFails (s.bulkIn (asSub 0x0201 e)) = some f →
        exec (.schedLoad e) s = .next ((s.event 0x00 0x0007 f.check f.detail f.deficit).reply (asSub 0x0201 e) f.status
          f.check f.detail f.deficit 0))
    ∧ (∀ (a b : Fin 64) (x y : Image), s.Accepts 0x0202 e → s.sched.state = .stopped → s.timeReady = true →
        (a, x) ∈ s.familyOf 0 ((asSub 0x0202 e).p 0 8) → x.rung = 0 → (b, y) ∈ s.familyOf 0 ((asSub 0x0202 e).p 0 8) → y.rung = 5 →
        s.oddLength (fun p => (asSub 0x0202 e).p (8 * p.val) 8) = none →
        (∀ p : Fin 4, (asSub 0x0202 e).p (8 * p.val) 8 ≠ 0 → s.sec.grants[p].state ≠ 2) →
        ∃ t : State, exec (.schedStart e) s = .next t ∧ t.sched.state = .running ∧ t.sched.beforeS0 = true
          ∧ t.sched.nextBoundary % 1000 = 0 ∧ s.dtNs + 2000000 ≤ t.sched.nextBoundary
          ∧ t.sched.nextBoundary < s.dtNs + 2001000 ∧ t.sched.spanCount = 0 ∧ t.sched.running = Vector.replicate 4 none
          ∧ t.sched.slots = s.sched.slots ∧ t.sched.fence = s.sched.fence ∧ t.sched.hostRung = s.sched.hostRung
          ∧ t.fw.jobs.map (fun j => (j.mbx, j.tag, j.opcode)) =
              (s.addJob (asSub 0x0202 e) .schedStart).fw.jobs.map (fun j => (j.mbx, j.tag, j.opcode))
          ∧ t.fus.initialised = false ∧ t.fus.seq = 0 ∧ t.fus.params = s.fus.params ∧ t.fus.frameId = s.fus.frameId
          ∧ t.port.irqStatus = s.port.irqStatus ||| irqState
          ∧ (s.fus.tableBase ≠ none → t.fus.tableBase = s.fus.tableBase)
          ∧ (∀ h, s.fus.tableBase ≠ none → s.fus.historyRun = some h → h.2 = historyPages s.fus.params.retroSpans →
              t.mem = s.mem ∧ t.fus.historyRun = some h ∧ t.free = s.free)
          ∧ (memWf s.mem = true → ∀ a, (∀ b, t.fus.tableBase = some b → a < b ∨ b + trackTableBytes ≤ a) →
              (∀ h, s.fus.historyRun = some h ∨ t.fus.historyRun = some h → a < h.1 ∨ h.1 + 65536 * h.2 ≤ a) →
              memRead t.mem a = memRead s.mem a)
          ∧ { t with sched := s.sched, fw := s.fw, fus := s.fus, port := s.port, pins := s.pins, mem := s.mem, free := s.free } = s)
    ∧ (s.Accepts 0x0203 e → s.sched.state = .stopped → exec (.schedStop e) s = .next (s.replyOk (asSub 0x0203 e)))
    ∧ (s.Accepts 0x0203 e → s.sched.state ≠ .stopped →
        ∃ t : State, exec (.schedStop e) s = .next t ∧ t.sched.state = .stopping
          ∧ t.fw = (s.addJob (asSub 0x0203 e) .schedStop).fw ∧ { t.sched with state := s.sched.state } = s.sched
          ∧ t.pins.motionPermit = (s.pins.motionPermit && !s.permitService)
          ∧ (s.permitService = false → { t with sched := s.sched, fw := s.fw } = s)
          ∧ ((∀ i : Fin 8, s.mbx[i].poseSub = none) → t.mem = s.mem)
          ∧ { t with sched := s.sched, fw := s.fw, fus := s.fus, pins := s.pins, port := s.port, mbx := s.mbx, evr := s.evr,
                     mem := s.mem } = s)
    ∧ (∀ (p : Fin 4) (m r sl : Nat), s.Accepts 0x0204 e → s.partOf (asSub 0x0204 e) = p → (asSub 0x0204 e).p 0 1 = m →
        (asSub 0x0204 e).p 1 1 = r → (asSub 0x0204 e).p 2 1 = sl → m ≤ 2 → r ≤ 5 → sl ≤ 63 → s.sec.grants[p].state ≠ 2 →
        (m = 2 → p ≠ 0) →
        (m = 1 → ∃ (k : Fin 64) (img : Image), k.val = sl ∧ s.sched.slots[k] = some img ∧ img.partition = p
          ∧ (s.sched.state = .running → img.spanGrains = s.sched.spanGrains.toNat)) →
        (s.sched.state = .running → exec (.schedSelect e) s = .next (s.addJob (asSub 0x0204 e) (.schedSelect m r sl false)))
        ∧ (s.sched.state = .stopped →
            exec (.schedSelect e) s = .next ((s.addJob (asSub 0x0204 e) (.schedSelect m r sl true)).applySelect p m r sl)))
    ∧ (∀ (c : SubEntry) (k : JobKind), ∃ j : Job, s.addJob c k = { s with fw := { s.fw with jobs := s.fw.jobs ++ [j] } }
        ∧ j.kind = k ∧ j.mbx = c.entry.mbx ∧ j.tag = c.entry.tag ∧ j.opcode = c.opcode)
    ∧ (∀ (p : Fin 4) (r sl : Nat) (k : Fin 64), k.val = sl →
        s.applySelect p 0 r sl = { s with sched := { s.sched with hostRung := s.sched.hostRung.set p r } }
        ∧ s.applySelect p 1 r sl = { s with sched := { s.sched with
            named := s.sched.named.set p (some k), hostPause := s.sched.hostPause.set p false } }
        ∧ s.applySelect p 2 r sl = { s with sched := { s.sched with
            named := s.sched.named.set p none, hostPause := s.sched.hostPause.set p true } })
    ∧ (s.Accepts 0x0204 e → (asSub 0x0204 e).p 0 1 = 2 → s.partOf (asSub 0x0204 e) = 0 → s.sec.grants[(0 : Fin 4)].state ≠ 2 →
        exec (.schedSelect e) s = .next (s.replyErr (asSub 0x0204 e) errArg))
    ∧ (∀ (k : Fin 64) (img : Image), s.Accepts 0x0205 e → (asSub 0x0205 e).p 0 1 = k.val → s.sched.slots[k] = some img →
        img.partition = s.partOf (asSub 0x0205 e) → s.sec.grants[img.partition].state ≠ 2 →
        (s.sched.state = .stopped ∨ ((∀ p : Fin 4, s.sched.running[p] ≠ some k) ∧ ∀ p : Fin 4, s.sched.latchSlot[p] ≠ some k)) →
        ∃ t : State, exec (.schedUnload e) s = .next (t.replyOk (asSub 0x0205 e)) ∧ t.sched.slots = s.sched.slots.set k none
          ∧ (∀ p : Fin 4, t.sched.named[p] = if s.sched.named[p] = some k then none else s.sched.named[p])
          ∧ { t.sched with slots := s.sched.slots, named := s.sched.named } = s.sched
          ∧ { t.tu with trigs := s.tu.trigs } = s.tu ∧ t.pins = s.pins ∧ t.flags = s.flags
          ∧ (img.objects = [] → { t with sched := s.sched, tu := s.tu } = s))

/-- SCHED_START and the time requirement (R30): with REQUIRE_LOCK 1 it completes with `ERR_TIME_UNLOCKED` unless DT is aligned and a base is
LOCKED; with both, and with REQUIRE_LOCK 0 whatever the bases are, a start that passes the other tests runs the schedule. Completes:
SCHED_START. -/
def Obligations.StartNeedsTime : Prop :=
  ∀ (s : State) (e : Entry), s.Accepts 0x0202 e → s.sched.state = .stopped →
    (s.tu.requireLock = true → ¬ (s.tu.aligned = true ∧ (s.tu.baseA.state = .locked ∨ s.tu.baseB.state = .locked)) →
      exec (.schedStart e) s = .next (s.replyErr (asSub 0x0202 e) errTime))
    ∧ (∀ (a b : Fin 64) (x y : Image),
        (s.tu.requireLock = false ∨ (s.tu.aligned = true ∧ (s.tu.baseA.state = .locked ∨ s.tu.baseB.state = .locked))) →
        (a, x) ∈ s.familyOf 0 ((asSub 0x0202 e).p 0 8) → x.rung = 0 → (b, y) ∈ s.familyOf 0 ((asSub 0x0202 e).p 0 8) → y.rung = 5 →
        s.oddLength (fun p => (asSub 0x0202 e).p (8 * p.val) 8) = none →
        (∀ p : Fin 4, (asSub 0x0202 e).p (8 * p.val) 8 ≠ 0 → s.sec.grants[p].state ≠ 2) →
        ∃ t : State, exec (.schedStart e) s = .next t ∧ t.sched.state = .running)

/-- The commands and events of resets and parking that come by mailbox: SYS_RESET answers and waits for its delay, at whose end the warm reset
has cause bit 2; SYS_PARK waits for the stop boundary, or is ready at once with no schedule; PWR_CAP sets the cap, ends the one before it
with `ERR_ARG` and 2, and waits; REC_SUBSCRIBE replaces the subscription (R356, R362, R383, R391, R432). Completes: SYS_RESET,
SYS_RESET_DELAY_EXPIRY, SYS_PARK, PWR_CAP, REC_SUBSCRIBE. -/
def Obligations.SystemCommandsAnswer : Prop :=
  ∀ (s : State) (e : Entry),
    (s.Accepts 0x0102 e → (asSub 0x0102 e).p 0 1 = 0 → s.pins.thermtripN = true →
      ∃ t : State, exec (.sysReset e) s = .next t ∧ t.dev = { s.dev with resetPending := true }
        ∧ { t with dev := s.dev } = s.replyOk (asSub 0x0102 e))
    ∧ (s.dev.resetPending = true → s.dev.inReset = false → s.pins.thermtripN = true →
        ∃ t : State, exec .sysResetDelayExpiry s = .next t ∧ t.dev.phase = .warmReset ∧ t.dev.resetCause = 4
          ∧ t.dev.resetPending = false ∧ t.sec.grants = s.sec.grants ∧ t.sched.slots = s.sched.slots
          ∧ (s.dev.everReady = true → t.mem = s.mem) ∧ t.pm.capMw = s.pm.capMw ∧ t.sched.state = .stopped ∧ t.pins.motionPermit = false ∧ t.pins.faultN = false)
    ∧ (s.dev.resetPending = false → exec .sysResetDelayExpiry s = .next s)
    ∧ (s.Accepts 0x0103 e → s.sched.state = .stopped →
        ∃ t : State, exec (.sysPark e) s = .next t ∧ t.dev = { s.dev with parkReady := true }
          ∧ { t with dev := s.dev } = s.replyOk (asSub 0x0103 e))
    ∧ (s.Accepts 0x0103 e → s.sched.state ≠ .stopped →
        exec (.sysPark e) s = .next (s.addJob (asSub 0x0103 e) .sysPark).beginStop)
    ∧ (s.Accepts 0x1001 e → 1000 ≤ (asSub 0x1001 e).p 0 4 → (asSub 0x1001 e).p 0 4 ≤ 35000 →
        (∀ j ∈ s.fw.jobs, j.kind ≠ .pwrCap) →
        exec (.pwrCap e) s = .next (State.addJob { s with pm := { s.pm with capMw := BitVec.ofNat 32 ((asSub 0x1001 e).p 0 4) } }
          (asSub 0x1001 e) .pwrCap))
    ∧ (∀ j, s.Accepts 0x1001 e → 1000 ≤ (asSub 0x1001 e).p 0 4 → (asSub 0x1001 e).p 0 4 ≤ 35000 →
        (s.fw.jobs.filter fun j => decide (j.kind = .pwrCap)) = [j] →
        ∃ t : State, t = s.completeJob j errArg 2 0 0 0 s.dtNs ∧
          exec (.pwrCap e) s = .next (State.addJob { t with pm := { t.pm with capMw := BitVec.ofNat 32 ((asSub 0x1001 e).p 0 4) } }
            (asSub 0x1001 e) .pwrCap))
    ∧ (s.Accepts 0x1001 e → ¬ (1000 ≤ (asSub 0x1001 e).p 0 4 ∧ (asSub 0x1001 e).p 0 4 ≤ 35000) →
        exec (.pwrCap e) s = .next (s.replyErr (asSub 0x1001 e) errArg))
    ∧ (s.Accepts 0x1101 e → (asSub 0x1101 e).p 0 1 ≤ 3 →
        exec (.recSubscribe e) s = .next ((s.updMbx e.mbx fun m => { m with
          subSources := BitVec.ofNat 256 ((asSub 0x1101 e).p 4 32)
          subSeverity := BitVec.ofNat 8 ((asSub 0x1101 e).p 0 1) }).replyOk (asSub 0x1101 e)))

/-- The checks of R347 in their order: the opcode, the partition, partition 0's commands, the device state, the tag, the flags,
the reserved bytes, the payload, and the bulk range; the first that fails decides the status and the offset. A command that fails
one, with no entry of the queue before it, is not carried out, and completes with that status and the entry byte offset of the failing
field. -/
def Obligations.ChecksComeInOrder : Prop :=
  (∀ (s : State) (c : SubEntry) (f : CmdForm),
      let e := c.entry
      let m := s.mbx[e.mbx]
      (cmdForm c.opcode.toNat = none → s.acceptCheck c = some (0x0101, 0))
      ∧ (cmdForm c.opcode.toNat = some f →
        (e.partition.toNat ≠ m.partition.val → s.acceptCheck c = some (0x0103, 4))
        ∧ (e.partition.toNat = m.partition.val → f.p0 = true → m.partition ≠ 0 → s.acceptCheck c = some (0x0103, 0))
        ∧ (e.partition.toNat = m.partition.val → (f.p0 = true → m.partition = 0) →
          (s.serves e.mbx c.opcode = false → s.acceptCheck c = some (0x0104, 0xFFFFFFFF))
          ∧ (s.serves e.mbx c.opcode = true →
            ((0xFEFF < e.tag.toNat ∨ e.tag ∈ s.accepted e.mbx) → s.acceptCheck c = some (0x0102, 2))
            ∧ (e.tag.toNat ≤ 0xFEFF → e.tag ∉ s.accepted e.mbx →
              (1 < e.flags.toNat → s.acceptCheck c = some (0x0102, 5))
              ∧ (e.flags.toNat ≤ 1 → e.reserved ≠ 0 → s.acceptCheck c = some (0x0102, 6))
              ∧ (∀ off, e.flags.toNat ≤ 1 → e.reserved = 0 → f.badByte c.opcode.toNat e.payload = some off → s.acceptCheck c = some (0x0102, off))
              ∧ (e.flags.toNat ≤ 1 → e.reserved = 0 → f.badByte c.opcode.toNat e.payload = none →
                ((e.bulkOffset.toNat % 64 ≠ 0 ∨ 0x200000 < e.bulkOffset.toNat) → s.acceptCheck c = some (0x0102, 8))
                ∧ (e.bulkOffset.toNat % 64 = 0 → e.bulkOffset.toNat ≤ 0x200000 →
                  (0x200000 < e.bulkOffset.toNat + e.bulkLength.toNat → s.acceptCheck c = some (0x0102, 12))
                  ∧ (e.bulkOffset.toNat + e.bulkLength.toNat ≤ 0x200000 → (e.bulkLength = 0 ∨ m.bulkMapped = true) →
                    s.acceptCheck c = none))))))))
  ∧ (∀ (s : State) (op : Nat) (e : Entry) (act : SubEntry → State → State) (st off : Nat),
      s.takes e.mbx = true → s.fw.queue = [] → s.inFlight e.mbx < 64 → s.orderedWaits e = false →
      s.acceptCheck (asSub op e) = some (st, off) →
      s.serve op e act = s.reply (asSub op e) st 0 0 0 off)

/-! ## The span schedule (chapters 3, 7, 23) -/

/-- NOP, WAIT, SETF and END complete as they issue: the section moves on by one operation, the flag waited on is taken with
CLEAR_ON_ISSUE, the flag of an operation that sets one is SET afterwards, a core or a vision engine counts the operation, and memory
and every unit that runs stay; an operation that may not issue changes nothing. A BARRIER whose arrival is noted waits until every
target of its mask has arrived, and then issues and completes in the same way; one that arrives first is noted and waits. The conditions
of issue of a target that runs one operation at a time are those of R67 (R65, R67, R156, R180). Completes: NOP, WAIT, SETF, BARRIER,
END. -/
def Obligations.CommonOperationsComplete : Prop :=
  (∀ (s : State) (t : Target) (n : NextOp) (i : Instr) (code : Nat),
      (i, code) ∈ [(Instr.nop t, 0x00), (Instr.waitOp t, 0x01), (Instr.setf t, 0x02), (Instr.endOp t, 0x05)] →
      (s.Issues t code none n →
        ∃ u : State, exec i s = .next u ∧ (u.seq t).next = (s.seq t).next + 1 ∧ (u.seq t).running = (s.seq t).running
          ∧ (∀ f, n.op.sets = some f → u.flag f = some .set)
          ∧ (n.op.sets = none → n.op.clearOnIssue = false → u.flags = s.flags)
          ∧ (n.op.sets = none → n.op.clearOnIssue = true → u.flags = mapDel s.flags n.op.waitFlag)
          ∧ (∀ c : Fin 8, t = .core c → u.cores[c] = { s.cores[c] with ops := countUp s.cores[c].ops 1 })
          ∧ (∀ v : Fin 4, visOf t = some v → u.vis[v] = { s.vis[v] with ops := countUp s.vis[v].ops 1 })
          ∧ (∀ d : Fin 8, t ≠ .core d → u.cores[d] = s.cores[d])
          ∧ (∀ v : Fin 4, visOf t ≠ some v → u.vis[v] = s.vis[v])
          ∧ { u with sched := s.sched, flags := s.flags, sm := s.sm, pm := s.pm, cores := s.cores, vis := s.vis } = s)
      ∧ (s.nextOp t = some n → n.op.opcode = code → s.mayIssue t n.op none = false → exec i s = .next s)
      ∧ (s.nextOp t = none → exec i s = .next s))
  ∧ (∀ (s : State) (t : Target) (n : NextOp), s.Issues t 0x03 none n →
      (n.op.argA ∈ (s.seq t).barriers → (s.barrierAbsent n.part n.op.argA n.op.argB) = [] →
        ∃ u : State, exec (.barrier t) s = .next u ∧ (u.seq t).next = (s.seq t).next + 1 ∧ (u.seq t).running = (s.seq t).running
          ∧ (∀ f, n.op.sets = some f → u.flag f = some .set)
          ∧ (n.op.sets = none → n.op.clearOnIssue = false → u.flags = s.flags)
          ∧ { u with sched := s.sched, flags := s.flags, sm := s.sm, pm := s.pm, cores := s.cores, vis := s.vis } = s)
      ∧ (n.op.argA ∈ (s.seq t).barriers → (s.barrierAbsent n.part n.op.argA n.op.argB) ≠ [] → exec (.barrier t) s = .next s)
      ∧ (n.op.argA ∉ (s.seq t).barriers →
        (∀ u : State, u = (s.onSeq t fun q => { q with barriers := n.op.argA :: q.barriers }) →
          u.barrierAbsent n.part n.op.argA n.op.argB ≠ [] → exec (.barrier t) s = .next u)))
  ∧ (∀ (s : State) (t : Target) (o : Op) (u : Option OpUnit), (∀ c, t ≠ .core c) → t ≠ .ife → t ≠ .ps →
      (s.mayIssue t o u = true ↔
        s.sched.state ≠ .stopped ∧ s.sched.beforeS0 = false ∧ s.sched.spanStart.toNat + 400 ≤ s.dtNs
          ∧ (s.seq t).halted = false ∧ o.earliest ≤ s.grain ∧ (o.wait = true → s.flag o.waitFlag = some .set)
          ∧ (s.seq t).running = []))

/-- An operation of the stream manager, of the front end, of the vision engines, of the place search engine's filing unit, of
the mover or of the solver's commit that may issue starts, and so does an operation of a core or a DMA, whatever its check will find on
a core: the section moves on by one, the unit runs it from now on for the cycles that its chapter gives, and what it will write is
computed from memory as it issues: a warped image with its header, the levels of a pyramid, the rows of a product or of a vector
operation, the rows that a DMA copies (R67, R93, R136, R139, R161, R170, R173, R192, R459). Completes: TAKE, RELEASE, IFE_EMIT, PW_WARP,
PW_PYRAMID, FE_DETECT, TRK_RUN, FTH_STRIPE, PS_FILE, MV_WINDOW, SLV_COMMIT, ARR_MM, ARR_CONV, VEC_OP, DMA. -/
def Obligations.OperationsStart : Prop :=
  (∀ (s : State) (tg : Target) (n : NextOp) (i : Instr) (code cycles : Nat) (u : OpUnit) (ws : List MemWrite),
      (∃ p : Fin 4, (i, tg, code, u, cycles, ws) ∈ [
        (Instr.take p, Target.sm p, 0x10, OpUnit.main, 64 + 4 * fieldAt (s.takeUnits n.op.channel).1 2 2,
          [poolWrite (n.arg 0 4) (s.takeUnits n.op.channel).1]),
        (.release p, .sm p, 0x11, .main, 16, []), (.ifeEmit, .ife, 0x10, .main, 0, []),
        (.psFile, .ps, 0x11, .vector, ((s.issued .ps n.op).fileList n.img n.op).foldl (fun c r => c + 4 * ceilDiv r.length 64) 64, []),
        (.mvWindow, .mv, 0x10, .main, 0, []),
        (.slvCommit, .slv, 0x12, .main, 2064 + 24 * ((s.issued .slv n.op).commitList (n.arg 0 8)).length, [])]) →
      s.Issues tg code (some u) n → ∃ t : State, exec i s = .next t ∧ s.StartedWith t tg u n cycles ws
        ∧ { t with sched := s.sched, flags := s.flags, sm := s.sm, mem := s.mem, ife := s.ife, mt := s.mt } = s)
  ∧ (∀ (s t : State) (tg : Target) (n : NextOp) (i : Instr) (code : Nat),
      (i, tg, code, t) ∈ [(Instr.pwWarp, Target.pw, 0x10, (s.issued .pw n.op).warpOp n), (.pwPyramid, .pw, 0x11, (s.issued .pw n.op).pyramidOp n),
        (.feDetect, .fe, 0x10, (s.issued .fe n.op).detectOp n), (.trkRun, .trk, 0x10, (s.issued .trk n.op).trackOp n),
        (.fthStripe, .fth, 0x10, (s.issued .fth n.op).stripeOp n)] →
      s.Issues tg code (some .main) n → exec i s = .next t ∧ s.Started t tg .main n
        ∧ { t with sched := s.sched, flags := s.flags, sm := s.sm, vis := s.vis, evr := s.evr, free := s.free } = s)
  ∧ (∀ (s : State) (n : NextOp) (map : Option (List Byte)), s.Issues .pw 0x10 (some .main) n →
      map = (if n.arg 32 2 = 0xFFFF then none else some ((s.issued .pw n.op).objBytes (n.img.objects.getD (n.arg 32 2) 0))) →
      ∃ t : State, exec .pwWarp s = .next t ∧ s.StartedWith t .pw .main n (ceilDiv ((n.img16 16).width * n.arg 36 2) 2 + 16)
        ((List.range (n.arg 36 2)).map (fun r => poolWrite ((n.img16 16).row (n.arg 34 2 + r))
            ((s.issued .pw n.op).warpRow map (n.img16 0) (n.img16 16) (n.arg 38 1) (n.arg 34 2 + r)).1)
          ++ [poolWrite (n.img16 16).addr (visionHdr ((s.issued .pw n.op).srcHdr (n.img16 0)) 0 0 0 (n.img16 16).width (n.img16 16).height
            (n.arg 34 2 + n.arg 36 2))]))
  ∧ (∀ (s : State) (c : Fin 8) (chk : Check) (n : NextOp),
      (∀ (i : Instr) (code : Nat) (conv : Bool), (i, code, conv) ∈ [(Instr.arrMm c chk, 0x10, false), (.arrConv c chk, 0x11, true)] →
        s.Issues (.core c) code (some .main) n →
        ∃ t : State, exec i s = .next t ∧ s.StartedWith t (.core c) .main n (arrCycles (n.img.arr n.op.argB) conv)
            ((s.issued (.core c) n.op).arrResult n.part (n.img.arr n.op.argB) conv s.cores[c].stoch[(0 : Fin 2)]).1
          ∧ { t.cores[c] with stoch := s.cores[c].stoch } = s.cores[c] ∧ (∀ d, d ≠ c → t.cores[d] = s.cores[d])
          ∧ { t with sched := s.sched, flags := s.flags, sm := s.sm, pm := s.pm, cores := s.cores, evr := s.evr, sec := s.sec } = s)
      ∧ (s.Issues (.core c) 0x20 (some .vector) n →
        ∃ t : State, exec (.vecOp c chk) s = .next t ∧ s.StartedWith t (.core c) .vector n (vecCycles (n.img.vec n.op.argB))
            ((s.issued (.core c) n.op).vecResult n.part (n.img.vec n.op.argB) s.cores[c].stoch[(1 : Fin 2)]).1
          ∧ { t.cores[c] with stoch := s.cores[c].stoch } = s.cores[c] ∧ (∀ d, d ≠ c → t.cores[d] = s.cores[d])
          ∧ { t with sched := s.sched, flags := s.flags, sm := s.sm, pm := s.pm, cores := s.cores, evr := s.evr, sec := s.sec } = s)
      ∧ (s.Issues (.core c) 0x04 (some .dma) n →
        ∃ t : State, exec (.dma (.core c) chk) s = .next t
          ∧ s.StartedWith t (.core c) .dma n ((s.issued (.core c) n.op).dmaCycles (.core c) (n.img.dmaDesc n.op.argB))
            (((s.issued (.core c) n.op).dmaWrites (.core c) (n.img.dmaDesc n.op.argB)).flatMap (s.issued (.core c) n.op).mappedParts)
          ∧ { t with sched := s.sched, flags := s.flags, sm := s.sm, pm := s.pm, evr := s.evr } = s)
      ∧ (∀ tg : Target, (∀ c, tg ≠ .core c) → s.Issues tg 0x04 (some .main) n →
          s.dmaPoison tg (n.img.dmaDesc n.op.argB) = false →
          ∃ t : State, exec (.dma tg .clean) s = .next t
            ∧ s.StartedWith t tg .main n ((s.issued tg n.op).dmaCycles tg (n.img.dmaDesc n.op.argB))
              (((s.issued tg n.op).dmaWrites tg (n.img.dmaDesc n.op.argB)).flatMap (s.issued tg n.op).mappedParts)
            ∧ { t with sched := s.sched, flags := s.flags, sm := s.sm, evr := s.evr } = s)
      ∧ (∀ o : Op, (s.seq (.core c)).accepts (.core c) o (some .main) = true ↔
          ∀ r ∈ (s.seq (.core c)).running, r.unit ≠ .main))

/-- A field or fusion operation whose check finds nothing, or only what the memories correct, starts, with what it reads and what it
will write as its rule gives it; the section moves on by one, and nothing but the engine, the flags and the recorder, and what a memory
counts of a correction, changes. A check fails where a unit disagrees or a word or line cannot be read. Then the engine's
STATUS.MISMATCH is set, the section has moved on, the operation does not run, and its flag is not set, but for FLD_ADAM, which leaves
one group of 64 entries as it was, writes the others and sets its flag at once; where a unit disagreed, every other such operation
leaves memory, the engine's SRAM and everything else of the engine as they were (R67, R204, R207 to R217, R222, R228, R235, R237, R239,
R240, R242, R250). Completes: FLD_RAYS, FLD_GATHER, FLD_COMPOSITE, FLD_SCATTER, FLD_ADAM, FLD_COMPARE, FLD_REPLAY, FLD_SLOT_FILL,
FUS_UPDATE, FUS_TRACK_REQ, FUS_SEED, FUS_PROJECT, FUS_VOTE, FUS_REPROP, FUS_PAGE, FUS_ANCHOR. -/
def Obligations.FieldAndFusionOperationsStart : Prop :=
  (∀ (s : State) (tg : Target) (chk : Check),
      (∃ a, s.engineCheck tg chk = (none, a)) ↔ (chk = .clean ∨ chk = .sramCorrected ∨ ∃ x, chk = .dramCorrected x))
  ∧ (∀ (s a t : State) (n : NextOp) (chk : Check), (s.issued .fld n.op).engineCheck .fld chk = (none, a) →
      ∀ (i : Instr) (code : Nat), (i, code, t) ∈ [(Instr.fldRays chk, 0x10, a.raysOp n), (.fldGather chk, 0x11, a.gather n),
          (.fldComposite chk, 0x12, a.composite n), (.fldScatter chk, 0x13, a.scatter n),
          (.fldAdam chk, 0x14, a.startOp .fld n .main (4 * (a.adamPlan n).1.length + a.adamScan n / 64) []),
          (.fldCompare chk, 0x15, a.compareOp n), (.fldReplay chk, 0x16, a.replay n)] →
        s.Issues .fld code (some .main) n → exec i s = .next t ∧ s.Started t .fld .main n
          ∧ { t with sched := s.sched, flags := s.flags, sm := s.sm, fld := s.fld, evr := s.evr, free := s.free, mt := s.mt } = s
          ∧ t.mt = a.mt ∧ (chk = .clean → t.mt = s.mt))
  ∧ (∀ (s t : State) (n : NextOp), t = (s.issued .fld n.op).slotFill n → s.Issues .fld 0x17 (some .main) n →
      exec .fldSlotFill s = .next t ∧ s.Started t .fld .main n ∧ { t with sched := s.sched, flags := s.flags, sm := s.sm } = s)
  ∧ (∀ (s a t : State) (n : NextOp) (chk : Check), (s.issued .fus n.op).engineCheck .fus chk = (none, a) →
      ∀ (i : Instr) (code : Nat), (i, code, t) ∈ [(Instr.fusUpdate chk, 0x11, a.startOp .fus n .main (a.updateCycles n) []),
          (.fusReprop chk, 0x16, a.startOp .fus n .main a.repropCycles [])] →
        s.Issues .fus code (some .main) n → exec i s = .next t ∧ s.Started t .fus .main n
          ∧ { t with sched := s.sched, flags := s.flags, sm := s.sm, evr := s.evr, mt := s.mt } = s
          ∧ t.mt = a.mt ∧ (chk = .clean → t.mt = s.mt))
  ∧ (∀ (s b t : State) (n : NextOp), b = s.issued .fus n.op →
      ∀ (i : Instr) (code : Nat), (i, code, t) ∈ [(Instr.fusTrackReq, 0x12, b.trackReqOp n),
          (.fusSeed, 0x13, b.startOp .fus n .main (64 + 60 * b.poolVal (n.arg 0 4 + 12) 4) []),
          (.fusProject, 0x14, b.projectOp n), (.fusVote, 0x15, b.startOp .fus n .main 2048 []),
          (.fusPage, 0x17, b.startOp .fus n .main (200 + 16 * n.arg 4 2) []),
          (.fusAnchor, 0x18, b.startOp .fus n .main (64 + 300 * b.poolVal (n.arg 0 4 + 12) 4) [])] →
        s.Issues .fus code (some .main) n → exec i s = .next t ∧ s.Started t .fus .main n
          ∧ { t with sched := s.sched, flags := s.flags, sm := s.sm, fus := s.fus, free := s.free } = s)
  ∧ (∀ (s a : State) (n : NextOp) (chk : Check) (u : Nat), (s.issued .fld n.op).engineCheck .fld chk = (some u, a) →
      (∀ (i : Instr) (code : Nat), (i, code) ∈ [(Instr.fldRays chk, 0x10), (.fldGather chk, 0x11), (.fldComposite chk, 0x12),
          (.fldScatter chk, 0x13), (.fldCompare chk, 0x15), (.fldReplay chk, 0x16)] → s.Issues .fld code (some .main) n →
        ∃ t : State, exec i s = .next t ∧ t = a.fldMismatch n.index u ∧ t.fld.mismatch = true
          ∧ (∀ v, chk = .once v ∨ chk = .twice v →
              (t.seq .fld).next = (s.seq .fld).next + 1 ∧ (t.seq .fld).running = (s.seq .fld).running
              ∧ (n.op.clearOnIssue = false → t.flags = s.flags) ∧ { t.fld with mismatch := s.fld.mismatch } = s.fld
              ∧ { t with sched := s.sched, flags := s.flags, sm := s.sm, fld := s.fld, evr := s.evr } = s))
      ∧ (s.Issues .fld 0x14 (some .main) n →
          ∃ (b t : State) (g : Nat), a.drawBelow (ceilDiv (max 1 (a.adamPlan n).1.length) 64) = (g, b) ∧ exec (.fldAdam chk) s = .next t
            ∧ g < ceilDiv (max 1 (a.adamPlan n).1.length) 64
            ∧ t = ((b.fldMismatch n.index u).adamEnd n none (some g)).setOnDone n.op ∧ t.fld.mismatch = true
            ∧ ∀ f, n.op.sets = some f → t.flag f = some .set))
  ∧ (∀ (s a : State) (n : NextOp) (chk : Check) (u : Nat), (s.issued .fus n.op).engineCheck .fus chk = (some u, a) →
      ∀ (i : Instr) (code : Nat), (i, code) ∈ [(Instr.fusUpdate chk, 0x11), (.fusReprop chk, 0x16)] → s.Issues .fus code (some .main) n →
        ∃ t : State, exec i s = .next t ∧ t = a.fusMismatch 0 n.index u ∧ t.fus.mismatch = true
          ∧ (∀ v, chk = .once v ∨ chk = .twice v →
              (t.seq .fus).next = (s.seq .fus).next + 1 ∧ (t.seq .fus).running = (s.seq .fus).running
              ∧ (n.op.clearOnIssue = false → t.flags = s.flags) ∧ { t.fus with mismatch := s.fus.mismatch } = s.fus
              ∧ { t with sched := s.sched, flags := s.flags, sm := s.sm, fus := s.fus, evr := s.evr } = s))

/-- FUS_INERTIAL binds, the windows of the solver and of the place search engine open, serve what waits, and the mover's window takes its
classes, its bytes and its end grain from the parameters (R232, R267, R268, R293, R309). Completes: FUS_INERTIAL, SLV_WINDOW,
SLV_SERVICE, PS_SERVICE, MV_WINDOW. -/
def Obligations.WindowsOpen : Prop :=
  ∀ (s : State) (n : NextOp),
    (s.Issues .mv 0x10 (some .main) n →
      ∃ t : State, exec .mvWindow s = .next t ∧ s.Started t .mv .main n
        ∧ t.mt = { s.mt with window := some { endGrain := n.arg 0 2, classMask := n.arg 2 1, left := n.arg 4 4 } }
        ∧ { t with sched := s.sched, flags := s.flags, sm := s.sm, mt := s.mt } = s)
    ∧ (s.Issues .slv 0x10 (some .main) n →
        exec .slvWindow s = .next (((s.issued .slv n.op).startOp .slv n .main 0 []).slvStart
          ((s.issued .slv n.op).readJob (n.img.paramBytes n.op.argB 128) false
            (s.sched.spanStart.toNat + fieldAt (n.img.paramBytes n.op.argB 128) 8 8 * 1000)
            ((s.issued .slv n.op).objBytes (n.img.objects.getD (fieldAt (n.img.paramBytes n.op.argB 128) 40 2) 0)))))
    ∧ (s.Issues .slv 0x11 (some .main) n →
        exec .slvService s = .next (State.slvServe 3 ((s.issued .slv n.op).startOp .slv n .main 0 [])))
    ∧ (s.Issues .slv 0x11 (some .main) n → s.slv.queueEn = false →
        ∃ t : State, exec .slvService s = .next t ∧ s.Started t .slv .main n
          ∧ { t with sched := s.sched, flags := s.flags, sm := s.sm } = s)
    ∧ (s.Issues .ps 0x10 (some .main) n → s.ps.queueEn = false → s.ps.queries = [] →
        ∃ t : State, exec .psService s = .next t ∧ s.Started t .ps .main n
          ∧ t.ps = { s.ps with windowFrom := s.grain, insertGrains := 0, insertAt := none }
          ∧ { t with sched := s.sched, flags := s.flags, sm := s.sm, ps := s.ps } = s)
    ∧ (∀ u v : State, s.Issues .ps 0x10 (some .main) n → u = ((s.issued .ps n.op).startOp .ps n .main 0 []).expireAll →
        v = { u with ps := { u.ps with windowFrom := u.grain, insertGrains := 0, insertAt := none } } →
        (v.psWindow = true → exec .psService s = .next (State.takeBatch (if v.insertTurn then v.spillAll else v)))
        ∧ (v.psWindow = false → exec .psService s = .next v))
    ∧ (s.Issues .fus 0x10 (some .main) n → s.activeBind n.op.argA = none →
        ∃ (t : State) (b : Binding), exec .fusInertial s = .next t ∧ t.fus.binds = (s.fus.binds.filter fun x => decide (x.input ≠ n.op.argA)) ++ [b]
          ∧ b.input = n.op.argA ∧ b.ringOffset = n.arg 0 4 ∧ b.ringRecs = n.arg 4 2 ∧ b.flagFirst = n.arg 6 2
          ∧ b.flagCount = n.arg 8 2 ∧ b.endGrain = n.arg 10 2 ∧ b.nextRec = 0
          ∧ (t.seq .fus).next = (s.seq .fus).next + 1 ∧ (t.seq .fus).running = (s.seq .fus).running
          ∧ (∀ f, n.op.sets = some f → t.flag f = some .set) ∧ { t.fus with binds := s.fus.binds } = s.fus
          ∧ { t with sched := s.sched, flags := s.flags, sm := s.sm, fus := s.fus } = s)

/-- OP_COMPLETE: the operation of the unit that runs and may end leaves the sequencer, its bytes are written, and `SET_FLAG` is set; with
none, nothing happens. For TAKE, RELEASE and a DMA of the stream manager's sequencer that is all; a vision engine and a core count the
operation and its cycles, and a core with a clean check the elements saturated; an engine whose effect is more than its bytes has that
effect then (R67, R95, R156, R180, R459). Completes: OP_COMPLETE. -/
def Obligations.OperationsEnd : Prop :=
  ∀ (s : State) (t : Target) (u : OpUnit) (r : Running),
    (((s.seq t).running.find? fun r => decide (r.unit = u) && s.mayEnd t r) = none → exec (.opComplete t u) s = .next s)
    ∧ (∀ p : Fin 4, t = .sm p → ((s.seq t).running.find? fun r => decide (r.unit = u) && s.mayEnd t r) = some r →
        ∃ v : State, exec (.opComplete t u) s = .next v ∧ (v.seq t).running = (s.seq t).running.erase r
          ∧ v.mem = (s.applyMemWrites r.writes).mem ∧ v.sram = (s.applyMemWrites r.writes).sram
          ∧ (∀ f, r.op.sets = some f → v.flag f = some .set) ∧ (r.op.sets = none → v.flags = s.flags)
          ∧ (v.seq t).next = (s.seq t).next
          ∧ (∀ w, r.writes = [w] → w.space = .device → memRange w.addr w.data.length = true → memWf s.mem = true →
              memReadN v.mem w.addr w.data.length = w.data
              ∧ ∀ a, (a < w.addr ∨ w.addr + w.data.length ≤ a) → memRead v.mem a = memRead s.mem a)
          ∧ { v with sched := s.sched, mem := s.mem, sram := s.sram, flags := s.flags } = s)
    ∧ (∀ i : Fin 4, visOf t = some i → ((s.seq t).running.find? fun r => decide (r.unit = u) && s.mayEnd t r) = some r →
        ∃ v : State, exec (.opComplete t u) s = .next v ∧ (v.seq t).running = (s.seq t).running.erase r
          ∧ v.mem = (s.applyMemWrites r.writes).mem ∧ v.sram = (s.applyMemWrites r.writes).sram
          ∧ (∀ f, r.op.sets = some f → v.flag f = some .set) ∧ (r.op.sets = none → v.flags = s.flags)
          ∧ v.vis[i] = { s.vis[i] with ops := countUp s.vis[i].ops 1, busyCycles := s.vis[i].busyCycles + r.ownCycles }
          ∧ (∀ j, j ≠ i → v.vis[j] = s.vis[j])
          ∧ { v with sched := s.sched, mem := s.mem, sram := s.sram, flags := s.flags, vis := s.vis } = s)
    ∧ (∀ n : NextOp, t ∈ [Target.fld, .fus, .slv, .ps, .ife, .mv] → s.opOfRun t r = some n →
        ((s.seq t).running.find? fun r => decide (r.unit = u) && s.mayEnd t r) = some r →
        exec (.opComplete t u) s = .next ((((s.dropRun t r).applyMemWrites r.writes).engineEffect t n r none).setOnDone r.op))
    ∧ (∀ c : Fin 8, t = .core c → u ≠ .main → r.chk = .clean → r.rerun = false →
        ((s.seq t).running.find? fun r => decide (r.unit = u) && s.mayEnd t r) = some r →
        ∃ v : State, exec (.opComplete t u) s = .next v ∧ (v.seq t).running = (s.seq t).running.erase r
          ∧ v.mem = (s.applyMemWrites r.writes).mem ∧ (∀ f, r.op.sets = some f → v.flag f = some .set)
          ∧ v.cores[c].acc = s.cores[c].acc ∧ v.cores[c].ops = countUp s.cores[c].ops 1
          ∧ v.cores[c].satCount = countUp s.cores[c].satCount (r.aux.getD 0 0) ∧ (∀ d, d ≠ c → v.cores[d] = s.cores[d])
          ∧ { v with sched := s.sched, mem := s.mem, sram := s.sram, flags := s.flags, cores := s.cores, pm := s.pm } = s)
    ∧ (∀ c : Fin 8, t = .core c → u = .main → r.chk = .clean → r.rerun = false →
        ((s.seq t).running.find? fun r => decide (r.unit = u) && s.mayEnd t r) = some r →
        ∃ v : State, exec (.opComplete t u) s = .next v ∧ (v.seq t).running = (s.seq t).running.erase r
          ∧ v.mem = (s.applyMemWrites r.writes).mem ∧ (∀ f, r.op.sets = some f → v.flag f = some .set)
          ∧ v.cores[c].acc = putWords s.cores[c].acc 0 (r.aux.drop 3) ∧ v.cores[c].ops = countUp s.cores[c].ops 1
          ∧ v.cores[c].busyCycles = s.cores[c].busyCycles + r.cycles ∧ (∀ d, d ≠ c → v.cores[d] = s.cores[d])
          ∧ { v with sched := s.sched, mem := s.mem, sram := s.sram, flags := s.flags, cores := s.cores, pm := s.pm } = s)

/-- An operation skipped on a void: counted as issued, its set flag VOID, its wait flag CLEAR with CLEAR_ON_ISSUE, no unit
started and nothing written (R69); a query that waits for the keyframe of a filing that is skipped ends (R75); its section's wait counter takes the time for which the flag held it (R71). An overrun sets
SC_STATUS.OVERRUN, advances the count by one, stopping at its highest value, and notes the operation; nothing issues and no unit
changes; the first of a sequencer in a span is recorded (R70). Completes: OP_VOID_SKIP, SCHED_OVERRUN. -/
def Obligations.SkipsAndOverruns : Prop :=
  (∀ (s : State) (t : Target) (n : NextOp),
      s.nextOp t = some n → s.sectionOpen = true → (s.seq t).halted = false → n.op.earliest ≤ s.grain → n.op.wait = true →
      s.flagVoid n.op.waitFlag = true →
      exec (.opVoidSkip t) s = .next (if t = .ps ∧ n.op.opcode = 0x11 then (s.voidSkip t).keyframeLost errOverrun else s.voidSkip t)
      ∧ ∃ u : State, s.voidSkip t = u ∧ (u.seq t).next = (s.seq t).next + 1 ∧ (u.seq t).skips = (s.seq t).skips + 1
        ∧ (u.seq t).running = (s.seq t).running ∧ u.sched.skipCount = countUp s.sched.skipCount 1
        ∧ (u.seq t).waitNs = (s.seq t).waitNs + (s.dtNs - s.holdFrom t n.op)
        ∧ (∀ f, n.op.sets = some f → u.flagVoid f = true ∧ (s.flagVoid f = false → u.flag f = some (.void false)))
        ∧ (n.op.sets = none → n.op.clearOnIssue = true → u.flags = mapDel s.flags n.op.waitFlag)
        ∧ (n.op.sets = none → n.op.clearOnIssue = false → u.flags = s.flags)
        ∧ { u with sched := s.sched, flags := s.flags, vis := s.vis } = s)
  ∧ (∀ (s : State) (t : Target) (n : NextOp) (i : Nat) (o : Op) (p : Fin 4) (img : Image) (ops : List Op),
      s.nextOp t = some n → s.sectionOf t = some (p, img, ops) → (s.seq t).halted = false → s.inSpan = true →
      firstLate (s.seq t).overran s.grain n.index (ops.drop n.index) = some (i, o) →
      ∃ u : State, exec (.schedOverrun t) s = .next u ∧ u.sched.statusW1c.getLsbD 0 = true
        ∧ u.sched.overrunCount = countUp s.sched.overrunCount 1 ∧ (u.seq t).overran = i :: (s.seq t).overran
        ∧ (u.seq t).next = (s.seq t).next ∧ (u.seq t).running = (s.seq t).running
        ∧ ((s.seq t).overrunEvt = true → u.evr = s.evr) ∧ { u with sched := s.sched, evr := s.evr } = s)

/-- The events of the schedule itself: from the ballast grain every idle core's filler turns to its claimed level, in proportion to its clock
where it runs below the ceiling in force (the proportion is the model's choice, log 63), a latch is taken once 50 grains before the
boundary, and a boundary of a schedule that runs starts the next span at it; before their instants they change nothing (R72, R73, R74,
R80). Completes: BALLAST_RAMP_START, SCHED_LATCH, SPAN_BOUNDARY. -/
def Obligations.ScheduleEventsHappen : Prop :=
  ∀ s : State,
    (∀ (c : Fin 8) (img : Image), s.claimOf c = some img → s.sectionOpen = true → img.ballastStart ≤ s.grain →
      (s.seq (.core c)).running = [] → s.clockStopped c = false →
      ∀ full now : Nat, full = min s.pm.ceiling.toNat (if s.pm.pmbusOk then 7 else 5) → now = min s.pm.cores[c].op.toNat full →
      ∃ t : State, exec .ballastRampStart s = .next t
        ∧ t.pm.cores[c].filler = .ballast (img.ballastLevel c.val * opMhz now / opMhz full)
        ∧ (full ≤ s.pm.cores[c].op.toNat → t.pm.cores[c].filler = .ballast (img.ballastLevel c.val))
        ∧ { t with pm := s.pm } = s)
    ∧ (s.schedOn = true → s.sched.latched = false → s.sched.nextBoundary ≤ s.dtNs + 50000 →
        ∃ t : State, exec .schedLatch s = .next t ∧ t.sched.latched = true ∧ t.sched.fenceLatched = s.sched.fence
          ∧ t.sched.nextBoundary = s.sched.nextBoundary)
    ∧ (s.schedOn = false ∨ s.sched.latched = true ∨ s.dtNs + 50000 < s.sched.nextBoundary → exec .schedLatch s = .next s)
    ∧ (s.schedOn = true → s.sched.nextBoundary ≤ s.dtNs →
        ∃ t : State, exec .spanBoundary s = .next t ∧ t.sched.latched = false
          ∧ t.sched.nextBoundary = s.latchStep.sched.nextBoundary + 1000 * t.sched.spanGrains.toNat)
    ∧ (s.schedOn = false ∨ s.dtNs < s.sched.nextBoundary → exec .spanBoundary s = .next s)

/-- A boundary of a running schedule whose latch is taken starts the next span at its own instant, and counts it; the fence that was latched
comes into force, the images that start are those latched, and the span after it is as long as the images say (R20, R73, R74, R80).
Completes: SPAN_BOUNDARY. -/
def Obligations.BoundaryStartsTheLatchedSpan : Prop :=
  ∀ s : State, s.sched.state = .running → s.sched.latched = true → s.sched.nextBoundary ≤ s.dtNs → s.sched.nextBoundary < 2 ^ 64 →
    ∃ t : State, exec .spanBoundary s = .next t ∧ t.sched.spanStart.toNat = s.sched.nextBoundary ∧ t.sched.beforeS0 = false
      ∧ t.sched.fenceLive = s.sched.fenceLatched
      ∧ ∀ (p : Fin 4) (k : Fin 64), t.sched.running[p] = some k → s.sched.latchSlot[p] = some k

/-! ## The host port and the registers (chapters 14 and 1) -/

/-- A READ_ID frame returns the device identifier, a PORT_RESET frame returns the port to 1S-1S-1S with latency 20 and CRC off, a WAKE frame
ends the parked state and has no effect in any other; in 8D-8D-8D one whose complement is wrong is refused, a READ_ID then with zeros; and
no frame has an effect before the port answers (R326, R327, R332, R340, R393). Completes: READ_ID, WAKE, PORT_RESET. -/
def Obligations.ShortFramesAct : Prop :=
  ∀ s : State,
    (s.dev.portUp = true →
      exec .readId s = .next { s with port := { s.port with readData := [0x40, 0x64, 0x53, 0x54], readCrc := none } }
      ∧ exec .portReset s = .next { s with port := { s.port with mode := 0, latency := 20, crcEn := false } }
      ∧ (s.dev.phase = .parked → exec .wake s = .next { s with dev := { s.dev with phase := .waking, selfRefresh := false } })
      ∧ (s.dev.phase ≠ .parked → exec .wake s = .next s)
      ∧ (∀ (f : Frame) (good : Byte), (f.opcode, good) ∈ [((0x9F : Byte), (0x60 : Byte)), (0xAB, 0x54), (0xF0, 0x0F)] →
        s.port.mode = 1 → f.complement ≠ good →
        ∃ t : State, exec (.write f) s = .next t ∧ t.port.err = s.port.err ||| 2 ∧ t.port.mode = 1
          ∧ (s.port.errCount ≠ 0xFFFF → t.port.errCount = s.port.errCount + 1) ∧ t.port.irqStatus = s.port.irqStatus ||| irqPort
          ∧ (good = 0x60 → t.port.readData = [0, 0, 0, 0]) ∧ { t with port := s.port, pins := s.pins } = s))
    ∧ (s.dev.portUp = false →
      exec .readId s = .next s ∧ exec .portReset s = .next s ∧ exec .wake s = .next s
      ∧ ∀ f : Frame, exec (.write f) s = .next s ∧ ∀ b, exec (.read f b) s = .next s)

/-- A WRITE frame in 8D-8D-8D that is well formed, with its CRC right or off: a burst within the bulk window of one mailbox is applied whole,
byte by byte, to the window's place in device memory, and nothing else of any memory changes; a burst whose CRC is wrong changes no memory,
sets `CRC_ERR` and counts. A READ frame of a mapped bulk window that is staged returns the window's bytes, and with the CRC on their CRC-16
over the header and the data; not staged in time it returns zeros and sets `RD_TIMEOUT` (R328, R329, R331 to R333). Completes: WRITE,
READ. -/
def Obligations.FramesMoveWindowBytes : Prop :=
  (∀ (s : State) (f : Frame) (i : Fin 8) (off : Nat),
      let n := (f.len &&& 0x0FFF).toNat + 1
      s.dev.portUp = true → s.port.mode = 1 → f.opcode = 0x02 → f.complement = 0xFD → f.len >>> 12 = 0 → n % 4 = 0 → off % 4 = 0 →
      f.addr.toNat = 0x1000000 + 0x200000 * i.val + off → off + n ≤ 0x200000 → n ≤ f.data.length →
      ((s.port.crcEn = true → crc16 (frameHead f ++ f.data.take n) = f.crc) → s.windowOpen i = true → memWf s.mem = true →
        ∃ t : State, exec (.write f) s = .next t ∧ memReadN t.mem (s.mbx[i].bulkBase + off) n = f.data.take n
          ∧ (∀ a, (a < s.mbx[i].bulkBase + off ∨ s.mbx[i].bulkBase + off + n ≤ a) → memRead t.mem a = memRead s.mem a)
          ∧ { t with mem := s.mem } = s)
      ∧ (s.port.crcEn = true → crc16 (frameHead f ++ f.data.take n) ≠ f.crc →
        ∃ t : State, exec (.write f) s = .next t ∧ t.mbx = s.mbx ∧ t.port.err = s.port.err ||| 1
          ∧ (s.port.errCount ≠ 0xFFFF → t.port.errCount = s.port.errCount + 1)
          ∧ t.port.irqStatus = s.port.irqStatus ||| irqPort ∧ { t with port := s.port, pins := s.pins } = s)
      ∧ (s.windowOpen i = false → (s.port.crcEn = true → crc16 (frameHead f ++ f.data.take n) = f.crc) →
        ∃ t : State, exec (.write f) s = .next t ∧ t.mem = s.mem ∧ t.mbx = s.mbx ∧ t.port.err = s.port.err ||| 8))
  ∧ (∀ (s : State) (f : Frame) (i : Fin 8) (off : Nat),
      let n := (f.len &&& 0x0FFF).toNat + 1
      s.dev.portUp = true → s.port.mode = 1 → f.opcode = 0x0B → f.complement = 0xF4 → f.len >>> 12 = 0 → n % 4 = 0 → off % 4 = 0 →
      f.addr.toNat = 0x1000000 + 0x200000 * i.val + off → off + n ≤ 0x200000 → s.windowOpen i = true → n ≤ f.data.length →
      exec (.read f true) s = .next { s with port := { s.port with
        readData := memReadN s.mem (s.mbx[i].bulkBase + off) n
        readCrc := if s.port.crcEn then some (crc16 (frameHead f ++ memReadN s.mem (s.mbx[i].bulkBase + off) n)) else none } }
      ∧ ∃ t : State, exec (.read f false) s = .next t ∧ t.port.readData = List.replicate n 0 ∧ t.port.err = s.port.err ||| 16
          ∧ t.port.errCount = s.port.errCount ∧ { t with port := s.port, pins := s.pins } = s)

/-- The mode of the port (R326): 1S-1S-1S with latency 20 and CRC off after a cold reset, a warm reset and PORT_RESET; a write of
HOST_PORT_MODE sets the fields, but leaves a reserved mode code or a latency outside 8 to 32 unchanged. Completes: PORT_RESET,
HOST_PORT_MODE_WRITE, SYS_RESET_DELAY_EXPIRY, PORESET_ASSERT, SYSRESET_ASSERT, WATCHDOG_EXPIRY, RAIL_POWER_LOSS. -/
def Obligations.PortModeRules : Prop :=
  ∀ s : State,
    (s.dev.phase ≠ .unpowered → s.pins.poresetN = true → ∃ t : State, exec .poresetAssert s = .next t
        ∧ t.port.mode = 0 ∧ t.port.latency = 20 ∧ t.port.crcEn = false)
    ∧ (s.dev.phase ≠ .unpowered → ∃ t : State, exec .railPowerLoss s = .next t ∧ t.port.mode = 0 ∧ t.port.latency = 20 ∧ t.port.crcEn = false)
    ∧ (s.dev.inReset = false → s.pins.thermtripN = true →
        (∃ t : State, exec .sysresetAssert s = .next t ∧ t.port.mode = 0 ∧ t.port.latency = 20 ∧ t.port.crcEn = false)
        ∧ (s.dev.resetPending = true →
          ∃ t : State, exec .sysResetDelayExpiry s = .next t ∧ t.port.mode = 0 ∧ t.port.latency = 20 ∧ t.port.crcEn = false)
        ∧ ∀ cp : Fin 2, s.isReady = true → s.dev.fatal = false → s.dev.wdArmed = true → s.dev.wdBits[cp] = false →
          ∃ t : State, exec (.watchdogExpiry cp) s = .next t ∧ t.port.mode = 0 ∧ t.port.latency = 20 ∧ t.port.crcEn = false)
    ∧ (s.dev.portUp = true →
        exec .portReset s = .next { s with port := { s.port with mode := 0, latency := 20, crcEn := false } })
    ∧ (∀ v : Word, s.dev.portUp = true → ∃ t : State, exec (.hostPortModeWrite v) s = .next t
        ∧ t.port.mode = (if v.toNat % 4 ≤ 1 then BitVec.ofNat 2 v.toNat else s.port.mode) ∧ t.port.crcEn = v.getLsbD 2
        ∧ t.port.latency.toNat = (if 8 ≤ v.toNat / 256 % 64 ∧ v.toNat / 256 % 64 ≤ 32 then v.toNat / 256 % 64 else s.port.latency.toNat)
        ∧ { t with port := s.port } = s)

/-- Host writes of one direct register: a doorbell in range moves its tail and nothing else, and one out of range is refused; a completion
head in range frees its entries; IRQ_STATUS clears the bits written one and the pin follows (R332, R336 to R338). Completes:
MBX_DOORBELL_WRITE, CQ_HEAD_WRITE, IRQ_STATUS_WRITE. -/
def Obligations.DirectRegisterWrites : Prop :=
  ∀ s : State, s.dev.portUp = true →
    (∀ (n : Fin 8) (v : Word), s.ringsServed = true → s.mbx[n].state = .opened →
        ((s.mbx[n].sqTail - s.mbx[n].sqHead).toNat ≤ (v.setWidth 6 - s.mbx[n].sqHead).toNat →
          exec (.mbxDoorbellWrite n v) s = .next (s.updMbx n fun m => { m with sqTail := v.setWidth 6 }))
        ∧ ((v.setWidth 6 - s.mbx[n].sqHead).toNat < (s.mbx[n].sqTail - s.mbx[n].sqHead).toNat →
          ∃ t : State, exec (.mbxDoorbellWrite n v) s = .next t ∧ t.mbx = s.mbx ∧ t.port.err = s.port.err ||| 32)
        ∧ ((v.setWidth 8 - s.mbx[n].cqHead).toNat ≤ (s.mbx[n].cqTail - s.mbx[n].cqHead).toNat → s.mbx[n].held = [] →
          exec (.cqHeadWrite n v) s = .next (s.updMbx n fun m => { m with cqHead := v.setWidth 8 })))
    ∧ (∀ v : Word, ∃ t : State, exec (.irqStatusWrite v) s = .next t ∧ t.port = { s.port with irqStatus := s.port.irqStatus &&& ~~~ v }
        ∧ t.pins.hostIrqN = decide (t.port.irqStatus &&& t.port.irqMask = 0) ∧ { t with port := s.port, pins := s.pins } = s)

/-- The mailbox hardware copies pending entries in ring order into firmware's queue, moves the head past each, and sets `SQ_FREE` if it moved,
and changes nothing else; an entry of an undefined opcode completes at once with `ERR_OPCODE`; a mailbox that is not OPEN is not copied;
and completions held for want of room follow in their order as soon as a completion head frees entries (R336, R337, R348). Completes:
MBX_COPY. -/
def Obligations.RingsMoveTheirEntries : Prop :=
  (∀ (s : State) (i : Fin 8),
      (s.mbx[i].state ≠ .opened → exec (.mbxCopy i) s = .next s)
      ∧ (s.mbx[i].state = .opened → s.ringsServed = true → s.mbx[i].sqHead = s.mbx[i].sqTail →
          exec (.mbxCopy i) s = .next s.skipUndefined)
      ∧ (s.mbx[i].state = .opened → s.ringsServed = true → s.fw.queue = [] →
          s.mbx[i].sqTail ≠ s.mbx[i].sqHead → s.inFlight i + (s.mbx[i].sqTail - s.mbx[i].sqHead).toNat ≤ 64 →
          let entries := (List.range (s.mbx[i].sqTail - s.mbx[i].sqHead).toNat).map fun k =>
            s.mbx[i].entryAt i (s.mbx[i].sqHead + BitVec.ofNat 6 k).toNat
          (∀ q ∈ entries, (cmdForm q.opcode.toNat).isSome = true) →
          ∃ t : State, exec (.mbxCopy i) s = .next t ∧ t.fw = { s.fw with queue := entries }
            ∧ t.mbx[i] = { s.mbx[i] with sqHead := s.mbx[i].sqTail } ∧ (∀ j, j ≠ i → t.mbx[j] = s.mbx[j])
            ∧ t.port = { s.port with irqStatus := s.port.irqStatus ||| irqSqFree i }
            ∧ t.pins.hostIrqN = decide (t.port.irqStatus &&& t.port.irqMask = 0)
            ∧ { t with fw := s.fw, mbx := s.mbx, port := s.port, pins := s.pins } = s)
      ∧ (s.mbx[i].state = .opened → s.ringsServed = true → s.takes i = true → s.fw.queue = [] →
          s.mbx[i].sqTail = s.mbx[i].sqHead + 1 → s.inFlight i < 64 →
          let q := s.mbx[i].entryAt i s.mbx[i].sqHead.toNat
          cmdForm q.opcode.toNat = none → s.orderedWaits q.entry = false →
          ∃ t : State, exec (.mbxCopy i) s = .next (t.reply q errOpcode 0 0 0 0) ∧ t.fw = s.fw
            ∧ t.mbx[i] = { s.mbx[i] with sqHead := s.mbx[i].sqTail }
            ∧ { t with mbx := s.mbx, port := s.port, pins := s.pins } = s))
  ∧ (∀ (s : State) (n : Fin 8) (c : Completion) (cs : List Completion) (v : Byte),
      s.mbx[n].held = c :: cs → cs.length + (s.mbx[n].cqTail - v).toNat < 254 → memWf s.mbx[n].cq = true →
      (s.setCqHead n v).mbx[n].held = [] ∧ (s.setCqHead n v).mbx[n].cqTail = s.mbx[n].cqTail + BitVec.ofNat 8 (cs.length + 1)
        ∧ memReadN (s.setCqHead n v).mbx[n].cq (32 * s.mbx[n].cqTail.toNat) 32 = c.bytes
        ∧ (s.setCqHead n v).port.irqStatus = s.port.irqStatus ||| irqCq n)

/-- Register access types (R8): a read of a read-clear count answers it and leaves zero; a low half latches its high half in the same read; a
write of one clears W1C bits; a field that is written out of its range stays. Shown on a register of each kind that a chapter's table
gives, through the accesses that firmware makes while it runs. The registers of a block are not reached in a reset, parked, or without
firmware and an open debug port; a read of an unassigned slot returns zero, and each one is recorded (R14, R411). Completes:
REGISTER_WRITE, RC_FIELD_READ, LATCHING_LO_READ. -/
def Obligations.RegistersAreAccessed : Prop :=
  (∀ (s : State) (v : Word), s.reaches 1 = true → s.reaches 2 = true →
      (∀ c : Fin 8, exec (.rcFieldRead (.block (BitVec.ofNat 8 (0x18 + c.val)) 0x008)) s =
        .next { s.updCore c (fun x => { x with ops := 0 }) with dev := { s.dev with fwReadData := s.cores[c].ops } })
      ∧ exec (.rcFieldRead (.block 0x0F 0x0C0)) s =
          .next { s with pm := { s.pm with monCount := 0 }, dev := { s.dev with fwReadData := s.pm.monCount } }
      ∧ exec (.latchingLoRead (.block 0x00 0x008)) s =
          .next { s with sched := { s.sched with spanCountHi := (s.sched.spanCount >>> 32).setWidth 32 }
                         dev := { s.dev with fwReadData := s.sched.spanCount.setWidth 32 } }
      ∧ exec (.registerWrite (.block 0x0A 0x008) v) s =
          .next { s with fus := { s.fus with fell := s.fus.fell && !v.getLsbD 5 } }
      ∧ exec (.registerWrite (.block 0x0F 0x008) v) s =
          .next { s with pm := { s.pm with capMw := if 1000 ≤ v.toNat ∧ v.toNat ≤ 35000 then v else s.pm.capMw } }
      ∧ exec (.registerWrite (.block 0x03 0x000) v) s = .next s)
  ∧ (∀ (s : State) (slot : Byte) (off : BitVec 20) (v : Word),
      (s.reaches 2 = false → exec (.registerWrite (.block slot off) v) s = .next s)
      ∧ (s.reaches 1 = false → exec (.rcFieldRead (.block slot off)) s = .next s ∧ exec (.latchingLoRead (.block slot off)) s = .next s)
      ∧ (s.reaches 1 = true → blockOf slot.toNat = none →
          ∃ t : State, exec (.rcFieldRead (.block slot off)) s = .next t ∧ t.dev = { s.dev with fwReadData := 0 }
            ∧ t.evr = (s.event 0x12 0x1209 0 slot.toNat (slot.toNat * 0x100000 + off.toNat)).evr
            ∧ { t with dev := s.dev, evr := s.evr } = s))

/-! ## Resets, boot and power (chapter 20) -/

/-- A fall of PORESET_N of a powered device, and a loss of the rails, leave everything at its reset value but what flash, the fuses and the
layout keep: outputs at their reset levels, the schedule STOPPED with no image, no time, an empty recorder ring (R433, R434, R440, R446).
Completes: PORESET_ASSERT, RAIL_POWER_LOSS. -/
def Obligations.ColdResetEntered : Prop :=
  ∀ s : State, s.dev.phase ≠ .unpowered →
    (s.pins.poresetN = true → ∃ t : State, exec .poresetAssert s = .next t ∧ t.pins.poresetN = false ∧ t.dev = State.reset.dev
      ∧ t.pins.motionPermit = false ∧ t.pins.faultN = false ∧ t.pins.thermtripN = true ∧ t.pins.trigOut = Vector.replicate 16 false
      ∧ t.pins.hostIrqN = true ∧ t.sched = State.reset.sched ∧ t.flags = [] ∧ t.mbx = State.reset.mbx ∧ t.fw = State.reset.fw
      ∧ t.tu = State.reset.tu ∧ t.sm = State.reset.sm ∧ t.cores = State.reset.cores ∧ t.fus = State.reset.fus ∧ t.slv = State.reset.slv
      ∧ t.evr.ring = [] ∧ t.pm.capMw = 35000 ∧ t.mem = [] ∧ t.port = State.reset.port
      ∧ t.sec.grants = s.sec.grants ∧ t.sec.keys = s.sec.keys ∧ t.sec.lifecycle = s.sec.lifecycle ∧ t.sec.slots = s.sec.slots
      ∧ t.mt.pages = s.mt.pages ∧ t.evr.archive = s.evr.archive ∧ t.pending = s.pending)
    ∧ (s.pins.poresetN = false → exec .poresetAssert s = .next s)
    ∧ (∃ t : State, exec .railPowerLoss s = .next t ∧ t.dev.phase = .unpowered ∧ t.pins.faultN = true ∧ t.pins.motionPermit = false
        ∧ t.sched = State.reset.sched ∧ t.sec.keys = s.sec.keys ∧ t.mt.pages = s.mt.pages)

/-- The events of a boot happen in their order and each only in its own state: rails up, the release of PORESET_N latches the straps, the port
answers, the boot ROM ends, DRAM initialises, firmware is verified, and READY is entered (R402, R437 to R439, R446). Completes:
PORESET_RELEASE, HOST_PORT_READY, BOOT_ROM_DONE, DRAM_INIT_DONE, RAIL_POWER_UP. -/
def Obligations.BootRunsInOrder : Prop :=
  ∀ s : State,
    (s.dev.phase = .unpowered → ∃ t : State, exec .railPowerUp s = .next t ∧ t.dev = { s.dev with phase := .coldReset } ∧ t.pins.faultN = false)
    ∧ (s.dev.phase ≠ .unpowered → exec .railPowerUp s = .next s)
    ∧ (∀ b : BitVec 2, s.dev.phase = .coldReset → exec (.poresetRelease b) s =
        .next { s with pins := { s.pins with poresetN := true, bootSrc := b }, dev := { s.dev with phase := .bootRom } })
    ∧ (∀ b : BitVec 2, s.dev.phase ≠ .coldReset → exec (.poresetRelease b) s = .next s)
    ∧ (s.dev.inReset = false → s.dev.portUp = false → exec .hostPortReady s = .next { s with dev := { s.dev with portUp := true } })
    ∧ (s.dev.inReset = true → exec .hostPortReady s = .next s)
    ∧ (∀ ack : Bool, s.dev.phase = .bootRom → ∃ t : State, exec (.bootRomDone ack true) s = .next t
        ∧ t.dev = { s.dev with phase := .dramInit, ethForward := true, selfRefresh := false } ∧ t.pm.pmbusOk = ack
        ∧ { t with dev := s.dev, pm := s.pm } = s)
    ∧ (∀ ack : Bool, s.dev.phase = .bootRom → ∃ t : State, exec (.bootRomDone ack false) s = .next t ∧ t.sec.rngOk = false
        ∧ t.dev.fatal = true ∧ t.pins.faultN = false)
    ∧ (s.dev.phase = .dramInit → ¬ (s.bootSource = 1 ∧ s.dev.warmBoot = false) →
        exec .dramInitDone s = .next { s with dev := { s.dev with phase := .fwVerify } })
    ∧ (s.dev.phase = .dramInit → s.bootSource = 1 → s.dev.warmBoot = false →
        ∃ t : State, exec .dramInitDone s = .next t ∧ t.dev.phase = .recovery ∧ t.dev.hostPortBoot = true
          ∧ t.mbx[(0 : Fin 8)].state = .opened)
    ∧ (s.dev.phase ≠ .dramInit → exec .dramInitDone s = .next s)

/-- FIRMWARE_VERIFIED tries the preferred slot first, and the first slot that passes starts and is recorded; with none RECOVERY is entered.
ENTER_READY without a fatal error: READY, firmware up, the watchdog armed with both bits clear, FAULT_N released, and STATE_CHANGED
raised; with one, FAULT (R344, R401, R402, R418, R435, R437). Completes: FIRMWARE_VERIFIED, ENTER_READY. -/
def Obligations.FirmwareStarts : Prop :=
  (∀ s : State, s.dev.phase = .fwVerify → s.dev.warmBoot = false → s.bootSource = 0 →
      (s.sec.preferred = false → s.sec.slotPasses 0 = true →
        ∃ t : State, exec .firmwareVerified s = .next t ∧ t.dev = { s.dev with phase := .fwStart, fwSlot := false }
          ∧ t.sec.keptCopy = s.sec.slots[(0 : Fin 2)].bytes)
      ∧ (s.sec.preferred = true → s.sec.slotPasses 1 = true →
        ∃ t : State, exec .firmwareVerified s = .next t ∧ t.dev = { s.dev with phase := .fwStart, fwSlot := true }
          ∧ t.sec.keptCopy = s.sec.slots[(1 : Fin 2)].bytes)
      ∧ (s.sec.slotPasses 0 = false → s.sec.slotPasses 1 = false →
        ∃ t : State, exec .firmwareVerified s = .next t ∧ t.dev.phase = .recovery ∧ t.mbx[(0 : Fin 8)].state = .opened
          ∧ t.sec.slotFailed[(0 : Fin 2)] = true ∧ t.sec.slotFailed[(1 : Fin 2)] = true))
  ∧ (∀ s : State, s.dev.phase = .fwStart →
      (s.dev.fatal = false → ∃ t : State, exec .enterReady s = .next t
        ∧ t.dev = { s.dev with phase := .ready, fwUp := true, everReady := true, wdArmed := true, wdBits := Vector.replicate 2 false
                               dramKept := false }
        ∧ t.pins.faultN = true ∧ t.port.irqStatus = s.port.irqStatus ||| irqState)
      ∧ (s.dev.fatal = true → s.pins.faultN = false → ∃ t : State, exec .enterReady s = .next t ∧ t.dev.phase = .fault ∧ t.pins.faultN = false))

/-- The reset causes (R432): each reset sets its own bit of `RESET_CAUSE` and clears the others, whatever stood there. Completes:
SYS_RESET_DELAY_EXPIRY, PORESET_ASSERT, SYSRESET_ASSERT, WATCHDOG_EXPIRY. -/
def Obligations.EachResetSetsItsCause : Prop :=
  ∀ s : State,
    (s.dev.phase ≠ .unpowered → s.pins.poresetN = true → ∃ t : State, exec .poresetAssert s = .next t
        ∧ t.dev.phase = .coldReset ∧ t.dev.resetCause = 1)
    ∧ (s.dev.inReset = false → s.pins.thermtripN = true →
        (∃ t : State, exec .sysresetAssert s = .next t ∧ t.dev.phase = .warmReset ∧ t.dev.resetCause = 2)
        ∧ (s.dev.resetPending = true → ∃ t : State, exec .sysResetDelayExpiry s = .next t
            ∧ t.dev.phase = .warmReset ∧ t.dev.resetCause = 4)
        ∧ ∀ cp : Fin 2, s.isReady = true → s.dev.fatal = false → s.dev.wdArmed = true → s.dev.wdBits[cp] = false →
            ∃ t : State, exec (.watchdogExpiry cp) s = .next t ∧ t.dev.phase = .warmReset ∧ t.dev.resetCause = 8)

/-- A warm reset by SYSRESET_N keeps what R434 names and returns the rest to its reset value; its release starts the boot ROM; a refresh sets
its processor's watchdog bit; an expiry without a refresh resets with cause bit 3, one after a refresh starts the next period (R432, R434,
R435, R438, R441). Completes: SYSRESET_ASSERT, SYSRESET_RELEASE, WATCHDOG_REFRESH, WATCHDOG_EXPIRY. -/
def Obligations.WarmResetKeepsItsState : Prop :=
  ∀ s : State,
    (s.dev.inReset = false → s.pins.thermtripN = true →
      ∃ t : State, exec .sysresetAssert s = .next t ∧ t.dev.phase = .warmReset ∧ t.dev.resetCause = 2 ∧ t.dev.fatal = false
        ∧ t.pins.sysresetN = false ∧ t.pins.motionPermit = false ∧ t.pins.faultN = false ∧ t.sched.state = .stopped
        ∧ t.sched.slots = s.sched.slots ∧ t.sched.fenceLive = s.sched.fenceLive ∧ t.tu.dt = s.tu.dt ∧ t.tu.tbl = s.tu.tbl
        ∧ (s.dev.everReady = true → t.mem = s.mem) ∧ t.sram = s.sram ∧ t.sec.grants = s.sec.grants ∧ t.sec.keys = s.sec.keys ∧ t.pm.capMw = s.pm.capMw
        ∧ t.fus.frameId = s.fus.frameId ∧ t.fus.initialised = false ∧ t.fw = State.reset.fw ∧ t.port = State.reset.port
        ∧ t.flags = [])
    ∧ (s.dev.inReset = true → exec .sysresetAssert s = .next { s with pins := { s.pins with sysresetN := false } })
    ∧ (s.dev.phase = .warmReset → exec .sysresetRelease s =
        .next { s with pins := { s.pins with sysresetN := true }, dev := { s.dev with phase := .bootRom } })
    ∧ (∀ cp : Fin 2, s.cpRuns cp = true →
        exec (.watchdogRefresh cp) s = .next { s with dev := { s.dev with wdBits := s.dev.wdBits.set cp true } })
    ∧ (∀ cp : Fin 2, s.dev.wdArmed = true → s.dev.fatal = false → s.isReady = true → s.dev.wdBits[cp] = true →
        exec (.watchdogExpiry cp) s = .next { s with dev := { s.dev with wdBits := s.dev.wdBits.set cp false } })
    ∧ (∀ cp : Fin 2, s.dev.wdArmed = true → s.dev.fatal = false → s.isReady = true → s.dev.wdBits[cp] = false →
        s.pins.thermtripN = true →
        ∃ t : State, exec (.watchdogExpiry cp) s = .next t ∧ t.dev.phase = .warmReset ∧ t.dev.resetCause = 8)

/-- PARK_ENTRY of a device ready to park, and WAKE_COMPLETE of one that wakes: the state, the rail, self-refresh and the interrupt; otherwise
nothing happens (R341, R391 to R393). Completes: PARK_ENTRY, WAKE_COMPLETE. -/
def Obligations.ParkAndWake : Prop :=
  ∀ s : State,
    (s.dev.parkReady = true → s.isReady = true → ∃ t : State, exec .parkEntry s = .next t ∧ t.dev.phase = .parked
      ∧ t.dev.parkReady = false ∧ t.dev.selfRefresh = true ∧ t.pm.railMv = 550 ∧ t.port.irqStatus = s.port.irqStatus ||| irqState
      ∧ t.pins.ppsOut = false ∧ (∀ n : Fin 16, t.pins.trigOut[n] = s.tu.trigs[n].polarity) ∧ t.port.heldRegs[0] = 0x54536440)
    ∧ (s.dev.parkReady = false → exec .parkEntry s = .next s)
    ∧ (s.dev.phase = .waking → ∃ t : State, exec .wakeComplete s = .next t ∧ t.dev = { s.dev with phase := .ready, ethForward := true }
      ∧ t.pm = { s.pm with railMv := s.pm.railTarget } ∧ t.port.irqStatus = s.port.irqStatus ||| irqState)
    ∧ (s.dev.phase ≠ .waking → exec .wakeComplete s = .next s)

/-! ## Time (chapter 2) -/

/-- TIME_CYCLE: n cycles advance TB-L by 4n ns and each base by n of its increments; schedule time advances by n increments of its source and
by no more than its error and the slew limit besides, and by exactly the increments before the first TIME_ALIGN; nothing else moves, and
in a cold reset, unpowered or parked nothing does (R28, R33 to R35). Completes: TIME_CYCLE. -/
def Obligations.TimeAdvances : Prop :=
  ∀ (s : State) (n : Nat),
    (n = 0 ∨ s.timeStopped = true → exec (.timeCycle n) s = .next s)
    ∧ (n ≠ 0 → s.timeStopped = false → ∃ t : State, exec (.timeCycle n) s = .next t
        ∧ t.tu.tbl.toNat = (s.tu.tbl.toNat + n * 2 ^ 34) % 2 ^ 96
        ∧ t.tu.baseA = { s.tu.baseA with count := advance s.tu.baseA.count (n * s.tu.baseA.inc) }
        ∧ t.tu.baseB = { s.tu.baseB with count := advance s.tu.baseB.count (n * s.tu.baseB.inc) }
        ∧ (∃ d : Int, t.tu.dt = advance s.tu.dt (n * s.tu.sourceInc s.tu.source + d) ∧ d.natAbs ≤ s.tu.err.natAbs
            ∧ d.natAbs ≤ ((n : Int) * (s.tu.sourceInc s.tu.source * s.tu.slewPpm.toNat / 1000000)).natAbs)
        ∧ (s.tu.aligned = false → t.tu.dt = advance s.tu.dt (n * s.tu.sourceInc s.tu.source))
        ∧ { t.tu with
            dt := s.tu.dt, tbl := s.tu.tbl, baseA := s.tu.baseA, baseB := s.tu.baseB, slewing := s.tu.slewing
            dtFar := s.tu.dtFar } = s.tu
        ∧ { t with tu := s.tu, evr := s.evr } = s)

/-- A measurement written by `TB_x_OFFSET_HI` to a base that takes its first: beyond 1 ms the counter is stepped by it and the integrator
cleared; else the servo gives the rate, and the eighth good one in a row locks a base of a network. A disabled base takes none (R31, R32).
A base without a measurement for TIMEOUT becomes LOST, and only such a base (R32), but one that awaits its time of day does not (R50); that
TB-L measures the time is the model's choice (log 61). A qualified PPS edge is captured and a second without one is counted once (R49); out
of READY, SERVICE and FAULT an edge is ignored (R444). Completes: TB_OFFSET_HI_WRITE, BASE_TIMEOUT, PPS_IN_EDGE, PPS_LOST. -/
def Obligations.BasesFollowTheirSources : Prop :=
  ∀ (s : State) (b : Base),
    (∀ v : Word, s.timeStopped = false →
      let e := signedOf 64 (v.toNat * 2 ^ 32 + (s.tu.base b).offsetLo.toNat)
      ((s.tu.base b).state = .disabled → ∃ t : State, exec (.tbOffsetHiWrite b v) s = .next t ∧ t.tu.base b = s.tu.base b)
      ∧ ((s.tu.base b).state = .acquiring → (s.tu.base b).prev = none → 1000000 < e.natAbs →
          ∃ t : State, exec (.tbOffsetHiWrite b v) s = .next t ∧ (t.tu.base b).count = advance (s.tu.base b).count (-e * 2 ^ 32)
            ∧ (t.tu.base b).integ = 0 ∧ (t.tu.base b).goodRun = 0 ∧ (t.tu.base b).state = .acquiring)
      ∧ ((s.tu.base b).state = .acquiring → (s.tu.base b).prev = none → e.natAbs ≤ 1000000 →
          ∃ t : State, exec (.tbOffsetHiWrite b v) s = .next t ∧ (t.tu.base b).count = (s.tu.base b).count
            ∧ (t.tu.base b).rate = ((s.tu.base b).servo e).rate
            ∧ (e.natAbs ≤ s.tu.lockNs.toNat → (s.tu.base b).goodRun = 7 → (s.tu.base b).srcPps = false →
                (t.tu.base b).state = .locked)
            ∧ (s.tu.lockNs.toNat < e.natAbs → (t.tu.base b).state = .acquiring ∧ (t.tu.base b).goodRun = 0)))
    ∧ ((s.tu.base b).state ≠ .disabled → (s.tu.base b).state ≠ .lost → (s.tu.base b).awaitsTod = false → s.timeStopped = false →
        (s.tu.base b).measAt + s.tu.timeout.toNat * 100000000 ≤ s.tblNs →
        ∃ t : State, exec (.baseTimeout b) s = .next t ∧ (t.tu.base b).state = .lost
          ∧ t.tu.base (otherBase b) = s.tu.base (otherBase b) ∧ t.tu.dt = s.tu.dt)
    ∧ (s.tblNs < (s.tu.base b).measAt + s.tu.timeout.toNat * 100000000 ∨ (s.tu.base b).awaitsTod = true →
        exec (.baseTimeout b) s = .next s)
    ∧ (s.pinsDriven = true → s.tu.baseA.onPps = false → s.tu.baseB.onPps = false →
        ∃ t : State, exec .ppsInEdge s = .next t ∧ t.tu.ppsCapt.toNat = s.dtNs ∧ t.tu.ppsValid = true ∧ t.tu.ppsLast = some s.tblNs
          ∧ t.tu.ppsMissed = 0 ∧ t.tu.dt = s.tu.dt)
    ∧ (s.pinsDriven = false → exec .ppsInEdge s = .next s)
    ∧ (s.pinsDriven = true → s.tu.baseA.refusesEdge = true → s.tu.baseA.ppsRejects < 2 → s.tu.baseB.onPps = false →
        ∃ t : State, exec .ppsInEdge s = .next t ∧ t.tu.baseA = { s.tu.baseA with
          ppsRejects := s.tu.baseA.ppsRejects + 1, ppsAcceptNext := false } ∧ t.tu.ppsCapt = s.tu.ppsCapt ∧ t.tu.ppsLast = s.tu.ppsLast)
    ∧ (∀ l : Nat, s.tu.ppsLast = some l → s.timeStopped = false →
        (l + (s.tu.ppsMissed + 1) * 1000000000 + 1000000 ≤ s.tblNs → ∃ t : State, exec .ppsLost s = .next t
          ∧ t.tu = { s.tu with ppsMissed := s.tu.ppsMissed + 1, ppsValid := false } ∧ { t with tu := s.tu, evr := s.evr } = s)
        ∧ (s.tblNs < l + (s.tu.ppsMissed + 1) * 1000000000 + 1000000 → exec .ppsLost s = .next s))

/-- A trigger pin at a programmed instant is driven active until its width has passed, extends a pulse that is active, and moves a periodic
pin to its next instant; an end that is reached drives the idle level; before their instants nothing happens, and nothing but the pin and
its registers changes (R46, R47). PPS_OUT rises at a whole second of its counter and falls 10 ms later (R48). Completes: TRIG_PULSE_START,
TRIG_PULSE_END, PPS_OUT_EDGE, PPS_OUT_END. -/
def Obligations.PulsePinsAreDriven : Prop :=
  ∀ (s : State) (n : Fin 16),
    (∀ at' : Nat, s.pinsDriven = true → s.tu.trigs[n].mode = 1 ∨ s.tu.trigs[n].mode = 2 → s.tu.trigs[n].nextAt = some at' →
      (at' ≤ s.dtNs → s.tu.trigs[n].pulseEnd = none →
        ∃ t : State, exec (.trigPulseStart n) s = .next t ∧ t.pins.trigOut[n] = !s.tu.trigs[n].polarity
          ∧ t.tu.trigs[n] = { s.tu.trigs[n] with
              nextAt := if s.tu.trigs[n].mode = 2 then some (at' + s.tu.trigs[n].period.toNat) else none
              pulseEnd := some (s.dtNs + pulseNs s.tu.trigs[n].width.toNat) }
          ∧ (∀ k, k ≠ n → t.tu.trigs[k] = s.tu.trigs[k] ∧ t.pins.trigOut[k] = s.pins.trigOut[k])
          ∧ { t with tu := { t.tu with trigs := s.tu.trigs }, pins := s.pins } = s)
      ∧ (∀ e : Nat, at' ≤ s.dtNs → s.tu.trigs[n].pulseEnd = some e →
        ∃ t : State, exec (.trigPulseStart n) s = .next t ∧ t.pins = s.pins ∧ t.tu.trigs[n].merged = true
          ∧ t.tu.trigs[n].pulseEnd = some (max e (s.dtNs + pulseNs s.tu.trigs[n].width.toNat))
          ∧ { t with tu := { t.tu with trigs := s.tu.trigs }, evr := s.evr } = s)
      ∧ (s.dtNs < at' → exec (.trigPulseStart n) s = .next s))
    ∧ (∀ d : TrigDue, s.pinsDriven = true → s.tu.trigs[n].mode = 3 → s.tu.trigs[n].pulseEnd = none → d.stamps = false →
        s.tu.table.find? (fun d => decide (d.pin = n.val ∧ d.due ≤ s.dtNs)) = some d →
        ∃ t : State, exec (.trigPulseStart n) s = .next t ∧ t.tu.table = s.tu.table.erase d
          ∧ t.tu.trigs[n].pulseEnd = some (s.dtNs + pulseNs d.width) ∧ t.pins.trigOut[n] = !s.tu.trigs[n].polarity)
    ∧ (∀ e : Nat, s.tu.trigs[n].pulseEnd = some e →
        (e ≤ s.dtNs → ∃ t : State, exec (.trigPulseEnd n) s = .next t ∧ t.pins.trigOut[n] = s.tu.trigs[n].polarity
          ∧ t.tu.trigs[n] = { s.tu.trigs[n] with pulseEnd := none }
          ∧ { t with tu := { t.tu with trigs := s.tu.trigs }, pins := s.pins } = s)
        ∧ (s.dtNs < e → exec (.trigPulseEnd n) s = .next s))
    ∧ (s.tu.ppsOutEn = true → s.pinsDriven = true → s.tu.ppsOutSec < s.tu.ppsOutNow →
        ∃ t : State, exec .ppsOutEdge s = .next t ∧ t.pins.ppsOut = true
          ∧ t.tu = { s.tu with ppsOutSec := s.tu.ppsOutNow, ppsOutEnd := some (s.dtNs + 10000000) }
          ∧ { t with tu := s.tu, pins := s.pins } = s)
    ∧ (s.tu.ppsOutNow ≤ s.tu.ppsOutSec → exec .ppsOutEdge s = .next s)
    ∧ (∀ e : Nat, s.tu.ppsOutEnd = some e → e ≤ s.dtNs → ∃ t : State, exec .ppsOutEnd s = .next t ∧ t.pins.ppsOut = false
        ∧ t.tu = { s.tu with ppsOutEnd := none } ∧ { t with tu := s.tu, pins := s.pins } = s)

/-- The bridge forwards a frame without PTP as it came; into a one-step Sync of EtherType 0x88F7 of a port that measures end to end it adds
the residence time by the base that serves its domain, else by TB-L, in units of 2^-16 ns, and changes no other byte; a two-step Sync goes
as it came and its residence is held; a switched-off bridge forwards nothing (R44, R45). Completes: BRIDGE_FORWARD. -/
def Obligations.TheBridgeCorrectsResidence : Prop :=
  ∀ (s : State) (p : EthPort) (f : List Byte) (r : Nat),
    (s.dev.ethForward = false → exec (.bridgeForward p f r) s = .next s)
    ∧ (s.dev.ethForward = true → ptpAt f = none →
        exec (.bridgeForward p f r) s = .next { s with tu := { s.tu with bridged := some (decide (p = .portB), f) } })
    ∧ (∀ d : Nat, s.tu.serving d = none → s.tu.residence d r = r)
    ∧ (∀ d : Nat, s.tu.serving d = some .tbA →
        (s.tu.residence d r : Int) = max 0 ((s.tu.baseA.count.toNat : Int) / 2 ^ 32 - (s.tu.baseA.count.toNat - r * s.tu.baseA.inc / 4) / 2 ^ 32))
    ∧ (s.dev.ethForward = true → ptpAt f = some (14, none) → ptpType f 14 = 0 → s.peerMode p = false → 48 ≤ f.length →
        (ptpTwoStep f 14 = false → ∃ g : List Byte,
          exec (.bridgeForward p f r) s = .next { s with tu := { s.tu with bridged := some (decide (p = .portB), g) } }
            ∧ beAt g 22 8 = (beAt f 22 8 + s.tu.residence (beAt f 18 1) r * 65536) % 2 ^ 64 ∧ g.take 22 = f.take 22
            ∧ g.drop 30 = f.drop 30)
        ∧ (ptpTwoStep f 14 = true → s.tu.heldSyncs = [] → ∃ (t : State) (h : HeldSync), exec (.bridgeForward p f r) s = .next t
            ∧ t.tu = { s.tu with bridged := some (decide (p = .portB), f), heldSyncs := [h] }
            ∧ h.residence = s.tu.residence (beAt f 18 1) r ∧ h.fromB = decide (p = .portB) ∧ h.domain = beAt f 18 1 ∧ h.seqId = beAt f 44 2))

/-! ## Arrivals (chapter 4) -/

/-- A camera's frame on a running channel that is not triggered: its start opens a free slot with the next SEQ and writes its header, a line
goes to the slot's memory at its place and is counted there, and its end closes the unit, writes its header and makes it READY with its
flags SET; a triggered channel takes the start for the exposure that waits; a packet without a frame is a link error or nothing; a channel
that does not run counts the frame (R87, R90 to R94, R99, R102). Completes: CSI2_FRAME_START, CSI2_LONG_PACKET, CSI2_FRAME_END. -/
def Obligations.CameraFramesArrive : Prop :=
  ∀ (s : State) (g : Fin 4) (vc : Fin 16) (ch : Fin 32) (d : List Byte) (i : Nat),
    s.isReady = true → s.csiChannel g vc = some (ch, d) →
    (s.sm.chans[ch].runs = true → s.sm.chans[ch].frame = none →
      (dTriggered d = false → s.sm.chans[ch].freeIdx = some i →
        ∃ t : State, exec (.csi2FrameStart g vc) s = .next t ∧ t.sm.chans[ch].frame = some i
          ∧ (t.sm.chans[ch].slot i).state = .opened ∧ (t.sm.chans[ch].slot i).seq = s.sm.chans[ch].seqNext
          ∧ (t.sm.chans[ch].slot i).desc = d
          ∧ (t.sm.chans[ch].slot i).firstDt = stampOf d s.dtNs ∧ (t.sm.chans[ch].slot i).count = 0
          ∧ t.mem = (s.writePool (dSlotBase d i) (t.sm.chans[ch].slot i).header).mem
          ∧ t.sm.chans[ch].seqNext = s.sm.chans[ch].seqNext + 1 ∧ (∀ c, c ≠ ch → t.sm.chans[c] = s.sm.chans[c])
          ∧ { t with sm := s.sm, mem := s.mem } = s)
      ∧ (∀ k, dTriggered d = true → s.sm.chans[ch].expect = some (k, some i) → i < s.sm.chans[ch].slots.length →
        let u := s.sm.chans[ch].slot i
        ∃ t : State, exec (.csi2FrameStart g vc) s = .next t ∧ t.sm.chans[ch].frame = some i ∧ t.sm.chans[ch].expect = none
          ∧ t.sm.chans[ch].slot i = { u with firstDt := stampOf u.desc s.dtNs, lastDt := stampOf u.desc s.dtNs }
          ∧ t.mem = (s.writePool (dSlotBase u.desc i) (t.sm.chans[ch].slot i).header).mem
          ∧ (∀ c, c ≠ ch → t.sm.chans[c] = s.sm.chans[c]) ∧ { t with sm := s.sm, mem := s.mem } = s)
      ∧ (dTriggered d = true → s.sm.chans[ch].expect = none →
        ∃ t : State, exec (.csi2FrameStart g vc) s = .next t ∧ t.sm.chans[ch].slots = s.sm.chans[ch].slots
          ∧ t.sm.chans[ch].counts.droppedNewest = s.sm.chans[ch].counts.droppedNewest + 1
          ∧ (∀ c, c ≠ ch → t.sm.chans[c] = s.sm.chans[c]) ∧ { t with sm := s.sm, evr := s.evr } = s)
      ∧ (∀ (ty : Byte) data link, exec (.csi2LongPacket g vc ty data link) s =
          .next (if link = .headerBad ∨ (link = .payloadCrc ∧ ((pixelBits ty.toNat).isSome = true ∨ ty.toNat = 0x12)) then s.linkError ch
            else s))
      ∧ exec (.csi2FrameEnd g vc) s = .next s)
    ∧ (s.sm.chans[ch].runs = true → s.sm.chans[ch].frame = some i → i < s.sm.chans[ch].slots.length →
        let u := s.sm.chans[ch].slot i
        (∀ (ty : Byte) (data : List Byte), ty.toNat = dfield u.desc 33 1 → u.count < dHeight u.desc →
          ∃ t : State, exec (.csi2LongPacket g vc ty data .clean) s = .next t
            ∧ t.mem = ((s.writePool (dSlotBase u.desc i + 64 + u.count * dStride u.desc) (storedLine u.desc data).1).writePool
                (dSlotBase u.desc i) (t.sm.chans[ch].slot i).header).mem
            ∧ (t.sm.chans[ch].slot i).count = u.count + 1 ∧ (t.sm.chans[ch].slot i).state = u.state
            ∧ ((storedLine u.desc data).2 = true → (t.sm.chans[ch].slot i).status = u.status ||| 2)
            ∧ ((storedLine u.desc data).2 = false → (t.sm.chans[ch].slot i).status = u.status)
            ∧ t.sm.chans[ch].counts = s.sm.chans[ch].counts ∧ (∀ c, c ≠ ch → t.sm.chans[c] = s.sm.chans[c])
            ∧ { t with sm := s.sm, mem := s.mem, flags := s.flags } = s)
        ∧ (dHeight u.desc ≤ u.count → u.state = .opened →
          ∃ t : State, exec (.csi2FrameEnd g vc) s = .next t ∧ t.sm.chans[ch].frame = none
            ∧ (t.sm.chans[ch].slot i).state = .ready ∧ (t.sm.chans[ch].slot i).lastDt = stampOf u.desc s.dtNs
            ∧ t.sm.chans[ch].counts.unitsAccepted = s.sm.chans[ch].counts.unitsAccepted + 1
            ∧ t.mem = (s.writePool (dSlotBase u.desc i)
                ({ u with state := .ready, lastDt := stampOf u.desc s.dtNs } : Slot).header).mem
            ∧ (∀ f ∈ unitFlags u, f ∉ u.groupsSet → t.flag f = some .set)
            ∧ (∀ c, c ≠ ch → t.sm.chans[c] = s.sm.chans[c]) ∧ { t with sm := s.sm, mem := s.mem, flags := s.flags } = s))
    ∧ (s.sm.chans[ch].runs = false → exec (.csi2FrameStart g vc) s = .next (s.countDisabled ch)
        ∧ (s.countDisabled ch).sm.chans[ch].counts.droppedDisabled = s.sm.chans[ch].counts.droppedDisabled + 1
        ∧ (∀ ty data link, exec (.csi2LongPacket g vc ty data link) s = .next s) ∧ exec (.csi2FrameEnd g vc) s = .next s)

/-- Records of the other sources: an Ethernet frame is counted on its port, and a PTP message goes to the time unit with the time that it
came, a frame with a wrong FCS is refused, and a frame that a running channel without a template takes becomes a record of it; a DRDY edge
starts a transaction of the channel on the line, a poll one of its channel with its chip-select and command bytes on the bus, and a
transaction that ends gives its channel a record; a channel that does not run counts an edge; a record that fits the open slot is appended
to it (R41, R87, R90, R91, R103, R105, R106). Completes: ETH_FRAME_RECEIVE, DRDY_EDGE, SPI_POLL_PERIOD, SPI_TRANSACTION_DONE. -/
def Obligations.RecordsArrive : Prop :=
  ∀ (s : State) (ch : Fin 32) (d : List Byte), s.isReady = true → s.dev.ethForward = true →
    (∀ (p : EthPort) (f : List Byte), f.length + 4 ≤ 9216 →
      let i : Fin 5 := match p with | .portA => 0 | .portB => 1
      let j : Fin 5 := match p with | .portA => 2 | .portB => 3
      ((ptpAt f).isSome = true → ∃ (t : State) (m : PtpMsg), exec (.ethFrameReceive p f true) s = .next t
        ∧ t.sm.ethCounts = s.sm.ethCounts.set i (countUp s.sm.ethCounts[i] 1) ∧ t.tu.ptpIn = m :: s.tu.ptpIn
        ∧ m.frame = f ∧ m.onDt.toNat = s.dtNs % 2 ^ 64 ∧ { t.tu with ptpIn := s.tu.ptpIn } = s.tu
        ∧ { t.sm with ethCounts := s.sm.ethCounts } = s.sm ∧ { t with sm := s.sm, tu := s.tu } = s)
      ∧ (s.ethChannel p f = none → ∃ t : State, exec (.ethFrameReceive p f false) s = .next t
        ∧ t.sm.ethCounts = s.sm.ethCounts.set j (countUp s.sm.ethCounts[j] 1) ∧ t.sm.status = s.sm.status ||| 2
        ∧ t.sm.chans = s.sm.chans ∧ { t with sm := s.sm } = s)
      ∧ (ptpAt f = none → s.ethChannel p f = some (ch, d) → s.sm.chans[ch].runs = true → dfield d 40 4 = 0 →
        (∀ k, s.sm.chans[ch].openIdx = some k → dfield (s.sm.chans[ch].slot k).desc 40 4 = 0) →
        exec (.ethFrameReceive p f true) s = .next ((s.ethCount i).appendRecord ch d fun d => .ok (stampOf d s.dtNs, f)))
      ∧ (ptpAt f = none → s.ethChannel p f = some (ch, d) → s.sm.chans[ch].runs = false →
        exec (.ethFrameReceive p f true) s = .next ((s.ethCount i).countDisabled ch)))
    ∧ (∀ (line : Fin 8) (rising : Bool), s.sm.chans[ch].desc = some d → dKind d = 3 → dPolls d = false →
        dfield d 35 1 % 8 = line.val → (dfield d 35 1).testBit 6 = !rising → (∀ c, c ≠ ch → s.sm.chans[c].desc = none) →
        (s.sm.chans[ch].runs = true → ((s.sm.spi[dCtl d]).drop 1).any (fun j => decide (j.channel = ch)) = false →
          exec (.drdyEdge line rising) s = .next (State.spiDrive { s with sm := { s.sm with
            spi := s.sm.spi.set (dCtl d) (s.sm.spi[dCtl d] ++ [{ channel := ch, stamp := s.dtNs }]) } } (dCtl d)))
        ∧ (s.sm.chans[ch].runs = true → ((s.sm.spi[dCtl d]).drop 1).any (fun j => decide (j.channel = ch)) = true →
          ∃ t : State, exec (.drdyEdge line rising) s = .next t ∧ t.sm.spi = s.sm.spi
            ∧ t.sm.chans[ch].counts.drdyMissed = s.sm.chans[ch].counts.drdyMissed + 1 ∧ { t with sm := s.sm } = s)
        ∧ (s.sm.chans[ch].runs = false → s.sm.chans[ch].everEnabled = true →
          exec (.drdyEdge line rising) s = .next (s.countDisabled ch)))
    ∧ (s.sm.chans[ch].desc = some d → dEnable d = true → dKind d = 3 → dPolls d = true →
        (s.sm.chans[ch].runs = true → s.sm.chans[ch].everEnabled = true → s.sm.spi[dCtl d] = [] → s.sm.chans[ch].openIdx = none →
          s.sm.chans[ch].nextPoll ≤ s.dtNs → ∃ t : State, exec (.spiPollPeriod ch) s = .next t
          ∧ t.sm.spi[dCtl d] = [{ channel := ch, stamp := s.dtNs }]
          ∧ t.sm.spiBus[dCtl d] = { cs := some (dfield d 32 1), mode := dfield d 33 1, clkDiv := dfield d 34 1,
                                    command := (d.drop 40).take (dfield d 38 1), readLen := dfield d 36 2 }
          ∧ t.sm.chans[ch] = { s.sm.chans[ch] with nextPoll := s.sm.chans[ch].nextPoll + dfield d 48 4 } ∧ { t with sm := s.sm } = s)
        ∧ (s.dtNs < s.sm.chans[ch].nextPoll → exec (.spiPollPeriod ch) s = .next s))
    ∧ (∀ (ctl : Fin 4) (data : List Byte),
        (s.sm.spi[ctl] = [] → exec (.spiTransactionDone ctl data) s = .next s)
        ∧ (∀ j : SpiJob, s.sm.spi[ctl] = [j] → j.channel = ch → s.sm.chans[ch].desc = some d → s.sm.chans[ch].runs = true →
            dRoute d = 0 → data.length = s.sm.spiBus[ctl].readLen →
            exec (.spiTransactionDone ctl data) s = .next
              (({ s with sm := { s.sm with spi := s.sm.spi.set ctl [], spiBus := s.sm.spiBus.set ctl SpiBus.idle } } : State).appendRecord
                ch d fun d => .ok (stampOf d j.stamp, data))))
    ∧ (∀ (i : Nat) (mk : RecordMaker) (r : Nat × List Byte), s.sm.chans[ch].openIdx = some i →
        let u := s.sm.chans[ch].slot i
        mk u.desc = .ok r → 64 + up16 u.bytes + 16 + r.2.length ≤ dSlotBytes u.desc →
        let t := s.appendRecord ch d mk
        (t.sm.chans[ch].slot i).count = u.count + 1
          ∧ (t.sm.chans[ch].slot i).bytes = up16 u.bytes + (16 + r.2.length)
          ∧ (t.sm.chans[ch].slot i).lastDt = r.1 ∧ (t.sm.chans[ch].slot i).state = .opened
          ∧ t.sm.chans[ch].recSeq = countUp s.sm.chans[ch].recSeq 1
          ∧ t.sm.chans[ch].counts.lastArrivalDt.toNat = r.1 % 2 ^ 64
          ∧ t.mem = ((s.writePool (dSlotBase u.desc i + 64 + up16 u.bytes)
              (recordBytes r.1 r.2 false s.sm.chans[ch].recSeq)).writePool (dSlotBase u.desc i) (t.sm.chans[ch].slot i).header).mem
          ∧ { t with sm := s.sm, mem := s.mem } = s)

/-! ## The inertial front end (chapter 5) -/

/-- A record of an inertial input that is due completes at its grid instant, with the next SEQ: in a hold with the hold's status, with a full
window with the sum of the resampler, and with a window that lacks samples as an invalid record that says what it lacks; one that is not
due does not (R113, R116 to R121). Completes: IFE_RECORD_COMPLETE. -/
def Obligations.InertialRecordsComplete : Prop :=
  ∀ (s : State) (n : Fin 4) (b : IfeBinding), s.ife.inputs[n].binding = some b → s.ife.inputs[n].runs = true → b.direct = false →
    s.emitOf n.val = none → s.ife.inputs[n].kept.length < 16 →
    (s.dtNs < s.ife.inputs[n].nextT + fsLat (s.filterOf b) → exec (.ifeRecordComplete n) s = .next s)
    ∧ (s.ife.inputs[n].nextT + fsLat (s.filterOf b) ≤ s.dtNs → s.ife.held = true →
        ∃ (t : State) (r : List Byte), exec (.ifeRecordComplete n) s = .next t
          ∧ t.ife.inputs[n] = { s.ife.inputs[n] with
              kept := s.ife.inputs[n].kept ++ [r], nextT := s.ife.inputs[n].nextT + fsOut (s.filterOf b), seq := s.ife.inputs[n].seq + 1 }
          ∧ r.length = 48 ∧ r.take 16 = ifeHead s.ife.inputs[n].nextT s.ife.inputs[n].seq 0x10 n.val
          ∧ { t with ife := s.ife, free := s.free } = s)
    ∧ (∀ (line : List ChainSample) (phase : Nat), s.ife.inputs[n].nextT + fsLat (s.filterOf b) ≤ s.dtNs → s.ife.held = false →
        windowAt s.ife.inputs[n].outs s.ife.inputs[n].nextT = .ready line phase →
        ∃ t : State, exec (.ifeRecordComplete n) s = .next t ∧ (∀ k, k ≠ n → t.ife.inputs[k] = s.ife.inputs[k])
          ∧ t.ife.inputs[n] = { s.ife.inputs[n] with
              kept := s.ife.inputs[n].kept ++ [ifeHead s.ife.inputs[n].nextT s.ife.inputs[n].seq
                  (1 + 8 * b2n (line.any (·.filled))) n.val
                ++ ((List.range 6).flatMap fun a => natLe 4 (gainStep (s.filterOf b) a (resample (s.filterOf b) line phase a) 24))
                ++ List.replicate 8 0]
              nextT := s.ife.inputs[n].nextT + fsOut (s.filterOf b), seq := s.ife.inputs[n].seq + 1, settled := true }
          ∧ { t with ife := s.ife, evr := s.evr } = s)
    ∧ (∀ (line : List ChainSample) (older newer : Bool), s.ife.inputs[n].nextT + fsLat (s.filterOf b) ≤ s.dtNs → s.ife.held = false →
        windowAt s.ife.inputs[n].outs s.ife.inputs[n].nextT = .part line older newer →
        ∃ (t : State) (r : List Byte), exec (.ifeRecordComplete n) s = .next t
          ∧ t.ife.inputs[n] = { s.ife.inputs[n] with
              kept := s.ife.inputs[n].kept ++ [r], nextT := s.ife.inputs[n].nextT + fsOut (s.filterOf b), seq := s.ife.inputs[n].seq + 1 }
          ∧ r.length = 48 ∧ r.take 16 = ifeHead s.ife.inputs[n].nextT s.ife.inputs[n].seq (2 * b2n older
              + 4 * b2n (s.ife.inputs[n].late (s.filterOf b) s.ife.inputs[n].nextT older newer) + 8 * b2n (line.any (·.filled))) n.val
          ∧ { t with ife := s.ife, free := s.free } = s)

/-- SYNC_IN: a rise that has lasted 1 us is captured at its own instant, counted, and begins a hold there unless it is ignored or one is on; a
release that has lasted 1 us ends the hold at the fall and restarts the inputs from there; and a hold of more than 10 ms is marked stuck
once; out of READY, SERVICE and FAULT a rise is ignored (R121 to R123, R444). Completes: SYNC_IN_RISE, SYNC_IN_RELEASE, IFE_SYNC_STUCK. -/
def Obligations.SyncInHoldsTheInputs : Prop :=
  ∀ s : State,
    (s.pinsDriven = false → exec .syncInRise s = .next { s with pins := { s.pins with syncIn := true } })
    ∧ (s.pinsDriven = true → ∃ t : State, exec .syncInRise s = .next t ∧ t.pins = { s.pins with syncIn := true }
      ∧ t.ife.syncDt.toNat = (s.dtNs - 1000) % 2 ^ 64 ∧ t.ife.syncEdges = countUp s.ife.syncEdges 1
      ∧ (s.ife.syncIgnore = true → t.ife.held = s.ife.held ∧ t.ife.inputs = s.ife.inputs)
      ∧ (s.ife.syncIgnore = false → s.ife.held = false → t.ife.held = true ∧ t.ife.holdSince = s.dtNs - 1000)
      ∧ { t with pins := s.pins, ife := s.ife, evr := s.evr } = s)
    ∧ (s.dev.inReset = false → s.ife.held = true → (∀ n : Fin 4, s.ife.inputs[n].heldData = []) →
      ∃ t : State, exec .syncInRelease s = .next t ∧ t.pins = { s.pins with syncIn := false }
      ∧ t.ife.held = false ∧ t.ife.stuck = false ∧ t.ife.restartAt = s.dtNs - 1000
      ∧ (∀ (n : Fin 4) (b : IfeBinding), s.ife.inputs[n].binding = some b → b.direct = false →
          t.ife.inputs[n].lastTau = none ∧ t.ife.inputs[n].outs = [] ∧ t.ife.inputs[n].settled = false)
      ∧ { t with pins := s.pins, ife := s.ife, evr := s.evr } = s)
    ∧ (s.dev.inReset = false → s.ife.held = false →
        exec .syncInRelease s = .next { s with pins := { s.pins with syncIn := false } })
    ∧ (s.ife.held = true → s.pins.syncIn = true → s.ife.stuck = false → s.ife.holdSince + 10000000 < s.dtNs →
        ∃ t : State, exec .ifeSyncStuck s = .next t ∧ t.ife = { s.ife with stuck := true, stuckSeen := true }
          ∧ { t with ife := s.ife, evr := s.evr } = s)
    ∧ (s.dtNs ≤ s.ife.holdSince + 10000000 → exec .ifeSyncStuck s = .next s)

/-- An encoder whose channel runs: a transition of one line, not closer than 40 ns to another, moves the position as the decoding says and
nothing else of it but the levels and the instant; an index edge captures the position where `Z_CAPTURE` is set; a sample instant takes
the position; 100 ns after it the record goes to the channel with the position and the flags; before their instants nothing happens (R125
to R127). Completes: ENC_TRANSITION, ENC_Z_EDGE, ENC_SAMPLE, ENC_RECORD_COMPLETE. -/
def Obligations.EncodersCount : Prop :=
  ∀ (s : State) (e : Fin 8) (ch : Fin 32) (d : List Byte), s.encChannel e = some (ch, d) →
    (s.ife.encs[e].lastA = none → s.ife.encs[e].lastB = none →
      exec (.encTransition e (!s.ife.encs[e].levelA) s.ife.encs[e].levelB) s = .next (s.updEnc e fun x => { x with
        levelA := !x.levelA, lastA := some s.dtNs
        pos := x.pos + BitVec.ofInt 32 (encDelta (dfield d 32 1) true (!x.levelA) x.levelB) })
      ∧ exec (.encTransition e s.ife.encs[e].levelA (!s.ife.encs[e].levelB)) s = .next (s.updEnc e fun x => { x with
        levelB := !x.levelB, lastB := some s.dtNs
        pos := x.pos + BitVec.ofInt 32 (encDelta (dfield d 32 1) false x.levelA (!x.levelB)) }))
    ∧ exec (.encTransition e s.ife.encs[e].levelA s.ife.encs[e].levelB) s = .next s
    ∧ ((dfield d 32 1).testBit 6 = true → exec (.encZEdge e) s = .next (s.updEnc e fun x => { x with
        indexPos := x.pos, indexTs := BitVec.ofNat 32 s.dtNs, indexDt := BitVec.ofNat 64 s.dtNs, indexNew := true, status := x.status ||| 4 }))
    ∧ ((dfield d 32 1).testBit 6 = false → exec (.encZEdge e) s = .next s)
    ∧ (s.ife.encs[e].runs = true → s.ife.encs[e].nextSample ≤ s.dtNs → exec (.encSample e) s = .next (s.updEnc e fun x => { x with
        sampled := x.sampled ++ [{ instant := x.nextSample, pos := x.pos, overs := false, quad := false }]
        nextSample := x.nextSample + max 1 x.sampleNs }))
    ∧ (s.dtNs < s.ife.encs[e].nextSample → exec (.encSample e) s = .next s)
    ∧ (s.ife.encs[e].sampled = [] → exec (.encRecordComplete e) s = .next s)
    ∧ (∀ (m : EncSample) (rest : List EncSample), s.ife.encs[e].sampled = m :: rest →
        (s.dtNs < m.instant + 100 → exec (.encRecordComplete e) s = .next s)
        ∧ (m.instant + 100 ≤ s.dtNs → s.ife.encs[e].indexNew = true → 2 ^ 31 ≤ (dtDiff m.instant s.ife.encs[e].indexDt.toNat).natAbs →
            ∃ t : State, exec (.encRecordComplete e) s = .next t ∧ t.ife.encs[e].sampled = rest ∧ t.ife.encs[e].indexNew = false
              ∧ (mapGet t.tu.staleSeen 0x04).getD 0 = (mapGet s.tu.staleSeen 0x04).getD 0 + 1)
        ∧ (m.instant + 100 ≤ s.dtNs → m.overs = false → m.quad = false → s.ife.encs[e].spanOver = false →
            (s.ife.encs[e].indexNew = false ∨ (dtDiff m.instant s.ife.encs[e].indexDt.toNat).natAbs < 2 ^ 31) →
            s.ife.encs[e].spanQuad = false → dRoute d = 0 →
            exec (.encRecordComplete e) s = .next
              ((s.updEnc e fun x => { x with sampled := rest, indexNew := false, discont := false }).appendRecord ch d fun d => .ok (stampOf d m.instant,
                natLe 4 m.pos.toNat ++ natLe 4 s.ife.encs[e].indexPos.toNat ++ natLe 4 s.ife.encs[e].indexTs.toNat
                  ++ natLe 2 (1 + 2 * b2n s.ife.encs[e].discont + 16 * b2n s.ife.encs[e].indexNew) ++ [0, 0]))))

/-! ## Fusion, the pose record and the motion port (chapters 9 and 10) -/

/-- A record of a binding is taken as its flag is set: a record that is not valid is only noted for the next pose record, one of another unit
than the primary leaves the filter and the head alone, and one of the primary unit carries the filter to its instant, keeps a checkpoint at its
place in the history ring (whose order is the model's, log 67) and publishes a pose record; without its flag nothing happens (R232, R233, R242, R247). Completes: INERTIAL_RECORD_PROPAGATE. -/
def Obligations.InertialRecordsPropagate : Prop :=
  ∀ (s : State) (n : Fin 4) (chk : Check),
    (s.activeBind n.val = none → exec (.inertialRecordPropagate n chk) s = .next s)
    ∧ ∀ b : Binding, s.activeBind n.val = some b →
      (s.flagSet (b.flagFirst + b.nextRec) = false → exec (.inertialRecordPropagate n chk) s = .next s)
      ∧ (b.nextRec < b.flagCount → s.flagSet (b.flagFirst + b.nextRec) = true → s.inSpan = true →
        let r := s.readPool (b.ringOffset + b.nextRec % b.ringRecs * 48) 48
        let binds := s.fus.binds.map fun (x : Binding) => if x.input = b.input then { x with nextRec := x.nextRec + 1 } else x
        ((fieldAt r 12 2).testBit 0 = false → exec (.inertialRecordPropagate n chk) s = .next
          { s with fus := { s.fus with binds := binds, sticky := s.fus.sticky ||| 0x400 } })
        ∧ ((fieldAt r 12 2).testBit 0 = true → s.fus.unitBad s.fus.params.primary = false → n.val ≠ s.fus.params.primary →
          ∃ t : State, exec (.inertialRecordPropagate n chk) s = .next t ∧ t.fus.binds = binds ∧ t.fus.ego = s.fus.ego
            ∧ t.fus.head = s.fus.head ∧ t.fus.seq = s.fus.seq ∧ { t with fus := s.fus } = s)
        ∧ ((fieldAt r 12 2).testBit 0 = true → s.fus.unitBad s.fus.params.primary = false → n.val = s.fus.params.primary →
          s.fus.initialised = true → chk = .clean →
          ∃ t : State, exec (.inertialRecordPropagate n chk) s = .next t ∧ t.fus.binds = binds
            ∧ t.fus.ego.dt = max s.fus.ego.dt (fieldAt r 0 8) ∧ t.fus.lastProp = some s.dtNs ∧ t.fus.propBad = false
            ∧ t.fus.seq = s.fus.seq + 1 ∧ t.pins.poseStrobe = !s.pins.poseStrobe ∧ t.fus.sticky = 0
            ∧ t.fus.history.head? = some t.fus.ego ∧ t.fus.resident = s.fus.resident
            ∧ ((∀ i : Fin 8, s.mbx[i].poseSub = none) → s.fus.historyRun = none → t.mem = s.mem)
            ∧ (∀ base pages : Nat, (∀ i : Fin 8, s.mbx[i].poseSub = none) → s.fus.historyRun = some (base, pages) →
                t.mem = (s.writeMem (base + 12288 * (s.fus.historyNext % max 1 (65536 * pages / 12288))) t.fus.ego.bytes).mem)
            ∧ { t with fus := s.fus, pins := s.pins, port := s.port, mbx := s.mbx, evr := s.evr, mem := s.mem } = s))

/-- The gap timer that expires in service publishes one record and MOTION_PERMIT is low; the 200 ms average of a POSE_INIT that is over is
kept with its command, which then waits for a boundary; a directory commit waits for its boundary, and the absent keys are cleared (R218,
R230, R248). Completes: POSE_ALIGN_DONE, FLD_DIR_COMMIT, FLD_ABSENT_CLEAR, POSE_GAP_EXPIRY. -/
def Obligations.PoseTimersExpire : Prop :=
  ∀ s : State,
    (∀ l : Nat, s.permitService = true → s.fus.initialised = true → s.fus.gapSaid = false → s.fus.lastProp = some l →
      l + s.fus.params.maxGapNs < s.dtNs →
      ∃ t : State, exec .poseGapExpiry s = .next t ∧ t.pins.motionPermit = false ∧ t.fus.gapSaid = true
        ∧ t.fus.seq = s.fus.seq + 1 ∧ t.pins.poseStrobe = !s.pins.poseStrobe ∧ t.fus.ego = s.fus.ego
        ∧ ((∀ i : Fin 8, s.mbx[i].poseSub = none) → t.mem = s.mem)
        ∧ { t with fus := s.fus, pins := s.pins, port := s.port, mbx := s.mbx, evr := s.evr, mem := s.mem } = s)
    ∧ (∀ l : Nat, s.fus.lastProp = some l → s.dtNs ≤ l + s.fus.params.maxGapNs → exec .poseGapExpiry s = .next s)
    ∧ (s.alignDue = none → exec .poseAlignDone s = .next s)
    ∧ (∀ (j : Job) (p : List Byte) (from' : Nat), s.alignDue = some j → j.kind = .poseAlign p (some from') false →
        let q := (s.fus.alignRecs.filter fun r => decide (from' ≤ fieldAt r 0 8 ∧ fieldAt r 0 8 ≤ from' + 200000000)).flatten
        ∃ t : State, exec .poseAlignDone s = .next t
          ∧ t.fw.jobs = s.fw.jobs.map (fun x => if x = j then { j with kind := .poseAlign (p ++ q) (some from') true } else x)
          ∧ (s.fw.jobs = [j] → t.fus = { s.fus with alignFrom := none, alignRecs := [] }) ∧ { t with fw := s.fw, fus := s.fus } = s)
    ∧ exec .fldDirCommit s = .next { s with fld := { s.fld with commitPending := true } }
    ∧ exec .fldAbsentClear s = .next { s with fld := { s.fld with absentKeys := [] } }

/-- The motion port: the fall of MPORT_CS_N binds the current buffer, READ_POSE shifts out the bound record and READ_ID the identifier, zeros
after either, any other command 0xFF, and the rise frees the buffer; a later command of the same transaction shifts out nothing new, and a
record published meanwhile goes to the other buffer (R246, R247). Completes: MPORT_CS_FALL, MPORT_READ_POSE, MPORT_READ_ID,
MPORT_OTHER_COMMAND, MPORT_CS_RISE. -/
def Obligations.TheMotionPortReadsOneRecord : Prop :=
  ∀ (s : State) (n : Nat),
    (s.pins.mportCsN = true → s.dev.inReset = false → exec .mportCsFall s = .next { s with
      pins := { s.pins with mportCsN := false, mportMiso := some [] }, fus := { s.fus with bound := some s.fus.current } })
    ∧ (s.pins.mportMiso = some [] →
        (∀ b : Bool, s.fus.bound = some b →
          let r := if b then s.fus.bufs[(1 : Fin 2)] else s.fus.bufs[(0 : Fin 2)]
          exec (.mportReadPose n) s =
            .next { s with pins := { s.pins with mportMiso := some ((r ++ List.replicate (n - r.length) 0).take n) } })
        ∧ exec (.mportReadId 6) s = .next { s with pins := { s.pins with mportMiso := some [0x40, 0x64, 0x53, 0x54, 0, 0] } }
        ∧ (∀ op : Byte, op ≠ 0x0B → op ≠ 0x9F →
            exec (.mportOtherCommand op 2) s = .next { s with pins := { s.pins with mportMiso := some [0xFF, 0] } }))
    ∧ (s.pins.mportMiso ≠ some [] → exec (.mportReadPose n) s = .next s ∧ exec (.mportReadId n) s = .next s
        ∧ ∀ op, exec (.mportOtherCommand op n) s = .next s)
    ∧ exec .mportCsRise s = .next { s with pins := { s.pins with mportCsN := true, mportMiso := none }, fus := { s.fus with bound := none } }
    ∧ (∀ (b : Bool) (r : List Byte), s.fus.bound = some b →
        (s.mportPut r).fus.bufs[b.toNat]'(by cases b <;> decide) = s.fus.bufs[b.toNat]'(by cases b <;> decide)
        ∧ (s.mportPut r).fus.current = !b)

/-! ## The solver and the place search engine (chapters 11 and 12) -/

/-- An iteration of a window job that ends clean: stopped, the job completes, is counted, and is committed at the next boundary if an
iteration was accepted; going on, the guard is asked again; an iteration's time counts in `CYCLES_MAX`, which saturates; one residue mismatch runs the iteration again. A deadline that has passed
abandons an iteration, a service window that is over suspends its job, its factor state kept, and a compiled schedule enters an empty
queue, waits behind the job that runs, or takes up a closure added to the pending one (R258, R263 to R270). Completes: SLV_ITERATION_END, SLV_DEADLINE_MISS, SLV_WINDOW_END, GRAPH_SCHEDULE_COMPILED. -/
def Obligations.SolverJobsIterate : Prop :=
  ∀ s : State,
    (∀ j : SlvJob, s.slv.queueEn = false → s.slv.window = some j → j.graph = false → j.iterating = true → j.overdue s.dtNs = false →
      s.dtNs - j.iterStart ≤ j.wNs →
      let it := (({ j with cyclesMax := min 0xFFFFFFFF (max j.cyclesMax ((s.dtNs - j.iterStart) * 3 / 2)) } : SlvJob).iterate (s.jobRig j))
      (it.2 = true → ∃ t : State, exec (.slvIterationEnd .clean) s = .next t ∧ t.slv.window = none
          ∧ t.slv.counts[0] = countUp s.slv.counts[0] 1 ∧ (it.1.accepted = 0 → t.slv.done = s.slv.done)
          ∧ (1 ≤ it.1.accepted → ∃ d : SlvDone, t.slv.done = s.slv.done ++ [d] ∧ d.graph = false ∧ d.poses = it.1.poses
              ∧ d.lands = it.1.lands ∧ d.iters = it.1.iters ∧ d.latched = false))
      ∧ (it.2 = false → s.dtNs + it.1.wNs ≤ it.1.deadline → exec (.slvIterationEnd .clean) s = .next { s with slv := { s.slv with
          window := some { it.1 with iterating := true, iterStart := s.dtNs, startDt := some (it.1.startDt.getD s.dtNs) } } })
      ∧ (∀ u : Byte, j.mismatches = 0 → it.1.graph = false → ∃ t : State, exec (.slvIterationEnd (.once u)) s = .next t
          ∧ t.slv.window = some { j with mismatches := 1 } ∧ t.slv.mismatch = true ∧ t.slv.counts[5] = countUp s.slv.counts[5] 1
          ∧ { t with slv := s.slv, evr := s.evr } = s))
    ∧ (∀ chk, s.slv.window = none → s.slv.graph = none → exec (.slvIterationEnd chk) s = .next s ∧ exec .slvDeadlineMiss s = .next s)
    ∧ (∀ j : SlvJob, s.slv.window = some j → j.graph = false → j.iterating = true → j.deadline < s.dtNs →
        ∃ t : State, exec .slvDeadlineMiss s = .next t ∧ t.slv.window = none ∧ t.slv.miss = true
          ∧ t.slv.counts[2] = countUp s.slv.counts[2] 1 ∧ t.slv.counts[0] = countUp s.slv.counts[0] 1 ∧ t.slv.done = s.slv.done)
    ∧ (∀ (r : Running) (p : Fin 4) (img : Image) (ops : List Op), s.slvService = some r → s.sectionOf .slv = some (p, img, ops) →
        (img.param r.op.argB 2 < s.grain → ∃ t : State, exec .slvWindowEnd s = .next t
          ∧ (t.seq .slv).running = (s.seq .slv).running.filter (fun x => decide (x.op.opcode ≠ 0x11))
          ∧ t.slv = { s.slv with graph := s.slv.graph.map fun (j : SlvJob) => j.flag 8 }
          ∧ (∀ f, r.op.sets = some f → t.flag f = some .set)
          ∧ t.mem = (match s.slv.graph with | some j => if j.iterating then (s.keepFactor j).mem else s.mem | none => s.mem))
        ∧ (s.grain ≤ img.param r.op.argB 2 → exec .slvWindowEnd s = .next s))
    ∧ (∀ a : Nat, s.isReady = true → s.dev.cpHalted[1] = false → s.slv.waiting = some a →
        exec .graphScheduleCompiled s = .next (s.addClosure a)
        ∧ { s.addClosure a with mem := s.mem, free := s.free } = s)
    ∧ (s.isReady = true → s.dev.cpHalted[1] = false → s.slv.waiting = none →
        ∃ (t : State) (a : Nat), exec .graphScheduleCompiled s = .next t
          ∧ (s.slv.graph = none → s.slv.queue.getLsbD 0 = false → t.slv = { s.slv with queue := BitVec.ofNat 64 (a + 1) })
          ∧ (s.slv.queue.getLsbD 0 = true → t.slv = { s.slv with waiting := some a }))
    ∧ (s.isReady = false → exec .graphScheduleCompiled s = .next s)

/-- The place search engine: a service window that is over ends its operation; blocks that landed carry the query's round on, and an
unreadable one without a mirror poisons the index; a query whose walks are over leaves the queue and is counted, and so does one whose
wait has passed; an insert that has its turn in the window and 60 grains left (how the share's grains are counted is the model's
choice, log 51) appends one record with the next ID; what is not due does nothing (R283, R286, R288, R293, R294). Completes:
PS_WINDOW_END, PS_FLASH_BLOCKS_LANDED, PS_QUERY_COMPLETE, PS_QUERY_EXPIRED, PS_INSERT_DONE. -/
def Obligations.PlaceSearchProgresses : Prop :=
  ∀ s : State,
    (∀ (r : Running) (img : Image), s.psService = some (r, img) →
      (img.param r.op.argB 2 < s.grain → ∃ t : State, exec .psWindowEnd s = .next t
          ∧ (t.seq .ps).running = (s.seq .ps).running.filter (fun x => decide (x.op.opcode ≠ 0x10)) ∧ t.ps = s.ps
          ∧ (∀ f, r.op.sets = some f → t.flag f = some .set))
      ∧ (s.grain ≤ img.param r.op.argB 2 → exec .psWindowEnd s = .next s))
    ∧ (∀ (n : Nat) (q : PsQuery) (ix : PsIndex), s.ps.queries.find? (fun x => decide (x.num = n)) = some q →
        s.psIndex (q.d 0 4) = some ix →
        (s.psWindow = true → q.round ≠ [] →
            q.scanning = false →
            (s.mt.queue.any fun r => match r.work with
              | .nodeBlocks h k bs => decide (h = ix.handle ∧ k = (ix.shardAt q.epoch).1) &&
                  bs.any fun b => decide (b ∈ (q.round.map fun i => i / ix.perBlock).eraseDups)
              | _ => false) = false →
            (∀ (bad : List Nat), (∀ b ∈ bad, ∀ i ∈ q.round, i / ix.perBlock ≠ b) →
              let w := expandRound (distTable ix ix.tables q.vec) (ix.flashAt q.epoch) q.l q.epoch q.round (q.queue, q.visited)
              nextRound w.1 (q.d 8 1) = [] → ∃ t : State, exec (.psFlashBlocksLanded n bad) s = .next t
                ∧ t.ps.queries = s.ps.queries.map (fun x => if x.num = n then
                    { q with queue := w.1, visited := w.2, round := [], walking := false } else x)
                ∧ { t with ps := s.ps } = s)
            ∧ (∀ i ∈ q.round, ix.mirror = false → ∃ t : State, exec (.psFlashBlocksLanded n [i / ix.perBlock]) s = .next t
                ∧ t.ps.poisoned = true))
        ∧ (s.psWindow = true → q.taken.isSome = true → q.walking = false → (q.d 10 2).testBit 0 = false → q.scanning = false →
            (q.d 10 2).testBit 2 = false ∨ q.scanned = true →
            ∃ t : State, exec (.psQueryComplete n .clean) s = .next t ∧ t.ps.counts[0] = countUp s.ps.counts[0] 1
              ∧ ∀ x ∈ t.ps.queries, x.num ≠ n)
        ∧ (s.psWindow = false → ∀ chk bad, exec (.psQueryComplete n chk) s = .next s ∧ exec (.psFlashBlocksLanded n bad) s = .next s)
        ∧ (s.psService.isSome = true → s.queryLate q = true → ∃ t : State, exec (.psQueryExpired n) s = .next t
            ∧ t.ps.counts[7] = countUp s.ps.counts[7] 1 ∧ t.ps.counts[0] = countUp s.ps.counts[0] 1 ∧ ∀ x ∈ t.ps.queries, x.num ≠ n)
        ∧ (s.queryLate q = false → exec (.psQueryExpired n) s = .next s))
    ∧ (∀ (i : Fin 16) (ix : PsIndex) (v : PsInsert) (vs : List PsInsert), s.ps.indexes[i] = some ix → ix.queue = v :: vs →
        s.insertTurn = true → s.insertFits = true → s.partPaused ix.part = false → ix.poisoned = false → ix.dramCount < ix.dramCap →
        ∃ (t : State) (x : PsIndex), exec (.psInsertDone i .clean) s = .next t ∧ t.ps.indexes[i] = some x ∧ x.queue = vs
          ∧ x.nextId = ix.nextId + 1 ∧ x.dram.length = ix.dram.length + 1 ∧ x.changed = true ∧ x.flash = ix.flash
          ∧ x.epoch = ix.epoch ∧ t.ps.counts[3] = countUp s.ps.counts[3] 1)
    ∧ (s.insertTurn = true ↔ ∃ (r : Running) (img : Image), s.psService = some (r, img) ∧ s.psWindow = true
        ∧ img.param (r.op.argB + 2) 1 = 0
        ∧ (s.ps.insertAt = some s.grain
          ∨ 100 * (s.ps.insertGrains + 1) ≤ img.param (r.op.argB + 3) 1 * (img.param r.op.argB 2 + 1 - s.ps.windowFrom)
          ∨ ((∀ q ∈ s.ps.queries, q.taken.isSome = true → q.scanning = true) ∧ s.queueOrder 0 = [])))
    ∧ (∀ (i : Fin 16) (chk : Check), s.ps.indexes[i] = none ∨ s.insertTurn = false ∨ s.insertFits = false →
        exec (.psInsertDone i chk) s = .next s)

/-! ## The memory tiers (chapter 13) -/

/-- The mover moves the first request of the window's classes, a unit at a time, within the window's bytes and grain, and waits while that
request's data is not there; the first is one whose read was left in a page register, else one of the lowest class, in order of arrival; a
flash read that decodes makes a page of its request ready, and one that does not and has no mirror copy is counted and the object fails; a
program counts its group down; a failed one retires a block; a relocated block is erased and its record starts again; low spare blocks are
noted; the patrol scrub reads one line a step and starts again after the last (R302, R310, R312, R314, R316, R317). Completes:
MOVER_TRANSFER_DONE, FLASH_READ_COMPLETE, FLASH_PROGRAM_COMPLETE, FLASH_BACKGROUND_RELOCATE, FLASH_SPARE_LOW, PATROL_SCRUB_STEP. -/
def Obligations.MemoryEventsHappen : Prop :=
  ∀ s : State,
    (∀ (w : MvWindow) (r : MoverReq), s.mt.window = some w →
      firstReq (fun r => w.classMask.testBit r.cls.val) s.mt.queue = some r →
      (r.fetch = 0 → s.grain ≤ w.endGrain → r.unit ≤ w.left → r.unit < r.bytes →
        exec .moverTransferDone s = .next { s with mt := { s.mt with
          window := some { w with left := w.left - r.unit }, mvBytes := countUp s.mt.mvBytes r.unit
          queue := replaceReq r (some { r with bytes := r.bytes - r.unit }) s.mt.queue } })
      ∧ (∀ page, r.fetch = 0 → s.grain ≤ w.endGrain → r.bytes ≤ w.left → r.bytes ≤ r.unit → r.work = .retire page →
          ∃ t : State, exec .moverTransferDone s = .next t ∧ t.mt.queue = replaceReq r none s.mt.queue
            ∧ t.mt.remap = s.mt.remap.map (fun (x : Retired) => if x.page = page then { x with copied := true } else x)
            ∧ t.mem = s.mem)
      ∧ (w.endGrain < s.grain ∨ w.left < min r.bytes r.unit ∨ (r.fetch ≠ 0 ∧ ∀ key, r.work ≠ .acreFill key) →
          exec .moverTransferDone s = .next s)
      ∧ (∀ x ∈ s.mt.queue, w.classMask.testBit x.cls.val = true → x.held = true → r.held = true)
      ∧ (r.held = false → ∀ x ∈ s.mt.queue, w.classMask.testBit x.cls.val = true → r.cls ≤ x.cls))
    ∧ (∀ res, s.mt.window = none → exec .moverTransferDone s = .next s ∧ exec (.flashReadComplete res) s = .next s)
    ∧ (∀ (w : MvWindow) (r : MoverReq) (p : FlashPage) (c : PageCopy), s.mt.window = some w → s.grain ≤ w.endGrain →
        firstReq (fun r => w.classMask.testBit r.cls.val && decide (0 < r.fetch)) s.mt.queue = some r → r.onMirror = false →
        s.fetchPage r = some p → p.copyOf false = some c → s.sec.keys[p.ns].reads c.epoch = true →
        (∃ t : State, exec (.flashReadComplete .decoded) s = .next t
          ∧ t.mt.queue = replaceReq r (some { r with fetch := r.fetch - 1, fetched := true }) s.mt.queue
          ∧ t.mt.fcUncorrectable = s.mt.fcUncorrectable ∧ t.mt.objects = s.mt.objects ∧ { t with mt := s.mt } = s)
        ∧ (p.copyOf true = none → ∃ t : State, exec (.flashReadComplete .failed) s = .next t
          ∧ t.mt.fcUncorrectable = countUp s.mt.fcUncorrectable 1 ∧ t.mt.fcRetries = countUp s.mt.fcRetries 1 ∧ t.mt.flashUe = true
          ∧ t.mt.moverUe = true)
        ∧ (∀ m : PageCopy, p.copyOf true = some m → ∃ t : State, exec (.flashReadComplete .failed) s = .next t
          ∧ t.mt.queue = replaceReq r (some { r with onMirror := true }) s.mt.queue
          ∧ t.mt.fcUncorrectable = countUp s.mt.fcUncorrectable 1))
    ∧ (∀ (g : WriteGroup) (gs : List WriteGroup), s.mt.groups = g :: gs → 1 < g.left →
        exec (.flashProgramComplete true) s = .next { s with mt := { s.mt with groups := { g with left := g.left - 1 } :: gs } })
    ∧ (∃ t : State, exec (.flashProgramComplete false) s = .next t ∧ t.mt.goodBlocks = s.mt.goodBlocks - 1 ∧ t.mt.groups = s.mt.groups
        ∧ ∃ b ∈ t.mt.blocks, b.retired = true)
    ∧ (∀ (die block : Nat) (b : FlashBlock), s.mt.blocks.find? (fun b => decide (b.die = die ∧ b.block = block)) = some b →
        (b.retired = true → exec (.flashBackgroundRelocate die block) s = .next s)
        ∧ (b.retired = false → (∀ p ∈ s.mt.pages, ∀ c ∈ p.copies, ¬ (c.die = die ∧ c.block = block)) →
          s.mt.spread < 256 → (∀ n : Fin 5, s.sec.keys[n].old = none) →
          ∃ t : State, exec (.flashBackgroundRelocate die block) s = .next t ∧ t.mt.goodBlocks = s.mt.goodBlocks
            ∧ t.mt.pages = s.mt.pages
            ∧ t.mt.blocks = s.mt.blocks.map fun (x : FlashBlock) => if x.die = die ∧ x.block = block then
                { x with erases := x.erases + 1, reads := 0, degraded := false, filled := 0 } else x))
    ∧ (64 * s.mt.freeBlocks < s.mt.goodBlocks → s.mt.spareLowAt = none → ∃ t : State, exec .flashSpareLow s = .next t
        ∧ t.mt = { s.mt with flashLow := true, spareLowAt := some s.dtNs } ∧ { t with mt := s.mt, evr := s.evr } = s)
    ∧ (s.mt.goodBlocks ≤ 64 * s.mt.freeBlocks → exec .flashSpareLow s = .next s)
    ∧ (s.scrubOn = true →
        (s.mt.scrubLine + 1 < 402653184 →
          exec (.patrolScrubStep .clean) s = .next { s with mt := { s.mt with scrubLine := s.mt.scrubLine + 1 } })
        ∧ (402653184 ≤ s.mt.scrubLine + 1 → ∃ t : State, exec (.patrolScrubStep .clean) s = .next t
          ∧ t.mt = { s.mt with scrubLine := 0, scrubPass := s.mt.scrubPass + 1, scrubCorrected := 0,
                               prevLines := (s.mt.passLines ++ s.mt.prevLines).eraseDups, passLines := [] } ∧ { t with mt := s.mt, evr := s.evr } = s)
        ∧ (s.mt.scrubLine + 1 < 402653184 → ∃ t : State, exec (.patrolScrubStep .corrected) s = .next t
          ∧ t.mt.ceCount = countUp s.mt.ceCount 1 ∧ t.mt.scrubCorrected = s.mt.scrubCorrected + 1
          ∧ t.mt.scrubLine = s.mt.scrubLine + 1 ∧ t.mem = s.mem))
    ∧ (∀ e, s.scrubOn = false → exec (.patrolScrubStep e) s = .next s)

/-! ## Power (chapter 17) -/

/-- Power events: a poll that is answered enters the span's average; a conversion is stored, at THROTTLE_C it clamps its core, or every core
for a sensor outside them, and at 125 degrees it trips; a clamp whose sensors have all been cool for 10 ms ends at the next boundary;
PWR_LIMIT_N asserted lowers every clock to LIMIT_OP and its release ends the clamp at a boundary; an alarm steps its core down one point
and raises that point's margin; a trim lowers margins by 5 mV and never below 15 (R379, R384, R386 to R390). Completes: PMBUS_POLL,
THERMAL_CONVERSION, PWR_THERM_RELEASE, PWR_LIMIT_ASSERT, PWR_LIMIT_RELEASE, PWR_MON_ALARM, PWR_MARGIN_TRIM. -/
def Obligations.PowerEventsHappen : Prop :=
  ∀ s : State, s.powerOn = true →
    (∀ (mv : Half) (ma : Word), s.pm.pmbusOk = true → ∃ t : State, exec (.pmbusPoll true mv ma) s = .next t
        ∧ t.pm.vrailMv = mv ∧ t.pm.sampleCount = s.pm.sampleCount + 1
        ∧ s.pm.sampleSum + mv.toNat * ma.toNat / 1000 ≤ t.pm.sampleSum ∧ t.pm.cores = s.pm.cores
        ∧ { t with pm := s.pm, free := s.free } = s)
    ∧ (∀ mv ma, exec (.pmbusPoll false mv ma) s = .next s)
    ∧ (∀ (n : Fin 24) (t : Half), t.toInt < s.pm.throttle → t.toInt < 1250 →
        exec (.thermalConversion n t) s = .next { s with pm := { s.pm with
          temps := s.pm.temps.set n t
          coolSince := s.pm.coolSince.set n (if t.toInt < s.pm.release then some (s.pm.coolSince[n].getD s.dtNs) else none) } })
    ∧ (∀ (n : Fin 24) (t : Half) (c : Fin 8), s.pm.throttle ≤ t.toInt → t.toInt < 1250 → 16 ≤ n.val ∨ c.val = n.val / 2 →
        ∃ u : State, exec (.thermalConversion n t) s = .next u ∧ u.pm.temps[n] = t ∧ u.pm.cores[c].thermal.getLsbD n.val = true
          ∧ u.pm.cores[c].op.toNat ≤ s.pm.clampOp ∧ { u with pm := s.pm, evr := s.evr } = s)
    ∧ (∀ (n : Fin 24) (t : Half), 1250 ≤ t.toInt → s.pm.thermtrip = false →
        ∃ u : State, exec (.thermalConversion n t) s = .next u ∧ u.pm.thermtrip = true ∧ u.dev.fatal = true
          ∧ u.pins.thermtripN = false ∧ u.pins.faultN = false ∧ u.pins.motionPermit = false)
    ∧ (∃ t : State, exec .pwrThermRelease s = .next t ∧ { t with pm := s.pm } = s ∧ ∀ c : Fin 8,
        t.pm.cores[c] = { s.pm.cores[c] with thermalEnding :=
          if s.pm.cores[c].thermal ≠ 0 ∧ (∀ n : Fin 24, s.pm.cores[c].thermal.getLsbD n.val = true →
              ∃ x, s.pm.coolSince[n] = some x ∧ x + 10000000 ≤ s.dtNs) then true else s.pm.cores[c].thermalEnding })
    ∧ (s.pins.pwrLimitN = true → s.isReady = true → ∃ t : State, exec .pwrLimitAssert s = .next t ∧ t.pins = { s.pins with pwrLimitN := false }
        ∧ t.pm.limitClamp = true ∧ t.pm.limitSince = s.dtNs ∧ (∀ c : Fin 8, t.pm.cores[c].op.toNat ≤ s.pm.limitOp)
        ∧ { t with pins := s.pins, pm := s.pm, evr := s.evr } = s)
    ∧ (s.pins.pwrLimitN = false → s.isReady = true → exec .pwrLimitAssert s = .next s ∧ ∃ t : State, exec .pwrLimitRelease s = .next t
        ∧ t.pins = { s.pins with pwrLimitN := true } ∧ t.pm = { s.pm with limitEnding := true }
        ∧ { t with pins := s.pins, pm := s.pm, evr := s.evr } = s)
    ∧ (∀ (m : Fin 48) (c : Fin 8), c.val = m.val / 5 → ∃ t : State, exec (.pwrMonAlarm m) s = .next t ∧ t.pm.monAlarm = true
        ∧ t.pm.monCount = countUp s.pm.monCount 1 ∧ t.pm.marginDue.getLsbD s.pm.cores[c].op.toNat = true
        ∧ t.pm.cores[c].monitor = some (BitVec.ofNat 3 (s.pm.cores[c].op.toNat - 1), s.pm.cores[c].op)
        ∧ t.pm.cores[c].op.toNat ≤ s.pm.cores[c].op.toNat - 1)
    ∧ (s.pm.opHours.toNat < s.pm.trimHours.toNat + 1000 → exec .pwrMarginTrim s = .next s)
    ∧ (s.pm.trimEn = true → s.isReady = true → s.pm.trimHours.toNat + 1000 ≤ s.pm.opHours.toNat →
        ∃ t : State, exec .pwrMarginTrim s = .next t ∧ t.pm.trimHours = s.pm.opHours ∧ t.pm.ranAt = 0 ∧ t.pm.alarmAt = 0
          ∧ ∀ k : Fin 8, t.pm.margins[k] = s.pm.margins[k]
              ∨ (t.pm.margins[k] = max 15 (s.pm.margins[k] - 5) ∧ t.pm.margins[k] < s.pm.margins[k]
                  ∧ s.pm.ranAt.getLsbD k.val = true ∧ s.pm.alarmAt.getLsbD k.val = false))

/-! ## The recorder, the checks and security (chapters 18 and 19) -/

/-- An event is staged with its time, code and arguments, dropped and counted lost with 64 staged, and dropped behind a freeze; the oldest
staged entry is written at NEXT in the ring, which freezes behind a fatal entry; the last word of a firmware window stages its entry; a
frozen ring is archived once (R421 to R426). Completes: REC_FW_STAGE, EVENT_RECORD_WRITE, REC_ARCHIVED. -/
def Obligations.EventsAreRecorded : Prop :=
  ∀ s : State,
    (∀ source code a0 a1 a2 : Nat, s.dev.inReset = false →
      ((s.evr.frozen || s.evr.freezing) = true → s.event source code a0 a1 a2 =
        { s with evr := { s.evr with frozenDrops := countUp s.evr.frozenDrops 1 } })
      ∧ (s.evr.frozen = false → s.evr.freezing = false → 64 ≤ s.evr.fifo.length → ∃ t : State, s.event source code a0 a1 a2 = t
          ∧ t.evr.fifo = s.evr.fifo ∧ t.evr.lost = countUp s.evr.lost 1 ∧ t.evr.lostBit = true ∧ { t with evr := s.evr } = s)
      ∧ (s.evr.frozen = false → s.evr.freezing = false → s.evr.fifo.length < 64 → ∃ e : RecEntry, s.event source code a0 a1 a2 =
            { s with evr := { s.evr with fifo := s.evr.fifo ++ [e] } }
          ∧ e.dt.toNat = s.dtNs % 2 ^ 64 ∧ e.source.toNat = source % 256 ∧ e.code.toNat = code % 65536
          ∧ e.arg0.toNat = a0 % 2 ^ 32 ∧ e.arg1.toNat = a1 % 2 ^ 32 ∧ e.arg2.toNat = a2 % 2 ^ 32))
    ∧ (∀ (e : RecEntry) (es : List RecEntry), s.recorderOn = true → s.evr.fifo = e :: es → s.evr.lostUnreported = 0 →
        memWf s.evr.ring = true →
        ∃ t : State, exec (.eventRecordWrite .clean) s = .next t ∧ t.evr.fifo = es ∧ t.evr.next = s.evr.next + 1
          ∧ t.evr.seq = s.evr.seq + 1 ∧ memReadN t.evr.ring (32 * s.evr.next.toNat) 32 = e.bytes s.evr.seq
          ∧ (∀ a, (a < 32 * s.evr.next.toNat ∨ 32 * s.evr.next.toNat + 32 ≤ a) → memRead t.evr.ring a = memRead s.evr.ring a)
          ∧ t.evr.frozen = (s.evr.frozen || (s.evr.freezing && es.isEmpty)))
    ∧ (s.evr.fifo = [] → exec (.eventRecordWrite .clean) s = .next s)
    ∧ (∀ (cp : Fin 2) (v : Word), s.cpRuns cp = true → s.evr.frozen = false → s.evr.freezing = false → s.evr.fifo.length < 64 →
        exec (.recFwStage cp v) s = .next { s with evr := { s.evr with
          fwWindow := s.evr.fwWindow.set cp (s.evr.fwWindow[cp].set 7 v)
          fifo := s.evr.fifo ++ [windowEntry (s.evr.fwWindow[cp].set 7 v)] } })
    ∧ (s.evr.frozen = true → s.evr.archived = false → s.cpRuns 1 = true → exec .recArchived s = .next { s with evr := { s.evr with
        archive := ({ head := s.evr.head, ring := s.evr.ring } :: s.evr.archive).take 16, archived := true } })
    ∧ (s.evr.frozen = false ∨ s.evr.archived = true → exec .recArchived s = .next s)

/-- A fatal error asserts FAULT_N, drops MOTION_PERMIT, raises its interrupt cause, marks its cause once and takes a READY device to FAULT,
where a running schedule stops: a panic of a processor that runs firmware is one, and so is the ninth CRC mismatch of a link in a row,
while a single mismatch of a link that exists, or of a crossbar port, is a replay that is counted (R249, R354, R415, R417, R418, R424).
Completes: LINK_CRC_MISMATCH, FAULT_FW_PANIC. -/
def Obligations.FatalErrorsStopTheDevice : Prop :=
  ∀ s : State,
    (∀ (cp : Fin 2) (code : Word), s.cpRuns cp = true → ∃ t : State, exec (.faultFwPanic cp code) s = .next t ∧ t.dev.fatal = true
        ∧ t.pins.faultN = false ∧ t.pins.motionPermit = false ∧ t.port.irqStatus.getLsbD 21 = true
        ∧ (s.dev.fatal = false → t.evr.fatalCause = 0x10061000)
        ∧ (s.dev.fatal = true → t.evr.fatalCause = s.evr.fatalCause)
        ∧ (s.dev.phase = .ready → s.dev.cpHalted[0] = false → s.dev.cpHalted[1] = false →
            t.dev.phase = .fault ∧ (s.sched.state = .running → t.sched.state = .stopping))
        ∧ t.mem = s.mem ∧ t.sec = s.sec)
    ∧ (∀ (cp : Fin 2) (code : Word), s.cpRuns cp = false → exec (.faultFwPanic cp code) s = .next s)
    ∧ (∀ link : Fin 96, link.val < 64 → linkExists link.val = false → exec (.linkCrcMismatch link) s = .next s)
    ∧ (∀ link : Fin 96, linkExists link.val = true ∨ 64 ≤ link.val → s.dev.inReset = false → mapGet s.evr.linkFails link.val = none →
        ∃ t : State, exec (.linkCrcMismatch link) s = .next t ∧ t.evr.linkReplay = countUp s.evr.linkReplay 1
          ∧ mapGet t.evr.linkFails link.val = some (1, s.dtNs) ∧ { t with evr := s.evr } = s)
    ∧ (∀ (link : Fin 96) (x : Nat), linkExists link.val = true ∨ 64 ≤ link.val → s.dev.inReset = false →
        mapGet s.evr.linkFails link.val = some (8, x) → s.dtNs ≤ x + 13 →
        ∃ t : State, exec (.linkCrcMismatch link) s = .next t ∧ t.dev.fatal = true ∧ t.pins.faultN = false
          ∧ t.pins.motionPermit = false ∧ t.evr.linkReplay = s.evr.linkReplay)

/-- Debug and scrubs. A read of the challenge register forms a challenge of 32 bytes, which is kept. A token that is as R411 asks opens its
level; any other is counted and leaves the level, and after three, or with the debug port disabled for good, none is taken. Without level 2
a halt, a step or a register write does nothing; with it a halt stops the processor, a resume lets it go on, a step moves nothing that the
spec describes, and a register write writes the block's register. The scrub under way ends: the DRAM, the pecks, the scratchpads and the
accumulators of the old grant and of the new read zero, every other byte of memory and every other core stays, no grant changes before the
boundary, and the scrub is done; for a partition whose scrub is not under way nothing happens (R407, R411). Completes: PART_SCRUB_DONE,
JTAG_CHALLENGE_READ, DEBUG_TOKEN_WRITE, DEBUG_HALT_AND_STEP. -/
def Obligations.DebugAndScrubs : Prop :=
  ∀ s : State,
    (s.secRuns = true → ∃ (t : State) (v : List Byte), exec .jtagChallengeRead s = .next t ∧ v.length = 32
        ∧ t.sec = { s.sec with challenge := some v } ∧ { t with sec := s.sec, free := s.free } = s)
    ∧ (s.secRuns = false → exec .jtagChallengeRead s = .next s)
    ∧ (∀ tok : List Byte,
        (s.secRuns = true → s.sec.debugDisable = false → s.sec.refusals < 3 →
          (s.tokenOk tok = true → ∃ t : State, exec (.debugTokenWrite tok) s = .next t
              ∧ t.sec = { s.sec with debugLevel := fieldAt tok 48 1 } ∧ { t with sec := s.sec, evr := s.evr } = s)
          ∧ (s.tokenOk tok = false → ∃ t : State, exec (.debugTokenWrite tok) s = .next t
              ∧ t.sec = { s.sec with refusals := s.sec.refusals + 1 } ∧ { t with sec := s.sec, evr := s.evr } = s))
        ∧ (s.secRuns = false ∨ s.sec.debugDisable = true ∨ 3 ≤ s.sec.refusals → exec (.debugTokenWrite tok) s = .next s))
    ∧ (∀ (cp : Fin 2) (act : DebugAct), s.sec.debugLevel ≠ 2 ∨ s.blocksUp = false → exec (.debugHaltAndStep cp act) s = .next s)
    ∧ (∀ cp : Fin 2, s.sec.debugLevel = 2 → s.blocksUp = true →
        exec (.debugHaltAndStep cp .halt) s = .next { s with dev := { s.dev with cpHalted := s.dev.cpHalted.set cp true } }
        ∧ exec (.debugHaltAndStep cp .resume) s = .next { s with dev := { s.dev with cpHalted := s.dev.cpHalted.set cp false } }
        ∧ exec (.debugHaltAndStep cp .step) s = .next s
        ∧ ∀ (slot : Byte) (off : BitVec 20) (v : Word),
            exec (.debugHaltAndStep cp (.writeReg slot off v)) s = .next (s.slotWrite slot.toNat off.toNat v))
    ∧ (∀ (p : Fin 4) (x : Scrub), s.scrubNow = some x → x.part = p → s.dev.phase = .ready →
        ∃ t : State, exec (.partScrubDone p) s = .next t
          ∧ (∀ y ∈ t.sec.scrubs, y.part = p → y.done = true)
          ∧ t.sec.scrubs.map (fun y => (y.part, y.grant, y.begun)) = s.sec.scrubs.map (fun y => (y.part, y.grant, y.begun))
          ∧ (∀ g ∈ [s.sec.grants[p], x.grant.getD Grant.empty],
              (∀ a, scrubClears g a → memRead t.mem a = 0) ∧ ∀ c : Fin 8, g.coreMask.getLsbD c.val = true → t.cores[c].acc = [])
          ∧ (memWf s.mem = true → ∀ a, ¬ scrubClears s.sec.grants[p] a → ¬ scrubClears (x.grant.getD Grant.empty) a →
              memRead t.mem a = memRead s.mem a)
          ∧ (∀ c : Fin 8, s.sec.grants[p].coreMask.getLsbD c.val = false → (x.grant.getD Grant.empty).coreMask.getLsbD c.val = false →
              t.cores[c] = s.cores[c])
          ∧ (∀ c : Fin 8, { t.cores[c] with acc := s.cores[c].acc } = s.cores[c])
          ∧ { t.sec with scrubs := s.sec.scrubs } = s.sec ∧ { t with sec := s.sec, mem := s.mem, cores := s.cores, evr := s.evr } = s)
    ∧ (∀ p : Fin 4, s.scrubNow = none ∨ (∃ x, s.scrubNow = some x ∧ x.part ≠ p) ∨ s.dev.phase ≠ .ready →
        exec (.partScrubDone p) s = .next s)

/-! ## The canonical form of the memories -/

/-- Every step keeps every memory canonical (R6): device addresses, engine SRAM, and the rings and bulk windows of the mailboxes,
whatever command is at the front of the queue. -/
def Obligations.MemoriesStayCanonical : Prop :=
  ∀ s t : State, s.memOk → step s = .next t → t.memOk

/-- Reset leaves every memory canonical. -/
def Obligations.ResetMemoriesAreCanonical : Prop := State.reset.memOk
end

