-- ==== Sys2Proof/Laws/Memory.lean ====
section
/-!
SUPPORT. The laws of memory: every operation keeps the canonical form, a read after a write gives what was written, and a
write leaves every other byte alone.
-/
namespace Sys2Proof.Machine

/-! ## A lower bound of the listed addresses -/

theorem memAbove_weaken {m : List Host.Cell} {lo hi : Nat} (h : memAbove hi m = true) (le : lo ≤ hi) :
    memAbove lo m = true := by
  cases m with
  | nil => rfl
  | cons c m =>
    simp only [memAbove, Bool.and_eq_true, decide_eq_true_eq] at h ⊢
    exact ⟨⟨Nat.le_trans le h.1.1, h.1.2⟩, h.2⟩

/-- Below the bound every byte reads as zero. -/
theorem memRead_below {m : List Host.Cell} {lo a : Nat} (h : memAbove lo m = true) (lt : a < lo) : memRead m a = 0 := by
  cases m with
  | nil => rfl
  | cons c m =>
    simp only [memAbove, Bool.and_eq_true, decide_eq_true_eq] at h
    have : a < c.1 := Nat.lt_of_lt_of_le lt h.1.1
    simp [memRead, Nat.ne_of_gt this, this]

theorem memAbove_memErase {m : List Host.Cell} {lo : Nat} (a : Nat) (h : memAbove lo m = true) :
    memAbove lo (memErase m a) = true := by
  induction m generalizing lo with
  | nil => rfl
  | cons c m ih =>
    have h' := h
    simp only [memAbove, Bool.and_eq_true, decide_eq_true_eq] at h
    unfold memErase
    split
    · exact memAbove_weaken h.2 (by omega)
    · split
      · exact h'
      · simp only [memAbove, Bool.and_eq_true, decide_eq_true_eq]
        exact ⟨h.1, ih h.2⟩

theorem memAbove_memInsert {m : List Host.Cell} {lo a : Nat} {b : Byte} (h : memAbove lo m = true) (le : lo ≤ a) (nz : b ≠ 0) :
    memAbove lo (memInsert m a b) = true := by
  induction m generalizing lo with
  | nil =>
    simp only [memInsert, memAbove, Bool.and_true, Bool.and_eq_true, decide_eq_true_eq]
    exact ⟨le, nz⟩
  | cons c m ih =>
    simp only [memAbove, Bool.and_eq_true, decide_eq_true_eq] at h
    unfold memInsert
    split
    · rename_i e
      simp only [memAbove, Bool.and_eq_true, decide_eq_true_eq]
      exact ⟨⟨le, nz⟩, e ▸ h.2⟩
    · split
      · simp only [memAbove, Bool.and_eq_true, decide_eq_true_eq]
        exact ⟨⟨le, nz⟩, ⟨by omega, h.1.2⟩, h.2⟩
      · simp only [memAbove, Bool.and_eq_true, decide_eq_true_eq]
        exact ⟨h.1, ih h.2 (by omega)⟩

/-! ## The canonical form is kept -/

theorem memWf_memWrite {m : List Host.Cell} (a : Nat) (b : Byte) (h : memWf m = true) : memWf (memWrite m a b) = true := by
  unfold memWrite
  split
  · exact memAbove_memErase a h
  · exact memAbove_memInsert h (Nat.zero_le a) (by assumption)

theorem memWf_memWriteN {m : List Host.Cell} (a : Nat) (bs : List Byte) (h : memWf m = true) :
    memWf (memWriteN m a bs) = true := by
  induction bs generalizing m a with
  | nil => exact h
  | cons b bs ih => exact ih (a + 1) (memWf_memWrite a b h)

theorem memWf_nil : memWf [] = true := rfl

/-! ## A read after a write -/

theorem memRead_memErase {m : List Host.Cell} {lo : Nat} (a a' : Nat) (h : memAbove lo m = true) :
    memRead (memErase m a) a' = if a' = a then 0 else memRead m a' := by
  induction m generalizing lo with
  | nil => simp [memErase, memRead]
  | cons c m ih =>
    simp only [memAbove, Bool.and_eq_true, decide_eq_true_eq] at h
    have low : ∀ x, x ≤ c.1 → memRead m x = 0 := fun x hx => memRead_below h.2 (by omega)
    unfold memErase
    split
    · rename_i e
      by_cases q : a' = a
      · subst q; simp [low a' (by omega)]
      · simp only [q, if_false, memRead]
        split
        · omega
        · split
          · exact low a' (by omega)
          · rfl
    · split
      · by_cases q : a' = a
        · subst q; simp [memRead, *]
        · simp [q]
      · simp only [memRead, ih h.2]
        by_cases q : a' = a
        · subst q; simp [*]
        · simp [q]

theorem memRead_memInsert {m : List Host.Cell} {lo : Nat} (a a' : Nat) (b : Byte) (h : memAbove lo m = true) :
    memRead (memInsert m a b) a' = if a' = a then b else memRead m a' := by
  induction m generalizing lo with
  | nil =>
    simp only [memInsert, memRead]
    by_cases q : a' = a
    · subst q; simp
    · have : a ≠ a' := fun e => q e.symm
      simp [q, this]
  | cons c m ih =>
    simp only [memAbove, Bool.and_eq_true, decide_eq_true_eq] at h
    have low : ∀ x, x ≤ c.1 → memRead m x = 0 := fun x hx => memRead_below h.2 (by omega)
    unfold memInsert
    split
    · rename_i e
      by_cases q : a' = a
      · subst q; simp [memRead]
      · have : a ≠ a' := fun e => q e.symm
        simp [memRead, q, this, e]
    · split
      · by_cases q : a' = a
        · subst q; simp [memRead]
        · have : a ≠ a' := fun e => q e.symm
          simp only [memRead, q, this, if_false]
          repeat' split
          all_goals first | rfl | omega
      · simp only [memRead, ih h.2]
        by_cases q : a' = a
        · subst q; simp [*]
        · simp [q]

/-- What one byte reads as after one byte is written. -/
theorem memRead_memWrite {m : List Host.Cell} (a a' : Nat) (b : Byte) (h : memWf m = true) :
    memRead (memWrite m a b) a' = if a' = a then b else memRead m a' := by
  unfold memWrite
  split
  · rename_i e
    rw [memRead_memErase a a' h, e]
  · exact memRead_memInsert a a' b h

/-- A byte outside the run that is written reads as before. -/
theorem memRead_memWriteN_outside {m : List Host.Cell} (a a' : Nat) (bs : List Byte) (h : memWf m = true)
    (out : a' < a ∨ a + bs.length ≤ a') : memRead (memWriteN m a bs) a' = memRead m a' := by
  induction bs generalizing m a with
  | nil => rfl
  | cons b bs ih =>
    simp only [List.length_cons] at out
    rw [memWriteN, ih (a + 1) (memWf_memWrite a b h) (by omega), memRead_memWrite a a' b h]
    exact if_neg (by omega)

/-- A run that is written reads back. -/
theorem memReadN_memWriteN {m : List Host.Cell} (a : Nat) (bs : List Byte) (h : memWf m = true) :
    memReadN (memWriteN m a bs) a bs.length = bs := by
  induction bs generalizing m a with
  | nil => rfl
  | cons b bs ih =>
    rw [List.length_cons, memReadN, memWriteN, ih (a + 1) (memWf_memWrite a b h),
      memRead_memWriteN_outside (a + 1) a bs (memWf_memWrite a b h) (by omega), memRead_memWrite a a b h, if_pos rfl]

/-- A run apart from the one that is written reads as before. -/
theorem memReadN_memWriteN_outside {m : List Host.Cell} (a a' n : Nat) (bs : List Byte) (h : memWf m = true)
    (out : a' + n ≤ a ∨ a + bs.length ≤ a') : memReadN (memWriteN m a bs) a' n = memReadN m a' n := by
  induction n generalizing a' with
  | zero => rfl
  | succ n ih =>
    rw [memReadN, memReadN, ih (a' + 1) (by omega), memRead_memWriteN_outside a a' bs h (by omega)]

end Sys2Proof.Machine
end

