-- ==== Sys2Proof/Laws/State.lean ====
section
/-!
SUPPORT. What each update of the state leaves alone, field by field: no later proof unfolds a record update.
-/
namespace Sys2Proof.Machine

/-! ## `State.updMbx` changes `mbx` only -/

@[simp] theorem State.updMbx_pins (s : State) (i : Fin 8) (f : Mbx → Mbx) : (s.updMbx i f).pins = s.pins := rfl
@[simp] theorem State.updMbx_dev (s : State) (i : Fin 8) (f : Mbx → Mbx) : (s.updMbx i f).dev = s.dev := rfl
@[simp] theorem State.updMbx_port (s : State) (i : Fin 8) (f : Mbx → Mbx) : (s.updMbx i f).port = s.port := rfl
@[simp] theorem State.updMbx_fw (s : State) (i : Fin 8) (f : Mbx → Mbx) : (s.updMbx i f).fw = s.fw := rfl
@[simp] theorem State.updMbx_sched (s : State) (i : Fin 8) (f : Mbx → Mbx) : (s.updMbx i f).sched = s.sched := rfl
@[simp] theorem State.updMbx_flags (s : State) (i : Fin 8) (f : Mbx → Mbx) : (s.updMbx i f).flags = s.flags := rfl
@[simp] theorem State.updMbx_tu (s : State) (i : Fin 8) (f : Mbx → Mbx) : (s.updMbx i f).tu = s.tu := rfl
@[simp] theorem State.updMbx_sm (s : State) (i : Fin 8) (f : Mbx → Mbx) : (s.updMbx i f).sm = s.sm := rfl
@[simp] theorem State.updMbx_ife (s : State) (i : Fin 8) (f : Mbx → Mbx) : (s.updMbx i f).ife = s.ife := rfl
@[simp] theorem State.updMbx_vis (s : State) (i : Fin 8) (f : Mbx → Mbx) : (s.updMbx i f).vis = s.vis := rfl
@[simp] theorem State.updMbx_cores (s : State) (i : Fin 8) (f : Mbx → Mbx) : (s.updMbx i f).cores = s.cores := rfl
@[simp] theorem State.updMbx_fld (s : State) (i : Fin 8) (f : Mbx → Mbx) : (s.updMbx i f).fld = s.fld := rfl
@[simp] theorem State.updMbx_fus (s : State) (i : Fin 8) (f : Mbx → Mbx) : (s.updMbx i f).fus = s.fus := rfl
@[simp] theorem State.updMbx_slv (s : State) (i : Fin 8) (f : Mbx → Mbx) : (s.updMbx i f).slv = s.slv := rfl
@[simp] theorem State.updMbx_ps (s : State) (i : Fin 8) (f : Mbx → Mbx) : (s.updMbx i f).ps = s.ps := rfl
@[simp] theorem State.updMbx_mem (s : State) (i : Fin 8) (f : Mbx → Mbx) : (s.updMbx i f).mem = s.mem := rfl
@[simp] theorem State.updMbx_sram (s : State) (i : Fin 8) (f : Mbx → Mbx) : (s.updMbx i f).sram = s.sram := rfl
@[simp] theorem State.updMbx_mt (s : State) (i : Fin 8) (f : Mbx → Mbx) : (s.updMbx i f).mt = s.mt := rfl
@[simp] theorem State.updMbx_pm (s : State) (i : Fin 8) (f : Mbx → Mbx) : (s.updMbx i f).pm = s.pm := rfl
@[simp] theorem State.updMbx_sec (s : State) (i : Fin 8) (f : Mbx → Mbx) : (s.updMbx i f).sec = s.sec := rfl
@[simp] theorem State.updMbx_evr (s : State) (i : Fin 8) (f : Mbx → Mbx) : (s.updMbx i f).evr = s.evr := rfl
@[simp] theorem State.updMbx_free (s : State) (i : Fin 8) (f : Mbx → Mbx) : (s.updMbx i f).free = s.free := rfl
@[simp] theorem State.updMbx_pending (s : State) (i : Fin 8) (f : Mbx → Mbx) : (s.updMbx i f).pending = s.pending := rfl

/-! ## `State.updChan` changes `sm` only -/

@[simp] theorem State.updChan_pins (s : State) (i : Fin 32) (f : Channel → Channel) : (s.updChan i f).pins = s.pins := rfl
@[simp] theorem State.updChan_dev (s : State) (i : Fin 32) (f : Channel → Channel) : (s.updChan i f).dev = s.dev := rfl
@[simp] theorem State.updChan_port (s : State) (i : Fin 32) (f : Channel → Channel) : (s.updChan i f).port = s.port := rfl
@[simp] theorem State.updChan_mbx (s : State) (i : Fin 32) (f : Channel → Channel) : (s.updChan i f).mbx = s.mbx := rfl
@[simp] theorem State.updChan_fw (s : State) (i : Fin 32) (f : Channel → Channel) : (s.updChan i f).fw = s.fw := rfl
@[simp] theorem State.updChan_sched (s : State) (i : Fin 32) (f : Channel → Channel) : (s.updChan i f).sched = s.sched := rfl
@[simp] theorem State.updChan_flags (s : State) (i : Fin 32) (f : Channel → Channel) : (s.updChan i f).flags = s.flags := rfl
@[simp] theorem State.updChan_tu (s : State) (i : Fin 32) (f : Channel → Channel) : (s.updChan i f).tu = s.tu := rfl
@[simp] theorem State.updChan_ife (s : State) (i : Fin 32) (f : Channel → Channel) : (s.updChan i f).ife = s.ife := rfl
@[simp] theorem State.updChan_vis (s : State) (i : Fin 32) (f : Channel → Channel) : (s.updChan i f).vis = s.vis := rfl
@[simp] theorem State.updChan_cores (s : State) (i : Fin 32) (f : Channel → Channel) : (s.updChan i f).cores = s.cores := rfl
@[simp] theorem State.updChan_fld (s : State) (i : Fin 32) (f : Channel → Channel) : (s.updChan i f).fld = s.fld := rfl
@[simp] theorem State.updChan_fus (s : State) (i : Fin 32) (f : Channel → Channel) : (s.updChan i f).fus = s.fus := rfl
@[simp] theorem State.updChan_slv (s : State) (i : Fin 32) (f : Channel → Channel) : (s.updChan i f).slv = s.slv := rfl
@[simp] theorem State.updChan_ps (s : State) (i : Fin 32) (f : Channel → Channel) : (s.updChan i f).ps = s.ps := rfl
@[simp] theorem State.updChan_mem (s : State) (i : Fin 32) (f : Channel → Channel) : (s.updChan i f).mem = s.mem := rfl
@[simp] theorem State.updChan_sram (s : State) (i : Fin 32) (f : Channel → Channel) : (s.updChan i f).sram = s.sram := rfl
@[simp] theorem State.updChan_mt (s : State) (i : Fin 32) (f : Channel → Channel) : (s.updChan i f).mt = s.mt := rfl
@[simp] theorem State.updChan_pm (s : State) (i : Fin 32) (f : Channel → Channel) : (s.updChan i f).pm = s.pm := rfl
@[simp] theorem State.updChan_sec (s : State) (i : Fin 32) (f : Channel → Channel) : (s.updChan i f).sec = s.sec := rfl
@[simp] theorem State.updChan_evr (s : State) (i : Fin 32) (f : Channel → Channel) : (s.updChan i f).evr = s.evr := rfl
@[simp] theorem State.updChan_free (s : State) (i : Fin 32) (f : Channel → Channel) : (s.updChan i f).free = s.free := rfl
@[simp] theorem State.updChan_pending (s : State) (i : Fin 32) (f : Channel → Channel) : (s.updChan i f).pending = s.pending := rfl

/-! ## `State.updCore` changes `cores` only -/

@[simp] theorem State.updCore_pins (s : State) (i : Fin 8) (f : Core → Core) : (s.updCore i f).pins = s.pins := rfl
@[simp] theorem State.updCore_dev (s : State) (i : Fin 8) (f : Core → Core) : (s.updCore i f).dev = s.dev := rfl
@[simp] theorem State.updCore_port (s : State) (i : Fin 8) (f : Core → Core) : (s.updCore i f).port = s.port := rfl
@[simp] theorem State.updCore_mbx (s : State) (i : Fin 8) (f : Core → Core) : (s.updCore i f).mbx = s.mbx := rfl
@[simp] theorem State.updCore_fw (s : State) (i : Fin 8) (f : Core → Core) : (s.updCore i f).fw = s.fw := rfl
@[simp] theorem State.updCore_sched (s : State) (i : Fin 8) (f : Core → Core) : (s.updCore i f).sched = s.sched := rfl
@[simp] theorem State.updCore_flags (s : State) (i : Fin 8) (f : Core → Core) : (s.updCore i f).flags = s.flags := rfl
@[simp] theorem State.updCore_tu (s : State) (i : Fin 8) (f : Core → Core) : (s.updCore i f).tu = s.tu := rfl
@[simp] theorem State.updCore_sm (s : State) (i : Fin 8) (f : Core → Core) : (s.updCore i f).sm = s.sm := rfl
@[simp] theorem State.updCore_ife (s : State) (i : Fin 8) (f : Core → Core) : (s.updCore i f).ife = s.ife := rfl
@[simp] theorem State.updCore_vis (s : State) (i : Fin 8) (f : Core → Core) : (s.updCore i f).vis = s.vis := rfl
@[simp] theorem State.updCore_fld (s : State) (i : Fin 8) (f : Core → Core) : (s.updCore i f).fld = s.fld := rfl
@[simp] theorem State.updCore_fus (s : State) (i : Fin 8) (f : Core → Core) : (s.updCore i f).fus = s.fus := rfl
@[simp] theorem State.updCore_slv (s : State) (i : Fin 8) (f : Core → Core) : (s.updCore i f).slv = s.slv := rfl
@[simp] theorem State.updCore_ps (s : State) (i : Fin 8) (f : Core → Core) : (s.updCore i f).ps = s.ps := rfl
@[simp] theorem State.updCore_mem (s : State) (i : Fin 8) (f : Core → Core) : (s.updCore i f).mem = s.mem := rfl
@[simp] theorem State.updCore_sram (s : State) (i : Fin 8) (f : Core → Core) : (s.updCore i f).sram = s.sram := rfl
@[simp] theorem State.updCore_mt (s : State) (i : Fin 8) (f : Core → Core) : (s.updCore i f).mt = s.mt := rfl
@[simp] theorem State.updCore_pm (s : State) (i : Fin 8) (f : Core → Core) : (s.updCore i f).pm = s.pm := rfl
@[simp] theorem State.updCore_sec (s : State) (i : Fin 8) (f : Core → Core) : (s.updCore i f).sec = s.sec := rfl
@[simp] theorem State.updCore_evr (s : State) (i : Fin 8) (f : Core → Core) : (s.updCore i f).evr = s.evr := rfl
@[simp] theorem State.updCore_free (s : State) (i : Fin 8) (f : Core → Core) : (s.updCore i f).free = s.free := rfl
@[simp] theorem State.updCore_pending (s : State) (i : Fin 8) (f : Core → Core) : (s.updCore i f).pending = s.pending := rfl

/-! ## `State.updCorePower` changes `pm` only -/

@[simp] theorem State.updCorePower_pins (s : State) (i : Fin 8) (f : CorePower → CorePower) : (s.updCorePower i f).pins = s.pins := rfl
@[simp] theorem State.updCorePower_dev (s : State) (i : Fin 8) (f : CorePower → CorePower) : (s.updCorePower i f).dev = s.dev := rfl
@[simp] theorem State.updCorePower_port (s : State) (i : Fin 8) (f : CorePower → CorePower) : (s.updCorePower i f).port = s.port := rfl
@[simp] theorem State.updCorePower_mbx (s : State) (i : Fin 8) (f : CorePower → CorePower) : (s.updCorePower i f).mbx = s.mbx := rfl
@[simp] theorem State.updCorePower_fw (s : State) (i : Fin 8) (f : CorePower → CorePower) : (s.updCorePower i f).fw = s.fw := rfl
@[simp] theorem State.updCorePower_sched (s : State) (i : Fin 8) (f : CorePower → CorePower) : (s.updCorePower i f).sched = s.sched := rfl
@[simp] theorem State.updCorePower_flags (s : State) (i : Fin 8) (f : CorePower → CorePower) : (s.updCorePower i f).flags = s.flags := rfl
@[simp] theorem State.updCorePower_tu (s : State) (i : Fin 8) (f : CorePower → CorePower) : (s.updCorePower i f).tu = s.tu := rfl
@[simp] theorem State.updCorePower_sm (s : State) (i : Fin 8) (f : CorePower → CorePower) : (s.updCorePower i f).sm = s.sm := rfl
@[simp] theorem State.updCorePower_ife (s : State) (i : Fin 8) (f : CorePower → CorePower) : (s.updCorePower i f).ife = s.ife := rfl
@[simp] theorem State.updCorePower_vis (s : State) (i : Fin 8) (f : CorePower → CorePower) : (s.updCorePower i f).vis = s.vis := rfl
@[simp] theorem State.updCorePower_cores (s : State) (i : Fin 8) (f : CorePower → CorePower) : (s.updCorePower i f).cores = s.cores := rfl
@[simp] theorem State.updCorePower_fld (s : State) (i : Fin 8) (f : CorePower → CorePower) : (s.updCorePower i f).fld = s.fld := rfl
@[simp] theorem State.updCorePower_fus (s : State) (i : Fin 8) (f : CorePower → CorePower) : (s.updCorePower i f).fus = s.fus := rfl
@[simp] theorem State.updCorePower_slv (s : State) (i : Fin 8) (f : CorePower → CorePower) : (s.updCorePower i f).slv = s.slv := rfl
@[simp] theorem State.updCorePower_ps (s : State) (i : Fin 8) (f : CorePower → CorePower) : (s.updCorePower i f).ps = s.ps := rfl
@[simp] theorem State.updCorePower_mem (s : State) (i : Fin 8) (f : CorePower → CorePower) : (s.updCorePower i f).mem = s.mem := rfl
@[simp] theorem State.updCorePower_sram (s : State) (i : Fin 8) (f : CorePower → CorePower) : (s.updCorePower i f).sram = s.sram := rfl
@[simp] theorem State.updCorePower_mt (s : State) (i : Fin 8) (f : CorePower → CorePower) : (s.updCorePower i f).mt = s.mt := rfl
@[simp] theorem State.updCorePower_sec (s : State) (i : Fin 8) (f : CorePower → CorePower) : (s.updCorePower i f).sec = s.sec := rfl
@[simp] theorem State.updCorePower_evr (s : State) (i : Fin 8) (f : CorePower → CorePower) : (s.updCorePower i f).evr = s.evr := rfl
@[simp] theorem State.updCorePower_free (s : State) (i : Fin 8) (f : CorePower → CorePower) : (s.updCorePower i f).free = s.free := rfl
@[simp] theorem State.updCorePower_pending (s : State) (i : Fin 8) (f : CorePower → CorePower) : (s.updCorePower i f).pending = s.pending := rfl

/-! ## `State.updSeq` changes `sched` only -/

@[simp] theorem State.updSeq_pins (s : State) (i : Fin 22) (f : Seq → Seq) : (s.updSeq i f).pins = s.pins := rfl
@[simp] theorem State.updSeq_dev (s : State) (i : Fin 22) (f : Seq → Seq) : (s.updSeq i f).dev = s.dev := rfl
@[simp] theorem State.updSeq_port (s : State) (i : Fin 22) (f : Seq → Seq) : (s.updSeq i f).port = s.port := rfl
@[simp] theorem State.updSeq_mbx (s : State) (i : Fin 22) (f : Seq → Seq) : (s.updSeq i f).mbx = s.mbx := rfl
@[simp] theorem State.updSeq_fw (s : State) (i : Fin 22) (f : Seq → Seq) : (s.updSeq i f).fw = s.fw := rfl
@[simp] theorem State.updSeq_flags (s : State) (i : Fin 22) (f : Seq → Seq) : (s.updSeq i f).flags = s.flags := rfl
@[simp] theorem State.updSeq_tu (s : State) (i : Fin 22) (f : Seq → Seq) : (s.updSeq i f).tu = s.tu := rfl
@[simp] theorem State.updSeq_sm (s : State) (i : Fin 22) (f : Seq → Seq) : (s.updSeq i f).sm = s.sm := rfl
@[simp] theorem State.updSeq_ife (s : State) (i : Fin 22) (f : Seq → Seq) : (s.updSeq i f).ife = s.ife := rfl
@[simp] theorem State.updSeq_vis (s : State) (i : Fin 22) (f : Seq → Seq) : (s.updSeq i f).vis = s.vis := rfl
@[simp] theorem State.updSeq_cores (s : State) (i : Fin 22) (f : Seq → Seq) : (s.updSeq i f).cores = s.cores := rfl
@[simp] theorem State.updSeq_fld (s : State) (i : Fin 22) (f : Seq → Seq) : (s.updSeq i f).fld = s.fld := rfl
@[simp] theorem State.updSeq_fus (s : State) (i : Fin 22) (f : Seq → Seq) : (s.updSeq i f).fus = s.fus := rfl
@[simp] theorem State.updSeq_slv (s : State) (i : Fin 22) (f : Seq → Seq) : (s.updSeq i f).slv = s.slv := rfl
@[simp] theorem State.updSeq_ps (s : State) (i : Fin 22) (f : Seq → Seq) : (s.updSeq i f).ps = s.ps := rfl
@[simp] theorem State.updSeq_mem (s : State) (i : Fin 22) (f : Seq → Seq) : (s.updSeq i f).mem = s.mem := rfl
@[simp] theorem State.updSeq_sram (s : State) (i : Fin 22) (f : Seq → Seq) : (s.updSeq i f).sram = s.sram := rfl
@[simp] theorem State.updSeq_mt (s : State) (i : Fin 22) (f : Seq → Seq) : (s.updSeq i f).mt = s.mt := rfl
@[simp] theorem State.updSeq_pm (s : State) (i : Fin 22) (f : Seq → Seq) : (s.updSeq i f).pm = s.pm := rfl
@[simp] theorem State.updSeq_sec (s : State) (i : Fin 22) (f : Seq → Seq) : (s.updSeq i f).sec = s.sec := rfl
@[simp] theorem State.updSeq_evr (s : State) (i : Fin 22) (f : Seq → Seq) : (s.updSeq i f).evr = s.evr := rfl
@[simp] theorem State.updSeq_free (s : State) (i : Fin 22) (f : Seq → Seq) : (s.updSeq i f).free = s.free := rfl
@[simp] theorem State.updSeq_pending (s : State) (i : Fin 22) (f : Seq → Seq) : (s.updSeq i f).pending = s.pending := rfl

/-! ## `State.onSeq` changes `sched` only -/

@[simp] theorem State.onSeq_pins (s : State) (t : Target) (f : Seq → Seq) : (s.onSeq t f).pins = s.pins := rfl
@[simp] theorem State.onSeq_dev (s : State) (t : Target) (f : Seq → Seq) : (s.onSeq t f).dev = s.dev := rfl
@[simp] theorem State.onSeq_port (s : State) (t : Target) (f : Seq → Seq) : (s.onSeq t f).port = s.port := rfl
@[simp] theorem State.onSeq_mbx (s : State) (t : Target) (f : Seq → Seq) : (s.onSeq t f).mbx = s.mbx := rfl
@[simp] theorem State.onSeq_fw (s : State) (t : Target) (f : Seq → Seq) : (s.onSeq t f).fw = s.fw := rfl
@[simp] theorem State.onSeq_flags (s : State) (t : Target) (f : Seq → Seq) : (s.onSeq t f).flags = s.flags := rfl
@[simp] theorem State.onSeq_tu (s : State) (t : Target) (f : Seq → Seq) : (s.onSeq t f).tu = s.tu := rfl
@[simp] theorem State.onSeq_sm (s : State) (t : Target) (f : Seq → Seq) : (s.onSeq t f).sm = s.sm := rfl
@[simp] theorem State.onSeq_ife (s : State) (t : Target) (f : Seq → Seq) : (s.onSeq t f).ife = s.ife := rfl
@[simp] theorem State.onSeq_vis (s : State) (t : Target) (f : Seq → Seq) : (s.onSeq t f).vis = s.vis := rfl
@[simp] theorem State.onSeq_cores (s : State) (t : Target) (f : Seq → Seq) : (s.onSeq t f).cores = s.cores := rfl
@[simp] theorem State.onSeq_fld (s : State) (t : Target) (f : Seq → Seq) : (s.onSeq t f).fld = s.fld := rfl
@[simp] theorem State.onSeq_fus (s : State) (t : Target) (f : Seq → Seq) : (s.onSeq t f).fus = s.fus := rfl
@[simp] theorem State.onSeq_slv (s : State) (t : Target) (f : Seq → Seq) : (s.onSeq t f).slv = s.slv := rfl
@[simp] theorem State.onSeq_ps (s : State) (t : Target) (f : Seq → Seq) : (s.onSeq t f).ps = s.ps := rfl
@[simp] theorem State.onSeq_mem (s : State) (t : Target) (f : Seq → Seq) : (s.onSeq t f).mem = s.mem := rfl
@[simp] theorem State.onSeq_sram (s : State) (t : Target) (f : Seq → Seq) : (s.onSeq t f).sram = s.sram := rfl
@[simp] theorem State.onSeq_mt (s : State) (t : Target) (f : Seq → Seq) : (s.onSeq t f).mt = s.mt := rfl
@[simp] theorem State.onSeq_pm (s : State) (t : Target) (f : Seq → Seq) : (s.onSeq t f).pm = s.pm := rfl
@[simp] theorem State.onSeq_sec (s : State) (t : Target) (f : Seq → Seq) : (s.onSeq t f).sec = s.sec := rfl
@[simp] theorem State.onSeq_evr (s : State) (t : Target) (f : Seq → Seq) : (s.onSeq t f).evr = s.evr := rfl
@[simp] theorem State.onSeq_free (s : State) (t : Target) (f : Seq → Seq) : (s.onSeq t f).free = s.free := rfl
@[simp] theorem State.onSeq_pending (s : State) (t : Target) (f : Seq → Seq) : (s.onSeq t f).pending = s.pending := rfl

/-! ## `State.updInput` changes `ife` only -/

@[simp] theorem State.updInput_pins (s : State) (i : Fin 4) (f : IfeInput → IfeInput) : (s.updInput i f).pins = s.pins := rfl
@[simp] theorem State.updInput_dev (s : State) (i : Fin 4) (f : IfeInput → IfeInput) : (s.updInput i f).dev = s.dev := rfl
@[simp] theorem State.updInput_port (s : State) (i : Fin 4) (f : IfeInput → IfeInput) : (s.updInput i f).port = s.port := rfl
@[simp] theorem State.updInput_mbx (s : State) (i : Fin 4) (f : IfeInput → IfeInput) : (s.updInput i f).mbx = s.mbx := rfl
@[simp] theorem State.updInput_fw (s : State) (i : Fin 4) (f : IfeInput → IfeInput) : (s.updInput i f).fw = s.fw := rfl
@[simp] theorem State.updInput_sched (s : State) (i : Fin 4) (f : IfeInput → IfeInput) : (s.updInput i f).sched = s.sched := rfl
@[simp] theorem State.updInput_flags (s : State) (i : Fin 4) (f : IfeInput → IfeInput) : (s.updInput i f).flags = s.flags := rfl
@[simp] theorem State.updInput_tu (s : State) (i : Fin 4) (f : IfeInput → IfeInput) : (s.updInput i f).tu = s.tu := rfl
@[simp] theorem State.updInput_sm (s : State) (i : Fin 4) (f : IfeInput → IfeInput) : (s.updInput i f).sm = s.sm := rfl
@[simp] theorem State.updInput_vis (s : State) (i : Fin 4) (f : IfeInput → IfeInput) : (s.updInput i f).vis = s.vis := rfl
@[simp] theorem State.updInput_cores (s : State) (i : Fin 4) (f : IfeInput → IfeInput) : (s.updInput i f).cores = s.cores := rfl
@[simp] theorem State.updInput_fld (s : State) (i : Fin 4) (f : IfeInput → IfeInput) : (s.updInput i f).fld = s.fld := rfl
@[simp] theorem State.updInput_fus (s : State) (i : Fin 4) (f : IfeInput → IfeInput) : (s.updInput i f).fus = s.fus := rfl
@[simp] theorem State.updInput_slv (s : State) (i : Fin 4) (f : IfeInput → IfeInput) : (s.updInput i f).slv = s.slv := rfl
@[simp] theorem State.updInput_ps (s : State) (i : Fin 4) (f : IfeInput → IfeInput) : (s.updInput i f).ps = s.ps := rfl
@[simp] theorem State.updInput_mem (s : State) (i : Fin 4) (f : IfeInput → IfeInput) : (s.updInput i f).mem = s.mem := rfl
@[simp] theorem State.updInput_sram (s : State) (i : Fin 4) (f : IfeInput → IfeInput) : (s.updInput i f).sram = s.sram := rfl
@[simp] theorem State.updInput_mt (s : State) (i : Fin 4) (f : IfeInput → IfeInput) : (s.updInput i f).mt = s.mt := rfl
@[simp] theorem State.updInput_pm (s : State) (i : Fin 4) (f : IfeInput → IfeInput) : (s.updInput i f).pm = s.pm := rfl
@[simp] theorem State.updInput_sec (s : State) (i : Fin 4) (f : IfeInput → IfeInput) : (s.updInput i f).sec = s.sec := rfl
@[simp] theorem State.updInput_evr (s : State) (i : Fin 4) (f : IfeInput → IfeInput) : (s.updInput i f).evr = s.evr := rfl
@[simp] theorem State.updInput_free (s : State) (i : Fin 4) (f : IfeInput → IfeInput) : (s.updInput i f).free = s.free := rfl
@[simp] theorem State.updInput_pending (s : State) (i : Fin 4) (f : IfeInput → IfeInput) : (s.updInput i f).pending = s.pending := rfl

/-! ## `State.updEnc` changes `ife` only -/

@[simp] theorem State.updEnc_pins (s : State) (i : Fin 8) (f : Encoder → Encoder) : (s.updEnc i f).pins = s.pins := rfl
@[simp] theorem State.updEnc_dev (s : State) (i : Fin 8) (f : Encoder → Encoder) : (s.updEnc i f).dev = s.dev := rfl
@[simp] theorem State.updEnc_port (s : State) (i : Fin 8) (f : Encoder → Encoder) : (s.updEnc i f).port = s.port := rfl
@[simp] theorem State.updEnc_mbx (s : State) (i : Fin 8) (f : Encoder → Encoder) : (s.updEnc i f).mbx = s.mbx := rfl
@[simp] theorem State.updEnc_fw (s : State) (i : Fin 8) (f : Encoder → Encoder) : (s.updEnc i f).fw = s.fw := rfl
@[simp] theorem State.updEnc_sched (s : State) (i : Fin 8) (f : Encoder → Encoder) : (s.updEnc i f).sched = s.sched := rfl
@[simp] theorem State.updEnc_flags (s : State) (i : Fin 8) (f : Encoder → Encoder) : (s.updEnc i f).flags = s.flags := rfl
@[simp] theorem State.updEnc_tu (s : State) (i : Fin 8) (f : Encoder → Encoder) : (s.updEnc i f).tu = s.tu := rfl
@[simp] theorem State.updEnc_sm (s : State) (i : Fin 8) (f : Encoder → Encoder) : (s.updEnc i f).sm = s.sm := rfl
@[simp] theorem State.updEnc_vis (s : State) (i : Fin 8) (f : Encoder → Encoder) : (s.updEnc i f).vis = s.vis := rfl
@[simp] theorem State.updEnc_cores (s : State) (i : Fin 8) (f : Encoder → Encoder) : (s.updEnc i f).cores = s.cores := rfl
@[simp] theorem State.updEnc_fld (s : State) (i : Fin 8) (f : Encoder → Encoder) : (s.updEnc i f).fld = s.fld := rfl
@[simp] theorem State.updEnc_fus (s : State) (i : Fin 8) (f : Encoder → Encoder) : (s.updEnc i f).fus = s.fus := rfl
@[simp] theorem State.updEnc_slv (s : State) (i : Fin 8) (f : Encoder → Encoder) : (s.updEnc i f).slv = s.slv := rfl
@[simp] theorem State.updEnc_ps (s : State) (i : Fin 8) (f : Encoder → Encoder) : (s.updEnc i f).ps = s.ps := rfl
@[simp] theorem State.updEnc_mem (s : State) (i : Fin 8) (f : Encoder → Encoder) : (s.updEnc i f).mem = s.mem := rfl
@[simp] theorem State.updEnc_sram (s : State) (i : Fin 8) (f : Encoder → Encoder) : (s.updEnc i f).sram = s.sram := rfl
@[simp] theorem State.updEnc_mt (s : State) (i : Fin 8) (f : Encoder → Encoder) : (s.updEnc i f).mt = s.mt := rfl
@[simp] theorem State.updEnc_pm (s : State) (i : Fin 8) (f : Encoder → Encoder) : (s.updEnc i f).pm = s.pm := rfl
@[simp] theorem State.updEnc_sec (s : State) (i : Fin 8) (f : Encoder → Encoder) : (s.updEnc i f).sec = s.sec := rfl
@[simp] theorem State.updEnc_evr (s : State) (i : Fin 8) (f : Encoder → Encoder) : (s.updEnc i f).evr = s.evr := rfl
@[simp] theorem State.updEnc_free (s : State) (i : Fin 8) (f : Encoder → Encoder) : (s.updEnc i f).free = s.free := rfl
@[simp] theorem State.updEnc_pending (s : State) (i : Fin 8) (f : Encoder → Encoder) : (s.updEnc i f).pending = s.pending := rfl

/-! ## `State.updVis` changes `vis` only -/

@[simp] theorem State.updVis_pins (s : State) (i : Fin 4) (f : VisionEngine → VisionEngine) : (s.updVis i f).pins = s.pins := rfl
@[simp] theorem State.updVis_dev (s : State) (i : Fin 4) (f : VisionEngine → VisionEngine) : (s.updVis i f).dev = s.dev := rfl
@[simp] theorem State.updVis_port (s : State) (i : Fin 4) (f : VisionEngine → VisionEngine) : (s.updVis i f).port = s.port := rfl
@[simp] theorem State.updVis_mbx (s : State) (i : Fin 4) (f : VisionEngine → VisionEngine) : (s.updVis i f).mbx = s.mbx := rfl
@[simp] theorem State.updVis_fw (s : State) (i : Fin 4) (f : VisionEngine → VisionEngine) : (s.updVis i f).fw = s.fw := rfl
@[simp] theorem State.updVis_sched (s : State) (i : Fin 4) (f : VisionEngine → VisionEngine) : (s.updVis i f).sched = s.sched := rfl
@[simp] theorem State.updVis_flags (s : State) (i : Fin 4) (f : VisionEngine → VisionEngine) : (s.updVis i f).flags = s.flags := rfl
@[simp] theorem State.updVis_tu (s : State) (i : Fin 4) (f : VisionEngine → VisionEngine) : (s.updVis i f).tu = s.tu := rfl
@[simp] theorem State.updVis_sm (s : State) (i : Fin 4) (f : VisionEngine → VisionEngine) : (s.updVis i f).sm = s.sm := rfl
@[simp] theorem State.updVis_ife (s : State) (i : Fin 4) (f : VisionEngine → VisionEngine) : (s.updVis i f).ife = s.ife := rfl
@[simp] theorem State.updVis_cores (s : State) (i : Fin 4) (f : VisionEngine → VisionEngine) : (s.updVis i f).cores = s.cores := rfl
@[simp] theorem State.updVis_fld (s : State) (i : Fin 4) (f : VisionEngine → VisionEngine) : (s.updVis i f).fld = s.fld := rfl
@[simp] theorem State.updVis_fus (s : State) (i : Fin 4) (f : VisionEngine → VisionEngine) : (s.updVis i f).fus = s.fus := rfl
@[simp] theorem State.updVis_slv (s : State) (i : Fin 4) (f : VisionEngine → VisionEngine) : (s.updVis i f).slv = s.slv := rfl
@[simp] theorem State.updVis_ps (s : State) (i : Fin 4) (f : VisionEngine → VisionEngine) : (s.updVis i f).ps = s.ps := rfl
@[simp] theorem State.updVis_mem (s : State) (i : Fin 4) (f : VisionEngine → VisionEngine) : (s.updVis i f).mem = s.mem := rfl
@[simp] theorem State.updVis_sram (s : State) (i : Fin 4) (f : VisionEngine → VisionEngine) : (s.updVis i f).sram = s.sram := rfl
@[simp] theorem State.updVis_mt (s : State) (i : Fin 4) (f : VisionEngine → VisionEngine) : (s.updVis i f).mt = s.mt := rfl
@[simp] theorem State.updVis_pm (s : State) (i : Fin 4) (f : VisionEngine → VisionEngine) : (s.updVis i f).pm = s.pm := rfl
@[simp] theorem State.updVis_sec (s : State) (i : Fin 4) (f : VisionEngine → VisionEngine) : (s.updVis i f).sec = s.sec := rfl
@[simp] theorem State.updVis_evr (s : State) (i : Fin 4) (f : VisionEngine → VisionEngine) : (s.updVis i f).evr = s.evr := rfl
@[simp] theorem State.updVis_free (s : State) (i : Fin 4) (f : VisionEngine → VisionEngine) : (s.updVis i f).free = s.free := rfl
@[simp] theorem State.updVis_pending (s : State) (i : Fin 4) (f : VisionEngine → VisionEngine) : (s.updVis i f).pending = s.pending := rfl

/-! ## `State.updTrig` changes `tu` only -/

@[simp] theorem State.updTrig_pins (s : State) (i : Fin 16) (f : Trig → Trig) : (s.updTrig i f).pins = s.pins := rfl
@[simp] theorem State.updTrig_dev (s : State) (i : Fin 16) (f : Trig → Trig) : (s.updTrig i f).dev = s.dev := rfl
@[simp] theorem State.updTrig_port (s : State) (i : Fin 16) (f : Trig → Trig) : (s.updTrig i f).port = s.port := rfl
@[simp] theorem State.updTrig_mbx (s : State) (i : Fin 16) (f : Trig → Trig) : (s.updTrig i f).mbx = s.mbx := rfl
@[simp] theorem State.updTrig_fw (s : State) (i : Fin 16) (f : Trig → Trig) : (s.updTrig i f).fw = s.fw := rfl
@[simp] theorem State.updTrig_sched (s : State) (i : Fin 16) (f : Trig → Trig) : (s.updTrig i f).sched = s.sched := rfl
@[simp] theorem State.updTrig_flags (s : State) (i : Fin 16) (f : Trig → Trig) : (s.updTrig i f).flags = s.flags := rfl
@[simp] theorem State.updTrig_sm (s : State) (i : Fin 16) (f : Trig → Trig) : (s.updTrig i f).sm = s.sm := rfl
@[simp] theorem State.updTrig_ife (s : State) (i : Fin 16) (f : Trig → Trig) : (s.updTrig i f).ife = s.ife := rfl
@[simp] theorem State.updTrig_vis (s : State) (i : Fin 16) (f : Trig → Trig) : (s.updTrig i f).vis = s.vis := rfl
@[simp] theorem State.updTrig_cores (s : State) (i : Fin 16) (f : Trig → Trig) : (s.updTrig i f).cores = s.cores := rfl
@[simp] theorem State.updTrig_fld (s : State) (i : Fin 16) (f : Trig → Trig) : (s.updTrig i f).fld = s.fld := rfl
@[simp] theorem State.updTrig_fus (s : State) (i : Fin 16) (f : Trig → Trig) : (s.updTrig i f).fus = s.fus := rfl
@[simp] theorem State.updTrig_slv (s : State) (i : Fin 16) (f : Trig → Trig) : (s.updTrig i f).slv = s.slv := rfl
@[simp] theorem State.updTrig_ps (s : State) (i : Fin 16) (f : Trig → Trig) : (s.updTrig i f).ps = s.ps := rfl
@[simp] theorem State.updTrig_mem (s : State) (i : Fin 16) (f : Trig → Trig) : (s.updTrig i f).mem = s.mem := rfl
@[simp] theorem State.updTrig_sram (s : State) (i : Fin 16) (f : Trig → Trig) : (s.updTrig i f).sram = s.sram := rfl
@[simp] theorem State.updTrig_mt (s : State) (i : Fin 16) (f : Trig → Trig) : (s.updTrig i f).mt = s.mt := rfl
@[simp] theorem State.updTrig_pm (s : State) (i : Fin 16) (f : Trig → Trig) : (s.updTrig i f).pm = s.pm := rfl
@[simp] theorem State.updTrig_sec (s : State) (i : Fin 16) (f : Trig → Trig) : (s.updTrig i f).sec = s.sec := rfl
@[simp] theorem State.updTrig_evr (s : State) (i : Fin 16) (f : Trig → Trig) : (s.updTrig i f).evr = s.evr := rfl
@[simp] theorem State.updTrig_free (s : State) (i : Fin 16) (f : Trig → Trig) : (s.updTrig i f).free = s.free := rfl
@[simp] theorem State.updTrig_pending (s : State) (i : Fin 16) (f : Trig → Trig) : (s.updTrig i f).pending = s.pending := rfl

/-! ## `State.updGrant` changes `sec` only -/

@[simp] theorem State.updGrant_pins (s : State) (i : Fin 4) (f : Grant → Grant) : (s.updGrant i f).pins = s.pins := rfl
@[simp] theorem State.updGrant_dev (s : State) (i : Fin 4) (f : Grant → Grant) : (s.updGrant i f).dev = s.dev := rfl
@[simp] theorem State.updGrant_port (s : State) (i : Fin 4) (f : Grant → Grant) : (s.updGrant i f).port = s.port := rfl
@[simp] theorem State.updGrant_mbx (s : State) (i : Fin 4) (f : Grant → Grant) : (s.updGrant i f).mbx = s.mbx := rfl
@[simp] theorem State.updGrant_fw (s : State) (i : Fin 4) (f : Grant → Grant) : (s.updGrant i f).fw = s.fw := rfl
@[simp] theorem State.updGrant_sched (s : State) (i : Fin 4) (f : Grant → Grant) : (s.updGrant i f).sched = s.sched := rfl
@[simp] theorem State.updGrant_flags (s : State) (i : Fin 4) (f : Grant → Grant) : (s.updGrant i f).flags = s.flags := rfl
@[simp] theorem State.updGrant_tu (s : State) (i : Fin 4) (f : Grant → Grant) : (s.updGrant i f).tu = s.tu := rfl
@[simp] theorem State.updGrant_sm (s : State) (i : Fin 4) (f : Grant → Grant) : (s.updGrant i f).sm = s.sm := rfl
@[simp] theorem State.updGrant_ife (s : State) (i : Fin 4) (f : Grant → Grant) : (s.updGrant i f).ife = s.ife := rfl
@[simp] theorem State.updGrant_vis (s : State) (i : Fin 4) (f : Grant → Grant) : (s.updGrant i f).vis = s.vis := rfl
@[simp] theorem State.updGrant_cores (s : State) (i : Fin 4) (f : Grant → Grant) : (s.updGrant i f).cores = s.cores := rfl
@[simp] theorem State.updGrant_fld (s : State) (i : Fin 4) (f : Grant → Grant) : (s.updGrant i f).fld = s.fld := rfl
@[simp] theorem State.updGrant_fus (s : State) (i : Fin 4) (f : Grant → Grant) : (s.updGrant i f).fus = s.fus := rfl
@[simp] theorem State.updGrant_slv (s : State) (i : Fin 4) (f : Grant → Grant) : (s.updGrant i f).slv = s.slv := rfl
@[simp] theorem State.updGrant_ps (s : State) (i : Fin 4) (f : Grant → Grant) : (s.updGrant i f).ps = s.ps := rfl
@[simp] theorem State.updGrant_mem (s : State) (i : Fin 4) (f : Grant → Grant) : (s.updGrant i f).mem = s.mem := rfl
@[simp] theorem State.updGrant_sram (s : State) (i : Fin 4) (f : Grant → Grant) : (s.updGrant i f).sram = s.sram := rfl
@[simp] theorem State.updGrant_mt (s : State) (i : Fin 4) (f : Grant → Grant) : (s.updGrant i f).mt = s.mt := rfl
@[simp] theorem State.updGrant_pm (s : State) (i : Fin 4) (f : Grant → Grant) : (s.updGrant i f).pm = s.pm := rfl
@[simp] theorem State.updGrant_evr (s : State) (i : Fin 4) (f : Grant → Grant) : (s.updGrant i f).evr = s.evr := rfl
@[simp] theorem State.updGrant_free (s : State) (i : Fin 4) (f : Grant → Grant) : (s.updGrant i f).free = s.free := rfl
@[simp] theorem State.updGrant_pending (s : State) (i : Fin 4) (f : Grant → Grant) : (s.updGrant i f).pending = s.pending := rfl

/-! ## `State.updBase` changes `tu` only -/

@[simp] theorem State.updBase_pins (s : State) (b : Base) (f : BaseClock → BaseClock) : (s.updBase b f).pins = s.pins := by
  cases b <;> rfl
@[simp] theorem State.updBase_dev (s : State) (b : Base) (f : BaseClock → BaseClock) : (s.updBase b f).dev = s.dev := by
  cases b <;> rfl
@[simp] theorem State.updBase_port (s : State) (b : Base) (f : BaseClock → BaseClock) : (s.updBase b f).port = s.port := by
  cases b <;> rfl
@[simp] theorem State.updBase_mbx (s : State) (b : Base) (f : BaseClock → BaseClock) : (s.updBase b f).mbx = s.mbx := by
  cases b <;> rfl
@[simp] theorem State.updBase_fw (s : State) (b : Base) (f : BaseClock → BaseClock) : (s.updBase b f).fw = s.fw := by
  cases b <;> rfl
@[simp] theorem State.updBase_sched (s : State) (b : Base) (f : BaseClock → BaseClock) : (s.updBase b f).sched = s.sched := by
  cases b <;> rfl
@[simp] theorem State.updBase_flags (s : State) (b : Base) (f : BaseClock → BaseClock) : (s.updBase b f).flags = s.flags := by
  cases b <;> rfl
@[simp] theorem State.updBase_sm (s : State) (b : Base) (f : BaseClock → BaseClock) : (s.updBase b f).sm = s.sm := by
  cases b <;> rfl
@[simp] theorem State.updBase_ife (s : State) (b : Base) (f : BaseClock → BaseClock) : (s.updBase b f).ife = s.ife := by
  cases b <;> rfl
@[simp] theorem State.updBase_vis (s : State) (b : Base) (f : BaseClock → BaseClock) : (s.updBase b f).vis = s.vis := by
  cases b <;> rfl
@[simp] theorem State.updBase_cores (s : State) (b : Base) (f : BaseClock → BaseClock) : (s.updBase b f).cores = s.cores := by
  cases b <;> rfl
@[simp] theorem State.updBase_fld (s : State) (b : Base) (f : BaseClock → BaseClock) : (s.updBase b f).fld = s.fld := by
  cases b <;> rfl
@[simp] theorem State.updBase_fus (s : State) (b : Base) (f : BaseClock → BaseClock) : (s.updBase b f).fus = s.fus := by
  cases b <;> rfl
@[simp] theorem State.updBase_slv (s : State) (b : Base) (f : BaseClock → BaseClock) : (s.updBase b f).slv = s.slv := by
  cases b <;> rfl
@[simp] theorem State.updBase_ps (s : State) (b : Base) (f : BaseClock → BaseClock) : (s.updBase b f).ps = s.ps := by
  cases b <;> rfl
@[simp] theorem State.updBase_mem (s : State) (b : Base) (f : BaseClock → BaseClock) : (s.updBase b f).mem = s.mem := by
  cases b <;> rfl
@[simp] theorem State.updBase_sram (s : State) (b : Base) (f : BaseClock → BaseClock) : (s.updBase b f).sram = s.sram := by
  cases b <;> rfl
@[simp] theorem State.updBase_mt (s : State) (b : Base) (f : BaseClock → BaseClock) : (s.updBase b f).mt = s.mt := by
  cases b <;> rfl
@[simp] theorem State.updBase_pm (s : State) (b : Base) (f : BaseClock → BaseClock) : (s.updBase b f).pm = s.pm := by
  cases b <;> rfl
@[simp] theorem State.updBase_sec (s : State) (b : Base) (f : BaseClock → BaseClock) : (s.updBase b f).sec = s.sec := by
  cases b <;> rfl
@[simp] theorem State.updBase_evr (s : State) (b : Base) (f : BaseClock → BaseClock) : (s.updBase b f).evr = s.evr := by
  cases b <;> rfl
@[simp] theorem State.updBase_free (s : State) (b : Base) (f : BaseClock → BaseClock) : (s.updBase b f).free = s.free := by
  cases b <;> rfl
@[simp] theorem State.updBase_pending (s : State) (b : Base) (f : BaseClock → BaseClock) : (s.updBase b f).pending = s.pending := by
  cases b <;> rfl

/-! ## `State.setFlag` changes `flags` only -/

@[simp] theorem State.setFlag_pins (s : State) (n : Nat) : (s.setFlag n).pins = s.pins := rfl
@[simp] theorem State.setFlag_dev (s : State) (n : Nat) : (s.setFlag n).dev = s.dev := rfl
@[simp] theorem State.setFlag_port (s : State) (n : Nat) : (s.setFlag n).port = s.port := rfl
@[simp] theorem State.setFlag_mbx (s : State) (n : Nat) : (s.setFlag n).mbx = s.mbx := rfl
@[simp] theorem State.setFlag_fw (s : State) (n : Nat) : (s.setFlag n).fw = s.fw := rfl
@[simp] theorem State.setFlag_sched (s : State) (n : Nat) : (s.setFlag n).sched = s.sched := rfl
@[simp] theorem State.setFlag_tu (s : State) (n : Nat) : (s.setFlag n).tu = s.tu := rfl
@[simp] theorem State.setFlag_sm (s : State) (n : Nat) : (s.setFlag n).sm = s.sm := rfl
@[simp] theorem State.setFlag_ife (s : State) (n : Nat) : (s.setFlag n).ife = s.ife := rfl
@[simp] theorem State.setFlag_vis (s : State) (n : Nat) : (s.setFlag n).vis = s.vis := rfl
@[simp] theorem State.setFlag_cores (s : State) (n : Nat) : (s.setFlag n).cores = s.cores := rfl
@[simp] theorem State.setFlag_fld (s : State) (n : Nat) : (s.setFlag n).fld = s.fld := rfl
@[simp] theorem State.setFlag_fus (s : State) (n : Nat) : (s.setFlag n).fus = s.fus := rfl
@[simp] theorem State.setFlag_slv (s : State) (n : Nat) : (s.setFlag n).slv = s.slv := rfl
@[simp] theorem State.setFlag_ps (s : State) (n : Nat) : (s.setFlag n).ps = s.ps := rfl
@[simp] theorem State.setFlag_mem (s : State) (n : Nat) : (s.setFlag n).mem = s.mem := rfl
@[simp] theorem State.setFlag_sram (s : State) (n : Nat) : (s.setFlag n).sram = s.sram := rfl
@[simp] theorem State.setFlag_mt (s : State) (n : Nat) : (s.setFlag n).mt = s.mt := rfl
@[simp] theorem State.setFlag_pm (s : State) (n : Nat) : (s.setFlag n).pm = s.pm := rfl
@[simp] theorem State.setFlag_sec (s : State) (n : Nat) : (s.setFlag n).sec = s.sec := rfl
@[simp] theorem State.setFlag_evr (s : State) (n : Nat) : (s.setFlag n).evr = s.evr := rfl
@[simp] theorem State.setFlag_free (s : State) (n : Nat) : (s.setFlag n).free = s.free := rfl
@[simp] theorem State.setFlag_pending (s : State) (n : Nat) : (s.setFlag n).pending = s.pending := rfl

/-! ## `State.voidFlag` changes `flags` only -/

@[simp] theorem State.voidFlag_pins (s : State) (n : Nat) (w : Bool) : (s.voidFlag n w).pins = s.pins := rfl
@[simp] theorem State.voidFlag_dev (s : State) (n : Nat) (w : Bool) : (s.voidFlag n w).dev = s.dev := rfl
@[simp] theorem State.voidFlag_port (s : State) (n : Nat) (w : Bool) : (s.voidFlag n w).port = s.port := rfl
@[simp] theorem State.voidFlag_mbx (s : State) (n : Nat) (w : Bool) : (s.voidFlag n w).mbx = s.mbx := rfl
@[simp] theorem State.voidFlag_fw (s : State) (n : Nat) (w : Bool) : (s.voidFlag n w).fw = s.fw := rfl
@[simp] theorem State.voidFlag_sched (s : State) (n : Nat) (w : Bool) : (s.voidFlag n w).sched = s.sched := rfl
@[simp] theorem State.voidFlag_tu (s : State) (n : Nat) (w : Bool) : (s.voidFlag n w).tu = s.tu := rfl
@[simp] theorem State.voidFlag_sm (s : State) (n : Nat) (w : Bool) : (s.voidFlag n w).sm = s.sm := rfl
@[simp] theorem State.voidFlag_ife (s : State) (n : Nat) (w : Bool) : (s.voidFlag n w).ife = s.ife := rfl
@[simp] theorem State.voidFlag_vis (s : State) (n : Nat) (w : Bool) : (s.voidFlag n w).vis = s.vis := rfl
@[simp] theorem State.voidFlag_cores (s : State) (n : Nat) (w : Bool) : (s.voidFlag n w).cores = s.cores := rfl
@[simp] theorem State.voidFlag_fld (s : State) (n : Nat) (w : Bool) : (s.voidFlag n w).fld = s.fld := rfl
@[simp] theorem State.voidFlag_fus (s : State) (n : Nat) (w : Bool) : (s.voidFlag n w).fus = s.fus := rfl
@[simp] theorem State.voidFlag_slv (s : State) (n : Nat) (w : Bool) : (s.voidFlag n w).slv = s.slv := rfl
@[simp] theorem State.voidFlag_ps (s : State) (n : Nat) (w : Bool) : (s.voidFlag n w).ps = s.ps := rfl
@[simp] theorem State.voidFlag_mem (s : State) (n : Nat) (w : Bool) : (s.voidFlag n w).mem = s.mem := rfl
@[simp] theorem State.voidFlag_sram (s : State) (n : Nat) (w : Bool) : (s.voidFlag n w).sram = s.sram := rfl
@[simp] theorem State.voidFlag_mt (s : State) (n : Nat) (w : Bool) : (s.voidFlag n w).mt = s.mt := rfl
@[simp] theorem State.voidFlag_pm (s : State) (n : Nat) (w : Bool) : (s.voidFlag n w).pm = s.pm := rfl
@[simp] theorem State.voidFlag_sec (s : State) (n : Nat) (w : Bool) : (s.voidFlag n w).sec = s.sec := rfl
@[simp] theorem State.voidFlag_evr (s : State) (n : Nat) (w : Bool) : (s.voidFlag n w).evr = s.evr := rfl
@[simp] theorem State.voidFlag_free (s : State) (n : Nat) (w : Bool) : (s.voidFlag n w).free = s.free := rfl
@[simp] theorem State.voidFlag_pending (s : State) (n : Nat) (w : Bool) : (s.voidFlag n w).pending = s.pending := rfl

/-! ## `State.clearFlag` changes `flags` only -/

@[simp] theorem State.clearFlag_pins (s : State) (n : Nat) : (s.clearFlag n).pins = s.pins := rfl
@[simp] theorem State.clearFlag_dev (s : State) (n : Nat) : (s.clearFlag n).dev = s.dev := rfl
@[simp] theorem State.clearFlag_port (s : State) (n : Nat) : (s.clearFlag n).port = s.port := rfl
@[simp] theorem State.clearFlag_mbx (s : State) (n : Nat) : (s.clearFlag n).mbx = s.mbx := rfl
@[simp] theorem State.clearFlag_fw (s : State) (n : Nat) : (s.clearFlag n).fw = s.fw := rfl
@[simp] theorem State.clearFlag_sched (s : State) (n : Nat) : (s.clearFlag n).sched = s.sched := rfl
@[simp] theorem State.clearFlag_tu (s : State) (n : Nat) : (s.clearFlag n).tu = s.tu := rfl
@[simp] theorem State.clearFlag_sm (s : State) (n : Nat) : (s.clearFlag n).sm = s.sm := rfl
@[simp] theorem State.clearFlag_ife (s : State) (n : Nat) : (s.clearFlag n).ife = s.ife := rfl
@[simp] theorem State.clearFlag_vis (s : State) (n : Nat) : (s.clearFlag n).vis = s.vis := rfl
@[simp] theorem State.clearFlag_cores (s : State) (n : Nat) : (s.clearFlag n).cores = s.cores := rfl
@[simp] theorem State.clearFlag_fld (s : State) (n : Nat) : (s.clearFlag n).fld = s.fld := rfl
@[simp] theorem State.clearFlag_fus (s : State) (n : Nat) : (s.clearFlag n).fus = s.fus := rfl
@[simp] theorem State.clearFlag_slv (s : State) (n : Nat) : (s.clearFlag n).slv = s.slv := rfl
@[simp] theorem State.clearFlag_ps (s : State) (n : Nat) : (s.clearFlag n).ps = s.ps := rfl
@[simp] theorem State.clearFlag_mem (s : State) (n : Nat) : (s.clearFlag n).mem = s.mem := rfl
@[simp] theorem State.clearFlag_sram (s : State) (n : Nat) : (s.clearFlag n).sram = s.sram := rfl
@[simp] theorem State.clearFlag_mt (s : State) (n : Nat) : (s.clearFlag n).mt = s.mt := rfl
@[simp] theorem State.clearFlag_pm (s : State) (n : Nat) : (s.clearFlag n).pm = s.pm := rfl
@[simp] theorem State.clearFlag_sec (s : State) (n : Nat) : (s.clearFlag n).sec = s.sec := rfl
@[simp] theorem State.clearFlag_evr (s : State) (n : Nat) : (s.clearFlag n).evr = s.evr := rfl
@[simp] theorem State.clearFlag_free (s : State) (n : Nat) : (s.clearFlag n).free = s.free := rfl
@[simp] theorem State.clearFlag_pending (s : State) (n : Nat) : (s.clearFlag n).pending = s.pending := rfl

/-! ## `State.clearOnIssue` changes `flags` only -/

@[simp] theorem State.clearOnIssue_pins (s : State) (o : Op) : (s.clearOnIssue o).pins = s.pins := by
  unfold State.clearOnIssue; split <;> rfl
@[simp] theorem State.clearOnIssue_dev (s : State) (o : Op) : (s.clearOnIssue o).dev = s.dev := by
  unfold State.clearOnIssue; split <;> rfl
@[simp] theorem State.clearOnIssue_port (s : State) (o : Op) : (s.clearOnIssue o).port = s.port := by
  unfold State.clearOnIssue; split <;> rfl
@[simp] theorem State.clearOnIssue_mbx (s : State) (o : Op) : (s.clearOnIssue o).mbx = s.mbx := by
  unfold State.clearOnIssue; split <;> rfl
@[simp] theorem State.clearOnIssue_fw (s : State) (o : Op) : (s.clearOnIssue o).fw = s.fw := by
  unfold State.clearOnIssue; split <;> rfl
@[simp] theorem State.clearOnIssue_sched (s : State) (o : Op) : (s.clearOnIssue o).sched = s.sched := by
  unfold State.clearOnIssue; split <;> rfl
@[simp] theorem State.clearOnIssue_tu (s : State) (o : Op) : (s.clearOnIssue o).tu = s.tu := by
  unfold State.clearOnIssue; split <;> rfl
@[simp] theorem State.clearOnIssue_sm (s : State) (o : Op) : (s.clearOnIssue o).sm = s.sm := by
  unfold State.clearOnIssue; split <;> rfl
@[simp] theorem State.clearOnIssue_ife (s : State) (o : Op) : (s.clearOnIssue o).ife = s.ife := by
  unfold State.clearOnIssue; split <;> rfl
@[simp] theorem State.clearOnIssue_vis (s : State) (o : Op) : (s.clearOnIssue o).vis = s.vis := by
  unfold State.clearOnIssue; split <;> rfl
@[simp] theorem State.clearOnIssue_cores (s : State) (o : Op) : (s.clearOnIssue o).cores = s.cores := by
  unfold State.clearOnIssue; split <;> rfl
@[simp] theorem State.clearOnIssue_fld (s : State) (o : Op) : (s.clearOnIssue o).fld = s.fld := by
  unfold State.clearOnIssue; split <;> rfl
@[simp] theorem State.clearOnIssue_fus (s : State) (o : Op) : (s.clearOnIssue o).fus = s.fus := by
  unfold State.clearOnIssue; split <;> rfl
@[simp] theorem State.clearOnIssue_slv (s : State) (o : Op) : (s.clearOnIssue o).slv = s.slv := by
  unfold State.clearOnIssue; split <;> rfl
@[simp] theorem State.clearOnIssue_ps (s : State) (o : Op) : (s.clearOnIssue o).ps = s.ps := by
  unfold State.clearOnIssue; split <;> rfl
@[simp] theorem State.clearOnIssue_mem (s : State) (o : Op) : (s.clearOnIssue o).mem = s.mem := by
  unfold State.clearOnIssue; split <;> rfl
@[simp] theorem State.clearOnIssue_sram (s : State) (o : Op) : (s.clearOnIssue o).sram = s.sram := by
  unfold State.clearOnIssue; split <;> rfl
@[simp] theorem State.clearOnIssue_mt (s : State) (o : Op) : (s.clearOnIssue o).mt = s.mt := by
  unfold State.clearOnIssue; split <;> rfl
@[simp] theorem State.clearOnIssue_pm (s : State) (o : Op) : (s.clearOnIssue o).pm = s.pm := by
  unfold State.clearOnIssue; split <;> rfl
@[simp] theorem State.clearOnIssue_sec (s : State) (o : Op) : (s.clearOnIssue o).sec = s.sec := by
  unfold State.clearOnIssue; split <;> rfl
@[simp] theorem State.clearOnIssue_evr (s : State) (o : Op) : (s.clearOnIssue o).evr = s.evr := by
  unfold State.clearOnIssue; split <;> rfl
@[simp] theorem State.clearOnIssue_free (s : State) (o : Op) : (s.clearOnIssue o).free = s.free := by
  unfold State.clearOnIssue; split <;> rfl
@[simp] theorem State.clearOnIssue_pending (s : State) (o : Op) : (s.clearOnIssue o).pending = s.pending := by
  unfold State.clearOnIssue; split <;> rfl

/-! ## `State.setOnDone` changes `flags` only -/

@[simp] theorem State.setOnDone_pins (s : State) (o : Op) : (s.setOnDone o).pins = s.pins := by
  unfold State.setOnDone; split <;> rfl
@[simp] theorem State.setOnDone_dev (s : State) (o : Op) : (s.setOnDone o).dev = s.dev := by
  unfold State.setOnDone; split <;> rfl
@[simp] theorem State.setOnDone_port (s : State) (o : Op) : (s.setOnDone o).port = s.port := by
  unfold State.setOnDone; split <;> rfl
@[simp] theorem State.setOnDone_mbx (s : State) (o : Op) : (s.setOnDone o).mbx = s.mbx := by
  unfold State.setOnDone; split <;> rfl
@[simp] theorem State.setOnDone_fw (s : State) (o : Op) : (s.setOnDone o).fw = s.fw := by
  unfold State.setOnDone; split <;> rfl
@[simp] theorem State.setOnDone_sched (s : State) (o : Op) : (s.setOnDone o).sched = s.sched := by
  unfold State.setOnDone; split <;> rfl
@[simp] theorem State.setOnDone_tu (s : State) (o : Op) : (s.setOnDone o).tu = s.tu := by
  unfold State.setOnDone; split <;> rfl
@[simp] theorem State.setOnDone_sm (s : State) (o : Op) : (s.setOnDone o).sm = s.sm := by
  unfold State.setOnDone; split <;> rfl
@[simp] theorem State.setOnDone_ife (s : State) (o : Op) : (s.setOnDone o).ife = s.ife := by
  unfold State.setOnDone; split <;> rfl
@[simp] theorem State.setOnDone_vis (s : State) (o : Op) : (s.setOnDone o).vis = s.vis := by
  unfold State.setOnDone; split <;> rfl
@[simp] theorem State.setOnDone_cores (s : State) (o : Op) : (s.setOnDone o).cores = s.cores := by
  unfold State.setOnDone; split <;> rfl
@[simp] theorem State.setOnDone_fld (s : State) (o : Op) : (s.setOnDone o).fld = s.fld := by
  unfold State.setOnDone; split <;> rfl
@[simp] theorem State.setOnDone_fus (s : State) (o : Op) : (s.setOnDone o).fus = s.fus := by
  unfold State.setOnDone; split <;> rfl
@[simp] theorem State.setOnDone_slv (s : State) (o : Op) : (s.setOnDone o).slv = s.slv := by
  unfold State.setOnDone; split <;> rfl
@[simp] theorem State.setOnDone_ps (s : State) (o : Op) : (s.setOnDone o).ps = s.ps := by
  unfold State.setOnDone; split <;> rfl
@[simp] theorem State.setOnDone_mem (s : State) (o : Op) : (s.setOnDone o).mem = s.mem := by
  unfold State.setOnDone; split <;> rfl
@[simp] theorem State.setOnDone_sram (s : State) (o : Op) : (s.setOnDone o).sram = s.sram := by
  unfold State.setOnDone; split <;> rfl
@[simp] theorem State.setOnDone_mt (s : State) (o : Op) : (s.setOnDone o).mt = s.mt := by
  unfold State.setOnDone; split <;> rfl
@[simp] theorem State.setOnDone_pm (s : State) (o : Op) : (s.setOnDone o).pm = s.pm := by
  unfold State.setOnDone; split <;> rfl
@[simp] theorem State.setOnDone_sec (s : State) (o : Op) : (s.setOnDone o).sec = s.sec := by
  unfold State.setOnDone; split <;> rfl
@[simp] theorem State.setOnDone_evr (s : State) (o : Op) : (s.setOnDone o).evr = s.evr := by
  unfold State.setOnDone; split <;> rfl
@[simp] theorem State.setOnDone_free (s : State) (o : Op) : (s.setOnDone o).free = s.free := by
  unfold State.setOnDone; split <;> rfl
@[simp] theorem State.setOnDone_pending (s : State) (o : Op) : (s.setOnDone o).pending = s.pending := by
  unfold State.setOnDone; split <;> rfl

/-! ## `State.voidOnSkip` changes `flags` only -/

@[simp] theorem State.voidOnSkip_pins (s : State) (o : Op) : (s.voidOnSkip o).pins = s.pins := by
  unfold State.voidOnSkip; (repeat' split) <;> rfl
@[simp] theorem State.voidOnSkip_dev (s : State) (o : Op) : (s.voidOnSkip o).dev = s.dev := by
  unfold State.voidOnSkip; (repeat' split) <;> rfl
@[simp] theorem State.voidOnSkip_port (s : State) (o : Op) : (s.voidOnSkip o).port = s.port := by
  unfold State.voidOnSkip; (repeat' split) <;> rfl
@[simp] theorem State.voidOnSkip_mbx (s : State) (o : Op) : (s.voidOnSkip o).mbx = s.mbx := by
  unfold State.voidOnSkip; (repeat' split) <;> rfl
@[simp] theorem State.voidOnSkip_fw (s : State) (o : Op) : (s.voidOnSkip o).fw = s.fw := by
  unfold State.voidOnSkip; (repeat' split) <;> rfl
@[simp] theorem State.voidOnSkip_sched (s : State) (o : Op) : (s.voidOnSkip o).sched = s.sched := by
  unfold State.voidOnSkip; (repeat' split) <;> rfl
@[simp] theorem State.voidOnSkip_tu (s : State) (o : Op) : (s.voidOnSkip o).tu = s.tu := by
  unfold State.voidOnSkip; (repeat' split) <;> rfl
@[simp] theorem State.voidOnSkip_sm (s : State) (o : Op) : (s.voidOnSkip o).sm = s.sm := by
  unfold State.voidOnSkip; (repeat' split) <;> rfl
@[simp] theorem State.voidOnSkip_ife (s : State) (o : Op) : (s.voidOnSkip o).ife = s.ife := by
  unfold State.voidOnSkip; (repeat' split) <;> rfl
@[simp] theorem State.voidOnSkip_vis (s : State) (o : Op) : (s.voidOnSkip o).vis = s.vis := by
  unfold State.voidOnSkip; (repeat' split) <;> rfl
@[simp] theorem State.voidOnSkip_cores (s : State) (o : Op) : (s.voidOnSkip o).cores = s.cores := by
  unfold State.voidOnSkip; (repeat' split) <;> rfl
@[simp] theorem State.voidOnSkip_fld (s : State) (o : Op) : (s.voidOnSkip o).fld = s.fld := by
  unfold State.voidOnSkip; (repeat' split) <;> rfl
@[simp] theorem State.voidOnSkip_fus (s : State) (o : Op) : (s.voidOnSkip o).fus = s.fus := by
  unfold State.voidOnSkip; (repeat' split) <;> rfl
@[simp] theorem State.voidOnSkip_slv (s : State) (o : Op) : (s.voidOnSkip o).slv = s.slv := by
  unfold State.voidOnSkip; (repeat' split) <;> rfl
@[simp] theorem State.voidOnSkip_ps (s : State) (o : Op) : (s.voidOnSkip o).ps = s.ps := by
  unfold State.voidOnSkip; (repeat' split) <;> rfl
@[simp] theorem State.voidOnSkip_mem (s : State) (o : Op) : (s.voidOnSkip o).mem = s.mem := by
  unfold State.voidOnSkip; (repeat' split) <;> rfl
@[simp] theorem State.voidOnSkip_sram (s : State) (o : Op) : (s.voidOnSkip o).sram = s.sram := by
  unfold State.voidOnSkip; (repeat' split) <;> rfl
@[simp] theorem State.voidOnSkip_mt (s : State) (o : Op) : (s.voidOnSkip o).mt = s.mt := by
  unfold State.voidOnSkip; (repeat' split) <;> rfl
@[simp] theorem State.voidOnSkip_pm (s : State) (o : Op) : (s.voidOnSkip o).pm = s.pm := by
  unfold State.voidOnSkip; (repeat' split) <;> rfl
@[simp] theorem State.voidOnSkip_sec (s : State) (o : Op) : (s.voidOnSkip o).sec = s.sec := by
  unfold State.voidOnSkip; (repeat' split) <;> rfl
@[simp] theorem State.voidOnSkip_evr (s : State) (o : Op) : (s.voidOnSkip o).evr = s.evr := by
  unfold State.voidOnSkip; (repeat' split) <;> rfl
@[simp] theorem State.voidOnSkip_free (s : State) (o : Op) : (s.voidOnSkip o).free = s.free := by
  unfold State.voidOnSkip; (repeat' split) <;> rfl
@[simp] theorem State.voidOnSkip_pending (s : State) (o : Op) : (s.voidOnSkip o).pending = s.pending := by
  unfold State.voidOnSkip; (repeat' split) <;> rfl

/-! ## `State.setPin` changes `pins` only -/

@[simp] theorem State.setPin_dev (s : State) (n : PinName) (v : Bool) : (s.setPin n v).dev = s.dev := by
  unfold State.setPin; split <;> rfl
@[simp] theorem State.setPin_port (s : State) (n : PinName) (v : Bool) : (s.setPin n v).port = s.port := by
  unfold State.setPin; split <;> rfl
@[simp] theorem State.setPin_mbx (s : State) (n : PinName) (v : Bool) : (s.setPin n v).mbx = s.mbx := by
  unfold State.setPin; split <;> rfl
@[simp] theorem State.setPin_fw (s : State) (n : PinName) (v : Bool) : (s.setPin n v).fw = s.fw := by
  unfold State.setPin; split <;> rfl
@[simp] theorem State.setPin_sched (s : State) (n : PinName) (v : Bool) : (s.setPin n v).sched = s.sched := by
  unfold State.setPin; split <;> rfl
@[simp] theorem State.setPin_flags (s : State) (n : PinName) (v : Bool) : (s.setPin n v).flags = s.flags := by
  unfold State.setPin; split <;> rfl
@[simp] theorem State.setPin_tu (s : State) (n : PinName) (v : Bool) : (s.setPin n v).tu = s.tu := by
  unfold State.setPin; split <;> rfl
@[simp] theorem State.setPin_sm (s : State) (n : PinName) (v : Bool) : (s.setPin n v).sm = s.sm := by
  unfold State.setPin; split <;> rfl
@[simp] theorem State.setPin_ife (s : State) (n : PinName) (v : Bool) : (s.setPin n v).ife = s.ife := by
  unfold State.setPin; split <;> rfl
@[simp] theorem State.setPin_vis (s : State) (n : PinName) (v : Bool) : (s.setPin n v).vis = s.vis := by
  unfold State.setPin; split <;> rfl
@[simp] theorem State.setPin_cores (s : State) (n : PinName) (v : Bool) : (s.setPin n v).cores = s.cores := by
  unfold State.setPin; split <;> rfl
@[simp] theorem State.setPin_fld (s : State) (n : PinName) (v : Bool) : (s.setPin n v).fld = s.fld := by
  unfold State.setPin; split <;> rfl
@[simp] theorem State.setPin_fus (s : State) (n : PinName) (v : Bool) : (s.setPin n v).fus = s.fus := by
  unfold State.setPin; split <;> rfl
@[simp] theorem State.setPin_slv (s : State) (n : PinName) (v : Bool) : (s.setPin n v).slv = s.slv := by
  unfold State.setPin; split <;> rfl
@[simp] theorem State.setPin_ps (s : State) (n : PinName) (v : Bool) : (s.setPin n v).ps = s.ps := by
  unfold State.setPin; split <;> rfl
@[simp] theorem State.setPin_mem (s : State) (n : PinName) (v : Bool) : (s.setPin n v).mem = s.mem := by
  unfold State.setPin; split <;> rfl
@[simp] theorem State.setPin_sram (s : State) (n : PinName) (v : Bool) : (s.setPin n v).sram = s.sram := by
  unfold State.setPin; split <;> rfl
@[simp] theorem State.setPin_mt (s : State) (n : PinName) (v : Bool) : (s.setPin n v).mt = s.mt := by
  unfold State.setPin; split <;> rfl
@[simp] theorem State.setPin_pm (s : State) (n : PinName) (v : Bool) : (s.setPin n v).pm = s.pm := by
  unfold State.setPin; split <;> rfl
@[simp] theorem State.setPin_sec (s : State) (n : PinName) (v : Bool) : (s.setPin n v).sec = s.sec := by
  unfold State.setPin; split <;> rfl
@[simp] theorem State.setPin_evr (s : State) (n : PinName) (v : Bool) : (s.setPin n v).evr = s.evr := by
  unfold State.setPin; split <;> rfl
@[simp] theorem State.setPin_free (s : State) (n : PinName) (v : Bool) : (s.setPin n v).free = s.free := by
  unfold State.setPin; split <;> rfl
@[simp] theorem State.setPin_pending (s : State) (n : PinName) (v : Bool) : (s.setPin n v).pending = s.pending := by
  unfold State.setPin; split <;> rfl

/-! ## `State.irqPin` changes `pins` only -/

@[simp] theorem State.irqPin_dev (s : State) : (s.irqPin).dev = s.dev := State.setPin_dev _ _ _
@[simp] theorem State.irqPin_port (s : State) : (s.irqPin).port = s.port := State.setPin_port _ _ _
@[simp] theorem State.irqPin_mbx (s : State) : (s.irqPin).mbx = s.mbx := State.setPin_mbx _ _ _
@[simp] theorem State.irqPin_fw (s : State) : (s.irqPin).fw = s.fw := State.setPin_fw _ _ _
@[simp] theorem State.irqPin_sched (s : State) : (s.irqPin).sched = s.sched := State.setPin_sched _ _ _
@[simp] theorem State.irqPin_flags (s : State) : (s.irqPin).flags = s.flags := State.setPin_flags _ _ _
@[simp] theorem State.irqPin_tu (s : State) : (s.irqPin).tu = s.tu := State.setPin_tu _ _ _
@[simp] theorem State.irqPin_sm (s : State) : (s.irqPin).sm = s.sm := State.setPin_sm _ _ _
@[simp] theorem State.irqPin_ife (s : State) : (s.irqPin).ife = s.ife := State.setPin_ife _ _ _
@[simp] theorem State.irqPin_vis (s : State) : (s.irqPin).vis = s.vis := State.setPin_vis _ _ _
@[simp] theorem State.irqPin_cores (s : State) : (s.irqPin).cores = s.cores := State.setPin_cores _ _ _
@[simp] theorem State.irqPin_fld (s : State) : (s.irqPin).fld = s.fld := State.setPin_fld _ _ _
@[simp] theorem State.irqPin_fus (s : State) : (s.irqPin).fus = s.fus := State.setPin_fus _ _ _
@[simp] theorem State.irqPin_slv (s : State) : (s.irqPin).slv = s.slv := State.setPin_slv _ _ _
@[simp] theorem State.irqPin_ps (s : State) : (s.irqPin).ps = s.ps := State.setPin_ps _ _ _
@[simp] theorem State.irqPin_mem (s : State) : (s.irqPin).mem = s.mem := State.setPin_mem _ _ _
@[simp] theorem State.irqPin_sram (s : State) : (s.irqPin).sram = s.sram := State.setPin_sram _ _ _
@[simp] theorem State.irqPin_mt (s : State) : (s.irqPin).mt = s.mt := State.setPin_mt _ _ _
@[simp] theorem State.irqPin_pm (s : State) : (s.irqPin).pm = s.pm := State.setPin_pm _ _ _
@[simp] theorem State.irqPin_sec (s : State) : (s.irqPin).sec = s.sec := State.setPin_sec _ _ _
@[simp] theorem State.irqPin_evr (s : State) : (s.irqPin).evr = s.evr := State.setPin_evr _ _ _
@[simp] theorem State.irqPin_free (s : State) : (s.irqPin).free = s.free := State.setPin_free _ _ _
@[simp] theorem State.irqPin_pending (s : State) : (s.irqPin).pending = s.pending := State.setPin_pending _ _ _

/-! ## `State.raiseIrq` changes `pins`, `port` only -/

@[simp] theorem State.raiseIrq_dev (s : State) (b : Word) : (s.raiseIrq b).dev = s.dev := State.irqPin_dev _
@[simp] theorem State.raiseIrq_mbx (s : State) (b : Word) : (s.raiseIrq b).mbx = s.mbx := State.irqPin_mbx _
@[simp] theorem State.raiseIrq_fw (s : State) (b : Word) : (s.raiseIrq b).fw = s.fw := State.irqPin_fw _
@[simp] theorem State.raiseIrq_sched (s : State) (b : Word) : (s.raiseIrq b).sched = s.sched := State.irqPin_sched _
@[simp] theorem State.raiseIrq_flags (s : State) (b : Word) : (s.raiseIrq b).flags = s.flags := State.irqPin_flags _
@[simp] theorem State.raiseIrq_tu (s : State) (b : Word) : (s.raiseIrq b).tu = s.tu := State.irqPin_tu _
@[simp] theorem State.raiseIrq_sm (s : State) (b : Word) : (s.raiseIrq b).sm = s.sm := State.irqPin_sm _
@[simp] theorem State.raiseIrq_ife (s : State) (b : Word) : (s.raiseIrq b).ife = s.ife := State.irqPin_ife _
@[simp] theorem State.raiseIrq_vis (s : State) (b : Word) : (s.raiseIrq b).vis = s.vis := State.irqPin_vis _
@[simp] theorem State.raiseIrq_cores (s : State) (b : Word) : (s.raiseIrq b).cores = s.cores := State.irqPin_cores _
@[simp] theorem State.raiseIrq_fld (s : State) (b : Word) : (s.raiseIrq b).fld = s.fld := State.irqPin_fld _
@[simp] theorem State.raiseIrq_fus (s : State) (b : Word) : (s.raiseIrq b).fus = s.fus := State.irqPin_fus _
@[simp] theorem State.raiseIrq_slv (s : State) (b : Word) : (s.raiseIrq b).slv = s.slv := State.irqPin_slv _
@[simp] theorem State.raiseIrq_ps (s : State) (b : Word) : (s.raiseIrq b).ps = s.ps := State.irqPin_ps _
@[simp] theorem State.raiseIrq_mem (s : State) (b : Word) : (s.raiseIrq b).mem = s.mem := State.irqPin_mem _
@[simp] theorem State.raiseIrq_sram (s : State) (b : Word) : (s.raiseIrq b).sram = s.sram := State.irqPin_sram _
@[simp] theorem State.raiseIrq_mt (s : State) (b : Word) : (s.raiseIrq b).mt = s.mt := State.irqPin_mt _
@[simp] theorem State.raiseIrq_pm (s : State) (b : Word) : (s.raiseIrq b).pm = s.pm := State.irqPin_pm _
@[simp] theorem State.raiseIrq_sec (s : State) (b : Word) : (s.raiseIrq b).sec = s.sec := State.irqPin_sec _
@[simp] theorem State.raiseIrq_evr (s : State) (b : Word) : (s.raiseIrq b).evr = s.evr := State.irqPin_evr _
@[simp] theorem State.raiseIrq_free (s : State) (b : Word) : (s.raiseIrq b).free = s.free := State.irqPin_free _
@[simp] theorem State.raiseIrq_pending (s : State) (b : Word) : (s.raiseIrq b).pending = s.pending := State.irqPin_pending _

/-! ## `State.event` changes `evr` only -/

@[simp] theorem State.event_pins (s : State) (a c x y z : Nat) : (s.event a c x y z).pins = s.pins := by
  unfold State.event; (repeat' split) <;> rfl
@[simp] theorem State.event_dev (s : State) (a c x y z : Nat) : (s.event a c x y z).dev = s.dev := by
  unfold State.event; (repeat' split) <;> rfl
@[simp] theorem State.event_port (s : State) (a c x y z : Nat) : (s.event a c x y z).port = s.port := by
  unfold State.event; (repeat' split) <;> rfl
@[simp] theorem State.event_mbx (s : State) (a c x y z : Nat) : (s.event a c x y z).mbx = s.mbx := by
  unfold State.event; (repeat' split) <;> rfl
@[simp] theorem State.event_fw (s : State) (a c x y z : Nat) : (s.event a c x y z).fw = s.fw := by
  unfold State.event; (repeat' split) <;> rfl
@[simp] theorem State.event_sched (s : State) (a c x y z : Nat) : (s.event a c x y z).sched = s.sched := by
  unfold State.event; (repeat' split) <;> rfl
@[simp] theorem State.event_flags (s : State) (a c x y z : Nat) : (s.event a c x y z).flags = s.flags := by
  unfold State.event; (repeat' split) <;> rfl
@[simp] theorem State.event_tu (s : State) (a c x y z : Nat) : (s.event a c x y z).tu = s.tu := by
  unfold State.event; (repeat' split) <;> rfl
@[simp] theorem State.event_sm (s : State) (a c x y z : Nat) : (s.event a c x y z).sm = s.sm := by
  unfold State.event; (repeat' split) <;> rfl
@[simp] theorem State.event_ife (s : State) (a c x y z : Nat) : (s.event a c x y z).ife = s.ife := by
  unfold State.event; (repeat' split) <;> rfl
@[simp] theorem State.event_vis (s : State) (a c x y z : Nat) : (s.event a c x y z).vis = s.vis := by
  unfold State.event; (repeat' split) <;> rfl
@[simp] theorem State.event_cores (s : State) (a c x y z : Nat) : (s.event a c x y z).cores = s.cores := by
  unfold State.event; (repeat' split) <;> rfl
@[simp] theorem State.event_fld (s : State) (a c x y z : Nat) : (s.event a c x y z).fld = s.fld := by
  unfold State.event; (repeat' split) <;> rfl
@[simp] theorem State.event_fus (s : State) (a c x y z : Nat) : (s.event a c x y z).fus = s.fus := by
  unfold State.event; (repeat' split) <;> rfl
@[simp] theorem State.event_slv (s : State) (a c x y z : Nat) : (s.event a c x y z).slv = s.slv := by
  unfold State.event; (repeat' split) <;> rfl
@[simp] theorem State.event_ps (s : State) (a c x y z : Nat) : (s.event a c x y z).ps = s.ps := by
  unfold State.event; (repeat' split) <;> rfl
@[simp] theorem State.event_mem (s : State) (a c x y z : Nat) : (s.event a c x y z).mem = s.mem := by
  unfold State.event; (repeat' split) <;> rfl
@[simp] theorem State.event_sram (s : State) (a c x y z : Nat) : (s.event a c x y z).sram = s.sram := by
  unfold State.event; (repeat' split) <;> rfl
@[simp] theorem State.event_mt (s : State) (a c x y z : Nat) : (s.event a c x y z).mt = s.mt := by
  unfold State.event; (repeat' split) <;> rfl
@[simp] theorem State.event_pm (s : State) (a c x y z : Nat) : (s.event a c x y z).pm = s.pm := by
  unfold State.event; (repeat' split) <;> rfl
@[simp] theorem State.event_sec (s : State) (a c x y z : Nat) : (s.event a c x y z).sec = s.sec := by
  unfold State.event; (repeat' split) <;> rfl
@[simp] theorem State.event_free (s : State) (a c x y z : Nat) : (s.event a c x y z).free = s.free := by
  unfold State.event; (repeat' split) <;> rfl
@[simp] theorem State.event_pending (s : State) (a c x y z : Nat) : (s.event a c x y z).pending = s.pending := by
  unfold State.event; (repeat' split) <;> rfl

/-! ## `State.startOp` changes `sched` only -/

@[simp] theorem State.startOp_pins (s : State) (t : Target) (n : NextOp) (u : OpUnit) (c : Nat) (w : List MemWrite) : (s.startOp t n u c w).pins = s.pins := rfl
@[simp] theorem State.startOp_dev (s : State) (t : Target) (n : NextOp) (u : OpUnit) (c : Nat) (w : List MemWrite) : (s.startOp t n u c w).dev = s.dev := rfl
@[simp] theorem State.startOp_port (s : State) (t : Target) (n : NextOp) (u : OpUnit) (c : Nat) (w : List MemWrite) : (s.startOp t n u c w).port = s.port := rfl
@[simp] theorem State.startOp_mbx (s : State) (t : Target) (n : NextOp) (u : OpUnit) (c : Nat) (w : List MemWrite) : (s.startOp t n u c w).mbx = s.mbx := rfl
@[simp] theorem State.startOp_fw (s : State) (t : Target) (n : NextOp) (u : OpUnit) (c : Nat) (w : List MemWrite) : (s.startOp t n u c w).fw = s.fw := rfl
@[simp] theorem State.startOp_flags (s : State) (t : Target) (n : NextOp) (u : OpUnit) (c : Nat) (w : List MemWrite) : (s.startOp t n u c w).flags = s.flags := rfl
@[simp] theorem State.startOp_tu (s : State) (t : Target) (n : NextOp) (u : OpUnit) (c : Nat) (w : List MemWrite) : (s.startOp t n u c w).tu = s.tu := rfl
@[simp] theorem State.startOp_sm (s : State) (t : Target) (n : NextOp) (u : OpUnit) (c : Nat) (w : List MemWrite) : (s.startOp t n u c w).sm = s.sm := rfl
@[simp] theorem State.startOp_ife (s : State) (t : Target) (n : NextOp) (u : OpUnit) (c : Nat) (w : List MemWrite) : (s.startOp t n u c w).ife = s.ife := rfl
@[simp] theorem State.startOp_vis (s : State) (t : Target) (n : NextOp) (u : OpUnit) (c : Nat) (w : List MemWrite) : (s.startOp t n u c w).vis = s.vis := rfl
@[simp] theorem State.startOp_cores (s : State) (t : Target) (n : NextOp) (u : OpUnit) (c : Nat) (w : List MemWrite) : (s.startOp t n u c w).cores = s.cores := rfl
@[simp] theorem State.startOp_fld (s : State) (t : Target) (n : NextOp) (u : OpUnit) (c : Nat) (w : List MemWrite) : (s.startOp t n u c w).fld = s.fld := rfl
@[simp] theorem State.startOp_fus (s : State) (t : Target) (n : NextOp) (u : OpUnit) (c : Nat) (w : List MemWrite) : (s.startOp t n u c w).fus = s.fus := rfl
@[simp] theorem State.startOp_slv (s : State) (t : Target) (n : NextOp) (u : OpUnit) (c : Nat) (w : List MemWrite) : (s.startOp t n u c w).slv = s.slv := rfl
@[simp] theorem State.startOp_ps (s : State) (t : Target) (n : NextOp) (u : OpUnit) (c : Nat) (w : List MemWrite) : (s.startOp t n u c w).ps = s.ps := rfl
@[simp] theorem State.startOp_mem (s : State) (t : Target) (n : NextOp) (u : OpUnit) (c : Nat) (w : List MemWrite) : (s.startOp t n u c w).mem = s.mem := rfl
@[simp] theorem State.startOp_sram (s : State) (t : Target) (n : NextOp) (u : OpUnit) (c : Nat) (w : List MemWrite) : (s.startOp t n u c w).sram = s.sram := rfl
@[simp] theorem State.startOp_mt (s : State) (t : Target) (n : NextOp) (u : OpUnit) (c : Nat) (w : List MemWrite) : (s.startOp t n u c w).mt = s.mt := rfl
@[simp] theorem State.startOp_pm (s : State) (t : Target) (n : NextOp) (u : OpUnit) (c : Nat) (w : List MemWrite) : (s.startOp t n u c w).pm = s.pm := rfl
@[simp] theorem State.startOp_sec (s : State) (t : Target) (n : NextOp) (u : OpUnit) (c : Nat) (w : List MemWrite) : (s.startOp t n u c w).sec = s.sec := rfl
@[simp] theorem State.startOp_evr (s : State) (t : Target) (n : NextOp) (u : OpUnit) (c : Nat) (w : List MemWrite) : (s.startOp t n u c w).evr = s.evr := rfl
@[simp] theorem State.startOp_free (s : State) (t : Target) (n : NextOp) (u : OpUnit) (c : Nat) (w : List MemWrite) : (s.startOp t n u c w).free = s.free := rfl
@[simp] theorem State.startOp_pending (s : State) (t : Target) (n : NextOp) (u : OpUnit) (c : Nat) (w : List MemWrite) : (s.startOp t n u c w).pending = s.pending := rfl

/-! ## `State.writeMem` changes `mem` only -/

@[simp] theorem State.writeMem_pins (s : State) (a : Nat) (bs : List Byte) : (s.writeMem a bs).pins = s.pins := by
  unfold State.writeMem; split <;> rfl
@[simp] theorem State.writeMem_dev (s : State) (a : Nat) (bs : List Byte) : (s.writeMem a bs).dev = s.dev := by
  unfold State.writeMem; split <;> rfl
@[simp] theorem State.writeMem_port (s : State) (a : Nat) (bs : List Byte) : (s.writeMem a bs).port = s.port := by
  unfold State.writeMem; split <;> rfl
@[simp] theorem State.writeMem_mbx (s : State) (a : Nat) (bs : List Byte) : (s.writeMem a bs).mbx = s.mbx := by
  unfold State.writeMem; split <;> rfl
@[simp] theorem State.writeMem_fw (s : State) (a : Nat) (bs : List Byte) : (s.writeMem a bs).fw = s.fw := by
  unfold State.writeMem; split <;> rfl
@[simp] theorem State.writeMem_sched (s : State) (a : Nat) (bs : List Byte) : (s.writeMem a bs).sched = s.sched := by
  unfold State.writeMem; split <;> rfl
@[simp] theorem State.writeMem_flags (s : State) (a : Nat) (bs : List Byte) : (s.writeMem a bs).flags = s.flags := by
  unfold State.writeMem; split <;> rfl
@[simp] theorem State.writeMem_tu (s : State) (a : Nat) (bs : List Byte) : (s.writeMem a bs).tu = s.tu := by
  unfold State.writeMem; split <;> rfl
@[simp] theorem State.writeMem_sm (s : State) (a : Nat) (bs : List Byte) : (s.writeMem a bs).sm = s.sm := by
  unfold State.writeMem; split <;> rfl
@[simp] theorem State.writeMem_ife (s : State) (a : Nat) (bs : List Byte) : (s.writeMem a bs).ife = s.ife := by
  unfold State.writeMem; split <;> rfl
@[simp] theorem State.writeMem_vis (s : State) (a : Nat) (bs : List Byte) : (s.writeMem a bs).vis = s.vis := by
  unfold State.writeMem; split <;> rfl
@[simp] theorem State.writeMem_cores (s : State) (a : Nat) (bs : List Byte) : (s.writeMem a bs).cores = s.cores := by
  unfold State.writeMem; split <;> rfl
@[simp] theorem State.writeMem_fld (s : State) (a : Nat) (bs : List Byte) : (s.writeMem a bs).fld = s.fld := by
  unfold State.writeMem; split <;> rfl
@[simp] theorem State.writeMem_fus (s : State) (a : Nat) (bs : List Byte) : (s.writeMem a bs).fus = s.fus := by
  unfold State.writeMem; split <;> rfl
@[simp] theorem State.writeMem_slv (s : State) (a : Nat) (bs : List Byte) : (s.writeMem a bs).slv = s.slv := by
  unfold State.writeMem; split <;> rfl
@[simp] theorem State.writeMem_ps (s : State) (a : Nat) (bs : List Byte) : (s.writeMem a bs).ps = s.ps := by
  unfold State.writeMem; split <;> rfl
@[simp] theorem State.writeMem_sram (s : State) (a : Nat) (bs : List Byte) : (s.writeMem a bs).sram = s.sram := by
  unfold State.writeMem; split <;> rfl
@[simp] theorem State.writeMem_mt (s : State) (a : Nat) (bs : List Byte) : (s.writeMem a bs).mt = s.mt := by
  unfold State.writeMem; split <;> rfl
@[simp] theorem State.writeMem_pm (s : State) (a : Nat) (bs : List Byte) : (s.writeMem a bs).pm = s.pm := by
  unfold State.writeMem; split <;> rfl
@[simp] theorem State.writeMem_sec (s : State) (a : Nat) (bs : List Byte) : (s.writeMem a bs).sec = s.sec := by
  unfold State.writeMem; split <;> rfl
@[simp] theorem State.writeMem_evr (s : State) (a : Nat) (bs : List Byte) : (s.writeMem a bs).evr = s.evr := by
  unfold State.writeMem; split <;> rfl
@[simp] theorem State.writeMem_free (s : State) (a : Nat) (bs : List Byte) : (s.writeMem a bs).free = s.free := by
  unfold State.writeMem; split <;> rfl
@[simp] theorem State.writeMem_pending (s : State) (a : Nat) (bs : List Byte) : (s.writeMem a bs).pending = s.pending := by
  unfold State.writeMem; split <;> rfl

/-! ## `State.writePool` changes `mem` only -/

@[simp] theorem State.writePool_pins (s : State) (a : Nat) (bs : List Byte) : (s.writePool a bs).pins = s.pins :=
  State.writeMem_pins _ _ _
@[simp] theorem State.writePool_dev (s : State) (a : Nat) (bs : List Byte) : (s.writePool a bs).dev = s.dev :=
  State.writeMem_dev _ _ _
@[simp] theorem State.writePool_port (s : State) (a : Nat) (bs : List Byte) : (s.writePool a bs).port = s.port :=
  State.writeMem_port _ _ _
@[simp] theorem State.writePool_mbx (s : State) (a : Nat) (bs : List Byte) : (s.writePool a bs).mbx = s.mbx :=
  State.writeMem_mbx _ _ _
@[simp] theorem State.writePool_fw (s : State) (a : Nat) (bs : List Byte) : (s.writePool a bs).fw = s.fw :=
  State.writeMem_fw _ _ _
@[simp] theorem State.writePool_sched (s : State) (a : Nat) (bs : List Byte) : (s.writePool a bs).sched = s.sched :=
  State.writeMem_sched _ _ _
@[simp] theorem State.writePool_flags (s : State) (a : Nat) (bs : List Byte) : (s.writePool a bs).flags = s.flags :=
  State.writeMem_flags _ _ _
@[simp] theorem State.writePool_tu (s : State) (a : Nat) (bs : List Byte) : (s.writePool a bs).tu = s.tu :=
  State.writeMem_tu _ _ _
@[simp] theorem State.writePool_sm (s : State) (a : Nat) (bs : List Byte) : (s.writePool a bs).sm = s.sm :=
  State.writeMem_sm _ _ _
@[simp] theorem State.writePool_ife (s : State) (a : Nat) (bs : List Byte) : (s.writePool a bs).ife = s.ife :=
  State.writeMem_ife _ _ _
@[simp] theorem State.writePool_vis (s : State) (a : Nat) (bs : List Byte) : (s.writePool a bs).vis = s.vis :=
  State.writeMem_vis _ _ _
@[simp] theorem State.writePool_cores (s : State) (a : Nat) (bs : List Byte) : (s.writePool a bs).cores = s.cores :=
  State.writeMem_cores _ _ _
@[simp] theorem State.writePool_fld (s : State) (a : Nat) (bs : List Byte) : (s.writePool a bs).fld = s.fld :=
  State.writeMem_fld _ _ _
@[simp] theorem State.writePool_fus (s : State) (a : Nat) (bs : List Byte) : (s.writePool a bs).fus = s.fus :=
  State.writeMem_fus _ _ _
@[simp] theorem State.writePool_slv (s : State) (a : Nat) (bs : List Byte) : (s.writePool a bs).slv = s.slv :=
  State.writeMem_slv _ _ _
@[simp] theorem State.writePool_ps (s : State) (a : Nat) (bs : List Byte) : (s.writePool a bs).ps = s.ps :=
  State.writeMem_ps _ _ _
@[simp] theorem State.writePool_sram (s : State) (a : Nat) (bs : List Byte) : (s.writePool a bs).sram = s.sram :=
  State.writeMem_sram _ _ _
@[simp] theorem State.writePool_mt (s : State) (a : Nat) (bs : List Byte) : (s.writePool a bs).mt = s.mt :=
  State.writeMem_mt _ _ _
@[simp] theorem State.writePool_pm (s : State) (a : Nat) (bs : List Byte) : (s.writePool a bs).pm = s.pm :=
  State.writeMem_pm _ _ _
@[simp] theorem State.writePool_sec (s : State) (a : Nat) (bs : List Byte) : (s.writePool a bs).sec = s.sec :=
  State.writeMem_sec _ _ _
@[simp] theorem State.writePool_evr (s : State) (a : Nat) (bs : List Byte) : (s.writePool a bs).evr = s.evr :=
  State.writeMem_evr _ _ _
@[simp] theorem State.writePool_free (s : State) (a : Nat) (bs : List Byte) : (s.writePool a bs).free = s.free :=
  State.writeMem_free _ _ _
@[simp] theorem State.writePool_pending (s : State) (a : Nat) (bs : List Byte) : (s.writePool a bs).pending = s.pending :=
  State.writeMem_pending _ _ _

/-! ## `State.postCompletion` changes `mbx`, `pins`, `port` only -/

@[simp] theorem State.postCompletion_dev (s : State) (i : Fin 8) (c : Completion) : (s.postCompletion i c).dev = s.dev := by
  unfold State.postCompletion; dsimp only
  split
  · rfl
  · split
    · rw [State.raiseIrq_dev]; rfl
    · rfl
@[simp] theorem State.postCompletion_fw (s : State) (i : Fin 8) (c : Completion) : (s.postCompletion i c).fw = s.fw := by
  unfold State.postCompletion; dsimp only
  split
  · rfl
  · split
    · rw [State.raiseIrq_fw]; rfl
    · rfl
@[simp] theorem State.postCompletion_sched (s : State) (i : Fin 8) (c : Completion) : (s.postCompletion i c).sched = s.sched := by
  unfold State.postCompletion; dsimp only
  split
  · rfl
  · split
    · rw [State.raiseIrq_sched]; rfl
    · rfl
@[simp] theorem State.postCompletion_flags (s : State) (i : Fin 8) (c : Completion) : (s.postCompletion i c).flags = s.flags := by
  unfold State.postCompletion; dsimp only
  split
  · rfl
  · split
    · rw [State.raiseIrq_flags]; rfl
    · rfl
@[simp] theorem State.postCompletion_tu (s : State) (i : Fin 8) (c : Completion) : (s.postCompletion i c).tu = s.tu := by
  unfold State.postCompletion; dsimp only
  split
  · rfl
  · split
    · rw [State.raiseIrq_tu]; rfl
    · rfl
@[simp] theorem State.postCompletion_sm (s : State) (i : Fin 8) (c : Completion) : (s.postCompletion i c).sm = s.sm := by
  unfold State.postCompletion; dsimp only
  split
  · rfl
  · split
    · rw [State.raiseIrq_sm]; rfl
    · rfl
@[simp] theorem State.postCompletion_ife (s : State) (i : Fin 8) (c : Completion) : (s.postCompletion i c).ife = s.ife := by
  unfold State.postCompletion; dsimp only
  split
  · rfl
  · split
    · rw [State.raiseIrq_ife]; rfl
    · rfl
@[simp] theorem State.postCompletion_vis (s : State) (i : Fin 8) (c : Completion) : (s.postCompletion i c).vis = s.vis := by
  unfold State.postCompletion; dsimp only
  split
  · rfl
  · split
    · rw [State.raiseIrq_vis]; rfl
    · rfl
@[simp] theorem State.postCompletion_cores (s : State) (i : Fin 8) (c : Completion) : (s.postCompletion i c).cores = s.cores := by
  unfold State.postCompletion; dsimp only
  split
  · rfl
  · split
    · rw [State.raiseIrq_cores]; rfl
    · rfl
@[simp] theorem State.postCompletion_fld (s : State) (i : Fin 8) (c : Completion) : (s.postCompletion i c).fld = s.fld := by
  unfold State.postCompletion; dsimp only
  split
  · rfl
  · split
    · rw [State.raiseIrq_fld]; rfl
    · rfl
@[simp] theorem State.postCompletion_fus (s : State) (i : Fin 8) (c : Completion) : (s.postCompletion i c).fus = s.fus := by
  unfold State.postCompletion; dsimp only
  split
  · rfl
  · split
    · rw [State.raiseIrq_fus]; rfl
    · rfl
@[simp] theorem State.postCompletion_slv (s : State) (i : Fin 8) (c : Completion) : (s.postCompletion i c).slv = s.slv := by
  unfold State.postCompletion; dsimp only
  split
  · rfl
  · split
    · rw [State.raiseIrq_slv]; rfl
    · rfl
@[simp] theorem State.postCompletion_ps (s : State) (i : Fin 8) (c : Completion) : (s.postCompletion i c).ps = s.ps := by
  unfold State.postCompletion; dsimp only
  split
  · rfl
  · split
    · rw [State.raiseIrq_ps]; rfl
    · rfl
@[simp] theorem State.postCompletion_mem (s : State) (i : Fin 8) (c : Completion) : (s.postCompletion i c).mem = s.mem := by
  unfold State.postCompletion; dsimp only
  split
  · rfl
  · split
    · rw [State.raiseIrq_mem]; rfl
    · rfl
@[simp] theorem State.postCompletion_sram (s : State) (i : Fin 8) (c : Completion) : (s.postCompletion i c).sram = s.sram := by
  unfold State.postCompletion; dsimp only
  split
  · rfl
  · split
    · rw [State.raiseIrq_sram]; rfl
    · rfl
@[simp] theorem State.postCompletion_mt (s : State) (i : Fin 8) (c : Completion) : (s.postCompletion i c).mt = s.mt := by
  unfold State.postCompletion; dsimp only
  split
  · rfl
  · split
    · rw [State.raiseIrq_mt]; rfl
    · rfl
@[simp] theorem State.postCompletion_pm (s : State) (i : Fin 8) (c : Completion) : (s.postCompletion i c).pm = s.pm := by
  unfold State.postCompletion; dsimp only
  split
  · rfl
  · split
    · rw [State.raiseIrq_pm]; rfl
    · rfl
@[simp] theorem State.postCompletion_sec (s : State) (i : Fin 8) (c : Completion) : (s.postCompletion i c).sec = s.sec := by
  unfold State.postCompletion; dsimp only
  split
  · rfl
  · split
    · rw [State.raiseIrq_sec]; rfl
    · rfl
@[simp] theorem State.postCompletion_evr (s : State) (i : Fin 8) (c : Completion) : (s.postCompletion i c).evr = s.evr := by
  unfold State.postCompletion; dsimp only
  split
  · rfl
  · split
    · rw [State.raiseIrq_evr]; rfl
    · rfl
@[simp] theorem State.postCompletion_free (s : State) (i : Fin 8) (c : Completion) : (s.postCompletion i c).free = s.free := by
  unfold State.postCompletion; dsimp only
  split
  · rfl
  · split
    · rw [State.raiseIrq_free]; rfl
    · rfl
@[simp] theorem State.postCompletion_pending (s : State) (i : Fin 8) (c : Completion) : (s.postCompletion i c).pending = s.pending := by
  unfold State.postCompletion; dsimp only
  split
  · rfl
  · split
    · rw [State.raiseIrq_pending]; rfl
    · rfl

/-! ## `State.complete` changes `mbx`, `pins`, `port` only -/

@[simp] theorem State.complete_dev (s : State) (i : Fin 8) (tag op : Half) (st a b c d dt : Nat) : (s.complete i tag op st a b c d dt).dev = s.dev :=
  State.postCompletion_dev _ _ _
@[simp] theorem State.complete_fw (s : State) (i : Fin 8) (tag op : Half) (st a b c d dt : Nat) : (s.complete i tag op st a b c d dt).fw = s.fw :=
  State.postCompletion_fw _ _ _
@[simp] theorem State.complete_sched (s : State) (i : Fin 8) (tag op : Half) (st a b c d dt : Nat) : (s.complete i tag op st a b c d dt).sched = s.sched :=
  State.postCompletion_sched _ _ _
@[simp] theorem State.complete_flags (s : State) (i : Fin 8) (tag op : Half) (st a b c d dt : Nat) : (s.complete i tag op st a b c d dt).flags = s.flags :=
  State.postCompletion_flags _ _ _
@[simp] theorem State.complete_tu (s : State) (i : Fin 8) (tag op : Half) (st a b c d dt : Nat) : (s.complete i tag op st a b c d dt).tu = s.tu :=
  State.postCompletion_tu _ _ _
@[simp] theorem State.complete_sm (s : State) (i : Fin 8) (tag op : Half) (st a b c d dt : Nat) : (s.complete i tag op st a b c d dt).sm = s.sm :=
  State.postCompletion_sm _ _ _
@[simp] theorem State.complete_ife (s : State) (i : Fin 8) (tag op : Half) (st a b c d dt : Nat) : (s.complete i tag op st a b c d dt).ife = s.ife :=
  State.postCompletion_ife _ _ _
@[simp] theorem State.complete_vis (s : State) (i : Fin 8) (tag op : Half) (st a b c d dt : Nat) : (s.complete i tag op st a b c d dt).vis = s.vis :=
  State.postCompletion_vis _ _ _
@[simp] theorem State.complete_cores (s : State) (i : Fin 8) (tag op : Half) (st a b c d dt : Nat) : (s.complete i tag op st a b c d dt).cores = s.cores :=
  State.postCompletion_cores _ _ _
@[simp] theorem State.complete_fld (s : State) (i : Fin 8) (tag op : Half) (st a b c d dt : Nat) : (s.complete i tag op st a b c d dt).fld = s.fld :=
  State.postCompletion_fld _ _ _
@[simp] theorem State.complete_fus (s : State) (i : Fin 8) (tag op : Half) (st a b c d dt : Nat) : (s.complete i tag op st a b c d dt).fus = s.fus :=
  State.postCompletion_fus _ _ _
@[simp] theorem State.complete_slv (s : State) (i : Fin 8) (tag op : Half) (st a b c d dt : Nat) : (s.complete i tag op st a b c d dt).slv = s.slv :=
  State.postCompletion_slv _ _ _
@[simp] theorem State.complete_ps (s : State) (i : Fin 8) (tag op : Half) (st a b c d dt : Nat) : (s.complete i tag op st a b c d dt).ps = s.ps :=
  State.postCompletion_ps _ _ _
@[simp] theorem State.complete_mem (s : State) (i : Fin 8) (tag op : Half) (st a b c d dt : Nat) : (s.complete i tag op st a b c d dt).mem = s.mem :=
  State.postCompletion_mem _ _ _
@[simp] theorem State.complete_sram (s : State) (i : Fin 8) (tag op : Half) (st a b c d dt : Nat) : (s.complete i tag op st a b c d dt).sram = s.sram :=
  State.postCompletion_sram _ _ _
@[simp] theorem State.complete_mt (s : State) (i : Fin 8) (tag op : Half) (st a b c d dt : Nat) : (s.complete i tag op st a b c d dt).mt = s.mt :=
  State.postCompletion_mt _ _ _
@[simp] theorem State.complete_pm (s : State) (i : Fin 8) (tag op : Half) (st a b c d dt : Nat) : (s.complete i tag op st a b c d dt).pm = s.pm :=
  State.postCompletion_pm _ _ _
@[simp] theorem State.complete_sec (s : State) (i : Fin 8) (tag op : Half) (st a b c d dt : Nat) : (s.complete i tag op st a b c d dt).sec = s.sec :=
  State.postCompletion_sec _ _ _
@[simp] theorem State.complete_evr (s : State) (i : Fin 8) (tag op : Half) (st a b c d dt : Nat) : (s.complete i tag op st a b c d dt).evr = s.evr :=
  State.postCompletion_evr _ _ _
@[simp] theorem State.complete_free (s : State) (i : Fin 8) (tag op : Half) (st a b c d dt : Nat) : (s.complete i tag op st a b c d dt).free = s.free :=
  State.postCompletion_free _ _ _
@[simp] theorem State.complete_pending (s : State) (i : Fin 8) (tag op : Half) (st a b c d dt : Nat) : (s.complete i tag op st a b c d dt).pending = s.pending :=
  State.postCompletion_pending _ _ _

/-! ## `State.completeJob` changes `mbx`, `pins`, `port`, `fw` only -/

@[simp] theorem State.completeJob_dev (s : State) (j : Job) (st a b c d dt : Nat) : (s.completeJob j st a b c d dt).dev = s.dev :=
  State.complete_dev _ _ _ _ _ _ _ _ _ _
@[simp] theorem State.completeJob_sched (s : State) (j : Job) (st a b c d dt : Nat) : (s.completeJob j st a b c d dt).sched = s.sched :=
  State.complete_sched _ _ _ _ _ _ _ _ _ _
@[simp] theorem State.completeJob_flags (s : State) (j : Job) (st a b c d dt : Nat) : (s.completeJob j st a b c d dt).flags = s.flags :=
  State.complete_flags _ _ _ _ _ _ _ _ _ _
@[simp] theorem State.completeJob_tu (s : State) (j : Job) (st a b c d dt : Nat) : (s.completeJob j st a b c d dt).tu = s.tu :=
  State.complete_tu _ _ _ _ _ _ _ _ _ _
@[simp] theorem State.completeJob_sm (s : State) (j : Job) (st a b c d dt : Nat) : (s.completeJob j st a b c d dt).sm = s.sm :=
  State.complete_sm _ _ _ _ _ _ _ _ _ _
@[simp] theorem State.completeJob_ife (s : State) (j : Job) (st a b c d dt : Nat) : (s.completeJob j st a b c d dt).ife = s.ife :=
  State.complete_ife _ _ _ _ _ _ _ _ _ _
@[simp] theorem State.completeJob_vis (s : State) (j : Job) (st a b c d dt : Nat) : (s.completeJob j st a b c d dt).vis = s.vis :=
  State.complete_vis _ _ _ _ _ _ _ _ _ _
@[simp] theorem State.completeJob_cores (s : State) (j : Job) (st a b c d dt : Nat) : (s.completeJob j st a b c d dt).cores = s.cores :=
  State.complete_cores _ _ _ _ _ _ _ _ _ _
@[simp] theorem State.completeJob_fld (s : State) (j : Job) (st a b c d dt : Nat) : (s.completeJob j st a b c d dt).fld = s.fld :=
  State.complete_fld _ _ _ _ _ _ _ _ _ _
@[simp] theorem State.completeJob_fus (s : State) (j : Job) (st a b c d dt : Nat) : (s.completeJob j st a b c d dt).fus = s.fus :=
  State.complete_fus _ _ _ _ _ _ _ _ _ _
@[simp] theorem State.completeJob_slv (s : State) (j : Job) (st a b c d dt : Nat) : (s.completeJob j st a b c d dt).slv = s.slv :=
  State.complete_slv _ _ _ _ _ _ _ _ _ _
@[simp] theorem State.completeJob_ps (s : State) (j : Job) (st a b c d dt : Nat) : (s.completeJob j st a b c d dt).ps = s.ps :=
  State.complete_ps _ _ _ _ _ _ _ _ _ _
@[simp] theorem State.completeJob_mem (s : State) (j : Job) (st a b c d dt : Nat) : (s.completeJob j st a b c d dt).mem = s.mem :=
  State.complete_mem _ _ _ _ _ _ _ _ _ _
@[simp] theorem State.completeJob_sram (s : State) (j : Job) (st a b c d dt : Nat) : (s.completeJob j st a b c d dt).sram = s.sram :=
  State.complete_sram _ _ _ _ _ _ _ _ _ _
@[simp] theorem State.completeJob_mt (s : State) (j : Job) (st a b c d dt : Nat) : (s.completeJob j st a b c d dt).mt = s.mt :=
  State.complete_mt _ _ _ _ _ _ _ _ _ _
@[simp] theorem State.completeJob_pm (s : State) (j : Job) (st a b c d dt : Nat) : (s.completeJob j st a b c d dt).pm = s.pm :=
  State.complete_pm _ _ _ _ _ _ _ _ _ _
@[simp] theorem State.completeJob_sec (s : State) (j : Job) (st a b c d dt : Nat) : (s.completeJob j st a b c d dt).sec = s.sec :=
  State.complete_sec _ _ _ _ _ _ _ _ _ _
@[simp] theorem State.completeJob_evr (s : State) (j : Job) (st a b c d dt : Nat) : (s.completeJob j st a b c d dt).evr = s.evr :=
  State.complete_evr _ _ _ _ _ _ _ _ _ _
@[simp] theorem State.completeJob_free (s : State) (j : Job) (st a b c d dt : Nat) : (s.completeJob j st a b c d dt).free = s.free :=
  State.complete_free _ _ _ _ _ _ _ _ _ _
@[simp] theorem State.completeJob_pending (s : State) (j : Job) (st a b c d dt : Nat) : (s.completeJob j st a b c d dt).pending = s.pending :=
  State.complete_pending _ _ _ _ _ _ _ _ _ _

/-! ## `State.reply` changes `mbx`, `pins`, `port` only -/

@[simp] theorem State.reply_dev (s : State) (c : SubEntry) (st a b d e : Nat) : (s.reply c st a b d e).dev = s.dev :=
  State.complete_dev _ _ _ _ _ _ _ _ _ _
@[simp] theorem State.reply_fw (s : State) (c : SubEntry) (st a b d e : Nat) : (s.reply c st a b d e).fw = s.fw :=
  State.complete_fw _ _ _ _ _ _ _ _ _ _
@[simp] theorem State.reply_sched (s : State) (c : SubEntry) (st a b d e : Nat) : (s.reply c st a b d e).sched = s.sched :=
  State.complete_sched _ _ _ _ _ _ _ _ _ _
@[simp] theorem State.reply_flags (s : State) (c : SubEntry) (st a b d e : Nat) : (s.reply c st a b d e).flags = s.flags :=
  State.complete_flags _ _ _ _ _ _ _ _ _ _
@[simp] theorem State.reply_tu (s : State) (c : SubEntry) (st a b d e : Nat) : (s.reply c st a b d e).tu = s.tu :=
  State.complete_tu _ _ _ _ _ _ _ _ _ _
@[simp] theorem State.reply_sm (s : State) (c : SubEntry) (st a b d e : Nat) : (s.reply c st a b d e).sm = s.sm :=
  State.complete_sm _ _ _ _ _ _ _ _ _ _
@[simp] theorem State.reply_ife (s : State) (c : SubEntry) (st a b d e : Nat) : (s.reply c st a b d e).ife = s.ife :=
  State.complete_ife _ _ _ _ _ _ _ _ _ _
@[simp] theorem State.reply_vis (s : State) (c : SubEntry) (st a b d e : Nat) : (s.reply c st a b d e).vis = s.vis :=
  State.complete_vis _ _ _ _ _ _ _ _ _ _
@[simp] theorem State.reply_cores (s : State) (c : SubEntry) (st a b d e : Nat) : (s.reply c st a b d e).cores = s.cores :=
  State.complete_cores _ _ _ _ _ _ _ _ _ _
@[simp] theorem State.reply_fld (s : State) (c : SubEntry) (st a b d e : Nat) : (s.reply c st a b d e).fld = s.fld :=
  State.complete_fld _ _ _ _ _ _ _ _ _ _
@[simp] theorem State.reply_fus (s : State) (c : SubEntry) (st a b d e : Nat) : (s.reply c st a b d e).fus = s.fus :=
  State.complete_fus _ _ _ _ _ _ _ _ _ _
@[simp] theorem State.reply_slv (s : State) (c : SubEntry) (st a b d e : Nat) : (s.reply c st a b d e).slv = s.slv :=
  State.complete_slv _ _ _ _ _ _ _ _ _ _
@[simp] theorem State.reply_ps (s : State) (c : SubEntry) (st a b d e : Nat) : (s.reply c st a b d e).ps = s.ps :=
  State.complete_ps _ _ _ _ _ _ _ _ _ _
@[simp] theorem State.reply_mem (s : State) (c : SubEntry) (st a b d e : Nat) : (s.reply c st a b d e).mem = s.mem :=
  State.complete_mem _ _ _ _ _ _ _ _ _ _
@[simp] theorem State.reply_sram (s : State) (c : SubEntry) (st a b d e : Nat) : (s.reply c st a b d e).sram = s.sram :=
  State.complete_sram _ _ _ _ _ _ _ _ _ _
@[simp] theorem State.reply_mt (s : State) (c : SubEntry) (st a b d e : Nat) : (s.reply c st a b d e).mt = s.mt :=
  State.complete_mt _ _ _ _ _ _ _ _ _ _
@[simp] theorem State.reply_pm (s : State) (c : SubEntry) (st a b d e : Nat) : (s.reply c st a b d e).pm = s.pm :=
  State.complete_pm _ _ _ _ _ _ _ _ _ _
@[simp] theorem State.reply_sec (s : State) (c : SubEntry) (st a b d e : Nat) : (s.reply c st a b d e).sec = s.sec :=
  State.complete_sec _ _ _ _ _ _ _ _ _ _
@[simp] theorem State.reply_evr (s : State) (c : SubEntry) (st a b d e : Nat) : (s.reply c st a b d e).evr = s.evr :=
  State.complete_evr _ _ _ _ _ _ _ _ _ _
@[simp] theorem State.reply_free (s : State) (c : SubEntry) (st a b d e : Nat) : (s.reply c st a b d e).free = s.free :=
  State.complete_free _ _ _ _ _ _ _ _ _ _
@[simp] theorem State.reply_pending (s : State) (c : SubEntry) (st a b d e : Nat) : (s.reply c st a b d e).pending = s.pending :=
  State.complete_pending _ _ _ _ _ _ _ _ _ _

/-! ## `State.replyOk` changes `mbx`, `pins`, `port` only -/

@[simp] theorem State.replyOk_dev (s : State) (c : SubEntry) : (s.replyOk c).dev = s.dev := State.reply_dev _ _ _ _ _ _ _
@[simp] theorem State.replyOk_fw (s : State) (c : SubEntry) : (s.replyOk c).fw = s.fw := State.reply_fw _ _ _ _ _ _ _
@[simp] theorem State.replyOk_sched (s : State) (c : SubEntry) : (s.replyOk c).sched = s.sched :=
  State.reply_sched _ _ _ _ _ _ _
@[simp] theorem State.replyOk_flags (s : State) (c : SubEntry) : (s.replyOk c).flags = s.flags :=
  State.reply_flags _ _ _ _ _ _ _
@[simp] theorem State.replyOk_tu (s : State) (c : SubEntry) : (s.replyOk c).tu = s.tu := State.reply_tu _ _ _ _ _ _ _
@[simp] theorem State.replyOk_sm (s : State) (c : SubEntry) : (s.replyOk c).sm = s.sm := State.reply_sm _ _ _ _ _ _ _
@[simp] theorem State.replyOk_ife (s : State) (c : SubEntry) : (s.replyOk c).ife = s.ife := State.reply_ife _ _ _ _ _ _ _
@[simp] theorem State.replyOk_vis (s : State) (c : SubEntry) : (s.replyOk c).vis = s.vis := State.reply_vis _ _ _ _ _ _ _
@[simp] theorem State.replyOk_cores (s : State) (c : SubEntry) : (s.replyOk c).cores = s.cores :=
  State.reply_cores _ _ _ _ _ _ _
@[simp] theorem State.replyOk_fld (s : State) (c : SubEntry) : (s.replyOk c).fld = s.fld := State.reply_fld _ _ _ _ _ _ _
@[simp] theorem State.replyOk_fus (s : State) (c : SubEntry) : (s.replyOk c).fus = s.fus := State.reply_fus _ _ _ _ _ _ _
@[simp] theorem State.replyOk_slv (s : State) (c : SubEntry) : (s.replyOk c).slv = s.slv := State.reply_slv _ _ _ _ _ _ _
@[simp] theorem State.replyOk_ps (s : State) (c : SubEntry) : (s.replyOk c).ps = s.ps := State.reply_ps _ _ _ _ _ _ _
@[simp] theorem State.replyOk_mem (s : State) (c : SubEntry) : (s.replyOk c).mem = s.mem := State.reply_mem _ _ _ _ _ _ _
@[simp] theorem State.replyOk_sram (s : State) (c : SubEntry) : (s.replyOk c).sram = s.sram := State.reply_sram _ _ _ _ _ _ _
@[simp] theorem State.replyOk_mt (s : State) (c : SubEntry) : (s.replyOk c).mt = s.mt := State.reply_mt _ _ _ _ _ _ _
@[simp] theorem State.replyOk_pm (s : State) (c : SubEntry) : (s.replyOk c).pm = s.pm := State.reply_pm _ _ _ _ _ _ _
@[simp] theorem State.replyOk_sec (s : State) (c : SubEntry) : (s.replyOk c).sec = s.sec := State.reply_sec _ _ _ _ _ _ _
@[simp] theorem State.replyOk_evr (s : State) (c : SubEntry) : (s.replyOk c).evr = s.evr := State.reply_evr _ _ _ _ _ _ _
@[simp] theorem State.replyOk_free (s : State) (c : SubEntry) : (s.replyOk c).free = s.free := State.reply_free _ _ _ _ _ _ _
@[simp] theorem State.replyOk_pending (s : State) (c : SubEntry) : (s.replyOk c).pending = s.pending :=
  State.reply_pending _ _ _ _ _ _ _

/-! ## `State.replyErr` changes `mbx`, `pins`, `port` only -/

@[simp] theorem State.replyErr_dev (s : State) (c : SubEntry) (st : Nat) : (s.replyErr c st).dev = s.dev :=
  State.reply_dev _ _ _ _ _ _ _
@[simp] theorem State.replyErr_fw (s : State) (c : SubEntry) (st : Nat) : (s.replyErr c st).fw = s.fw :=
  State.reply_fw _ _ _ _ _ _ _
@[simp] theorem State.replyErr_sched (s : State) (c : SubEntry) (st : Nat) : (s.replyErr c st).sched = s.sched :=
  State.reply_sched _ _ _ _ _ _ _
@[simp] theorem State.replyErr_flags (s : State) (c : SubEntry) (st : Nat) : (s.replyErr c st).flags = s.flags :=
  State.reply_flags _ _ _ _ _ _ _
@[simp] theorem State.replyErr_tu (s : State) (c : SubEntry) (st : Nat) : (s.replyErr c st).tu = s.tu :=
  State.reply_tu _ _ _ _ _ _ _
@[simp] theorem State.replyErr_sm (s : State) (c : SubEntry) (st : Nat) : (s.replyErr c st).sm = s.sm :=
  State.reply_sm _ _ _ _ _ _ _
@[simp] theorem State.replyErr_ife (s : State) (c : SubEntry) (st : Nat) : (s.replyErr c st).ife = s.ife :=
  State.reply_ife _ _ _ _ _ _ _
@[simp] theorem State.replyErr_vis (s : State) (c : SubEntry) (st : Nat) : (s.replyErr c st).vis = s.vis :=
  State.reply_vis _ _ _ _ _ _ _
@[simp] theorem State.replyErr_cores (s : State) (c : SubEntry) (st : Nat) : (s.replyErr c st).cores = s.cores :=
  State.reply_cores _ _ _ _ _ _ _
@[simp] theorem State.replyErr_fld (s : State) (c : SubEntry) (st : Nat) : (s.replyErr c st).fld = s.fld :=
  State.reply_fld _ _ _ _ _ _ _
@[simp] theorem State.replyErr_fus (s : State) (c : SubEntry) (st : Nat) : (s.replyErr c st).fus = s.fus :=
  State.reply_fus _ _ _ _ _ _ _
@[simp] theorem State.replyErr_slv (s : State) (c : SubEntry) (st : Nat) : (s.replyErr c st).slv = s.slv :=
  State.reply_slv _ _ _ _ _ _ _
@[simp] theorem State.replyErr_ps (s : State) (c : SubEntry) (st : Nat) : (s.replyErr c st).ps = s.ps :=
  State.reply_ps _ _ _ _ _ _ _
@[simp] theorem State.replyErr_mem (s : State) (c : SubEntry) (st : Nat) : (s.replyErr c st).mem = s.mem :=
  State.reply_mem _ _ _ _ _ _ _
@[simp] theorem State.replyErr_sram (s : State) (c : SubEntry) (st : Nat) : (s.replyErr c st).sram = s.sram :=
  State.reply_sram _ _ _ _ _ _ _
@[simp] theorem State.replyErr_mt (s : State) (c : SubEntry) (st : Nat) : (s.replyErr c st).mt = s.mt :=
  State.reply_mt _ _ _ _ _ _ _
@[simp] theorem State.replyErr_pm (s : State) (c : SubEntry) (st : Nat) : (s.replyErr c st).pm = s.pm :=
  State.reply_pm _ _ _ _ _ _ _
@[simp] theorem State.replyErr_sec (s : State) (c : SubEntry) (st : Nat) : (s.replyErr c st).sec = s.sec :=
  State.reply_sec _ _ _ _ _ _ _
@[simp] theorem State.replyErr_evr (s : State) (c : SubEntry) (st : Nat) : (s.replyErr c st).evr = s.evr :=
  State.reply_evr _ _ _ _ _ _ _
@[simp] theorem State.replyErr_free (s : State) (c : SubEntry) (st : Nat) : (s.replyErr c st).free = s.free :=
  State.reply_free _ _ _ _ _ _ _
@[simp] theorem State.replyErr_pending (s : State) (c : SubEntry) (st : Nat) : (s.replyErr c st).pending = s.pending :=
  State.reply_pending _ _ _ _ _ _ _

/-! ## `State.windowWrite` changes `mem` only -/

@[simp] theorem State.windowWrite_pins (s : State) (i : Fin 8) (off : Nat) (bs : List Byte) : (s.windowWrite i off bs).pins = s.pins := rfl
@[simp] theorem State.windowWrite_dev (s : State) (i : Fin 8) (off : Nat) (bs : List Byte) : (s.windowWrite i off bs).dev = s.dev := rfl
@[simp] theorem State.windowWrite_port (s : State) (i : Fin 8) (off : Nat) (bs : List Byte) : (s.windowWrite i off bs).port = s.port := rfl
@[simp] theorem State.windowWrite_mbx (s : State) (i : Fin 8) (off : Nat) (bs : List Byte) : (s.windowWrite i off bs).mbx = s.mbx := rfl
@[simp] theorem State.windowWrite_fw (s : State) (i : Fin 8) (off : Nat) (bs : List Byte) : (s.windowWrite i off bs).fw = s.fw := rfl
@[simp] theorem State.windowWrite_sched (s : State) (i : Fin 8) (off : Nat) (bs : List Byte) : (s.windowWrite i off bs).sched = s.sched := rfl
@[simp] theorem State.windowWrite_flags (s : State) (i : Fin 8) (off : Nat) (bs : List Byte) : (s.windowWrite i off bs).flags = s.flags := rfl
@[simp] theorem State.windowWrite_tu (s : State) (i : Fin 8) (off : Nat) (bs : List Byte) : (s.windowWrite i off bs).tu = s.tu := rfl
@[simp] theorem State.windowWrite_sm (s : State) (i : Fin 8) (off : Nat) (bs : List Byte) : (s.windowWrite i off bs).sm = s.sm := rfl
@[simp] theorem State.windowWrite_ife (s : State) (i : Fin 8) (off : Nat) (bs : List Byte) : (s.windowWrite i off bs).ife = s.ife := rfl
@[simp] theorem State.windowWrite_vis (s : State) (i : Fin 8) (off : Nat) (bs : List Byte) : (s.windowWrite i off bs).vis = s.vis := rfl
@[simp] theorem State.windowWrite_cores (s : State) (i : Fin 8) (off : Nat) (bs : List Byte) : (s.windowWrite i off bs).cores = s.cores := rfl
@[simp] theorem State.windowWrite_fld (s : State) (i : Fin 8) (off : Nat) (bs : List Byte) : (s.windowWrite i off bs).fld = s.fld := rfl
@[simp] theorem State.windowWrite_fus (s : State) (i : Fin 8) (off : Nat) (bs : List Byte) : (s.windowWrite i off bs).fus = s.fus := rfl
@[simp] theorem State.windowWrite_slv (s : State) (i : Fin 8) (off : Nat) (bs : List Byte) : (s.windowWrite i off bs).slv = s.slv := rfl
@[simp] theorem State.windowWrite_ps (s : State) (i : Fin 8) (off : Nat) (bs : List Byte) : (s.windowWrite i off bs).ps = s.ps := rfl
@[simp] theorem State.windowWrite_sram (s : State) (i : Fin 8) (off : Nat) (bs : List Byte) : (s.windowWrite i off bs).sram = s.sram := rfl
@[simp] theorem State.windowWrite_mt (s : State) (i : Fin 8) (off : Nat) (bs : List Byte) : (s.windowWrite i off bs).mt = s.mt := rfl
@[simp] theorem State.windowWrite_pm (s : State) (i : Fin 8) (off : Nat) (bs : List Byte) : (s.windowWrite i off bs).pm = s.pm := rfl
@[simp] theorem State.windowWrite_sec (s : State) (i : Fin 8) (off : Nat) (bs : List Byte) : (s.windowWrite i off bs).sec = s.sec := rfl
@[simp] theorem State.windowWrite_evr (s : State) (i : Fin 8) (off : Nat) (bs : List Byte) : (s.windowWrite i off bs).evr = s.evr := rfl
@[simp] theorem State.windowWrite_free (s : State) (i : Fin 8) (off : Nat) (bs : List Byte) : (s.windowWrite i off bs).free = s.free := rfl
@[simp] theorem State.windowWrite_pending (s : State) (i : Fin 8) (off : Nat) (bs : List Byte) : (s.windowWrite i off bs).pending = s.pending := rfl

/-! ## `State.bulkOut` changes `mem` only -/

@[simp] theorem State.bulkOut_pins (s : State) (c : SubEntry) (o : Nat) (bs : List Byte) : (s.bulkOut c o bs).pins = s.pins := rfl
@[simp] theorem State.bulkOut_dev (s : State) (c : SubEntry) (o : Nat) (bs : List Byte) : (s.bulkOut c o bs).dev = s.dev := rfl
@[simp] theorem State.bulkOut_port (s : State) (c : SubEntry) (o : Nat) (bs : List Byte) : (s.bulkOut c o bs).port = s.port := rfl
@[simp] theorem State.bulkOut_mbx (s : State) (c : SubEntry) (o : Nat) (bs : List Byte) : (s.bulkOut c o bs).mbx = s.mbx := rfl
@[simp] theorem State.bulkOut_fw (s : State) (c : SubEntry) (o : Nat) (bs : List Byte) : (s.bulkOut c o bs).fw = s.fw := rfl
@[simp] theorem State.bulkOut_sched (s : State) (c : SubEntry) (o : Nat) (bs : List Byte) : (s.bulkOut c o bs).sched = s.sched := rfl
@[simp] theorem State.bulkOut_flags (s : State) (c : SubEntry) (o : Nat) (bs : List Byte) : (s.bulkOut c o bs).flags = s.flags := rfl
@[simp] theorem State.bulkOut_tu (s : State) (c : SubEntry) (o : Nat) (bs : List Byte) : (s.bulkOut c o bs).tu = s.tu := rfl
@[simp] theorem State.bulkOut_sm (s : State) (c : SubEntry) (o : Nat) (bs : List Byte) : (s.bulkOut c o bs).sm = s.sm := rfl
@[simp] theorem State.bulkOut_ife (s : State) (c : SubEntry) (o : Nat) (bs : List Byte) : (s.bulkOut c o bs).ife = s.ife := rfl
@[simp] theorem State.bulkOut_vis (s : State) (c : SubEntry) (o : Nat) (bs : List Byte) : (s.bulkOut c o bs).vis = s.vis := rfl
@[simp] theorem State.bulkOut_cores (s : State) (c : SubEntry) (o : Nat) (bs : List Byte) : (s.bulkOut c o bs).cores = s.cores := rfl
@[simp] theorem State.bulkOut_fld (s : State) (c : SubEntry) (o : Nat) (bs : List Byte) : (s.bulkOut c o bs).fld = s.fld := rfl
@[simp] theorem State.bulkOut_fus (s : State) (c : SubEntry) (o : Nat) (bs : List Byte) : (s.bulkOut c o bs).fus = s.fus := rfl
@[simp] theorem State.bulkOut_slv (s : State) (c : SubEntry) (o : Nat) (bs : List Byte) : (s.bulkOut c o bs).slv = s.slv := rfl
@[simp] theorem State.bulkOut_ps (s : State) (c : SubEntry) (o : Nat) (bs : List Byte) : (s.bulkOut c o bs).ps = s.ps := rfl
@[simp] theorem State.bulkOut_sram (s : State) (c : SubEntry) (o : Nat) (bs : List Byte) : (s.bulkOut c o bs).sram = s.sram := rfl
@[simp] theorem State.bulkOut_mt (s : State) (c : SubEntry) (o : Nat) (bs : List Byte) : (s.bulkOut c o bs).mt = s.mt := rfl
@[simp] theorem State.bulkOut_pm (s : State) (c : SubEntry) (o : Nat) (bs : List Byte) : (s.bulkOut c o bs).pm = s.pm := rfl
@[simp] theorem State.bulkOut_sec (s : State) (c : SubEntry) (o : Nat) (bs : List Byte) : (s.bulkOut c o bs).sec = s.sec := rfl
@[simp] theorem State.bulkOut_evr (s : State) (c : SubEntry) (o : Nat) (bs : List Byte) : (s.bulkOut c o bs).evr = s.evr := rfl
@[simp] theorem State.bulkOut_free (s : State) (c : SubEntry) (o : Nat) (bs : List Byte) : (s.bulkOut c o bs).free = s.free := rfl
@[simp] theorem State.bulkOut_pending (s : State) (c : SubEntry) (o : Nat) (bs : List Byte) : (s.bulkOut c o bs).pending = s.pending := rfl

/-! ## `State.replyOut` changes `mem`, `mbx`, `pins`, `port` only -/

@[simp] theorem State.replyOut_dev (s : State) (c : SubEntry) (bs : List Byte) (x y z w : Nat) : (s.replyOut c bs x y z w).dev = s.dev := by
  unfold State.replyOut
  split
  · rw [State.replyErr_dev]
  · rw [State.reply_dev]; rfl
@[simp] theorem State.replyOut_fw (s : State) (c : SubEntry) (bs : List Byte) (x y z w : Nat) : (s.replyOut c bs x y z w).fw = s.fw := by
  unfold State.replyOut
  split
  · rw [State.replyErr_fw]
  · rw [State.reply_fw]; rfl
@[simp] theorem State.replyOut_sched (s : State) (c : SubEntry) (bs : List Byte) (x y z w : Nat) : (s.replyOut c bs x y z w).sched = s.sched := by
  unfold State.replyOut
  split
  · rw [State.replyErr_sched]
  · rw [State.reply_sched]; rfl
@[simp] theorem State.replyOut_flags (s : State) (c : SubEntry) (bs : List Byte) (x y z w : Nat) : (s.replyOut c bs x y z w).flags = s.flags := by
  unfold State.replyOut
  split
  · rw [State.replyErr_flags]
  · rw [State.reply_flags]; rfl
@[simp] theorem State.replyOut_tu (s : State) (c : SubEntry) (bs : List Byte) (x y z w : Nat) : (s.replyOut c bs x y z w).tu = s.tu := by
  unfold State.replyOut
  split
  · rw [State.replyErr_tu]
  · rw [State.reply_tu]; rfl
@[simp] theorem State.replyOut_sm (s : State) (c : SubEntry) (bs : List Byte) (x y z w : Nat) : (s.replyOut c bs x y z w).sm = s.sm := by
  unfold State.replyOut
  split
  · rw [State.replyErr_sm]
  · rw [State.reply_sm]; rfl
@[simp] theorem State.replyOut_ife (s : State) (c : SubEntry) (bs : List Byte) (x y z w : Nat) : (s.replyOut c bs x y z w).ife = s.ife := by
  unfold State.replyOut
  split
  · rw [State.replyErr_ife]
  · rw [State.reply_ife]; rfl
@[simp] theorem State.replyOut_vis (s : State) (c : SubEntry) (bs : List Byte) (x y z w : Nat) : (s.replyOut c bs x y z w).vis = s.vis := by
  unfold State.replyOut
  split
  · rw [State.replyErr_vis]
  · rw [State.reply_vis]; rfl
@[simp] theorem State.replyOut_cores (s : State) (c : SubEntry) (bs : List Byte) (x y z w : Nat) : (s.replyOut c bs x y z w).cores = s.cores := by
  unfold State.replyOut
  split
  · rw [State.replyErr_cores]
  · rw [State.reply_cores]; rfl
@[simp] theorem State.replyOut_fld (s : State) (c : SubEntry) (bs : List Byte) (x y z w : Nat) : (s.replyOut c bs x y z w).fld = s.fld := by
  unfold State.replyOut
  split
  · rw [State.replyErr_fld]
  · rw [State.reply_fld]; rfl
@[simp] theorem State.replyOut_fus (s : State) (c : SubEntry) (bs : List Byte) (x y z w : Nat) : (s.replyOut c bs x y z w).fus = s.fus := by
  unfold State.replyOut
  split
  · rw [State.replyErr_fus]
  · rw [State.reply_fus]; rfl
@[simp] theorem State.replyOut_slv (s : State) (c : SubEntry) (bs : List Byte) (x y z w : Nat) : (s.replyOut c bs x y z w).slv = s.slv := by
  unfold State.replyOut
  split
  · rw [State.replyErr_slv]
  · rw [State.reply_slv]; rfl
@[simp] theorem State.replyOut_ps (s : State) (c : SubEntry) (bs : List Byte) (x y z w : Nat) : (s.replyOut c bs x y z w).ps = s.ps := by
  unfold State.replyOut
  split
  · rw [State.replyErr_ps]
  · rw [State.reply_ps]; rfl
@[simp] theorem State.replyOut_sram (s : State) (c : SubEntry) (bs : List Byte) (x y z w : Nat) : (s.replyOut c bs x y z w).sram = s.sram := by
  unfold State.replyOut
  split
  · rw [State.replyErr_sram]
  · rw [State.reply_sram]; rfl
@[simp] theorem State.replyOut_mt (s : State) (c : SubEntry) (bs : List Byte) (x y z w : Nat) : (s.replyOut c bs x y z w).mt = s.mt := by
  unfold State.replyOut
  split
  · rw [State.replyErr_mt]
  · rw [State.reply_mt]; rfl
@[simp] theorem State.replyOut_pm (s : State) (c : SubEntry) (bs : List Byte) (x y z w : Nat) : (s.replyOut c bs x y z w).pm = s.pm := by
  unfold State.replyOut
  split
  · rw [State.replyErr_pm]
  · rw [State.reply_pm]; rfl
@[simp] theorem State.replyOut_sec (s : State) (c : SubEntry) (bs : List Byte) (x y z w : Nat) : (s.replyOut c bs x y z w).sec = s.sec := by
  unfold State.replyOut
  split
  · rw [State.replyErr_sec]
  · rw [State.reply_sec]; rfl
@[simp] theorem State.replyOut_evr (s : State) (c : SubEntry) (bs : List Byte) (x y z w : Nat) : (s.replyOut c bs x y z w).evr = s.evr := by
  unfold State.replyOut
  split
  · rw [State.replyErr_evr]
  · rw [State.reply_evr]; rfl
@[simp] theorem State.replyOut_free (s : State) (c : SubEntry) (bs : List Byte) (x y z w : Nat) : (s.replyOut c bs x y z w).free = s.free := by
  unfold State.replyOut
  split
  · rw [State.replyErr_free]
  · rw [State.reply_free]; rfl
@[simp] theorem State.replyOut_pending (s : State) (c : SubEntry) (bs : List Byte) (x y z w : Nat) : (s.replyOut c bs x y z w).pending = s.pending := by
  unfold State.replyOut
  split
  · rw [State.replyErr_pending]
  · rw [State.reply_pending]; rfl

/-! ## `State.replyList` changes `mem`, `mbx`, `pins`, `port` only -/

@[simp] theorem State.replyList_dev (s : State) (c : SubEntry) (n : Nat) (l : List (List Byte)) : (s.replyList c n l).dev = s.dev := by
  unfold State.replyList; dsimp only; rw [State.reply_dev]; rfl
@[simp] theorem State.replyList_fw (s : State) (c : SubEntry) (n : Nat) (l : List (List Byte)) : (s.replyList c n l).fw = s.fw := by
  unfold State.replyList; dsimp only; rw [State.reply_fw]; rfl
@[simp] theorem State.replyList_sched (s : State) (c : SubEntry) (n : Nat) (l : List (List Byte)) : (s.replyList c n l).sched = s.sched := by
  unfold State.replyList; dsimp only; rw [State.reply_sched]; rfl
@[simp] theorem State.replyList_flags (s : State) (c : SubEntry) (n : Nat) (l : List (List Byte)) : (s.replyList c n l).flags = s.flags := by
  unfold State.replyList; dsimp only; rw [State.reply_flags]; rfl
@[simp] theorem State.replyList_tu (s : State) (c : SubEntry) (n : Nat) (l : List (List Byte)) : (s.replyList c n l).tu = s.tu := by
  unfold State.replyList; dsimp only; rw [State.reply_tu]; rfl
@[simp] theorem State.replyList_sm (s : State) (c : SubEntry) (n : Nat) (l : List (List Byte)) : (s.replyList c n l).sm = s.sm := by
  unfold State.replyList; dsimp only; rw [State.reply_sm]; rfl
@[simp] theorem State.replyList_ife (s : State) (c : SubEntry) (n : Nat) (l : List (List Byte)) : (s.replyList c n l).ife = s.ife := by
  unfold State.replyList; dsimp only; rw [State.reply_ife]; rfl
@[simp] theorem State.replyList_vis (s : State) (c : SubEntry) (n : Nat) (l : List (List Byte)) : (s.replyList c n l).vis = s.vis := by
  unfold State.replyList; dsimp only; rw [State.reply_vis]; rfl
@[simp] theorem State.replyList_cores (s : State) (c : SubEntry) (n : Nat) (l : List (List Byte)) : (s.replyList c n l).cores = s.cores := by
  unfold State.replyList; dsimp only; rw [State.reply_cores]; rfl
@[simp] theorem State.replyList_fld (s : State) (c : SubEntry) (n : Nat) (l : List (List Byte)) : (s.replyList c n l).fld = s.fld := by
  unfold State.replyList; dsimp only; rw [State.reply_fld]; rfl
@[simp] theorem State.replyList_fus (s : State) (c : SubEntry) (n : Nat) (l : List (List Byte)) : (s.replyList c n l).fus = s.fus := by
  unfold State.replyList; dsimp only; rw [State.reply_fus]; rfl
@[simp] theorem State.replyList_slv (s : State) (c : SubEntry) (n : Nat) (l : List (List Byte)) : (s.replyList c n l).slv = s.slv := by
  unfold State.replyList; dsimp only; rw [State.reply_slv]; rfl
@[simp] theorem State.replyList_ps (s : State) (c : SubEntry) (n : Nat) (l : List (List Byte)) : (s.replyList c n l).ps = s.ps := by
  unfold State.replyList; dsimp only; rw [State.reply_ps]; rfl
@[simp] theorem State.replyList_sram (s : State) (c : SubEntry) (n : Nat) (l : List (List Byte)) : (s.replyList c n l).sram = s.sram := by
  unfold State.replyList; dsimp only; rw [State.reply_sram]; rfl
@[simp] theorem State.replyList_mt (s : State) (c : SubEntry) (n : Nat) (l : List (List Byte)) : (s.replyList c n l).mt = s.mt := by
  unfold State.replyList; dsimp only; rw [State.reply_mt]; rfl
@[simp] theorem State.replyList_pm (s : State) (c : SubEntry) (n : Nat) (l : List (List Byte)) : (s.replyList c n l).pm = s.pm := by
  unfold State.replyList; dsimp only; rw [State.reply_pm]; rfl
@[simp] theorem State.replyList_sec (s : State) (c : SubEntry) (n : Nat) (l : List (List Byte)) : (s.replyList c n l).sec = s.sec := by
  unfold State.replyList; dsimp only; rw [State.reply_sec]; rfl
@[simp] theorem State.replyList_evr (s : State) (c : SubEntry) (n : Nat) (l : List (List Byte)) : (s.replyList c n l).evr = s.evr := by
  unfold State.replyList; dsimp only; rw [State.reply_evr]; rfl
@[simp] theorem State.replyList_free (s : State) (c : SubEntry) (n : Nat) (l : List (List Byte)) : (s.replyList c n l).free = s.free := by
  unfold State.replyList; dsimp only; rw [State.reply_free]; rfl
@[simp] theorem State.replyList_pending (s : State) (c : SubEntry) (n : Nat) (l : List (List Byte)) : (s.replyList c n l).pending = s.pending := by
  unfold State.replyList; dsimp only; rw [State.reply_pending]; rfl

/-! ## `State.addJob` changes `fw` only -/

@[simp] theorem State.addJob_pins (s : State) (c : SubEntry) (k : JobKind) : (s.addJob c k).pins = s.pins := rfl
@[simp] theorem State.addJob_dev (s : State) (c : SubEntry) (k : JobKind) : (s.addJob c k).dev = s.dev := rfl
@[simp] theorem State.addJob_port (s : State) (c : SubEntry) (k : JobKind) : (s.addJob c k).port = s.port := rfl
@[simp] theorem State.addJob_mbx (s : State) (c : SubEntry) (k : JobKind) : (s.addJob c k).mbx = s.mbx := rfl
@[simp] theorem State.addJob_sched (s : State) (c : SubEntry) (k : JobKind) : (s.addJob c k).sched = s.sched := rfl
@[simp] theorem State.addJob_flags (s : State) (c : SubEntry) (k : JobKind) : (s.addJob c k).flags = s.flags := rfl
@[simp] theorem State.addJob_tu (s : State) (c : SubEntry) (k : JobKind) : (s.addJob c k).tu = s.tu := rfl
@[simp] theorem State.addJob_sm (s : State) (c : SubEntry) (k : JobKind) : (s.addJob c k).sm = s.sm := rfl
@[simp] theorem State.addJob_ife (s : State) (c : SubEntry) (k : JobKind) : (s.addJob c k).ife = s.ife := rfl
@[simp] theorem State.addJob_vis (s : State) (c : SubEntry) (k : JobKind) : (s.addJob c k).vis = s.vis := rfl
@[simp] theorem State.addJob_cores (s : State) (c : SubEntry) (k : JobKind) : (s.addJob c k).cores = s.cores := rfl
@[simp] theorem State.addJob_fld (s : State) (c : SubEntry) (k : JobKind) : (s.addJob c k).fld = s.fld := rfl
@[simp] theorem State.addJob_fus (s : State) (c : SubEntry) (k : JobKind) : (s.addJob c k).fus = s.fus := rfl
@[simp] theorem State.addJob_slv (s : State) (c : SubEntry) (k : JobKind) : (s.addJob c k).slv = s.slv := rfl
@[simp] theorem State.addJob_ps (s : State) (c : SubEntry) (k : JobKind) : (s.addJob c k).ps = s.ps := rfl
@[simp] theorem State.addJob_mem (s : State) (c : SubEntry) (k : JobKind) : (s.addJob c k).mem = s.mem := rfl
@[simp] theorem State.addJob_sram (s : State) (c : SubEntry) (k : JobKind) : (s.addJob c k).sram = s.sram := rfl
@[simp] theorem State.addJob_mt (s : State) (c : SubEntry) (k : JobKind) : (s.addJob c k).mt = s.mt := rfl
@[simp] theorem State.addJob_pm (s : State) (c : SubEntry) (k : JobKind) : (s.addJob c k).pm = s.pm := rfl
@[simp] theorem State.addJob_sec (s : State) (c : SubEntry) (k : JobKind) : (s.addJob c k).sec = s.sec := rfl
@[simp] theorem State.addJob_evr (s : State) (c : SubEntry) (k : JobKind) : (s.addJob c k).evr = s.evr := rfl
@[simp] theorem State.addJob_free (s : State) (c : SubEntry) (k : JobKind) : (s.addJob c k).free = s.free := rfl
@[simp] theorem State.addJob_pending (s : State) (c : SubEntry) (k : JobKind) : (s.addJob c k).pending = s.pending := rfl

end Sys2Proof.Machine
end

