-- ==== Sys2Proof/Laws/Mailbox.lean ====
section
/-!
SUPPORT. What the shared operations of the mailboxes do: a command that is accepted, and a completion that is posted.
-/
namespace Sys2Proof.Machine

theorem State.dropUndefined_zero (s : State) : State.dropUndefined 0 s = s := rfl

/-- With no entry waiting there is nothing to skip. -/
theorem State.skipUndefined_of_empty {s : State} (h : s.fw.queue = []) : s.skipUndefined = s := by
  rw [State.skipUndefined, h]; rfl

theorem State.nextEntry_of_empty {s : State} (h : s.fw.queue = []) : s.nextEntry = none := by
  rw [State.nextEntry, h]; rfl

/-- A command that is accepted is carried out. -/
theorem State.serve_of_accepts {s : State} {op : Nat} {e : Entry} (h : s.Accepts op e) (act : SubEntry → State → State) :
    s.serve op e act = act (asSub op e) s := by
  obtain ⟨ht, hq, hf, ho, hc⟩ := h
  have hf' : ¬ 64 ≤ s.inFlight e.mbx := by omega
  simp only [State.serve, ht, State.skipUndefined_of_empty hq, State.nextEntry_of_empty hq, Bool.not_true]
  simp [hf', ho, hq, State.accept, hc]

/-- A completion that is posted on an open mailbox with room goes to the tail of the ring, and raises the mailbox's cause. -/
theorem State.postCompletion_of_room {s : State} {i : Fin 8} {c : Completion} (ho : s.mbx[i].state = .opened)
    (hh : s.mbx[i].held = []) (hr : s.mbx[i].cqCount < 255) :
    s.postCompletion i c = (s.updMbx i fun m => m.cqPut c).raiseIrq (irqCq i) := by
  unfold State.postCompletion
  dsimp only
  rw [if_neg (fun q => q ho), if_pos ⟨hh, hr⟩]

@[simp] theorem State.updMbx_mbx_self (s : State) (i : Fin 8) (f : Mbx → Mbx) : (s.updMbx i f).mbx[i] = f s.mbx[i] := by
  simp [State.updMbx]

theorem State.updMbx_mbx_ne (s : State) (i j : Fin 8) (f : Mbx → Mbx) (h : j ≠ i) : (s.updMbx i f).mbx[j] = s.mbx[j] := by
  have : i.val ≠ j.val := fun q => h (Fin.ext q.symm)
  simp [State.updMbx, this]

@[simp] theorem State.setPin_level (s : State) (n : PinName) (v : Bool) : (s.setPin n v).pins.level n = v := by
  unfold State.setPin
  split
  · assumption
  · cases n <;> simp [Pins.level, Pins.put]

/-- A completion entry takes 32 bytes (R352). -/
theorem Completion.bytes_length (c : Completion) : c.bytes.length = 32 := by
  simp [Completion.bytes]

end Sys2Proof.Machine
end

