-- ==== Sys2Proof/WellFormed.lean ====
section
/-!
DEFINITION. Which terms of `Instr` stand for a command, operation or event that can occur: entries of the right length,
frames of the right command, units that a target has, packets within the limits of their interfaces. The meanings are
total: an ill-formed term has a meaning too, and no statement depends on one.
-/
namespace Sys2Proof

/-- A submission entry carries exactly 240 payload bytes (R345). -/
def Entry.wf (e : Entry) : Bool := decide (e.payload.length = 240)

/-- A WRITE frame: the row is not READ, nor READ_ID, WAKE or PORT_RESET with its right complement (R327), and at most 4,096 data
bytes are on the wire (R328). An unknown opcode and a wrong complement are well formed, and refused (R332). -/
def Frame.writeWf (f : Frame) : Bool :=
  decide (f.opcode ≠ 0x0B) && decide (f.opcode ∉ [0x9F, 0xAB, 0xF0] ∨ f.complement ≠ ~~~ f.opcode) && decide (f.data.length ≤ 4096)

/-- A READ frame (R327). -/
def Frame.readWf (f : Frame) : Bool := decide (f.opcode = 0x0B) && decide (f.data.length ≤ 4096)

/-- Only a core has a vector unit and a DMA engine beside its array (R173). -/
def OpUnit.wf : Target → OpUnit → Bool
  | .core _, _ => true
  | _, .main => true
  | _, _ => false

/-- A register address whose slot is a slot of R14 and whose offset is a multiple of four. -/
def RegAddr.wf : RegAddr → Bool
  | .direct off => decide (off.toNat % 4 = 0)
  | .block _ off => decide (off.toNat % 4 = 0)

/-- Well-formedness of a command, operation or event. -/
def Instr.wellFormed : Instr → Bool
  | .write f => f.writeWf
  | .read f _ => f.readWf
  | .readId => true
  | .wake => true
  | .portReset => true
  | .hostPortModeWrite _ => true
  | .mbxDoorbellWrite _ _ => true
  | .mbxCopy _ => true
  | .cqHeadWrite _ _ => true
  | .irqStatusWrite _ => true
  | .registerWrite a _ => a.wf
  | .rcFieldRead a => a.wf
  | .latchingLoRead a => a.wf
  | .sysNop e => e.wf
  | .sysStatus e => e.wf
  | .sysReset e => e.wf
  | .sysResetDelayExpiry => true
  | .sysPark e => e.wf
  | .parkEntry => true
  | .wakeComplete => true
  | .schedLoad e => e.wf
  | .schedStart e => e.wf
  | .schedStop e => e.wf
  | .schedSelect e => e.wf
  | .schedUnload e => e.wf
  | .schedStatus e => e.wf
  | .partGrant e => e.wf
  | .partRelease e => e.wf
  | .partStatus e => e.wf
  | .partScrubDone _ => true
  | .keyRotate e => e.wf
  | .keyStatus e => e.wf
  | .attestReport e => e.wf
  | .attestCerts e => e.wf
  | .fwWrite e => e.wf
  | .fwActivate e => e.wf
  | .fwStatus e => e.wf
  | .pwrCap e => e.wf
  | .pwrStatus e => e.wf
  | .recSubscribe e => e.wf
  | .recRead e => e.wf
  | .diagEcho e => e.wf
  | .diagReadBlock e => e.wf
  | .streamConfig e => e.wf
  | .streamCommit e => e.wf
  | .streamStatus e => e.wf
  | .streamIfeConfig e => e.wf
  | .streamSync e => e.wf
  | .streamSyncMode e => e.wf
  | .timeConfig e => e.wf
  | .timeAlign e => e.wf
  | .timeSelect e => e.wf
  | .timeGet e => e.wf
  | .timeTrigSet e => e.wf
  | .timeSetTod e => e.wf
  | .poseInit e => e.wf
  | .poseAlignDone => true
  | .poseConfig e => e.wf
  | .poseSubscribe e => e.wf
  | .poseGet e => e.wf
  | .trackRead e => e.wf
  | .trackDelete e => e.wf
  | .trackList e => e.wf
  | .mapConfig e => e.wf
  | .mapTrain e => e.wf
  | .mapAcreDelete e => e.wf
  | .mapStatus e => e.wf
  | .placeCreate e => e.wf
  | .placeQuery e => e.wf
  | .placeInsert e => e.wf
  | .placeDelete e => e.wf
  | .placeCompact e => e.wf
  | .placeDestroy e => e.wf
  | .placeStatus e => e.wf
  | .sceneLastSeen e => e.wf
  | .sceneResemble e => e.wf
  | .sceneInRegion e => e.wf
  | .modelLoad e => e.wf
  | .modelInfo e => e.wf
  | .objLoad e => e.wf
  | .objPlace e => e.wf
  | .objPromote e => e.wf
  | .objPin e => e.wf
  | .objUnpin e => e.wf
  | .objEvict e => e.wf
  | .objUnload e => e.wf
  | .objStatus e => e.wf
  | .nop _ => true
  | .waitOp _ => true
  | .setf _ => true
  | .barrier _ => true
  | .dma _ _ => true
  | .endOp _ => true
  | .opComplete t u => OpUnit.wf t u
  | .opVoidSkip _ => true
  | .schedOverrun _ => true
  | .ballastRampStart => true
  | .schedLatch => true
  | .spanBoundary => true
  | .timeCycle _ => true
  | .tbOffsetHiWrite _ _ => true
  | .baseTimeout _ => true
  | .ppsInEdge => true
  | .ppsLost => true
  | .trigPulseStart _ => true
  | .trigPulseEnd _ => true
  | .ppsOutEdge => true
  | .ppsOutEnd => true
  | .ethFrameReceive _ frame _ => decide (14 ≤ frame.length ∧ frame.length ≤ 9216)
  | .bridgeForward _ frame _ => decide (14 ≤ frame.length ∧ frame.length ≤ 9216)
  | .csi2FrameStart _ _ => true
  | .csi2LongPacket _ _ _ _ _ => true
  | .csi2FrameEnd _ _ => true
  | .drdyEdge _ _ => true
  | .spiPollPeriod _ => true
  | .spiTransactionDone _ data => decide (1 ≤ data.length ∧ data.length ≤ 256)
  | .ifeRecordComplete _ => true
  | .syncInRise => true
  | .syncInRelease => true
  | .ifeSyncStuck => true
  | .encTransition _ _ _ => true
  | .encZEdge _ => true
  | .encSample _ => true
  | .encRecordComplete _ => true
  | .take _ => true
  | .release _ => true
  | .ifeEmit => true
  | .pwWarp => true
  | .pwPyramid => true
  | .feDetect => true
  | .trkRun => true
  | .fthStripe => true
  | .arrMm _ _ => true
  | .arrConv _ _ => true
  | .vecOp _ _ => true
  | .fldRays _ => true
  | .fldGather _ => true
  | .fldComposite _ => true
  | .fldScatter _ => true
  | .fldAdam _ => true
  | .fldCompare _ => true
  | .fldReplay _ => true
  | .fldSlotFill => true
  | .fldDirCommit => true
  | .fldAbsentClear => true
  | .fusInertial => true
  | .inertialRecordPropagate _ _ => true
  | .fusUpdate _ => true
  | .fusTrackReq => true
  | .fusSeed => true
  | .fusProject => true
  | .fusVote => true
  | .fusReprop _ => true
  | .fusPage => true
  | .fusAnchor => true
  | .poseGapExpiry => true
  | .mportCsFall => true
  | .mportReadPose _ => true
  | .mportReadId _ => true
  | .mportOtherCommand _ _ => true
  | .mportCsRise => true
  | .slvWindow => true
  | .slvService => true
  | .slvCommit => true
  | .slvIterationEnd _ => true
  | .slvDeadlineMiss => true
  | .slvWindowEnd => true
  | .psService => true
  | .psFile => true
  | .psWindowEnd => true
  | .psFlashBlocksLanded _ _ => true
  | .psQueryComplete _ _ => true
  | .psQueryExpired _ => true
  | .psInsertDone _ _ => true
  | .mvWindow => true
  | .moverTransferDone => true
  | .flashReadComplete _ => true
  | .flashProgramComplete _ => true
  | .flashBackgroundRelocate _ _ => true
  | .flashSpareLow => true
  | .patrolScrubStep _ => true
  | .pmbusPoll _ _ _ => true
  | .thermalConversion _ _ => true
  | .pwrThermRelease => true
  | .pwrLimitAssert => true
  | .pwrLimitRelease => true
  | .pwrMonAlarm _ => true
  | .pwrMarginTrim => true
  | .linkCrcMismatch _ => true
  | .faultFwPanic _ _ => true
  | .recFwStage _ _ => true
  | .eventRecordWrite _ => true
  | .recArchived => true
  | .poresetAssert => true
  | .poresetRelease _ => true
  | .hostPortReady => true
  | .bootRomDone _ _ => true
  | .dramInitDone => true
  | .firmwareVerified => true
  | .enterReady => true
  | .sysresetAssert => true
  | .sysresetRelease => true
  | .watchdogRefresh _ => true
  | .watchdogExpiry _ => true
  | .railPowerLoss => true
  | .railPowerUp => true
  | .jtagChallengeRead => true
  | .debugTokenWrite token => decide (token.length = 64 + 5748)
  | .graphScheduleCompiled => true
  | .debugHaltAndStep _ _ => true

end Sys2Proof
end

