-- ==== Sys2Proof/Laws/PerInstr.lean ====
section
/-!
SUPPORT. Laws that hold of every command, operation and event as syntax, one lemma per constructor. Family `Entries`: a
row that carries a submission entry is well formed exactly when the entry carries 240 payload bytes (R345).
-/

/-- The submission entry that a row carries, if it is a mailbox command. -/
def Sys2Proof.Instr.entry? : Sys2Proof.Instr → Option Sys2Proof.Entry
  | .write _ => none
  | .read _ _ => none
  | .readId => none
  | .wake => none
  | .portReset => none
  | .hostPortModeWrite _ => none
  | .mbxDoorbellWrite _ _ => none
  | .mbxCopy _ => none
  | .cqHeadWrite _ _ => none
  | .irqStatusWrite _ => none
  | .registerWrite _ _ => none
  | .rcFieldRead _ => none
  | .latchingLoRead _ => none
  | .sysNop e => some e
  | .sysStatus e => some e
  | .sysReset e => some e
  | .sysResetDelayExpiry => none
  | .sysPark e => some e
  | .parkEntry => none
  | .wakeComplete => none
  | .schedLoad e => some e
  | .schedStart e => some e
  | .schedStop e => some e
  | .schedSelect e => some e
  | .schedUnload e => some e
  | .schedStatus e => some e
  | .partGrant e => some e
  | .partRelease e => some e
  | .partStatus e => some e
  | .partScrubDone _ => none
  | .keyRotate e => some e
  | .keyStatus e => some e
  | .attestReport e => some e
  | .attestCerts e => some e
  | .fwWrite e => some e
  | .fwActivate e => some e
  | .fwStatus e => some e
  | .pwrCap e => some e
  | .pwrStatus e => some e
  | .recSubscribe e => some e
  | .recRead e => some e
  | .diagEcho e => some e
  | .diagReadBlock e => some e
  | .streamConfig e => some e
  | .streamCommit e => some e
  | .streamStatus e => some e
  | .streamIfeConfig e => some e
  | .streamSync e => some e
  | .streamSyncMode e => some e
  | .timeConfig e => some e
  | .timeAlign e => some e
  | .timeSelect e => some e
  | .timeGet e => some e
  | .timeTrigSet e => some e
  | .timeSetTod e => some e
  | .poseInit e => some e
  | .poseAlignDone => none
  | .poseConfig e => some e
  | .poseSubscribe e => some e
  | .poseGet e => some e
  | .trackRead e => some e
  | .trackDelete e => some e
  | .trackList e => some e
  | .mapConfig e => some e
  | .mapTrain e => some e
  | .mapAcreDelete e => some e
  | .mapStatus e => some e
  | .placeCreate e => some e
  | .placeQuery e => some e
  | .placeInsert e => some e
  | .placeDelete e => some e
  | .placeCompact e => some e
  | .placeDestroy e => some e
  | .placeStatus e => some e
  | .sceneLastSeen e => some e
  | .sceneResemble e => some e
  | .sceneInRegion e => some e
  | .modelLoad e => some e
  | .modelInfo e => some e
  | .objLoad e => some e
  | .objPlace e => some e
  | .objPromote e => some e
  | .objPin e => some e
  | .objUnpin e => some e
  | .objEvict e => some e
  | .objUnload e => some e
  | .objStatus e => some e
  | .nop _ => none
  | .waitOp _ => none
  | .setf _ => none
  | .barrier _ => none
  | .dma _ _ => none
  | .endOp _ => none
  | .opComplete _ _ => none
  | .opVoidSkip _ => none
  | .schedOverrun _ => none
  | .ballastRampStart => none
  | .schedLatch => none
  | .spanBoundary => none
  | .timeCycle _ => none
  | .tbOffsetHiWrite _ _ => none
  | .baseTimeout _ => none
  | .ppsInEdge => none
  | .ppsLost => none
  | .trigPulseStart _ => none
  | .trigPulseEnd _ => none
  | .ppsOutEdge => none
  | .ppsOutEnd => none
  | .ethFrameReceive _ _ _ => none
  | .bridgeForward _ _ _ => none
  | .csi2FrameStart _ _ => none
  | .csi2LongPacket _ _ _ _ _ => none
  | .csi2FrameEnd _ _ => none
  | .drdyEdge _ _ => none
  | .spiPollPeriod _ => none
  | .spiTransactionDone _ _ => none
  | .ifeRecordComplete _ => none
  | .syncInRise => none
  | .syncInRelease => none
  | .ifeSyncStuck => none
  | .encTransition _ _ _ => none
  | .encZEdge _ => none
  | .encSample _ => none
  | .encRecordComplete _ => none
  | .take _ => none
  | .release _ => none
  | .ifeEmit => none
  | .pwWarp => none
  | .pwPyramid => none
  | .feDetect => none
  | .trkRun => none
  | .fthStripe => none
  | .arrMm _ _ => none
  | .arrConv _ _ => none
  | .vecOp _ _ => none
  | .fldRays _ => none
  | .fldGather _ => none
  | .fldComposite _ => none
  | .fldScatter _ => none
  | .fldAdam _ => none
  | .fldCompare _ => none
  | .fldReplay _ => none
  | .fldSlotFill => none
  | .fldDirCommit => none
  | .fldAbsentClear => none
  | .fusInertial => none
  | .inertialRecordPropagate _ _ => none
  | .fusUpdate _ => none
  | .fusTrackReq => none
  | .fusSeed => none
  | .fusProject => none
  | .fusVote => none
  | .fusReprop _ => none
  | .fusPage => none
  | .fusAnchor => none
  | .poseGapExpiry => none
  | .mportCsFall => none
  | .mportReadPose _ => none
  | .mportReadId _ => none
  | .mportOtherCommand _ _ => none
  | .mportCsRise => none
  | .slvWindow => none
  | .slvService => none
  | .slvCommit => none
  | .slvIterationEnd _ => none
  | .slvDeadlineMiss => none
  | .slvWindowEnd => none
  | .psService => none
  | .psFile => none
  | .psWindowEnd => none
  | .psFlashBlocksLanded _ _ => none
  | .psQueryComplete _ _ => none
  | .psQueryExpired _ => none
  | .psInsertDone _ _ => none
  | .mvWindow => none
  | .moverTransferDone => none
  | .flashReadComplete _ => none
  | .flashProgramComplete _ => none
  | .flashBackgroundRelocate _ _ => none
  | .flashSpareLow => none
  | .patrolScrubStep _ => none
  | .pmbusPoll _ _ _ => none
  | .thermalConversion _ _ => none
  | .pwrThermRelease => none
  | .pwrLimitAssert => none
  | .pwrLimitRelease => none
  | .pwrMonAlarm _ => none
  | .pwrMarginTrim => none
  | .linkCrcMismatch _ => none
  | .faultFwPanic _ _ => none
  | .recFwStage _ _ => none
  | .eventRecordWrite _ => none
  | .recArchived => none
  | .poresetAssert => none
  | .poresetRelease _ => none
  | .hostPortReady => none
  | .bootRomDone _ _ => none
  | .dramInitDone => none
  | .firmwareVerified => none
  | .enterReady => none
  | .sysresetAssert => none
  | .sysresetRelease => none
  | .watchdogRefresh _ => none
  | .watchdogExpiry _ => none
  | .railPowerLoss => none
  | .railPowerUp => none
  | .jtagChallengeRead => none
  | .debugTokenWrite _ => none
  | .graphScheduleCompiled => none
  | .debugHaltAndStep _ _ => none

/-- A mailbox command is well formed exactly when its entry is. -/
def Sys2Proof.Laws.Entries.Statement (i : Sys2Proof.Instr) : Prop :=
  ∀ e : Sys2Proof.Entry, i.entry? = some e → i.wellFormed = e.wf

open Sys2Proof

theorem Sys2Proof.Laws.Entries.write (f : Frame) : Sys2Proof.Laws.Entries.Statement (.write f) :=
  fun e h => nomatch (show (none : Option Sys2Proof.Entry) = some e from h)
theorem Sys2Proof.Laws.Entries.read (f : Frame) (staged : Bool) : Sys2Proof.Laws.Entries.Statement (.read f staged) :=
  fun e h => nomatch (show (none : Option Sys2Proof.Entry) = some e from h)
theorem Sys2Proof.Laws.Entries.readId : Sys2Proof.Laws.Entries.Statement (.readId) :=
  fun e h => nomatch (show (none : Option Sys2Proof.Entry) = some e from h)
theorem Sys2Proof.Laws.Entries.wake : Sys2Proof.Laws.Entries.Statement (.wake) :=
  fun e h => nomatch (show (none : Option Sys2Proof.Entry) = some e from h)
theorem Sys2Proof.Laws.Entries.portReset : Sys2Proof.Laws.Entries.Statement (.portReset) :=
  fun e h => nomatch (show (none : Option Sys2Proof.Entry) = some e from h)
theorem Sys2Proof.Laws.Entries.hostPortModeWrite (v : Word) : Sys2Proof.Laws.Entries.Statement (.hostPortModeWrite v) :=
  fun e h => nomatch (show (none : Option Sys2Proof.Entry) = some e from h)
theorem Sys2Proof.Laws.Entries.mbxDoorbellWrite (n : Fin 8) (v : Word) : Sys2Proof.Laws.Entries.Statement (.mbxDoorbellWrite n v) :=
  fun e h => nomatch (show (none : Option Sys2Proof.Entry) = some e from h)
theorem Sys2Proof.Laws.Entries.mbxCopy (n : Fin 8) : Sys2Proof.Laws.Entries.Statement (.mbxCopy n) :=
  fun e h => nomatch (show (none : Option Sys2Proof.Entry) = some e from h)
theorem Sys2Proof.Laws.Entries.cqHeadWrite (n : Fin 8) (v : Word) : Sys2Proof.Laws.Entries.Statement (.cqHeadWrite n v) :=
  fun e h => nomatch (show (none : Option Sys2Proof.Entry) = some e from h)
theorem Sys2Proof.Laws.Entries.irqStatusWrite (v : Word) : Sys2Proof.Laws.Entries.Statement (.irqStatusWrite v) :=
  fun e h => nomatch (show (none : Option Sys2Proof.Entry) = some e from h)
theorem Sys2Proof.Laws.Entries.registerWrite (a : RegAddr) (v : Word) : Sys2Proof.Laws.Entries.Statement (.registerWrite a v) :=
  fun e h => nomatch (show (none : Option Sys2Proof.Entry) = some e from h)
theorem Sys2Proof.Laws.Entries.rcFieldRead (a : RegAddr) : Sys2Proof.Laws.Entries.Statement (.rcFieldRead a) :=
  fun e h => nomatch (show (none : Option Sys2Proof.Entry) = some e from h)
theorem Sys2Proof.Laws.Entries.latchingLoRead (a : RegAddr) : Sys2Proof.Laws.Entries.Statement (.latchingLoRead a) :=
  fun e h => nomatch (show (none : Option Sys2Proof.Entry) = some e from h)
theorem Sys2Proof.Laws.Entries.sysNop (e : Entry) : Sys2Proof.Laws.Entries.Statement (.sysNop e) :=
  fun _ h => Option.some.inj h ▸ rfl
theorem Sys2Proof.Laws.Entries.sysStatus (e : Entry) : Sys2Proof.Laws.Entries.Statement (.sysStatus e) :=
  fun _ h => Option.some.inj h ▸ rfl
theorem Sys2Proof.Laws.Entries.sysReset (e : Entry) : Sys2Proof.Laws.Entries.Statement (.sysReset e) :=
  fun _ h => Option.some.inj h ▸ rfl
theorem Sys2Proof.Laws.Entries.sysResetDelayExpiry : Sys2Proof.Laws.Entries.Statement (.sysResetDelayExpiry) :=
  fun e h => nomatch (show (none : Option Sys2Proof.Entry) = some e from h)
theorem Sys2Proof.Laws.Entries.sysPark (e : Entry) : Sys2Proof.Laws.Entries.Statement (.sysPark e) :=
  fun _ h => Option.some.inj h ▸ rfl
theorem Sys2Proof.Laws.Entries.parkEntry : Sys2Proof.Laws.Entries.Statement (.parkEntry) :=
  fun e h => nomatch (show (none : Option Sys2Proof.Entry) = some e from h)
theorem Sys2Proof.Laws.Entries.wakeComplete : Sys2Proof.Laws.Entries.Statement (.wakeComplete) :=
  fun e h => nomatch (show (none : Option Sys2Proof.Entry) = some e from h)
theorem Sys2Proof.Laws.Entries.schedLoad (e : Entry) : Sys2Proof.Laws.Entries.Statement (.schedLoad e) :=
  fun _ h => Option.some.inj h ▸ rfl
theorem Sys2Proof.Laws.Entries.schedStart (e : Entry) : Sys2Proof.Laws.Entries.Statement (.schedStart e) :=
  fun _ h => Option.some.inj h ▸ rfl
theorem Sys2Proof.Laws.Entries.schedStop (e : Entry) : Sys2Proof.Laws.Entries.Statement (.schedStop e) :=
  fun _ h => Option.some.inj h ▸ rfl
theorem Sys2Proof.Laws.Entries.schedSelect (e : Entry) : Sys2Proof.Laws.Entries.Statement (.schedSelect e) :=
  fun _ h => Option.some.inj h ▸ rfl
theorem Sys2Proof.Laws.Entries.schedUnload (e : Entry) : Sys2Proof.Laws.Entries.Statement (.schedUnload e) :=
  fun _ h => Option.some.inj h ▸ rfl
theorem Sys2Proof.Laws.Entries.schedStatus (e : Entry) : Sys2Proof.Laws.Entries.Statement (.schedStatus e) :=
  fun _ h => Option.some.inj h ▸ rfl
theorem Sys2Proof.Laws.Entries.partGrant (e : Entry) : Sys2Proof.Laws.Entries.Statement (.partGrant e) :=
  fun _ h => Option.some.inj h ▸ rfl
theorem Sys2Proof.Laws.Entries.partRelease (e : Entry) : Sys2Proof.Laws.Entries.Statement (.partRelease e) :=
  fun _ h => Option.some.inj h ▸ rfl
theorem Sys2Proof.Laws.Entries.partStatus (e : Entry) : Sys2Proof.Laws.Entries.Statement (.partStatus e) :=
  fun _ h => Option.some.inj h ▸ rfl
theorem Sys2Proof.Laws.Entries.partScrubDone (p : Fin 4) : Sys2Proof.Laws.Entries.Statement (.partScrubDone p) :=
  fun e h => nomatch (show (none : Option Sys2Proof.Entry) = some e from h)
theorem Sys2Proof.Laws.Entries.keyRotate (e : Entry) : Sys2Proof.Laws.Entries.Statement (.keyRotate e) :=
  fun _ h => Option.some.inj h ▸ rfl
theorem Sys2Proof.Laws.Entries.keyStatus (e : Entry) : Sys2Proof.Laws.Entries.Statement (.keyStatus e) :=
  fun _ h => Option.some.inj h ▸ rfl
theorem Sys2Proof.Laws.Entries.attestReport (e : Entry) : Sys2Proof.Laws.Entries.Statement (.attestReport e) :=
  fun _ h => Option.some.inj h ▸ rfl
theorem Sys2Proof.Laws.Entries.attestCerts (e : Entry) : Sys2Proof.Laws.Entries.Statement (.attestCerts e) :=
  fun _ h => Option.some.inj h ▸ rfl
theorem Sys2Proof.Laws.Entries.fwWrite (e : Entry) : Sys2Proof.Laws.Entries.Statement (.fwWrite e) :=
  fun _ h => Option.some.inj h ▸ rfl
theorem Sys2Proof.Laws.Entries.fwActivate (e : Entry) : Sys2Proof.Laws.Entries.Statement (.fwActivate e) :=
  fun _ h => Option.some.inj h ▸ rfl
theorem Sys2Proof.Laws.Entries.fwStatus (e : Entry) : Sys2Proof.Laws.Entries.Statement (.fwStatus e) :=
  fun _ h => Option.some.inj h ▸ rfl
theorem Sys2Proof.Laws.Entries.pwrCap (e : Entry) : Sys2Proof.Laws.Entries.Statement (.pwrCap e) :=
  fun _ h => Option.some.inj h ▸ rfl
theorem Sys2Proof.Laws.Entries.pwrStatus (e : Entry) : Sys2Proof.Laws.Entries.Statement (.pwrStatus e) :=
  fun _ h => Option.some.inj h ▸ rfl
theorem Sys2Proof.Laws.Entries.recSubscribe (e : Entry) : Sys2Proof.Laws.Entries.Statement (.recSubscribe e) :=
  fun _ h => Option.some.inj h ▸ rfl
theorem Sys2Proof.Laws.Entries.recRead (e : Entry) : Sys2Proof.Laws.Entries.Statement (.recRead e) :=
  fun _ h => Option.some.inj h ▸ rfl
theorem Sys2Proof.Laws.Entries.diagEcho (e : Entry) : Sys2Proof.Laws.Entries.Statement (.diagEcho e) :=
  fun _ h => Option.some.inj h ▸ rfl
theorem Sys2Proof.Laws.Entries.diagReadBlock (e : Entry) : Sys2Proof.Laws.Entries.Statement (.diagReadBlock e) :=
  fun _ h => Option.some.inj h ▸ rfl
theorem Sys2Proof.Laws.Entries.streamConfig (e : Entry) : Sys2Proof.Laws.Entries.Statement (.streamConfig e) :=
  fun _ h => Option.some.inj h ▸ rfl
theorem Sys2Proof.Laws.Entries.streamCommit (e : Entry) : Sys2Proof.Laws.Entries.Statement (.streamCommit e) :=
  fun _ h => Option.some.inj h ▸ rfl
theorem Sys2Proof.Laws.Entries.streamStatus (e : Entry) : Sys2Proof.Laws.Entries.Statement (.streamStatus e) :=
  fun _ h => Option.some.inj h ▸ rfl
theorem Sys2Proof.Laws.Entries.streamIfeConfig (e : Entry) : Sys2Proof.Laws.Entries.Statement (.streamIfeConfig e) :=
  fun _ h => Option.some.inj h ▸ rfl
theorem Sys2Proof.Laws.Entries.streamSync (e : Entry) : Sys2Proof.Laws.Entries.Statement (.streamSync e) :=
  fun _ h => Option.some.inj h ▸ rfl
theorem Sys2Proof.Laws.Entries.streamSyncMode (e : Entry) : Sys2Proof.Laws.Entries.Statement (.streamSyncMode e) :=
  fun _ h => Option.some.inj h ▸ rfl
theorem Sys2Proof.Laws.Entries.timeConfig (e : Entry) : Sys2Proof.Laws.Entries.Statement (.timeConfig e) :=
  fun _ h => Option.some.inj h ▸ rfl
theorem Sys2Proof.Laws.Entries.timeAlign (e : Entry) : Sys2Proof.Laws.Entries.Statement (.timeAlign e) :=
  fun _ h => Option.some.inj h ▸ rfl
theorem Sys2Proof.Laws.Entries.timeSelect (e : Entry) : Sys2Proof.Laws.Entries.Statement (.timeSelect e) :=
  fun _ h => Option.some.inj h ▸ rfl
theorem Sys2Proof.Laws.Entries.timeGet (e : Entry) : Sys2Proof.Laws.Entries.Statement (.timeGet e) :=
  fun _ h => Option.some.inj h ▸ rfl
theorem Sys2Proof.Laws.Entries.timeTrigSet (e : Entry) : Sys2Proof.Laws.Entries.Statement (.timeTrigSet e) :=
  fun _ h => Option.some.inj h ▸ rfl
theorem Sys2Proof.Laws.Entries.timeSetTod (e : Entry) : Sys2Proof.Laws.Entries.Statement (.timeSetTod e) :=
  fun _ h => Option.some.inj h ▸ rfl
theorem Sys2Proof.Laws.Entries.poseInit (e : Entry) : Sys2Proof.Laws.Entries.Statement (.poseInit e) :=
  fun _ h => Option.some.inj h ▸ rfl
theorem Sys2Proof.Laws.Entries.poseAlignDone : Sys2Proof.Laws.Entries.Statement (.poseAlignDone) :=
  fun e h => nomatch (show (none : Option Sys2Proof.Entry) = some e from h)
theorem Sys2Proof.Laws.Entries.poseConfig (e : Entry) : Sys2Proof.Laws.Entries.Statement (.poseConfig e) :=
  fun _ h => Option.some.inj h ▸ rfl
theorem Sys2Proof.Laws.Entries.poseSubscribe (e : Entry) : Sys2Proof.Laws.Entries.Statement (.poseSubscribe e) :=
  fun _ h => Option.some.inj h ▸ rfl
theorem Sys2Proof.Laws.Entries.poseGet (e : Entry) : Sys2Proof.Laws.Entries.Statement (.poseGet e) :=
  fun _ h => Option.some.inj h ▸ rfl
theorem Sys2Proof.Laws.Entries.trackRead (e : Entry) : Sys2Proof.Laws.Entries.Statement (.trackRead e) :=
  fun _ h => Option.some.inj h ▸ rfl
theorem Sys2Proof.Laws.Entries.trackDelete (e : Entry) : Sys2Proof.Laws.Entries.Statement (.trackDelete e) :=
  fun _ h => Option.some.inj h ▸ rfl
theorem Sys2Proof.Laws.Entries.trackList (e : Entry) : Sys2Proof.Laws.Entries.Statement (.trackList e) :=
  fun _ h => Option.some.inj h ▸ rfl
theorem Sys2Proof.Laws.Entries.mapConfig (e : Entry) : Sys2Proof.Laws.Entries.Statement (.mapConfig e) :=
  fun _ h => Option.some.inj h ▸ rfl
theorem Sys2Proof.Laws.Entries.mapTrain (e : Entry) : Sys2Proof.Laws.Entries.Statement (.mapTrain e) :=
  fun _ h => Option.some.inj h ▸ rfl
theorem Sys2Proof.Laws.Entries.mapAcreDelete (e : Entry) : Sys2Proof.Laws.Entries.Statement (.mapAcreDelete e) :=
  fun _ h => Option.some.inj h ▸ rfl
theorem Sys2Proof.Laws.Entries.mapStatus (e : Entry) : Sys2Proof.Laws.Entries.Statement (.mapStatus e) :=
  fun _ h => Option.some.inj h ▸ rfl
theorem Sys2Proof.Laws.Entries.placeCreate (e : Entry) : Sys2Proof.Laws.Entries.Statement (.placeCreate e) :=
  fun _ h => Option.some.inj h ▸ rfl
theorem Sys2Proof.Laws.Entries.placeQuery (e : Entry) : Sys2Proof.Laws.Entries.Statement (.placeQuery e) :=
  fun _ h => Option.some.inj h ▸ rfl
theorem Sys2Proof.Laws.Entries.placeInsert (e : Entry) : Sys2Proof.Laws.Entries.Statement (.placeInsert e) :=
  fun _ h => Option.some.inj h ▸ rfl
theorem Sys2Proof.Laws.Entries.placeDelete (e : Entry) : Sys2Proof.Laws.Entries.Statement (.placeDelete e) :=
  fun _ h => Option.some.inj h ▸ rfl
theorem Sys2Proof.Laws.Entries.placeCompact (e : Entry) : Sys2Proof.Laws.Entries.Statement (.placeCompact e) :=
  fun _ h => Option.some.inj h ▸ rfl
theorem Sys2Proof.Laws.Entries.placeDestroy (e : Entry) : Sys2Proof.Laws.Entries.Statement (.placeDestroy e) :=
  fun _ h => Option.some.inj h ▸ rfl
theorem Sys2Proof.Laws.Entries.placeStatus (e : Entry) : Sys2Proof.Laws.Entries.Statement (.placeStatus e) :=
  fun _ h => Option.some.inj h ▸ rfl
theorem Sys2Proof.Laws.Entries.sceneLastSeen (e : Entry) : Sys2Proof.Laws.Entries.Statement (.sceneLastSeen e) :=
  fun _ h => Option.some.inj h ▸ rfl
theorem Sys2Proof.Laws.Entries.sceneResemble (e : Entry) : Sys2Proof.Laws.Entries.Statement (.sceneResemble e) :=
  fun _ h => Option.some.inj h ▸ rfl
theorem Sys2Proof.Laws.Entries.sceneInRegion (e : Entry) : Sys2Proof.Laws.Entries.Statement (.sceneInRegion e) :=
  fun _ h => Option.some.inj h ▸ rfl
theorem Sys2Proof.Laws.Entries.modelLoad (e : Entry) : Sys2Proof.Laws.Entries.Statement (.modelLoad e) :=
  fun _ h => Option.some.inj h ▸ rfl
theorem Sys2Proof.Laws.Entries.modelInfo (e : Entry) : Sys2Proof.Laws.Entries.Statement (.modelInfo e) :=
  fun _ h => Option.some.inj h ▸ rfl
theorem Sys2Proof.Laws.Entries.objLoad (e : Entry) : Sys2Proof.Laws.Entries.Statement (.objLoad e) :=
  fun _ h => Option.some.inj h ▸ rfl
theorem Sys2Proof.Laws.Entries.objPlace (e : Entry) : Sys2Proof.Laws.Entries.Statement (.objPlace e) :=
  fun _ h => Option.some.inj h ▸ rfl
theorem Sys2Proof.Laws.Entries.objPromote (e : Entry) : Sys2Proof.Laws.Entries.Statement (.objPromote e) :=
  fun _ h => Option.some.inj h ▸ rfl
theorem Sys2Proof.Laws.Entries.objPin (e : Entry) : Sys2Proof.Laws.Entries.Statement (.objPin e) :=
  fun _ h => Option.some.inj h ▸ rfl
theorem Sys2Proof.Laws.Entries.objUnpin (e : Entry) : Sys2Proof.Laws.Entries.Statement (.objUnpin e) :=
  fun _ h => Option.some.inj h ▸ rfl
theorem Sys2Proof.Laws.Entries.objEvict (e : Entry) : Sys2Proof.Laws.Entries.Statement (.objEvict e) :=
  fun _ h => Option.some.inj h ▸ rfl
theorem Sys2Proof.Laws.Entries.objUnload (e : Entry) : Sys2Proof.Laws.Entries.Statement (.objUnload e) :=
  fun _ h => Option.some.inj h ▸ rfl
theorem Sys2Proof.Laws.Entries.objStatus (e : Entry) : Sys2Proof.Laws.Entries.Statement (.objStatus e) :=
  fun _ h => Option.some.inj h ▸ rfl
theorem Sys2Proof.Laws.Entries.nop (t : Target) : Sys2Proof.Laws.Entries.Statement (.nop t) :=
  fun e h => nomatch (show (none : Option Sys2Proof.Entry) = some e from h)
theorem Sys2Proof.Laws.Entries.waitOp (t : Target) : Sys2Proof.Laws.Entries.Statement (.waitOp t) :=
  fun e h => nomatch (show (none : Option Sys2Proof.Entry) = some e from h)
theorem Sys2Proof.Laws.Entries.setf (t : Target) : Sys2Proof.Laws.Entries.Statement (.setf t) :=
  fun e h => nomatch (show (none : Option Sys2Proof.Entry) = some e from h)
theorem Sys2Proof.Laws.Entries.barrier (t : Target) : Sys2Proof.Laws.Entries.Statement (.barrier t) :=
  fun e h => nomatch (show (none : Option Sys2Proof.Entry) = some e from h)
theorem Sys2Proof.Laws.Entries.dma (t : Target) (chk : Check) : Sys2Proof.Laws.Entries.Statement (.dma t chk) :=
  fun e h => nomatch (show (none : Option Sys2Proof.Entry) = some e from h)
theorem Sys2Proof.Laws.Entries.endOp (t : Target) : Sys2Proof.Laws.Entries.Statement (.endOp t) :=
  fun e h => nomatch (show (none : Option Sys2Proof.Entry) = some e from h)
theorem Sys2Proof.Laws.Entries.opComplete (t : Target) (u : OpUnit) : Sys2Proof.Laws.Entries.Statement (.opComplete t u) :=
  fun e h => nomatch (show (none : Option Sys2Proof.Entry) = some e from h)
theorem Sys2Proof.Laws.Entries.opVoidSkip (t : Target) : Sys2Proof.Laws.Entries.Statement (.opVoidSkip t) :=
  fun e h => nomatch (show (none : Option Sys2Proof.Entry) = some e from h)
theorem Sys2Proof.Laws.Entries.schedOverrun (t : Target) : Sys2Proof.Laws.Entries.Statement (.schedOverrun t) :=
  fun e h => nomatch (show (none : Option Sys2Proof.Entry) = some e from h)
theorem Sys2Proof.Laws.Entries.ballastRampStart : Sys2Proof.Laws.Entries.Statement (.ballastRampStart) :=
  fun e h => nomatch (show (none : Option Sys2Proof.Entry) = some e from h)
theorem Sys2Proof.Laws.Entries.schedLatch : Sys2Proof.Laws.Entries.Statement (.schedLatch) :=
  fun e h => nomatch (show (none : Option Sys2Proof.Entry) = some e from h)
theorem Sys2Proof.Laws.Entries.spanBoundary : Sys2Proof.Laws.Entries.Statement (.spanBoundary) :=
  fun e h => nomatch (show (none : Option Sys2Proof.Entry) = some e from h)
theorem Sys2Proof.Laws.Entries.timeCycle (n : Nat) : Sys2Proof.Laws.Entries.Statement (.timeCycle n) :=
  fun e h => nomatch (show (none : Option Sys2Proof.Entry) = some e from h)
theorem Sys2Proof.Laws.Entries.tbOffsetHiWrite (b : Base) (v : Word) : Sys2Proof.Laws.Entries.Statement (.tbOffsetHiWrite b v) :=
  fun e h => nomatch (show (none : Option Sys2Proof.Entry) = some e from h)
theorem Sys2Proof.Laws.Entries.baseTimeout (b : Base) : Sys2Proof.Laws.Entries.Statement (.baseTimeout b) :=
  fun e h => nomatch (show (none : Option Sys2Proof.Entry) = some e from h)
theorem Sys2Proof.Laws.Entries.ppsInEdge : Sys2Proof.Laws.Entries.Statement (.ppsInEdge) :=
  fun e h => nomatch (show (none : Option Sys2Proof.Entry) = some e from h)
theorem Sys2Proof.Laws.Entries.ppsLost : Sys2Proof.Laws.Entries.Statement (.ppsLost) :=
  fun e h => nomatch (show (none : Option Sys2Proof.Entry) = some e from h)
theorem Sys2Proof.Laws.Entries.trigPulseStart (n : Fin 16) : Sys2Proof.Laws.Entries.Statement (.trigPulseStart n) :=
  fun e h => nomatch (show (none : Option Sys2Proof.Entry) = some e from h)
theorem Sys2Proof.Laws.Entries.trigPulseEnd (n : Fin 16) : Sys2Proof.Laws.Entries.Statement (.trigPulseEnd n) :=
  fun e h => nomatch (show (none : Option Sys2Proof.Entry) = some e from h)
theorem Sys2Proof.Laws.Entries.ppsOutEdge : Sys2Proof.Laws.Entries.Statement (.ppsOutEdge) :=
  fun e h => nomatch (show (none : Option Sys2Proof.Entry) = some e from h)
theorem Sys2Proof.Laws.Entries.ppsOutEnd : Sys2Proof.Laws.Entries.Statement (.ppsOutEnd) :=
  fun e h => nomatch (show (none : Option Sys2Proof.Entry) = some e from h)
theorem Sys2Proof.Laws.Entries.ethFrameReceive (p : EthPort) (frame : List Byte) (fcsOk : Bool) : Sys2Proof.Laws.Entries.Statement (.ethFrameReceive p frame fcsOk) :=
  fun e h => nomatch (show (none : Option Sys2Proof.Entry) = some e from h)
theorem Sys2Proof.Laws.Entries.bridgeForward (p : EthPort) (frame : List Byte) (residence : Nat) : Sys2Proof.Laws.Entries.Statement (.bridgeForward p frame residence) :=
  fun e h => nomatch (show (none : Option Sys2Proof.Entry) = some e from h)
theorem Sys2Proof.Laws.Entries.csi2FrameStart (g : Fin 4) (vc : Fin 16) : Sys2Proof.Laws.Entries.Statement (.csi2FrameStart g vc) :=
  fun e h => nomatch (show (none : Option Sys2Proof.Entry) = some e from h)
theorem Sys2Proof.Laws.Entries.csi2LongPacket (g : Fin 4) (vc : Fin 16) (dataType : Byte) (data : List Byte) (link : LinkCheck) : Sys2Proof.Laws.Entries.Statement (.csi2LongPacket g vc dataType data link) :=
  fun e h => nomatch (show (none : Option Sys2Proof.Entry) = some e from h)
theorem Sys2Proof.Laws.Entries.csi2FrameEnd (g : Fin 4) (vc : Fin 16) : Sys2Proof.Laws.Entries.Statement (.csi2FrameEnd g vc) :=
  fun e h => nomatch (show (none : Option Sys2Proof.Entry) = some e from h)
theorem Sys2Proof.Laws.Entries.drdyEdge (line : Fin 8) (rising : Bool) : Sys2Proof.Laws.Entries.Statement (.drdyEdge line rising) :=
  fun e h => nomatch (show (none : Option Sys2Proof.Entry) = some e from h)
theorem Sys2Proof.Laws.Entries.spiPollPeriod (ch : Fin 32) : Sys2Proof.Laws.Entries.Statement (.spiPollPeriod ch) :=
  fun e h => nomatch (show (none : Option Sys2Proof.Entry) = some e from h)
theorem Sys2Proof.Laws.Entries.spiTransactionDone (ctl : Fin 4) (data : List Byte) : Sys2Proof.Laws.Entries.Statement (.spiTransactionDone ctl data) :=
  fun e h => nomatch (show (none : Option Sys2Proof.Entry) = some e from h)
theorem Sys2Proof.Laws.Entries.ifeRecordComplete (n : Fin 4) : Sys2Proof.Laws.Entries.Statement (.ifeRecordComplete n) :=
  fun e h => nomatch (show (none : Option Sys2Proof.Entry) = some e from h)
theorem Sys2Proof.Laws.Entries.syncInRise : Sys2Proof.Laws.Entries.Statement (.syncInRise) :=
  fun e h => nomatch (show (none : Option Sys2Proof.Entry) = some e from h)
theorem Sys2Proof.Laws.Entries.syncInRelease : Sys2Proof.Laws.Entries.Statement (.syncInRelease) :=
  fun e h => nomatch (show (none : Option Sys2Proof.Entry) = some e from h)
theorem Sys2Proof.Laws.Entries.ifeSyncStuck : Sys2Proof.Laws.Entries.Statement (.ifeSyncStuck) :=
  fun e h => nomatch (show (none : Option Sys2Proof.Entry) = some e from h)
theorem Sys2Proof.Laws.Entries.encTransition (e : Fin 8) (a b : Bool) : Sys2Proof.Laws.Entries.Statement (.encTransition e a b) :=
  fun e h => nomatch (show (none : Option Sys2Proof.Entry) = some e from h)
theorem Sys2Proof.Laws.Entries.encZEdge (e : Fin 8) : Sys2Proof.Laws.Entries.Statement (.encZEdge e) :=
  fun e h => nomatch (show (none : Option Sys2Proof.Entry) = some e from h)
theorem Sys2Proof.Laws.Entries.encSample (e : Fin 8) : Sys2Proof.Laws.Entries.Statement (.encSample e) :=
  fun e h => nomatch (show (none : Option Sys2Proof.Entry) = some e from h)
theorem Sys2Proof.Laws.Entries.encRecordComplete (e : Fin 8) : Sys2Proof.Laws.Entries.Statement (.encRecordComplete e) :=
  fun e h => nomatch (show (none : Option Sys2Proof.Entry) = some e from h)
theorem Sys2Proof.Laws.Entries.take (p : Fin 4) : Sys2Proof.Laws.Entries.Statement (.take p) :=
  fun e h => nomatch (show (none : Option Sys2Proof.Entry) = some e from h)
theorem Sys2Proof.Laws.Entries.release (p : Fin 4) : Sys2Proof.Laws.Entries.Statement (.release p) :=
  fun e h => nomatch (show (none : Option Sys2Proof.Entry) = some e from h)
theorem Sys2Proof.Laws.Entries.ifeEmit : Sys2Proof.Laws.Entries.Statement (.ifeEmit) :=
  fun e h => nomatch (show (none : Option Sys2Proof.Entry) = some e from h)
theorem Sys2Proof.Laws.Entries.pwWarp : Sys2Proof.Laws.Entries.Statement (.pwWarp) :=
  fun e h => nomatch (show (none : Option Sys2Proof.Entry) = some e from h)
theorem Sys2Proof.Laws.Entries.pwPyramid : Sys2Proof.Laws.Entries.Statement (.pwPyramid) :=
  fun e h => nomatch (show (none : Option Sys2Proof.Entry) = some e from h)
theorem Sys2Proof.Laws.Entries.feDetect : Sys2Proof.Laws.Entries.Statement (.feDetect) :=
  fun e h => nomatch (show (none : Option Sys2Proof.Entry) = some e from h)
theorem Sys2Proof.Laws.Entries.trkRun : Sys2Proof.Laws.Entries.Statement (.trkRun) :=
  fun e h => nomatch (show (none : Option Sys2Proof.Entry) = some e from h)
theorem Sys2Proof.Laws.Entries.fthStripe : Sys2Proof.Laws.Entries.Statement (.fthStripe) :=
  fun e h => nomatch (show (none : Option Sys2Proof.Entry) = some e from h)
theorem Sys2Proof.Laws.Entries.arrMm (c : Fin 8) (chk : Check) : Sys2Proof.Laws.Entries.Statement (.arrMm c chk) :=
  fun e h => nomatch (show (none : Option Sys2Proof.Entry) = some e from h)
theorem Sys2Proof.Laws.Entries.arrConv (c : Fin 8) (chk : Check) : Sys2Proof.Laws.Entries.Statement (.arrConv c chk) :=
  fun e h => nomatch (show (none : Option Sys2Proof.Entry) = some e from h)
theorem Sys2Proof.Laws.Entries.vecOp (c : Fin 8) (chk : Check) : Sys2Proof.Laws.Entries.Statement (.vecOp c chk) :=
  fun e h => nomatch (show (none : Option Sys2Proof.Entry) = some e from h)
theorem Sys2Proof.Laws.Entries.fldRays (chk : Check) : Sys2Proof.Laws.Entries.Statement (.fldRays chk) :=
  fun e h => nomatch (show (none : Option Sys2Proof.Entry) = some e from h)
theorem Sys2Proof.Laws.Entries.fldGather (chk : Check) : Sys2Proof.Laws.Entries.Statement (.fldGather chk) :=
  fun e h => nomatch (show (none : Option Sys2Proof.Entry) = some e from h)
theorem Sys2Proof.Laws.Entries.fldComposite (chk : Check) : Sys2Proof.Laws.Entries.Statement (.fldComposite chk) :=
  fun e h => nomatch (show (none : Option Sys2Proof.Entry) = some e from h)
theorem Sys2Proof.Laws.Entries.fldScatter (chk : Check) : Sys2Proof.Laws.Entries.Statement (.fldScatter chk) :=
  fun e h => nomatch (show (none : Option Sys2Proof.Entry) = some e from h)
theorem Sys2Proof.Laws.Entries.fldAdam (chk : Check) : Sys2Proof.Laws.Entries.Statement (.fldAdam chk) :=
  fun e h => nomatch (show (none : Option Sys2Proof.Entry) = some e from h)
theorem Sys2Proof.Laws.Entries.fldCompare (chk : Check) : Sys2Proof.Laws.Entries.Statement (.fldCompare chk) :=
  fun e h => nomatch (show (none : Option Sys2Proof.Entry) = some e from h)
theorem Sys2Proof.Laws.Entries.fldReplay (chk : Check) : Sys2Proof.Laws.Entries.Statement (.fldReplay chk) :=
  fun e h => nomatch (show (none : Option Sys2Proof.Entry) = some e from h)
theorem Sys2Proof.Laws.Entries.fldSlotFill : Sys2Proof.Laws.Entries.Statement (.fldSlotFill) :=
  fun e h => nomatch (show (none : Option Sys2Proof.Entry) = some e from h)
theorem Sys2Proof.Laws.Entries.fldDirCommit : Sys2Proof.Laws.Entries.Statement (.fldDirCommit) :=
  fun e h => nomatch (show (none : Option Sys2Proof.Entry) = some e from h)
theorem Sys2Proof.Laws.Entries.fldAbsentClear : Sys2Proof.Laws.Entries.Statement (.fldAbsentClear) :=
  fun e h => nomatch (show (none : Option Sys2Proof.Entry) = some e from h)
theorem Sys2Proof.Laws.Entries.fusInertial : Sys2Proof.Laws.Entries.Statement (.fusInertial) :=
  fun e h => nomatch (show (none : Option Sys2Proof.Entry) = some e from h)
theorem Sys2Proof.Laws.Entries.inertialRecordPropagate (n : Fin 4) (chk : Check) : Sys2Proof.Laws.Entries.Statement (.inertialRecordPropagate n chk) :=
  fun e h => nomatch (show (none : Option Sys2Proof.Entry) = some e from h)
theorem Sys2Proof.Laws.Entries.fusUpdate (chk : Check) : Sys2Proof.Laws.Entries.Statement (.fusUpdate chk) :=
  fun e h => nomatch (show (none : Option Sys2Proof.Entry) = some e from h)
theorem Sys2Proof.Laws.Entries.fusTrackReq : Sys2Proof.Laws.Entries.Statement (.fusTrackReq) :=
  fun e h => nomatch (show (none : Option Sys2Proof.Entry) = some e from h)
theorem Sys2Proof.Laws.Entries.fusSeed : Sys2Proof.Laws.Entries.Statement (.fusSeed) :=
  fun e h => nomatch (show (none : Option Sys2Proof.Entry) = some e from h)
theorem Sys2Proof.Laws.Entries.fusProject : Sys2Proof.Laws.Entries.Statement (.fusProject) :=
  fun e h => nomatch (show (none : Option Sys2Proof.Entry) = some e from h)
theorem Sys2Proof.Laws.Entries.fusVote : Sys2Proof.Laws.Entries.Statement (.fusVote) :=
  fun e h => nomatch (show (none : Option Sys2Proof.Entry) = some e from h)
theorem Sys2Proof.Laws.Entries.fusReprop (chk : Check) : Sys2Proof.Laws.Entries.Statement (.fusReprop chk) :=
  fun e h => nomatch (show (none : Option Sys2Proof.Entry) = some e from h)
theorem Sys2Proof.Laws.Entries.fusPage : Sys2Proof.Laws.Entries.Statement (.fusPage) :=
  fun e h => nomatch (show (none : Option Sys2Proof.Entry) = some e from h)
theorem Sys2Proof.Laws.Entries.fusAnchor : Sys2Proof.Laws.Entries.Statement (.fusAnchor) :=
  fun e h => nomatch (show (none : Option Sys2Proof.Entry) = some e from h)
theorem Sys2Proof.Laws.Entries.poseGapExpiry : Sys2Proof.Laws.Entries.Statement (.poseGapExpiry) :=
  fun e h => nomatch (show (none : Option Sys2Proof.Entry) = some e from h)
theorem Sys2Proof.Laws.Entries.mportCsFall : Sys2Proof.Laws.Entries.Statement (.mportCsFall) :=
  fun e h => nomatch (show (none : Option Sys2Proof.Entry) = some e from h)
theorem Sys2Proof.Laws.Entries.mportReadPose (n : Nat) : Sys2Proof.Laws.Entries.Statement (.mportReadPose n) :=
  fun e h => nomatch (show (none : Option Sys2Proof.Entry) = some e from h)
theorem Sys2Proof.Laws.Entries.mportReadId (n : Nat) : Sys2Proof.Laws.Entries.Statement (.mportReadId n) :=
  fun e h => nomatch (show (none : Option Sys2Proof.Entry) = some e from h)
theorem Sys2Proof.Laws.Entries.mportOtherCommand (op : Byte) (n : Nat) : Sys2Proof.Laws.Entries.Statement (.mportOtherCommand op n) :=
  fun e h => nomatch (show (none : Option Sys2Proof.Entry) = some e from h)
theorem Sys2Proof.Laws.Entries.mportCsRise : Sys2Proof.Laws.Entries.Statement (.mportCsRise) :=
  fun e h => nomatch (show (none : Option Sys2Proof.Entry) = some e from h)
theorem Sys2Proof.Laws.Entries.slvWindow : Sys2Proof.Laws.Entries.Statement (.slvWindow) :=
  fun e h => nomatch (show (none : Option Sys2Proof.Entry) = some e from h)
theorem Sys2Proof.Laws.Entries.slvService : Sys2Proof.Laws.Entries.Statement (.slvService) :=
  fun e h => nomatch (show (none : Option Sys2Proof.Entry) = some e from h)
theorem Sys2Proof.Laws.Entries.slvCommit : Sys2Proof.Laws.Entries.Statement (.slvCommit) :=
  fun e h => nomatch (show (none : Option Sys2Proof.Entry) = some e from h)
theorem Sys2Proof.Laws.Entries.slvIterationEnd (chk : Check) : Sys2Proof.Laws.Entries.Statement (.slvIterationEnd chk) :=
  fun e h => nomatch (show (none : Option Sys2Proof.Entry) = some e from h)
theorem Sys2Proof.Laws.Entries.slvDeadlineMiss : Sys2Proof.Laws.Entries.Statement (.slvDeadlineMiss) :=
  fun e h => nomatch (show (none : Option Sys2Proof.Entry) = some e from h)
theorem Sys2Proof.Laws.Entries.slvWindowEnd : Sys2Proof.Laws.Entries.Statement (.slvWindowEnd) :=
  fun e h => nomatch (show (none : Option Sys2Proof.Entry) = some e from h)
theorem Sys2Proof.Laws.Entries.psService : Sys2Proof.Laws.Entries.Statement (.psService) :=
  fun e h => nomatch (show (none : Option Sys2Proof.Entry) = some e from h)
theorem Sys2Proof.Laws.Entries.psFile : Sys2Proof.Laws.Entries.Statement (.psFile) :=
  fun e h => nomatch (show (none : Option Sys2Proof.Entry) = some e from h)
theorem Sys2Proof.Laws.Entries.psWindowEnd : Sys2Proof.Laws.Entries.Statement (.psWindowEnd) :=
  fun e h => nomatch (show (none : Option Sys2Proof.Entry) = some e from h)
theorem Sys2Proof.Laws.Entries.psFlashBlocksLanded (q : Nat) (bad : List Nat) : Sys2Proof.Laws.Entries.Statement (.psFlashBlocksLanded q bad) :=
  fun e h => nomatch (show (none : Option Sys2Proof.Entry) = some e from h)
theorem Sys2Proof.Laws.Entries.psQueryComplete (q : Nat) (chk : Check) : Sys2Proof.Laws.Entries.Statement (.psQueryComplete q chk) :=
  fun e h => nomatch (show (none : Option Sys2Proof.Entry) = some e from h)
theorem Sys2Proof.Laws.Entries.psQueryExpired (q : Nat) : Sys2Proof.Laws.Entries.Statement (.psQueryExpired q) :=
  fun e h => nomatch (show (none : Option Sys2Proof.Entry) = some e from h)
theorem Sys2Proof.Laws.Entries.psInsertDone (i : Fin 16) (chk : Check) : Sys2Proof.Laws.Entries.Statement (.psInsertDone i chk) :=
  fun e h => nomatch (show (none : Option Sys2Proof.Entry) = some e from h)
theorem Sys2Proof.Laws.Entries.mvWindow : Sys2Proof.Laws.Entries.Statement (.mvWindow) :=
  fun e h => nomatch (show (none : Option Sys2Proof.Entry) = some e from h)
theorem Sys2Proof.Laws.Entries.moverTransferDone : Sys2Proof.Laws.Entries.Statement (.moverTransferDone) :=
  fun e h => nomatch (show (none : Option Sys2Proof.Entry) = some e from h)
theorem Sys2Proof.Laws.Entries.flashReadComplete (r : FlashRead) : Sys2Proof.Laws.Entries.Statement (.flashReadComplete r) :=
  fun e h => nomatch (show (none : Option Sys2Proof.Entry) = some e from h)
theorem Sys2Proof.Laws.Entries.flashProgramComplete (ok : Bool) : Sys2Proof.Laws.Entries.Statement (.flashProgramComplete ok) :=
  fun e h => nomatch (show (none : Option Sys2Proof.Entry) = some e from h)
theorem Sys2Proof.Laws.Entries.flashBackgroundRelocate (die : Nat) (block : Nat) : Sys2Proof.Laws.Entries.Statement (.flashBackgroundRelocate die block) :=
  fun e h => nomatch (show (none : Option Sys2Proof.Entry) = some e from h)
theorem Sys2Proof.Laws.Entries.flashSpareLow : Sys2Proof.Laws.Entries.Statement (.flashSpareLow) :=
  fun e h => nomatch (show (none : Option Sys2Proof.Entry) = some e from h)
theorem Sys2Proof.Laws.Entries.patrolScrubStep (e : LineCheck) : Sys2Proof.Laws.Entries.Statement (.patrolScrubStep e) :=
  fun e h => nomatch (show (none : Option Sys2Proof.Entry) = some e from h)
theorem Sys2Proof.Laws.Entries.pmbusPoll (answered : Bool) (mv : Half) (ma : Word) : Sys2Proof.Laws.Entries.Statement (.pmbusPoll answered mv ma) :=
  fun e h => nomatch (show (none : Option Sys2Proof.Entry) = some e from h)
theorem Sys2Proof.Laws.Entries.thermalConversion (n : Fin 24) (t : Half) : Sys2Proof.Laws.Entries.Statement (.thermalConversion n t) :=
  fun e h => nomatch (show (none : Option Sys2Proof.Entry) = some e from h)
theorem Sys2Proof.Laws.Entries.pwrThermRelease : Sys2Proof.Laws.Entries.Statement (.pwrThermRelease) :=
  fun e h => nomatch (show (none : Option Sys2Proof.Entry) = some e from h)
theorem Sys2Proof.Laws.Entries.pwrLimitAssert : Sys2Proof.Laws.Entries.Statement (.pwrLimitAssert) :=
  fun e h => nomatch (show (none : Option Sys2Proof.Entry) = some e from h)
theorem Sys2Proof.Laws.Entries.pwrLimitRelease : Sys2Proof.Laws.Entries.Statement (.pwrLimitRelease) :=
  fun e h => nomatch (show (none : Option Sys2Proof.Entry) = some e from h)
theorem Sys2Proof.Laws.Entries.pwrMonAlarm (m : Fin 48) : Sys2Proof.Laws.Entries.Statement (.pwrMonAlarm m) :=
  fun e h => nomatch (show (none : Option Sys2Proof.Entry) = some e from h)
theorem Sys2Proof.Laws.Entries.pwrMarginTrim : Sys2Proof.Laws.Entries.Statement (.pwrMarginTrim) :=
  fun e h => nomatch (show (none : Option Sys2Proof.Entry) = some e from h)
theorem Sys2Proof.Laws.Entries.linkCrcMismatch (link : Fin 96) : Sys2Proof.Laws.Entries.Statement (.linkCrcMismatch link) :=
  fun e h => nomatch (show (none : Option Sys2Proof.Entry) = some e from h)
theorem Sys2Proof.Laws.Entries.faultFwPanic (cp : Fin 2) (code : Word) : Sys2Proof.Laws.Entries.Statement (.faultFwPanic cp code) :=
  fun e h => nomatch (show (none : Option Sys2Proof.Entry) = some e from h)
theorem Sys2Proof.Laws.Entries.recFwStage (cp : Fin 2) (v : Word) : Sys2Proof.Laws.Entries.Statement (.recFwStage cp v) :=
  fun e h => nomatch (show (none : Option Sys2Proof.Entry) = some e from h)
theorem Sys2Proof.Laws.Entries.eventRecordWrite (chk : Check) : Sys2Proof.Laws.Entries.Statement (.eventRecordWrite chk) :=
  fun e h => nomatch (show (none : Option Sys2Proof.Entry) = some e from h)
theorem Sys2Proof.Laws.Entries.recArchived : Sys2Proof.Laws.Entries.Statement (.recArchived) :=
  fun e h => nomatch (show (none : Option Sys2Proof.Entry) = some e from h)
theorem Sys2Proof.Laws.Entries.poresetAssert : Sys2Proof.Laws.Entries.Statement (.poresetAssert) :=
  fun e h => nomatch (show (none : Option Sys2Proof.Entry) = some e from h)
theorem Sys2Proof.Laws.Entries.poresetRelease (bootSrc : BitVec 2) : Sys2Proof.Laws.Entries.Statement (.poresetRelease bootSrc) :=
  fun e h => nomatch (show (none : Option Sys2Proof.Entry) = some e from h)
theorem Sys2Proof.Laws.Entries.hostPortReady : Sys2Proof.Laws.Entries.Statement (.hostPortReady) :=
  fun e h => nomatch (show (none : Option Sys2Proof.Entry) = some e from h)
theorem Sys2Proof.Laws.Entries.bootRomDone (pmbusAck rngOk : Bool) : Sys2Proof.Laws.Entries.Statement (.bootRomDone pmbusAck rngOk) :=
  fun e h => nomatch (show (none : Option Sys2Proof.Entry) = some e from h)
theorem Sys2Proof.Laws.Entries.dramInitDone : Sys2Proof.Laws.Entries.Statement (.dramInitDone) :=
  fun e h => nomatch (show (none : Option Sys2Proof.Entry) = some e from h)
theorem Sys2Proof.Laws.Entries.firmwareVerified : Sys2Proof.Laws.Entries.Statement (.firmwareVerified) :=
  fun e h => nomatch (show (none : Option Sys2Proof.Entry) = some e from h)
theorem Sys2Proof.Laws.Entries.enterReady : Sys2Proof.Laws.Entries.Statement (.enterReady) :=
  fun e h => nomatch (show (none : Option Sys2Proof.Entry) = some e from h)
theorem Sys2Proof.Laws.Entries.sysresetAssert : Sys2Proof.Laws.Entries.Statement (.sysresetAssert) :=
  fun e h => nomatch (show (none : Option Sys2Proof.Entry) = some e from h)
theorem Sys2Proof.Laws.Entries.sysresetRelease : Sys2Proof.Laws.Entries.Statement (.sysresetRelease) :=
  fun e h => nomatch (show (none : Option Sys2Proof.Entry) = some e from h)
theorem Sys2Proof.Laws.Entries.watchdogRefresh (cp : Fin 2) : Sys2Proof.Laws.Entries.Statement (.watchdogRefresh cp) :=
  fun e h => nomatch (show (none : Option Sys2Proof.Entry) = some e from h)
theorem Sys2Proof.Laws.Entries.watchdogExpiry (cp : Fin 2) : Sys2Proof.Laws.Entries.Statement (.watchdogExpiry cp) :=
  fun e h => nomatch (show (none : Option Sys2Proof.Entry) = some e from h)
theorem Sys2Proof.Laws.Entries.railPowerLoss : Sys2Proof.Laws.Entries.Statement (.railPowerLoss) :=
  fun e h => nomatch (show (none : Option Sys2Proof.Entry) = some e from h)
theorem Sys2Proof.Laws.Entries.railPowerUp : Sys2Proof.Laws.Entries.Statement (.railPowerUp) :=
  fun e h => nomatch (show (none : Option Sys2Proof.Entry) = some e from h)
theorem Sys2Proof.Laws.Entries.jtagChallengeRead : Sys2Proof.Laws.Entries.Statement (.jtagChallengeRead) :=
  fun e h => nomatch (show (none : Option Sys2Proof.Entry) = some e from h)
theorem Sys2Proof.Laws.Entries.debugTokenWrite (token : List Byte) : Sys2Proof.Laws.Entries.Statement (.debugTokenWrite token) :=
  fun e h => nomatch (show (none : Option Sys2Proof.Entry) = some e from h)
theorem Sys2Proof.Laws.Entries.graphScheduleCompiled : Sys2Proof.Laws.Entries.Statement (.graphScheduleCompiled) :=
  fun e h => nomatch (show (none : Option Sys2Proof.Entry) = some e from h)
theorem Sys2Proof.Laws.Entries.debugHaltAndStep (cp : Fin 2) (act : DebugAct) : Sys2Proof.Laws.Entries.Statement (.debugHaltAndStep cp act) :=
  fun e h => nomatch (show (none : Option Sys2Proof.Entry) = some e from h)
end

