-- ==== Sys2Proof/Laws/Sequencer.lean ====
section
/-!
SUPPORT. What the shared operations of the sequencers can do: each lemma says once what an operation moves and that it leaves the rest.
-/
namespace Sys2Proof.Machine

/-- An operation that issues runs its continuation on the state that the issue leaves. -/
theorem State.tryIssue_of_issues {s : State} {t : Target} {code : Nat} {u : Option OpUnit} {n : NextOp} (k : NextOp → State → State)
    (h : s.Issues t code u n) : s.tryIssue t code u k = k n (s.issued t n.op) := by
  obtain ⟨h1, h2, h3⟩ := h
  unfold State.tryIssue
  simp [h1, h2, h3]

/-- A fold keeps what each of its steps keeps. -/
theorem foldl_keeps {α β γ : Type} (P : α → β) (f : α → γ → α) (h : ∀ a x, P (f a x) = P a) (l : List γ) (a : α) :
    P (l.foldl f a) = P a := by
  induction l generalizing a with
  | nil => rfl
  | cons x l ih => simp [ih, h]

/-- A state that differs in the stream manager alone. -/
theorem State.eq_of_sm {s a : State} (h : { a with sm := s.sm } = s) : a = { s with sm := a.sm } := by rw [← h]
/-- A state that differs in the recorder alone. -/
theorem State.eq_of_evr {s a : State} (h : { a with evr := s.evr } = s) : a = { s with evr := a.evr } := by rw [← h]

/-- Noting the wait of a channel's flag moves nothing but the stream manager. -/
theorem State.holdWaited_frame (s : State) (o : Op) : { s.holdWaited o with sm := s.sm } = s := by
  have key : ({ s.holdWaited o with sm := s.sm } : State) = { s with sm := s.sm } := by
    unfold State.holdWaited
    split
    · rfl
    · exact foldl_keeps (fun a : State => ({ a with sm := s.sm } : State)) _ (fun a x => by simp only []; split <;> rfl) _ _
  exact key

/-- The issue of an operation of an engine: the section moves on by one, no unit starts, and only the sequencer, the flags and the
stream manager change; without `CLEAR_ON_ISSUE` the flags stay. -/
theorem State.issued_frame (s : State) (t : Target) (o : Op) (h : ∀ c, t ≠ .core c) :
    { s.issued t o with sched := s.sched, flags := s.flags, sm := s.sm } = s
      ∧ ((s.issued t o).seq t).next = (s.seq t).next + 1 ∧ ((s.issued t o).seq t).running = (s.seq t).running
      ∧ (o.clearOnIssue = false → (s.issued t o).flags = s.flags) := by
  have e : s.issued t o = ((s.holdWaited o).clearOnIssue o).onSeq t fun q => { q with
      next := q.next + 1, waitNs := q.waitNs + (s.dtNs - s.holdFrom t o)
      readyDt := max q.readyDt ((s.holdWaited o).clearOnIssue o).dtNs } := by
    unfold State.issued State.fillerOff
    cases t <;> simp_all
  rw [e, State.eq_of_sm (State.holdWaited_frame s o)]
  unfold State.clearOnIssue State.onSeq State.clearFlag State.updSeq State.seq
  refine ⟨?_, ?_, ?_, ?_⟩
  · split <;> simp
  · split <;> simp
  · split <;> simp
  · intro h; simp [h]

/-- An event moves nothing but the recorder. -/
theorem State.event_frame (s : State) (source code a b c : Nat) : { s.event source code a b c with evr := s.evr } = s := by
  unfold State.event
  (repeat' split) <;> rfl
/-- The same as a rewriting. -/
theorem State.event_eq (s : State) (source code a b c : Nat) :
    s.event source code a b c = { s with evr := (s.event source code a b c).evr } :=
  State.eq_of_evr (State.event_frame s source code a b c)

/-- The checks after which the operation goes on. -/
theorem State.engineCheck_none_iff (s : State) (t : Target) (chk : Check) :
    (∃ a, s.engineCheck t chk = (none, a)) ↔ (chk = .clean ∨ chk = .sramCorrected ∨ ∃ x, chk = .dramCorrected x) := by
  cases chk <;> simp [State.engineCheck]
/-- Such a check moves nothing but the recorder and the memory tiers, and a clean one nothing. -/
theorem State.engineCheck_frame {s a : State} {t : Target} {chk : Check} (h : s.engineCheck t chk = (none, a)) :
    { a with evr := s.evr, mt := s.mt } = s ∧ (chk = .clean → a = s) := by
  cases chk <;> simp [State.engineCheck] at h <;> subst h <;> simp [State.sramCorrected, State.dramCorrected, State.retirePage]
  (repeat' split) <;> try rfl
  rw [State.event_eq]

/-- A start adds one operation to those that the sequencer's units run, and moves nothing else. -/
theorem State.startOp_frame (s : State) (t : Target) (n : NextOp) (u : OpUnit) (cycles : Nat) (w : List MemWrite) :
    { s.startOp t n u cycles w with sched := s.sched } = s ∧ ((s.startOp t n u cycles w).seq t).next = (s.seq t).next
      ∧ ∃ r : Running, ((s.startOp t n u cycles w).seq t).running = (s.seq t).running ++ [r] ∧ r.unit = u ∧ r.index = n.index
          ∧ r.op = n.op ∧ r.startDt = s.dtNs := by
  unfold State.startOp State.onSeq State.updSeq State.seq
  simp

end Sys2Proof.Machine
end

