-- ==== Sys2Proof/Tests/Slice0.lean ====
section
/-!
SUPPORT. Tests of the model. The smoke tests take their expected results from the spec. Each theorem `met_<name>` shows, for the
statement `Obligations.<name>`, states and operands that meet the hypotheses of its clauses. What cryptography says has no value in
the model (log 10), and a theorem about it takes its answer as a premise.
-/
namespace Sys2Proof.Tests
open Sys2Proof.Machine

/-! ## Helpers -/

/-- A device in READY whose mailbox 0 is OPEN for partition 0, with its window mapped. -/
def up : State :=
  { State.reset with
    pins := { State.reset.pins with poresetN := true, faultN := true }
    dev := { State.reset.dev with phase := .ready, fwUp := true, portUp := true, everReady := true }
    mbx := State.reset.mbx.set 0 { Mbx.reset with state := .opened, bulkMapped := true } }

/-- A command of mailbox 0 whose payload begins with the bytes, and is zero after them. -/
def cmd (p : List Byte) (len : Word) : Entry :=
  { mbx := 0, tag := 1, partition := 0, flags := 0, reserved := 0, bulkOffset := 0, bulkLength := len
    payload := p ++ List.replicate (240 - p.length) 0 }

/-- Firmware is free to take a command of mailbox 0. -/
def Free (s : State) : Prop :=
  s.dev.phase = .ready ∧ s.dev.cpHalted[0] = false ∧ s.mbx[(0 : Fin 8)].state = .opened ∧ s.mbx[(0 : Fin 8)].partition = 0
    ∧ s.mbx[(0 : Fin 8)].bulkMapped = true ∧ s.fw.queue = [] ∧ s.inFlight 0 < 64 ∧ (1 : Half) ∉ s.accepted 0

theorem getD_pad (p : List Byte) (n k : Nat) : (p ++ List.replicate n (0 : Byte)).getD k 0 = p.getD k 0 := by
  rw [List.getD_eq_getElem?_getD, List.getD_eq_getElem?_getD]
  by_cases hp : k < p.length
  · rw [List.getElem?_append_left hp]
  · rw [List.getElem?_append_right (by omega), List.getElem?_replicate, List.getElem?_eq_none (by omega)]
    split <;> rfl

theorem badByte_pad (f : CmdForm) (op : Nat) (p : List Byte) (n : Nat) (h : f.badByte op p = none) :
    f.badByte op (p ++ List.replicate n 0) = none := by
  simp only [CmdForm.badByte, CmdForm.reservedBits, fieldReserved, Option.map_eq_none_iff, List.find?_eq_none, List.mem_range,
    getD_pad] at h ⊢
  intro k hk
  by_cases hp : k < p.length
  · exact h k hp
  · rw [List.getD_eq_getElem?_getD (l := p), List.getElem?_eq_none (by omega)]
    simp

/-- A command with a correct payload and bulk range is accepted at once. -/
theorem taken {s : State} (hs : Free s) (op : Nat) (f : CmdForm) (p : List Byte) (len : Word)
    (hf : cmdForm (BitVec.ofNat 16 op).toNat = some f) (hb : f.badByte (BitVec.ofNat 16 op).toNat p = none) (hl : len.toNat ≤ 0x200000) :
    s.Accepts op (cmd p len) := by
  obtain ⟨h1, h2, h3, h4, h5, h6, h7, h8⟩ := hs
  have hb' := badByte_pad f _ p (240 - p.length) hb
  refine ⟨?_, h6, h7, Bool.and_eq_false_imp.2 (fun q => absurd q (by decide : ¬ (0 : Byte).getLsbD 0 = true)), ?_⟩
  · change (decide (s.mbx[(0 : Fin 8)].state = .opened) && _) = true
    rw [h3, h1, h2]
    rfl
  · unfold State.acceptCheck
    change (match cmdForm (BitVec.ofNat 16 op).toNat with
      | none => some (errOpcode, 0)
      | some f => _) = none
    rw [hf]
    dsimp only
    have hm : s.mbx[(asSub op (cmd p len)).entry.mbx] = s.mbx[(0 : Fin 8)] := rfl
    have hv : s.serves (asSub op (cmd p len)).entry.mbx (asSub op (cmd p len)).opcode = true := by
      unfold State.serves
      rw [h1]
    rw [hm, hv, h4, h5]
    rw [if_neg (fun q => q rfl), if_neg (fun q => q.2 rfl), if_neg (by decide)]
    rw [if_neg (by rintro (q | q); exact absurd q (by decide : ¬ 0xFEFF < (1 : Half).toNat); exact h8 q)]
    have e1 : (cmd p len).flags = 0 := rfl
    have e2 : (cmd p len).reserved = 0 := rfl
    have e3 : (cmd p len).payload = p ++ List.replicate (240 - p.length) 0 := rfl
    have e4 : (cmd p len).bulkOffset = 0 := rfl
    have e5 : (cmd p len).bulkLength = len := rfl
    rw [e1, e2, e3, e4, e5]
    rw [if_neg (by decide : ¬ (0 : Byte).toNat / 2 ≠ 0), if_neg (fun q => q rfl)]
    rw [show (asSub op (cmd p len)).opcode.toNat = (BitVec.ofNat 16 op).toNat from rfl, hb']
    dsimp only
    rw [if_neg (by decide : ¬ ((0 : Word).toNat % 64 ≠ 0 ∨ bulkSize < (0 : Word).toNat))]
    rw [if_neg]
    rintro (q | q)
    · exact absurd (Nat.lt_of_lt_of_le q hl) (by decide)
    · exact absurd q.2 (by decide)

theorem up_free : Free up := by
  refine ⟨rfl, rfl, rfl, rfl, rfl, rfl, by decide, by decide⟩

theorem met_NopWritesItsCompletion : up.Accepts 0x0100 (cmd [] 0) ∧ up.mbx[(0 : Fin 8)].held = []
    ∧ up.mbx[(0 : Fin 8)].cqCount < 255 ∧ memWf up.mbx[(0 : Fin 8)].cq = true :=
  ⟨taken up_free _ _ _ _ rfl rfl (by decide), rfl, by decide, rfl⟩

/-- A command of READY firmware is accepted. -/
theorem takenUp (op : Nat) (f : CmdForm) (p : List Byte) (len : Word) (hf : cmdForm (BitVec.ofNat 16 op).toNat = some f)
    (hb : f.badByte (BitVec.ofNat 16 op).toNat p = none) (hl : len.toNat ≤ 0x200000) : up.Accepts op (cmd p len) := taken up_free op f p len hf hb hl

/-- A loaded object of partition 0: its handle, backing, bytes, pins. -/
def anObj (h : Nat) (backed : Bool) (bytes : List Byte) (pins : List Pin) : Obj :=
  { handle := h, size := bytes.length, backed := backed, mirror := false, bytes := bytes, staged := none, tiles := false, loaded := true, base := 0
    resident := []
    unreadable := [], pins := pins, charged := 0, evictPending := false, dropping := false, promoting := [], poisoned := false
    clearing := false, freeing := false, flashLeft := 0, flashSize := 0, before := none, lastUse := 0 }

/-- READY with one object loaded. -/
def upObj (o : Obj) : State := { up with mt := { up.mt with objects := [o] } }
theorem upObj_free (o : Obj) : Free (upObj o) := ⟨rfl, rfl, rfl, rfl, rfl, rfl, up_free.2.2.2.2.2.2⟩

/-- A place index of partition 0 without records. -/
def anIx : PsIndex :=
  { handle := 0x10000000, part := 0, tables := [], dim := 16, codeBytes := 16, metric := 0, degree := 8, insertDegree := 4
    insertL := 16, alpha := 64, spillHigh := 50, spillLow := 10, mirror := false, dramCap := 16, flashBytes := 0, epoch := 1, dramBase := none, dram := []
    flash := [], serial := 0, located := 0, fresh := [], oldFlash := [], changed := false, spillOut := none, compactOut := none, written := false, spilling := false
    nextId := 0, queue := [], tombs := [], poisoned := false, destroying := false, insertRetried := false, spanFile := 0
    spanEdges := 0, spanFull := 0, spanExpired := 0 }
/-- READY with one place index. -/
def upIx (ix : PsIndex) : State := { up with ps := { up.ps with indexes := up.ps.indexes.set 0 (some ix) } }
theorem upIx_free (ix : PsIndex) : Free (upIx ix) := ⟨rfl, rfl, rfl, rfl, rfl, rfl, up_free.2.2.2.2.2.2⟩

theorem met_StatusCommandsAnswer :
    (up.Accepts 0x0101 (cmd [] 0) ∧ up.Accepts 0x1002 (cmd [] 0) ∧ up.Accepts 0x0704 (cmd [] 0) ∧ up.Accepts 0x0F03 (cmd [] 0))
    ∧ (up.Accepts 0x0D02 (cmd [4] 0) ∧ up.nsOf (asSub 0x0D02 (cmd [4] 0)) = some 4)
    ∧ ((upIx anIx).Accepts 0x0807 (cmd [0, 0, 0, 0x10] 0)
      ∧ (upIx anIx).indexFor (asSub 0x0807 (cmd [0, 0, 0, 0x10] 0)) ((asSub 0x0807 (cmd [0, 0, 0, 0x10] 0)).p 0 4) true = .ok anIx)
    ∧ ((upObj (anObj 0x09000000 false [1] [])).Accepts 0x0B08 (cmd [0, 0, 0, 9] 0)
      ∧ (upObj (anObj 0x09000000 false [1] [])).objFor (asSub 0x0B08 (cmd [0, 0, 0, 9] 0)) = .ok (anObj 0x09000000 false [1] [])) :=
  ⟨⟨takenUp _ _ _ _ rfl rfl (by decide), takenUp _ _ _ _ rfl rfl (by decide), takenUp _ _ _ _ rfl rfl (by decide),
      takenUp _ _ _ _ rfl rfl (by decide)⟩,
    ⟨takenUp _ _ _ _ rfl rfl (by decide), rfl⟩,
    ⟨taken (upIx_free _) _ _ _ _ rfl rfl (by decide), rfl⟩, ⟨taken (upObj_free _) _ _ _ _ rfl rfl (by decide), rfl⟩⟩

/-- READY with the track table at 64 KiB, and in it one object track of partition 0: slot 3, generation 1, kind 2. -/
def upTrack : State :=
  { up with fus := { up.fus with tableBase := some 65536 }, mem := [(68608, 3), (68609, 0x40), (68612, 2)] }
theorem upTrack_free : Free upTrack := ⟨rfl, rfl, rfl, rfl, rfl, rfl, up_free.2.2.2.2.2.2⟩
/-- READY with the first recorder ring archived. -/
def upArchive : State := { up with evr := { up.evr with archive := [{ head := 0, ring := [] }] } }
theorem upArchive_free : Free upArchive := ⟨rfl, rfl, rfl, rfl, rfl, rfl, up_free.2.2.2.2.2.2⟩

theorem met_OutputCommandsAnswer :
    (up.Accepts 0x0C03 (cmd [2] 64) ∧ (asSub 0x0C03 (cmd [2] 64)).p 0 1 = (2 : Fin 4).val ∧ up.partOf (asSub 0x0C03 (cmd [2] 64)) = 0)
    ∧ (up.Accepts 0x0E02 (cmd [] 4096) ∧ up.Accepts 0x0504 (cmd [] 96) ∧ up.Accepts 0x0404 (cmd [] 96))
    ∧ (upTrack.Accepts 0x0601 (cmd [3, 0x40] 96) ∧ (upTrack.stored ((asSub 0x0601 (cmd [3, 0x40] 96)).p 0 4)).any
      (fun x => decide (ctxOwner x = (upTrack.partOf (asSub 0x0601 (cmd [3, 0x40] 96))).val)) = true)
    ∧ ((upObj (anObj 0x01000000 true [1] [])).Accepts 0x0A02 (cmd [0, 0, 0, 1] 64)
      ∧ (upObj (anObj 0x01000000 true [1] [])).usableObj (asSub 0x0A02 (cmd [0, 0, 0, 1] 64)) = .ok (anObj 0x01000000 true [1] [])
      ∧ isModelType (handleType 0x01000000) = true)
    ∧ (up.Accepts 0x1102 (cmd [0] 65536) ∧ (asSub 0x1102 (cmd [0] 65536)).p 0 1 = 0)
    ∧ (upArchive.Accepts 0x1102 (cmd [1] 65536) ∧ (asSub 0x1102 (cmd [1] 65536)).p 0 1 = 0 + 1
      ∧ upArchive.evr.archive[0]? = some { head := 0, ring := [] })
    ∧ (up.Accepts 0x1202 (cmd [0x0F] 4096) ∧ (blockOf ((asSub 0x1202 (cmd [0x0F] 4096)).p 0 1)).isSome = true
      ∧ 4096 ≤ (cmd [0x0F] 4096).bulkLength.toNat)
    ∧ (up.Accepts 0x1201 (cmd [1, 2, 3] 240) ∧ 240 ≤ (cmd [1, 2, 3] 240).bulkLength.toNat ∧ memWf up.mem = true) :=
  ⟨⟨takenUp _ _ _ _ rfl rfl (by decide), rfl, rfl⟩,
    ⟨takenUp _ _ _ _ rfl rfl (by decide), takenUp _ _ _ _ rfl rfl (by decide), takenUp _ _ _ _ rfl rfl (by decide)⟩,
    ⟨taken upTrack_free _ _ _ _ rfl rfl (by decide), by decide +kernel⟩,
    ⟨taken (upObj_free _) _ _ _ _ rfl rfl (by decide), rfl, rfl⟩, ⟨takenUp _ _ _ _ rfl rfl (by decide), rfl⟩,
    ⟨taken upArchive_free _ _ _ _ rfl rfl (by decide), rfl, rfl⟩, ⟨takenUp _ _ _ _ rfl rfl (by decide), rfl, by decide⟩,
    ⟨takenUp _ _ _ _ rfl rfl (by decide), by decide, rfl⟩⟩

theorem met_ListCommandsAnswer : up.Accepts 0x0603 (cmd [0xFF, 0xFF] 64) ∧ up.Accepts 0x0903 (cmd [] 72) ∧ up.Accepts 0x0206 (cmd [] 512)
    ∧ (∀ x ∈ [natLe 4 5], x.length = 4) :=
  ⟨takenUp _ _ _ _ rfl rfl (by decide), takenUp _ _ _ _ rfl rfl (by decide), takenUp _ _ _ _ rfl rfl (by decide),
    by decide⟩

/-- READY with the completion ring of mailbox 0 full. -/
def upFull : State := { up with mbx := up.mbx.set 0 { up.mbx[(0 : Fin 8)] with cqTail := 255 } }

theorem met_CompletionWrittenOrHeld :
    (up.mbx[(0 : Fin 8)].state = .opened ∧ up.mbx[(0 : Fin 8)].held = [] ∧ up.mbx[(0 : Fin 8)].cqCount < 255)
    ∧ (upFull.mbx[(0 : Fin 8)].state = .opened ∧ ¬ (upFull.mbx[(0 : Fin 8)].held = [] ∧ upFull.mbx[(0 : Fin 8)].cqCount < 255))
    ∧ up.mbx[(1 : Fin 8)].state ≠ .opened := ⟨⟨rfl, rfl, by decide⟩, ⟨rfl, by decide⟩, by decide⟩

/-- READY with both bases LOCKED. -/
def upLocked : State := { up with tu := { up.tu with baseA := { up.tu.baseA with state := .locked } } }
theorem upLocked_free : Free upLocked := ⟨rfl, rfl, rfl, rfl, rfl, rfl, up_free.2.2.2.2.2.2⟩
/-- READY with every trigger pin granted to partition 0. -/
def upTrig : State :=
  { up with sec := { up.sec with grants := up.sec.grants.set 0 { up.sec.grants[(0 : Fin 4)] with trigMask := 0xFFFF } } }
theorem upTrig_free : Free upTrig := ⟨rfl, rfl, rfl, rfl, rfl, rfl, up_free.2.2.2.2.2.2⟩

theorem met_TimeCommandsAnswer :
    (up.Accepts 0x0401 (cmd (List.replicate 16 0 ++ [1, 1]) 0) ∧ (asSub 0x0401 (cmd (List.replicate 16 0 ++ [1, 1]) 0)).p 16 1 ≤ 1
      ∧ (asSub 0x0401 (cmd (List.replicate 16 0 ++ [1, 1]) 0)).p 17 1 ≤ 1)
    ∧ (upLocked.Accepts 0x0402 (cmd [] 0) ∧ upLocked.sched.state = .stopped
      ∧ (upLocked.tu.baseA.isLocked || upLocked.tu.baseB.isLocked) = true ∧ upLocked.tu.aligned = false)
    ∧ ({ upLocked.tu with aligned := true, dt := 2 ^ 64 } : TimeUnit).sourceNow upLocked.tu.source ≤ (2 ^ 64 : BitVec 96).toNat
    ∧ (up.Accepts 0x0403 (cmd [3] 0) ∧ (asSub 0x0403 (cmd [3] 0)).p 0 1 ≤ 3)
    ∧ (upTrig.Accepts 0x0405 (cmd [15, 2, 1, 0, 0, 0, 0, 0, 0, 0, 0, 0, 0xE8, 3] 0)
      ∧ (asSub 0x0405 (cmd [15, 2, 1, 0, 0, 0, 0, 0, 0, 0, 0, 0, 0xE8, 3] 0)).p 0 1 = (15 : Fin 16).val
      ∧ upTrig.sec.grants[(0 : Fin 4)].trigMask.getLsbD 15 = true ∧ upTrig.tu.trigs[(15 : Fin 16)].mode ≠ 3
      ∧ (asSub 0x0405 (cmd [15, 2, 1, 0, 0, 0, 0, 0, 0, 0, 0, 0, 0xE8, 3] 0)).p 1 1 = 2
      ∧ (asSub 0x0405 (cmd [15, 2, 1, 0, 0, 0, 0, 0, 0, 0, 0, 0, 0xE8, 3] 0)).p 2 1 ≤ 1
      ∧ 1000 ≤ (asSub 0x0405 (cmd [15, 2, 1, 0, 0, 0, 0, 0, 0, 0, 0, 0, 0xE8, 3] 0)).p 12 4)
    ∧ (up.Accepts 0x0406 (cmd [0, 0, 0, 0, 5] 0) ∧ (asSub 0x0406 (cmd [0, 0, 0, 0, 5] 0)).p 0 1 = 0)
    ∧ (up.Accepts 0x0406 (cmd [1] 0) ∧ (asSub 0x0406 (cmd [1] 0)).p 0 1 = 1)
    ∧ (up.Accepts 0x0406 (cmd [2] 0) ∧ 1 < (asSub 0x0406 (cmd [2] 0)).p 0 1) :=
  ⟨⟨takenUp _ _ _ _ rfl rfl (by decide), by decide, by decide⟩,
    ⟨taken upLocked_free _ _ _ _ rfl rfl (by decide), rfl, rfl, rfl⟩, by decide,
    ⟨takenUp _ _ _ _ rfl rfl (by decide), by decide⟩,
    ⟨taken upTrig_free _ _ _ _ rfl rfl (by decide), rfl, rfl, by decide, rfl, by decide, by decide⟩,
    ⟨takenUp _ _ _ _ rfl rfl (by decide), rfl⟩, ⟨takenUp _ _ _ _ rfl rfl (by decide), rfl⟩,
    ⟨takenUp _ _ _ _ rfl rfl (by decide), by decide⟩⟩

/-- READY with a running and a pending descriptor, each all zeros (kind 0), on channel 31. -/
def upChan : State := { up with sm := { up.sm with
  chans := up.sm.chans.set 31 { up.sm.chans[(31 : Fin 32)] with desc := some (List.replicate 192 0), pend := some (List.replicate 192 0) } } }
theorem upChan_free : Free upChan := ⟨rfl, rfl, rfl, rfl, rfl, rfl, up_free.2.2.2.2.2.2⟩

theorem met_StreamCommandsAnswer :
    (up.Accepts 0x0301 (cmd [31] 0) ∧ (asSub 0x0301 (cmd [31] 0)).p 0 1 = (31 : Fin 32).val ∧ up.ownsChannel 0 31 = true)
    ∧ (up.Accepts 0x0302 (cmd [0, 0, 0, 0x80] 0)
      ∧ up.commitFails (up.partOf (asSub 0x0302 (cmd [0, 0, 0, 0x80] 0))) (up.pendingOf ((asSub 0x0302 (cmd [0, 0, 0, 0x80] 0)).p 0 4)) = none)
    ∧ (upChan.Accepts 0x0303 (cmd [31] 512) ∧ (asSub 0x0303 (cmd [31] 512)).p 0 1 = (31 : Fin 32).val
      ∧ upChan.ownsChannel (upChan.partOf (asSub 0x0303 (cmd [31] 512))) 31 = true
      ∧ upChan.sm.chans[(31 : Fin 32)].desc = some (List.replicate 192 0)
      ∧ upChan.sm.chans[(31 : Fin 32)].pend = some (List.replicate 192 0))
    ∧ up.Accepts 0x0305 (cmd [] 0)
    ∧ (up.Accepts 0x0306 (cmd [1] 0) ∧ (asSub 0x0306 (cmd [1] 0)).p 0 1 ≤ 1)
    ∧ (up.Accepts 0x0306 (cmd [2] 0) ∧ 1 < (asSub 0x0306 (cmd [2] 0)).p 0 1) :=
  ⟨⟨takenUp _ _ _ _ rfl rfl (by decide), rfl, by decide⟩, ⟨takenUp _ _ _ _ rfl rfl (by decide), by decide⟩,
    ⟨taken upChan_free _ _ _ _ rfl rfl (by decide), rfl, by decide, rfl, rfl⟩, takenUp _ _ _ _ rfl rfl (by decide),
    ⟨takenUp _ _ _ _ rfl rfl (by decide), by decide⟩, ⟨takenUp _ _ _ _ rfl rfl (by decide), by decide⟩⟩

/-- READY with a schedule that runs. -/
def upRun : State := { up with sched := { up.sched with state := .running } }
theorem upRun_free : Free upRun := ⟨rfl, rfl, rfl, rfl, rfl, rfl, up_free.2.2.2.2.2.2⟩
/-- READY with inertial input 0 bound to channel 0. -/
def upBound : State := { up with ife := { up.ife with
  inputs := up.ife.inputs.set 0 { up.ife.inputs[(0 : Fin 4)] with binding := some { channel := 0, direct := false, filterSet := 0 } } } }
theorem upBound_free : Free upBound := ⟨rfl, rfl, rfl, rfl, rfl, rfl, up_free.2.2.2.2.2.2⟩
/-- A correct payload of POSE_CONFIG: bounds of 1, a gap of 1 ms, a gate of 1, one miss, no retrodiction, a vote of 1, ... -/
def posePars : List Byte := natLe 4 0x3F800000 ++ natLe 4 0x3F800000 ++ natLe 4 1000000 ++ natLe 4 0x3F800000 ++ [1, 0, 8, 10, 1, 0, 100]
/-- A correct payload of MAP_CONFIG: the greatest value of each field. -/
def mapPars : List Byte := (mapLimits.flatMap fun l => natLe 4 l.2) ++ natLe 4 10000 ++ natLe 4 3600000 ++ natLe 2 64
/-- A correct payload of POSE_SUBSCRIBE: the largest ring, every record, a notice every 1,024. -/
def posePay : List Byte := [0, 0, 0, 0, 0, 4, 1, 0, 0, 4, 1]
/-- READY with one acre, trained or not. -/
def upAcre (a : Acre) : State := { up with fld := { up.fld with acres := [a] } }
theorem upAcre_free (a : Acre) : Free (upAcre a) := ⟨rfl, rfl, rfl, rfl, rfl, rfl, up_free.2.2.2.2.2.2⟩

theorem met_PoseAndMapCommandsAnswer :
    (upRun.Accepts 0x0501 (cmd [] 0) ∧ upRun.sched.state ≠ .stopped ∧ (asSub 0x0501 (cmd [] 0)).p 0 1 = 0)
    ∧ (upRun.Accepts 0x0501 (cmd [1] 0) ∧ (asSub 0x0501 (cmd [1] 0)).p 0 1 = 1)
    ∧ (up.Accepts 0x0501 (cmd [] 0) ∧ up.sched.state = .stopped)
    ∧ (upBound.Accepts 0x0502 (cmd posePars 0) ∧ upBound.poseConfigOk ((asSub 0x0502 (cmd posePars 0)).bytes 0 23) = true)
    ∧ (up.Accepts 0x0503 (cmd posePay 0) ∧ (asSub 0x0503 (cmd posePay 0)).p 10 1 = 1 ∧ (asSub 0x0503 (cmd posePay 0)).p 0 4 % 64 = 0
      ∧ 2 ≤ (asSub 0x0503 (cmd posePay 0)).p 4 2 ∧ (asSub 0x0503 (cmd posePay 0)).p 4 2 ≤ 1024
      ∧ (asSub 0x0503 (cmd posePay 0)).p 0 4 + 64 + 96 * (asSub 0x0503 (cmd posePay 0)).p 4 2 ≤ 0x200000
      ∧ (asSub 0x0503 (cmd posePay 0)).p 6 2 ≠ 0 ∧ (asSub 0x0503 (cmd posePay 0)).p 8 2 ≤ 1024)
    ∧ (up.Accepts 0x0503 (cmd [] 0) ∧ (asSub 0x0503 (cmd [] 0)).p 10 1 = 0)
    ∧ (upTrack.Accepts 0x0602 (cmd [3, 0x40] 0) ∧ (upTrack.stored ((asSub 0x0602 (cmd [3, 0x40] 0)).p 0 4)).any
      (fun x => decide (ctxOwner x = (upTrack.partOf (asSub 0x0602 (cmd [3, 0x40] 0))).val ∧ ctxKind x = 2)) = true)
    ∧ (up.Accepts 0x0701 (cmd mapPars 0) ∧ mapConfigOk ((asSub 0x0701 (cmd mapPars 0)).bytes 0 66) = true)
    ∧ (up.Accepts 0x0702 (cmd [100] 0) ∧ (asSub 0x0702 (cmd [100] 0)).p 0 1 ≤ 100)
    ∧ (∀ a : Acre, a.key = 5 → (upAcre a).Accepts 0x0703 (cmd [5] 0)
      ∧ ((upAcre a).acre ((asSub 0x0703 (cmd [5] 0)).p 0 6)).isSome = true) :=
  ⟨⟨taken upRun_free _ _ _ _ rfl rfl (by decide), by decide, rfl⟩, ⟨taken upRun_free _ _ _ _ rfl rfl (by decide), rfl⟩,
    ⟨takenUp _ _ _ _ rfl rfl (by decide), rfl⟩, ⟨taken upBound_free _ _ _ _ rfl rfl (by decide), by decide⟩,
    ⟨takenUp _ _ _ _ rfl rfl (by decide), rfl, rfl, by decide, by decide, by decide, by decide, by decide⟩,
    ⟨takenUp _ _ _ _ rfl rfl (by decide), rfl⟩, ⟨taken upTrack_free _ _ _ _ rfl rfl (by decide), by decide +kernel⟩,
    ⟨takenUp _ _ _ _ rfl rfl (by decide), by decide⟩, ⟨takenUp _ _ _ _ rfl rfl (by decide), by decide⟩,
    fun a h => ⟨taken (upAcre_free a) _ _ _ _ rfl rfl (by decide), by
      show (List.find? (fun x : Acre => decide (x.key = 5)) [a]).isSome = true
      simp [h]⟩⟩

/-- A job of a kind that waits. -/
def aJob (k : JobKind) : Job := { mbx := 0, tag := 1, opcode := 0, acceptDt := 0, kind := k }

theorem met_WaitingCommandsApply : (aJob (.poseAlign [] none false)).kind = .poseAlign [] none false ∧ (aJob (.poseConfig posePars)).kind = .poseConfig posePars ∧ (aJob (.poseGiven [])).kind = .poseGiven []
    ∧ ((aJob (.trackDelete 16387)).kind = .trackDelete 16387 ∧ upTrack.liveHandle (trackSlot 16387) = 16387)
    ∧ (aJob (.mapConfig mapPars)).kind = .mapConfig mapPars ∧ (aJob (.mapTrain 100)).kind = .mapTrain 100
    ∧ (aJob .streamSync).kind = .streamSync ∧ (aJob (.syncMode true)).kind = .syncMode true :=
  ⟨rfl, rfl, rfl, ⟨rfl, by decide⟩, rfl, rfl, rfl, rfl⟩

theorem memReadN_length (m : List Host.Cell) : ∀ n a, (memReadN m a n).length = n
  | 0, _ => rfl
  | n + 1, a => by simp [memReadN, memReadN_length m n]

/-- A place table object of an index with 16 dimensions and 16 code bytes: 512 x 16 + 131,072 x 16 bytes (R275). -/
def aTable : Obj := { anObj 0x09000000 false [] [] with size := 2105344 }
/-- PLACE_CREATE of such an index: the least degrees and lengths. -/
def createPay : List Byte := [0, 0, 0, 9, 16, 0, 16, 0, 8, 4, 16, 0, 64, 50, 10, 0, 16]
/-- PLACE_QUERY of the index: K 1, L 16, one beam, both tiers, every kind; the result at offset 64. -/
def queryPay : List Byte := [0, 0, 0, 0x10, 1, 0, 16, 0, 1, 3, 0, 0, 0, 0, 0, 0, 0, 0, 0xFF] ++ List.replicate 109 0 ++ [64]
/-- A record in DRAM. -/
def aRec : PsRec :=
  { id := 7, place := 0, epochIn := 1, kind := 0, spilled := none, obsDt := 0, label := 0, acre := 0, code := [], slots := [], reclaimed := false }
/-- An index with one record. -/
def ixRec : PsIndex := { anIx with dram := [aRec] }

theorem met_PlaceCommandsAnswer :
    (∃ ix : PsIndex, ix = (asSub 0x0801 (cmd createPay 0)).newIndex ((upObj aTable).partOf (asSub 0x0801 (cmd createPay 0))) 0
          ((upObj aTable).objBytes ((asSub 0x0801 (cmd createPay 0)).p 0 4))
      ∧ (upObj aTable).Accepts 0x0801 (cmd createPay 0)
      ∧ (upObj aTable).objFails (asSub 0x0801 (cmd createPay 0)) ((asSub 0x0801 (cmd createPay 0)).p 0 4) = none
      ∧ handleType ((asSub 0x0801 (cmd createPay 0)).p 0 4) = 0x09 ∧ ix.tables.length = 512 * ix.dim + 131072 * ix.codeBytes
      ∧ ix.inRange ((asSub 0x0801 (cmd createPay 0)).p 15 1) = true
      ∧ (upObj aTable).nsUsed ix.part + ix.flashBytes * (if ix.mirror then 2 else 1) ≤ (upObj aTable).sec.grants[ix.part].flashBytes
      ∧ (((upObj aTable).ps.indexes.toList.filterMap id).filter fun x => decide (x.part = ix.part)).length < 4
      ∧ ((List.finRange 16).find? fun k => (upObj aTable).ps.indexes[k].isNone) = some 0)
    ∧ ((upIx anIx).Accepts 0x0802 (cmd queryPay 128)
      ∧ (upIx anIx).indexFor (asSub 0x0802 (cmd queryPay 128)) (fieldAt ((asSub 0x0802 (cmd queryPay 128)).bytes 0 128) 0 4) false = .ok anIx
      ∧ queryInRange ((asSub 0x0802 (cmd queryPay 128)).bytes 0 128) = true
      ∧ 2 * anIx.dim ≤ ((upIx anIx).bulkIn (asSub 0x0802 (cmd queryPay 128))).length
      ∧ (asSub 0x0802 (cmd queryPay 128)).p 128 4 + 32 + 32 * fieldAt ((asSub 0x0802 (cmd queryPay 128)).bytes 0 128) 4 2
          ≤ (cmd queryPay 128).bulkLength.toNat
      ∧ ∀ v ∈ halves (((upIx anIx).bulkIn (asSub 0x0802 (cmd queryPay 128))).take (2 * anIx.dim)), fp16.finite v = true)
    ∧ ((upIx anIx).Accepts 0x0803 (cmd [0, 0, 0, 0x10, 1] 64)
      ∧ (upIx anIx).indexFor (asSub 0x0803 (cmd [0, 0, 0, 0x10, 1] 64)) ((asSub 0x0803 (cmd [0, 0, 0, 0x10, 1] 64)).p 0 4) false = .ok anIx
      ∧ (asSub 0x0803 (cmd [0, 0, 0, 0x10, 1] 64)).p 4 2 = 1 ∧ 1 * ((32 + 2 * anIx.dim + 63) / 64 * 64) ≤ 64
      ∧ (∀ r ∈ itemsOf ((upIx anIx).bulkIn (asSub 0x0803 (cmd [0, 0, 0, 0x10, 1] 64))) ((32 + 2 * anIx.dim + 63) / 64 * 64) 1,
          fieldAt r 18 1 ≤ 7)
      ∧ anIx.queue.length + 1 ≤ 65536)
    ∧ ((upIx ixRec).Accepts 0x0804 (cmd [0, 0, 0, 0x10, 0, 0, 0, 0, 7] 0)
      ∧ (upIx ixRec).indexFor (asSub 0x0804 (cmd [0, 0, 0, 0x10, 0, 0, 0, 0, 7] 0))
          ((asSub 0x0804 (cmd [0, 0, 0, 0x10, 0, 0, 0, 0, 7] 0)).p 0 4) false = .ok ixRec
      ∧ (∃ r ∈ ixRec.dram, r.id = (asSub 0x0804 (cmd [0, 0, 0, 0x10, 0, 0, 0, 0, 7] 0)).p 8 8 ∧ r.reclaimed = false)
      ∧ ixRec.tombs = [])
    ∧ (upIx anIx).Accepts 0x0805 (cmd [0, 0, 0, 0x10] 0) ∧ (upIx anIx).Accepts 0x0806 (cmd [0, 0, 0, 0x10] 0)
    ∧ up.Accepts 0x0901 (cmd [0, 0, 0, 0x10] 128)
    ∧ (up.Accepts 0x0902 (cmd [0, 0, 0, 0x10, 1] 128) ∧ (asSub 0x0902 (cmd [0, 0, 0, 0x10, 1] 128)).p 4 1 = 1) := by
  refine ⟨⟨_, rfl, taken (upObj_free _) _ _ _ _ rfl rfl (by decide), rfl, rfl, ?_, by decide, by decide, by decide, by decide⟩,
    ⟨taken (upIx_free _) _ _ _ _ rfl (by decide +kernel) (by decide), rfl, by decide +kernel, ?_, by decide +kernel, by decide +kernel⟩,
    ⟨taken (upIx_free _) _ _ _ _ rfl rfl (by decide), rfl, rfl, by decide, by decide, by decide⟩,
    ⟨taken (upIx_free _) _ _ _ _ rfl rfl (by decide), rfl, ⟨aRec, List.mem_singleton.2 rfl, rfl, rfl⟩, rfl⟩,
    taken (upIx_free _) _ _ _ _ rfl rfl (by decide), taken (upIx_free _) _ _ _ _ rfl rfl (by decide),
    takenUp _ _ _ _ rfl rfl (by decide), ⟨takenUp _ _ _ _ rfl rfl (by decide), rfl⟩⟩
  · exact memReadN_length _ _ _
  · rw [show ((upIx anIx).bulkIn (asSub 0x0802 (cmd queryPay 128))).length = 128 from memReadN_length _ _ _]
    decide

/-- A half-loaded object of the 2-byte size: its first byte is there. -/
def aPart (h : Nat) : Obj := { anObj h false [1] [] with size := 3, loaded := false }
/-- The third piece of MODEL_LOAD or OBJ_LOAD: handle, type, no backing, size 3, offset 1. -/
def piecePay (type : Byte) : List Byte := [0, 0, 0, type, type, 0, 0, 0, 3, 0, 0, 0, 0, 0, 0, 0, 1]
/-- READY and OWNED, with an object. -/
def upOwned (o : Obj) : State := { upObj o with sec := { (upObj o).sec with lifecycle := .owned } }
theorem upOwned_free (o : Obj) : Free (upOwned o) := ⟨rfl, rfl, rfl, rfl, rfl, rfl, up_free.2.2.2.2.2.2⟩
/-- The first piece of an object of 3 bytes. -/
def firstPay (type : Byte) : List Byte := [0, 0, 0, 0, type, 0, 0, 0, 3]

/-- Whatever flash the board carries, the firmware region lies in the upper part of DRAM (R372). -/
theorem fwRegionBase_ge : 0x5A0000000 ≤ Config.fwRegionBase := by
  unfold Config.fwRegionBase Config.rawFlash
  omega

/-- A page of DRAM is free for an object of partition 0. -/
theorem up_freeRun : ∃ a, (up.freeRun 0 0 1).1 = some a := by
  have h := fwRegionBase_ge
  have fits : up.ownsDram 0 0x200000 (65536 * 1) = true := by
    rw [State.ownsDram, if_pos rfl]
    exact Bool.and_eq_true_iff.2 ⟨decide_eq_true ⟨by omega, by decide⟩, rfl⟩
  rw [← Option.isSome_iff_exists]
  unfold State.freeRun
  dsimp only [State.drawBelow]
  rw [List.find?_isSome]
  refine ⟨0x200000, List.mem_cons_of_mem _ (by decide), ?_⟩
  exact Bool.and_eq_true_iff.2 ⟨fits, rfl⟩

theorem met_LoadCommandsAnswer :
    (∀ t : Byte, t = 3 ∨ t = 9 → isObjType t.toNat = true ∧
      (upObj (aPart (2 ^ 24 * t.toNat))).Accepts 0x0B01 (cmd (piecePay t) 1)
      ∧ (asSub 0x0B01 (cmd (piecePay t) 1)).p 4 1 = t.toNat ∧ (asSub 0x0B01 (cmd (piecePay t) 1)).p 5 1 ≤ 1
      ∧ (asSub 0x0B01 (cmd (piecePay t) 1)).p 6 1 ≤ 1 ∧ (asSub 0x0B01 (cmd (piecePay t) 1)).p 8 8 = 3
      ∧ (asSub 0x0B01 (cmd (piecePay t) 1)).p 16 8 = [(1 : Byte)].length ∧ (asSub 0x0B01 (cmd (piecePay t) 1)).p 0 4 = 2 ^ 24 * t.toNat
      ∧ (aPart (2 ^ 24 * t.toNat)).partialLoad = true
      ∧ [(1 : Byte)].length + ((upObj (aPart (2 ^ 24 * t.toNat))).bulkIn (asSub 0x0B01 (cmd (piecePay t) 1))).length < 3)
    ∧ ((upOwned (aPart 0x01000000)).Accepts 0x0A01 (cmd (piecePay 1) 1) ∧ isModelType 1 = true
      ∧ (upOwned (aPart 0x01000000)).sec.lifecycle = .owned
      ∧ (upOwned (aPart 0x01000000)).obj ((asSub 0x0A01 (cmd (piecePay 1) 1)).p 0 4) = some (aPart 0x01000000))
    ∧ (up.Accepts 0x0B01 (cmd (firstPay 3) 1) ∧ (asSub 0x0B01 (cmd (firstPay 3) 1)).p 16 8 = 0
      ∧ (asSub 0x0B01 (cmd (firstPay 3) 1)).p 0 4 = 0
      ∧ (up.bulkIn (asSub 0x0B01 (cmd (firstPay 3) 1))).length < (asSub 0x0B01 (cmd (firstPay 3) 1)).p 8 8
      ∧ up.roomFails 0 3 false false = none ∧ (∃ a, (up.freeRun 0 0 (ceilDiv 3 65536)).1 = some a))
    ∧ (up.Accepts 0x0A01 (cmd [] 0) ∧ up.sec.lifecycle ≠ .owned) := by
  refine ⟨?_, ⟨taken (upOwned_free _) _ _ _ _ rfl rfl (by decide), rfl, rfl, rfl⟩,
    ⟨takenUp _ _ _ _ rfl rfl (by decide), rfl, rfl, by decide, by decide, up_freeRun⟩,
    ⟨takenUp _ _ _ _ rfl rfl (by decide), by decide⟩⟩
  rintro t (rfl | rfl)
  · exact ⟨rfl, taken (upObj_free _) _ _ _ _ rfl rfl (by decide), rfl, by decide, by decide, rfl, rfl, rfl, by decide, by decide⟩
  · exact ⟨rfl, taken (upObj_free _) _ _ _ _ rfl rfl (by decide), rfl, by decide, by decide, rfl, rfl, rfl, by decide, by decide⟩

/-- A backed object with nothing resident. -/
def aBacked : Obj := anObj 0x03000000 true [1] []
/-- A larger one than partition 0's whole pool. -/
def aHuge : Obj := { aBacked with size := 2 ^ 40 }

theorem met_ObjectCommandsAnswer :
    ((upObj (anObj 0x03000000 false [1] [])).Accepts 0x0B02 (cmd [0, 0, 0, 3, 0, 1] 0)
      ∧ (upObj (anObj 0x03000000 false [1] [])).usableObj (asSub 0x0B02 (cmd [0, 0, 0, 3, 0, 1] 0)) = .ok (anObj 0x03000000 false [1] [])
      ∧ (asSub 0x0B02 (cmd [0, 0, 0, 3, 0, 1] 0)).p 4 1 = 0 ∧ (asSub 0x0B02 (cmd [0, 0, 0, 3, 0, 1] 0)).p 5 1 ≤ 1
      ∧ (upObj (anObj 0x03000000 false [1] [])).objWriting (anObj 0x03000000 false [1] []) = false
      ∧ (anObj 0x03000000 false [1] []).whole = true)
    ∧ ((upObj aBacked).Accepts 0x0B03 (cmd [0, 0, 0, 3] 0) ∧ (upObj aBacked).usableObj (asSub 0x0B03 (cmd [0, 0, 0, 3] 0)) = .ok aBacked
      ∧ aBacked.backed = true ∧ ((upObj aBacked).promote 0x03000000 0).1 = none)
    ∧ ((upObj aHuge).Accepts 0x0B03 (cmd [0, 0, 0, 3] 0) ∧ (upObj aHuge).usableObj (asSub 0x0B03 (cmd [0, 0, 0, 3] 0)) = .ok aHuge
      ∧ ∃ d, ((upObj aHuge).promote 0x03000000 0).1 = some d)
    ∧ (upObj (anObj 0x03000000 false [1] [])).Accepts 0x0B04 (cmd [0, 0, 0, 3] 0)
    ∧ ((upObj (anObj 0x03000000 false [1] [.pinned 0])).Accepts 0x0B05 (cmd [0, 0, 0, 3] 0)
      ∧ Pin.pinned (0 : Fin 8).val ∈ (anObj 0x03000000 false [1] [.pinned 0]).pins)
    ∧ (upObj aBacked).Accepts 0x0B06 (cmd [0, 0, 0, 3] 0)
    ∧ ((upObj (anObj 0x03000000 false [1] [.pinned 0])).Accepts 0x0B07 (cmd [0, 0, 0, 3] 0)
      ∧ ∀ p ∈ (anObj 0x03000000 false [1] [.pinned 0]).pins, p = Pin.pinned (0 : Fin 8).val ∨ p = .promoted (0 : Fin 8).val) :=
  ⟨⟨taken (upObj_free _) _ _ _ _ rfl rfl (by decide), rfl, rfl, by decide, by decide, rfl⟩,
    ⟨taken (upObj_free _) _ _ _ _ rfl rfl (by decide), rfl, rfl, by decide⟩,
    ⟨taken (upObj_free _) _ _ _ _ rfl rfl (by decide), rfl, Option.isSome_iff_exists.1 (by decide)⟩,
    taken (upObj_free _) _ _ _ _ rfl rfl (by decide),
    ⟨taken (upObj_free _) _ _ _ _ rfl rfl (by decide), by decide⟩, taken (upObj_free _) _ _ _ _ rfl rfl (by decide),
    ⟨taken (upObj_free _) _ _ _ _ rfl rfl (by decide), by decide⟩⟩

/-- READY with an image staged whole. -/
def upStaged (b : List Byte) : State := { up with sec := { up.sec with staged := { bytes := b, total := b.length } } }
theorem upStaged_free (b : List Byte) : Free (upStaged b) := ⟨rfl, rfl, rfl, rfl, rfl, rfl, up_free.2.2.2.2.2.2⟩
/-- READY with a page of an old epoch in namespace 0. -/
def upOld : State := { up with mt := { up.mt with
  pages := [{ ns := 0, lpn := 0, owner := .object 0, pos := 0, writeSeq := 0, data := []
              copies := [{ die := 0, block := 0, epoch := 9, mirror := false, raw := [] }] }] } }
theorem upOld_free : Free upOld := ⟨rfl, rfl, rfl, rfl, rfl, rfl, up_free.2.2.2.2.2.2⟩

theorem met_SecurityCommandsAnswer :
    (up.Accepts 0x0F01 (cmd [0, 0, 0, 0, 1] 1) ∧ (asSub 0x0F01 (cmd [0, 0, 0, 0, 1] 1)).p 0 4 = 0
      ∧ (up.bulkIn (asSub 0x0F01 (cmd [0, 0, 0, 0, 1] 1))).length ≤ (asSub 0x0F01 (cmd [0, 0, 0, 0, 1] 1)).p 4 4
      ∧ up.dev.phase = .ready ∧ up.dev.hostPortBoot = false ∧ (asSub 0x0F01 (cmd [0, 0, 0, 0, 1] 1)).p 4 4 ≠ 5828)
    ∧ (up.Accepts 0x0F02 (cmd [] 0) ∧ up.sec.staged.bytes = [])
    ∧ (up.Accepts 0x0D01 (cmd [4] 0) ∧ up.nsOf (asSub 0x0D01 (cmd [4] 0)) = some 4 ∧ up.oldPages 4 = 0 ∧ up.fw.jobs = [] ∧ up.sec.rngOk = true)
    ∧ (upOld.Accepts 0x0D01 (cmd [0] 0) ∧ upOld.nsOf (asSub 0x0D01 (cmd [0] 0)) = some 0 ∧ upOld.oldPages 0 ≠ 0 ∧ upOld.fw.jobs = []) :=
  ⟨⟨takenUp _ _ _ _ rfl rfl (by decide), rfl, by decide, rfl, rfl, by decide⟩,
    ⟨takenUp _ _ _ _ rfl rfl (by decide), rfl⟩, ⟨takenUp _ _ _ _ rfl rfl (by decide), rfl, rfl, rfl, rfl⟩,
    ⟨taken upOld_free _ _ _ _ rfl rfl (by decide), rfl, by decide, rfl⟩⟩

/-- An activation of a bundle whose signatures hold: what they say is a premise. -/
theorem met_SecurityCommandsAnswer_activate (b : List Byte) (hb : 5828 < b.length) (ok : (upStaged b).sec.fwCheck b = .passed) :
    (upStaged b).Accepts 0x0F02 (cmd [] 0) ∧ (upStaged b).dev.phase = .ready
      ∧ (upStaged b).sec.staged.bytes.length = (upStaged b).sec.staged.total ∧ 5828 < (upStaged b).sec.staged.bytes.length
      ∧ (upStaged b).sec.fwCheck (upStaged b).sec.staged.bytes = .passed :=
  ⟨taken (upStaged_free _) _ _ _ _ rfl rfl (by decide), rfl, rfl, hb, ok⟩

theorem exactly_length (n : Nat) (bs : List Byte) : (exactly n bs).length = n := by simp [exactly]

/-- A report of a device without images and models takes 576 bytes before its signatures (R409). -/
theorem up_reportBody (nonce : List Byte) : (up.reportBody 0 nonce).length = 576 := by
  have hi : up.imageEntries 0 = [] := by decide
  have hm : up.modelEntries 0 = [] := rfl
  have hp : ∀ p, (up.partEntry p).length = 64 := fun p => exactly_length _ _
  unfold State.reportBody
  rw [hi, hm]
  simp only [List.length_append, natLe_length, exactly_length, List.length_flatMap, hp, List.flatMap_nil,
    List.length_nil]
  rfl

theorem met_SecurityCommandsAnswer_report : up.Accepts 0x0E01 (cmd [] 8192) ∧ up.sec.rngOk = true ∧ up.sec.leafNext < 2 ^ 30
    ∧ (up.sec.reports.filter fun t => decide (up.dtNs < t + 1000000000)).length < 10
    ∧ (up.reportBody (up.partOf (asSub 0x0E01 (cmd [] 8192))) ((asSub 0x0E01 (cmd [] 8192)).bytes 0 32)).length + 5492
      ≤ (cmd [] 8192).bulkLength.toNat := by
  refine ⟨takenUp _ _ _ _ rfl rfl (by decide), rfl, by decide, by decide, ?_⟩
  rw [show up.partOf (asSub 0x0E01 (cmd [] 8192)) = 0 from rfl, up_reportBody]
  decide

/-- PART_GRANT of nothing but core 7 to partition 1. -/
def grantPay : List Byte := [1, 0x80]
/-- READY with core 7 granted to partition 2. -/
def upGrant : State :=
  { up with sec := { up.sec with grants := up.sec.grants.set 2 { Grant.empty with state := 1, coreMask := 0x80 } } }
theorem upGrant_free : Free upGrant := ⟨rfl, rfl, rfl, rfl, rfl, rfl, up_free.2.2.2.2.2.2⟩
/-- READY with a scrub of partition 1 on its way, and a schedule in which partition 1 runs slot 63. -/
def upScrub : State := { up with
  sec := { up.sec with scrubs := [{ part := 1, grant := none, begun := false, running := false, done := false, start := 0 }] }
  sched := { up.sched with state := .running, running := up.sched.running.set 1 (some 63) } }
theorem upScrub_free : Free upScrub := ⟨rfl, rfl, rfl, rfl, rfl, rfl, up_free.2.2.2.2.2.2⟩

theorem up_noConflict : up.grantConflict 1 (asSub 0x0C01 (cmd grantPay 0)).grant = none := by
  simp only [State.grantConflict]
  rw [if_neg (by decide), if_neg (by decide +kernel), if_neg (by decide +kernel), if_neg, if_neg (by decide +kernel),
    if_neg (by decide), if_neg]
  · intro h
    rcases Bool.or_eq_true_iff.1 h with h | h
    · exact absurd h (by decide)
    · exact absurd (of_decide_eq_true h) (Nat.not_lt_zero _)
  · intro h
    rcases Bool.or_eq_true_iff.1 h with h | h
    · rcases Bool.or_eq_true_iff.1 h with h | h
      · rcases Bool.or_eq_true_iff.1 h with h | h
        · rcases Bool.or_eq_true_iff.1 h with h | h
          · exact absurd (of_decide_eq_true h) (Nat.not_lt_zero _)
          · exact absurd h (by decide)
        · exact absurd h (by decide)
      · exact absurd h (by decide)
    · exact absurd (of_decide_eq_true h) (Nat.not_lt_zero _)

theorem met_GrantCommandsAnswer :
    (up.Accepts 0x0C01 (cmd grantPay 0) ∧ (asSub 0x0C01 (cmd grantPay 0)).p 0 1 = (1 : Fin 4).val ∧ (1 : Fin 4) ≠ 0
      ∧ up.granting 1 = false ∧ (asSub 0x0C01 (cmd grantPay 0)).grant.inRange = true
      ∧ up.grantConflict 1 (asSub 0x0C01 (cmd grantPay 0)).grant = none)
    ∧ (upGrant.Accepts 0x0C01 (cmd grantPay 0) ∧ upGrant.granting 1 = false
      ∧ upGrant.grantConflict 1 (asSub 0x0C01 (cmd grantPay 0)).grant = some 1)
    ∧ (up.Accepts 0x0C02 (cmd [3] 0) ∧ (asSub 0x0C02 (cmd [3] 0)).p 0 1 = (3 : Fin 4).val ∧ up.granting 3 = false)
    ∧ (upScrub.Accepts 0x0C02 (cmd [1] 0) ∧ (asSub 0x0C02 (cmd [1] 0)).p 0 1 = (1 : Fin 4).val ∧ upScrub.granting 1 = true)
    ∧ upScrub.sched.running[(1 : Fin 4)] ≠ none
    ∧ ({ part := 1, grant := none, begun := false, running := false, done := false, start := 0 } : Scrub).part = 1 :=
  ⟨⟨takenUp _ _ _ _ rfl rfl (by decide), rfl, by decide, rfl, by decide, up_noConflict⟩,
    ⟨taken upGrant_free _ _ _ _ rfl rfl (by decide), rfl, by decide⟩, ⟨takenUp _ _ _ _ rfl rfl (by decide), rfl, rfl⟩,
    ⟨taken upScrub_free _ _ _ _ rfl rfl (by decide), rfl, rfl⟩, by decide, rfl⟩

/-- A span image of partition 0 without operations, laid out by hand from R58, R59 and R458: a span of 1,000 grains, the sections 1,
3 and 5, and one window of traffic. Its CRC and its digest are what CRC-32 and SHA-384 give. -/
def imageBytes : List Byte :=
  natLe 4 0x4E415053 ++ natLe 2 2 ++ natLe 2 0x80 ++ natLe 4 220 ++ natLe 4 1000 ++ natLe 2 3 ++ List.replicate 6 0 ++ natLe 8 1
    ++ List.replicate 48 0
    ++ [249, 126, 248, 253, 49, 78, 236, 10, 74, 162, 4, 111, 212, 101, 44, 191, 128, 237, 18, 201, 113, 29, 101, 93, 182, 142, 96, 195,
      253, 144, 88, 60, 255, 123, 244, 179, 235, 102, 112, 49, 40, 71, 159, 251, 147, 200, 155, 193]
    ++ (natLe 4 1 ++ natLe 4 192 ++ natLe 8 0) ++ (natLe 4 3 ++ natLe 4 192 ++ natLe 8 0)
    ++ (natLe 4 5 ++ natLe 4 192 ++ natLe 4 28 ++ natLe 4 3645709074) ++ List.replicate 16 0
    ++ (natLe 2 1000 ++ natLe 2 1 ++ natLe 2 1 ++ List.replicate 22 0)
/-- READY with bytes in the bulk window of mailbox 0. -/
def upBulk (bs : List Byte) : State :=
  { up with mem := memWriteN [] 0 bs }
theorem upBulk_free (bs : List Byte) : Free (upBulk bs) := ⟨rfl, rfl, rfl, rfl, rfl, rfl, up_free.2.2.2.2.2.2⟩
theorem upBulk_in (bs : List Byte) (op : Nat) (p : List Byte) (len : Word) (h : len.toNat = bs.length) :
    (upBulk bs).bulkIn (asSub op (cmd p len)) = bs := by
  show memReadN (memWriteN [] 0 bs) 0 len.toNat = bs
  rw [h]
  exact memReadN_memWriteN 0 bs rfl

/-- SHA-384 and CRC-32 of the image are those in it, and every other check of R66 holds. -/
theorem test_image_loads : (upBulk imageBytes).loadFails imageBytes = none := by
  rw [← Option.isNone_iff_eq_none]
  decide +kernel

/-- The image with a wrong first byte fails check 2 at header byte 0 (R66). -/
theorem test_bad_magic : up.loadFails (0 :: imageBytes.drop 1) = some { check := 2, detail := 0x07000000, deficit := 0 } := by
  decide +kernel

theorem met_ScheduleCommandsAnswer_load :
    ((upBulk imageBytes).Accepts 0x0201 (cmd [] 220)
      ∧ fieldAt ((upBulk imageBytes).bulkIn (asSub 0x0201 (cmd [] 220))) 18 1 = ((upBulk imageBytes).partOf (asSub 0x0201 (cmd [] 220))).val
      ∧ (upBulk imageBytes).loadFails ((upBulk imageBytes).bulkIn (asSub 0x0201 (cmd [] 220))) = none
      ∧ ((List.finRange 64).find? fun k => (upBulk imageBytes).sched.slots[k].isNone) = some 0)
    ∧ ((upBulk []).Accepts 0x0201 (cmd [] 0)
      ∧ fieldAt ((upBulk []).bulkIn (asSub 0x0201 (cmd [] 0))) 18 1 = ((upBulk []).partOf (asSub 0x0201 (cmd [] 0))).val
      ∧ ∃ f, (upBulk []).loadFails ((upBulk []).bulkIn (asSub 0x0201 (cmd [] 0))) = some f) := by
  refine ⟨⟨taken (upBulk_free _) _ _ _ _ rfl rfl (by decide), ?_, ?_, by decide⟩,
    taken (upBulk_free _) _ _ _ _ rfl rfl (by decide), ?_, ?_⟩
  · rw [upBulk_in _ _ _ _ (by decide +kernel)]
    decide
  · rw [upBulk_in _ _ _ _ (by decide +kernel)]
    exact test_image_loads
  · rw [upBulk_in _ _ _ _ rfl]
    rfl
  · rw [upBulk_in _ _ _ _ rfl, ← Option.isSome_iff_exists]
    decide +kernel

/-- An image of a partition and a rung, with its operations by target. -/
def anImage (p : Fin 4) (rung : Nat) (sections : List OpsSection) (params : List Byte) : Image :=
  { spanGrains := 1000, partition := p, rung := rung, coreMask := 0xFF, variantKind := 0, variantCore := 0, familySig := 1
    retrySlack := 0, ballastStart := 0, trigMask := 0, buildId := 0, digest := [], claims := [], triggers := [], flags := []
    sections := sections, traffic := [], objects := [], params := params }
/-- READY with the images of rungs 0 and 5 of family 1 in slots 0 and 63. -/
def upFam : State := { up with sched := { up.sched with
  slots := (up.sched.slots.set 0 (some (anImage 0 0 [] []))).set 63 (some (anImage 0 5 [] [])) } }
theorem upFam_free : Free upFam := ⟨rfl, rfl, rfl, rfl, rfl, rfl, up_free.2.2.2.2.2.2⟩
/-- SERVICE with slot 63 running for partition 0. -/
def upServe : State := { upFam with sched := { upFam.sched with state := .running, running := upFam.sched.running.set 0 (some 63) } }
theorem upServe_free : Free upServe := ⟨rfl, rfl, rfl, rfl, rfl, rfl, up_free.2.2.2.2.2.2⟩
/-- READY and REQUIRE_LOCK set. -/
def upNeed (aligned : Bool) (a : BaseState) : State :=
  { upFam with tu := { upFam.tu with requireLock := true, aligned := aligned, baseA := { upFam.tu.baseA with state := a } } }
theorem upNeed_free (b : Bool) (a : BaseState) : Free (upNeed b a) := ⟨rfl, rfl, rfl, rfl, rfl, rfl, up_free.2.2.2.2.2.2⟩

/-- The start of family 1. -/
theorem met_start (s : State) (hs : Free s) (h1 : s.sched = upFam.sched) (h2 : s.sec = upFam.sec) (h3 : s.timeReady = true) :
    s.Accepts 0x0202 (cmd [1] 0) ∧ s.sched.state = .stopped ∧ s.timeReady = true
      ∧ (0, anImage 0 0 [] []) ∈ s.familyOf 0 ((asSub 0x0202 (cmd [1] 0)).p 0 8) ∧ (anImage 0 0 [] []).rung = 0
      ∧ (63, anImage 0 5 [] []) ∈ s.familyOf 0 ((asSub 0x0202 (cmd [1] 0)).p 0 8) ∧ (anImage 0 5 [] []).rung = 5
      ∧ s.oddLength (fun p => (asSub 0x0202 (cmd [1] 0)).p (8 * p.val) 8) = none
      ∧ ∀ p : Fin 4, (asSub 0x0202 (cmd [1] 0)).p (8 * p.val) 8 ≠ 0 → s.sec.grants[p].state ≠ 2 := by
  refine ⟨taken hs _ _ _ _ rfl rfl (by decide), ?_, h3, ?_, rfl, ?_, rfl, ?_, ?_⟩
  · rw [h1]; rfl
  · unfold State.familyOf; rw [h1]; decide
  · unfold State.familyOf; rw [h1]; decide
  · unfold State.oddLength State.refLength State.familyOf; rw [h1]; decide
  · rw [h2]; decide

theorem met_ScheduleCommandsAnswer :
    upFam.timeReady = true
    ∧ (up.Accepts 0x0203 (cmd [] 0) ∧ up.sched.state = .stopped)
    ∧ (upServe.Accepts 0x0203 (cmd [] 0) ∧ upServe.sched.state ≠ .stopped)
    ∧ (upServe.Accepts 0x0204 (cmd [0, 5, 63] 0) ∧ (asSub 0x0204 (cmd [0, 5, 63] 0)).p 0 1 = 0 ∧ (asSub 0x0204 (cmd [0, 5, 63] 0)).p 1 1 = 5
      ∧ (asSub 0x0204 (cmd [0, 5, 63] 0)).p 2 1 = 63 ∧ upServe.sched.state = .running
      ∧ upServe.sec.grants[upServe.partOf (asSub 0x0204 (cmd [0, 5, 63] 0))].state ≠ 2)
    ∧ (upServe.Accepts 0x0205 (cmd [0] 0) ∧ (asSub 0x0205 (cmd [0] 0)).p 0 1 = (0 : Fin 64).val
      ∧ upServe.sched.slots[(0 : Fin 64)] = some (anImage 0 0 [] [])
      ∧ (anImage 0 0 [] []).partition = upServe.partOf (asSub 0x0205 (cmd [0] 0))
      ∧ (∀ p : Fin 4, upServe.sched.running[p] ≠ some 0) ∧ ∀ p : Fin 4, upServe.sched.latchSlot[p] ≠ some 0)
    ∧ (upFam.Accepts 0x0205 (cmd [63] 0) ∧ (asSub 0x0205 (cmd [63] 0)).p 0 1 = (63 : Fin 64).val
      ∧ upFam.sched.slots[(63 : Fin 64)] = some (anImage 0 5 [] []) ∧ upFam.sched.state = .stopped) :=
  ⟨rfl, ⟨takenUp _ _ _ _ rfl rfl (by decide), rfl⟩, ⟨taken upServe_free _ _ _ _ rfl rfl (by decide), by decide⟩,
    ⟨taken upServe_free _ _ _ _ rfl rfl (by decide), rfl, rfl, rfl, rfl, by decide⟩,
    ⟨taken upServe_free _ _ _ _ rfl rfl (by decide), rfl, rfl, rfl, by decide, by decide⟩,
    ⟨taken upFam_free _ _ _ _ rfl rfl (by decide), rfl, rfl, rfl⟩⟩

theorem met_StartNeedsTime :
    ((upNeed true .acquiring).Accepts 0x0202 (cmd [1] 0) ∧ (upNeed true .acquiring).sched.state = .stopped
      ∧ (upNeed true .acquiring).tu.requireLock = true
      ∧ ¬ ((upNeed true .acquiring).tu.aligned = true
        ∧ ((upNeed true .acquiring).tu.baseA.state = .locked ∨ (upNeed true .acquiring).tu.baseB.state = .locked)))
    ∧ ¬ ((upNeed false .locked).tu.aligned = true
        ∧ ((upNeed false .locked).tu.baseA.state = .locked ∨ (upNeed false .locked).tu.baseB.state = .locked))
    ∧ ((upNeed true .locked).tu.aligned = true ∧ (upNeed true .locked).tu.baseA.state = .locked ∧ (upNeed true .locked).timeReady = true)
    ∧ (upFam.tu.requireLock = false ∧ upFam.timeReady = true) :=
  ⟨⟨taken (upNeed_free _ _) _ _ _ _ rfl rfl (by decide), rfl, rfl, by decide⟩, by decide, ⟨rfl, rfl, rfl⟩, rfl, rfl⟩

/-- The start of the last two states. -/
theorem met_StartNeedsTime_start : (upNeed true .locked).Accepts 0x0202 (cmd [1] 0) ∧ upFam.Accepts 0x0202 (cmd [1] 0) :=
  ⟨(met_start _ (upNeed_free _ _) rfl rfl rfl).1, (met_start _ upFam_free rfl rfl rfl).1⟩

/-- READY with a SYS_RESET accepted. -/
def upDelay : State := { up with dev := { up.dev with resetPending := true } }
/-- READY with a PWR_CAP of tag 2 on its way. -/
def upCap : State := { up with fw := { up.fw with jobs := [{ mbx := 0, tag := 2, opcode := 0x1001, acceptDt := 0, kind := .pwrCap }] } }
theorem upCap_free : Free upCap := ⟨rfl, rfl, rfl, rfl, rfl, rfl, by decide, by decide⟩

theorem met_SystemCommandsAnswer :
    (up.Accepts 0x0102 (cmd [0] 0) ∧ (asSub 0x0102 (cmd [0] 0)).p 0 1 = 0 ∧ up.pins.thermtripN = true)
    ∧ (upDelay.dev.resetPending = true ∧ upDelay.dev.inReset = false ∧ upDelay.pins.thermtripN = true)
    ∧ up.dev.resetPending = false
    ∧ (up.Accepts 0x0103 (cmd [] 0) ∧ up.sched.state = .stopped)
    ∧ (upServe.Accepts 0x0103 (cmd [] 0) ∧ upServe.sched.state ≠ .stopped)
    ∧ (up.Accepts 0x1001 (cmd [0xE8, 3] 0) ∧ 1000 ≤ (asSub 0x1001 (cmd [0xE8, 3] 0)).p 0 4 ∧ (asSub 0x1001 (cmd [0xE8, 3] 0)).p 0 4 ≤ 35000
      ∧ up.fw.jobs = [])
    ∧ (upCap.Accepts 0x1001 (cmd [0xB8, 0x88] 0) ∧ (asSub 0x1001 (cmd [0xB8, 0x88] 0)).p 0 4 = 35000
      ∧ (upCap.fw.jobs.filter fun j => decide (j.kind = .pwrCap)) = upCap.fw.jobs)
    ∧ (up.Accepts 0x1001 (cmd [0xE7, 3] 0) ∧ ¬ (1000 ≤ (asSub 0x1001 (cmd [0xE7, 3] 0)).p 0 4 ∧ (asSub 0x1001 (cmd [0xE7, 3] 0)).p 0 4 ≤ 35000))
    ∧ (up.Accepts 0x1101 (cmd [3] 0) ∧ (asSub 0x1101 (cmd [3] 0)).p 0 1 ≤ 3) :=
  ⟨⟨takenUp _ _ _ _ rfl rfl (by decide), rfl, rfl⟩, ⟨rfl, rfl, rfl⟩, rfl, ⟨takenUp _ _ _ _ rfl rfl (by decide), rfl⟩,
    ⟨taken upServe_free _ _ _ _ rfl rfl (by decide), by decide⟩, ⟨takenUp _ _ _ _ rfl rfl (by decide), by decide, by decide, rfl⟩,
    ⟨taken upCap_free _ _ _ _ rfl rfl (by decide), rfl, by decide⟩, ⟨takenUp _ _ _ _ rfl rfl (by decide), by decide⟩,
    ⟨takenUp _ _ _ _ rfl rfl (by decide), by decide⟩⟩

/-- For each check of R347, in its order, a command that fails it and none before it; the last fails none. -/
theorem met_ChecksComeInOrder :
    cmdForm 0x0109 = none
    ∧ (cmdForm (0x0100 : Half).toNat = some ⟨false, [], 0⟩ ∧ ({ cmd [] 0 with partition := 1 } : Entry).partition.toNat ≠ up.mbx[(0 : Fin 8)].partition.val)
    ∧ (cmdForm (0x0103 : Half).toNat = some ⟨true, [], 0⟩
      ∧ ({ up.mbx[(0 : Fin 8)] with partition := 1 } : Mbx).partition ≠ 0)
    ∧ (({ up with dev := { up.dev with phase := .fault } } : State).serves 0 0x0201 = false ∧ up.serves 0 0x0201 = true)
    ∧ (0xFEFF < ({ cmd [] 0 with tag := 0xFF00 } : Entry).tag.toNat ∧ (2 : Half) ∈ upCap.accepted 0 ∧ (cmd [] 0).tag ∉ up.accepted 0)
    ∧ (1 < ({ cmd [] 0 with flags := 2 } : Entry).flags.toNat ∧ ({ cmd [] 0 with reserved := 1 } : Entry).reserved ≠ 0)
    ∧ ((⟨false, [], 1⟩ : CmdForm).badByte 0x0101 [0, 1] = some 17
      ∧ (⟨false, [(1, 3)], 196⟩ : CmdForm).badByte 0x0301 [0, 0, 0, 1] = some 19
      ∧ (⟨false, [], 1⟩ : CmdForm).badByte 0x0101 [1, 0] = none)
    ∧ (({ cmd [] 0 with bulkOffset := 32 } : Entry).bulkOffset.toNat % 64 ≠ 0
      ∧ 0x200000 < ({ cmd [] 0 with bulkOffset := 0x200040 } : Entry).bulkOffset.toNat)
    ∧ (0x200000 < ({ cmd [] 64 with bulkOffset := 0x200000 } : Entry).bulkOffset.toNat + (64 : Word).toNat
      ∧ (cmd [] 0).bulkLength = 0 ∧ up.mbx[(0 : Fin 8)].bulkMapped = true) :=
  ⟨rfl, ⟨rfl, by decide⟩, ⟨rfl, by decide⟩, ⟨by decide, rfl⟩, ⟨by decide, by decide, by decide⟩, ⟨by decide, by decide⟩,
    ⟨by decide, by decide, by decide⟩, ⟨by decide, by decide⟩, ⟨by decide, rfl, rfl⟩⟩

/-- The second part: a command that fails a check on a mailbox that is served. -/
theorem met_ChecksComeInOrder_serve : up.takes 0 = true ∧ up.fw.queue = [] ∧ up.inFlight 0 < 64
    ∧ up.orderedWaits { cmd [] 0 with tag := 0xFF00 } = false
    ∧ up.acceptCheck (asSub 0x0100 { cmd [] 0 with tag := 0xFF00 }) = some (0x0102, 2) :=
  ⟨rfl, rfl, by decide, rfl, rfl⟩

/-! ## A span that runs -/

/-- An operation of a code that waits for nothing and sets nothing. -/
def anOp (code : Nat) : Op :=
  { opcode := code, wait := false, set := false, clearOnIssue := false, retryable := false, waitFlag := 0, setFlag := 0, earliest := 0
    latest := 3, argA := 0, argB := 0 }
/-- SERVICE at grain 5 of a span that started at 0: slot 0 runs for the partition with the operations of one target. -/
def span (p : Fin 4) (t : Target) (ops : List Op) (params : List Byte) : State :=
  { up with
    tu := { up.tu with dt := BitVec.ofNat 96 (5000 * 2 ^ 32) }
    sched := { up.sched with
      state := .running, beforeS0 := false, spanGrains := 1000, nextBoundary := 1000000, running := up.sched.running.set p (some 0)
      slots := up.sched.slots.set 0 (some (anImage p 0 [{ target := t.code, ops := ops }] params)) } }

/-- The next operation of a target has a code and may issue. -/
def canIssue (s : State) (t : Target) (code : Nat) (u : Option OpUnit) : Bool :=
  match s.nextOp t with
  | some n => decide (n.op.opcode = code) && s.mayIssue t n.op u
  | none => false
theorem issues {s : State} {t : Target} {code : Nat} {u : Option OpUnit} (h : canIssue s t code u = true) : ∃ n, s.Issues t code u n := by
  unfold canIssue at h
  split at h
  · rename_i n hn
    obtain ⟨h1, h2⟩ := Bool.and_eq_true_iff.1 h
    exact ⟨n, hn, of_decide_eq_true h1, h2⟩
  · exact absurd h (by decide)

/-- The running state of a sequencer changed. -/
def withSeq (s : State) (t : Target) (f : Seq → Seq) : State := s.onSeq t f

/-- On a core and on the pose engine: an operation that issues; one that waits for a flag that is CLEAR; a section that has ended. -/
theorem met_CommonOperationsComplete :
    (∀ code ∈ [0x00, 0x01, 0x02, 0x05], ∀ t ∈ [Target.core 7, .fus, .sm 0], ∃ n, (span 0 t [anOp code] []).Issues t code none n)
    ∧ (∀ code ∈ [0x00, 0x01, 0x02, 0x05], ∃ n, (span 0 .fus [{ anOp code with wait := true }] []).nextOp .fus = some n ∧ n.op.opcode = code
        ∧ (span 0 .fus [{ anOp code with wait := true }] []).mayIssue .fus n.op none = false)
    ∧ ((span 0 .fus [] []).nextOp .fus).isNone = true := by
  refine ⟨?_, ?_, rfl⟩
  · have h : ∀ code ∈ [0x00, 0x01, 0x02, 0x05], ∀ t ∈ [Target.core 7, .fus, .sm 0], canIssue (span 0 t [anOp code] []) t code none = true := by
      decide
    exact fun code hc t ht => issues (h code hc t ht)
  · intro code hc
    simp only [List.mem_cons, List.not_mem_nil, or_false] at hc
    rcases hc with rfl | rfl | rfl | rfl <;> exact ⟨_, rfl, rfl, by decide⟩

/-- A BARRIER of two sequencers: both have arrived, or one has not. -/
def barrierState (both : Bool) : State :=
  let op : Op := { anOp 0x03 with argA := 1, argB := 2 ^ 0x14 + 2 ^ 0x15 }
  let s := span 0 .fus [op] []
  let s : State := { s with sched := { s.sched with
    slots := s.sched.slots.set 0 (some (anImage 0 0 [{ target := 0x14, ops := [op] }, { target := 0x15, ops := [op] }] [])) } }
  let s := withSeq s .fus fun q => { q with barriers := [1] }
  if both then withSeq s .fld fun q => { q with barriers := [1] } else s
theorem met_CommonOperationsComplete_barrier : ∀ both : Bool, canIssue (barrierState both) .fus 0x03 none = true
    ∧ (((barrierState both).nextOp .fus).any fun n => decide (n.op.argA ∈ ((barrierState both).seq .fus).barriers)
        && decide (((barrierState both).barrierAbsent n.part n.op.argA n.op.argB = []) ↔ both = true)) = true := by
  decide

theorem met_OperationsStart :
    (∀ x ∈ [(Target.sm 0, 0x10, OpUnit.main), (.sm 0, 0x11, .main), (.ife, 0x10, .main), (.pw, 0x10, .main), (.pw, 0x11, .main),
        (.fe, 0x10, .main), (.trk, 0x10, .main), (.fth, 0x10, .main), (.ps, 0x11, .vector), (.mv, 0x10, .main), (.slv, 0x12, .main),
        (.core 0, 0x10, .main), (.core 1, 0x11, .main), (.core 6, 0x20, .vector), (.core 7, 0x04, .dma)],
      ∃ n, (span 0 x.1 [anOp x.2.1] []).Issues x.1 x.2.1 (some x.2.2) n)
    ∧ (∃ n, (span 0 .fus [anOp 0x04] []).Issues .fus 0x04 (some .main) n
        ∧ (span 0 .fus [anOp 0x04] []).dmaPoison .fus (n.img.dmaDesc n.op.argB) = false) := by
  refine ⟨?_, ?_⟩
  · have h : ∀ x ∈ [(Target.sm 0, 0x10, OpUnit.main), (.sm 0, 0x11, .main), (.ife, 0x10, .main), (.pw, 0x10, .main), (.pw, 0x11, .main),
        (.fe, 0x10, .main), (.trk, 0x10, .main), (.fth, 0x10, .main), (.ps, 0x11, .vector), (.mv, 0x10, .main), (.slv, 0x12, .main),
        (.core 0, 0x10, .main), (.core 1, 0x11, .main), (.core 6, 0x20, .vector), (.core 7, 0x04, .dma)],
        canIssue (span 0 x.1 [anOp x.2.1] []) x.1 x.2.1 (some x.2.2) = true := by decide
    exact fun x hx => issues (h x hx)
  · exact ⟨_, ⟨rfl, rfl, by decide⟩, by decide +kernel⟩

theorem met_FieldAndFusionOperationsStart :
    (∀ code ∈ [0x10, 0x11, 0x12, 0x13, 0x14, 0x15, 0x16, 0x17], ∃ n, (span 0 .fld [anOp code] []).Issues .fld code (some .main) n)
    ∧ (∀ code ∈ [0x11, 0x12, 0x13, 0x14, 0x15, 0x16, 0x17, 0x18], ∃ n, (span 0 .fus [anOp code] []).Issues .fus code (some .main) n) := by
  have h : (∀ code ∈ [0x10, 0x11, 0x12, 0x13, 0x14, 0x15, 0x16, 0x17], canIssue (span 0 .fld [anOp code] []) .fld code (some .main) = true)
      ∧ ∀ code ∈ [0x11, 0x12, 0x13, 0x14, 0x15, 0x16, 0x17, 0x18], canIssue (span 0 .fus [anOp code] []) .fus code (some .main) = true := by
    decide
  exact ⟨fun c hc => issues (h.1 c hc), fun c hc => issues (h.2 c hc)⟩

theorem met_WindowsOpen :
    (∀ x ∈ [(Target.mv, 0x10), (.slv, 0x10), (.slv, 0x11), (.ps, 0x10), (.fus, 0x10)],
      ∃ n, (span 0 x.1 [anOp x.2] (List.replicate 128 0)).Issues x.1 x.2 (some .main) n)
    ∧ (span 0 .slv [anOp 0x11] []).slv.queueEn = false ∧ (span 0 .ps [anOp 0x10] []).ps.queueEn = false
    ∧ (span 0 .ps [anOp 0x10] []).ps.queries = [] ∧ (span 0 .fus [anOp 0x10] []).activeBind 0 = none := by
  have h : ∀ x ∈ [(Target.mv, 0x10), (.slv, 0x10), (.slv, 0x11), (.ps, 0x10), (.fus, 0x10)],
      canIssue (span 0 x.1 [anOp x.2] (List.replicate 128 0)) x.1 x.2 (some .main) = true := by decide
  exact ⟨fun x hx => issues (h x hx), rfl, rfl, rfl, rfl⟩

/-- A DMA that runs, writing two bytes of DRAM. -/
def aRun (u : OpUnit) (code : Nat) (w : List MemWrite) : Running :=
  { unit := u, index := 0, op := anOp code, startDt := 0, cycles := 0, writes := w, chk := .clean, rerun := false, aux := [] }
/-- The top of DRAM. -/
def aWrite : MemWrite := { space := .device, addr := 0x600000000 - 2, data := [1, 2] }

theorem met_OperationsEnd :
    (((span 0 .fus [] []).seq .fus).running.find? fun r => decide (r.unit = .main) && (span 0 .fus [] []).mayEnd .fus r) = none
    ∧ (∀ p : Fin 4, let s := withSeq (span p (.sm p) [anOp 0x04] []) (.sm p) fun q => { q with running := [aRun .main 0x04 [aWrite]] }
      ((s.seq (.sm p)).running.find? fun r => decide (r.unit = .main) && s.mayEnd (.sm p) r) = some (aRun .main 0x04 [aWrite])
      ∧ memRange aWrite.addr aWrite.data.length = true ∧ memWf s.mem = true)
    ∧ (∀ c ∈ [(0 : Fin 8), 7], let s := withSeq (span 0 (.core c) [anOp 0x20] []) (.core c) fun q => { q with running := [aRun .vector 0x20 []] }
      ((s.seq (.core c)).running.find? fun r => decide (r.unit = .vector) && s.mayEnd (.core c) r) = some (aRun .vector 0x20 [])) := by
  decide

/-- A section whose operation waits for a flag that is VOID. -/
def voidState : State := { span 0 .fus [{ anOp 0x04 with wait := true, waitFlag := 9, set := true, setFlag := 4095 }] [] with
  flags := [(9, .void false)] }
theorem met_SkipsAndOverruns :
    ((voidState.nextOp .fus).any fun n => decide (n.op.earliest ≤ voidState.grain) && n.op.wait && voidState.flagVoid n.op.waitFlag) = true
    ∧ voidState.sectionOpen = true ∧ (voidState.seq .fus).halted = false
    ∧ (((span 0 .fus [anOp 0x04] []).nextOp .fus).isSome
      && (((span 0 .fus [anOp 0x04] []).sectionOf .fus).any fun x =>
        (firstLate ((span 0 .fus [anOp 0x04] []).seq .fus).overran (span 0 .fus [anOp 0x04] []).grain 0 x.2.2).isSome)) = true
    ∧ (span 0 .fus [anOp 0x04] []).inSpan = true := by decide
/-- The same of PS_FILE. -/
def voidFile : State := { span 0 .ps [{ anOp 0x11 with wait := true, waitFlag := 9 }] [] with flags := [(9, .void false)] }
theorem met_SkipsAndOverruns_file : ((voidFile.nextOp .ps).any fun n =>
    decide (n.op.opcode = 0x11 ∧ n.op.earliest ≤ voidFile.grain) && n.op.wait && voidFile.flagVoid n.op.waitFlag) = true
    ∧ voidFile.sectionOpen = true ∧ (voidFile.seq .ps).halted = false := by decide

/-- SERVICE with the latch due, with it taken and the boundary due, and with neither. -/
def timed (ns : Nat) (latched : Bool) : State :=
  let s := span 0 (.core 7) [] []
  { s with
    tu := { s.tu with dt := BitVec.ofNat 96 (ns * 2 ^ 32) }, sched := { s.sched with latched := latched }
    pm := { s.pm with pmbusOk := true, cores := s.pm.cores.set 7 { s.pm.cores[(7 : Fin 8)] with op := 7, stopped := false } } }
theorem met_ScheduleEventsHappen :
    ((timed 5000 false).claimOf 7).any (fun x => decide (x.ballastStart ≤ (timed 5000 false).grain))
      = true ∧ (timed 5000 false).sectionOpen = true ∧ ((timed 5000 false).seq (.core 7)).running = []
    ∧ (timed 5000 false).clockStopped 7 = false
    ∧ (min (timed 5000 false).pm.ceiling.toNat 7 ≤ 7 ∧ min (timed 5000 false).pm.ceiling.toNat (if (timed 5000 false).pm.pmbusOk then 7 else 5)
      ≤ (timed 5000 false).pm.cores[(7 : Fin 8)].op.toNat)
    ∧ ((timed 950000 false).schedOn = true ∧ (timed 950000 false).sched.latched = false
      ∧ (timed 950000 false).sched.nextBoundary ≤ (timed 950000 false).dtNs + 50000)
    ∧ ((timed 949999 false).dtNs + 50000 < (timed 949999 false).sched.nextBoundary)
    ∧ (up.schedOn = false ∧ (timed 950000 true).sched.latched = true)
    ∧ ((timed 1000000 true).schedOn = true ∧ (timed 1000000 true).sched.nextBoundary ≤ (timed 1000000 true).dtNs)
    ∧ (timed 999999 true).dtNs < (timed 999999 true).sched.nextBoundary := by decide

theorem met_BoundaryStartsTheLatchedSpan : (timed 1000000 true).sched.state = .running ∧ (timed 1000000 true).sched.latched = true
    ∧ (timed 1000000 true).sched.nextBoundary ≤ (timed 1000000 true).dtNs ∧ (timed 1000000 true).sched.nextBoundary < 2 ^ 64 := by
  decide

/-! ## The host port, resets and time -/

/-- A device in a phase, with one field of `dev` changed. -/
def inPhase (p : Phase) : State := { up with dev := { up.dev with phase := p } }
/-- The host port in 8D-8D-8D, with its CRC on. -/
def up8 (crc : Bool) : State := { up with port := { up.port with mode := 1, crcEn := crc } }
/-- A frame of four bytes at the end of the bulk window of mailbox 0. -/
def aFrame (op complement : Byte) (crc : Half) : Frame :=
  { opcode := op, complement := complement, addr := 0x11FFFFC, len := 3, data := [1, 2, 3, 4], crc := crc, clocks := 0 }

theorem met_ShortFramesAct : up.dev.portUp = true ∧ (inPhase .parked).dev.phase = .parked ∧ up.dev.phase ≠ .parked
    ∧ State.reset.dev.portUp = false ∧ up.port.mode ≠ 1 ∧ (up8 false).port.mode = 1 ∧ (up8 false).dev.portUp = true
    ∧ (∀ op ∈ [(0x9F : Byte), 0xAB, 0xF0], (aFrame op 1 0).complement ∉ [(0x60 : Byte), 0x54, 0x0F]
      ∧ (Instr.write (aFrame op 1 0)).wellFormed = true)
    ∧ (up8 false).port.errCount ≠ 0xFFFF := by decide

theorem met_FramesMoveWindowBytes :
    (∀ f ∈ [aFrame 0x02 0xFD (crc16 (frameHead (aFrame 0x02 0xFD 0) ++ [1, 2, 3, 4])), aFrame 0x02 0xFD
          (~~~ crc16 (frameHead (aFrame 0x02 0xFD 0) ++ [1, 2, 3, 4])), aFrame 0x0B 0xF4 0],
      let n := (f.len &&& 0x0FFF).toNat + 1
      (up8 true).dev.portUp = true ∧ (up8 true).port.mode = 1 ∧ f.len >>> 12 = 0 ∧ n % 4 = 0 ∧ 0x1FFFFC % 4 = 0
        ∧ f.addr.toNat = 0x1000000 + 0x200000 * (0 : Fin 8).val + 0x1FFFFC ∧ 0x1FFFFC + n ≤ 0x200000 ∧ n ≤ f.data.length)
    ∧ ((up8 true).port.crcEn = true ∧ (up8 true).windowOpen 0 = true ∧ memWf (up8 true).mem = true)
    ∧ ((up8 false).port.crcEn = false ∧ (up8 false).windowOpen 1 = false)
    ∧ crc16 (frameHead (aFrame 0x02 0xFD 0) ++ [1, 2, 3, 4]) ≠ ~~~ crc16 (frameHead (aFrame 0x02 0xFD 0) ++ [1, 2, 3, 4])
    ∧ (up8 true).port.errCount ≠ 0xFFFF := by decide +kernel

/-- A state in which the watchdog expires, one in which SYS_RESET's delay is over, and one in a reset. -/
def upWatch (bit : Bool) : State := { up with dev := { up.dev with wdArmed := true, wdBits := Vector.replicate 2 bit } }
theorem met_PortModeRules : (up.dev.phase ≠ .unpowered ∧ up.pins.poresetN = true)
    ∧ (up.dev.inReset = false ∧ up.pins.thermtripN = true) ∧ upDelay.dev.resetPending = true
    ∧ (∀ cp : Fin 2, (upWatch false).isReady = true ∧ (upWatch false).dev.fatal = false ∧ (upWatch false).dev.wdArmed = true
      ∧ (upWatch false).dev.wdBits[cp] = false) ∧ up.dev.portUp = true := by decide

theorem met_DirectRegisterWrites : up.dev.portUp = true ∧ up.ringsServed = true ∧ up.mbx[(0 : Fin 8)].state = .opened
    ∧ (up.mbx[(0 : Fin 8)].sqTail - up.mbx[(0 : Fin 8)].sqHead).toNat ≤ ((63 : Word).setWidth 6 - up.mbx[(0 : Fin 8)].sqHead).toNat
    ∧ (let m : Mbx := { up.mbx[(0 : Fin 8)] with sqTail := 2 }; ((1 : Word).setWidth 6 - m.sqHead).toNat < (m.sqTail - m.sqHead).toNat)
    ∧ (let m : Mbx := { up.mbx[(0 : Fin 8)] with cqTail := 2 }; ((2 : Word).setWidth 8 - m.cqHead).toNat ≤ (m.cqTail - m.cqHead).toNat
      ∧ m.held = []) := by decide

/-- READY with one entry of mailbox 0 pending, and with a completion held. -/
def upPend : State := { up with mbx := up.mbx.set 0 { up.mbx[(0 : Fin 8)] with sqTail := 1 } }
theorem met_RingsMoveTheirEntries :
    up.mbx[(1 : Fin 8)].state ≠ .opened
    ∧ (up.mbx[(0 : Fin 8)].state = .opened ∧ up.ringsServed = true ∧ up.mbx[(0 : Fin 8)].sqHead = up.mbx[(0 : Fin 8)].sqTail)
    ∧ (upPend.mbx[(0 : Fin 8)].state = .opened ∧ upPend.ringsServed = true
      ∧ upPend.mbx[(0 : Fin 8)].sqTail = upPend.mbx[(0 : Fin 8)].sqHead + 1 ∧ upPend.inFlight 0 < 64)
    ∧ (let m : Mbx := { upFull.mbx[(0 : Fin 8)] with held := [completionOf 0x0100 (cmd [] 0) 0 0 0 0 0 0] }
      m.held = completionOf 0x0100 (cmd [] 0) 0 0 0 0 0 0 :: [] ∧ ([] : List Completion).length + (m.cqTail - 255).toNat < 254
        ∧ memWf m.cq = true) := by decide

theorem met_RegistersAreAccessed : up.reaches 1 = true ∧ up.reaches 2 = true ∧ State.reset.reaches 2 = false
    ∧ State.reset.reaches 1 = false ∧ (blockOf (0x20 : Byte).toNat).isNone = true := by decide

theorem met_ColdResetEntered : up.dev.phase ≠ .unpowered ∧ up.pins.poresetN = true ∧ State.reset.pins.poresetN = false := by decide

theorem met_BootRunsInOrder : (inPhase .unpowered).dev.phase = .unpowered ∧ State.reset.dev.phase = .coldReset
    ∧ (let s : State := { inPhase .bootRom with dev := { (inPhase .bootRom).dev with portUp := false } }
      s.dev.inReset = false ∧ s.dev.portUp = false)
    ∧ State.reset.dev.inReset = true ∧ (inPhase .bootRom).dev.phase = .bootRom
    ∧ ((inPhase .dramInit).dev.phase = .dramInit ∧ (inPhase .dramInit).bootSource ≠ 1)
    ∧ (let s : State := { inPhase .dramInit with pins := { up.pins with bootSrc := 1 } }
      s.dev.phase = .dramInit ∧ s.bootSource = 1 ∧ s.dev.warmBoot = false) := by decide

theorem met_FirmwareStarts :
    (let s := inPhase .fwVerify;
      s.dev.phase = .fwVerify ∧ s.dev.warmBoot = false ∧ s.bootSource = 0 ∧ s.sec.preferred = false ∧ s.sec.slotPasses 0 = false
        ∧ s.sec.slotPasses 1 = false)
    ∧ ((inPhase .fwStart).dev.phase = .fwStart ∧ (inPhase .fwStart).dev.fatal = false)
    ∧ (let s : State := { inPhase .fwStart with
        dev := { (inPhase .fwStart).dev with fatal := true }, pins := { up.pins with faultN := false } }
      s.dev.fatal = true ∧ s.pins.faultN = false) := by decide

/-- A boot from a slot that passes: what its signatures say is a premise. -/
theorem met_FirmwareStarts_slot (img : FwImage) (pref : Bool) (x : Security)
    (hx : x = { up.sec with preferred := pref, slots := Vector.replicate 2 img }) (ok : x.slotPasses (if pref then 1 else 0) = true) :
    ({ inPhase .fwVerify with sec := x } : State).dev.phase = .fwVerify
      ∧ ({ inPhase .fwVerify with sec := x } : State).dev.warmBoot = false
      ∧ ({ inPhase .fwVerify with sec := x } : State).sec.preferred = pref
      ∧ ({ inPhase .fwVerify with sec := x } : State).sec.slotPasses (if pref then 1 else 0) = true :=
  ⟨rfl, rfl, by rw [hx], ok⟩

theorem met_EachResetSetsItsCause : (up.dev.phase ≠ .unpowered ∧ up.pins.poresetN = true)
    ∧ (up.dev.inReset = false ∧ up.pins.thermtripN = true) ∧ upDelay.dev.resetPending = true
    ∧ ∀ cp : Fin 2, (upWatch false).isReady = true ∧ (upWatch false).dev.fatal = false ∧ (upWatch false).dev.wdArmed = true
      ∧ (upWatch false).dev.wdBits[cp] = false := by decide

theorem met_WarmResetKeepsItsState : (up.dev.inReset = false ∧ up.pins.thermtripN = true) ∧ State.reset.dev.inReset = true
    ∧ (inPhase .warmReset).dev.phase = .warmReset
    ∧ ∀ cp : Fin 2, up.cpRuns cp = true ∧ (upWatch true).dev.wdArmed = true ∧ (upWatch true).dev.fatal = false
      ∧ (upWatch true).isReady = true ∧ (upWatch true).dev.wdBits[cp] = true ∧ (upWatch false).dev.wdBits[cp] = false := by decide

theorem met_ParkAndWake :
    (let s : State := { up with dev := { up.dev with parkReady := true } }; s.dev.parkReady = true ∧ s.isReady = true)
    ∧ up.dev.parkReady = false ∧ (inPhase .waking).dev.phase = .waking ∧ up.dev.phase ≠ .waking := by decide

theorem met_TimeAdvances : up.timeStopped = false ∧ State.reset.timeStopped = true ∧ up.tu.aligned = false := by decide

/-- READY with base A in a state, following PPS_IN or not, its counter at half a second. -/
def upBase (st : BaseState) (pps : Bool) : State := { up with tu := { up.tu with
  baseA := { up.tu.baseA with state := st, srcPps := pps, prev := none, count := BitVec.ofNat 96 (500000000 * 2 ^ 32), goodRun := 7 } } }
theorem met_BasesFollowTheirSources :
    (up.timeStopped = false ∧ (upBase .disabled false).tu.baseA.state = .disabled)
    ∧ ((upBase .acquiring false).tu.baseA.state = .acquiring ∧ (upBase .acquiring false).tu.baseA.prev = none
      ∧ (upBase .acquiring false).tu.baseA.goodRun = 7 ∧ (upBase .acquiring false).tu.baseA.srcPps = false)
    ∧ (1000000 < (signedOf 64 ((0 : Word).toNat * 2 ^ 32 + (1000001 : Word).toNat)).natAbs
      ∧ (signedOf 64 ((0 : Word).toNat * 2 ^ 32 + (1000000 : Word).toNat)).natAbs ≤ 1000000
      ∧ (signedOf 64 ((0 : Word).toNat * 2 ^ 32 + up.tu.lockNs.toNat)).natAbs ≤ up.tu.lockNs.toNat
      ∧ up.tu.lockNs.toNat < (signedOf 64 ((0 : Word).toNat * 2 ^ 32 + (up.tu.lockNs.toNat + 1))).natAbs)
    ∧ (let s : State := { upBase .locked false with tu := { (upBase .locked false).tu with tbl := BitVec.ofNat 96 (2 ^ 40 * 2 ^ 32) } }
      s.tu.baseA.state ≠ .disabled ∧ s.tu.baseA.state ≠ .lost ∧ s.tu.baseA.measAt + s.tu.timeout.toNat * 100000000 ≤ s.tblNs)
    ∧ (upBase .locked false).tblNs < (upBase .locked false).tu.baseA.measAt + (upBase .locked false).tu.timeout.toNat * 100000000
    ∧ (up.tu.baseA.onPps = false ∧ up.tu.baseB.onPps = false)
    ∧ ((upBase .locked true).tu.baseA.refusesEdge = true ∧ (upBase .locked true).tu.baseA.ppsRejects < 2
      ∧ (upBase .locked true).tu.baseB.onPps = false)
    ∧ (let s : State := { up with tu := { up.tu with ppsLast := some 0, tbl := BitVec.ofNat 96 (1001000000 * 2 ^ 32) } }
      s.tu.ppsLast = some 0 ∧ 0 + (s.tu.ppsMissed + 1) * 1000000000 + 1000000 ≤ s.tblNs)
    ∧ up.tblNs < 0 + (up.tu.ppsMissed + 1) * 1000000000 + 1000000 := by decide

/-- READY at 5,000 ns with trigger pin 15 in a mode, its next instant and the end of its pulse given. -/
def upPulse (mode : BitVec 2) (next fin : Option Nat) (table : List TrigDue) : State := { up with tu := { up.tu with
  dt := BitVec.ofNat 96 (5000 * 2 ^ 32), table := table
  trigs := up.tu.trigs.set 15 { up.tu.trigs[(15 : Fin 16)] with mode := mode, nextAt := next, pulseEnd := fin } } }
/-- An entry of the trigger table that is due. -/
def aDue : TrigDue := { due := 5000, pin := 15, width := 10, stamps := false, stream := 0 }
theorem met_PulsePinsAreDriven :
    (∀ m ∈ [(1 : BitVec 2), 2], let s := upPulse m (some 5000) none [];
      s.pinsDriven = true ∧ (s.tu.trigs[(15 : Fin 16)].mode = 1 ∨ s.tu.trigs[(15 : Fin 16)].mode = 2)
        ∧ s.tu.trigs[(15 : Fin 16)].nextAt = some 5000 ∧ 5000 ≤ s.dtNs ∧ s.tu.trigs[(15 : Fin 16)].pulseEnd = none)
    ∧ ((upPulse 1 (some 5000) (some 6000) []).tu.trigs[(15 : Fin 16)].pulseEnd = some 6000)
    ∧ ((upPulse 1 (some 5001) none []).dtNs < 5001)
    ∧ (let s := upPulse 3 none none [aDue];
      s.tu.trigs[(15 : Fin 16)].mode = 3 ∧ s.tu.trigs[(15 : Fin 16)].pulseEnd = none ∧ aDue.stamps = false
        ∧ s.tu.table.find? (fun d => decide (d.pin = (15 : Fin 16).val ∧ d.due ≤ s.dtNs)) = some aDue)
    ∧ (5000 ≤ (upPulse 0 none (some 5000) []).dtNs ∧ (upPulse 0 none (some 5001) []).dtNs < 5001)
    ∧ (let s : State := { up with tu := { up.tu with ppsOutEn := true, dt := BitVec.ofNat 96 (1000000000 * 2 ^ 32) } }
      s.tu.ppsOutEn = true ∧ s.pinsDriven = true ∧ s.tu.ppsOutSec < s.tu.ppsOutNow)
    ∧ up.tu.ppsOutNow ≤ up.tu.ppsOutSec
    ∧ (let s : State := { up with tu := { up.tu with ppsOutEnd := some 0 } }; s.tu.ppsOutEnd = some 0 ∧ 0 ≤ s.dtNs) := by decide

/-- A Sync message of EtherType 0x88F7, one-step or two-step, and a frame without PTP. -/
def syncFrame (twoStep : Bool) : List Byte :=
  List.replicate 12 0 ++ [0x88, 0xF7, 0x00, 0x02, 0, 0, 0, 0, if twoStep then 0x02 else 0] ++ List.replicate 40 0
theorem met_TheBridgeCorrectsResidence :
    (State.reset.dev.ethForward = false)
    ∧ (let s : State := { up with dev := { up.dev with ethForward := true } }
      s.dev.ethForward = true ∧ s.peerMode .portA = false ∧ s.peerMode .portB = false ∧ s.tu.heldSyncs = [])
    ∧ up.tu.serving 0 = none
    ∧ ({ up.tu with baseA := { up.tu.baseA with state := .locked } } : TimeUnit).serving 0 = some .tbA
    ∧ ptpAt (List.replicate 64 0) = none
    ∧ (∀ b : Bool, ptpAt (syncFrame b) = some (14, none) ∧ ptpType (syncFrame b) 14 = 0 ∧ 48 ≤ (syncFrame b).length
      ∧ ptpTwoStep (syncFrame b) 14 = b) := by decide

/-! ## Arrivals -/

/-- A descriptor: kind, index, mode, flags, one slot of two pecks, and its source block. -/
def aDesc (kind index mode flags : Byte) (source : List Byte) : List Byte :=
  [kind, index, mode, 0, 0, 0, flags, 0, 0, 0, 2, 0, 2, 0, 1, 0] ++ List.replicate 16 0 ++ source ++ List.replicate (160 - source.length) 0
/-- READY with channel 31 running such a descriptor, its slots, its OPEN frame and the exposure it expects. -/
def upStream (d : List Byte) (runs : Bool) (slots : List Slot) (frame : Option Nat) (expect : Option (Nat × Option Nat)) : State :=
  { up with sm := { up.sm with chans := up.sm.chans.set 31 { up.sm.chans[(31 : Fin 32)] with
    desc := some d, runs := runs, everEnabled := true, slots := slots, frame := frame, expect := expect } } }
/-- A camera of group 3, virtual channel 15, RAW8 of 4 by 2, triggered or not. -/
def camera (trig : Bool) : List Byte :=
  aDesc 1 3 0 (if trig then 3 else 1) [15, 0x2A, 0, 0, 4, 0, 2, 0, 4, 0, 0, 0]
/-- An OPEN slot of a unit that opened under a descriptor. -/
def openedSlot (d : List Byte) (count : Nat) : Slot := { Slot.empty with state := .opened, desc := d, count := count }

theorem met_CameraFramesArrive :
    (∀ trig : Bool, ∀ slots ∈ [[Slot.empty], [openedSlot (camera trig) 1], [openedSlot (camera trig) 2]], ∀ runs : Bool,
      let s := upStream (camera trig) runs slots none (some (0, some 0))
      s.smUp = true ∧ s.csiChannel 3 15 = some (31, camera trig) ∧ dTriggered (camera trig) = trig)
    ∧ (let s := upStream (camera false) true [Slot.empty] none none;
      s.sm.chans[(31 : Fin 32)].runs = true ∧ s.sm.chans[(31 : Fin 32)].frame = none ∧ s.sm.chans[(31 : Fin 32)].freeIdx = some 0)
    ∧ (let s := upStream (camera true) true [openedSlot (camera true) 0] none (some (7, some 0));
      s.sm.chans[(31 : Fin 32)].expect = some (7, some 0) ∧ 0 < s.sm.chans[(31 : Fin 32)].slots.length)
    ∧ (upStream (camera true) true [openedSlot (camera true) 0] none none).sm.chans[(31 : Fin 32)].expect = none
    ∧ (let s := upStream (camera false) true [openedSlot (camera false) 1] (some 0) none;
      s.sm.chans[(31 : Fin 32)].frame = some 0 ∧ 0 < s.sm.chans[(31 : Fin 32)].slots.length ∧ (0x2A : Byte).toNat = dfield (s.sm.chans[(31 : Fin 32)].slot 0).desc 33 1
        ∧ (s.sm.chans[(31 : Fin 32)].slot 0).count < dHeight (s.sm.chans[(31 : Fin 32)].slot 0).desc)
    ∧ (let s := upStream (camera false) true [openedSlot (camera false) 2] (some 0) none;
      dHeight (s.sm.chans[(31 : Fin 32)].slot 0).desc ≤ (s.sm.chans[(31 : Fin 32)].slot 0).count ∧ (s.sm.chans[(31 : Fin 32)].slot 0).state = .opened)
    ∧ (upStream (camera false) false [] none none).sm.chans[(31 : Fin 32)].runs = false := by decide +kernel

/-- An Ethernet channel of either port that takes every frame, and a sensor on SPI controller 3, on line 5 or polled. -/
def ethDesc : List Byte := aDesc 2 2 1 1 []
/-- A rising-edge DRDY channel of line 5, or a polled one. -/
def spiDesc (polled : Bool) : List Byte := aDesc 3 3 1 1 [0, 0, 0, if polled then 0x85 else 0x45, 4, 0, 1, 0]
theorem met_RecordsArrive :
    (let s := upStream ethDesc true [openedSlot ethDesc 0] none none;
      s.smUp = true ∧ (List.replicate 9212 (0 : Byte)).length + 4 ≤ 9216 ∧ (ptpAt (syncFrame false)).isSome = true
        ∧ s.ethChannel .portB (List.replicate 64 0) = some (31, ethDesc) ∧ ptpAt (List.replicate 64 0) = none
        ∧ s.sm.chans[(31 : Fin 32)].runs = true ∧ dfield ethDesc 40 4 = 0 ∧ s.sm.chans[(31 : Fin 32)].openIdx = some 0
        ∧ dfield (s.sm.chans[(31 : Fin 32)].slot 0).desc 40 4 = 0)
    ∧ (let s := upStream ethDesc false [] none none;
      s.ethChannel .portB (List.replicate 64 0) = some (31, ethDesc) ∧ s.sm.chans[(31 : Fin 32)].runs = false)
    ∧ up.ethChannel .portA (List.replicate 64 0) = none
    ∧ (∀ runs : Bool, let s := upStream (spiDesc false) runs [openedSlot (spiDesc false) 0] none none;
      s.sm.chans[(31 : Fin 32)].desc = some (spiDesc false) ∧ s.sm.chans[(31 : Fin 32)].runs = runs
        ∧ s.sm.chans[(31 : Fin 32)].everEnabled = true ∧ dKind (spiDesc false) = 3 ∧ dPolls (spiDesc false) = false
        ∧ dfield (spiDesc false) 35 1 % 8 = (5 : Fin 8).val ∧ (dfield (spiDesc false) 35 1).testBit 6 = !false
        ∧ (∀ c : Fin 32, c ≠ 31 → s.sm.chans[c].desc = none)
        ∧ ((s.sm.spi[dCtl (spiDesc false)]).drop 1).any (fun j => decide (j.channel = 31)) = false)
    ∧ (let s := upStream (spiDesc true) true [Slot.empty] none none;
      s.sm.chans[(31 : Fin 32)].desc = some (spiDesc true) ∧ dEnable (spiDesc true) = true ∧ dKind (spiDesc true) = 3
        ∧ dPolls (spiDesc true) = true ∧ s.sm.spi[dCtl (spiDesc true)] = [] ∧ s.sm.chans[(31 : Fin 32)].runs = true
        ∧ s.sm.chans[(31 : Fin 32)].everEnabled = true ∧ s.sm.chans[(31 : Fin 32)].openIdx = none
        ∧ s.sm.chans[(31 : Fin 32)].nextPoll ≤ s.dtNs ∧ (let c := s.sm.chans[(31 : Fin 32)]
          let u : State := { s with sm := { s.sm with chans := s.sm.chans.set 31 { c with nextPoll := 1 } } };
          u.dtNs < u.sm.chans[(31 : Fin 32)].nextPoll))
    ∧ (let s := upStream ethDesc true [openedSlot ethDesc 0] none none;
      s.sm.chans[(31 : Fin 32)].openIdx = some 0
        ∧ 64 + up16 (s.sm.chans[(31 : Fin 32)].slot 0).bytes + (16 + 2) ≤ dSlotBytes (s.sm.chans[(31 : Fin 32)].slot 0).desc) := by
  decide +kernel

/-- READY with an SPI transaction that reads four bytes, and one in which a second trigger of the channel waits. -/
def upSpi (jobs : List SpiJob) : State :=
  let s := upStream (spiDesc false) true [openedSlot (spiDesc false) 0] none none
  { s with sm := { s.sm with spi := s.sm.spi.set 3 jobs, spiBus := s.sm.spiBus.set 3 { SpiBus.idle with readLen := 4 } } }
theorem met_RecordsArrive_spi :
    ((upSpi [{ channel := 31, stamp := 0 }, { channel := 31, stamp := 1 }]).sm.spi[dCtl (spiDesc false)].drop 1).any
        (fun j => decide (j.channel = 31)) = true
    ∧ ((upSpi [{ channel := 31, stamp := 0 }]).sm.spi[(3 : Fin 4)] = [{ channel := 31, stamp := 0 }]
      ∧ (upSpi [{ channel := 31, stamp := 0 }]).sm.chans[(31 : Fin 32)].desc = some (spiDesc false) ∧ dRoute (spiDesc false) = 0
      ∧ [(1 : Byte), 2, 3, 4].length = (upSpi [{ channel := 31, stamp := 0 }]).sm.spiBus[(3 : Fin 4)].readLen)
    ∧ (upSpi []).sm.spi[(3 : Fin 4)] = [] := by decide +kernel

/-- READY with input 3 bound to channel 31 and running, its output line, held or not; no filter set object, so its times are 0. -/
def upIfe (held : Bool) (outs : List ChainSample) (nextT : Nat) : State := { up with ife := { up.ife with
  held := held
  inputs := up.ife.inputs.set 3 { up.ife.inputs[(3 : Fin 4)] with
    binding := some { channel := 31, direct := false, filterSet := 0 }, runs := true, outs := outs, nextT := nextT } } }
/-- Sixteen samples, a nanosecond apart, newest first. -/
def aLine : List ChainSample := (List.range 16).map fun k => { tau := (15 - k) * 65536, axes := List.replicate 6 0, filled := false }
theorem met_InertialRecordsComplete :
    (∀ held : Bool, let s := upIfe held aLine 0;
      s.ife.inputs[(3 : Fin 4)].binding = some { channel := 31, direct := false, filterSet := 0 } ∧ s.ife.inputs[(3 : Fin 4)].runs = true
        ∧ s.emitOf (3 : Fin 4).val = none ∧ s.ife.inputs[(3 : Fin 4)].kept.length < 16
        ∧ s.ife.inputs[(3 : Fin 4)].nextT + fsLat (s.filterOf { channel := 31, direct := false, filterSet := 0 }) ≤ s.dtNs ∧ s.ife.held = held)
    ∧ (upIfe false aLine 1).dtNs < (upIfe false aLine 1).ife.inputs[(3 : Fin 4)].nextT
        + fsLat ((upIfe false aLine 1).filterOf { channel := 31, direct := false, filterSet := 0 })
    ∧ (match windowAt aLine 7 with | .ready line phase => decide (line.length = 16 ∧ phase = 0) | _ => false) = true
    ∧ (∀ x ∈ [(0, true, false), (15, false, true)], (match windowAt aLine x.1 with
        | .part _ older newer => decide (older = x.2.1 ∧ newer = x.2.2) | _ => false) = true) := by decide

theorem met_SyncInHoldsTheInputs :
    (up.dev.inReset = false ∧ up.ife.syncIgnore = false ∧ up.ife.held = false)
    ∧ ({ up with ife := { up.ife with syncIgnore := true } } : State).ife.syncIgnore = true
    ∧ ((upIfe true [] 0).ife.held = true ∧ ∀ n : Fin 4, (upIfe true [] 0).ife.inputs[n].heldData = [])
    ∧ (let s : State := { upIfe true [] 0 with
        pins := { up.pins with syncIn := true }, tu := { up.tu with dt := BitVec.ofNat 96 (10000001 * 2 ^ 32) } }
      s.ife.held = true ∧ s.pins.syncIn = true ∧ s.ife.stuck = false ∧ s.ife.holdSince + 10000000 < s.dtNs)
    ∧ up.dtNs ≤ up.ife.holdSince + 10000000 := by decide

/-- READY with encoder 7 on channel 31, its samples, and DT; Z_CAPTURE set or not. -/
def upEnc (z : Bool) (samples : List EncSample) (next ns : Nat) : State :=
  let s := upStream (aDesc 4 7 1 1 [if z then 0x40 else 0]) true [] none none
  { s with
    tu := { s.tu with dt := BitVec.ofNat 96 (ns * 2 ^ 32) }
    ife := { s.ife with encs := s.ife.encs.set 7 { s.ife.encs[(7 : Fin 8)] with runs := true, nextSample := next, sampled := samples } } }
/-- The encoder with an index captured at DT 5, and a sample that is due. -/
def upEncStale (m : EncSample) : State :=
  let s := upEnc true [m] 0 (2 ^ 31 + 105)
  { s with ife := { s.ife with encs := s.ife.encs.set 7 { s.ife.encs[(7 : Fin 8)] with indexNew := true, indexDt := 5 } } }
theorem met_EncodersCount :
    (∀ z : Bool, (upEnc z [] 5 5).encChannel 7 = some (31, aDesc 4 7 1 1 [if z then 0x40 else 0])
      ∧ (dfield (aDesc 4 7 1 1 [if z then 0x40 else 0]) 32 1).testBit 6 = z)
    ∧ ((upEnc false [] 5 5).ife.encs[(7 : Fin 8)].lastA = none ∧ (upEnc false [] 5 5).ife.encs[(7 : Fin 8)].lastB = none)
    ∧ ((upEnc false [] 5 5).ife.encs[(7 : Fin 8)].runs = true
      ∧ (upEnc false [] 5 5).ife.encs[(7 : Fin 8)].nextSample ≤ (upEnc false [] 5 5).dtNs)
    ∧ (upEnc false [] 6 5).dtNs < (upEnc false [] 6 5).ife.encs[(7 : Fin 8)].nextSample
    ∧ (upEnc false [] 6 5).ife.encs[(7 : Fin 8)].sampled = []
    ∧ (let m : EncSample := { instant := 5, pos := 1, overs := false, quad := false };
      (upEnc false [m] 6 105).ife.encs[(7 : Fin 8)].sampled = m :: [] ∧ m.instant + 100 ≤ (upEnc false [m] 6 105).dtNs
        ∧ (upEnc false [m] 6 104).dtNs < m.instant + 100 ∧ (upEnc false [m] 6 105).ife.encs[(7 : Fin 8)].spanOver = false
        ∧ (upEnc false [m] 6 105).ife.encs[(7 : Fin 8)].spanQuad = false ∧ dRoute (aDesc 4 7 1 1 [0]) = 0
        ∧ (upEnc false [m] 6 105).ife.encs[(7 : Fin 8)].indexNew = false)
    ∧ (let m : EncSample := { instant := 2 ^ 31 + 5, pos := 1, overs := false, quad := false };
      (upEncStale m).ife.encs[(7 : Fin 8)].indexNew = true ∧ m.instant + 100 ≤ (upEncStale m).dtNs
        ∧ 2 ^ 31 ≤ (dtDiff m.instant (upEncStale m).ife.encs[(7 : Fin 8)].indexDt.toNat).natAbs) := by decide +kernel

/-! ## Fusion, the solver, the place search engine, the memories, power, events and security -/

/-- A span with input n bound, its flag 9 SET or not, its record valid or not, on an initialised pose engine. -/
def upBind (n : Nat) (flagged valid : Bool) : State :=
  let s := span 0 .fus [] []
  { s with
    flags := if flagged then [(9, .set)] else []
    mem := if valid then [(poolBase + 12, 1)] else []
    fus := { s.fus with
      initialised := true
      binds := [{ input := n, ringOffset := 0, ringRecs := 1, flagFirst := 9, flagCount := 1, endGrain := 999, nextRec := 0 }] } }
theorem met_InertialRecordsPropagate :
    (up.activeBind 0).isNone = true
    ∧ (∀ n ∈ [(0 : Fin 4), 3], ((upBind n.val true true).activeBind n.val).isSome = true ∧ (upBind n.val true true).flagSet (9 + 0) = true
      ∧ (upBind n.val false true).flagSet (9 + 0) = false ∧ (upBind n.val true true).inSpan = true
      ∧ (fieldAt ((upBind n.val true true).readPool (0 + 0 % 1 * 48) 48) 12 2).testBit 0 = true
      ∧ (fieldAt ((upBind n.val true false).readPool (0 + 0 % 1 * 48) 48) 12 2).testBit 0 = false
      ∧ (upBind n.val true true).fus.unitBad (upBind n.val true true).fus.params.primary = false
      ∧ (n.val = (upBind n.val true true).fus.params.primary ↔ n = 0)) := by decide

/-- SERVICE in which partition 0 runs and the last inertial record lies at DT 0. -/
def upGap (ns : Nat) : State :=
  let s := upBind 0 true true
  { s with fus := { s.fus with lastProp := some 0 }, tu := { s.tu with dt := BitVec.ofNat 96 (ns * 2 ^ 32) } }
/-- READY with the average of an alignment over. -/
def upAlign : State := { up with
  tu := { up.tu with dt := BitVec.ofNat 96 (200000000 * 2 ^ 32) }, fw := { up.fw with jobs := [aJob (.poseAlign [] (some 0) false)] }
  fus := { up.fus with alignFrom := some 0 } }
theorem met_PoseTimersExpire :
    ((upGap (2 ^ 40)).permitService = true ∧ (upGap (2 ^ 40)).fus.initialised = true ∧ (upGap (2 ^ 40)).fus.gapSaid = false
      ∧ (upGap (2 ^ 40)).fus.lastProp = some 0 ∧ 0 + (upGap (2 ^ 40)).fus.params.maxGapNs < (upGap (2 ^ 40)).dtNs)
    ∧ (upGap 0).dtNs ≤ 0 + (upGap 0).fus.params.maxGapNs
    ∧ up.alignDue = none
    ∧ (upAlign.alignDue = some (aJob (.poseAlign [] (some 0) false))
      ∧ (aJob (.poseAlign [] (some 0) false)).kind = .poseAlign [] (some 0) false ∧ upAlign.fw.jobs = [aJob (.poseAlign [] (some 0) false)]) := by decide

/-- READY with the motion port selected and a buffer bound. -/
def upMport (b : Bool) : State :=
  { up with pins := { up.pins with mportCsN := false, mportMiso := some [] }, fus := { up.fus with bound := some b } }
theorem met_TheMotionPortReadsOneRecord : (up.pins.mportCsN = true ∧ up.dev.inReset = false)
    ∧ (∀ b : Bool, (upMport b).pins.mportMiso = some [] ∧ (upMport b).fus.bound = some b) ∧ up.pins.mportMiso ≠ some []
    ∧ ((1 : Byte) ≠ 0x0B ∧ (1 : Byte) ≠ 0x9F) := by decide

/-- A window job that iterates, with a deadline, a limit of iterations and a greatest λ. -/
def aSlvJob (deadline maxIters : Nat) : SlvJob :=
  { desc := natLe 2 0 ++ natLe 2 maxIters ++ List.replicate 60 0 ++ natLe 8 0x7FE0000000000000 ++ List.replicate 56 0
    hdr := List.replicate 64 0, graph := false, deadline := deadline, poses := [], lands := [], factors := [], plan := []
    lambda := 0x3FF0000000000000, costInit := 0, cost := 0, excluded := [], startDt := none, iterating := true, iterStart := 0, iters := 0
    accepted := 0, pivotFails := 0, flags := 0, cyclesMax := 0, mismatches := 0 }
/-- READY with it. -/
def upSlv (j : SlvJob) : State := { up with slv := { up.slv with window := some j } }

/-- The last of three tests holds. -/
theorem third_of {A B C : Prop} [Decidable A] [Decidable B] [Decidable C] (x y z w : SlvJob) (h : C) :
    (if A then (x, true) else if B then (y, true) else if C then (z, true) else (w, false)).2 = true := by
  by_cases hA : A <;> by_cases hB : B <;> simp [hA, hB, h]
/-- None of three tests holds. -/
theorem none_of {A B C : Prop} [Decidable A] [Decidable B] [Decidable C] (x y z w : SlvJob) (hA : ¬ A) (hB : ¬ B) (hC : ¬ C) :
    (if A then (x, true) else if B then (y, true) else if C then (z, true) else (w, false)).2 = false := by
  rw [if_neg hA, if_neg hB, if_neg hC]

/-- A job without iterations left is over, whatever the arithmetic gives (R265). -/
theorem slv_last (j : SlvJob) (rig : List Byte) (h : j.d 2 2 = 0) : (j.iterate rig).2 = true :=
  third_of _ _ _ _ (by
    show j.d 2 2 ≤ _
    rw [h]
    exact Nat.zero_le _)

/-- A job whose pivot fails goes on while λ and its iterations allow it: what the arithmetic gives is a premise (log 9). -/
theorem slv_more (rig : List Byte) (h : ∀ inp, Config.numeric numIter inp 0 % 2 = 1) : ((aSlvJob 99 9).iterate rig).2 = false := by
  unfold SlvJob.iterate
  dsimp only
  rw [h]
  refine none_of _ _ _ _ (by simp) ?_ ?_
  · show ¬ fp64.lt ((aSlvJob 99 9).d 64 8) (if (!decide (1 = 1) && _) = true then _ else _) = true
    rw [decide_eq_true rfl, Bool.not_true, Bool.false_and, if_neg (by decide)]
    decide +kernel
  · show ¬ (aSlvJob 99 9).d 2 2 ≤ 1
    decide

theorem met_SolverJobsIterate :
    (∀ m ∈ [0, 9], (upSlv (aSlvJob 99 m)).slv.queueEn = false ∧ (upSlv (aSlvJob 99 m)).slv.window = some (aSlvJob 99 m)
      ∧ (aSlvJob 99 m).graph = false ∧ (aSlvJob 99 m).iterating = true ∧ (aSlvJob 99 m).overdue (upSlv (aSlvJob 99 m)).dtNs = false
      ∧ (upSlv (aSlvJob 99 m)).dtNs - (aSlvJob 99 m).iterStart ≤ (aSlvJob 99 m).wNs ∧ (aSlvJob 99 m).mismatches = 0
      ∧ (upSlv (aSlvJob 99 m)).dtNs + (aSlvJob 99 m).wNs ≤ (aSlvJob 99 m).deadline)
    ∧ (up.slv.window = none ∧ up.slv.graph = none)
    ∧ (let s : State := { upSlv (aSlvJob 4 0) with tu := (span 0 .slv [] []).tu };
      s.slv.window = some (aSlvJob 4 0) ∧ (aSlvJob 4 0).deadline < s.dtNs)
    ∧ (∀ e ∈ [4, 5], let s := withSeq (span 0 .slv [anOp 0x11] [e, 0]) .slv fun q => { q with running := [aRun .main 0x11 []] };
      s.slvService = some (aRun .main 0x11 []) ∧ (s.sectionOf .slv).any (fun x => decide ((x.2.1.param 0 2 < s.grain) ↔ e = 4)) = true)
    ∧ (up.isReady = true ∧ up.dev.cpHalted[(1 : Fin 2)] = false ∧ up.slv.queue.getLsbD 0 = false ∧ State.reset.isReady = false) := by
  decide

/-- A query of the index, with a round of one flash record or without, taken or not. -/
def aQuery (round : List Nat) (wait : Byte) : PsQuery :=
  { num := 7, desc := [0, 0, 0, 0x10, 1, 0, 16, 0, 1, 3, 0, 0, wait, 0, 0, 0, 0, 0, 0xFF] ++ List.replicate 109 0
    vec := List.replicate 32 0, submitDt := 0, outOffset := 0, awaits := none, lastSeen := false, taken := some (0, 0), widened := false, rounds := 0
    blocks := 0, queue := [], visited := [0], round := round, walking := !round.isEmpty, scanned := false, scanning := false }
/-- SERVICE with a place search window open until grain `e`, an index, and a query, at `ns`. -/
def upPs (e : Byte) (ix : PsIndex) (q : PsQuery) (ns : Nat) : State :=
  let s := withSeq (span 0 .ps [anOp 0x10] [e, 0, 0, 64]) .ps fun q => { q with running := [aRun .main 0x10 []] }
  { s with
    tu := { s.tu with dt := BitVec.ofNat 96 (ns * 2 ^ 32) }
    ps := { s.ps with queueEn := true, indexes := s.ps.indexes.set 15 (some ix), queries := [q] } }
/-- A vector that waits. -/
def aVec : PsInsert := { obsDt := 0, track := 0, label := 0, kind := 0, acre := 0, vec := List.replicate 32 0, job := none }
theorem met_PlaceSearchProgresses :
    (∀ e ∈ [(4 : Byte), 5], ((upPs e anIx (aQuery [] 0) 5000).psService).any
      (fun x => decide ((x.2.param x.1.op.argB 2 < (upPs e anIx (aQuery [] 0) 5000).grain) ↔ e = 4)) = true)
    ∧ (∀ r ∈ [[], [0]], let s := upPs 5 { anIx with flash := [aRec] } (aQuery r 0) 5000;
      s.ps.queries.find? (fun x => decide (x.num = 7)) = some (aQuery r 0)
        ∧ s.psIndex ((aQuery r 0).d 0 4) = some { anIx with flash := [aRec] } ∧ s.psWindow = true
        ∧ s.mt.queue = [] ∧ (aQuery r 0).taken.isSome = true ∧ (aQuery r 0).walking = !r.isEmpty ∧ (aQuery r 0).scanning = false
        ∧ ((aQuery r 0).d 10 2).testBit 2 = false
        ∧ ((aQuery r 0).d 10 2).testBit 0 = false ∧ s.psService.isSome = true ∧ s.queryLate (aQuery r 0) = false)
    ∧ (upPs 4 anIx (aQuery [] 0) 5000).psWindow = false
    ∧ (upPs 5 anIx (aQuery [] 1) 1000000).queryLate (aQuery [] 1) = true
    ∧ (let ix : PsIndex := { anIx with queue := [aVec] }
      let s := upPs 60 ix (aQuery [] 0) 5000;
      s.ps.indexes[(15 : Fin 16)] = some ix ∧ ix.queue = aVec :: [] ∧ s.insertTurn = true ∧ s.insertFits = true
        ∧ s.partPaused ix.part = false ∧ ix.poisoned = false ∧ ix.dramCount < ix.dramCap)
    ∧ ((upPs 59 anIx (aQuery [] 0) 5000).insertFits = false ∧ (upPs 59 anIx (aQuery [] 0) 5000).insertTurn = true)
    ∧ (up.ps.indexes[(0 : Fin 16)] = none ∧ up.insertTurn = false) := by decide

/-- The round of a query over a record without neighbours ends its walk: whatever the table, the queue stays empty. -/
theorem met_PlaceSearchProgresses_round (table : List (List Nat)) :
    nextRound (expandRound table [aRec] 16 0 [0] ([], [0])).1 1 = [] := rfl

/-- A request of a class, its bytes and its flash pages to come. -/
def aReq (cls : Fin 5) (bytes fetch : Nat) : MoverReq :=
  { cls := cls, work := .retire 3, bytes := bytes, fetch := fetch, tiles := false, fetched := false, held := false, onMirror := false, partition := 0 }
/-- A promotion of the one page of the backed object, whose flash page has a copy, with or without a mirror copy. -/
def aFetch : MoverReq := { aReq 2 65536 1 with work := .promote 0x03000000 0 }
/-- Its flash page. -/
def aPage (mirror : Bool) : FlashPage :=
  let c : PageCopy := { die := 0, block := 0, epoch := 1, mirror := false, raw := [] }
  { ns := 0, lpn := 7, owner := .object 0x03000000, pos := 0, writeSeq := 1, data := [1]
    copies := if mirror then [c, { c with die := 16, mirror := true }] else [c] }
/-- A span with the mover's window open, and requests. -/
def upMover (left : Nat) (e : Nat) (q : List MoverReq) : State :=
  let s := span 0 .mv [] []
  { s with mt := { s.mt with window := some { endGrain := e, classMask := 31, left := left }, queue := q } }
/-- The window with the promotion first. -/
def upFetch (mirror : Bool) : State :=
  let s := upMover 65536 5 [aFetch]
  { s with mt := { s.mt with objects := [aBacked], pages := [aPage mirror] } }
theorem met_MemoryEventsHappen :
    (let s := upMover 4096 5 [aReq 1 8192 0];
      s.mt.window = some { endGrain := 5, classMask := 31, left := 4096 }
        ∧ firstReq (fun r => (31 : Nat).testBit r.cls.val) s.mt.queue = some (aReq 1 8192 0)
        ∧ s.grain ≤ 5 ∧ (aReq 1 8192 0).unit ≤ 4096 ∧ (aReq 1 8192 0).unit < (aReq 1 8192 0).bytes)
    ∧ ((aReq 0 65536 0).bytes ≤ 65536 ∧ (aReq 0 65536 0).bytes ≤ (aReq 0 65536 0).unit ∧ (aReq 0 65536 0).work = .retire 3)
    ∧ (4 < (upMover 65536 4 [aReq 0 65536 0]).grain ∧ 65535 < min (aReq 0 65536 0).bytes (aReq 0 65536 0).unit)
    ∧ firstReq (fun r => (31 : Nat).testBit r.cls.val) [aReq 0 65536 0, { aReq 4 4096 0 with held := true }]
        = some { aReq 4 4096 0 with held := true }
    ∧ up.mt.window = none
    ∧ (∀ m : Bool, let s := upFetch m;
      s.mt.window = some { endGrain := 5, classMask := 31, left := 65536 } ∧ s.grain ≤ 5
        ∧ firstReq (fun r => (31 : Nat).testBit r.cls.val && decide (0 < r.fetch)) s.mt.queue = some aFetch ∧ aFetch.onMirror = false
        ∧ s.fetchPage aFetch = some (aPage m) ∧ ((aPage m).copyOf false).any (fun c => s.sec.keys[(aPage m).ns].reads c.epoch) = true
        ∧ ((aPage m).copyOf true).isSome = m)
    ∧ (let g : WriteGroup := { kind := .object 1, ns := 0, pages := 2, mirror := false, left := 2 }
      let s : State := { up with mt := { up.mt with groups := [g] } }; s.mt.groups = g :: [] ∧ 1 < g.left)
    ∧ (∀ gone : Bool, let b : FlashBlock := { die := 31, block := 5, erases := 0, reads := 9, degraded := true, retired := gone, filled := 1 }
      let s : State := { up with mt := { up.mt with blocks := [b] } }
      s.mt.blocks.find? (fun b => decide (b.die = 31 ∧ b.block = 5)) = some b ∧ b.retired = gone ∧ s.mt.pages = [] ∧ s.mt.spread < 256
        ∧ ∀ n : Fin 5, s.sec.keys[n].old = none)
    ∧ (let s : State := { up with mt := { up.mt with freeBlocks := 1, goodBlocks := 65 } }
      64 * s.mt.freeBlocks < s.mt.goodBlocks ∧ s.mt.spareLowAt = none)
    ∧ (let s : State := { up with mt := { up.mt with freeBlocks := 1, goodBlocks := 64 } }; s.mt.goodBlocks ≤ 64 * s.mt.freeBlocks)
    ∧ (up.scrubOn = true ∧ up.mt.scrubLine + 1 < 402653184
      ∧ (let s : State := { up with mt := { up.mt with scrubLine := 402653183 } }; 402653184 ≤ s.mt.scrubLine + 1 ∧ s.scrubOn = true)
      ∧ State.reset.scrubOn = false) := by decide

theorem met_MemoryEventsHappen_waits : (aReq 2 65536 4).fetch ≠ 0 ∧ ∀ key, (aReq 2 65536 4).work ≠ .acreFill key :=
  ⟨by decide, fun _ h => nomatch h⟩

theorem met_PowerEventsHappen : up.powerOn = true ∧ up.isReady = true
    ∧ (let s : State := { up with pm := { up.pm with pmbusOk := true } }; s.powerOn = true ∧ s.pm.pmbusOk = true)
    ∧ ((949 : Half).toInt < up.pm.throttle ∧ (949 : Half).toInt < 1250)
    ∧ (up.pm.throttle ≤ (1249 : Half).toInt ∧ (1249 : Half).toInt < 1250 ∧ ((15 : Fin 24).val = 15 ∧ (7 : Fin 8).val = 15 / 2))
    ∧ (1250 ≤ (1250 : Half).toInt ∧ up.pm.thermtrip = false)
    ∧ up.pins.pwrLimitN = true
    ∧ (let s : State := { up with pins := { up.pins with pwrLimitN := false } }
      s.pins.pwrLimitN = false ∧ s.powerOn = true ∧ s.isReady = true)
    ∧ ((7 : Fin 8).val = (39 : Fin 48).val / 5)
    ∧ up.pm.opHours.toNat < up.pm.trimHours.toNat + 1000
    ∧ (let s : State := { up with pm := { up.pm with trimEn := true, opHours := 1000, trimHours := 0 } }
      s.pm.trimEn = true ∧ s.isReady = true ∧ s.pm.trimHours.toNat + 1000 ≤ s.pm.opHours.toNat) := by decide

/-- A staged entry, and a recorder with a staging FIFO. -/
def anEntry : RecEntry := { dt := 0, tblLo := 0, source := 0, severity := 0, code := 0, arg0 := 0, arg1 := 0, arg2 := 0 }
/-- READY with entries staged, frozen or not. -/
def upRec (n : Nat) (frozen : Bool) : State := { up with evr := { up.evr with fifo := List.replicate n anEntry, frozen := frozen } }
theorem met_EventsAreRecorded :
    (up.dev.inReset = false ∧ (upRec 0 true).evr.frozen = true)
    ∧ ((upRec 64 false).evr.frozen = false ∧ (upRec 64 false).evr.freezing = false ∧ 64 ≤ (upRec 64 false).evr.fifo.length)
    ∧ (upRec 63 false).evr.fifo.length < 64
    ∧ ((upRec 1 false).recorderOn = true ∧ (upRec 1 false).evr.fifo = anEntry :: [] ∧ (upRec 1 false).evr.lostUnreported = 0
      ∧ memWf (upRec 1 false).evr.ring = true)
    ∧ (upRec 0 false).evr.fifo = []
    ∧ (∀ cp : Fin 2, (upRec 63 false).cpRuns cp = true)
    ∧ ((upRec 0 true).evr.archived = false ∧ (upRec 0 true).cpRuns 1 = true) := by decide

theorem met_FatalErrorsStopTheDevice :
    (∀ cp : Fin 2, upRun.cpRuns cp = true) ∧ upRun.dev.fatal = false
    ∧ (let s : State := { up with dev := { up.dev with fatal := true } }; s.dev.fatal = true ∧ s.cpRuns 0 = true)
    ∧ (upRun.dev.phase = .ready ∧ upRun.dev.cpHalted[(0 : Fin 2)] = false ∧ upRun.dev.cpHalted[(1 : Fin 2)] = false
      ∧ upRun.sched.state = .running)
    ∧ State.reset.cpRuns 0 = false
    ∧ (linkExists (1 : Fin 96).val = false ∧ linkExists (4 : Fin 96).val = true ∧ 64 ≤ (95 : Fin 96).val)
    ∧ (up.dev.inReset = false ∧ mapGet up.evr.linkFails (95 : Fin 96).val = none)
    ∧ (let s : State := { up with evr := { up.evr with linkFails := [(95, (8, 0))] } }
      mapGet s.evr.linkFails (95 : Fin 96).val = some (8, 0) ∧ s.dtNs ≤ 0 + 13) := by decide

/-- READY with a debug level, refusals and the permanent lock. -/
def upDebug (level refusals : Nat) (off : Bool) : State :=
  { up with sec := { up.sec with debugLevel := level, refusals := refusals, debugDisable := off } }
/-- READY with a scrub of a partition under way. -/
def upScrubbing : State :=
  { up with sec := { up.sec with scrubs := [{ part := 3, grant := none, begun := true, running := true, done := false, start := 0 }] } }
theorem met_DebugAndScrubs :
    up.secRuns = true ∧ State.reset.secRuns = false
    ∧ ((upDebug 0 2 false).sec.debugDisable = false ∧ (upDebug 0 2 false).sec.refusals < 3 ∧ (upDebug 0 2 false).tokenOk [] = false)
    ∧ ((upDebug 0 0 true).sec.debugDisable = true ∧ 3 ≤ (upDebug 0 3 false).sec.refusals)
    ∧ (upDebug 1 0 false).sec.debugLevel ≠ 2
    ∧ ((upDebug 2 0 false).sec.debugLevel = 2 ∧ (upDebug 2 0 false).blocksUp = true)
    ∧ (upScrubbing.scrubNow = some { part := 3, grant := none, begun := true, running := true, done := false, start := 0 }
      ∧ upScrubbing.dev.phase = .ready ∧ memWf upScrubbing.mem = true) ∧ (up.scrubNow = none ∧ (0 : Fin 4) ≠ 3)
    ∧ (scrubClears Grant.whole 5 ∧ ¬ scrubClears Grant.empty 5) := by
  unfold scrubClears
  decide

/-- A token that is as R411 asks: what its signatures say is a premise. -/
theorem met_DebugAndScrubs_token (t : List Byte) (ok : (upDebug 0 0 false).tokenOk t = true) :
    (upDebug 0 0 false).secRuns = true ∧ (upDebug 0 0 false).sec.debugDisable = false ∧ (upDebug 0 0 false).sec.refusals < 3
      ∧ (upDebug 0 0 false).tokenOk t = true := ⟨rfl, rfl, by decide, ok⟩

/-- A state with a canonical memory that is not empty, and a command that writes it: a frame of four bytes. -/
def upMem : State := { up8 false with pending := [.write (aFrame 0x02 0xFD 0)], mem := [(5, 1), (6, 2)] }
theorem met_MemoriesStayCanonical : upMem.memOk ∧ ∃ t, step upMem = .next t := by
  refine ⟨⟨rfl, by decide, by unfold Mbx.memOk; decide⟩, _, rfl⟩

theorem met_StepRunsFront : up.pending = [] := rfl

/-! ## Further clauses -/

/-- TIME_CONFIG with no reserved bit, with bit 31 of its TU_CTRL, and with a delay code of 2; DT behind its source with DT aligned. -/
theorem met_TimeCommandsAnswer_config :
    timeReserved ((asSub 0x0401 (cmd (List.replicate 16 0 ++ [1, 1]) 0)).p 0 4) ((asSub 0x0401 (cmd (List.replicate 16 0 ++ [1, 1]) 0)).p 8 4)
        ((asSub 0x0401 (cmd (List.replicate 16 0 ++ [1, 1]) 0)).p 12 4) = false
    ∧ (up.Accepts 0x0401 (cmd [0, 0, 0, 0x80] 0) ∧ timeReserved ((asSub 0x0401 (cmd [0, 0, 0, 0x80] 0)).p 0 4)
        ((asSub 0x0401 (cmd [0, 0, 0, 0x80] 0)).p 8 4) ((asSub 0x0401 (cmd [0, 0, 0, 0x80] 0)).p 12 4) = true)
    ∧ (up.Accepts 0x0401 (cmd (List.replicate 16 0 ++ [2, 2]) 0) ∧ 1 < (asSub 0x0401 (cmd (List.replicate 16 0 ++ [2, 2]) 0)).p 16 1
      ∧ 1 < (asSub 0x0401 (cmd (List.replicate 16 0 ++ [2, 2]) 0)).p 17 1)
    ∧ (let t : TimeUnit := { upLocked.tu with aligned := true, source := 0, baseA := { upLocked.tu.baseA with count := 2 ^ 40 } };
      t.aligned = true ∧ (t.dt.toNat : Int) < t.sourceNow t.source) :=
  ⟨by decide, ⟨takenUp _ _ _ _ rfl rfl (by decide), by decide⟩,
    ⟨takenUp _ _ _ _ rfl rfl (by decide), by decide, by decide⟩, by decide⟩

/-- PLACE_CREATE without records in DRAM. -/
def createFlash : List Byte := [0, 0, 0, 9, 16, 0, 16, 0, 8, 4, 16, 0, 64, 50, 10, 0]
/-- A grant of all of DRAM. -/
def allDram : Grant := { Grant.empty with state := 1, dramBytes := dramSize }
/-- READY with the place table, and all of DRAM granted to partition 1. -/
def upNoRun : State := { upObj aTable with sec := { up.sec with grants := up.sec.grants.set 1 allDram } }
theorem upNoRun_free : Free upNoRun := ⟨rfl, rfl, rfl, rfl, rfl, rfl, up_free.2.2.2.2.2.2⟩

theorem upNoRun_grants : allDram ∈ upNoRun.sec.grants.toList.drop 1 := by decide
/-- Where partition 1 has all of DRAM, no run of partition 0 is free. -/
theorem upNoRun_none (n : Nat) : (upNoRun.freeRun 0 0 (n + 1)).1 = none := by
  unfold State.freeRun
  dsimp only [State.drawBelow]
  rw [List.find?_eq_none]
  intro a _ h
  have h := (Bool.and_eq_true_iff.1 h).1
  rw [State.ownsDram, if_pos rfl] at h
  obtain ⟨h, g⟩ := Bool.and_eq_true_iff.1 h
  have h := (of_decide_eq_true h).2
  have g := of_decide_eq_true (List.all_eq_true.1 g allDram upNoRun_grants)
  have g : dramSize = 0 ∨ a + 65536 * (n + 1) ≤ 0 ∨ 0 + dramSize ≤ a := g
  have d : dramSize = 0x600000000 := rfl
  omega

/-- A page behind the place table is free. -/
theorem upTable_freeRun : ∃ a, ((upObj aTable).freeRun 0 0 1).1 = some a := by
  have h := fwRegionBase_ge
  have fits : (upObj aTable).ownsDram 0 (33 * 65536) (65536 * 1) = true := by
    rw [State.ownsDram, if_pos rfl]
    exact Bool.and_eq_true_iff.2 ⟨decide_eq_true ⟨by omega, by decide⟩, rfl⟩
  rw [← Option.isSome_iff_exists]
  unfold State.freeRun
  dsimp only [State.drawBelow]
  rw [List.find?_isSome]
  refine ⟨33 * 65536, List.mem_cons_of_mem _ (by decide), ?_⟩
  exact Bool.and_eq_true_iff.2 ⟨fits, rfl⟩

/-- PLACE_CREATE with records in DRAM where a run is free and where none is, and without such records. -/
theorem met_PlaceCommandsAnswer_create :
    (∀ s ∈ [upObj aTable, upNoRun], ∀ pay ∈ [createPay, createFlash], ∃ ix : PsIndex,
      ix = (asSub 0x0801 (cmd pay 0)).newIndex (s.partOf (asSub 0x0801 (cmd pay 0))) 0 (s.objBytes ((asSub 0x0801 (cmd pay 0)).p 0 4))
        ∧ s.Accepts 0x0801 (cmd pay 0) ∧ ix.dramPages ≤ s.poolFree ix.part false
        ∧ s.objFails (asSub 0x0801 (cmd pay 0)) ((asSub 0x0801 (cmd pay 0)).p 0 4) = none
        ∧ handleType ((asSub 0x0801 (cmd pay 0)).p 0 4) = 0x09 ∧ ix.tables.length = 512 * ix.dim + 131072 * ix.codeBytes
        ∧ ix.inRange ((asSub 0x0801 (cmd pay 0)).p 15 1) = true
        ∧ s.nsUsed ix.part + ix.flashBytes * (if ix.mirror then 2 else 1) ≤ s.sec.grants[ix.part].flashBytes
        ∧ ((s.ps.indexes.toList.filterMap id).filter fun x => decide (x.part = ix.part)).length < 4
        ∧ ((List.finRange 16).find? fun k => s.ps.indexes[k].isNone) = some 0
        ∧ ix.part = 0 ∧ (ix.dramPages = if pay = createPay then 1 else 0))
    ∧ (∃ a, ((upObj aTable).freeRun 0 0 1).1 = some a) ∧ (upNoRun.freeRun 0 0 1).1 = none := by
  refine ⟨?_, upTable_freeRun, upNoRun_none 0⟩
  intro s hs pay hp
  simp only [List.mem_cons, List.not_mem_nil, or_false] at hs hp
  rcases hs with rfl | rfl <;> rcases hp with rfl | rfl
  · exact ⟨_, rfl, taken (upObj_free _) _ _ _ _ rfl rfl (by decide), by decide, rfl, rfl, memReadN_length _ _ _, by decide, by decide,
      by decide, by decide, rfl, by decide⟩
  · exact ⟨_, rfl, taken (upObj_free _) _ _ _ _ rfl rfl (by decide), by decide, rfl, rfl, memReadN_length _ _ _, by decide, by decide,
      by decide, by decide, rfl, by decide⟩
  · exact ⟨_, rfl, taken upNoRun_free _ _ _ _ rfl rfl (by decide), by decide, rfl, rfl, memReadN_length _ _ _, by decide, by decide,
      by decide, by decide, rfl, by decide⟩
  · exact ⟨_, rfl, taken upNoRun_free _ _ _ _ rfl rfl (by decide), by decide, rfl, rfl, memReadN_length _ _ _, by decide, by decide,
      by decide, by decide, rfl, by decide⟩

/-- SCENE_RESEMBLE of a camera, and of vectors. -/
theorem met_PlaceCommandsAnswer_source : up.Accepts 0x0902 (cmd [0, 0, 0, 0x10] 0) ∧ (asSub 0x0902 (cmd [0, 0, 0, 0x10] 0)).p 4 1 = 0 :=
  ⟨takenUp _ _ _ _ rfl rfl (by decide), rfl⟩

/-- Firmware whose one job is of a kind. -/
def upJob (k : JobKind) : State := { up with fw := { up.fw with jobs := [aJob k] } }
theorem met_WaitingCommandsApply_align : (aJob (.poseAlign [] none false)).kind = .poseAlign [] none false
    ∧ (upJob (.poseAlign [] none false)).fw.jobs = [aJob (.poseAlign [] none false)] := ⟨rfl, rfl⟩

/-- The start of family 1, with no requirement of time, and with it met; a selection in a stopped schedule. -/
theorem met_ScheduleCommandsAnswer_start : ∀ s ∈ [upFam, upNeed true .locked],
    s.Accepts 0x0202 (cmd [1] 0) ∧ s.sched.state = .stopped ∧ s.timeReady = true
      ∧ (0, anImage 0 0 [] []) ∈ s.familyOf 0 ((asSub 0x0202 (cmd [1] 0)).p 0 8) ∧ (anImage 0 0 [] []).rung = 0
      ∧ (63, anImage 0 5 [] []) ∈ s.familyOf 0 ((asSub 0x0202 (cmd [1] 0)).p 0 8) ∧ (anImage 0 5 [] []).rung = 5
      ∧ s.oddLength (fun p => (asSub 0x0202 (cmd [1] 0)).p (8 * p.val) 8) = none
      ∧ ∀ p : Fin 4, (asSub 0x0202 (cmd [1] 0)).p (8 * p.val) 8 ≠ 0 → s.sec.grants[p].state ≠ 2 := by
  intro s hs
  simp only [List.mem_cons, List.not_mem_nil, or_false] at hs
  rcases hs with rfl | rfl
  · exact met_start _ upFam_free rfl rfl rfl
  · exact met_start _ (upNeed_free _ _) rfl rfl rfl
/-- The track table of the device has its place, or has none yet. -/
theorem met_ScheduleCommandsAnswer_table : upFam.fus.tableBase = none ∧ upTrack.fus.tableBase ≠ none ∧ memWf upFam.mem = true := by decide
theorem met_ScheduleCommandsAnswer_select :
    upFam.Accepts 0x0204 (cmd [0, 5, 63] 0) ∧ (asSub 0x0204 (cmd [0, 5, 63] 0)).p 0 1 = 0 ∧ (asSub 0x0204 (cmd [0, 5, 63] 0)).p 1 1 = 5
      ∧ (asSub 0x0204 (cmd [0, 5, 63] 0)).p 2 1 = 63 ∧ upFam.sched.state = .stopped
      ∧ upFam.sec.grants[upFam.partOf (asSub 0x0204 (cmd [0, 5, 63] 0))].state ≠ 2 :=
  ⟨taken upFam_free _ _ _ _ rfl rfl (by decide), rfl, rfl, rfl, rfl, by decide⟩

/-- An acre of key 5 in DRAM. -/
def anAcre : Acre :=
  { key := 5, base := 65536, trainBase := 0, training := false, trainedSpans := 0, resident := true, rng := 0, endpoints := [], renders := []
    flash := none, snapshot := false, writing := false, changed := false, rewrite := false, beyond := false, poisoned := false, evicting := false, deleting := false
    mismatchSaid := false, unwrittenSpans := 0, lastUse := 0 }
theorem met_PoseAndMapCommandsAnswer_acre : (upAcre anAcre).Accepts 0x0703 (cmd [5] 0)
    ∧ ((upAcre anAcre).acre ((asSub 0x0703 (cmd [5] 0)).p 0 6)).isSome = true :=
  ⟨taken (upAcre_free _) _ _ _ _ rfl rfl (by decide), rfl⟩

/-- READY with an entry of mailbox 0 in slot 0 of its ring: an opcode. -/
def upEntry (lo hi : Byte) : State := { up with mbx := up.mbx.set 0 { up.mbx[(0 : Fin 8)] with
  sqTail := 1, sq := [(0, lo), (1, hi)].filter fun x => decide (x.2 ≠ 0) } }
theorem met_RingsMoveTheirEntries_copy :
    (∀ hi ∈ [(1 : Byte), 0xFF], (upEntry 0 hi).mbx[(0 : Fin 8)].state = .opened ∧ (upEntry 0 hi).ringsServed = true
      ∧ (upEntry 0 hi).takes 0 = true ∧ (upEntry 0 hi).fw.queue = []
      ∧ (upEntry 0 hi).mbx[(0 : Fin 8)].sqTail = (upEntry 0 hi).mbx[(0 : Fin 8)].sqHead + 1
      ∧ (upEntry 0 hi).inFlight 0 + ((upEntry 0 hi).mbx[(0 : Fin 8)].sqTail - (upEntry 0 hi).mbx[(0 : Fin 8)].sqHead).toNat ≤ 64)
    ∧ (cmdForm ((upEntry 0 1).mbx[(0 : Fin 8)].entryAt 0 0).opcode.toNat).isSome = true
    ∧ cmdForm ((upEntry 0 0xFF).mbx[(0 : Fin 8)].entryAt 0 0).opcode.toNat = none
    ∧ (upEntry 0 0xFF).orderedWaits ((upEntry 0 0xFF).mbx[(0 : Fin 8)].entryAt 0 0).entry = false :=
  ⟨by decide, by decide +kernel, by decide +kernel, by decide +kernel⟩

/-- A BARRIER of two sequencers that comes first: it is not noted yet, and the other is absent. -/
def firstState : State := withSeq (barrierState false) .fus fun q => { q with barriers := [] }
theorem met_CommonOperationsComplete_first : canIssue firstState .fus 0x03 none = true
    ∧ ((firstState.nextOp .fus).any fun n => decide (n.op.argA ∉ (firstState.seq .fus).barriers)
        && decide ((firstState.onSeq .fus fun q => { q with barriers := n.op.argA :: q.barriers }).barrierAbsent n.part n.op.argA n.op.argB
          ≠ [])) = true := by decide

/-- A service window of the place search engine that opens with a query in its queue. -/
def upOpen : State :=
  let s := span 0 .ps [anOp 0x10] (List.replicate 128 0xFF)
  { s with ps := { s.ps with queueEn := true, indexes := s.ps.indexes.set 15 (some anIx) } }

/-- An operation of a section runs, and may end. -/
def running (t : Target) (u : OpUnit) (code : Nat) : State :=
  withSeq (span 0 t [anOp code] []) t fun q => { q with next := 1, running := [aRun u code []] }
theorem met_OperationsEnd_units : ∀ x ∈ [(Target.pw, OpUnit.main, 0x10), (.fth, .main, 0x10), (.core 0, .main, 0x10), (.core 7, .dma, 0x04),
      (.fld, .main, 0x11), (.fus, .main, 0x11), (.slv, .main, 0x12), (.ps, .vector, 0x11), (.ife, .main, 0x10), (.mv, .main, 0x10)],
    (((running x.1 x.2.1 x.2.2).seq x.1).running.find? fun r => decide (r.unit = x.2.1) && (running x.1 x.2.1 x.2.2).mayEnd x.1 r)
        = some (aRun x.2.1 x.2.2 [])
      ∧ ((running x.1 x.2.1 x.2.2).opOfRun x.1 (aRun x.2.1 x.2.2 [])).isSome = true := by decide
theorem met_OperationsEnd_targets : visOf .pw = some 0 ∧ visOf .fth = some 3 ∧ OpUnit.dma ≠ .main := by decide

/-- An index of one flash record, which a compaction keeps. -/
def ixFlash : PsIndex := { anIx with flash := [aRec] }
theorem met_PlaceCommandsAnswer_compact :
    ((upIx anIx).Accepts 0x0805 (cmd [0, 0, 0, 0x10] 0)
      ∧ (upIx anIx).indexFor (asSub 0x0805 (cmd [0, 0, 0, 0x10] 0)) ((asSub 0x0805 (cmd [0, 0, 0, 0x10] 0)).p 0 4) false = .ok anIx
      ∧ (upIx anIx).nsUsed anIx.part + anIx.compactBytes ≤ (upIx anIx).sec.grants[anIx.part].flashBytes)
    ∧ ((upIx ixFlash).Accepts 0x0805 (cmd [0, 0, 0, 0x10] 0)
      ∧ (upIx ixFlash).indexFor (asSub 0x0805 (cmd [0, 0, 0, 0x10] 0)) ((asSub 0x0805 (cmd [0, 0, 0, 0x10] 0)).p 0 4) false = .ok ixFlash
      ∧ (upIx ixFlash).sec.grants[ixFlash.part].flashBytes < (upIx ixFlash).nsUsed ixFlash.part + ixFlash.compactBytes)
    ∧ (upIx anIx).indexFor (asSub 0x0806 (cmd [0, 0, 0, 0x10] 0)) ((asSub 0x0806 (cmd [0, 0, 0, 0x10] 0)).p 0 4) true = .ok anIx :=
  ⟨⟨taken (upIx_free _) _ _ _ _ rfl rfl (by decide), rfl, by decide⟩,
    ⟨taken (upIx_free _) _ _ _ _ rfl rfl (by decide), rfl, by decide +kernel⟩, rfl⟩

/-- READY with a backed filter set, to which inertial input 0 is bound or not. -/
def upBoundObj (bound : Bool) : State :=
  let s := upObj (anObj 0x06000000 true [1] [])
  if bound then { s with ife := { s.ife with
    inputs := s.ife.inputs.set 0 { s.ife.inputs[(0 : Fin 4)] with binding := some { channel := 0, direct := false, filterSet := 0x06000000 } } } }
  else s
theorem upBoundObj_free : ∀ b : Bool, Free (upBoundObj b)
  | true => ⟨rfl, rfl, rfl, rfl, rfl, rfl, up_free.2.2.2.2.2.2⟩
  | false => ⟨rfl, rfl, rfl, rfl, rfl, rfl, up_free.2.2.2.2.2.2⟩
theorem met_ObjectCommandsAnswer_evict :
    (∀ b : Bool, (upBoundObj b).Accepts 0x0B06 (cmd [0, 0, 0, 6] 0)
      ∧ (upBoundObj b).usableObj (asSub 0x0B06 (cmd [0, 0, 0, 6] 0)) = .ok (anObj 0x06000000 true [1] [])
      ∧ (upBoundObj b).boundFilter 0x06000000 = b)
    ∧ ((upObj (anObj 0x03000000 false [1] [])).Accepts 0x0B06 (cmd [0, 0, 0, 3] 0)
      ∧ (upObj (anObj 0x03000000 false [1] [])).usableObj (asSub 0x0B06 (cmd [0, 0, 0, 3] 0)) = .ok (anObj 0x03000000 false [1] [])
      ∧ (anObj 0x03000000 false [1] []).backed = false)
    ∧ ((upBoundObj false).Accepts 0x0B07 (cmd [0, 0, 0, 6] 0)
      ∧ (upBoundObj false).objFor (asSub 0x0B07 (cmd [0, 0, 0, 6] 0)) = .ok (anObj 0x06000000 true [1] []))
    ∧ ((upObj { anObj 0x03000000 true [1] [] with dropping := true }).Accepts 0x0B04 (cmd [0, 0, 0, 3] 0)
      ∧ (upObj { anObj 0x03000000 true [1] [] with dropping := true }).usableObj (asSub 0x0B04 (cmd [0, 0, 0, 3] 0))
          = .ok { anObj 0x03000000 true [1] [] with dropping := true }) :=
  ⟨fun b => ⟨taken (upBoundObj_free b) _ _ _ _ rfl rfl (by decide), by cases b <;> rfl, by cases b <;> decide⟩,
    ⟨taken (upObj_free _) _ _ _ _ rfl rfl (by decide), rfl, rfl⟩,
    ⟨taken (upBoundObj_free false) _ _ _ _ rfl rfl (by decide), rfl⟩, ⟨taken (upObj_free _) _ _ _ _ rfl rfl (by decide), rfl⟩⟩

/-- The command of a mailbox that belongs to partition 1, and SERVICE or a stopped schedule in which it does. -/
def cmd1 (p : List Byte) : Entry := { cmd p 0 with partition := 1 }
def upPart1 (st : SpanState) : State :=
  { upServe with sched := { upServe.sched with state := st }, mbx := upServe.mbx.set 0 { upServe.mbx[(0 : Fin 8)] with partition := 1 } }
/-- SERVICE with a span of 1,000 grains. -/
def upLong : State := { upServe with sched := { upServe.sched with spanGrains := 1000 } }
theorem upLong_free : Free upLong := ⟨rfl, rfl, rfl, rfl, rfl, rfl, up_free.2.2.2.2.2.2⟩
theorem met_ScheduleCommandsAnswer_modes :
    (∀ s ∈ [upFam, upLong], s.Accepts 0x0204 (cmd [1, 0, 63] 0) ∧ (asSub 0x0204 (cmd [1, 0, 63] 0)).p 0 1 = 1
      ∧ s.partOf (asSub 0x0204 (cmd [1, 0, 63] 0)) = 0 ∧ s.sched.slots[(63 : Fin 64)] = some (anImage 0 5 [] [])
      ∧ (anImage 0 5 [] []).partition = 0)
    ∧ (upLong.sched.state = .running ∧ (anImage 0 5 [] []).spanGrains = upLong.sched.spanGrains.toNat)
    ∧ (∀ st ∈ [SpanState.running, .stopped], (upPart1 st).Accepts 0x0204 (cmd1 [2, 0, 0])
      ∧ (upPart1 st).partOf (asSub 0x0204 (cmd1 [2, 0, 0])) = 1 ∧ (upPart1 st).sched.state = st ∧ (upPart1 st).sec.grants[(1 : Fin 4)].state ≠ 2)
    ∧ (upServe.Accepts 0x0204 (cmd [2, 0, 0] 0) ∧ upServe.partOf (asSub 0x0204 (cmd [2, 0, 0] 0)) = 0
      ∧ (asSub 0x0204 (cmd [2, 0, 0] 0)).p 0 1 = 2 ∧ upServe.sec.grants[(0 : Fin 4)].state ≠ 2) := by
  refine ⟨?_, by decide, ?_, ⟨taken upServe_free _ _ _ _ rfl rfl (by decide), rfl, rfl, by decide⟩⟩
  · intro s hs
    simp only [List.mem_cons, List.not_mem_nil, or_false] at hs
    rcases hs with rfl | rfl
    · exact ⟨taken upFam_free _ _ _ _ rfl rfl (by decide), rfl, rfl, rfl, rfl⟩
    · exact ⟨taken upLong_free _ _ _ _ rfl rfl (by decide), rfl, rfl, rfl, rfl⟩
  · unfold State.Accepts
    decide +kernel

/-- READY with the track table and the history ring placed, and neither a schedule nor a subscription. -/
def upPlaced : State := { upFam with fus := { upFam.fus with
  tableBase := some 65536, historyRun := some (0x200000, historyPages upFam.fus.params.retroSpans) } }
theorem met_ScheduleCommandsAnswer_runs :
    (upPlaced.fus.tableBase ≠ none ∧ upPlaced.fus.historyRun = some (0x200000, historyPages upPlaced.fus.params.retroSpans))
    ∧ upFam.fus.historyRun = none ∧ (upServe.permitService = true)
    ∧ (∀ i : Fin 8, upServe.mbx[i].poseSub = none)
    ∧ ({ upServe with sched := { upServe.sched with state := .stopping } } : State).permitService = false := by decide

/-- What each outcome of a check comes to on the field engine and on the pose engine. -/
theorem met_FieldAndFusionOperationsStart_checks : ∀ t ∈ [Target.fld, .fus],
    (∀ chk ∈ [Check.clean, .sramCorrected, .dramCorrected 64], (((span 0 t [anOp 0x11] []).engineCheck t chk).1 = none))
    ∧ ∀ chk ∈ [Check.once 3, .twice 3, .sramBad 4, .dramBad 64], (((span 0 t [anOp 0x11] []).engineCheck t chk).1).isSome = true := by
  decide

/-- A state as the window of the place search engine leaves it that opens there. -/
def psOpened (s : State) (n : NextOp) : State :=
  let u := ((s.issued .ps n.op).startOp .ps n .main 0 []).expireAll
  { u with ps := { u.ps with windowFrom := u.grain, insertGrains := 0, insertAt := none } }
/-- The window open with its service on, with inserts due or not by its share, and with the service off. -/
theorem met_WindowsOpen_ps :
    (∀ s ∈ [upOpen, span 0 .ps [anOp 0x10] []], canIssue s .ps 0x10 (some .main) = true)
    ∧ ((upOpen.nextOp .ps).any fun n => (psOpened upOpen n).psWindow) = true
    ∧ (((span 0 .ps [anOp 0x10] []).nextOp .ps).any fun n => !(psOpened (span 0 .ps [anOp 0x10] []) n).psWindow) = true := by decide

/-- READY with a compiled schedule that waits at an address, and with a job of the graph that iterates when its window ends. -/
def upWaiting (a : Option Nat) : State := { up with slv := { up.slv with waiting := a } }
def upGraphEnd (iterating : Bool) : State :=
  let s := withSeq (span 0 .slv [anOp 0x11] [4, 0]) .slv fun q => { q with running := [aRun .main 0x11 []] }
  { s with slv := { s.slv with graph := some { aSlvJob 99 9 with graph := true, iterating := iterating } } }
theorem met_SolverJobsIterate_graph :
    ((upWaiting (some 64)).isReady = true ∧ (upWaiting (some 64)).dev.cpHalted[(1 : Fin 2)] = false ∧ (upWaiting (some 64)).slv.waiting = some 64)
    ∧ (up.slv.waiting = none ∧ up.slv.graph = none)
    ∧ (let s : State := { up with slv := { up.slv with queue := 65 } }; s.slv.queue.getLsbD 0 = true ∧ s.slv.waiting = none)
    ∧ (∀ b : Bool, (upGraphEnd b).slvService = some (aRun .main 0x11 [])
      ∧ ((upGraphEnd b).sectionOf .slv).any (fun x => decide (x.2.1.param 0 2 < (upGraphEnd b).grain)) = true
      ∧ ((upGraphEnd b).slv.graph.any (·.iterating)) = b) := by decide

/-- READY with base A acquiring from PPS_IN without a time of day. -/
def upAwaits : State := { up with tu := { up.tu with baseA := { up.tu.baseA with state := .acquiring, srcPps := true, todKnown := false } } }
theorem met_BasesFollowTheirSources_pins :
    (let s : State := { upBase .locked false with tu := { (upBase .locked false).tu with tbl := BitVec.ofNat 96 (2 ^ 40 * 2 ^ 32) } };
      s.tu.baseA.awaitsTod = false ∧ s.timeStopped = false)
    ∧ upAwaits.tu.baseA.awaitsTod = true ∧ up.pinsDriven = true ∧ State.reset.pinsDriven = false ∧ (upBase .locked true).pinsDriven = true
    ∧ (let s : State := { up with tu := { up.tu with ppsLast := some 0 } }; s.tu.ppsLast = some 0 ∧ s.timeStopped = false) := by decide

theorem met_SyncInHoldsTheInputs_pins : up.pinsDriven = true ∧ State.reset.pinsDriven = false := by decide

/-- READY with the two Ethernet ports up, and a record maker that makes a record of two bytes. -/
theorem met_RecordsArrive_forward :
    (let s : State := { up with dev := { up.dev with ethForward := true } }; s.isReady = true ∧ s.dev.ethForward = true)
    ∧ ∀ m : RecordMaker, m = (fun _ => .ok (7, [1, 2])) → ∀ d, m d = .ok (7, [1, 2]) :=
  ⟨by decide, fun _ h _ => by rw [h]⟩

theorem met_CameraFramesArrive_ready : ∀ trig runs : Bool, ∀ slots ∈ [[Slot.empty], [openedSlot (camera trig) 1]],
    (upStream (camera trig) runs slots none (some (0, some 0))).isReady = true := by decide

/-- The pose engine with a history ring in memory, without one, and without a subscription. -/
def upRing (run : Option (Nat × Nat)) : State := { upBind 0 true true with fus := { (upBind 0 true true).fus with historyRun := run } }
theorem met_InertialRecordsPropagate_ring : ∀ run ∈ [none, some (0x200000, 8)], (upRing run).fus.historyRun = run
    ∧ ((upRing run).activeBind 0).isSome = true ∧ (upRing run).flagSet (9 + 0) = true
    ∧ (∀ i : Fin 8, (upRing run).mbx[i].poseSub = none)
    ∧ (upRing run).fus.initialised = true := by decide
theorem met_PoseTimersExpire_sub : (∀ i : Fin 8, (upGap (2 ^ 40)).mbx[i].poseSub = none) ∧ up.dev.everReady = true := by decide

/-! ## A binding of an inertial input (R110) -/

theorem memReadN_add (m : List Host.Cell) : ∀ n k a, memReadN m a (n + k) = memReadN m a n ++ memReadN m (a + n) k
  | 0, k, a => by simp [memReadN]
  | n + 1, k, a => by
    rw [show n + 1 + k = (n + k) + 1 by omega]
    simp only [memReadN, List.cons_append]
    rw [memReadN_add m n k (a + 1), show a + 1 + n = a + (n + 1) by omega]
theorem memReadN_zeros (m : List Host.Cell) : ∀ n a, (∀ b, a ≤ b → memRead m b = 0) → memReadN m a n = List.replicate n 0
  | 0, _, _ => rfl
  | n + 1, a, h => by
    simp only [memReadN, List.replicate_succ]
    rw [h a (Nat.le_refl a), memReadN_zeros m n (a + 1) fun b hb => h b (by omega)]
theorem leNat_zeros : ∀ n, leNat (List.replicate n 0) = 0
  | 0 => rfl
  | n + 1 => by
    simp only [List.replicate_succ, leNat]
    rw [leNat_zeros n]
    rfl
/-- A field behind the first bytes of a list is zero. -/
theorem fieldAt_zeros (h : List Byte) (k o n : Nat) (le : h.length ≤ o) : fieldAt (h ++ List.replicate k 0) o n = 0 := by
  unfold fieldAt
  rw [List.drop_append, List.drop_eq_nil_of_le le, List.nil_append, List.drop_replicate, List.take_replicate, leNat_zeros]

/-- The first bytes of a filter set for direct mode: 32 kHz in, 8 kHz out, six axes of two bytes, gains of 0. -/
def filterHead : List Byte :=
  natLe 4 31250 ++ natLe 4 125000 ++ natLe 4 900000 ++ [0, 2, 24, 20, 0, 0, 0, 0, 0, 0, 2, 0, 4, 0, 6, 0, 8, 0, 10, 0]
/-- The object of the filter set, and the state with its bytes in DRAM and with channel 12 read 12 bytes at a time. -/
def aFilter : Obj := { anObj 0x06000000 false [] [] with size := 16640 }
/-- The descriptor of the sensor: not running. -/
def rawUnit : List Byte := aDesc 3 0 1 0 [0, 0, 10, 0x45, 12, 0, 1, 0]
/-- READY with both. -/
def upFilter : State :=
  { upObj aFilter with
    mem := memWriteN [] 0 filterHead
    sm := { up.sm with chans := up.sm.chans.set 12 { up.sm.chans[(12 : Fin 32)] with pend := some rawUnit } } }
theorem upFilter_free : Free upFilter := ⟨rfl, rfl, rfl, rfl, rfl, rfl, up_free.2.2.2.2.2.2⟩
theorem upFilter_bytes : upFilter.objBytes 0x06000000 = filterHead ++ List.replicate 16608 0 := by
  have hs : (16640 : Nat) = filterHead.length + 16608 := by decide
  have hb : upFilter.objBytes 0x06000000 = memReadN (memWriteN [] 0 filterHead) 0 16640 := rfl
  rw [hb, hs, memReadN_add, memReadN_memWriteN 0 filterHead rfl, memReadN_zeros]
  intro b hb
  rw [memRead_memWriteN_outside 0 b filterHead rfl (by omega)]
  rfl
theorem aFilter_ranges : fsRanges (filterHead ++ List.replicate 16608 0) = true := by
  unfold fsRanges
  refine Bool.and_eq_true_iff.2 ⟨by decide, List.all_eq_true.2 fun k _ => ?_⟩
  rw [fieldAt_zeros _ _ _ _ (by rw [show filterHead.length = 32 from rfl]; omega)]
  decide
theorem met_StreamCommandsAnswer_binding :
    upFilter.Accepts 0x0304 (cmd [3, 12, 1, 0, 0, 0, 0, 6] 0) ∧ (asSub 0x0304 (cmd [3, 12, 1, 0, 0, 0, 0, 6] 0)).p 0 1 = (3 : Fin 4).val
      ∧ (asSub 0x0304 (cmd [3, 12, 1, 0, 0, 0, 0, 6] 0)).p 1 1 = (12 : Fin 32).val
      ∧ (asSub 0x0304 (cmd [3, 12, 1, 0, 0, 0, 0, 6] 0)).p 2 1 ≤ 1 ∧ upFilter.ownsChannel 0 12 = true
      ∧ upFilter.sm.chans[(12 : Fin 32)].runs = false ∧ upFilter.ife.inputs[(3 : Fin 4)].binding = none
      ∧ upFilter.bindingFails 12 true 0x06000000 = none := by
  refine ⟨taken upFilter_free _ _ _ _ rfl rfl (by decide), rfl, rfl, by decide, rfl, rfl, rfl, ?_⟩
  unfold State.bindingFails
  rw [upFilter_bytes]
  dsimp only
  have hl : (filterHead ++ List.replicate 16608 (0 : Byte)).length = 16640 := by
    rw [List.length_append, List.length_replicate]
    rfl
  rw [if_neg, if_neg, if_neg, if_neg, if_neg, if_neg, if_neg]
  · exact Bool.false_ne_true
  · decide
  · exact Bool.false_ne_true
  · exact Bool.false_ne_true
  · decide
  · rw [aFilter_ranges]
    decide
  · rw [hl]
    decide
theorem test_wf_short_payload : (Instr.sysNop ⟨0, 1, 0, 0, 0, 0, 0, []⟩).wellFormed = false := by decide
theorem test_wf_entry : (Instr.sysNop (cmd [] 0)).wellFormed = true := by decide +kernel
theorem test_wf_write_opcode : (Instr.write (aFrame 0x9F 0x60 0)).wellFormed = false := by decide
theorem test_wf_write_length : (Instr.write { aFrame 0x02 0xFD 0 with data := List.replicate 4097 0 }).wellFormed = false := by
  decide +kernel
theorem test_wf_write : (Instr.write (aFrame 0x02 0xFD 0)).wellFormed = true := by decide
theorem test_wf_read_opcode : (Instr.read (aFrame 0x02 0xFD 0) true).wellFormed = false := by decide
theorem test_wf_register_align : (Instr.registerWrite (.block 0x0F 0x0C1) 0).wellFormed = false := by decide
theorem test_wf_direct_align : (Instr.rcFieldRead (.direct 0x002)).wellFormed = false := by decide
theorem test_wf_unit_of_engine : (Instr.opComplete .fus .vector).wellFormed = false := by decide
theorem test_wf_unit_of_core : (Instr.opComplete (.core 0) .vector).wellFormed = true := by decide
theorem test_wf_short_frame : (Instr.ethFrameReceive .portA (List.replicate 13 0) true).wellFormed = false := by decide
theorem test_wf_bridge_frame : (Instr.bridgeForward .portB [] 0).wellFormed = false := by decide
theorem test_wf_spi_empty : (Instr.spiTransactionDone 0 []).wellFormed = false := by decide
theorem test_wf_short_token : (Instr.debugTokenWrite []).wellFormed = false := by decide

/-- The table gives no row bits, so no word spells a command. -/
theorem test_no_word : decodeTableWord 0 0 = none := rfl

/-! ## Figures of the spec -/

/-- Chapter 8's worked example: 3.3 (0x40533333) to FP8-E4M3 with the draws 3,840 and 52,429. -/
theorem test_stochastic_e4m3 : convertOut 0x06 0 (decodeElem 0x0A 0 0x40533333) (some 3840) = (0x45, false)
    ∧ convertOut 0x06 0 (decodeElem 0x0A 0 0x40533333) (some 52429) = (0x46, false) := by decide
/-- The same table: 0.1 (0x3DCCCCCD) with the draw 4,660, and rounded to nearest; 500.0 saturates; 0.0009 gives +0. -/
theorem test_round_e4m3 : convertOut 0x06 0 (decodeElem 0x0A 0 0x3DCCCCCD) (some 4660) = (0x1C, false)
    ∧ convertOut 0x06 0 (decodeElem 0x0A 0 0x3DCCCCCD) none = (0x1D, false)
    ∧ convertOut 0x06 0 (decodeElem 0x0A 0 0x43FA0000) none = (0x7E, true)
    ∧ convertOut 0x06 0 (decodeElem 0x0A 0 0xBEA00000) none = (0xAA, false) := by decide
/-- R188's example: the INT32 value 16,777,217 to FX32 with FRAC 0, through FP32, gives 16,777,216. -/
theorem test_cvt_through_fp32 :
    (convertOut 0x05 0 (decodeElem 0x0A 0 (convertOut 0x0A 0 (decodeElem 0x04 0 16777217) none).1) none).1 = 16777216 := by decide
/-- Chapter 5's worked example: a least output latency of 881.16 us, in half nanoseconds. -/
theorem test_min_latency : fsMinLat (natLe 4 31250 ++ natLe 4 125000 ++ natLe 4 900000 ++ [1, 2, 24, 20, 23]) 1 12 10 = 1762320 := by
  decide
/-- R340: READ_ID answers the device identifier; before the port answers it is ignored. -/
theorem test_read_id : (match exec .readId up with | .next t => t.port.readData | _ => []) = [0x40, 0x64, 0x53, 0x54]
    ∧ exec .readId State.reset = .next State.reset := ⟨rfl, rfl⟩
/-- R332: in 8D-8D-8D a READ_ID frame with a wrong complement drives zeros and counts one error. -/
theorem test_read_id_complement : (match exec (.write (aFrame 0x9F 0x61 0)) (up8 true) with
    | .next t => some (t.port.readData, t.port.errCount) | _ => none) = some ([0, 0, 0, 0], 1) := by decide
/-- R433: the release of PORESET_N in reset starts the boot ROM, with the straps latched. -/
theorem test_release : (match step { State.reset with pending := [.poresetRelease 2] } with
    | .next t => decide (t.dev.phase = .bootRom ∧ t.pins.bootSrc = 2 ∧ t.pending = []) | _ => false) = true := by decide

end Sys2Proof.Tests
end

section
/-!
PROOFS. SCHED_START and the time requirement (R30): which test of the command decides, and the schedule that RUNS after it.
-/
namespace Sys2Proof.Machine

/-! ## The runs that a start takes leave the schedule alone -/

@[simp] theorem State.unmapRun_sched (s : State) (base bytes : Nat) : (s.unmapRun base bytes).sched = s.sched := rfl
@[simp] theorem State.fillRun_sched (s : State) (base bytes : Nat) (cells : List Host.Cell) :
    (s.fillRun base bytes cells).sched = s.sched := rfl
@[simp] theorem State.freeRun_sched (s : State) (p : Fin 4) (self pages : Nat) : (s.freeRun p self pages).2.sched = s.sched := rfl

@[simp] theorem State.storeHistory_sched (s : State) (n : Nat) : (s.storeHistory n).sched = s.sched := by
  unfold State.storeHistory
  split
  · rfl
  · exact foldl_keeps State.sched _ (fun a x => a.writeMem_sched _ _) _ _

/-- The search for a free run, as a function of which the frame alone is known: the kernel evaluates the search itself as far as it
goes when it compares two matches on its result, and 256 pages of bytes are too far. -/
theorem State.freeRun_opaque : ∃ run, State.freeRun = run ∧
    ∀ (s : State) (p : Fin 4) (self pages : Nat), (run s p self pages).2.sched = s.sched :=
  ⟨_, rfl, State.freeRun_sched⟩

@[simp] theorem State.placeTable_sched (s : State) : s.placeTable.sched = s.sched := by
  obtain ⟨run, isRun, frame⟩ := State.freeRun_opaque
  unfold State.placeTable
  rw [isRun]
  split
  · rfl
  · have drawn := frame s 0 0 256
    split
    next found => simpa [found] using drawn
    next full => simpa [full] using drawn

@[simp] theorem State.placeHistory_sched (s : State) : s.placeHistory.sched = s.sched := by
  obtain ⟨run, isRun, frame⟩ := State.freeRun_opaque
  unfold State.placeHistory
  rw [isRun]
  dsimp only
  split
  · rfl
  · split <;> split <;> simp [frame]

@[simp] theorem State.fusStart_sched (s : State) : s.fusStart.sched = s.sched := by simp [State.fusStart]

/-! ## What SCHED_START does -/

/-- A schedule that begins is RUNNING, S0 still to come (R81). -/
@[simp] theorem State.schedBegin_state (s : State) (grains : Nat) (fams : Fin 4 → Nat) :
    (s.schedBegin grains fams).sched.state = .running := by
  simp [State.schedBegin]

/-- The time requirement as R30 words it. -/
theorem State.timeReady_iff (s : State) : s.timeReady = true ↔
    s.tu.requireLock = false ∨ (s.tu.aligned = true ∧ (s.tu.baseA.state = .locked ∨ s.tu.baseB.state = .locked)) := by
  simp [State.timeReady, BaseClock.isLocked]

/-- An accepted SCHED_START is carried out. -/
theorem exec_schedStart_of_accepts {s : State} {e : Entry} (h : s.Accepts 0x0202 e) :
    exec (.schedStart e) s = .next (State.schedStart (asSub 0x0202 e) s) :=
  congrArg Host.Outcome.next (State.serve_of_accepts h State.schedStart)

/-- Without the time it requires a start completes with `ERR_TIME_UNLOCKED`, whatever its other operands are. -/
theorem State.schedStart_of_timeUnready {s : State} (c : SubEntry) (stopped : s.sched.state = .stopped) (time : ¬ s.timeReady = true) :
    State.schedStart c s = s.replyErr c errTime := by
  simp [State.schedStart, stopped, time]

/-- An image of a family gives the family its rung. -/
theorem State.familyOf_any_rung {s : State} {p : Fin 4} {sig r : Nat} {k : Fin 64} {img : Image} (mem : (k, img) ∈ s.familyOf p sig)
    (rung : img.rung = r) : ((s.familyOf p sig).any fun x => decide (x.2.rung = r)) = true :=
  List.any_eq_true.mpr ⟨(k, img), mem, decide_eq_true rung⟩

/-- A start that passes every test of R30, R57 and R81 begins the schedule, and its completion waits. -/
theorem State.schedStart_of_passes {s : State} {c : SubEntry} {a b : Fin 64} {x y : Image} (stopped : s.sched.state = .stopped)
    (time : s.timeReady = true) (low : (a, x) ∈ s.familyOf 0 (c.p 0 8)) (lowRung : x.rung = 0)
    (high : (b, y) ∈ s.familyOf 0 (c.p 0 8)) (highRung : y.rung = 5)
    (length : s.oddLength (fun p => c.p (8 * p.val) 8) = none)
    (scrub : ∀ p : Fin 4, c.p (8 * p.val) 8 ≠ 0 → s.sec.grants[p].state ≠ 2) :
    State.schedStart c s =
      (s.addJob c .schedStart).schedBegin (s.refLength (c.p 0 8)) (fun p => c.p (8 * p.val) 8) := by
  have has0 := State.familyOf_any_rung low lowRung
  have has5 := State.familyOf_any_rung high highRung
  have quiet : ((List.finRange 4).any fun p => decide (c.p (8 * p.val) 8 ≠ 0 ∧ s.sec.grants[p].state = 2)) = false :=
    List.any_eq_false.mpr fun p _ => by simpa using scrub p
  unfold State.schedStart
  simp only [stopped, time, Fin.val_zero, Nat.mul_zero, has0, has5, length, quiet]
  simp

end Sys2Proof.Machine

open Sys2Proof Sys2Proof.Machine

/-- Settles O17: an accepted SCHED_START runs `State.schedStart`, whose first test after STOPPED is the time requirement, and whose
remaining tests are the other hypotheses. -/
theorem startNeedsTime : Obligations.StartNeedsTime := by
  intro s e accepted stopped
  rw [exec_schedStart_of_accepts accepted]
  refine ⟨fun required lacking => ?_, fun a b x y time low lowRung high highRung length scrub => ?_⟩
  · have unready : ¬ s.timeReady = true := by
      rw [State.timeReady_iff]
      rintro (free | met)
      · simp [required] at free
      · exact lacking met
    rw [State.schedStart_of_timeUnready _ stopped unready]
  · have ready := s.timeReady_iff.mpr time
    exact ⟨_, congrArg _ (State.schedStart_of_passes stopped ready low lowRung high highRung length scrub), State.schedBegin_state _ _ _⟩
end

section
/-!
PROOFS. The mode of the host port (R326): what every reset leaves in it, and what a write of `HOST_PORT_MODE` does to it.
-/
namespace Sys2Proof.Machine

/-! ## A reset leaves the port at its reset value -/

@[simp] theorem State.coldState_port (s : State) : s.coldState.port = Port.reset := rfl
@[simp] theorem State.warmState_port (s : State) (cause : Nat) : (s.warmState cause).port = Port.reset := rfl

/-- A warm reset starts where no reset is in progress and no thermal trip holds the device (R433). -/
theorem State.warmReset_of_running {s : State} (running : s.dev.inReset = false) (cool : s.pins.thermtripN = true) (cause : Nat) :
    s.warmReset cause = s.warmState cause := by
  simp [State.warmReset, running, cool]

theorem State.poresetFall_port {s : State} (powered : s.dev.phase ≠ .unpowered) (high : s.pins.poresetN = true) :
    s.poresetFall.port = Port.reset := by
  simp [State.poresetFall, powered, high]

theorem State.powerLoss_port {s : State} (powered : s.dev.phase ≠ .unpowered) : s.powerLoss.port = Port.reset := by
  simp [State.powerLoss, powered]

theorem State.sysresetFall_port {s : State} (running : s.dev.inReset = false) (cool : s.pins.thermtripN = true) :
    s.sysresetFall.port = Port.reset :=
  congrArg State.port (State.warmReset_of_running (s := { s with pins := { s.pins with sysresetN := false } }) running cool 2)

theorem State.resetDelayOver_port {s : State} (running : s.dev.inReset = false) (cool : s.pins.thermtripN = true)
    (pending : s.dev.resetPending = true) : s.resetDelayOver.port = Port.reset := by
  simp [State.resetDelayOver, pending, State.warmReset_of_running running cool]

theorem State.watchdogExpiry_port {s : State} {cp : Fin 2} (running : s.dev.inReset = false) (cool : s.pins.thermtripN = true)
    (ready : s.isReady = true) (sound : s.dev.fatal = false) (armed : s.dev.wdArmed = true) (unfed : s.dev.wdBits[cp] = false) :
    (s.watchdogExpiry cp).port = Port.reset := by
  simp [State.watchdogExpiry, ready, sound, armed, unfed, State.warmReset_of_running running cool]

/-- The port's reset value has the mode that R326 names. -/
theorem Port.mode_of_eq_reset {p : Port} (isReset : p = Port.reset) : p.mode = 0 ∧ p.latency = 20 ∧ p.crcEn = false := by
  subst isReset
  exact ⟨rfl, rfl, rfl⟩

/-- PORT_RESET carries the complement of its opcode, so no mode of the port refuses it (R327). -/
theorem State.bareFrame_portReset {s : State} (answers : s.dev.portUp = true) :
    s.bareFrame 0xF0 0x0F = { s with port := { s.port with mode := 0, latency := 20, crcEn := false } } := by
  simp [State.bareFrame, State.bareAct, Port.complementBad, answers]

/-! ## A host write of one direct register that belongs to no ring -/

theorem leNat_natLe (n v : Nat) : leNat (natLe n v) = v % 256 ^ n := by
  induction n generalizing v with
  | zero => simp [natLe, leNat, Nat.mod_one]
  | succ n ih =>
    simp only [natLe, leNat, ih, BitVec.toNat_ofNat]
    rw [Nat.pow_succ' (m := 256), Nat.mod_mul]

/-- The burst that carries a word carries that word alone. -/
theorem wordsAt_natLe (off : Nat) (v : Word) : wordsAt off (natLe 4 v.toNat) = [(off, v)] := by
  have value : BitVec.ofNat 32 (leNat (natLe 4 v.toNat)) = v := by
    rw [leNat_natLe, Nat.mod_eq_of_lt (b := 256 ^ 4) v.isLt, BitVec.ofNat_toNat, BitVec.setWidth_eq]
  simpa [natLe, wordsAt] using value

/-- A word write to a direct register outside the ring registers is never refused. -/
theorem State.hostRegWrite_of_noRing {s : State} {off : Nat} (answers : s.dev.portUp = true) (direct : off + 4 ≤ 0x1000)
    (noRing : ringRegMbx off = none) (v : Word) : s.hostRegWrite off v = s.directWrite off v := by
  have region : regionOf off 4 = some .direct := if_pos (by omega)
  have untouched : ringRegsTouched off 4 = [] := by simp [ringRegsTouched, noRing]
  have accepted : s.writeRefusal off (natLe 4 v.toNat) = none := by
    simp [State.writeRefusal, region, untouched, wordsAt_natLe, State.ringRefusal, State.indexOk, noRing]
  simp [State.hostRegWrite, State.hostWrite, State.applyWrite, answers, accepted, region, wordsAt_natLe]

/-- A write of `HOST_PORT_MODE` sets the mode, also while the device is parked (R341). -/
theorem State.hostRegWrite_portMode {s : State} (answers : s.dev.portUp = true) (v : Word) :
    s.hostRegWrite 0x010 v = { s with port := s.port.setMode v } := by
  rw [State.hostRegWrite_of_noRing answers (by decide) rfl]
  rfl

/-! ## The fields of `HOST_PORT_MODE` -/

@[simp] theorem Port.setMode_crcEn (p : Port) (v : Word) : (p.setMode v).crcEn = v.getLsbD 2 := rfl

/-- Codes 0 and 1 of the two bits of MODE are not reserved. -/
theorem Port.setMode_mode (p : Port) (v : Word) :
    (p.setMode v).mode = if v.toNat % 4 ≤ 1 then BitVec.ofNat 2 v.toNat else p.mode := by
  have code : v.setWidth 2 = 0 ∨ v.setWidth 2 = 1 ↔ v.toNat % 4 ≤ 1 := by
    bv_omega
  have field : v.setWidth 2 = BitVec.ofNat 2 v.toNat := by simp
  simp only [Port.setMode, code]
  rw [field]

theorem Port.setMode_latency (p : Port) (v : Word) :
    (p.setMode v).latency.toNat =
      if 8 ≤ v.toNat / 256 % 64 ∧ v.toNat / 256 % 64 ≤ 32 then v.toNat / 256 % 64 else p.latency.toNat := by
  have field : ((v >>> 8).setWidth 6).toNat = v.toNat / 256 % 64 := by
    simp [BitVec.toNat_ushiftRight, Nat.shiftRight_eq_div_pow]
  simp only [Port.setMode, field]
  split
  · exact field
  · rfl

end Sys2Proof.Machine

open Sys2Proof Sys2Proof.Machine

/-- Settles O30: each reset that acts leaves the port at `Port.reset`, PORT_RESET is never refused, and a write of `HOST_PORT_MODE`
is never refused either and sets the port by `Port.setMode`. -/
theorem portModeRules : Obligations.PortModeRules := by
  intro s
  refine ⟨fun powered high => ⟨_, rfl, Port.mode_of_eq_reset (State.poresetFall_port powered high)⟩,
    fun powered => ⟨_, rfl, Port.mode_of_eq_reset (State.powerLoss_port powered)⟩,
    fun running cool => ⟨?sysreset, ?delay, ?watchdog⟩,
    fun answers => congrArg Host.Outcome.next (State.bareFrame_portReset answers), fun v answers => ?write⟩
  case sysreset => exact ⟨_, rfl, Port.mode_of_eq_reset (State.sysresetFall_port running cool)⟩
  case delay => exact fun pending => ⟨_, rfl, Port.mode_of_eq_reset (State.resetDelayOver_port running cool pending)⟩
  case watchdog =>
    exact fun cp ready sound armed unfed =>
      ⟨_, rfl, Port.mode_of_eq_reset (State.watchdogExpiry_port running cool ready sound armed unfed)⟩
  case write =>
    exact ⟨_, congrArg Host.Outcome.next (State.hostRegWrite_portMode answers v), s.port.setMode_mode v, s.port.setMode_crcEn v,
      s.port.setMode_latency v, rfl⟩
end

section
/-!
PROOFS. The reset causes (R432): which device state each reset that acts begins, and the phase and the cause that it sets there.
-/
namespace Sys2Proof.Machine

/-! ## The phase and the cause that a reset leaves -/

@[simp] theorem State.coldState_dev (s : State) : s.coldState.dev = Dev.reset := rfl
@[simp] theorem State.warmState_phase (s : State) (cause : Nat) : (s.warmState cause).dev.phase = .warmReset := rfl
@[simp] theorem State.warmState_resetCause (s : State) (cause : Nat) :
    (s.warmState cause).dev.resetCause = BitVec.ofNat 32 cause := rfl

/-! ## The reset that each event begins -/

/-- A fall of `PORESET_N` begins a cold reset, whatever else is in progress (R433). -/
theorem State.poresetFall_eq_coldState {s : State} (powered : s.dev.phase ≠ .unpowered) (high : s.pins.poresetN = true) :
    s.poresetFall = State.coldState { s with pins := { s.pins with poresetN := false } } := by
  simp [State.poresetFall, powered, high]

theorem State.sysresetFall_eq_warmState {s : State} (running : s.dev.inReset = false) (cool : s.pins.thermtripN = true) :
    s.sysresetFall = State.warmState { s with pins := { s.pins with sysresetN := false } } 2 :=
  State.warmReset_of_running (s := { s with pins := { s.pins with sysresetN := false } }) running cool 2

theorem State.resetDelayOver_eq_warmState {s : State} (running : s.dev.inReset = false) (cool : s.pins.thermtripN = true)
    (pending : s.dev.resetPending = true) : s.resetDelayOver = s.warmState 4 := by
  simp [State.resetDelayOver, pending, State.warmReset_of_running running cool]

/-- A bit of the watchdog unrefreshed for its period begins a warm reset in READY, with no fatal error present (R435). -/
theorem State.watchdogExpiry_eq_warmState {s : State} {cp : Fin 2} (running : s.dev.inReset = false)
    (cool : s.pins.thermtripN = true) (ready : s.isReady = true) (sound : s.dev.fatal = false) (armed : s.dev.wdArmed = true)
    (unfed : s.dev.wdBits[cp] = false) : s.watchdogExpiry cp = s.warmState 8 := by
  simp [State.watchdogExpiry, ready, sound, armed, unfed, State.warmReset_of_running running cool]

end Sys2Proof.Machine

open Sys2Proof Sys2Proof.Machine

/-- Settles O37: each event begins the cold state, or the warm state with its own cause, and neither reads the causes that stood there. -/
theorem eachResetSetsItsCause : Obligations.EachResetSetsItsCause := by
  intro s
  refine ⟨fun powered high => ⟨s.poresetFall, rfl, ?poreset⟩, fun running cool => ⟨⟨s.sysresetFall, rfl, ?sysreset⟩,
    fun pending => ⟨s.resetDelayOver, rfl, ?delay⟩,
    fun cp ready sound armed unfed => ⟨s.watchdogExpiry cp, rfl, ?watchdog⟩⟩⟩
  case poreset =>
    rw [State.poresetFall_eq_coldState powered high, State.coldState_dev]
    exact ⟨rfl, rfl⟩
  case sysreset =>
    rw [State.sysresetFall_eq_warmState running cool]
    exact ⟨State.warmState_phase _ 2, State.warmState_resetCause _ 2⟩
  case delay =>
    rw [State.resetDelayOver_eq_warmState running cool pending]
    exact ⟨State.warmState_phase _ 4, State.warmState_resetCause _ 4⟩
  case watchdog =>
    rw [State.watchdogExpiry_eq_warmState running cool ready sound armed unfed]
    exact ⟨State.warmState_phase _ 8, State.warmState_resetCause _ 8⟩
end

section
set_option Elab.async false
/-!
PROOFS. Which parts of the state an operation moves: a relation between two states, its composition, and what the shared operations
move.
-/
namespace Sys2Proof.Machine

/-! ## The parts of the state -/

/-- The fields of `State`, as names. -/
inductive Part where
  | pins | dev | port | mbx | fw | sched | flags | tu | sm | ife | vis | cores
  | fld | fus | slv | ps | mem | sram | mt | pm | sec | evr | free | pending
  deriving DecidableEq

/-- What a part holds. -/
abbrev Part.Ty : Part → Type
  | .pins => Pins
  | .dev => Dev
  | .port => Port
  | .mbx => Vector Mbx 8
  | .fw => Fw
  | .sched => Sched
  | .flags => List (Nat × FlagVal)
  | .tu => TimeUnit
  | .sm => Streams
  | .ife => Ife
  | .vis => Vector VisionEngine 4
  | .cores => Vector Core 8
  | .fld => Field
  | .fus => Fusion
  | .slv => Solver
  | .ps => PlaceEngine
  | .mem => List Host.Cell
  | .sram => Vector (List Host.Cell) 10
  | .mt => MemTiers
  | .pm => Power
  | .sec => Security
  | .evr => Recorder
  | .free => Nat
  | .pending => List Instr

/-- A part of a state. -/
@[simp] def State.part (s : State) : (p : Part) → p.Ty
  | .pins => s.pins
  | .dev => s.dev
  | .port => s.port
  | .mbx => s.mbx
  | .fw => s.fw
  | .sched => s.sched
  | .flags => s.flags
  | .tu => s.tu
  | .sm => s.sm
  | .ife => s.ife
  | .vis => s.vis
  | .cores => s.cores
  | .fld => s.fld
  | .fus => s.fus
  | .slv => s.slv
  | .ps => s.ps
  | .mem => s.mem
  | .sram => s.sram
  | .mt => s.mt
  | .pm => s.pm
  | .sec => s.sec
  | .evr => s.evr
  | .free => s.free
  | .pending => s.pending

theorem State.ext {s t : State} (pins : s.pins = t.pins) (dev : s.dev = t.dev) (port : s.port = t.port) (mbx : s.mbx = t.mbx)
    (fw : s.fw = t.fw) (sched : s.sched = t.sched) (flags : s.flags = t.flags) (tu : s.tu = t.tu) (sm : s.sm = t.sm)
    (ife : s.ife = t.ife) (vis : s.vis = t.vis) (cores : s.cores = t.cores) (fld : s.fld = t.fld) (fus : s.fus = t.fus)
    (slv : s.slv = t.slv) (ps : s.ps = t.ps) (mem : s.mem = t.mem) (sram : s.sram = t.sram) (mt : s.mt = t.mt) (pm : s.pm = t.pm)
    (sec : s.sec = t.sec) (evr : s.evr = t.evr) (free : s.free = t.free) (pending : s.pending = t.pending) : s = t := by
  cases s
  cases t
  simp_all only

theorem State.eq_of_part {s t : State} (same : ∀ p, s.part p = t.part p) : s = t :=
  State.ext (same .pins) (same .dev) (same .port) (same .mbx) (same .fw) (same .sched) (same .flags) (same .tu) (same .sm)
    (same .ife) (same .vis) (same .cores) (same .fld) (same .fus) (same .slv) (same .ps) (same .mem) (same .sram)
    (same .mt) (same .pm) (same .sec) (same .evr) (same .free) (same .pending)

/-- The second state differs from the first in the listed parts at most. -/
def State.Outside (s : State) (parts : List Part) (t : State) : Prop := ∀ p, p ∉ parts → t.part p = s.part p

namespace State.Outside
variable {s t u : State} {parts more : List Part}

theorem refl (s : State) (parts : List Part) : s.Outside parts s := fun _ _ => rfl

theorem of_eq (same : t = s) : s.Outside parts t := same ▸ refl s parts

theorem trans (first : s.Outside parts t) (second : t.Outside more u) : s.Outside (parts ++ more) u := fun p out => by
  rw [List.mem_append, not_or] at out
  exact (second p out.2).trans (first p out.1)

theorem mono (h : s.Outside parts t) (sub : parts ⊆ more) : s.Outside more t := fun p out => h p fun mem => out (sub mem)

/-- Two moves of the same parts. -/
theorem and (first : s.Outside parts t) (second : t.Outside parts u) : s.Outside parts u :=
  fun p out => (second p out).trans (first p out)

/-- One more move, of some of the parts. -/
theorem step (first : s.Outside parts t) (second : t.Outside more u) (sub : more ⊆ parts := by decide) : s.Outside parts u :=
  first.and (second.mono sub)

/-- A choice between two moves. -/
theorem ite {c : Prop} [Decidable c] (yes : s.Outside parts t) (no : s.Outside parts u) : s.Outside parts (if c then t else u) := by
  split
  · exact yes
  · exact no

/-- A fold moves what its steps move. -/
theorem foldl {α : Type} (f : State → α → State) (step : ∀ (a : State) (x : α), a.Outside parts (f a x)) (l : List α) (s : State) :
    s.Outside parts (l.foldl f s) := by
  induction l generalizing s with
  | nil => exact refl s parts
  | cons x l ih => exact (step s x).and (ih _)

/-- A state that has the listed parts of the first and the others of the second is the first. -/
theorem restored (h : s.Outside parts t) (inside : ∀ p ∈ parts, u.part p = s.part p) (outside : ∀ p, p ∉ parts → u.part p = t.part p) :
    u = s :=
  State.eq_of_part fun p => by
    by_cases mem : p ∈ parts
    · exact inside p mem
    · exact (outside p mem).trans (h p mem)

/-! Each part outside the list is the same. -/

theorem pins (h : s.Outside parts t) (out : .pins ∉ parts := by decide) : t.pins = s.pins := h .pins out
theorem dev (h : s.Outside parts t) (out : .dev ∉ parts := by decide) : t.dev = s.dev := h .dev out
theorem port (h : s.Outside parts t) (out : .port ∉ parts := by decide) : t.port = s.port := h .port out
theorem mbx (h : s.Outside parts t) (out : .mbx ∉ parts := by decide) : t.mbx = s.mbx := h .mbx out
theorem fw (h : s.Outside parts t) (out : .fw ∉ parts := by decide) : t.fw = s.fw := h .fw out
theorem sched (h : s.Outside parts t) (out : .sched ∉ parts := by decide) : t.sched = s.sched := h .sched out
theorem flags (h : s.Outside parts t) (out : .flags ∉ parts := by decide) : t.flags = s.flags := h .flags out
theorem tu (h : s.Outside parts t) (out : .tu ∉ parts := by decide) : t.tu = s.tu := h .tu out
theorem sm (h : s.Outside parts t) (out : .sm ∉ parts := by decide) : t.sm = s.sm := h .sm out
theorem ife (h : s.Outside parts t) (out : .ife ∉ parts := by decide) : t.ife = s.ife := h .ife out
theorem vis (h : s.Outside parts t) (out : .vis ∉ parts := by decide) : t.vis = s.vis := h .vis out
theorem cores (h : s.Outside parts t) (out : .cores ∉ parts := by decide) : t.cores = s.cores := h .cores out
theorem fld (h : s.Outside parts t) (out : .fld ∉ parts := by decide) : t.fld = s.fld := h .fld out
theorem fus (h : s.Outside parts t) (out : .fus ∉ parts := by decide) : t.fus = s.fus := h .fus out
theorem slv (h : s.Outside parts t) (out : .slv ∉ parts := by decide) : t.slv = s.slv := h .slv out
theorem ps (h : s.Outside parts t) (out : .ps ∉ parts := by decide) : t.ps = s.ps := h .ps out
theorem mem (h : s.Outside parts t) (out : .mem ∉ parts := by decide) : t.mem = s.mem := h .mem out
theorem sram (h : s.Outside parts t) (out : .sram ∉ parts := by decide) : t.sram = s.sram := h .sram out
theorem mt (h : s.Outside parts t) (out : .mt ∉ parts := by decide) : t.mt = s.mt := h .mt out
theorem pm (h : s.Outside parts t) (out : .pm ∉ parts := by decide) : t.pm = s.pm := h .pm out
theorem sec (h : s.Outside parts t) (out : .sec ∉ parts := by decide) : t.sec = s.sec := h .sec out
theorem evr (h : s.Outside parts t) (out : .evr ∉ parts := by decide) : t.evr = s.evr := h .evr out
theorem free (h : s.Outside parts t) (out : .free ∉ parts := by decide) : t.free = s.free := h .free out
theorem pending (h : s.Outside parts t) (out : .pending ∉ parts := by decide) : t.pending = s.pending := h .pending out

/-! An update of one field moves that part. -/

theorem setPins (s : State) (x : Pins) : s.Outside [.pins] { s with pins := x } := fun p out => by
  cases p <;> simp_all
theorem setDev (s : State) (x : Dev) : s.Outside [.dev] { s with dev := x } := fun p out => by
  cases p <;> simp_all
theorem setPort (s : State) (x : Port) : s.Outside [.port] { s with port := x } := fun p out => by
  cases p <;> simp_all
theorem setMbx (s : State) (x : Vector Mbx 8) : s.Outside [.mbx] { s with mbx := x } := fun p out => by
  cases p <;> simp_all
theorem setFw (s : State) (x : Fw) : s.Outside [.fw] { s with fw := x } := fun p out => by
  cases p <;> simp_all
theorem setSched (s : State) (x : Sched) : s.Outside [.sched] { s with sched := x } := fun p out => by
  cases p <;> simp_all
theorem setFlags (s : State) (x : List (Nat × FlagVal)) : s.Outside [.flags] { s with flags := x } := fun p out => by
  cases p <;> simp_all
theorem setTu (s : State) (x : TimeUnit) : s.Outside [.tu] { s with tu := x } := fun p out => by
  cases p <;> simp_all
theorem setSm (s : State) (x : Streams) : s.Outside [.sm] { s with sm := x } := fun p out => by
  cases p <;> simp_all
theorem setIfe (s : State) (x : Ife) : s.Outside [.ife] { s with ife := x } := fun p out => by
  cases p <;> simp_all
theorem setVis (s : State) (x : Vector VisionEngine 4) : s.Outside [.vis] { s with vis := x } := fun p out => by
  cases p <;> simp_all
theorem setCores (s : State) (x : Vector Core 8) : s.Outside [.cores] { s with cores := x } := fun p out => by
  cases p <;> simp_all
theorem setFld (s : State) (x : Field) : s.Outside [.fld] { s with fld := x } := fun p out => by
  cases p <;> simp_all
theorem setFus (s : State) (x : Fusion) : s.Outside [.fus] { s with fus := x } := fun p out => by
  cases p <;> simp_all
theorem setSlv (s : State) (x : Solver) : s.Outside [.slv] { s with slv := x } := fun p out => by
  cases p <;> simp_all
theorem setPs (s : State) (x : PlaceEngine) : s.Outside [.ps] { s with ps := x } := fun p out => by
  cases p <;> simp_all
theorem setMem (s : State) (x : List Host.Cell) : s.Outside [.mem] { s with mem := x } := fun p out => by
  cases p <;> simp_all
theorem setSram (s : State) (x : Vector (List Host.Cell) 10) : s.Outside [.sram] { s with sram := x } := fun p out => by
  cases p <;> simp_all
theorem setMt (s : State) (x : MemTiers) : s.Outside [.mt] { s with mt := x } := fun p out => by
  cases p <;> simp_all
theorem setPm (s : State) (x : Power) : s.Outside [.pm] { s with pm := x } := fun p out => by
  cases p <;> simp_all
theorem setSec (s : State) (x : Security) : s.Outside [.sec] { s with sec := x } := fun p out => by
  cases p <;> simp_all
theorem setEvr (s : State) (x : Recorder) : s.Outside [.evr] { s with evr := x } := fun p out => by
  cases p <;> simp_all
theorem setFree (s : State) (x : Nat) : s.Outside [.free] { s with free := x } := fun p out => by
  cases p <;> simp_all
theorem setPending (s : State) (x : List Instr) : s.Outside [.pending] { s with pending := x } := fun p out => by
  cases p <;> simp_all

end State.Outside

/-! ## What the shared operations move -/

theorem State.updMbx_outside (s : State) (i : Fin 8) (f : Mbx → Mbx) : s.Outside [.mbx] (s.updMbx i f) := fun p out => by
  cases p <;> simp_all
theorem State.updChan_outside (s : State) (i : Fin 32) (f : Channel → Channel) :
    s.Outside [.sm] (s.updChan i f) := fun p out => by
  cases p <;> simp_all
theorem State.updCore_outside (s : State) (i : Fin 8) (f : Core → Core) : s.Outside [.cores] (s.updCore i f) := fun p out => by
  cases p <;> simp_all
theorem State.updCorePower_outside (s : State) (i : Fin 8) (f : CorePower → CorePower) :
    s.Outside [.pm] (s.updCorePower i f) := fun p out => by
  cases p <;> simp_all
theorem State.updSeq_outside (s : State) (i : Fin 22) (f : Seq → Seq) : s.Outside [.sched] (s.updSeq i f) := fun p out => by
  cases p <;> simp_all
theorem State.onSeq_outside (s : State) (t : Target) (f : Seq → Seq) : s.Outside [.sched] (s.onSeq t f) := fun p out => by
  cases p <;> simp_all
theorem State.updInput_outside (s : State) (i : Fin 4) (f : IfeInput → IfeInput) :
    s.Outside [.ife] (s.updInput i f) := fun p out => by
  cases p <;> simp_all
theorem State.updEnc_outside (s : State) (i : Fin 8) (f : Encoder → Encoder) : s.Outside [.ife] (s.updEnc i f) := fun p out => by
  cases p <;> simp_all
theorem State.updVis_outside (s : State) (i : Fin 4) (f : VisionEngine → VisionEngine) :
    s.Outside [.vis] (s.updVis i f) := fun p out => by
  cases p <;> simp_all
theorem State.updTrig_outside (s : State) (i : Fin 16) (f : Trig → Trig) : s.Outside [.tu] (s.updTrig i f) := fun p out => by
  cases p <;> simp_all
theorem State.updGrant_outside (s : State) (i : Fin 4) (f : Grant → Grant) : s.Outside [.sec] (s.updGrant i f) := fun p out => by
  cases p <;> simp_all
theorem State.updBase_outside (s : State) (b : Base) (f : BaseClock → BaseClock) :
    s.Outside [.tu] (s.updBase b f) := fun p out => by
  cases p <;> simp_all
theorem State.setFlag_outside (s : State) (n : Nat) : s.Outside [.flags] (s.setFlag n) := fun p out => by
  cases p <;> simp_all
theorem State.voidFlag_outside (s : State) (n : Nat) (w : Bool) : s.Outside [.flags] (s.voidFlag n w) := fun p out => by
  cases p <;> simp_all
theorem State.clearFlag_outside (s : State) (n : Nat) : s.Outside [.flags] (s.clearFlag n) := fun p out => by
  cases p <;> simp_all
theorem State.clearOnIssue_outside (s : State) (o : Op) : s.Outside [.flags] (s.clearOnIssue o) := fun p out => by
  cases p <;> simp_all
theorem State.setOnDone_outside (s : State) (o : Op) : s.Outside [.flags] (s.setOnDone o) := fun p out => by
  cases p <;> simp_all
theorem State.voidOnSkip_outside (s : State) (o : Op) : s.Outside [.flags] (s.voidOnSkip o) := fun p out => by
  cases p <;> simp_all
theorem State.setPin_outside (s : State) (n : PinName) (v : Bool) : s.Outside [.pins] (s.setPin n v) := fun p out => by
  cases p <;> simp_all
theorem State.irqPin_outside (s : State) : s.Outside [.pins] (s.irqPin) := fun p out => by
  cases p <;> simp_all
theorem State.raiseIrq_outside (s : State) (b : Word) : s.Outside [.pins, .port] (s.raiseIrq b) := fun p out => by
  cases p <;> simp_all
theorem State.event_outside (s : State) (source code a b c : Nat) :
    s.Outside [.evr] (s.event source code a b c) := fun p out => by
  cases p <;> simp_all
theorem State.startOp_outside (s : State) (t : Target) (n : NextOp) (u : OpUnit) (k : Nat) (w : List MemWrite) :
    s.Outside [.sched] (s.startOp t n u k w) := fun p out => by
  cases p <;> simp_all
theorem State.writeMem_outside (s : State) (a : Nat) (bs : List Byte) : s.Outside [.mem] (s.writeMem a bs) := fun p out => by
  cases p <;> simp_all
theorem State.writePool_outside (s : State) (b : Nat) (bs : List Byte) : s.Outside [.mem] (s.writePool b bs) := fun p out => by
  cases p <;> simp_all
theorem State.postCompletion_outside (s : State) (i : Fin 8) (c : Completion) :
    s.Outside [.mbx, .pins, .port] (s.postCompletion i c) := fun p out => by
  cases p <;> simp_all
theorem State.complete_outside (s : State) (i : Fin 8) (tag op : Half) (st r0 r1 r2 r3 dt : Nat) :
    s.Outside [.mbx, .pins, .port] (s.complete i tag op st r0 r1 r2 r3 dt) := fun p out => by
  cases p <;> simp_all
theorem State.completeJob_outside (s : State) (j : Job) (st r0 r1 r2 r3 dt : Nat) :
    s.Outside [.fw, .mbx, .pins, .port] (s.completeJob j st r0 r1 r2 r3 dt) := fun p out => by
  cases p <;> simp_all
theorem State.reply_outside (s : State) (c : SubEntry) (st r0 r1 r2 r3 : Nat) :
    s.Outside [.mbx, .pins, .port] (s.reply c st r0 r1 r2 r3) := fun p out => by
  cases p <;> simp_all
theorem State.replyOk_outside (s : State) (c : SubEntry) : s.Outside [.mbx, .pins, .port] (s.replyOk c) := fun p out => by
  cases p <;> simp_all
theorem State.replyErr_outside (s : State) (c : SubEntry) (st : Nat) :
    s.Outside [.mbx, .pins, .port] (s.replyErr c st) := fun p out => by
  cases p <;> simp_all
theorem State.windowWrite_outside (s : State) (i : Fin 8) (off : Nat) (bs : List Byte) :
    s.Outside [.mem] (s.windowWrite i off bs) := fun p out => by
  cases p <;> simp_all
theorem State.bulkOut_outside (s : State) (c : SubEntry) (off : Nat) (bs : List Byte) :
    s.Outside [.mem] (s.bulkOut c off bs) := fun p out => by
  cases p <;> simp_all
theorem State.replyOut_outside (s : State) (c : SubEntry) (bs : List Byte) (r0 r1 r2 r3 : Nat) :
    s.Outside [.mem, .mbx, .pins, .port] (s.replyOut c bs r0 r1 r2 r3) := fun p out => by
  cases p <;> simp_all
theorem State.replyList_outside (s : State) (c : SubEntry) (size : Nat) (l : List (List Byte)) :
    s.Outside [.mem, .mbx, .pins, .port] (s.replyList c size l) := fun p out => by
  cases p <;> simp_all
theorem State.addJob_outside (s : State) (c : SubEntry) (k : JobKind) : s.Outside [.fw] (s.addJob c k) := fun p out => by
  cases p <;> simp_all

end Sys2Proof.Machine
end

section
set_option Elab.async false
/-!
PROOFS. The mailbox commands that answer at once (R356 to R358): a completion as R337 posts it, and the words, bytes and lists that
each command returns.
-/
namespace Sys2Proof.Machine

/-! ## Pins, interrupts and completions -/

/-- A level of a pin changes the pins and nothing else. -/
theorem State.setPin_eq (s : State) (n : PinName) (v : Bool) : s.setPin n v = { s with pins := (s.setPin n v).pins } := by
  unfold State.setPin
  split <;> rfl

@[simp] theorem State.raiseIrq_port (s : State) (b : Word) :
    (s.raiseIrq b).port = { s.port with irqStatus := s.port.irqStatus ||| b } := by
  simp [State.raiseIrq]

/-- An interrupt raised changes `IRQ_STATUS` and the pins. -/
theorem State.raiseIrq_eq (s : State) (b : Word) : s.raiseIrq b =
    { s with port := { s.port with irqStatus := s.port.irqStatus ||| b }, pins := (s.raiseIrq b).pins } :=
  State.setPin_eq _ _ _

/-- `HOST_IRQ_N` is low while an unmasked cause is set (R338). -/
@[simp] theorem State.raiseIrq_hostIrqN (s : State) (b : Word) :
    (s.raiseIrq b).pins.hostIrqN = decide ((s.port.irqStatus ||| b) &&& s.port.irqMask = 0) :=
  State.setPin_level _ .hostIrqN _

@[simp] theorem State.sameBeside_refl (s : State) : s.sameBeside s := rfl

/-- A completion moves the mailboxes, the pins and the port alone. -/
theorem State.postCompletion_sameBeside (s : State) (i : Fin 8) (c : Completion) : s.sameBeside (s.postCompletion i c) := by
  unfold State.sameBeside
  apply State.ext <;> simp

/-- A completion leaves the other mailboxes alone. -/
theorem State.postCompletion_mbx_ne (s : State) {i j : Fin 8} (c : Completion) (other : j ≠ i) :
    (s.postCompletion i c).mbx[j] = s.mbx[j] := by
  unfold State.postCompletion
  dsimp only
  split
  · rfl
  · split
    · simp only [State.raiseIrq_mbx, State.updMbx_mbx_ne _ _ _ _ other]
    · exact State.updMbx_mbx_ne _ _ _ _ other

/-- A completion without room, or behind held ones, is held (R337). -/
theorem State.postCompletion_of_full {s : State} {i : Fin 8} (c : Completion) (opened : s.mbx[i].state = .opened)
    (full : ¬ (s.mbx[i].held = [] ∧ s.mbx[i].cqCount < 255)) :
    s.postCompletion i c = s.updMbx i fun m => { m with held := m.held ++ [c] } := by
  unfold State.postCompletion
  dsimp only
  rw [if_neg (fun h => h opened), if_neg full]

/-- A mailbox that is not OPEN takes no completion (R341). -/
theorem State.postCompletion_of_closed {s : State} {i : Fin 8} (c : Completion) (closed : s.mbx[i].state ≠ .opened) :
    s.postCompletion i c = s := by
  unfold State.postCompletion
  exact if_pos closed

/-- The row of a mailbox command carries out an accepted one. -/
theorem exec_of_accepts {i : Instr} {s : State} {op : Nat} {e : Entry} (act : SubEntry → State → State)
    (row : exec i s = .next (s.serve op e act)) (h : s.Accepts op e) : exec i s = .next (act (asSub op e) s) := by
  rw [row, State.serve_of_accepts h]

/-! ## The words of the status commands -/

theorem State.keyStatus_of_ns {s : State} {c : SubEntry} {n : Fin 5} (ns : s.nsOf c = some n) :
    State.keyStatus c s = s.reply c stOk s.sec.keys[n].epoch (s.oldPages n) 0 0 := by
  simp [State.keyStatus, ns]

theorem State.placeStatus_of_index {s : State} {c : SubEntry} {ix : PsIndex} (found : s.indexFor c (c.p 0 4) true = .ok ix) :
    State.placeStatus c s = s.reply c stOk (ix.epoch % 2 ^ 32) ix.dramCount ix.flash.length ix.queue.length := by
  simp [State.placeStatus, found]

theorem State.objStatus_of_obj {s : State} {c : SubEntry} {o : Obj} (found : s.objFor c = .ok o) :
    State.objStatus c s = s.reply c stOk
      (handleType o.handle + 256 * b2n o.backed + 65536 * b2n o.mirror + 2 ^ 24 * (b2n o.poisoned + 2 * b2n o.evictPending))
      o.resident.length o.pins.length o.charged := by
  simp [State.objStatus, found, b2n]

/-! ## The bytes of the output commands -/

theorem State.partStatus_of_partition {s : State} {c : SubEntry} {p : Fin 4} (named : c.p 0 1 = p.val)
    (allowed : s.partOf c = 0 ∨ s.partOf c = p) :
    State.partStatus c s = s.replyOut c (s.sec.grants[p].bytes p.val) 0 0 0 0 := by
  simp [State.partStatus, named, allowed]

theorem State.trackRead_of_stored {s : State} {c : SubEntry} {x : List Byte} (found : s.stored (c.p 0 4) = some x)
    (own : ctxOwner x = (s.partOf c).val) : State.trackRead c s = s.replyOut c x 0 0 0 0 := by
  simp [State.trackRead, found, own]

theorem State.modelInfo_of_model {s : State} {c : SubEntry} {o : Obj} (found : s.usableObj c = .ok o)
    (model : isModelType (handleType o.handle) = true) :
    State.modelInfo c s = s.replyOut c (sha384 o.bytes ++ natLe 8 o.size ++ natLe 1 (handleType o.handle) ++ natLe 1 (b2n o.backed)
      ++ List.replicate 6 0) 0 0 0 0 := by
  simp [State.modelInfo, found, model, b2n]

theorem State.recRead_of_ring {s : State} {c : SubEntry} (live : c.p 0 1 = 0) :
    State.recRead c s = s.replyOut c (ringBytes s.evr.ring) s.evr.head.toNat 0 0 0 := by
  simp [State.recRead, live]

theorem State.recRead_of_archive {s : State} {c : SubEntry} {n : Nat} {a : ArchivedRing} (named : c.p 0 1 = n + 1)
    (kept : s.evr.archive[n]? = some a) :
    State.recRead c s = s.replyOut c (ringBytes a.ring) a.head.toNat 0 0 0 := by
  simp [State.recRead, named, kept]

theorem State.diagReadBlock_of_block {s : State} {c : SubEntry} (block : (blockOf (c.p 0 1)).isSome = true)
    (room : 4096 ≤ c.entry.bulkLength.toNat) :
    State.diagReadBlock c s =
      State.replyOut (State.readSlot (c.p 0 1) 1024 0 s).2 c (State.readSlot (c.p 0 1) 1024 0 s).1 0 0 0 0 := by
  have some : (blockOf (c.p 0 1)).isNone = false := by
    rw [← Option.not_isSome, block]
    rfl
  simp [State.diagReadBlock, some, Nat.not_lt.mpr room]

/-- An output that fits stands in the caller's window, and the command completes (R346). -/
theorem State.replyOut_of_room {s : State} {c : SubEntry} {bs : List Byte} (room : bs.length ≤ c.entry.bulkLength.toNat)
    (r0 r1 r2 r3 : Nat) : s.replyOut c bs r0 r1 r2 r3 = (s.bulkOut c 0 bs).reply c stOk r0 r1 r2 r3 :=
  if_neg (Nat.not_lt.mpr room)

/-- The window of a mailbox is mapped where a command with a bulk range is accepted (R347). -/
theorem State.Accepts.bulkMapped {s : State} {op : Nat} {e : Entry} (h : s.Accepts op e) (len : 0 < e.bulkLength.toNat) :
    s.mbx[e.mbx].bulkMapped = true := by
  obtain ⟨-, -, -, -, check⟩ := h
  have positive : e.bulkLength ≠ 0 := fun zero => by simp [zero] at len
  refine Decidable.byContradiction fun unmapped => ?_
  revert check
  unfold State.acceptCheck
  dsimp only [asSub]
  repeat' split
  all_goals simp_all

theorem State.setPin_mem_comm (s : State) (m : List Host.Cell) (n : PinName) (v : Bool) :
    ({ s with mem := m } : State).setPin n v = { s.setPin n v with mem := m } := by
  unfold State.setPin
  by_cases same : s.pins.level n = v <;> simp [same]

theorem State.raiseIrq_mem_comm (s : State) (m : List Host.Cell) (b : Word) :
    ({ s with mem := m } : State).raiseIrq b = { s.raiseIrq b with mem := m } :=
  State.setPin_mem_comm { s with port := { s.port with irqStatus := s.port.irqStatus ||| b } } m _ _

/-- A completion neither reads nor writes the device's memory. -/
theorem State.postCompletion_mem_comm (s : State) (m : List Host.Cell) (i : Fin 8) (x : Completion) :
    ({ s with mem := m } : State).postCompletion i x = { s.postCompletion i x with mem := m } := by
  unfold State.postCompletion
  dsimp only
  split
  · rfl
  · split
    · exact State.raiseIrq_mem_comm (s.updMbx i fun m => m.cqPut x) m _
    · rfl

theorem State.reply_mem_comm (s : State) (c : SubEntry) (m : List Host.Cell) (st r0 r1 r2 r3 : Nat) :
    ({ s with mem := m } : State).reply c st r0 r1 r2 r3 = { s.reply c st r0 r1 r2 r3 with mem := m } :=
  State.postCompletion_mem_comm s m _ _

/-- An output that fits stands in the mapped window of the caller, and beside it the command has only completed (R346). -/
theorem State.replyOut_spec {s : State} {c : SubEntry} {bs : List Byte} (room : bs.length ≤ c.entry.bulkLength.toNat)
    (mapped : s.mbx[c.entry.mbx].bulkMapped = true) (wf : memWf s.mem = true) (r0 r1 r2 r3 : Nat) :
    memReadN (s.replyOut c bs r0 r1 r2 r3).mem (s.mbx[c.entry.mbx].bulkBase + c.entry.bulkOffset.toNat) bs.length = bs
      ∧ (∀ a, a < s.mbx[c.entry.mbx].bulkBase + c.entry.bulkOffset.toNat
            ∨ s.mbx[c.entry.mbx].bulkBase + c.entry.bulkOffset.toNat + bs.length ≤ a →
          memRead (s.replyOut c bs r0 r1 r2 r3).mem a = memRead s.mem a)
      ∧ { s.replyOut c bs r0 r1 r2 r3 with mem := s.mem } = s.reply c stOk r0 r1 r2 r3 := by
  have answer : s.replyOut c bs r0 r1 r2 r3 = { s.reply c stOk r0 r1 r2 r3 with
      mem := memWriteN s.mem (s.mbx[c.entry.mbx].bulkBase + c.entry.bulkOffset.toNat) bs } := by
    rw [State.replyOut_of_room room, State.bulkOut, State.windowWrite, if_pos mapped, State.reply_mem_comm]
    rfl
  rw [answer]
  refine ⟨memReadN_memWriteN _ _ wf, fun a out => memRead_memWriteN_outside _ a _ wf out, ?_⟩
  apply State.ext <;> simp

/-! ## Lists -/

/-- A list command shows as many whole entries as fit, and counts both (R346). -/
theorem State.replyList_eq (s : State) (c : SubEntry) (size : Nat) (l : List (List Byte)) :
    s.replyList c size l = (s.bulkOut c 0 ((l.take (c.entry.bulkLength.toNat / size)).flatMap id)).reply c stOk
      (min (c.entry.bulkLength.toNat / size) l.length) l.length 0 0 := by
  simp [State.replyList, List.length_take]

end Sys2Proof.Machine

open Sys2Proof Sys2Proof.Machine

/-- Settles O1: the step takes the head of the queue by its definition. -/
theorem stepRunsFront : Obligations.StepRunsFront := by
  refine ⟨fun s c => rfl, fun s idle => ?_⟩
  unfold step
  rw [idle]

/-- Settles O60: every memory of `State.reset` is the empty list. -/
theorem resetMemoriesAreCanonical : Obligations.ResetMemoriesAreCanonical := by
  refine ⟨rfl, fun i => ?_, fun i => ?_⟩
  · simp [State.reset, memWf_nil]
  · have empty : State.reset.mbx[i] = Mbx.reset := by simp [State.reset]
    rw [empty]
    exact ⟨rfl, rfl⟩

/-- Settles O6: `State.reply` posts one completion, and each case of the mailbox's state has its own lemma. -/
theorem completionWrittenOrHeld : Obligations.CompletionWrittenOrHeld := by
  intro s c st r0 r1 r2 r3
  refine ⟨s.postCompletion_sameBeside _ _, fun j other => s.postCompletion_mbx_ne _ other, fun opened free room => ?_,
    fun opened full => ?_, fun closed => State.postCompletion_of_closed _ closed⟩
  · simp only [State.reply, State.complete, State.postCompletion_of_room opened free room, State.raiseIrq_mbx,
      State.updMbx_mbx_self, State.raiseIrq_port, State.raiseIrq_hostIrqN]
    exact ⟨rfl, rfl, trivial⟩
  · simp only [State.reply, State.complete, State.postCompletion_of_full _ opened full, State.updMbx_mbx_self]
    exact ⟨rfl, rfl, rfl⟩

/-- Settles O2: SYS_NOP replies OK, and a reply with room in the ring puts its completion at the tail. -/
theorem nopWritesItsCompletion : Obligations.NopWritesItsCompletion := by
  intro s e accepted free room wf
  have opened : s.mbx[e.mbx].state = .opened := by
    have takes := accepted.1
    simp only [State.takes, Bool.and_eq_true, decide_eq_true_eq] at takes
    exact takes.1
  obtain ⟨beside, others, written, -, -⟩ := completionWrittenOrHeld s (asSub 0x0100 e) stOk 0 0 0 0
  obtain ⟨ring, port, pin⟩ := written opened free room
  refine ⟨s.replyOk (asSub 0x0100 e), exec_of_accepts (fun c s => s.replyOk c) rfl accepted, ?_, ?_, congrArg Port.irqStatus port, pin,
    fun a out => ?_, others, beside⟩
  · have bytes := memReadN_memWriteN (32 * s.mbx[e.mbx].cqTail.toNat) (completionOf 0x0100 e 0 0 0 0 0 s.dtNs).bytes wf
    rw [Completion.bytes_length] at bytes
    exact (congrArg (fun m : Mbx => memReadN m.cq _ 32) ring).trans bytes
  · exact congrArg Mbx.cqTail ring
  · have rest := memRead_memWriteN_outside (32 * s.mbx[e.mbx].cqTail.toNat) a (completionOf 0x0100 e 0 0 0 0 0 s.dtNs).bytes wf
      (by rwa [Completion.bytes_length])
    exact (congrArg (fun m : Mbx => memRead m.cq a) ring).trans rest

/-- Settles O3: each status command replies once, with the words of its row. -/
theorem statusCommandsAnswer : Obligations.StatusCommandsAnswer := by
  intro s e
  refine ⟨exec_of_accepts State.sysStatus rfl, exec_of_accepts State.pwrStatus rfl, exec_of_accepts State.mapStatus rfl,
    exec_of_accepts State.fwStatus rfl, fun n accepted ns => ?key, fun ix accepted found => ?place, fun o accepted found => ?obj⟩
  case key => rw [exec_of_accepts State.keyStatus rfl accepted, State.keyStatus_of_ns ns]
  case place => rw [exec_of_accepts State.placeStatus rfl accepted, State.placeStatus_of_index found]
  case obj => rw [exec_of_accepts State.objStatus rfl accepted, State.objStatus_of_obj found]

/-- Settles O4: each command replies with the output of its row, and the bytes of an output that fits stand in the window. -/
theorem outputCommandsAnswer : Obligations.OutputCommandsAnswer := by
  refine ⟨fun s e => ⟨fun p accepted named allowed => ?part, exec_of_accepts State.attestCerts rfl, exec_of_accepts State.poseGet rfl,
    exec_of_accepts State.timeGet rfl, fun x accepted found own => ?track, fun o accepted found model => ?model,
    fun accepted live => ?ring, fun n a accepted named kept => ?archive, fun accepted block room => ?block⟩,
    fun s e accepted room wf => ?echo⟩
  case part => rw [exec_of_accepts State.partStatus rfl accepted, State.partStatus_of_partition named allowed]
  case track => rw [exec_of_accepts State.trackRead rfl accepted, State.trackRead_of_stored found own]
  case model => rw [exec_of_accepts State.modelInfo rfl accepted, State.modelInfo_of_model found model]
  case ring => rw [exec_of_accepts State.recRead rfl accepted, State.recRead_of_ring live]
  case archive => rw [exec_of_accepts State.recRead rfl accepted, State.recRead_of_archive named kept]
  case block => rw [exec_of_accepts State.diagReadBlock rfl accepted, State.diagReadBlock_of_block block room]
  case echo =>
    have length : ((asSub 0x1201 e).bytes 0 240).length = 240 := by simp [SubEntry.bytes]
    obtain ⟨back, rest, beside⟩ := State.replyOut_spec (c := asSub 0x1201 e) (Nat.le_trans (Nat.le_of_eq length) room) (accepted.bulkMapped (by omega)) wf
      0 0 0 0
    rw [length] at back rest
    exact ⟨_, exec_of_accepts (fun c s => s.replyOut c (c.bytes 0 240) 0 0 0 0) rfl accepted, back, rest, beside⟩

/-- Settles O5: each list command is a `State.replyList` of its entries, or the fixed rows of the image slots. -/
theorem listCommandsAnswer : Obligations.ListCommandsAnswer := by
  intro s e
  refine ⟨exec_of_accepts State.trackList rfl, exec_of_accepts State.sceneInRegion rfl, fun accepted => ?_,
    fun l _ c => s.replyList_eq c 4 l⟩
  refine ⟨State.schedStatus (asSub 0x0206 e) s, exec_of_accepts State.schedStatus rfl accepted, ?_⟩
  have packed : (List.finRange 4).foldl (fun n p => n + 2 ^ (8 * p.val) * s.runningByte p) 0 =
      s.runningByte 0 + 2 ^ 8 * s.runningByte 1 + 2 ^ 16 * s.runningByte 2 + 2 ^ 24 * s.runningByte 3 := by
    change 0 + 1 * s.runningByte 0 + 2 ^ 8 * s.runningByte 1 + 2 ^ 16 * s.runningByte 2 + 2 ^ 24 * s.runningByte 3 = _
    rw [Nat.zero_add, Nat.one_mul]
  rw [← packed]
  rfl
end

section
set_option Elab.async false
/-!
PROOFS. The acceptance checks of R347, in their order.
-/
namespace Sys2Proof.Machine

/-! ## Each check of R347, where the checks before it pass -/

section
variable {s : State} {c : SubEntry} {f : CmdForm}

theorem State.acceptCheck_of_form (form : cmdForm c.opcode.toNat = some f) : s.acceptCheck c =
    if c.entry.partition.toNat ≠ s.mbx[c.entry.mbx].partition.val then some (errPartition, 4)
    else if f.p0 = true ∧ s.mbx[c.entry.mbx].partition ≠ 0 then some (errPartition, 0)
    else if s.serves c.entry.mbx c.opcode = false then some (errState, noField)
    else if 0xFEFF < c.entry.tag.toNat ∨ c.entry.tag ∈ s.accepted c.entry.mbx then some (errArg, 2)
    else if c.entry.flags.toNat / 2 ≠ 0 then some (errArg, 5)
    else if c.entry.reserved ≠ 0 then some (errArg, 6)
    else
      match f.badByte c.opcode.toNat c.entry.payload with
      | some off => some (errArg, off)
      | none =>
        if c.entry.bulkOffset.toNat % 64 ≠ 0 ∨ bulkSize < c.entry.bulkOffset.toNat then some (errArg, 8)
        else if bulkSize - c.entry.bulkOffset.toNat < c.entry.bulkLength.toNat
            ∨ (c.entry.bulkLength ≠ 0 ∧ s.mbx[c.entry.mbx].bulkMapped = false) then some (errArg, 12)
        else none := by
  simp only [State.acceptCheck, form, Bool.not_eq_true'] <;> rfl

end

/-- An entry that fails a check completes with the status and the field's offset, and is not carried out. -/
theorem State.serve_of_refused {s : State} {op : Nat} {e : Entry} (takes : s.takes e.mbx = true) (idle : s.fw.queue = [])
    (few : s.inFlight e.mbx < 64) (next : s.orderedWaits e = false) {st off : Nat}
    (refused : s.acceptCheck (asSub op e) = some (st, off)) (act : SubEntry → State → State) :
    s.serve op e act = s.reply (asSub op e) st 0 0 0 off := by
  have room : ¬ 64 ≤ s.inFlight e.mbx := by omega
  simp only [State.serve, takes, State.skipUndefined_of_empty idle, State.nextEntry_of_empty idle, Bool.not_true]
  simp [room, next, idle, State.accept, refused]

end Sys2Proof.Machine

open Sys2Proof Sys2Proof.Machine

/-- Settles O19: with the checks before it passed, each test of `State.acceptCheck` decides. -/
theorem checksComeInOrder : Obligations.ChecksComeInOrder := by
  refine ⟨fun s c f => ⟨fun undefined => by simp [State.acceptCheck, undefined, errOpcode], fun form => ?_⟩,
    fun s op e act st off takes idle few next refused => State.serve_of_refused takes idle few next refused act⟩
  rw [State.acceptCheck_of_form form]
  refine ⟨fun otherPart => if_pos otherPart, fun part zero other => ?_, fun part zero => ?_⟩
  · rw [if_neg (Classical.not_not.mpr part), if_pos ⟨zero, other⟩]
    rfl
  have allowed : ¬ (f.p0 = true ∧ s.mbx[c.entry.mbx].partition ≠ 0) := fun h => h.2 (zero h.1)
  rw [if_neg (Classical.not_not.mpr part), if_neg allowed]
  refine ⟨fun busy => by rw [if_pos busy]; rfl, fun serves => ?_⟩
  rw [if_neg (by simp [serves])]
  refine ⟨fun badTag => by rw [if_pos badTag]; rfl, fun tag fresh => ?_⟩
  rw [if_neg (fun h => h.elim (by omega) fresh)]
  refine ⟨fun flags => by rw [if_pos (by omega)]; rfl, fun flags reserved => ?_, fun off flags reserved bad => ?_,
    fun flags reserved good => ?_⟩
  · rw [if_neg (by omega), if_pos reserved]
    rfl
  · rw [if_neg (by omega), if_neg (Classical.not_not.mpr reserved), bad]
    rfl
  rw [if_neg (by omega), if_neg (Classical.not_not.mpr reserved), good]
  refine ⟨fun offset => if_pos offset, fun aligned inside => ?_⟩
  have offset : ¬ (c.entry.bulkOffset.toNat % 64 ≠ 0 ∨ bulkSize < c.entry.bulkOffset.toNat) := by
    unfold bulkSize
    omega
  dsimp only
  rw [if_neg offset]
  unfold bulkSize
  refine ⟨fun long => if_pos (.inl (by omega)), fun short mapped => if_neg ?_⟩
  rintro (long | ⟨positive, unmapped⟩)
  · omega
  · rcases mapped with zero | mapped
    · exact positive zero
    · exact Bool.false_ne_true (unmapped.symm.trans mapped)
end

section
/-!
PROOFS. Frames of the host port, direct registers and rings (R326 to R338).
-/
namespace Sys2Proof.Machine

/-! ## Refused frames -/

/-- A refused frame counts, sets its bit and raises the port's cause, and moves the port and the pins alone (R332). -/
theorem State.refuseFrame_eq (s : State) (bit : Nat) : s.refuseFrame bit =
    { s with
      pins := (s.refuseFrame bit).pins
      port := { s.port with
        err := s.port.err ||| (1 <<< bit), irqStatus := s.port.irqStatus ||| irqPort
        errCount := if s.port.errCount = 0xFFFF then 0xFFFF else s.port.errCount + 1, readData := [], readCrc := none } } :=
  State.raiseIrq_eq _ _

theorem State.portErr_eq (s : State) (bit : Nat) : s.portErr bit =
    { s with
      pins := (s.portErr bit).pins
      port := { s.port with err := s.port.err ||| (1 <<< bit), irqStatus := s.port.irqStatus ||| irqPort } } :=
  State.raiseIrq_eq _ _

/-! ## Short frames (R327, R340, R393) -/

/-- A bare frame before the port answers has no effect. -/
theorem State.bareFrame_of_down {s : State} (down : s.dev.portUp = false) (op comp : Byte) : s.bareFrame op comp = s := by
  simp [State.bareFrame, down]

/-- A bare frame with the complement of its opcode acts. -/
theorem State.bareFrame_of_up {s : State} (up : s.dev.portUp = true) (op : Byte) : s.bareFrame op (~~~ op) = s.bareAct op := by
  simp [State.bareFrame, up, Port.complementBad]

/-- In 8D-8D-8D a bare frame with a wrong complement is refused; a READ_ID is answered with zeros. -/
theorem State.bareFrame_of_badComplement {s : State} {op comp : Byte} (up : s.dev.portUp = true) (mode : s.port.mode = 1)
    (bad : comp ≠ ~~~ op) : s.bareFrame op comp = { s with
      pins := (s.refuseFrame bitFrame).pins
      port := { (s.refuseFrame bitFrame).port with readData := if op = 0x9F then [0, 0, 0, 0] else [], readCrc := none } } := by
  have refused : s.port.complementBad op comp = true := by simp [Port.complementBad, mode, bad]
  simp only [State.bareFrame, up, refused, Bool.not_true, Bool.false_eq_true, if_false, if_true]
  split
  · rw [State.refuseFrame_eq]
    rfl
  · rw [State.refuseFrame_eq]

/-- In 8D-8D-8D a frame of a bare opcode is a bare frame. -/
theorem State.writeFrame_of_bare {s : State} {f : Frame} (up : s.dev.portUp = true) (mode : s.port.mode = 1)
    (bare : f.opcode ∈ [(0x9F : Byte), 0xAB, 0xF0]) : s.writeFrame f = s.bareFrame f.opcode f.complement := by
  simp only [State.writeFrame, up, Port.ignores, mode, bare]
  simp

/-! ## Bursts of one bulk window -/

theorem mbxRange_self (i : Fin 8) : mbxRange i.val i.val = [i] := by
  decide +revert

section
variable {i : Fin 8} {off n : Nat}

/-- A burst inside the bulk window of one mailbox. -/
theorem regionOf_window (pos : 0 < n) (inside : off + n ≤ 0x200000) :
    regionOf (0x1000000 + 0x200000 * i.val + off) n = some (.bulk i.val i.val) := by
  have lo : (0x1000000 + 0x200000 * i.val + off - 0x1000000) / 0x200000 = i.val := by omega
  have hi : (0x1000000 + 0x200000 * i.val + off + n - 1 - 0x1000000) / 0x200000 = i.val := by
    have last : 0x1000000 + 0x200000 * i.val + off + n - 1 - 0x1000000 = 0x200000 * i.val + (off + n - 1) := by omega
    rw [last]
    omega
  have small : i.val < 8 := i.isLt
  unfold regionOf
  dsimp only
  have notDirect : ¬ 0x1000000 + 0x200000 * i.val + off + n - 1 < 0x1000 := by omega
  have notRecorder : ¬ (0x10000 ≤ 0x1000000 + 0x200000 * i.val + off ∧ 0x1000000 + 0x200000 * i.val + off + n - 1 < 0x20000) := by omega
  have notSq : ¬ (0x20000 ≤ 0x1000000 + 0x200000 * i.val + off ∧ 0x1000000 + 0x200000 * i.val + off + n - 1 < 0x40000) := by omega
  have notCq : ¬ (0x40000 ≤ 0x1000000 + 0x200000 * i.val + off ∧ 0x1000000 + 0x200000 * i.val + off + n - 1 < 0x50000) := by omega
  have bulk : 0x1000000 ≤ 0x1000000 + 0x200000 * i.val + off ∧ 0x1000000 + 0x200000 * i.val + off + n - 1 < 0x2000000 := by omega
  rw [if_neg notDirect, if_neg notRecorder, if_neg notSq, if_neg notCq, if_pos bulk, lo, hi]

/-- Its part in the window is the whole of it. -/
theorem burstPart_window (data : List Byte) (inside : off + data.length ≤ 0x200000) :
    burstPart (0x1000000 + 0x200000 * i.val) 0x200000 (0x1000000 + 0x200000 * i.val + off) data = (off, data) := by
  have lo : max (0x1000000 + 0x200000 * i.val + off) (0x1000000 + 0x200000 * i.val) = 0x1000000 + 0x200000 * i.val + off := by omega
  have hi : min (0x1000000 + 0x200000 * i.val + off + data.length) (0x1000000 + 0x200000 * i.val + 0x200000) =
      0x1000000 + 0x200000 * i.val + off + data.length := by omega
  simp only [burstPart, lo, hi, Nat.sub_self, List.drop_zero, Nat.add_sub_cancel_left, List.take_length]

end

/-- A well-formed burst in 8D-8D-8D: a whole number of words at an aligned address, the complement right. -/
structure FrameSound (f : Frame) (p : Port) (op : Byte) (i : Fin 8) (off n : Nat) : Prop where
  mode : p.mode = 1
  opcode : f.opcode = op
  complement : f.complement = ~~~ op
  len : f.len >>> 12 = 0
  size : (f.len &&& 0x0FFF).toNat + 1 = n
  words : n % 4 = 0
  aligned : off % 4 = 0
  addr : f.addr.toNat = 0x1000000 + 0x200000 * i.val + off
  inside : off + n ≤ 0x200000
  data : n ≤ f.data.length

section
variable {s : State} {f : Frame} {opcode : Byte} {i : Fin 8} {off n : Nat}

theorem FrameSound.pos (h : FrameSound f s.port opcode i off n) : 0 < n := h.size ▸ Nat.succ_pos _

theorem FrameSound.burst (h : FrameSound f s.port opcode i off n) : s.port.burst f = n := by
  rw [← h.size]
  exact if_pos h.mode

theorem FrameSound.region (h : FrameSound f s.port opcode i off n) :
    regionOf f.addr.toNat n = some (.bulk i.val i.val) := by
  rw [h.addr]
  exact regionOf_window h.pos h.inside

theorem FrameSound.headerGood (h : FrameSound f s.port opcode i off n) : s.port.headerBad f opcode = false := by
  have addr : f.addr.toNat % 4 = 0 := by
    have := h.aligned
    rw [h.addr]
    omega
  have small := h.inside
  simp only [Port.headerBad, Port.complementBad, h.burst, h.region, h.opcode, h.complement, h.len, h.words, h.mode, addr]
  simp

/-- A WRITE of one window, its CRC right or off, is the host's write of its bytes. -/
theorem State.writeFrame_of_sound (up : s.dev.portUp = true) (h : FrameSound f s.port 0x02 i off n)
    (crc : s.port.crcEn = true → crc16 (frameHead f ++ f.data.take n) = f.crc) :
    s.writeFrame f = s.hostWrite f.addr.toNat (f.data.take n) := by
  have bare : ¬ f.opcode ∈ [(0x9F : Byte), 0xAB, 0xF0] := by simp [h.opcode]
  have short : ¬ f.data.length < n := Nat.not_lt.mpr h.data
  have some : n ≠ 0 := Nat.ne_of_gt h.pos
  have good : ¬ (s.port.crcEn = true ∧ crc16 (frameHead f ++ f.data.take n) ≠ f.crc) :=
    fun bad => bad.2 (crc bad.1)
  simp only [State.writeFrame, up, bare, h.headerGood, h.burst, short, Port.ignores, h.mode, true_and, good, some]
  simp

/-- A WRITE whose CRC is wrong is refused (R331). -/
theorem State.writeFrame_of_badCrc (up : s.dev.portUp = true) (h : FrameSound f s.port 0x02 i off n) (on : s.port.crcEn = true)
    (crc : crc16 (frameHead f ++ f.data.take n) ≠ f.crc) : s.writeFrame f = s.refuseFrame bitCrc := by
  have bare : ¬ f.opcode ∈ [(0x9F : Byte), 0xAB, 0xF0] := by simp [h.opcode]
  have short : ¬ f.data.length < n := Nat.not_lt.mpr h.data
  simp only [State.writeFrame, up, bare, h.headerGood, h.burst, short, Port.ignores, h.mode, on, Nat.ne_of_gt h.pos]
  simp [crc]

theorem FrameSound.takeLength (h : FrameSound f s.port opcode i off n) :
    (f.data.take n).length = n :=
  List.length_take_of_le h.data

theorem State.writeRefusal_window (h : FrameSound f s.port opcode i off n) :
    s.writeRefusal f.addr.toNat (f.data.take n) = if s.windowOpen i then none else some bitUnmapped := by
  simp only [State.writeRefusal, h.takeLength, h.region, mbxRange_self, List.all_cons, List.all_nil, Bool.and_true]

/-- A burst that is applied lies in the window's place in memory (R333). -/
theorem State.applyWrite_window (h : FrameSound f s.port opcode i off n) (mapped : s.mbx[i].bulkMapped = true) :
    s.applyWrite f.addr.toNat (f.data.take n) =
      { s with mem := memWriteN s.mem (s.mbx[i].bulkBase + off) (f.data.take n) } := by
  have part := burstPart_window (i := i) (off := off) (f.data.take n) (by rw [h.takeLength]; exact h.inside)
  have region := h.region
  rw [h.addr] at region ⊢
  simp only [State.applyWrite, h.takeLength, region, mbxRange_self, List.foldl_cons, List.foldl_nil, part, State.windowWrite, mapped,
    if_true]

theorem State.windowOpen_iff (s : State) (i : Fin 8) : s.windowOpen i = true ↔ s.mbx[i].bulkMapped = true ∧ s.ringsServed = true := by
  simp [State.windowOpen]

theorem FrameSound.driven (h : FrameSound f s.port opcode i off n) : s.port.driven f = n := by
  rw [Port.driven, h.burst]
  exact Nat.min_eq_left h.data

/-- A READ of an open window drives what the window holds, or zeros where the bytes were not staged in time (R331, R333). -/
theorem State.readFrame_of_sound (up : s.dev.portUp = true) (h : FrameSound f s.port 0x0B i off n) (opened : s.windowOpen i = true)
    (staged : Bool) : s.readFrame f staged =
      if staged then s.driveRead f (memReadN s.mem (s.mbx[i].bulkBase + off) n)
      else (s.portErr bitTimeout).driveRead f (List.replicate n 0) := by
  have region := h.region
  have mapped := ((s.windowOpen_iff i).mp opened).1
  have allowed : s.readRefusal f.addr.toNat n = none := by
    simp [State.readRefusal, region, mbxRange_self, opened]
  have far : 0x1000000 ≤ f.addr.toNat := by
    rw [h.addr]
    omega
  have whole : n / 4 * 4 = n := by
    have := h.words
    omega
  have read : s.readPart f.addr.toNat n =
      (memReadN s.mem (s.mbx[i].bulkBase + off) n, s) := by
    have part := burstPart_window (i := i) (off := off) (List.replicate n 0) (by simpa using h.inside)
    rw [h.addr] at region ⊢
    simp only [State.readPart, whole, h.words, if_true, State.readBurst, region, mbxRange_self, List.flatMap_cons, List.flatMap_nil,
      List.append_nil, part, List.length_replicate, State.windowRead, mapped]
  have ended : ∀ (t : State) bs, t.port.mode = s.port.mode → (t.driveRead f bs).endRead f = t.driveRead f bs := by
    intro t bs mode
    refine if_neg (Nat.not_lt.mpr ?_)
    simp only [Port.driven, Port.burst, State.driveRead, mode, h.mode, if_true, h.size]
    exact Nat.le_min.mpr ⟨Nat.le_refl _, h.data⟩
  have late : (s.portErr bitTimeout).port.mode = s.port.mode := by rw [State.portErr_eq]
  simp only [State.readFrame, up, h.headerGood, h.burst, h.driven, Port.ignores, h.mode, allowed, far, true_and, read, Nat.ne_of_gt h.pos]
  cases staged <;> simp [ended _ _ rfl, ended _ _ late, -Fin.getElem_fin]

end

/-! ## Direct registers -/

theorem ringRegMbx_tail (n : Fin 8) : ringRegMbx (0x100 + 4 * n.val) = some n := by
  decide +revert

theorem ringRegMbx_head (n : Fin 8) : ringRegMbx (0x140 + 4 * n.val) = some n := by
  decide +revert

/-- While the rings are served and the mailbox is OPEN, a write of one of its ring registers is refused only for its value. -/
theorem State.hostRegWrite_of_ring {s : State} {off : Nat} {n : Fin 8} (up : s.dev.portUp = true) (direct : off + 4 ≤ 0x1000)
    (ring : ringRegMbx off = some n) (served : s.ringsServed = true) (opened : s.mbx[n].state = .opened) (v : Word) :
    s.hostRegWrite off v = if s.indexOk off v then s.directWrite off v else s.refuseFrame bitDoorbell := by
  have region : regionOf off 4 = some .direct := if_pos (by omega)
  have touched : ringRegsTouched off 4 = [n] := by simp [ringRegsTouched, ring]
  have allowed : s.ringRefusal [n] true = none := by simp [State.ringRefusal, served, opened, -Fin.getElem_fin]
  have refusal : s.writeRefusal off (natLe 4 v.toNat) = if s.indexOk off v then none else some bitDoorbell := by
    have length : (natLe 4 v.toNat).length = 4 := rfl
    simp [State.writeRefusal, length, region, touched, allowed, wordsAt_natLe]
  have length : (natLe 4 v.toNat).length = 4 := rfl
  rw [State.hostRegWrite, if_pos up, State.hostWrite, refusal]
  split <;> simp_all [State.applyWrite, wordsAt_natLe]

theorem State.not_parked_of_ringsServed {s : State} (served : s.ringsServed = true) :
    (decide (s.dev.phase = .parked) || decide (s.dev.phase = .waking)) = false := by
  unfold State.ringsServed at served
  split at served <;> simp_all

/-- A doorbell moves the tail (R336). -/
theorem State.directWrite_doorbell {s : State} (served : s.ringsServed = true) (n : Fin 8) (v : Word) :
    s.directWrite (0x100 + 4 * n.val) v = s.updMbx n fun m => { m with sqTail := v.setWidth 6 } := by
  have row : (0x100 + 4 * n.val - 0x100) / 0x20 = 0 := by omega
  unfold State.directWrite
  simp only [State.not_parked_of_ringsServed served, ringRegMbx_tail, row]
  rw [if_neg (by omega), if_neg (by omega), if_neg (by omega), if_neg (by omega)]
  rfl

theorem State.directWrite_cqHead {s : State} (served : s.ringsServed = true) (n : Fin 8) (v : Word) :
    s.directWrite (0x140 + 4 * n.val) v = s.setCqHead n (v.setWidth 8) := by
  have row : (0x140 + 4 * n.val - 0x100) / 0x20 = 2 := by omega
  unfold State.directWrite
  simp only [State.not_parked_of_ringsServed served, ringRegMbx_head, row]
  rw [if_neg (by omega), if_neg (by omega), if_neg (by omega), if_neg (by omega)]
  rfl

theorem State.indexOk_doorbell (s : State) (n : Fin 8) (v : Word) :
    s.indexOk (0x100 + 4 * n.val) v = s.mbx[n].doorbellOk (v.setWidth 6) := by
  have row : (0x100 + 4 * n.val - 0x100) / 0x20 = 0 := by omega
  simp only [State.indexOk, ringRegMbx_tail, row]

theorem State.indexOk_cqHead (s : State) (n : Fin 8) (v : Word) :
    s.indexOk (0x140 + 4 * n.val) v = s.mbx[n].cqHeadOk (v.setWidth 8) := by
  have row : (0x140 + 4 * n.val - 0x100) / 0x20 = 2 := by omega
  simp only [State.indexOk, ringRegMbx_head, row]

/-- With nothing held a completion head moves alone. -/
theorem State.setCqHead_of_none {s : State} {n : Fin 8} (none : s.mbx[n].held = []) (v : Byte) :
    s.setCqHead n v = s.updMbx n fun m => { m with cqHead := v } := by
  simp only [State.setCqHead, none, Mbx.drain, if_true]
  simp [State.updMbx, ← none]

/-! ## Completions that were held -/

/-- Draining into room puts every held completion, in order. -/
theorem Mbx.drain_of_room (m : Mbx) (cs : List Completion) (room : m.cqCount + cs.length < 256) :
    m.drain cs = { cs.foldl Mbx.cqPut m with held := [] } := by
  induction cs generalizing m with
  | nil => rfl
  | cons c cs ih =>
    have count : (m.cqPut c).cqCount + cs.length < 256 := by
      simp only [List.length_cons] at room
      have step : (m.cqPut c).cqCount ≤ m.cqCount + 1 := by
        simp only [Mbx.cqCount, Mbx.cqPut]
        bv_omega
      omega
    have free : m.cqCount < 255 := by
      simp only [List.length_cons] at room
      omega
    rw [Mbx.drain, if_pos free, ih _ count, List.foldl_cons]

theorem foldl_cqPut_tail (m : Mbx) (cs : List Completion) : (cs.foldl Mbx.cqPut m).cqTail = m.cqTail + BitVec.ofNat 8 cs.length := by
  induction cs generalizing m with
  | nil => simp
  | cons c cs ih =>
    rw [List.foldl_cons, ih, List.length_cons]
    simp only [Mbx.cqPut]
    bv_omega

/-- Entries put behind a slot leave the slot alone, while they do not come round to it. -/
theorem foldl_cqPut_slot (m : Mbx) (cs : List Completion) (slot : Byte) (wf : memWf m.cq = true)
    (behind : (m.cqTail - slot).toNat + cs.length < 257) (apart : m.cqTail ≠ slot ∨ cs = []) :
    memReadN (cs.foldl Mbx.cqPut m).cq (32 * slot.toNat) 32 = memReadN m.cq (32 * slot.toNat) 32 := by
  induction cs generalizing m with
  | nil => rfl
  | cons c cs ih =>
    have other : m.cqTail ≠ slot := by simpa using apart
    have outside : 32 * slot.toNat + 32 ≤ 32 * m.cqTail.toNat ∨ 32 * m.cqTail.toNat + c.bytes.length ≤ 32 * slot.toNat := by
      have : m.cqTail.toNat ≠ slot.toNat := fun same => other (BitVec.eq_of_toNat_eq same)
      rw [Completion.bytes_length]
      omega
    rw [List.length_cons] at behind
    rw [List.foldl_cons, ih (m.cqPut c) (memWf_memWriteN _ _ wf) ?_ ?_]
    · exact memReadN_memWriteN_outside _ _ _ _ wf outside
    · simp only [Mbx.cqPut]
      bv_omega
    · rw [Classical.or_iff_not_imp_right]
      intro more
      have : 0 < cs.length := List.length_pos_iff.mpr more
      simp only [Mbx.cqPut]
      bv_omega

/-! ## Submission entries -/

theorem State.copyEntries_of_empty {s : State} {i : Fin 8} (n : Nat) (empty : s.mbx[i].sqHead = s.mbx[i].sqTail) :
    State.copyEntries i n s = s := by
  cases n with
  | zero => rfl
  | succ n => exact if_pos (.inl empty)

theorem Mbx.sqHead_of_empty {m : Mbx} (empty : m.sqTail = m.sqHead) : { m with sqHead := m.sqTail } = m := by
  cases m
  cases empty
  rfl

/-- An update that gives a mailbox what it has changes nothing. -/
theorem State.updMbx_of_eq {s : State} {i : Fin 8} {f : Mbx → Mbx} (same : f s.mbx[i] = s.mbx[i]) : s.updMbx i f = s := by
  simp only [State.updMbx, same]
  simp

/-- The state in which a mailbox's head has moved and entries have joined firmware's queue. -/
def State.copied (s : State) (i : Fin 8) (head : BitVec 6) (entries : List SubEntry) : State :=
  ({ s with fw := { s.fw with queue := s.fw.queue ++ entries } } : State).updMbx i fun m => { m with sqHead := head }

/-- The entries of a ring, from a slot on. -/
def Mbx.entriesFrom (m : Mbx) (i : Fin 8) (head : BitVec 6) (n : Nat) : List SubEntry :=
  (List.range n).map fun k => m.entryAt i (head + BitVec.ofNat 6 k).toNat

theorem Mbx.entriesFrom_succ (m : Mbx) (i : Fin 8) (head : BitVec 6) (n : Nat) :
    m.entriesFrom i head (n + 1) = m.entryAt i head.toNat :: m.entriesFrom i (head + 1) n := by
  simp only [Mbx.entriesFrom, List.range_succ_eq_map, List.map_cons, List.map_map]
  congr 1
  · simp
  · refine List.map_congr_left fun k _ => ?_
    have slot : head + BitVec.ofNat 6 (k + 1) = head + 1 + BitVec.ofNat 6 k := by bv_omega
    exact congrArg (fun x : BitVec 6 => m.entryAt i x.toNat) slot

@[simp] theorem State.copied_mbx_self (s : State) (i : Fin 8) (head : BitVec 6) (es : List SubEntry) :
    (s.copied i head es).mbx[i] = { s.mbx[i] with sqHead := head } :=
  State.updMbx_mbx_self _ _ _

theorem State.copied_copied (s : State) (i : Fin 8) (h h' : BitVec 6) (es es' : List SubEntry) :
    (s.copied i h es).copied i h' es' = s.copied i h' (es ++ es') := by
  simp [State.copied, State.updMbx]

/-- A copy moves no accepted command. -/
@[simp] theorem State.copied_accepted (s : State) (i j : Fin 8) (h : BitVec 6) (es : List SubEntry) :
    (s.copied i h es).accepted j = s.accepted j := by
  have held : (s.copied i h es).mbx[j].held = s.mbx[j].held := by
    by_cases same : j = i
    · subst same
      rw [State.copied_mbx_self]
    · exact congrArg Mbx.held (State.updMbx_mbx_ne _ i j _ same)
  simp only [State.accepted, held]
  rfl

theorem State.copied_inFlight (s : State) (i : Fin 8) (h : BitVec 6) (es : List SubEntry) :
    (s.copied i h es).inFlight i ≤ s.inFlight i + es.length := by
  have queue : (s.copied i h es).fw.queue = s.fw.queue ++ es := rfl
  simp only [State.inFlight, State.copied_accepted, queue, List.filter_append, List.length_append]
  have := List.length_filter_le (fun q : SubEntry => decide (q.entry.mbx = i)) es
  omega

/-- Copying takes every pending entry in ring order, as long as fewer than 64 commands are in flight (R336, R348). -/
theorem State.copyEntries_eq (i : Fin 8) (n fuel : Nat) (s : State) (pending : (s.mbx[i].sqTail - s.mbx[i].sqHead).toNat = n)
    (fuelled : n ≤ fuel) (few : s.inFlight i + n ≤ 64) :
    State.copyEntries i fuel s = s.copied i s.mbx[i].sqTail (s.mbx[i].entriesFrom i s.mbx[i].sqHead n) := by
  induction n generalizing fuel s with
  | zero =>
    have same : s.mbx[i].sqTail = s.mbx[i].sqHead := by bv_omega
    rw [State.copyEntries_of_empty _ same.symm]
    have idle : { s with fw := { s.fw with queue := s.fw.queue ++ s.mbx[i].entriesFrom i s.mbx[i].sqHead 0 } } = s := by
      simp [Mbx.entriesFrom]
    rw [State.copied, idle]
    exact (State.updMbx_of_eq (Mbx.sqHead_of_empty same)).symm
  | succ n ih =>
    obtain ⟨fuel, rfl⟩ : ∃ k, fuel = k + 1 := ⟨fuel - 1, by omega⟩
    have more : s.mbx[i].sqHead ≠ s.mbx[i].sqTail := fun same => by
      rw [same, BitVec.sub_self] at pending
      exact absurd pending (by simp)
    have first : (s.enqueue (s.mbx[i].entryAt i s.mbx[i].sqHead.toNat)).updMbx i (fun m => { m with sqHead := m.sqHead + 1 }) =
        s.copied i (s.mbx[i].sqHead + 1) [s.mbx[i].entryAt i s.mbx[i].sqHead.toNat] := by
      simp [State.copied, State.enqueue, State.updMbx]
    have flight := s.copied_inFlight i (s.mbx[i].sqHead + 1) [s.mbx[i].entryAt i s.mbx[i].sqHead.toNat]
    rw [List.length_singleton] at flight
    have carriesOn : ¬ (s.mbx[i].sqHead = s.mbx[i].sqTail ∨ 64 ≤ s.inFlight i) := fun h => h.elim more (by omega)
    rw [State.copyEntries, if_neg carriesOn, first, ih]
    · simp only [State.copied_mbx_self, State.copied_copied, Mbx.entriesFrom_succ]
      rfl
    · rw [State.copied_mbx_self]
      bv_omega
    · omega
    · omega

/-- Where every entry waiting is of a defined opcode nothing is skipped. -/
theorem State.firstReady_mem (s : State) (blocked : List (Fin 8)) (qs : List SubEntry) {q : SubEntry}
    (found : s.firstReady blocked qs = some q) : q ∈ qs := by
  induction qs generalizing blocked with
  | nil => simp [State.firstReady] at found
  | cons x qs ih =>
    unfold State.firstReady at found
    split at found
    · exact List.mem_cons_of_mem _ (ih _ found)
    · split at found
      · exact List.mem_cons_of_mem _ (ih _ found)
      · simp_all

theorem State.skipUndefined_of_defined {s : State} (defined : ∀ q ∈ s.fw.queue, (cmdForm q.opcode.toNat).isSome = true) :
    s.skipUndefined = s := by
  unfold State.skipUndefined
  cases s.fw.queue.length with
  | zero => rfl
  | succ n =>
    unfold State.dropUndefined
    split
    · rfl
    next q found =>
      have some := defined q (State.firstReady_mem _ _ _ found)
      rw [if_neg (by simp [Option.isNone_iff_eq_none, Option.isSome_iff_ne_none.mp some])]

/-- One waiting entry of an undefined opcode, which no earlier command orders behind it, completes at once (R348). -/
theorem State.skipUndefined_of_one {s : State} {q : SubEntry} (queue : s.fw.queue = [q]) (undefined : cmdForm q.opcode.toNat = none)
    (takes : s.takes q.entry.mbx = true) (free : s.orderedWaits q.entry = false) :
    s.skipUndefined = ({ s with fw := { s.fw with queue := [] } } : State).reply q errOpcode 0 0 0 0 := by
  have next : s.nextEntry = some q := by simp [State.nextEntry, queue, State.firstReady, free]
  have rest : s.dequeue q = { s with fw := { s.fw with queue := [] } } := by simp [State.dequeue, queue]
  have accepted : ∀ t : State, t.accept q (fun _ s => s) = t.reply q errOpcode 0 0 0 0 := fun t => by
    simp [State.accept, State.acceptCheck, undefined]
  rw [State.skipUndefined, queue]
  simp [State.dropUndefined, next, undefined, takes, rest, accepted]

end Sys2Proof.Machine

open Sys2Proof Sys2Proof.Machine

/-- Settles O28: a bare frame acts by `State.bareAct`, or is refused for its complement. -/
theorem shortFramesAct : Obligations.ShortFramesAct := by
  intro s
  refine ⟨fun up => ⟨?id, ?reset, fun parked => ?wake, fun awake => ?noWake, fun f good frame mode bad => ?bad⟩,
    fun down => ⟨congrArg _ (State.bareFrame_of_down down _ _), congrArg _ (State.bareFrame_of_down down _ _),
      congrArg _ (State.bareFrame_of_down down _ _), fun f => ⟨?write, fun staged => ?read⟩⟩⟩
  case id => exact congrArg Host.Outcome.next (State.bareFrame_of_up up 0x9F)
  case reset => exact congrArg Host.Outcome.next (State.bareFrame_of_up up 0xF0)
  case wake =>
    refine congrArg Host.Outcome.next ((State.bareFrame_of_up up 0xAB).trans ?_)
    simp [State.bareAct, parked]
  case noWake =>
    refine congrArg Host.Outcome.next ((State.bareFrame_of_up up 0xAB).trans ?_)
    simp [State.bareAct, awake]
  case bad =>
    have bare : f.opcode ∈ [(0x9F : Byte), 0xAB, 0xF0] ∧ good = ~~~ f.opcode ∧ (good = 0x60 → f.opcode = 0x9F) := by
      simp only [List.mem_cons, Prod.mk.injEq, List.not_mem_nil, or_false] at frame
      rcases frame with ⟨op, rfl⟩ | ⟨op, rfl⟩ | ⟨op, rfl⟩ <;> rw [op] <;> decide
    obtain ⟨bare, complement, isId⟩ := bare
    refine ⟨_, congrArg Host.Outcome.next ((State.writeFrame_of_bare up mode bare).trans
      (State.bareFrame_of_badComplement up mode (complement ▸ bad))), ?_⟩
    rw [State.refuseFrame_eq]
    exact ⟨rfl, mode, fun few => if_neg few, rfl, fun id => if_pos (isId id), rfl⟩
  case write =>
    refine congrArg Host.Outcome.next ?_
    simp [State.writeFrame, down]
  case read =>
    refine congrArg Host.Outcome.next ?_
    simp [State.readFrame, down]

/-- Settles O29: a burst of one bulk window is refused, or applied to the window's place in memory; a read drives what is there. -/
theorem framesMoveWindowBytes : Obligations.FramesMoveWindowBytes := by
  refine ⟨?write, ?read⟩
  case write =>
    intro s f i off n up mode op comp len words aligned addr inside data
    have sound : FrameSound f s.port 0x02 i off n := ⟨mode, op, comp, len, rfl, words, aligned, addr, inside, data⟩
    refine ⟨fun crc opened wf => ?_, fun on crc => ?_, fun closed crc => ?_⟩
    · have mapped := ((s.windowOpen_iff i).mp opened).1
      refine ⟨_, congrArg Host.Outcome.next (State.writeFrame_of_sound up sound crc), ?_⟩
      rw [State.hostWrite, State.writeRefusal_window sound, if_pos opened, State.applyWrite_window sound mapped]
      have back := memReadN_memWriteN (s.mbx[i].bulkBase + off) (f.data.take n) wf
      rw [sound.takeLength] at back
      exact ⟨back, fun a out => memRead_memWriteN_outside _ a _ wf (by rwa [sound.takeLength]), rfl⟩
    · refine ⟨_, congrArg Host.Outcome.next (State.writeFrame_of_badCrc up sound on crc), ?_⟩
      rw [State.refuseFrame_eq]
      exact ⟨rfl, rfl, fun few => if_neg few, rfl, rfl⟩
    · refine ⟨_, congrArg Host.Outcome.next (State.writeFrame_of_sound up sound crc), ?_⟩
      rw [State.hostWrite, State.writeRefusal_window sound, if_neg (by simp [closed])]
      dsimp only
      rw [State.refuseFrame_eq]
      exact ⟨rfl, rfl, rfl⟩
  case read =>
    intro s f i off n up mode op comp len words aligned addr inside opened data
    have sound : FrameSound f s.port 0x0B i off n := ⟨mode, op, comp, len, rfl, words, aligned, addr, inside, data⟩
    have whole : s.port.driven f = s.port.burst f := sound.driven.trans sound.burst.symm
    refine ⟨congrArg Host.Outcome.next ((State.readFrame_of_sound up sound opened true).trans ?_),
      _, congrArg Host.Outcome.next (State.readFrame_of_sound up sound opened false), ?_⟩
    · simp [State.driveRead, mode, whole]
    · rw [if_neg Bool.false_ne_true, State.portErr_eq]
      exact ⟨rfl, rfl, rfl, rfl⟩

/-- Settles O31: a ring register's write is refused only for its value, and each one that is applied moves its own index. -/
theorem directRegisterWrites : Obligations.DirectRegisterWrites := by
  intro s up
  refine ⟨fun n v served opened => ?_, fun v => ?_⟩
  · have doorbell := State.hostRegWrite_of_ring up (by omega) (ringRegMbx_tail n) served opened v
    have head := State.hostRegWrite_of_ring up (by omega) (ringRegMbx_head n) served opened v
    rw [State.indexOk_doorbell, Mbx.doorbellOk] at doorbell
    rw [State.indexOk_cqHead, Mbx.cqHeadOk] at head
    refine ⟨fun inRange => congrArg Host.Outcome.next ?_, fun outOfRange => ⟨_, congrArg Host.Outcome.next doorbell, ?_⟩,
      fun inRange none => congrArg Host.Outcome.next ?_⟩
    · rw [doorbell, if_pos (decide_eq_true inRange), State.directWrite_doorbell served]
    · rw [if_neg (by simpa using outOfRange), State.refuseFrame_eq]
      exact ⟨rfl, rfl⟩
    · rw [head, if_pos (decide_eq_true inRange), State.directWrite_cqHead served, State.setCqHead_of_none none]
  · refine ⟨_, congrArg Host.Outcome.next (State.hostRegWrite_of_noRing up (by decide) rfl v), ?_⟩
    have acts : s.directWrite 0x020 v = State.irqPin { s with port := { s.port with irqStatus := s.port.irqStatus &&& ~~~ v } } := rfl
    rw [acts]
    refine ⟨State.irqPin_port _, ?_, ?_⟩
    · rw [State.irqPin_port]
      exact State.setPin_level _ .hostIrqN _
    · rw [State.irqPin, State.setPin_eq]

/-- Settles O32: the copy takes the pending entries by `State.copyEntries_eq`, and a completion head drains what is held. -/
theorem ringsMoveTheirEntries : Obligations.RingsMoveTheirEntries := by
  refine ⟨fun s i => ⟨fun closed => ?closed, fun opened served empty => ?empty, fun opened served idle some few => ?copied,
    fun opened served takes idle one few => ?undefined⟩, fun s n c cs v held room wf => ?drained⟩
  case closed => exact congrArg Host.Outcome.next (if_pos (.inl closed))
  case empty =>
    refine congrArg Host.Outcome.next ?_
    simp [State.copyRing, opened, served, State.copyEntries_of_empty _ empty, -Fin.getElem_fin]
  case copied =>
    intro entries defined
    have copy := State.copyEntries_eq i _ 64 s rfl (by omega) few
    have moved : (s.copied i s.mbx[i].sqTail entries).mbx[i].sqHead ≠ s.mbx[i].sqHead := by
      rw [State.copied_mbx_self]
      exact some
    have quiet := State.skipUndefined_of_defined (s := (s.copied i s.mbx[i].sqTail entries).raiseIrq (irqSqFree i))
      (by simpa [State.copied, idle] using defined)
    have row : s.copyRing i = (s.copied i s.mbx[i].sqTail entries).raiseIrq (irqSqFree i) := by
      rw [← quiet]
      simp only [State.copyRing, opened, served, copy]
      rw [if_neg (by simp)]
      exact congrArg State.skipUndefined (if_neg moved)
    refine ⟨_, congrArg Host.Outcome.next row, ?_, ?_, fun j other => ?_, ?_, ?_, ?_⟩
    · simp [State.copied, idle]
    · simp only [State.raiseIrq_mbx, State.copied_mbx_self]
    · simp only [State.raiseIrq_mbx]
      exact State.updMbx_mbx_ne _ i j _ other
    · rw [State.raiseIrq_port]
      rfl
    · rw [State.raiseIrq_hostIrqN, State.raiseIrq_port]
    · rw [State.raiseIrq_eq]
      rfl
  case undefined =>
    intro q undefined free
    have copy := State.copyEntries_eq i 1 64 s (by rw [one]; bv_omega) (by omega) (by omega)
    have entries : s.mbx[i].entriesFrom i s.mbx[i].sqHead 1 = [q] := by
      rw [Mbx.entriesFrom_succ]
      rfl
    rw [entries] at copy
    have moved : (s.copied i s.mbx[i].sqTail [q]).mbx[i].sqHead ≠ s.mbx[i].sqHead := by
      rw [State.copied_mbx_self, one]
      bv_omega
    let t := (s.copied i s.mbx[i].sqTail [q]).raiseIrq (irqSqFree i)
    have row : s.copyRing i = t.skipUndefined := by
      simp only [State.copyRing, opened, served, copy]
      rw [if_neg (by simp)]
      exact congrArg State.skipUndefined (if_neg moved)
    have queue : t.fw.queue = [q] := by simp [t, State.copied, idle]
    have mailbox : t.mbx[i] = { s.mbx[i] with sqHead := s.mbx[i].sqTail } := by
      simp only [t, State.raiseIrq_mbx, State.copied_mbx_self]
    have accepted : t.accepted i = s.accepted i := by
      rw [← State.copied_accepted s i i s.mbx[i].sqTail [q]]
      simp only [State.accepted, t, State.raiseIrq_mbx, State.raiseIrq_fw]
    have takesStill : t.takes q.entry.mbx = true := by
      have isOpen : t.mbx[i].state = .opened := by rw [mailbox]; exact opened
      have dev : t.dev = s.dev := by simp [t, State.copied]
      simp only [State.takes, dev] at takes ⊢
      rw [opened] at takes
      change (decide (t.mbx[i].state = .opened) && _) = true
      rw [isOpen]
      exact takes
    have freeStill : t.orderedWaits q.entry = false := by
      change (isOrdered q.entry && !(t.accepted i).isEmpty) = false
      rw [accepted]
      exact free
    have served : t.skipUndefined = ({ t with fw := s.fw } : State).reply q errOpcode 0 0 0 0 := by
      rw [State.skipUndefined_of_one queue undefined takesStill freeStill, ← idle]
      simp [t, State.copied]
    refine ⟨{ t with fw := s.fw }, congrArg Host.Outcome.next (row.trans served), rfl, mailbox, ?_⟩
    dsimp only [t]
    rw [State.raiseIrq_eq]
    rfl
  case drained =>
    let m : Mbx := { s.mbx[n] with cqHead := v }
    have count : m.cqCount = (s.mbx[n].cqTail - v).toNat := rfl
    have drained : m.drain (c :: cs) = { (c :: cs).foldl Mbx.cqPut m with held := [] } :=
      Mbx.drain_of_room m (c :: cs) (by rw [count, List.length_cons]; omega)
    have tail := foldl_cqPut_tail m (c :: cs)
    rw [List.length_cons] at tail
    have moved : ((c :: cs).foldl Mbx.cqPut m).cqTail ≠ m.cqTail := by
      rw [tail]
      bv_omega
    have row : s.setCqHead n v = (s.updMbx n fun _ => m.drain (c :: cs)).raiseIrq (irqCq n) := by
      rw [← held]
      refine if_neg ?_
      change ¬ (m.drain m.held).cqTail = m.cqTail
      rw [show m.held = c :: cs from held, drained]
      exact moved
    have ring : memReadN ((c :: cs).foldl Mbx.cqPut m).cq (32 * m.cqTail.toNat) 32 = c.bytes := by
      rw [List.foldl_cons, foldl_cqPut_slot (m.cqPut c) cs m.cqTail (memWf_memWriteN _ _ wf)]
      · have back := memReadN_memWriteN (32 * m.cqTail.toNat) c.bytes (m := m.cq) wf
        rwa [Completion.bytes_length] at back
      · simp only [Mbx.cqPut]
        bv_omega
      · left
        simp only [Mbx.cqPut]
        bv_omega
    rw [row, drained]
    simp only [State.raiseIrq_mbx, State.updMbx_mbx_self, State.raiseIrq_port]
    exact ⟨trivial, tail, ring, rfl⟩
end

section
set_option Elab.async false
/-!
PROOFS. What the operations that several units share move: objects, place indexes, track contexts, mailbox windows, scrubs.
-/
namespace Sys2Proof.Machine
open State (Outside)

/-! ## Objects and place indexes -/

theorem State.updObj_outside (s : State) (h : Nat) (f : Obj → Obj) : s.Outside [.mt] (s.updObj h f) := .setMt _ _

theorem State.updIndex_outside (s : State) (h : Nat) (f : PsIndex → PsIndex) : s.Outside [.ps] (s.updIndex h f) := .setPs _ _

theorem State.unpin_outside (s : State) (h : Nat) (p : Pin) : s.Outside [.mt] (s.unpin h p) := s.updObj_outside h _

theorem State.jobUnpinned_outside (s : State) (h : Nat) : s.Outside [.mt] (s.jobUnpinned h) := by
  unfold State.jobUnpinned
  split
  · exact s.unpin_outside _ _
  · exact .refl _ _

theorem State.unmapRun_outside (s : State) (base bytes : Nat) : s.Outside [.mem] (s.unmapRun base bytes) := .setMem _ _

theorem State.fillRun_outside (s : State) (base bytes : Nat) (cells : List Host.Cell) :
    s.Outside [.mem] (s.fillRun base bytes cells) := .setMem _ _

theorem State.zeroiseOld_outside (s : State) (n : Fin 5) : s.Outside [.sec, .evr] (s.zeroiseOld n) := by
  unfold State.zeroiseOld
  split
  · exact .refl _ _
  · split
    · exact (Outside.setSec _ _).trans (State.event_outside _ _ _ _ _ _)
    · exact .refl _ _

theorem State.dropPagesFrom_outside (s : State) (o : PageOwner) (pos : Nat) :
    s.Outside [.mt, .sec, .evr] (s.dropPagesFrom o pos) :=
  (Outside.setMt _ _).trans (Outside.foldl _ (fun a n => a.zeroiseOld_outside n) _ _)

theorem State.dropCopies_outside (s : State) (h : Nat) (mirrorOnly : Bool) :
    s.Outside [.mt, .sec, .evr] (s.dropCopies h mirrorOnly) := by
  unfold State.dropCopies
  split
  · exact (Outside.setMt _ _).trans (State.zeroiseOld_outside _ _)
  · exact ((Outside.refl s _).step (s.dropPagesFrom_outside _ 0)).step (State.updObj_outside _ h _)

theorem State.removeObj_outside (s : State) (o : Obj) : s.Outside [.fld, .mt, .sec, .evr, .mem] (s.removeObj o) := by
  unfold State.removeObj State.unmap
  split
  · exact ((((Outside.refl s _).step (.setFld _ _)).step (State.dropPagesFrom_outside _ (.object o.handle) 0)).step
      (.setMt _ _)).step (State.unmapRun_outside _ _ _)
  · exact (((Outside.refl s _).step (s.dropPagesFrom_outside (.object o.handle) 0)).step (.setMt _ _)).step
      (State.unmapRun_outside _ _ _)

theorem State.discardLoad_outside (s : State) (h : Nat) : s.Outside [.fld, .mt, .sec, .evr, .mem] (s.discardLoad h) := by
  unfold State.discardLoad
  split
  · exact .refl _ _
  · split
    · exact ((Outside.refl s _).step (s.unmapRun_outside _ _)).step (State.updObj_outside _ h _)
    · exact s.removeObj_outside _

theorem State.objReverted_outside (s : State) (h : Nat) : s.Outside [.fld, .mt, .sec, .evr, .mem] (s.objReverted h) := by
  unfold State.objReverted
  split
  · exact .refl _ _
  · split
    · exact s.discardLoad_outside h
    · exact (((Outside.refl s _).step (.setMt _ _)).step (State.updObj_outside _ h _)).step (State.jobUnpinned_outside _ h)

theorem State.putShard_outside (s : State) (ix : PsIndex) (recs : List PsRec) : s.Outside [.ps, .mem] (s.putShard ix recs) := by
  unfold State.putShard
  dsimp only
  split
  · exact (s.updIndex_outside _ _).mono (by decide)
  · exact (s.updIndex_outside _ _).trans (.setMem _ _)

theorem State.spillDropped_outside (s : State) (ix : PsIndex) : s.Outside [.mt, .ps, .mem] (s.spillDropped ix) :=
  (((Outside.refl s _).step (.setMt _ _)).step (State.putShard_outside _ _ _)).step (State.updIndex_outside _ _ _)

theorem State.compactionDropped_outside (s : State) (h : Nat) : s.Outside [.mt, .ps, .mem] (s.compactionDropped h) := by
  unfold State.compactionDropped
  split
  · exact .refl _ _
  · split
    · exact s.spillDropped_outside _
    · exact .refl _ _

/-! ## Track contexts -/

theorem State.putTable_outside (s : State) (slot : Nat) (c : List Byte) : s.Outside [.mem] (s.putTable slot c) := by
  unfold State.putTable
  split
  · exact s.writeMem_outside _ _
  · exact .refl _ _

theorem State.pageOut_outside (s : State) (i : Nat) : s.Outside [.mem, .fus] (s.pageOut i) := by
  unfold State.pageOut
  split
  · exact .refl _ _
  · exact (s.putTable_outside _ _).trans (.setFus _ _)

theorem State.pageOutAll_outside (s : State) : s.Outside [.mem, .fus] s.pageOutAll :=
  Outside.foldl (fun (a : State) r => a.pageOut (Prod.fst r)) (fun a r => a.pageOut_outside (Prod.fst r)) _ _

theorem State.freeTrack_outside (s : State) (h : Nat) : s.Outside [.fus, .mem] (s.freeTrack h) :=
  (Outside.setFus _ _).trans (State.putTable_outside _ _ _)

/-! ## Span images and trigger pins -/

theorem State.settlePins_outside (s : State) : s.Outside [.tu] s.settlePins := by
  refine Outside.foldl _ (fun a n => ?_) _ _
  split
  · exact a.updTrig_outside n _
  · split
    · exact a.updTrig_outside n _
    · exact .refl _ _

theorem State.dropImage_outside (s : State) (k : Fin 64) : s.Outside [.mt, .sched, .tu] (s.dropImage k) := by
  unfold State.dropImage
  split
  · exact .refl _ _
  · exact ((Outside.foldl _ (fun a h => a.unpin_outside h _) _ _).trans (.setSched _ _)).trans (State.settlePins_outside _)

theorem State.recheckImages_outside (s : State) : s.Outside [.mt, .sched, .tu] s.recheckImages := by
  refine Outside.foldl _ (fun a k => ?_) _ _
  split
  · split
    · exact a.dropImage_outside k
    · exact .refl _ _
  · exact .refl _ _

theorem State.driveTriggers_outside (s : State) : s.Outside [.tu, .pins] s.driveTriggers :=
  (Outside.setTu _ _).trans (Outside.foldl _ (fun a n => a.setPin_outside (.trigOut n) _) _ _)

theorem State.clampClocks_outside (s : State) : s.Outside [.pm] s.clampClocks :=
  Outside.foldl _ (fun a c => a.updCorePower_outside c _) _ _

/-! ## Windows of the mailboxes -/

theorem State.freeRun_outside (s : State) (p : Fin 4) (self pages : Nat) : s.Outside [.free] (s.freeRun p self pages).2 := .setFree _ _

theorem State.unmapWindow_outside (s : State) (i : Fin 8) : s.Outside [.mem, .mbx] (s.unmapWindow i) := by
  unfold State.unmapWindow
  split
  · exact (s.unmapRun_outside _ _).trans (State.updMbx_outside _ i _)
  · exact .refl _ _

/-- The run that a mailbox's buffer takes reads zeros as it is mapped. -/
def State.zeroRun (s : State) (run : Option Nat) : State :=
  match run with
  | some b => s.unmapRun b bulkSize
  | none => s

theorem State.zeroRun_outside (s : State) (run : Option Nat) : s.Outside [.mem] (s.zeroRun run) := by
  cases run with
  | none => exact .refl _ _
  | some b => exact s.unmapRun_outside b _

theorem State.openMbx_eq (s : State) (i : Fin 8) (p : Fin 4) : s.openMbx i p =
    (((s.unmapWindow i).freeRun p 0 (bulkSize / 65536)).2.zeroRun ((s.unmapWindow i).freeRun p 0 (bulkSize / 65536)).1).updMbx i
      fun m => { Mbx.reset with
        state := .opened, partition := p, bulkMapped := ((s.unmapWindow i).freeRun p 0 (bulkSize / 65536)).1.isSome
        bulkBase := ((s.unmapWindow i).freeRun p 0 (bulkSize / 65536)).1.getD 0, sq := m.sq, cq := m.cq } := by
  unfold State.openMbx State.zeroRun
  generalize (s.unmapWindow i).freeRun p 0 (bulkSize / 65536) = r
  obtain ⟨run, t⟩ := r
  cases run <;> rfl

theorem State.openMbx_outside (s : State) (i : Fin 8) (p : Fin 4) : s.Outside [.mem, .mbx, .free] (s.openMbx i p) := by
  rw [State.openMbx_eq]
  exact ((((Outside.refl s _).step (s.unmapWindow_outside i)).step (State.freeRun_outside _ _ _ _)).step
    (State.zeroRun_outside _ _)).step (State.updMbx_outside _ i _)

/-- A mailbox that is opened is OPEN (R341). -/
theorem State.openMbx_state (s : State) (i : Fin 8) (p : Fin 4) : (s.openMbx i p).mbx[i].state = .opened := by
  rw [State.openMbx_eq]
  exact congrArg Mbx.state (State.updMbx_mbx_self _ i _)

theorem State.openAll_outside (s : State) : s.Outside [.mem, .mbx, .free] s.openAll :=
  Outside.foldl _ (fun _ p => Outside.foldl _ (fun b i => b.openMbx_outside i p) _ _) _ _

/-! ## Firmware and its counters -/

theorem State.raiseCounters_outside (s : State) : s.Outside [.sec, .evr] s.raiseCounters := by
  unfold State.raiseCounters
  dsimp only
  split
  · exact .refl _ _
  · refine Outside.foldl _ (fun a k => ?_) _ _
    split
    · exact (Outside.setSec _ _).trans (State.event_outside _ _ _ _ _ _)
    · exact .refl _ _

/-- A ring that was frozen is archived once. -/
def State.keepFrozen (s : State) : State :=
  if s.evr.frozen && !s.evr.archived then
    { s with evr := { s.evr with archive := ({ head := s.evr.head, ring := s.evr.ring } :: s.evr.archive).take 16, archived := true } }
  else s

/-- The freeze that ends, with the note of a warm reset. -/
def State.thawed (s : State) (warm : Bool) : State :=
  if warm then State.event { s with evr := { s.evr with frozen := false, freezing := false } } 0x10 0x1009 s.dev.resetCause.toNat
    s.evr.frozenDrops.toNat 0
  else { s with evr := { s.evr with frozen := false, freezing := false } }

/-- The note of the archived ring. -/
def State.noteArchive (s : State) (head : Nat) : State :=
  State.event { s with free := s.free + 1, evr := { s.evr with archived := false } } 0x10 0x1008 (Config.freeNat s.free % 16) head 0

theorem State.releaseFreeze_eq (s : State) (warm : Bool) : s.releaseFreeze warm =
    if s.evr.frozen then (s.keepFrozen.thawed warm).noteArchive s.keepFrozen.evr.head.toNat else s.keepFrozen.thawed warm := rfl

theorem State.keepFrozen_outside (s : State) : s.Outside [.evr] s.keepFrozen := .ite (.setEvr _ _) (.refl _ _)

theorem State.thawed_outside (s : State) (warm : Bool) : s.Outside [.evr] (s.thawed warm) :=
  .ite ((Outside.setEvr s _).step (State.event_outside _ _ _ _ _ _)) (.setEvr _ _)

theorem State.noteArchive_outside (s : State) (head : Nat) : s.Outside [.free, .evr] (s.noteArchive head) := by
  have drawn := Outside.setFree s (s.free + 1)
  have marked := drawn.trans (.setEvr _ { s.evr with archived := false })
  exact marked.step (State.event_outside _ _ _ _ _ _)

theorem State.releaseFreeze_outside (s : State) (warm : Bool) : s.Outside [.evr, .free] (s.releaseFreeze warm) := by
  rw [State.releaseFreeze_eq]
  have thawed := ((Outside.refl s [.evr, .free]).step s.keepFrozen_outside).step (State.thawed_outside _ warm)
  exact .ite (thawed.step (State.noteArchive_outside _ _)) thawed

/-! ## Scrubs -/

theorem State.undoJob_outside (s : State) (j : Job) : s.Outside [.fld, .mt, .sec, .evr, .mem, .ps] (s.undoJob j) := by
  unfold State.undoJob
  split
  · exact .step (.refl s _) (s.updObj_outside _ _)
  · exact .step (.refl s _) (s.updObj_outside _ _)
  · exact .step (.refl s _) (s.updObj_outside _ _)
  · exact .step (.refl s _) (s.objReverted_outside _)
  · exact .step (.refl s _) (s.discardLoad_outside _)
  · exact .step (.refl s _) (s.updIndex_outside _ _)
  · exact .step (.refl s _) (s.updIndex_outside _ _)
  · exact .step (.refl s _) (s.updIndex_outside _ _)
  · exact .step (.refl s _) (s.compactionDropped_outside _)
  · exact .refl s _

theorem State.noteCommits_outside (s : State) : s.Outside [.sm] s.noteCommits := .setSm _ _

theorem State.discardMbx_outside (s : State) (i : Fin 8) :
    s.Outside [.fld, .mt, .sec, .evr, .mem, .ps, .fw, .mbx, .sm] (s.discardMbx i) :=
  .step (.step (.step (.step (.step (.refl s _) (Outside.foldl _ (fun a j => a.undoJob_outside j) _ _)) (.setFw _ _)) (.setPs _ _))
    (State.updMbx_outside _ i _)) (State.noteCommits_outside _)

theorem State.freeImages_outside (s : State) (p : Fin 4) : s.Outside [.sched] (s.freeImages p) := .setSched _ _

theorem State.freeWork_outside (s : State) (p : Fin 4) : s.Outside [.mt, .ps, .fus, .mem] (s.freeWork p) :=
  .step (.step (.step (.refl s _) (.setMt _ _)) (.setPs _ _)) (Outside.foldl _ (fun a x => a.freeTrack_outside _) _ _)

theorem State.freeSlot_outside (s : State) (ch : Fin 32) (i : Nat) : s.Outside [.sm, .flags] (s.freeSlot ch i) := by
  unfold State.freeSlot
  dsimp only
  split
  · exact .refl _ _
  · exact (s.updChan_outside ch _).trans (Outside.foldl _ (fun a f => a.clearFlag_outside f) _ _)

theorem State.stopChannel_outside (s : State) (ch : Fin 32) : s.Outside [.sm, .flags] (s.stopChannel ch) :=
  .step (.step (.refl s _) (Outside.foldl _ (fun a i => a.freeSlot_outside ch i) _ _)) (State.updChan_outside _ ch _)

theorem State.disableStreams_outside (s : State) (p : Fin 4) : s.Outside [.sm, .flags] (s.disableStreams p) := by
  refine Outside.foldl _ (fun a ch => ?_) _ _
  have pended := Outside.ite (c := a.ownsChannel p ch.val = true)
    (.step (.refl a [.sm, .flags]) (a.updChan_outside ch fun x => { x with pend := none })) (.refl a _)
  dsimp only
  split
  next d _ =>
    have disabled := pended.step (State.updChan_outside _ ch fun x => { x with
      desc := some (d.take 6 ++ [d.getD 6 0 &&& 0xFE] ++ d.drop 7) })
    exact .ite (.ite (disabled.step (State.stopChannel_outside _ ch)) disabled) pended
  · exact pended

theorem State.idlePins_outside (s : State) (mask : Half) : s.Outside [.tu, .pins] (s.idlePins mask) := by
  refine Outside.foldl _ (fun a n => ?_) _ _
  split
  · exact (a.updTrig_outside n _).trans (State.setPin_outside _ _ _)
  · exact .refl _ _

theorem State.cryptoErase_outside (s : State) (p : Fin 4) : s.Outside [.free, .sec] (s.cryptoErase p) :=
  (Outside.setFree s (s.free + 64)).trans (.setSec _ _)

theorem State.startScrub_outside (s : State) : s.Outside [.sec, .evr] s.startScrub := by
  unfold State.startScrub
  split
  · exact .refl _ _
  · split
    · exact .refl _ _
    · exact (Outside.setSec _ _).trans (State.event_outside _ _ _ _ _ _)

/-- What the discard of a partition's mailboxes moves. -/
theorem State.scrubMailboxes_outside (s : State) (p : Fin 4) : s.Outside [.fld, .mt, .sec, .evr, .mem, .ps, .fw, .mbx, .sm]
    ((List.finRange 8).foldl (fun (s : State) i =>
      if s.mbx[i].state ≠ .closed ∧ s.mbx[i].partition = p then
        (s.discardMbx i).updMbx i fun _ => { Mbx.reset with state := .scrubbing, partition := p }
      else s) s) :=
  Outside.foldl _ (fun a i => .ite ((a.discardMbx_outside i).step (State.updMbx_outside _ i _)) (.refl a _)) _ _

theorem State.beginScrub_outside (s : State) (x : Scrub) :
    s.Outside [.sec, .fld, .mt, .evr, .mem, .ps, .fw, .mbx, .sm, .sched, .fus, .flags, .tu, .pins, .free] (s.beginScrub x) := by
  unfold State.beginScrub
  have granted := (Outside.refl s [.sec, .fld, .mt, .evr, .mem, .ps, .fw, .mbx, .sm, .sched, .fus, .flags, .tu, .pins, .free]).step
    (s.updGrant_outside x.part fun g => { g with state := 2 })
  have queued := granted.step (.setSec _ { (s.updGrant x.part fun g => { g with state := 2 }).sec with
    scrubs := (s.updGrant x.part fun g => { g with state := 2 }).sec.scrubs.map fun (y : Scrub) =>
      if y.part = x.part then { y with begun := true, running := false, done := false } else y })
  have mailboxes := queued.step (State.scrubMailboxes_outside _ x.part)
  have stopped := ((mailboxes.step (State.freeImages_outside _ x.part)).step (State.freeWork_outside _ x.part)).step
    (State.disableStreams_outside _ x.part)
  have idle := stopped.step (State.idlePins_outside _ s.sec.grants[x.part].trigMask)
  exact ((idle.step (.setFlags _ _)).step (State.cryptoErase_outside _ _)).step (State.startScrub_outside _)

end Sys2Proof.Machine
end

section
set_option Elab.async false
/-!
PROOFS. Resets, boot, parking (chapters 17, 18 and 20): what each event of a boot or a reset leaves, and the claim that fails, that a
warm reset moves no memory.
-/
namespace Sys2Proof.Machine
open State (Outside)

/-! ## The levels of the output pins -/

theorem Pins.put_level (p : Pins) (n m : PinName) (v : Bool) : (p.put n v).level m = if m = n then v else p.level m := by
  cases n with
  | trigOut i =>
    cases m with
    | trigOut j =>
      by_cases same : j = i
      · simp [Pins.put, Pins.level, same]
      · have apart : i.val ≠ j.val := fun e => same (Fin.ext e.symm)
        simp [Pins.put, Pins.level, same, apart]
    | _ => rfl
  | _ => cases m <;> rfl

theorem State.setPin_level_eq (s : State) (n m : PinName) (v : Bool) :
    (s.setPin n v).pins.level m = if m = n then v else s.pins.level m := by
  unfold State.setPin
  split
  next same =>
    split
    next named => rw [named, same]
    next => rfl
  next => exact s.pins.put_level n m v

/-- What is not an output level stays as a pin is driven. -/
theorem State.setPin_inputs (s : State) (n : PinName) (v : Bool) :
    (s.setPin n v).pins.poresetN = s.pins.poresetN ∧ (s.setPin n v).pins.sysresetN = s.pins.sysresetN
      ∧ (s.setPin n v).pins.syncIn = s.pins.syncIn ∧ (s.setPin n v).pins.pwrLimitN = s.pins.pwrLimitN := by
  unfold State.setPin
  split
  · exact ⟨rfl, rfl, rfl, rfl⟩
  · cases n <;> exact ⟨rfl, rfl, rfl, rfl⟩

@[simp] theorem State.setPin_poresetN (s : State) (n : PinName) (v : Bool) : (s.setPin n v).pins.poresetN = s.pins.poresetN :=
  (s.setPin_inputs n v).1

/-- The trigger pins of the list are driven low, and no other output is. -/
def State.trigsLow (s : State) (l : List (Fin 16)) : State := l.foldl (fun (s : State) n => s.setPin (.trigOut n) false) s

theorem State.trigsLow_level (s : State) (l : List (Fin 16)) (m : PinName) :
    (s.trigsLow l).pins.level m = if ∃ k ∈ l, m = .trigOut k then false else s.pins.level m := by
  induction l generalizing s with
  | nil => simp [State.trigsLow]
  | cons k l ih =>
    have step : s.trigsLow (k :: l) = (s.setPin (.trigOut k) false).trigsLow l := rfl
    rw [step, ih, State.setPin_level_eq]
    by_cases here : m = .trigOut k <;> simp [here]

theorem State.trigsLow_outside (s : State) (l : List (Fin 16)) : s.Outside [.pins] (s.trigsLow l) :=
  State.Outside.foldl _ (fun a k => a.setPin_outside (.trigOut k) false) l s

@[simp] theorem State.trigsLow_poresetN (s : State) (l : List (Fin 16)) : (s.trigsLow l).pins.poresetN = s.pins.poresetN :=
  foldl_keeps (fun s : State => s.pins.poresetN) _ (fun s k => s.setPin_poresetN (.trigOut k) false) l s

/-! ## The outputs in reset (R440) -/

/-- The step of `State.resetPins` on MOTION_PERMIT, whose fall in a reset the status register shows. -/
def State.permitReset (s : State) : State :=
  if s.pins.motionPermit then { s.setPin .motionPermit false with fus := { s.fus with lastCause := 5, fell := true } } else s

theorem State.permitReset_level (s : State) (m : PinName) :
    s.permitReset.pins.level m = if m = .motionPermit then false else s.pins.level m := by
  unfold State.permitReset
  split
  · exact s.setPin_level_eq .motionPermit m false
  next low =>
    split
    next named =>
      rw [named]
      exact Bool.not_eq_true _ ▸ low
    next => rfl

theorem State.permitReset_outside (s : State) : s.Outside [.pins, .fus] s.permitReset := by
  unfold State.permitReset
  split
  · exact (s.setPin_outside _ _).trans (.setFus _ _)
  · exact .refl _ _

theorem State.resetPins_unfold (s : State) : s.resetPins =
    let t := ((((s.permitReset.setPin .faultN false).trigsLow (List.finRange 16)).setPin .ppsOut false).setPin .poseStrobe
      false).setPin .hostIrqN true
    { t with pins := { t.pins with mportMiso := none } } := by
  unfold State.resetPins State.permitReset State.trigsLow
  rfl

/-- In reset every output but HOST_IRQ_N and THERMTRIP_N is low (R440). -/
theorem State.resetPins_level (s : State) (m : PinName) : s.resetPins.pins.level m =
    match m with
    | .hostIrqN => true
    | .thermtripN => s.pins.thermtripN
    | _ => false := by
  rw [State.resetPins_unfold]
  have strip : ∀ p : Pins, ({ p with mportMiso := none } : Pins).level m = p.level m := fun p => by cases m <;> rfl
  dsimp only
  rw [strip]
  simp only [State.setPin_level_eq, State.trigsLow_level, State.permitReset_level]
  cases m <;> simp [Pins.level]

/-- A reset of the outputs moves the pins, and what the fusion engine says of MOTION_PERMIT. -/
theorem State.resetPins_outside (s : State) : s.Outside [.pins, .fus] s.resetPins := by
  rw [State.resetPins_unfold]
  exact (((((s.permitReset_outside.trans (State.setPin_outside _ _ _)).trans (State.trigsLow_outside _ _)).trans
    (State.setPin_outside _ _ _)).trans (State.setPin_outside _ _ _)).trans (State.setPin_outside _ _ _)).trans (.setPins _ _)
      |>.mono (by decide)

@[simp] theorem State.resetPins_poresetN (s : State) : s.resetPins.pins.poresetN = s.pins.poresetN := by
  have kept : s.permitReset.pins.poresetN = s.pins.poresetN := by
    unfold State.permitReset
    split
    · exact s.setPin_poresetN _ _
    · rfl
  rw [State.resetPins_unfold]
  simp [kept]


/-! ## Cold resets and the loss of the rails -/

theorem State.raiseIrq_level (s : State) (b : Word) {m : PinName} (other : m ≠ .hostIrqN) :
    (s.raiseIrq b).pins.level m = s.pins.level m := by
  unfold State.raiseIrq State.irqPin
  exact (State.setPin_level_eq _ _ _ _).trans (if_neg other)

/-- The outputs that a cold reset leaves, and what else of the state before them it reads (R433, R440). -/
def State.coldPins (s : State) : State := s.resetPins.setPin .thermtripN true

theorem State.coldPins_outside (s : State) : s.Outside [.pins, .fus] s.coldPins :=
  s.resetPins_outside.step (State.setPin_outside _ _ _)

theorem State.coldState_pins (s : State) : s.coldState.pins = s.coldPins.pins := by
  unfold State.coldState State.coldPins
  dsimp only

theorem State.coldState_sec (s : State) : s.coldState.sec = s.sec.cold := by
  rw [← s.coldPins_outside.sec]
  unfold State.coldState State.coldPins
  dsimp only

theorem State.coldState_mt (s : State) : s.coldState.mt = s.mt.cold := by
  rw [← s.coldPins_outside.mt]
  unfold State.coldState State.coldPins
  dsimp only

theorem State.coldState_evr (s : State) : s.coldState.evr = { Recorder.reset with archive := s.evr.archive } := by
  rw [← s.coldPins_outside.evr]
  unfold State.coldState State.coldPins
  dsimp only

theorem State.coldState_pending (s : State) : s.coldState.pending = s.pending := by
  rw [← s.coldPins_outside.pending]
  unfold State.coldState State.coldPins
  dsimp only

/-- The pins of a cold reset: every output low, but HOST_IRQ_N and THERMTRIP_N (R440). -/
theorem State.coldState_level (s : State) (m : PinName) : s.coldState.pins.level m =
    match m with
    | .hostIrqN => true
    | .thermtripN => true
    | _ => false := by
  rw [State.coldState_pins, State.coldPins, State.setPin_level_eq, State.resetPins_level]
  cases m <;> rfl

@[simp] theorem State.coldState_poresetN (s : State) : s.coldState.pins.poresetN = s.pins.poresetN := by
  rw [State.coldState_pins, State.coldPins, State.setPin_poresetN, State.resetPins_poresetN]

/-- The trigger pins are low where each reads low. -/
theorem Pins.trigOut_eq_low {p : Pins} (low : ∀ n, p.level (.trigOut n) = false) : p.trigOut = Vector.replicate 16 false :=
  Vector.ext fun i h => by simpa [Pins.level] using low ⟨i, h⟩

/-- What flash, the fuses and the layout keep through a cold reset (R434). -/
theorem State.coldState_kept (s : State) :
    s.coldState.sec.grants = s.sec.grants ∧ s.coldState.sec.keys = s.sec.keys ∧ s.coldState.sec.lifecycle = s.sec.lifecycle
      ∧ s.coldState.sec.slots = s.sec.slots ∧ s.coldState.mt.pages = s.mt.pages ∧ s.coldState.evr.archive = s.evr.archive
      ∧ s.coldState.pending = s.pending := by
  rw [State.coldState_sec, State.coldState_mt, State.coldState_evr, State.coldState_pending]
  exact ⟨rfl, rfl, rfl, rfl, rfl, rfl, rfl⟩

theorem State.powerLoss_of_powered {s : State} (powered : s.dev.phase ≠ .unpowered) : s.powerLoss =
    { s.coldState.setPin .faultN true with
      pins := { (s.coldState.setPin .faultN true).pins with poresetN := false }
      dev := { (s.coldState.setPin .faultN true).dev with phase := .unpowered } } := by
  simp [State.powerLoss, powered]

/-! ## The boot -/

theorem State.clampClocks_pmbusOk (s : State) : s.clampClocks.pm.pmbusOk = s.pm.pmbusOk :=
  by
  refine foldl_keeps (fun s : State => s.pm.pmbusOk) _ ?_ _ _
  intro _ _
  rfl

theorem State.permitFall_outside (s : State) : s.Outside [.pins, .fus, .port, .evr] s.permitFall := by
  unfold State.permitFall
  have low := (Outside.refl s [.pins, .fus, .port, .evr]).step (s.setPin_outside .motionPermit false)
  have caused := low.step (.setFus _ { (s.setPin .motionPermit false).fus with lastCause := s.permitCause, fell := true })
  have raised := caused.step (State.raiseIrq_outside _ irqPermit)
  exact .ite (.ite (raised.step (State.event_outside _ _ _ _ _ _)) raised) (.refl s _)

/-- After a fall MOTION_PERMIT is low, whatever it was. -/
theorem State.permitFall_motionPermit (s : State) : s.permitFall.pins.motionPermit = false := by
  unfold State.permitFall
  split
  · have low : ∀ t : State, t.pins = (s.setPin .motionPermit false).pins → (t.raiseIrq irqPermit).pins.motionPermit = false :=
      fun t same => by
        have kept := t.raiseIrq_level irqPermit (m := .motionPermit) (by decide)
        rw [same] at kept
        exact kept.trans (s.setPin_level .motionPermit false)
    dsimp only
    split
    · rw [State.event_pins]
      exact low _ rfl
    · exact low _ rfl
  next high => simpa using high

/-- A fatal error as it is noted, before a READY device goes to FAULT (R418); a thermal trip is one (R387). -/
def State.fatalNoted (s : State) (trip : Bool) (source code a b c : Nat) : State :=
  let noted := State.event { s with dev := { s.dev with fatal := true } } source code a b c
  let fell := (State.permitFall { noted with evr := { noted.evr with freezing := noted.evr.freezing || !noted.evr.frozen } }).setPin
    .faultN false
  let raised := (if trip then fell.setPin .thermtripN false else fell).raiseIrq irqFatal
  if !s.dev.fatal then { raised with evr := { raised.evr with fatalCause := BitVec.ofNat 32 (code * 65536 + source * 256) } } else raised

theorem State.fatal_eq (s : State) (trip : Bool) (source code a b c : Nat) : s.fatal trip source code a b c =
    if (s.fatalNoted trip source code a b c).dev.phase = .ready then (s.fatalNoted trip source code a b c).enterFault
    else s.fatalNoted trip source code a b c := by
  unfold State.fatal State.fatalNoted
  rfl

theorem State.fatalNoted_outside (s : State) (trip : Bool) (source code a b c : Nat) :
    s.Outside [.dev, .evr, .pins, .fus, .port] (s.fatalNoted trip source code a b c) := by
  unfold State.fatalNoted
  have marked := (Outside.refl s [.dev, .evr, .pins, .fus, .port]).step (.setDev s { s.dev with fatal := true })
  have noted := marked.step (State.event_outside _ source code a b c)
  have freeze : ∀ t : State, s.Outside [.dev, .evr, .pins, .fus, .port] t → s.Outside [.dev, .evr, .pins, .fus, .port]
      { t with evr := { t.evr with freezing := t.evr.freezing || !t.evr.frozen } } := fun t h => h.step (.setEvr t _)
  have fell := ((freeze _ noted).step (State.permitFall_outside _)).step (State.setPin_outside _ .faultN false)
  have tripped := Outside.ite (c := trip = true) (fell.step (State.setPin_outside _ .thermtripN false)) fell
  have raised := tripped.step (State.raiseIrq_outside _ irqFatal)
  exact .ite (raised.step (.setEvr _ _)) raised

theorem State.fatalNoted_dev (s : State) (trip : Bool) (source code a b c : Nat) :
    (s.fatalNoted trip source code a b c).dev = { s.dev with fatal := true } := by
  unfold State.fatalNoted
  dsimp only
  split <;> split <;> simp [(State.permitFall_outside _).dev]

/-- The levels of FAULT_N, MOTION_PERMIT and THERMTRIP_N with a fatal error (R387, R418). -/
theorem State.fatalNoted_levels (s : State) (trip : Bool) (source code a b c : Nat) :
    (s.fatalNoted trip source code a b c).pins.faultN = false ∧ (s.fatalNoted trip source code a b c).pins.motionPermit = false
      ∧ (trip = true → (s.fatalNoted trip source code a b c).pins.thermtripN = false) := by
  have low : ∀ t : State, t.pins.motionPermit = false →
      let u := (if trip then (t.setPin .faultN false).setPin .thermtripN false else t.setPin .faultN false).raiseIrq irqFatal
      u.pins.faultN = false ∧ u.pins.motionPermit = false ∧ (trip = true → u.pins.thermtripN = false) := by
    intro t permit u
    have level : ∀ m, m ≠ .hostIrqN → u.pins.level m =
        (if trip then (t.setPin .faultN false).setPin .thermtripN false else t.setPin .faultN false).pins.level m :=
      fun m other => State.raiseIrq_level _ _ other
    have fault := level .faultN (by decide)
    have motion := level .motionPermit (by decide)
    have therm := level .thermtripN (by decide)
    cases trip
    · simp only [Bool.false_eq_true, if_false, State.setPin_level_eq, reduceCtorEq] at fault motion
      exact ⟨fault, motion.trans permit, fun h => nomatch h⟩
    · simp only [if_true, State.setPin_level_eq, reduceCtorEq, if_false] at fault motion therm
      exact ⟨fault, motion.trans permit, fun _ => therm⟩
  unfold State.fatalNoted
  dsimp only
  split
  · exact low _ (State.permitFall_motionPermit _)
  · exact low _ (State.permitFall_motionPermit _)

/-- A fatal error outside READY only is noted. -/
theorem State.fatal_of_notReady {s : State} (phase : s.dev.phase ≠ .ready) (trip : Bool) (source code a b c : Nat) :
    s.fatal trip source code a b c = s.fatalNoted trip source code a b c := by
  rw [State.fatal_eq, State.fatalNoted_dev]
  exact if_neg phase

/-- The end of the boot ROM, before a generator that failed is noted. -/
def State.bootRomLeft (s : State) (ack : Bool) : State :=
  State.clampClocks { s with
    dev := { s.dev with phase := .dramInit, ethForward := true, selfRefresh := false }
    pm := { s.pm with pmbusOk := ack } }

theorem State.bootRomEnds_of_bootRom {s : State} (phase : s.dev.phase = .bootRom) (ack rng : Bool) : s.bootRomEnds ack rng =
    if rng then s.bootRomLeft ack
    else (State.draw { s.bootRomLeft ack with sec := { (s.bootRomLeft ack).sec with rngOk := false } } 32).2.fatal false 0x12 0x120B
      (State.draw { s.bootRomLeft ack with sec := { (s.bootRomLeft ack).sec with rngOk := false } } 32).1.toNat 0 0 := by
  unfold State.bootRomEnds State.bootRomLeft State.draw
  simp only [phase, ne_eq, not_true_eq_false, if_false]

theorem State.bootRomLeft_outside (s : State) (ack : Bool) : s.Outside [.dev, .pm] (s.bootRomLeft ack) := by
  have left := (Outside.setDev s { s.dev with phase := .dramInit, ethForward := true, selfRefresh := false }).trans
    (.setPm _ { s.pm with pmbusOk := ack })
  exact left.step (State.clampClocks_outside _)

theorem State.bootRomLeft_dev (s : State) (ack : Bool) :
    (s.bootRomLeft ack).dev = { s.dev with phase := .dramInit, ethForward := true, selfRefresh := false } := by
  unfold State.bootRomLeft
  rw [(State.clampClocks_outside _).dev]

theorem State.bootRomLeft_pmbusOk (s : State) (ack : Bool) : (s.bootRomLeft ack).pm.pmbusOk = ack := by
  unfold State.bootRomLeft
  rw [State.clampClocks_pmbusOk]

/-- What the end of the boot ROM leaves alone. -/
theorem State.bootRomLeft_restored (s : State) (ack : Bool) : { s.bootRomLeft ack with dev := s.dev, pm := s.pm } = s := by
  have same := s.bootRomLeft_outside ack
  generalize s.bootRomLeft ack = t at same ⊢
  refine same.restored (fun p mem => ?_) (fun p out => ?_)
  · cases p <;> simp_all
  · cases p <;> simp_all

/-- The device state of RECOVERY (R403). -/
def Dev.recovering (d : Dev) (host : Bool) : Dev :=
  { d with phase := .recovery, hostPortBoot := host, resetCause := d.resetCause ||| 0x100 }

theorem State.enterRecovery_eq (s : State) (host : Bool) :
    s.enterRecovery host = (State.openMbx { s with dev := s.dev.recovering host } 0 0).raiseIrq irqState := rfl

theorem State.enterRecovery_spec (s : State) (host : Bool) :
    (s.enterRecovery host).dev.phase = .recovery ∧ (s.enterRecovery host).dev.hostPortBoot = host
      ∧ (s.enterRecovery host).mbx[(0 : Fin 8)].state = .opened ∧ (s.enterRecovery host).sec = s.sec := by
  rw [State.enterRecovery_eq]
  have outside := State.openMbx_outside { s with dev := s.dev.recovering host } 0 0
  have opened := State.openMbx_state { s with dev := s.dev.recovering host } 0 0
  generalize State.openMbx { s with dev := s.dev.recovering host } 0 0 = t at outside opened ⊢
  simp only [State.raiseIrq_dev, State.raiseIrq_mbx, State.raiseIrq_sec, outside.dev, outside.sec]
  exact ⟨rfl, rfl, opened, trivial⟩

/-! ## Firmware is verified and starts -/

theorem State.fwRefused_outside (s : State) (item : List Byte) : s.Outside [.evr] (s.fwRefused item) := by
  unfold State.fwRefused State.authFail
  split
  · exact s.event_outside _ _ _ _ _
  · exact s.event_outside _ _ _ _ _
  · exact .refl s _

/-- A slot that passes is the one that starts, and its start is recorded (R402). -/
theorem State.trySlots_of_passes {s : State} {k : Fin 2} (passes : s.sec.slotPasses k = true) (ks : List (Fin 2)) :
    State.trySlots (k :: ks) s =
      (s.startFirmware (decide (k = 1)) s.sec.slots[k].bytes false).event 0x12 0x1201 k.val (sigSvn s.sec.slots[k].bytes) 0 := by
  rw [State.trySlots, if_pos passes]

/-- The note that a slot failed its check. -/
def State.slotRefused (s : State) (k : Fin 2) : State :=
  let t := s.fwRefused s.sec.slots[k].bytes
  { t with sec := { t.sec with slotFailed := t.sec.slotFailed.set k true } }

theorem State.trySlots_of_fails {s : State} {k : Fin 2} (fails : s.sec.slotPasses k = false) (ks : List (Fin 2)) :
    State.trySlots (k :: ks) s = State.trySlots ks (s.slotRefused k) := by
  rw [State.trySlots, if_neg (by simp [fails])]
  rfl

theorem State.slotRefused_sec (s : State) (k : Fin 2) :
    (s.slotRefused k).sec = { s.sec with slotFailed := s.sec.slotFailed.set k true } := by
  unfold State.slotRefused
  dsimp only
  rw [(s.fwRefused_outside _).sec]

theorem State.slotRefused_dev (s : State) (k : Fin 2) : (s.slotRefused k).dev = s.dev := (s.fwRefused_outside _).dev

/-- With no slot left RECOVERY is entered (R402). -/
theorem State.trySlots_nil (s : State) :
    (State.trySlots [] s).dev.phase = .recovery ∧ (State.trySlots [] s).mbx[(0 : Fin 8)].state = .opened
      ∧ (State.trySlots [] s).sec = s.sec := by
  unfold State.trySlots State.drawBelow
  dsimp only
  obtain ⟨phase, -, opened, sec⟩ := (State.event { s with free := s.free + 1 + 1 } 0x12 0x1204 (Config.freeNat s.free % 4)
    (Config.freeNat (s.free + 1) % 4) 0).enterRecovery_spec false
  exact ⟨phase, opened, sec.trans (State.event_sec _ _ _ _ _ _)⟩

theorem Security.sigFails_marked (x : Security) (v : Vector Bool 2) (classes : List Nat) (item : List Byte) :
    Security.sigFails { x with slotFailed := v } classes item = x.sigFails classes item := by
  have hashes : ∀ cls, Security.hashesOf { x with slotFailed := v } cls = x.hashesOf cls := fun _ => rfl
  simp only [Security.sigFails, hashes]

/-- The marks of the slots that failed do not enter the check of a slot. -/
theorem Security.slotPasses_marked (x : Security) (v : Vector Bool 2) (k : Fin 2) :
    Security.slotPasses { x with slotFailed := v } k = x.slotPasses k := by
  have classes : Security.fwClasses { x with slotFailed := v } = x.fwClasses := rfl
  have check : ∀ item, Security.fwCheck { x with slotFailed := v } item = x.fwCheck item := fun item => by
    unfold Security.fwCheck
    rw [Security.sigFails_marked, classes]
  unfold Security.slotPasses
  rw [check]

/-- The two slots in either order: with none that passes, both are marked. -/
theorem State.trySlots_of_none {s : State} {j k : Fin 2} (other : j ≠ k) (first : s.sec.slotPasses j = false)
    (second : s.sec.slotPasses k = false) :
    (State.trySlots [j, k] s).dev.phase = .recovery ∧ (State.trySlots [j, k] s).mbx[(0 : Fin 8)].state = .opened
      ∧ ∀ i : Fin 2, (State.trySlots [j, k] s).sec.slotFailed[i] = true := by
  have still : (s.slotRefused j).sec.slotPasses k = false :=
    (congrArg (fun x => Security.slotPasses x k) (s.slotRefused_sec j)).trans (Security.slotPasses_marked _ _ k ▸ second)
  rw [State.trySlots_of_fails first, State.trySlots_of_fails still]
  obtain ⟨phase, opened, sec⟩ := ((s.slotRefused j).slotRefused k).trySlots_nil
  refine ⟨phase, opened, fun i => ?_⟩
  rw [sec, State.slotRefused_sec, State.slotRefused_sec]
  have both : i = k ∨ i = j := by omega
  rcases both with rfl | rfl
  · simp
  · have apart : k.val ≠ i.val := fun e => other (Fin.ext e.symm)
    simp [Vector.getElem_set_ne, apart]

theorem State.startFirmware_event_dev (s : State) (slot host : Bool) (item : List Byte) (source code a b c : Nat) :
    ((s.startFirmware slot item host).event source code a b c).dev = { s.dev with phase := .fwStart, fwSlot := slot }
      ∧ ((s.startFirmware slot item host).event source code a b c).sec.keptCopy = item := by
  rw [State.event_dev, State.event_sec]
  exact ⟨rfl, rfl⟩

/-- A cold start from the slots tries the preferred one first (R402). -/
theorem State.verifyFirmware_of_slots {s : State} (phase : s.dev.phase = .fwVerify) (cold : s.dev.warmBoot = false)
    (source : s.bootSource = 0) : s.verifyFirmware = State.trySlots (if s.sec.preferred then [1, 0] else [0, 1]) s := by
  simp [State.verifyFirmware, phase, cold, source]

/-! ## READY is entered -/

theorem State.setTrig_other (s : State) (n : Fin 16) (v : Bool) :
    (s.setPin (.trigOut n) v).pins.faultN = s.pins.faultN :=
  (State.setPin_level_eq s (.trigOut n) .faultN v).trans (if_neg (by simp))

theorem State.driveTriggers_faultN (s : State) : s.driveTriggers.pins.faultN = s.pins.faultN := by
  have keeps : ∀ (l : List (Fin 16)) (t : State),
      (l.foldl (fun (s : State) n => s.setPin (.trigOut n) s.tu.trigs[n].idleLevel) t).pins.faultN = t.pins.faultN := by
    refine foldl_keeps (fun s : State => s.pins.faultN) _ fun a n => ?_
    exact a.setTrig_other n _
  unfold State.driveTriggers
  dsimp only
  rw [keeps]

theorem State.idlePins_faultN (s : State) (mask : Half) : (s.idlePins mask).pins.faultN = s.pins.faultN := by
  unfold State.idlePins
  refine foldl_keeps (fun s : State => s.pins.faultN) _ (fun a n => ?_) _ _
  split
  · exact (State.setTrig_other _ n _).trans (congrArg Pins.faultN (State.updTrig_pins _ _ _))
  · rfl

theorem State.beginScrub_faultN (s : State) (x : Scrub) : (s.beginScrub x).pins.faultN = s.pins.faultN := by
  unfold State.beginScrub
  dsimp only
  rw [(State.startScrub_outside _).pins, (State.cryptoErase_outside _ _).pins]
  dsimp only
  rw [State.idlePins_faultN, (State.disableStreams_outside _ _).pins, (State.freeWork_outside _ _).pins,
    (State.freeImages_outside _ _).pins, (State.scrubMailboxes_outside _ _).pins]
  simp only [State.updGrant_pins]

/-- The device as it enters READY, or FAULT with a fatal error (R418, R435, R437). -/
def Dev.serving (d : Dev) : Dev :=
  { d with
    phase := if d.fatal then .fault else .ready, fwUp := true, everReady := true, wdArmed := true
    wdBits := Vector.replicate 2 false, dramKept := false }

/-- The scrubs that a reset interrupted begin again (R407). -/
def State.scrubsBegun (s : State) : State := s.sec.scrubs.foldl State.beginScrub s

theorem State.scrubsBegun_spec (s : State) :
    s.scrubsBegun.dev = s.dev ∧ s.scrubsBegun.port = s.port ∧ s.scrubsBegun.pins.faultN = s.pins.faultN := by
  have scrubbed := Outside.foldl _ State.beginScrub_outside s.sec.scrubs s
  exact ⟨scrubbed.dev, scrubbed.port, foldl_keeps (fun s : State => s.pins.faultN) _ State.beginScrub_faultN s.sec.scrubs s⟩

/-- What firmware does as it enters READY, before it releases what a freeze holds and FAULT_N. -/
def State.served (s : State) : State :=
  (State.settleRest { s with dev := s.dev.serving, sec := s.sec.endKeys }).recheckImages.openAll.scrubsBegun.raiseCounters.driveTriggers

theorem State.reachReady_of_fwStart {s : State} (phase : s.dev.phase = .fwStart) : s.reachReady =
    State.raiseIrq (if s.dev.fatal then s.served else (s.served.releaseFreeze s.dev.warmBoot).setPin .faultN true) irqState := by
  unfold State.reachReady
  rw [if_neg (not_not_intro phase)]
  unfold State.served State.scrubsBegun Dev.serving
  dsimp only

theorem State.served_dev (s : State) : s.served.dev = s.dev.serving ∧ s.served.port = s.port
    ∧ s.served.pins.faultN = s.pins.faultN := by
  unfold State.served
  generalize hr : ({ s with dev := s.dev.serving, sec := s.sec.endKeys } : State) = r
  have settled : r.Outside [.sec, .mt, .sched, .tu, .mem, .mbx, .free] r.settleRest.recheckImages.openAll :=
    (((Outside.refl r _).step (.setSec _ _)).step (State.recheckImages_outside _)).step (State.openAll_outside _)
  generalize r.settleRest.recheckImages.openAll = t at settled ⊢
  obtain ⟨dev, port, level⟩ := t.scrubsBegun_spec
  simp only [(State.driveTriggers_outside _).dev, (State.driveTriggers_outside _).port, State.driveTriggers_faultN,
    (State.raiseCounters_outside _).dev, (State.raiseCounters_outside _).port, (State.raiseCounters_outside _).pins,
    dev, port, level, settled.dev, settled.port, settled.pins]
  subst hr
  exact ⟨rfl, rfl, rfl⟩

/-! ## Parking and waking -/

/-- A trigger pin as parking leaves it: no pulse, and its idle level. -/
def State.idleTrig (s : State) (n : Fin 16) : State :=
  (s.updTrig n fun t => { t with pulseEnd := none }).setPin (.trigOut n) s.tu.trigs[n].idleLevel

theorem State.idleTrig_polarity (s : State) (n m : Fin 16) : (s.idleTrig n).tu.trigs[m].polarity = s.tu.trigs[m].polarity := by
  unfold State.idleTrig
  rw [State.setPin_tu]
  by_cases same : m = n
  · subst same
    simp [State.updTrig]
  · have apart : n.val ≠ m.val := fun e => same (Fin.ext e.symm)
    simp [State.updTrig, Vector.getElem_set_ne, apart]

theorem State.idleTrig_level (s : State) (n : Fin 16) (m : PinName) :
    (s.idleTrig n).pins.level m = if m = .trigOut n then s.tu.trigs[n].polarity else s.pins.level m := by
  unfold State.idleTrig
  rw [State.setPin_level_eq, State.updTrig_pins]
  rfl

theorem State.idleTrig_outside (s : State) (n : Fin 16) : s.Outside [.tu, .pins] (s.idleTrig n) :=
  (s.updTrig_outside n _).trans (State.setPin_outside _ _ _)

/-- Every pin of the list is at its idle level once each has been driven there. -/
theorem State.idleTrigs_level (l : List (Fin 16)) (s : State) (m : Fin 16) :
    (l.foldl State.idleTrig s).pins.level (.trigOut m) = if m ∈ l then s.tu.trigs[m].polarity else s.pins.level (.trigOut m) := by
  induction l generalizing s with
  | nil => simp
  | cons n l ih =>
    rw [List.foldl_cons, ih, State.idleTrig_polarity, State.idleTrig_level]
    by_cases here : m = n
    · simp [here]
    · simp [here]

theorem State.parkPins_eq (s : State) : s.parkPins =
    { ((List.finRange 16).foldl State.idleTrig s).setPin .ppsOut false with
      tu := { ((List.finRange 16).foldl State.idleTrig s).tu with ppsOutEnd := none } } := by
  unfold State.parkPins State.idleTrig
  dsimp only

theorem State.parkPins_outside (s : State) : s.Outside [.tu, .pins] s.parkPins := by
  rw [State.parkPins_eq]
  have idle := Outside.foldl _ State.idleTrig_outside (List.finRange 16) s
  exact (idle.step (State.setPin_outside _ .ppsOut false)).step (.setTu _ _)

theorem State.parkPins_level (s : State) : s.parkPins.pins.ppsOut = false
    ∧ ∀ n : Fin 16, s.parkPins.pins.trigOut[n] = s.tu.trigs[n].polarity := by
  have idle := State.idleTrigs_level (List.finRange 16) s
  rw [State.parkPins_eq]
  generalize (List.finRange 16).foldl State.idleTrig s = t at idle ⊢
  refine ⟨t.setPin_level .ppsOut false, fun n => ?_⟩
  have level := t.setPin_level_eq .ppsOut (.trigOut n) false
  rw [idle n] at level
  simpa [Pins.level] using level

theorem State.parkPower_outside (s : State) : s.Outside [.pm] s.parkPower := by
  unfold State.parkPower
  have filled : s.Outside [.pm] ((List.finRange 8).foldl (fun (s : State) c => s.updCorePower c fun x => { x with filler := .off }) s) :=
    Outside.foldl _ (fun a c => a.updCorePower_outside c _) _ _
  exact filled.step (.setPm _ _)

/-- The device with its pins idle and its contexts kept, before the port holds the direct registers (R391). -/
def State.parkIdle (s : State) : State := ((s.pageOutAll.event 0x0F 0x0F0B 0 (s.dtNs % 2 ^ 32) 0).parkPins).parkPower

theorem State.parkIdle_spec (s : State) : s.parkIdle.dev = s.dev ∧ s.parkIdle.port = s.port ∧ s.parkIdle.pm.railMv = 550
    ∧ s.parkIdle.pins.ppsOut = false ∧ ∀ n : Fin 16, s.parkIdle.pins.trigOut[n] = s.tu.trigs[n].polarity := by
  unfold State.parkIdle
  have paged := s.pageOutAll_outside.trans (State.event_outside s.pageOutAll 0x0F 0x0F0B 0 (s.dtNs % 2 ^ 32) 0)
  generalize s.pageOutAll.event 0x0F 0x0F0B 0 (s.dtNs % 2 ^ 32) 0 = t at paged ⊢
  have rail : t.parkPins.parkPower.pm.railMv = 550 := rfl
  obtain ⟨pps, trigs⟩ := t.parkPins_level
  refine ⟨?_, ?_, rail, ?_, fun n => ?_⟩
  · rw [(State.parkPower_outside _).dev, t.parkPins_outside.dev, paged.dev]
  · rw [(State.parkPower_outside _).port, t.parkPins_outside.port, paged.port]
  · rw [(State.parkPower_outside _).pins, pps]
  · have kept := trigs n
    rw [paged.tu] at kept
    simp only [(State.parkPower_outside _).pins]
    exact kept

theorem State.park_of_ready {s : State} (due : s.dev.parkReady = true) (ready : s.isReady = true) : s.park =
    (State.holdRegs { s.parkIdle with dev := { s.parkIdle.dev with
      phase := .parked, parkReady := false, selfRefresh := true, ethForward := false } }).raiseIrq irqState := by
  unfold State.park
  rw [if_neg (by simp [due, ready])]
  rfl

/-! ## A warm reset writes memory -/

/-- A record of a DRAM shard whose spill waits for an epoch to come. -/
def spillingRec : PsRec :=
  { id := 1, epochIn := 0, kind := 0, spilled := some 1, obsDt := 0, label := 0, acre := 0, code := [], slots := [], reclaimed := false
    place := 0 }

/-- A place index at epoch 0 whose shard holds that record. -/
def spillingIndex : PsIndex :=
  { handle := 0x10000000, part := 0, tables := [], dim := 16, codeBytes := 16, metric := 0, degree := 8, insertDegree := 4
    insertL := 16, alpha := 64, spillHigh := 50, spillLow := 10, mirror := false, dramCap := 16, flashBytes := 0, epoch := 0
    dramBase := some 0, dram := [spillingRec], flash := [], serial := 0, located := 0, fresh := [], oldFlash := [], changed := false
    spillOut := none, compactOut := none, written := false, spilling := false, nextId := 0, queue := [], tombs := []
    poisoned := false, destroying := false, insertRetried := false, spanFile := 0, spanEdges := 0, spanFull := 0, spanExpired := 0 }

/-- A READY device, its DRAM read as empty, with that index, and a reset that waits for its delay. -/
def shardWitness : State := { State.reset with
  dev := { Dev.reset with phase := .ready, everReady := true, resetPending := true }
  ps := { PlaceEngine.reset with indexes := PlaceEngine.reset.indexes.set 0 (some spillingIndex) } }

/-- A warm reset rolls a place index back to its published epoch, and that writes the shard's records (R276, R434): here they
are written where memory read zero. -/
theorem shardWitness_warm_mem (cause : Nat) : (shardWitness.warmState cause).mem ≠ [] := by
  have same : (shardWitness.warmState cause).mem = (shardWitness.warmState 0).mem := rfl
  rw [same]
  decide

theorem shardWitness_sysresetFall_mem : shardWitness.sysresetFall.mem ≠ [] := by
  have same : shardWitness.sysresetFall.mem = (shardWitness.warmState 0).mem := rfl
  rw [same]
  exact shardWitness_warm_mem 0

end Sys2Proof.Machine

open Sys2Proof Sys2Proof.Machine

/-- Settles O34: the fall of PORESET_N and the loss of the rails both leave `State.coldState`. -/
theorem coldResetEntered : Obligations.ColdResetEntered := by
  intro s powered
  refine ⟨fun high => ?_, fun low => ?_, ?_⟩
  · have entered : s.poresetFall = State.coldState { s with pins := { s.pins with poresetN := false } } := by
      simp [State.poresetFall, powered, high]
    refine ⟨s.poresetFall, rfl, ?_⟩
    rw [entered]
    generalize hr : ({ s with pins := { s.pins with poresetN := false } } : State) = r
    have level := r.coldState_level
    have low := r.coldState_poresetN
    obtain ⟨grants, keys, lifecycle, slots, pages, archive, pending⟩ := r.coldState_kept
    subst hr
    exact ⟨low, rfl, level .motionPermit, level .faultN, level .thermtripN, Pins.trigOut_eq_low fun n => level (.trigOut n),
      level .hostIrqN, rfl, rfl, rfl, rfl, rfl, rfl, rfl, rfl, rfl, rfl, rfl, rfl, rfl, grants, keys, lifecycle, slots, pages,
      archive, pending⟩
  · have held : s.poresetFall = s := by simp [State.poresetFall, low]
    exact congrArg Host.Outcome.next held
  · obtain ⟨_, keys, _, _, pages, _, _⟩ := s.coldState_kept
    refine ⟨s.powerLoss, rfl, ?_⟩
    rw [State.powerLoss_of_powered powered]
    have same := s.coldState.setPin_outside .faultN true
    have fault : (s.coldState.setPin .faultN true).pins.faultN = true := s.coldState.setPin_level .faultN true
    have permit : (s.coldState.setPin .faultN true).pins.motionPermit = false :=
      (State.setPin_level_eq s.coldState .faultN .motionPermit true).trans (s.coldState_level .motionPermit)
    dsimp only
    refine ⟨rfl, fault, permit, ?_, ?_, ?_⟩
    · exact same.sched
    · exact (congrArg Security.keys same.sec).trans keys
    · exact (congrArg MemTiers.pages same.mt).trans pages

/-- Settles O35: each event of the boot is one test of the phase. -/
theorem bootRunsInOrder : Obligations.BootRunsInOrder := by
  intro s
  refine ⟨fun off => ?_, fun on => ?_, fun b cold => ?_, fun b other => ?_, fun runs down => ?_, fun reset => ?_, fun ack rom => ?_,
    fun ack rom => ?_, fun dram host => ?_, fun dram host cold => ?_, fun other => ?_⟩
  · refine ⟨s.powerUp, rfl, ?_⟩
    rw [State.powerUp, if_pos off]
    exact ⟨State.setPin_dev _ _ _, State.setPin_level _ .faultN false⟩
  · exact congrArg Host.Outcome.next (if_neg on)
  · exact congrArg Host.Outcome.next (if_pos cold)
  · exact congrArg Host.Outcome.next (if_neg other)
  · have answers : s.portAnswers = { s with dev := { s.dev with portUp := true } } := by simp [State.portAnswers, runs, down]
    exact congrArg Host.Outcome.next answers
  · have silent : s.portAnswers = s := by simp [State.portAnswers, reset]
    exact congrArg Host.Outcome.next silent
  · refine ⟨s.bootRomEnds ack true, rfl, ?_⟩
    rw [State.bootRomEnds_of_bootRom rom, if_pos rfl]
    exact ⟨s.bootRomLeft_dev ack, s.bootRomLeft_pmbusOk ack, s.bootRomLeft_restored ack⟩
  · refine ⟨s.bootRomEnds ack false, rfl, ?_⟩
    rw [State.bootRomEnds_of_bootRom rom, if_neg Bool.false_ne_true]
    have left := congrArg Dev.phase (s.bootRomLeft_dev ack)
    generalize s.bootRomLeft ack = t at left ⊢
    have phase : (State.draw { t with sec := { t.sec with rngOk := false } } 32).2.dev.phase ≠ .ready := fun ready =>
      Phase.noConfusion (left.symm.trans ready)
    rw [State.fatal_of_notReady phase, (State.fatalNoted_outside _ _ _ _ _ _ _).sec, State.fatalNoted_dev]
    exact ⟨rfl, rfl, (State.fatalNoted_levels _ _ _ _ _ _ _).1⟩
  · have step : s.dramReady = { s with dev := { s.dev with phase := .fwVerify } } := by
      simp only [Bool.eq_false_iff, ne_eq] at host
      simp only [State.dramReady, dram, ne_eq, not_true_eq_false, if_false, Bool.not_eq_true', Bool.eq_false_iff, host]
    exact congrArg Host.Outcome.next step
  · have step : s.dramReady = s.enterRecovery true := by simp [State.dramReady, dram, host, cold]
    obtain ⟨phase, port, opened, -⟩ := s.enterRecovery_spec true
    exact ⟨_, congrArg Host.Outcome.next step, phase, port, opened⟩
  · exact congrArg Host.Outcome.next (if_pos other)

/-- Settles O36: the slots are tried in their order, and what firmware does as it enters READY moves neither the device state nor the
port. -/
theorem firmwareStarts : Obligations.FirmwareStarts := by
  refine ⟨fun s phase cold source => ⟨fun pref passes => ?_, fun pref passes => ?_, fun first second => ?_⟩,
    fun s phase => ⟨fun sound => ?_, fun fatal low => ?_⟩⟩
  · have verified := State.verifyFirmware_of_slots phase cold source
    rw [pref, if_neg Bool.false_ne_true, State.trySlots_of_passes passes] at verified
    exact ⟨_, congrArg Host.Outcome.next verified, State.startFirmware_event_dev _ _ _ _ _ _ _ _ _⟩
  · have verified := State.verifyFirmware_of_slots phase cold source
    rw [pref, if_pos rfl, State.trySlots_of_passes passes] at verified
    exact ⟨_, congrArg Host.Outcome.next verified, State.startFirmware_event_dev _ _ _ _ _ _ _ _ _⟩
  · refine ⟨_, congrArg Host.Outcome.next (State.verifyFirmware_of_slots phase cold source), ?_⟩
    split
    · obtain ⟨recovery, opened, marked⟩ := State.trySlots_of_none (j := 1) (k := 0) (by decide) second first
      exact ⟨recovery, opened, marked 0, marked 1⟩
    · obtain ⟨recovery, opened, marked⟩ := State.trySlots_of_none (j := 0) (k := 1) (by decide) first second
      exact ⟨recovery, opened, marked 0, marked 1⟩
  · refine ⟨_, congrArg Host.Outcome.next (State.reachReady_of_fwStart phase), ?_⟩
    obtain ⟨dev, port, -⟩ := s.served_dev
    rw [if_neg (by simp [sound])]
    have released := s.served.releaseFreeze_outside s.dev.warmBoot
    refine ⟨?_, ?_, ?_⟩
    · rw [State.raiseIrq_dev, State.setPin_dev, released.dev, dev]
      simp [Dev.serving, sound]
    · exact (State.raiseIrq_level _ _ (m := .faultN) (by decide)).trans (State.setPin_level _ .faultN true)
    · rw [State.raiseIrq_port, State.setPin_port, released.port, port]
  · refine ⟨_, congrArg Host.Outcome.next (State.reachReady_of_fwStart phase), ?_⟩
    obtain ⟨dev, -, level⟩ := s.served_dev
    rw [if_pos fatal]
    refine ⟨?_, ?_⟩
    · rw [State.raiseIrq_dev, dev]
      simp [Dev.serving, fatal]
    · exact (State.raiseIrq_level _ _ (m := .faultN) (by decide)).trans (level.trans low)

/-- Settles O39: parking drives the pins idle and holds the registers of the port, and waking raises the rail. -/
theorem parkAndWake : Obligations.ParkAndWake := by
  intro s
  refine ⟨fun due ready => ?_, fun idle => ?_, fun waking => ?_, fun other => ?_⟩
  · refine ⟨_, congrArg Host.Outcome.next (State.park_of_ready due ready), ?_⟩
    obtain ⟨-, port, rail, pps, trigs⟩ := s.parkIdle_spec
    generalize s.parkIdle = t at port rail pps trigs ⊢
    rw [State.raiseIrq_dev, State.raiseIrq_pm, State.raiseIrq_port]
    refine ⟨rfl, rfl, rfl, rail, congrArg (·.irqStatus ||| irqState) port, ?_, fun n => ?_, rfl⟩
    · exact (State.raiseIrq_level _ _ (m := .ppsOut) (by decide)).trans pps
    · have level := State.raiseIrq_level (State.holdRegs { t with dev := { t.dev with
        phase := .parked, parkReady := false, selfRefresh := true, ethForward := false } }) irqState (m := .trigOut n) (by simp)
      exact level.trans (trigs n)
  · have still : s.park = s := by simp [State.park, idle]
    exact congrArg Host.Outcome.next still
  · refine ⟨s.wakeUp, rfl, ?_⟩
    rw [State.wakeUp, if_neg (not_not_intro waking), State.raiseIrq_dev, State.raiseIrq_pm, State.raiseIrq_port, State.event_dev,
      State.event_pm, State.event_port]
    exact ⟨rfl, rfl, rfl⟩
  · exact congrArg Host.Outcome.next (if_pos other)

/-- Refutes O38: a warm reset that keeps DRAM all the same writes the records of a place index as its published epoch has them
(`State.publishedShards`), so the clause that memory stays fails for an index whose shard spills in an epoch to come. -/
theorem not_warmResetKeepsItsState : ¬ Obligations.WarmResetKeepsItsState := by
  unfold Obligations.WarmResetKeepsItsState
  intro h
  obtain ⟨entered, -⟩ := h shardWitness
  obtain ⟨t, run, -, -, -, -, -, -, -, -, -, -, -, mem, -⟩ := entered rfl rfl
  have isReset : t = shardWitness.sysresetFall := (Host.Outcome.next.inj run).symm
  exact shardWitness_sysresetFall_mem (isReset ▸ mem rfl)

/-- Refutes O18: at the end of the delay of SYS_RESET the same write of the place index's records moves memory. -/
theorem not_systemCommandsAnswer : ¬ Obligations.SystemCommandsAnswer := by
  unfold Obligations.SystemCommandsAnswer
  intro h
  obtain ⟨-, ended, -⟩ := h shardWitness ⟨0, 0, 0, 0, 0, 0, 0, []⟩
  obtain ⟨t, run, -, -, -, -, -, mem, -⟩ := ended rfl rfl rfl
  have isReset : t = shardWitness.warmState 4 := (Host.Outcome.next.inj run).symm
  exact shardWitness_warm_mem 4 (isReset ▸ mem rfl)

end

section
set_option Elab.async false
/-!
PROOFS. A fatal error of a READY device (R418): what it publishes goes to the subscribed windows, so the claim that memory stays fails.
-/
namespace Sys2Proof.Machine
open State (Outside)

/-! ## What the published record reaches -/

theorem State.permitCheck_outside (s : State) : s.Outside [.pins, .fus, .port, .evr] s.permitCheck :=
  .ite (.refl s _) s.permitFall_outside

theorem State.mportPut_outside (s : State) (r : List Byte) : s.Outside [.fus, .pins] (s.mportPut r) :=
  (Outside.setFus s _).trans (State.setPin_outside _ _ _)

theorem State.postUnsolicited_outside (s : State) (i : Fin 8) (c : Completion) (lost : Mbx → Byte) (setLost : Mbx → Byte → Mbx) :
    s.Outside [.mbx, .pins, .port] (s.postUnsolicited i c lost setLost) := by
  unfold State.postUnsolicited
  have put := (Outside.refl s [.mbx, .pins, .port]).step
    (s.updMbx_outside i fun m => (setLost m 0).cqPut { c with lost := lost m })
  exact .ite (.refl s _) (.ite (put.step (State.raiseIrq_outside _ _)) (.step (.refl s _) (State.updMbx_outside _ _ _)))

/-- A record goes to a subscription of every record: to its place in the ring, and the count to the head of the ring (R363). -/
theorem State.poseDeliver_mem {s : State} {i : Fin 8} {p : PoseSub} (sub : s.mbx[i].poseSub = some p) (every : p.decimate = 1)
    (r : List Byte) (permit : Bool) : (s.poseDeliver i r permit).mem =
      ((s.windowWrite i (p.ringOffset + 64 + 96 * (p.delivered % p.ringRecords)) r).windowWrite i p.ringOffset
        (natLe 8 (p.delivered + 1))).mem := by
  unfold State.poseDeliver
  simp only [sub, every, Nat.mod_one, true_or, if_true]
  split
  · rw [(State.postUnsolicited_outside _ _ _ _ _).mem, State.updMbx_mem]
  · rw [State.updMbx_mem]

theorem State.postUnsolicited_other {s : State} {i j : Fin 8} (other : j ≠ i) (c : Completion) (lost : Mbx → Byte)
    (setLost : Mbx → Byte → Mbx) : (s.postUnsolicited i c lost setLost).mbx[j] = s.mbx[j] := by
  unfold State.postUnsolicited
  dsimp only
  split
  · rfl
  · split
    · simp only [State.raiseIrq_mbx]
      exact State.updMbx_mbx_ne _ _ _ _ other
    · exact State.updMbx_mbx_ne _ _ _ _ other

/-- A record that goes to one mailbox leaves the others. -/
theorem State.poseDeliver_other {s : State} {i j : Fin 8} (other : j ≠ i) (r : List Byte) (permit : Bool) :
    (s.poseDeliver i r permit).mbx[j] = s.mbx[j] := by
  unfold State.poseDeliver
  split
  · rfl
  next p _ =>
    have written : ∀ (bs cs : List Byte) (a b : Nat) (f : Mbx → Mbx),
        (((s.windowWrite i a bs).windowWrite i b cs).updMbx i f).mbx[j] = s.mbx[j] := fun bs cs a b f =>
      State.updMbx_mbx_ne _ _ _ f other
    dsimp only
    split
    · split
      · exact (State.postUnsolicited_other other _ _ _).trans (written _ _ _ _ _)
      · exact written _ _ _ _ _
    · exact State.updMbx_mbx_ne _ _ _ _ other

/-- Mailboxes without a subscription get nothing. -/
theorem State.poseDeliver_of_none {s : State} {i : Fin 8} (none : s.mbx[i].poseSub = none) (r : List Byte) (permit : Bool) :
    s.poseDeliver i r permit = s := by
  unfold State.poseDeliver
  rw [none]

theorem State.poseDelivers_of_none (l : List (Fin 8)) {s : State} (none : ∀ i ∈ l, s.mbx[i].poseSub = none) (r : List Byte)
    (permit : Bool) : l.foldl (fun s i => s.poseDeliver i r permit) s = s := by
  induction l with
  | nil => rfl
  | cons i l ih =>
    rw [List.foldl_cons, State.poseDeliver_of_none (none i (by simp))]
    exact ih fun j mem => none j (by simp [mem])

/-- The state whose record is published: only pins, port, recorder and the fusion engine differ (R246). -/
theorem State.publish_eq (s : State) : ∃ (t : State) (r : List Byte) (permit : Bool), s.Outside [.pins, .fus, .port, .evr] t
    ∧ s.publish false = (List.finRange 8).foldl (fun s i => s.poseDeliver i r permit) t := by
  unfold State.publish
  have checked : s.Outside [.pins, .fus, .port, .evr] (if s.pins.motionPermit then s.permitCheck
      else if s.permitAll && s.covWithin 9 then s.setPin .motionPermit true else s) :=
    .ite s.permitCheck_outside (.ite (.step (.refl s _) (s.setPin_outside _ _)) (.refl s _))
  generalize (if s.pins.motionPermit then s.permitCheck
      else if s.permitAll && s.covWithin 9 then s.setPin .motionPermit true else s) = t at checked ⊢
  exact ⟨_, _, _, (checked.step (t.mportPut_outside _)).step (.setFus _ _), rfl⟩

theorem State.poseDeliver_outside (s : State) (i : Fin 8) (r : List Byte) (permit : Bool) :
    s.Outside [.mem, .mbx, .pins, .port] (s.poseDeliver i r permit) := by
  unfold State.poseDeliver
  split
  · exact .refl s _
  next p _ =>
    dsimp only
    have written : ∀ (bs cs : List Byte) (a b : Nat) (f : Mbx → Mbx), s.Outside [.mem, .mbx, .pins, .port]
        (((s.windowWrite i a bs).windowWrite i b cs).updMbx i f) := fun bs cs a b f =>
      (((Outside.refl s _).step (s.windowWrite_outside i a bs)).step (State.windowWrite_outside _ i b cs)).step
        (State.updMbx_outside _ i f)
    exact .ite (.ite ((written _ _ _ _ _).step (State.postUnsolicited_outside _ _ _ _ _)) (written _ _ _ _ _))
      (.step (.refl s _) (s.updMbx_outside i _))

theorem State.publish_outside (s : State) : s.Outside [.pins, .fus, .port, .evr, .mem, .mbx] (s.publish false) := by
  obtain ⟨t, r, permit, before, published⟩ := s.publish_eq
  rw [published]
  exact (before.mono (by decide)).step (Outside.foldl _ (fun a i => a.poseDeliver_outside i r permit) _ _)

theorem State.failWaiting_outside (s : State) (q : SubEntry) : s.Outside [.fw, .mbx, .pins, .port] (s.failWaiting q) := by
  unfold State.failWaiting
  exact (Outside.setFw s _).trans (State.complete_outside _ _ _ _ _ _ _ _ _ _)

theorem State.leaveService_outside (s : State) (was : Bool) :
    s.Outside [.pins, .fus, .port, .evr, .mem, .mbx] (s.leaveService was) := by
  unfold State.leaveService State.publishInvalid
  exact .ite ((Outside.step (.refl s _) s.permitCheck_outside).step (State.publish_outside _)) (.refl s _)

theorem State.enterFault_outside (s : State) :
    s.Outside [.dev, .pins, .port, .fw, .mbx, .sm, .sched, .fus, .evr, .mem] s.enterFault := by
  unfold State.enterFault
  refine .ite (.refl s _) ?_
  dsimp only
  have faulted : s.Outside [.dev, .pins, .port, .fw, .mbx, .sm, .sched, .fus, .evr, .mem]
      (State.raiseIrq { s with dev := { s.dev with phase := .fault } } irqState) :=
    (Outside.step (.refl s _) (.setDev s _)).step (State.raiseIrq_outside _ _)
  generalize State.raiseIrq { s with dev := { s.dev with phase := .fault } } irqState = t at faulted ⊢
  have gone := faulted.step (Outside.foldl (fun (s : State) (j : Job) => s.completeJob j errInternal 1 0 0 0 s.dtNs)
    (fun a j => a.completeJob_outside j _ _ _ _ _ _) (t.fw.jobs.filter fun j => !servedInFault j.opcode) t)
  generalize (t.fw.jobs.filter fun j => !servedInFault j.opcode).foldl _ t = u at gone ⊢
  have failed := gone.step (Outside.foldl State.failWaiting State.failWaiting_outside
    (u.fw.queue.filter fun q => !servedInFault q.opcode) u)
  generalize (u.fw.queue.filter fun q => !servedInFault q.opcode).foldl State.failWaiting u = v at failed ⊢
  have noted := failed.step (State.noteCommits_outside _)
  exact (Outside.ite (noted.step (.setSched _ _)) noted).step (State.leaveService_outside _ _)

/-! ## A READY device in service goes to FAULT -/

/-- A device in FAULT before it says that it left service, where no command is under way (R418). -/
def State.faultEntered (s : State) : State :=
  let t := (State.raiseIrq { s with dev := { s.dev with phase := .fault } } irqState).noteCommits
  if t.sched.state = .running then { t with sched := { t.sched with state := .stopping } } else t

theorem State.enterFault_of_noCommands {s : State} (halted : s.dev.cpHalted[0] = false ∧ s.dev.cpHalted[1] = false)
    (jobs : s.fw.jobs = []) (queue : s.fw.queue = []) : s.enterFault = s.faultEntered.leaveService s.permitService := by
  unfold State.enterFault State.faultEntered
  simp [halted, jobs, queue]

theorem State.faultEntered_outside (s : State) : s.Outside [.dev, .pins, .port, .sm, .sched] s.faultEntered := by
  unfold State.faultEntered
  have noted := ((Outside.setDev s { s.dev with phase := .fault }).trans (State.raiseIrq_outside _ irqState)).trans
    (State.noteCommits_outside _)
  have wide := noted.mono (more := [.dev, .pins, .port, .sm, .sched]) (by decide)
  exact .ite (wide.step (.setSched _ _)) wide

theorem State.faultEntered_notReady (s : State) : s.faultEntered.permitService = false := by
  have phase : s.faultEntered.dev.phase = .fault := by
    unfold State.faultEntered
    dsimp only
    split <;> rw [(State.noteCommits_outside _).dev, State.raiseIrq_dev]
  simp [State.permitService, State.isReady, phase]

/-- A device in service that goes to FAULT publishes a record that is not valid (R249). -/
theorem State.enterFault_of_service {s : State} (halted : s.dev.cpHalted[0] = false ∧ s.dev.cpHalted[1] = false)
    (jobs : s.fw.jobs = []) (queue : s.fw.queue = []) (service : s.permitService = true) :
    s.enterFault = s.faultEntered.permitCheck.publish false := by
  rw [State.enterFault_of_noCommands halted jobs queue, State.leaveService, service, State.faultEntered_notReady]
  rfl

/-! ## What FAULT leaves of the levels -/

/-- The fatal error and the levels of FAULT_N, MOTION_PERMIT and THERMTRIP_N. -/
def State.alarms (s : State) : Bool × Bool × Bool × Bool := (s.dev.fatal, s.pins.faultN, s.pins.motionPermit, s.pins.thermtripN)

theorem State.alarms_of_outside {s t : State} {parts : List Part} (h : s.Outside parts t) (dev : .dev ∉ parts := by decide)
    (pins : .pins ∉ parts := by decide) : t.alarms = s.alarms := by
  unfold State.alarms
  rw [h.dev dev, h.pins pins]

theorem State.raiseIrq_alarms (s : State) (b : Word) : (s.raiseIrq b).alarms = s.alarms := by
  have fault := s.raiseIrq_level b (m := .faultN) (by decide)
  have motion := s.raiseIrq_level b (m := .motionPermit) (by decide)
  have therm := s.raiseIrq_level b (m := .thermtripN) (by decide)
  simp only [Pins.level] at fault motion therm
  simp only [State.alarms, State.raiseIrq_dev, fault, motion, therm]

theorem State.postCompletion_alarms (s : State) (i : Fin 8) (c : Completion) : (s.postCompletion i c).alarms = s.alarms := by
  unfold State.postCompletion
  dsimp only
  split
  · rfl
  · split
    · exact (State.raiseIrq_alarms _ _).trans (State.alarms_of_outside (s.updMbx_outside i _))
    · exact State.alarms_of_outside (s.updMbx_outside i _)

theorem State.postUnsolicited_alarms (s : State) (i : Fin 8) (c : Completion) (lost : Mbx → Byte) (setLost : Mbx → Byte → Mbx) :
    (s.postUnsolicited i c lost setLost).alarms = s.alarms := by
  unfold State.postUnsolicited
  dsimp only
  split
  · rfl
  · split
    · exact (State.raiseIrq_alarms _ _).trans (State.alarms_of_outside (s.updMbx_outside i _))
    · exact State.alarms_of_outside (s.updMbx_outside i _)

theorem State.poseDeliver_alarms (s : State) (i : Fin 8) (r : List Byte) (permit : Bool) :
    (s.poseDeliver i r permit).alarms = s.alarms := by
  have written : ∀ (bs cs : List Byte) (a b : Nat) (f : Mbx → Mbx),
      (((s.windowWrite i a bs).windowWrite i b cs).updMbx i f).alarms = s.alarms := fun _ _ _ _ _ => rfl
  unfold State.poseDeliver
  split
  · rfl
  next p _ =>
    dsimp only
    split
    · split
      · exact (State.postUnsolicited_alarms _ _ _ _ _).trans (written _ _ _ _ _)
      · exact written _ _ _ _ _
    · rfl

theorem State.completeJob_alarms (s : State) (j : Job) (st r0 r1 r2 r3 dt : Nat) :
    (s.completeJob j st r0 r1 r2 r3 dt).alarms = s.alarms :=
  State.postCompletion_alarms _ _ _

theorem State.failWaiting_alarms (s : State) (q : SubEntry) : (s.failWaiting q).alarms = s.alarms :=
  State.postCompletion_alarms _ _ _

theorem State.mportPut_alarms (s : State) (r : List Byte) : (s.mportPut r).alarms = s.alarms := by
  unfold State.mportPut
  dsimp only
  generalize hu : ({ s with fus := _ } : State) = u
  have pins : u.pins = s.pins := by rw [← hu]
  have dev : u.dev = s.dev := by rw [← hu]
  have fault := u.setPin_level_eq .poseStrobe .faultN (!s.pins.poseStrobe)
  have motion := u.setPin_level_eq .poseStrobe .motionPermit (!s.pins.poseStrobe)
  have therm := u.setPin_level_eq .poseStrobe .thermtripN (!s.pins.poseStrobe)
  simp only [Pins.level, pins, reduceCtorEq, if_false] at fault motion therm
  simp only [State.alarms, State.setPin_dev, dev, fault, motion, therm]

/-- A device with a fatal error and MOTION_PERMIT low publishes without raising it. -/
theorem State.publish_alarms {s : State} (fatal : s.dev.fatal = true) (low : s.pins.motionPermit = false) (direct : Bool) :
    (s.publish direct).alarms = s.alarms := by
  have refused : s.permitAll = false := by simp [State.permitAll, fatal]
  unfold State.publish
  simp only [low, refused, Bool.false_and, Bool.false_eq_true, if_false]
  refine (foldl_keeps State.alarms _ (fun a i => a.poseDeliver_alarms i _ _) _ _).trans ?_
  exact State.mportPut_alarms _ _

/-- FAULT leaves the alarms of a fatal error as they are. -/
theorem State.enterFault_alarms {s : State} (fatal : s.dev.fatal = true) (low : s.pins.motionPermit = false) :
    s.enterFault.alarms = s.alarms := by
  have still : ∀ t : State, t.alarms = s.alarms → ∀ was, (t.leaveService was).alarms = s.alarms := by
    intro t same was
    have fatalT : t.dev.fatal = true := (congrArg Prod.fst same).trans fatal
    have lowT : t.pins.motionPermit = false := (congrArg (·.2.2.1) same).trans low
    unfold State.leaveService State.publishInvalid State.permitCheck State.permitFall
    simp only [lowT, Bool.false_eq_true, if_false, ite_self]
    split
    · exact (State.publish_alarms fatalT lowT false).trans same
    · exact same
  unfold State.enterFault
  split
  · rfl
  · dsimp only
    refine still _ ?_ _
    have faulted : (State.raiseIrq { s with dev := { s.dev with phase := .fault } } irqState).alarms = s.alarms :=
      State.raiseIrq_alarms _ _
    generalize State.raiseIrq { s with dev := { s.dev with phase := .fault } } irqState = t at faulted ⊢
    have gone := foldl_keeps State.alarms (fun (s : State) (j : Job) => s.completeJob j errInternal 1 0 0 0 s.dtNs)
      (fun a j => a.completeJob_alarms j _ _ _ _ _ _) (t.fw.jobs.filter fun j => !servedInFault j.opcode) t
    generalize (t.fw.jobs.filter fun j => !servedInFault j.opcode).foldl _ t = u at gone ⊢
    have failed := foldl_keeps State.alarms State.failWaiting State.failWaiting_alarms
      (u.fw.queue.filter fun q => !servedInFault q.opcode) u
    generalize (u.fw.queue.filter fun q => !servedInFault q.opcode).foldl State.failWaiting u = v at failed ⊢
    have all := (State.alarms_of_outside v.noteCommits_outside).trans (failed.trans (gone.trans faulted))
    split
    · exact (State.alarms_of_outside (.setSched _ _)).trans all
    · exact all

theorem State.fatal_outside (s : State) (trip : Bool) (source code a b c : Nat) :
    s.Outside [.dev, .pins, .port, .fw, .mbx, .sm, .sched, .fus, .evr, .mem] (s.fatal trip source code a b c) := by
  rw [State.fatal_eq]
  have noted := (s.fatalNoted_outside trip source code a b c).mono
    (more := [.dev, .pins, .port, .fw, .mbx, .sm, .sched, .fus, .evr, .mem]) (by decide)
  exact .ite (noted.step (State.enterFault_outside _)) noted

/-- The alarms of a fatal error, whatever state the device is in (R387, R418). -/
theorem State.fatal_alarms (s : State) (trip : Bool) (source code a b c : Nat) :
    (s.fatal trip source code a b c).dev.fatal = true ∧ (s.fatal trip source code a b c).pins.faultN = false
      ∧ (s.fatal trip source code a b c).pins.motionPermit = false
      ∧ (trip = true → (s.fatal trip source code a b c).pins.thermtripN = false) := by
  obtain ⟨fault, motion, therm⟩ := s.fatalNoted_levels trip source code a b c
  have fatal : (s.fatalNoted trip source code a b c).dev.fatal = true := by rw [State.fatalNoted_dev]
  have same : (s.fatal trip source code a b c).alarms = (s.fatalNoted trip source code a b c).alarms := by
    rw [State.fatal_eq]
    split
    · exact State.enterFault_alarms fatal motion
    · rfl
  simp only [State.alarms, Prod.mk.injEq] at same
  obtain ⟨sameFatal, sameFault, sameMotion, sameTherm⟩ := same
  exact ⟨sameFatal.trans fatal, sameFault.trans fault, sameMotion.trans motion, fun trips => sameTherm.trans (therm trips)⟩

/-- A span image of nothing, which puts a device in service. -/
def emptyImage : Image :=
  { spanGrains := 5000, partition := 0, rung := 0, coreMask := 0, variantKind := 0, variantCore := 0, familySig := 1, retrySlack := 0
    ballastStart := 0, trigMask := 0, buildId := 0, digest := [], claims := [], triggers := [], flags := [], sections := [], traffic := []
    objects := [], params := [] }

/-- A subscription of every record to the head of the window. -/
def headSub : PoseSub :=
  { ringOffset := 0, ringRecords := 1, decimate := 1, notifyEvery := 0, delivered := 0, sinceNotice := 0, lastPermit := false }

/-- A READY device that runs an image, and a mailbox with a window that subscribes to the pose. -/
def serviceWitness : State := { State.reset with
  dev := { Dev.reset with phase := .ready, fwUp := true }
  sched := { Sched.reset with
    state := .running, running := #v[some 0, none, none, none], slots := Sched.reset.slots.set 0 (some emptyImage) }
  mbx := State.reset.mbx.set 0 { Mbx.reset with bulkMapped := true, poseSub := some headSub } }

/-- A count of 1 at the head of a window that lies at address 0 is a byte that is not zero. -/
theorem State.windowWrites_head_ne {s : State} {i : Fin 8} (mapped : s.mbx[i].bulkMapped = true) (base : s.mbx[i].bulkBase = 0)
    (mem : s.mem = []) (r : List Byte) : ((s.windowWrite i 64 r).windowWrite i 0 (natLe 8 1)).mem ≠ [] := by
  have wf : memWf (s.windowWrite i 64 r).mem = true := by
    simp only [State.windowWrite, mapped, mem, if_true]
    exact memWf_memWriteN _ _ rfl
  have written : ((s.windowWrite i 64 r).windowWrite i 0 (natLe 8 1)).mem = memWriteN (s.windowWrite i 64 r).mem 0 (natLe 8 1) := by
    simp only [State.windowWrite, mapped, base, if_true]
  intro none
  have back := memReadN_memWriteN 0 (natLe 8 1) wf
  rw [← written, none] at back
  exact absurd back (by decide)

/-- The panic of that device publishes a record, whose count goes to the head of the window. -/
theorem serviceWitness_fatal_mem : (serviceWitness.fatal false 0x10 0x1006 0 0 0).mem ≠ [] := by
  obtain ⟨n, isNoted⟩ : ∃ n, serviceWitness.fatalNoted false 0x10 0x1006 0 0 0 = n := ⟨_, rfl⟩
  have noted := serviceWitness.fatalNoted_outside false 0x10 0x1006 0 0 0
  have dev := serviceWitness.fatalNoted_dev false 0x10 0x1006 0 0 0
  rw [State.fatal_eq]
  rw [isNoted] at noted dev ⊢
  have ready : n.dev.phase = .ready := by rw [dev]; rfl
  have service : n.permitService = true := by
    unfold State.permitService State.image State.isReady
    rw [noted.sched, dev]
    decide
  rw [if_pos ready, State.enterFault_of_service (by rw [dev]; exact ⟨rfl, rfl⟩) (by rw [noted.fw]; rfl) (by rw [noted.fw]; rfl) service]
  obtain ⟨t, r, permit, outside, published⟩ := n.faultEntered.permitCheck.publish_eq
  have reached := ((noted.trans n.faultEntered_outside).trans n.faultEntered.permitCheck_outside).trans outside
  have mbx : t.mbx = serviceWitness.mbx := reached.mbx
  have mem : t.mem = [] := reached.mem
  rw [published]
  have split : List.finRange 8 = 0 :: [1, 2, 3, 4, 5, 6, 7] := by decide
  have others : ∀ i ∈ [1, 2, 3, 4, 5, 6, (7 : Fin 8)], (t.poseDeliver 0 r permit).mbx[i].poseSub = none := fun i other => by
    have apart : i ≠ 0 := fun e => by simp [e] at other
    rw [State.poseDeliver_other apart, mbx]
    revert i
    decide
  rw [split, List.foldl_cons, State.poseDelivers_of_none _ others, State.poseDeliver_mem (p := headSub) (by rw [mbx]; rfl) rfl]
  have window : t.mbx[(0 : Fin 8)].bulkMapped = true ∧ t.mbx[(0 : Fin 8)].bulkBase = 0 := by
    rw [mbx]
    exact ⟨rfl, rfl⟩
  exact State.windowWrites_head_ne window.1 window.2 mem r

end Sys2Proof.Machine

open Sys2Proof Sys2Proof.Machine

/-- Refutes O57: a panic of a READY device in service publishes a record that is not valid (R249), which goes to the windows of the
mailboxes that subscribe to the pose, so the clause that memory stays fails. -/
theorem not_fatalErrorsStopTheDevice : ¬ Obligations.FatalErrorsStopTheDevice := by
  unfold Obligations.FatalErrorsStopTheDevice
  intro h
  obtain ⟨panics, -⟩ := h serviceWitness
  obtain ⟨t, run, -, -, -, -, -, -, -, mem, -⟩ := panics 0 0 (by decide)
  have isPanic : t = serviceWitness.fatal false 0x10 0x1006 0 0 0 := (Host.Outcome.next.inj run).symm
  exact serviceWitness_fatal_mem (isPanic ▸ mem)

end

section
set_option Elab.async false
/-!
PROOFS. Disciplined time (chapter 2): time that advances, the time bases, trigger pins, the bridge, and the claim about TIME_ALIGN that fails.
-/
namespace Sys2Proof.Machine
open State (Outside)

/-! ## TIME_ALIGN across half the range of the counters -/

/-- A READY device with no schedule, whose schedule time is 0 and whose source, a LOCKED base, has half the range of its counter. -/
def farWitness : State := { State.reset with
  dev := { Dev.reset with phase := .ready, fwUp := true, portUp := true, everReady := true }
  mbx := State.reset.mbx.set 0 { Mbx.reset with state := .opened }
  tu := { TimeUnit.reset with
    baseA := { TimeUnit.reset.baseA with count := BitVec.ofNat 96 (2 ^ 95), state := .locked }, source := 0, aligned := true } }

/-- A TIME_ALIGN of mailbox 0. -/
def alignEntry : Entry :=
  { mbx := 0, tag := 1, partition := 0, flags := 0, reserved := 0, bulkOffset := 0, bulkLength := 0, payload := List.replicate 240 0 }

theorem farWitness_accepts : farWitness.Accepts 0x0402 alignEntry := by
  exact ⟨by decide, rfl, by decide, by decide, by decide +kernel⟩

/-- The difference of the two wraps to a negative one, so schedule time is left. -/
theorem farWitness_alignDt : farWitness.alignDt = farWitness := by
  have behind : ¬ 0 < fixDiff (farWitness.tu.sourceNow farWitness.tu.source) farWitness.tu.dt.toNat := by decide
  have aligned : ¬ (!farWitness.tu.aligned) = true := by decide
  unfold State.alignDt
  rw [if_neg aligned, if_neg behind]

/-! ## Time advances (R28, R33 to R35) -/

theorem BaseClock.inc_pos (b : BaseClock) : 0 < b.inc := by
  have low := b.rate.le_toInt
  simp only [BaseClock.inc, q32]
  omega

theorem TimeUnit.sourceInc_pos (t : TimeUnit) (src : BitVec 2) : 0 < t.sourceInc src := by
  unfold TimeUnit.sourceInc
  split
  · exact t.baseA.inc_pos
  · split
    · exact t.baseB.inc_pos
    · have low := t.hoRate.le_toInt
      simp only [q32]
      omega

/-- The slew takes from an error no more than the error and no more than its limit. -/
theorem slewed_within (err lim : Int) (n : Nat) (pos : 0 ≤ lim) :
    (err - slewed err lim n).natAbs ≤ err.natAbs ∧ (err - slewed err lim n).natAbs ≤ (n * lim).natAbs := by
  have room : 0 ≤ n * lim := Int.mul_nonneg (Int.natCast_nonneg n) pos
  unfold slewed
  generalize (n : Int) * lim = most at room ⊢
  split
  · omega
  · split <;> omega

/-- The time unit after n cycles. -/
def TimeUnit.ticked (t : TimeUnit) (n : Nat) : TimeUnit :=
  let lim := t.sourceInc t.source * t.slewPpm.toNat / 1000000
  { t with
    dt := advance t.dt (n * t.sourceInc t.source + (t.err - slewed t.err lim n)), tbl := advance t.tbl (n * (4 * q32))
    baseA := { t.baseA with count := advance t.baseA.count (n * t.baseA.inc) }
    baseB := { t.baseB with count := advance t.baseB.count (n * t.baseB.inc) }
    slewing := decide (4 * q32 < (slewed t.err lim (n - 1)).natAbs), dtFar := decide (secNs * q32 < (slewed t.err lim (n - 1)).natAbs) }

/-- Time that runs moves the time unit, and a difference that grows large is recorded. -/
theorem State.timeCycles_of_running {s : State} {n : Nat} (some : n ≠ 0) (runs : s.timeStopped = false) :
    (s.timeCycles n).tu = s.tu.ticked n ∧ { s.timeCycles n with tu := s.tu, evr := s.evr } = s := by
  unfold State.timeCycles TimeUnit.ticked
  rw [if_neg (by simp [some, runs])]
  dsimp only
  split
  · constructor
    · simp only [State.event_tu]
    · apply State.ext <;> simp
  · exact ⟨rfl, rfl⟩

theorem advance_ticks (t : TimeFix) (n : Nat) : (advance t (n * (4 * q32))).toNat = (t.toNat + n * 2 ^ 34) % 2 ^ 96 := by
  have whole : (t.toNat : Int) + n * (4 * q32) = ((t.toNat + n * 2 ^ 34 : Nat) : Int) := by
    simp only [q32]
    omega
  unfold advance
  rw [whole, BitVec.ofInt_natCast, BitVec.toNat_ofNat]

/-! ## The time bases -/

@[simp] theorem State.updBase_base_self (s : State) (b : Base) (f : BaseClock → BaseClock) :
    (s.updBase b f).tu.base b = f (s.tu.base b) := by
  cases b <;> rfl

theorem State.updBase_base_other (s : State) (b : Base) (f : BaseClock → BaseClock) :
    (s.updBase b f).tu.base (otherBase b) = s.tu.base (otherBase b) := by
  cases b <;> rfl

theorem State.updBase_tu (s : State) (b : Base) (f : BaseClock → BaseClock) : (s.updBase b f).tu =
    { s.tu with baseA := (s.updBase b f).tu.baseA, baseB := (s.updBase b f).tu.baseB } := by
  cases b <;> rfl

/-- Two time units that may differ in the holdover model, the source and the flags of a drift: their bases, schedule time and PPS
state are the same. -/
def TimeUnit.sameBases (t u : TimeUnit) : Prop := u = { t with
  source := u.source, fit := u.fit, fitted := u.fitted, hoOffset := u.hoOffset, hoRate := u.hoRate, hoResid := u.hoResid
  hoFitAt := u.hoFitAt, hoFrom := u.hoFrom, hoSince := u.hoSince, disagree := u.disagree }

theorem TimeUnit.sameBases.refl (t : TimeUnit) : t.sameBases t := rfl

theorem TimeUnit.sameBases.trans {t u v : TimeUnit} (first : t.sameBases u) (second : u.sameBases v) : t.sameBases v := by
  unfold TimeUnit.sameBases at *
  rw [second, first]

theorem TimeUnit.sameBases.base {t u : TimeUnit} (h : t.sameBases u) (b : Base) : u.base b = t.base b := by
  rw [h]
  cases b <;> rfl

theorem TimeUnit.sameBases.dt {t u : TimeUnit} (h : t.sameBases u) : u.dt = t.dt := by rw [h]

theorem State.reselect_sameBases (s : State) : s.tu.sameBases s.reselect.tu := by
  have entered : s.tu.sameBases (if s.tu.chosen = 2 ∧ !s.tu.fitted then
      { s with tu := { s.tu with
        hoOffset := (s.tu.dt.toNat : Int) - s.tu.tbl.toNat, hoRate := 0, hoFrom := TimeFix.ns s.tu.tbl } } else s).tu := by
    split <;> rfl
  unfold State.reselect
  dsimp only
  split
  · exact .refl _
  · refine entered.trans ?_
    generalize (if s.tu.chosen = 2 ∧ !s.tu.fitted then
      { s with tu := { s.tu with
        hoOffset := (s.tu.dt.toNat : Int) - s.tu.tbl.toNat, hoRate := 0, hoFrom := TimeFix.ns s.tu.tbl } } else s) = t
    dsimp only
    split
    · simp [TimeUnit.sameBases]
    · split <;> simp [TimeUnit.sameBases]

theorem State.checkDrift_sameBases (s : State) (b : Base) : s.tu.sameBases (s.checkDrift b).tu := by
  unfold State.checkDrift
  dsimp only
  split
  · split
    · rw [State.event_tu]
      rfl
    · rfl
  · rfl

theorem State.fitModel_sameBases (s : State) (b : Base) : s.tu.sameBases (s.fitModel b).tu := by
  unfold State.fitModel
  dsimp only
  split <;> rfl

/-- A change of state clears the runs of measurements; to the same state it does nothing. -/
theorem State.setBase_base (s : State) (b : Base) (st : BaseState) : (s.setBase b st).tu.base b =
    if (s.tu.base b).state = st then s.tu.base b else { s.tu.base b with state := st, goodRun := 0, badRun := 0 } := by
  unfold State.setBase
  split
  · rfl
  · dsimp only
    split <;> simp

theorem State.setBase_state (s : State) (b : Base) (st : BaseState) : ((s.setBase b st).tu.base b).state = st := by
  rw [State.setBase_base]
  split
  next same => exact same
  next => rfl

theorem State.setBase_other (s : State) (b : Base) (st : BaseState) :
    (s.setBase b st).tu.base (otherBase b) = s.tu.base (otherBase b) ∧ (s.setBase b st).tu.dt = s.tu.dt := by
  unfold State.setBase
  split
  · exact ⟨rfl, rfl⟩
  · dsimp only
    split
    · simp only [State.event_tu]
      exact ⟨State.updBase_base_other _ _ _, by rw [State.updBase_tu]⟩
    · exact ⟨State.updBase_base_other _ _ _, by rw [State.updBase_tu]⟩

/-- A base with its first measurement. -/
def BaseClock.measured (c : BaseClock) (e pd master : Int) (now : Nat) : BaseClock :=
  { c with prev := some { offset := e, pdelay := pd }, lastChange := none, master := some master, measAt := now }

/-- The first measurement of a base that acquires is applied (R31). -/
theorem State.measureOn_of_first {s : State} {b : Base} (acquiring : (s.tu.base b).state = .acquiring)
    (first : (s.tu.base b).prev = none) (e pd : Int) : ∃ m, s.measureOn b e pd =
      (((s.updBase b fun c => c.measured e pd m s.tblNs).applyMeasure b e pd).checkDrift b).fitModel b := by
  refine ⟨((s.tu.base b).count.toNat : Int) / q32 - e - s.tblNs, ?_⟩
  have calm : s.tu.asymmetric b e pd = none := by simp [TimeUnit.asymmetric, first]
  have noted : (s.updBase b fun c => { c with
      prev := some { offset := e, pdelay := pd }, lastChange := c.prev.map fun p => e - p.offset
      master := some (((s.tu.base b).count.toNat : Int) / q32 - e - s.tblNs), measAt := s.tblNs })
      = s.updBase b fun c => c.measured e pd (((s.tu.base b).count.toNat : Int) / q32 - e - s.tblNs) s.tblNs := by
    cases b
    · have none : s.tu.baseA.prev = none := first
      simp [State.updBase, BaseClock.measured, none]
    · have none : s.tu.baseB.prev = none := first
      simp [State.updBase, BaseClock.measured, none]
  unfold State.measureOn
  simp only [acquiring, calm, reduceCtorEq, if_false]
  rw [noted]

/-- Beyond 1 ms the counter is stepped by the measurement (R31). -/
theorem State.applyMeasure_of_far {s : State} {b : Base} (acquiring : (s.tu.base b).state = .acquiring) {e : Int}
    (far : 1000000 < e.natAbs) (pd : Int) : (s.applyMeasure b e pd).tu.base b = { s.tu.base b with
      count := advance (s.tu.base b).count (-e * q32), integ := 0, prev := some { offset := 0, pdelay := pd }, goodRun := 0, badRun := 0 } := by
  unfold State.applyMeasure
  rw [if_pos far]
  simp only [State.event_tu]
  have back : ∀ t : State, t.ppsOutBack.tu.base b = t.tu.base b := fun t => by cases b <;> rfl
  rw [back, State.setBase_base, State.updBase_base_self, if_pos acquiring]

/-- A base that acquires counts the measurements within LOCK_NS (R32). -/
theorem State.countRun_of_acquiring {s : State} {b : Base} (acquiring : (s.tu.base b).state = .acquiring) (e : Int) :
    (s.countRun b e).tu.base b =
      let good := if e.natAbs ≤ s.tu.lockNs.toNat then (s.tu.base b).goodRun + 1 else 0
      if 8 ≤ good ∧ !(s.tu.base b).awaitsTod then { s.tu.base b with state := .locked, goodRun := 0, badRun := 0 }
      else { s.tu.base b with goodRun := good } := by
  unfold State.countRun
  simp only [acquiring]
  generalize (if e.natAbs ≤ s.tu.lockNs.toNat then (s.tu.base b).goodRun + 1 else 0) = good
  split
  · rw [State.setBase_base, State.updBase_base_self, if_neg (by simp [acquiring])]
  · simp only [State.updBase_base_self, acquiring]

theorem State.applyMeasure_of_near {s : State} {b : Base} {e : Int} (near : e.natAbs ≤ 1000000) (pd : Int) :
    s.applyMeasure b e pd = (s.updBase b fun c => c.servo e).countRun b e := by
  unfold State.applyMeasure
  rw [if_neg (by omega)]

/-- What the first measurement of a base that acquires leaves of the base is what its application leaves. -/
theorem State.measure_of_first {s : State} {b : Base} (acquiring : (s.tu.base b).state = .acquiring)
    (first : (s.tu.base b).prev = none) (e pd : Int) : ∃ m, (s.measure b e pd).tu.base b =
      ((s.updBase b fun c => c.measured e pd m s.tblNs).applyMeasure b e pd).tu.base b := by
  obtain ⟨m, measured⟩ := State.measureOn_of_first acquiring first e pd
  refine ⟨m, ?_⟩
  unfold State.measure
  rw [if_neg (by simp [acquiring]), (State.reselect_sameBases _).base, measured, (State.fitModel_sameBases _ _).base,
    (State.checkDrift_sameBases _ _).base]

theorem BaseClock.servo_measured (c : BaseClock) (e pd m : Int) (now : Nat) :
    ((c.measured e pd m now).servo e).rate = (c.servo e).rate ∧ ((c.measured e pd m now).servo e).count = c.count
      ∧ ((c.measured e pd m now).servo e).state = c.state ∧ ((c.measured e pd m now).servo e).goodRun = c.goodRun
      ∧ ((c.measured e pd m now).servo e).srcPps = c.srcPps := ⟨rfl, rfl, rfl, rfl, rfl⟩

/-- A first measurement within 1 ms goes to the servo, and is counted against LOCK_NS (R31, R32). -/
theorem State.measure_of_near {s : State} {b : Base} (acquiring : (s.tu.base b).state = .acquiring)
    (first : (s.tu.base b).prev = none) {e : Int} (near : e.natAbs ≤ 1000000) (pd : Int) :
    ((s.measure b e pd).tu.base b).count = (s.tu.base b).count ∧ ((s.measure b e pd).tu.base b).rate = ((s.tu.base b).servo e).rate
      ∧ (e.natAbs ≤ s.tu.lockNs.toNat → (s.tu.base b).goodRun = 7 → (s.tu.base b).srcPps = false →
          ((s.measure b e pd).tu.base b).state = .locked)
      ∧ (s.tu.lockNs.toNat < e.natAbs →
          ((s.measure b e pd).tu.base b).state = .acquiring ∧ ((s.measure b e pd).tu.base b).goodRun = 0) := by
  obtain ⟨m, measured⟩ := State.measure_of_first acquiring first e pd
  obtain ⟨rate, count, state, run, pps⟩ := (s.tu.base b).servo_measured e pd m s.tblNs
  have lock : ((s.updBase b fun c => c.measured e pd m s.tblNs).updBase b fun c => c.servo e).tu.lockNs = s.tu.lockNs := by
    cases b <;> rfl
  rw [State.applyMeasure_of_near near, State.countRun_of_acquiring (by simp only [State.updBase_base_self]; rw [state, acquiring]),
    lock] at measured
  simp only [State.updBase_base_self] at measured
  generalize ((s.tu.base b).measured e pd m s.tblNs).servo e = c at rate count state run pps measured
  rw [measured]
  refine ⟨?_, ?_, fun good seven network => ?_, fun bad => ?_⟩
  · rw [← count]
    split <;> split <;> rfl
  · rw [← rate]
    split <;> split <;> rfl
  · have aware : c.awaitsTod = false := by simp [BaseClock.awaitsTod, pps, network]
    simp [good, run, seven, aware]
  · simp [Nat.not_le.mpr bad, state, acquiring]

/-- The write of `TB_x_OFFSET_HI` measures, after the link delay of a peer-to-peer port is noted. -/
theorem State.offsetHi_eq (s : State) (b : Base) (v : Word) : ∃ t : State, t.tu.base b = s.tu.base b ∧ t.tu.lockNs = s.tu.lockNs
    ∧ s.offsetHi b v = t.measure b (signedOf 64 (v.toNat * 2 ^ 32 + (s.tu.base b).offsetLo.toNat)) (s.tu.base b).pdelay.toInt := by
  unfold State.offsetHi
  refine ⟨_, ?_, ?_, rfl⟩
  · split
    · cases b <;> rfl
    · rfl
  · split <;> rfl

/-! ## Edges of PPS_IN -/

theorem State.edgeAt_of_offPps {s : State} {b : Base} (off : (s.tu.base b).onPps = false) : s.edgeAt b = s := by
  simp [State.edgeAt, off]

theorem State.giveTod_of_offPps {s : State} {b : Base} (off : (s.tu.base b).onPps = false) (seconds : Nat) : s.giveTod b seconds = s := by
  simp [State.giveTod, off]

/-- With no base on PPS the waiting TIME_SET_TOD commands only complete. -/
theorem State.takeTods_tu {s : State} (off : ∀ b, (s.tu.base b).onPps = false) : s.takeTods.tu = s.tu := by
  have kept : ∀ (l : List Job) (t : State), t.tu = s.tu → (l.foldl (fun (s : State) (j : Job) =>
      match j.kind with
      | .setTod b seconds => (s.giveTod b seconds).completeJob j stOk 0 0 0 0 s.dtNs
      | _ => s) t).tu = s.tu := by
    intro l
    induction l with
    | nil => exact fun t same => same
    | cons j l ih =>
      intro t same
      refine ih _ ?_
      dsimp only
      split
      · rw [State.completeJob_tu, State.giveTod_of_offPps (by rw [same]; exact off _), same]
      · exact same
  exact kept _ s rfl

theorem State.correctRate_spec (s : State) (before : Option Nat) : s.tu.sameBases (s.correctRate before).tu := by
  unfold State.correctRate
  split
  · dsimp only
    split <;> rfl
  · rfl

theorem State.dtNs_lt (s : State) : s.dtNs < 2 ^ 64 := by
  have small := s.tu.dt.isLt
  unfold State.dtNs TimeFix.ns
  omega

/-- An edge that no base follows is captured (R49). -/
theorem State.ppsEdge_of_offPps {s : State} (driven : s.pinsDriven = true) (offA : s.tu.baseA.onPps = false)
    (offB : s.tu.baseB.onPps = false) : ({ s.tu with
      ppsCapt := BitVec.ofNat 64 s.dtNs, ppsValid := true, ppsLast := some s.tblNs, ppsMissed := 0 }).sameBases s.ppsEdge.tu := by
  have taken : s.ppsEdge = (State.correctRate { s with tu := { s.tu with
      ppsCapt := BitVec.ofNat 64 s.dtNs, ppsValid := true, ppsLast := some s.tblNs, ppsMissed := 0 } } s.tu.ppsLast).takeTods := by
    have first : s.edgeAt .tbA = s := State.edgeAt_of_offPps offA
    have second : s.edgeAt .tbB = s := State.edgeAt_of_offPps offB
    unfold State.ppsEdge
    simp [driven, BaseClock.refusesEdge, offA, offB, first, second]
  have same := State.correctRate_spec { s with tu := { s.tu with
      ppsCapt := BitVec.ofNat 64 s.dtNs, ppsValid := true, ppsLast := some s.tblNs, ppsMissed := 0 } } s.tu.ppsLast
  rw [taken, State.takeTods_tu]
  · exact same
  · intro b
    rw [same.base]
    cases b
    · exact offA
    · exact offB

/-- An edge that base A refuses, fewer than three in a row, is counted there and nowhere else (R49). -/
theorem State.ppsEdge_of_refused {s : State} (driven : s.pinsDriven = true) (refused : s.tu.baseA.refusesEdge = true)
    (few : s.tu.baseA.ppsRejects < 2) (offB : s.tu.baseB.onPps = false) : s.ppsEdge.tu = { s.tu with
      baseA := { s.tu.baseA with ppsRejects := s.tu.baseA.ppsRejects + 1, ppsAcceptNext := false } } := by
  have on : s.tu.baseA.onPps = true := by
    simp only [BaseClock.refusesEdge, Bool.and_eq_true] at refused
    exact refused.1.1
  have early : ¬ 3 ≤ s.tu.baseA.ppsRejects + 1 := by omega
  have first : (s.edgeAt .tbA).tu = { s.tu with
      baseA := { s.tu.baseA with ppsRejects := s.tu.baseA.ppsRejects + 1, ppsAcceptNext := false } } := by
    simp [State.edgeAt, TimeUnit.base, on, refused, State.rejectEdge, early, State.updBase]
  have second : (s.edgeAt .tbA).edgeAt .tbB = s.edgeAt .tbA := State.edgeAt_of_offPps (by rw [first]; exact offB)
  unfold State.ppsEdge
  simp only [driven, refused, second, Bool.not_true, Bool.false_eq_true, if_false, Bool.true_or, if_true]
  exact first

/-! ## Trigger pins and PPS_OUT (R46 to R48) -/

@[simp] theorem State.updTrig_trigs_self (s : State) (n : Fin 16) (f : Trig → Trig) :
    (s.updTrig n f).tu.trigs[n] = f s.tu.trigs[n] := by
  simp [State.updTrig]

theorem State.updTrig_trigs_ne (s : State) {n k : Fin 16} (f : Trig → Trig) (other : k ≠ n) :
    (s.updTrig n f).tu.trigs[k] = s.tu.trigs[k] := by
  have apart : n.val ≠ k.val := fun e => other (Fin.ext e.symm)
  simp [State.updTrig, Vector.getElem_set_ne, apart]

theorem State.updTrig_tu (s : State) (n : Fin 16) (f : Trig → Trig) :
    (s.updTrig n f).tu = { s.tu with trigs := s.tu.trigs.set n (f s.tu.trigs[n]) } := rfl

theorem State.setTrigPin_self (s : State) (n : Fin 16) (v : Bool) : (s.setPin (.trigOut n) v).pins.trigOut[n] = v :=
  s.setPin_level (.trigOut n) v

theorem State.setTrigPin_ne (s : State) {n k : Fin 16} (v : Bool) (other : k ≠ n) :
    (s.setPin (.trigOut n) v).pins.trigOut[k] = s.pins.trigOut[k] :=
  (State.setPin_level_eq s (.trigOut n) (.trigOut k) v).trans (if_neg (by simp [other]))

/-- A pulse on an idle pin drives it active until its width has passed (R46). -/
theorem State.pulse_of_idle {s : State} {n : Fin 16} (idle : s.tu.trigs[n].pulseEnd = none) (width : Nat) : s.pulse n width =
    (s.updTrig n fun t => { t with pulseEnd := some (s.dtNs + pulseNs width) }).setPin (.trigOut n) (!s.tu.trigs[n].polarity) := by
  unfold State.pulse
  simp only [idle]
  rfl

/-- A pulse on an active pin extends it (R47). -/
theorem State.pulse_of_active {s : State} {n : Fin 16} {stop : Nat} (active : s.tu.trigs[n].pulseEnd = some stop) (width : Nat) :
    (s.pulse n width).pins = s.pins ∧ (s.pulse n width).tu.trigs[n].merged = true
      ∧ (s.pulse n width).tu.trigs[n].pulseEnd = some (max stop (s.dtNs + pulseNs width))
      ∧ { s.pulse n width with tu := { (s.pulse n width).tu with trigs := s.tu.trigs }, evr := s.evr } = s := by
  unfold State.pulse
  simp only [active]
  split
  · refine ⟨State.updTrig_pins _ _ _, ?_, ?_, ?_⟩
    · simp only [State.updTrig_trigs_self]
    · simp only [State.updTrig_trigs_self]
    · rfl
  · refine ⟨?_, ?_, ?_, ?_⟩
    · rw [State.event_pins, State.updTrig_pins]
    · simp only [State.event_tu, State.updTrig_trigs_self]
    · simp only [State.event_tu, State.updTrig_trigs_self]
    · apply State.ext <;> simp [State.updTrig_tu]

theorem State.trigStart_of_programmed {s : State} {n : Fin 16} (driven : s.pinsDriven = true)
    (mode : s.tu.trigs[n].mode = 1 ∨ s.tu.trigs[n].mode = 2) : s.trigStart n = s.programmedPulse n := by
  unfold State.trigStart
  simp only [driven, Bool.not_true, Bool.false_eq_true, if_false]
  rcases mode with one | two
  · simp only [one]
    rfl
  · simp only [two]
    rfl

/-- A programmed pin at its instant pulses, a periodic one with its next instant set (R46). -/
theorem State.trigStart_of_due {s : State} {n : Fin 16} {at' : Nat} (driven : s.pinsDriven = true)
    (mode : s.tu.trigs[n].mode = 1 ∨ s.tu.trigs[n].mode = 2) (next : s.tu.trigs[n].nextAt = some at') (due : at' ≤ s.dtNs) :
    s.trigStart n = (s.updTrig n fun t => { t with
      nextAt := if t.mode = 2 then some (at' + t.period.toNat) else none }).pulse n s.tu.trigs[n].width.toNat := by
  rw [State.trigStart_of_programmed driven mode]
  unfold State.programmedPulse
  simp only [next, if_neg (Nat.not_lt.mpr due)]

/-! ## The Ethernet bridge (R44, R45) -/

theorem signedOf_emod (n v : Nat) : (signedOf n v) % 2 ^ n = (v : Int) % 2 ^ n := by
  unfold signedOf
  split
  · simp
  · simp

/-- The correction field of a Sync is the old one and what is added, as a 64-bit number, and no other byte differs. -/
theorem addCorrection_spec (f : List Byte) (d : Nat) (room : 30 ≤ f.length) :
    beAt (addCorrection f 14 none d) 22 8 = (beAt f 22 8 + d) % 2 ^ 64 ∧ (addCorrection f 14 none d).take 22 = f.take 22
      ∧ (addCorrection f 14 none d).drop 30 = f.drop 30 := by
  have corrected : addCorrection f 14 none d = f.take 22
      ++ (natLe 8 (patOf 64 (signedOf 64 (beAt f 22 8) + d))).reverse ++ f.drop 30 := rfl
  have head : (f.take 22).length = 22 := by simp; omega
  have field : ((natLe 8 (patOf 64 (signedOf 64 (beAt f 22 8) + d))).reverse).length = 8 := by simp [natLe]
  rw [corrected]
  refine ⟨?_, ?_, ?_⟩
  · have sum : (signedOf 64 (beAt f 22 8) + d) % ((2 ^ 64 : Nat) : Int) = (((beAt f 22 8 + d) % 2 ^ 64 : Nat) : Int) := by
      have old := signedOf_emod 64 (beAt f 22 8)
      omega
    have pattern : patOf 64 (signedOf 64 (beAt f 22 8) + d) = (beAt f 22 8 + d) % 2 ^ 64 := by
      rw [patOf, sum, Int.toNat_natCast]
    rw [pattern] at field ⊢
    have small : (beAt f 22 8 + d) % 2 ^ 64 < 256 ^ 8 := Nat.mod_lt _ (by decide)
    generalize (beAt f 22 8 + d) % 2 ^ 64 = v at field small ⊢
    unfold beAt
    rw [List.append_assoc, List.drop_left' head, List.take_left' field, beNat, List.reverse_reverse, leNat_natLe,
      Nat.mod_eq_of_lt small]
  · rw [List.append_assoc, List.take_left' head]
  · rw [List.drop_left' (by rw [List.length_append, head, field])]

/-- Without a peer-to-peer delay no link delay is added. -/
theorem State.bridge_of_ptp {s : State} {p : EthPort} {f : List Byte} (on : s.dev.ethForward = true) (ptp : ptpAt f = some (14, none))
    (ns : Nat) : s.bridge p f ns =
      let r := s.bridgePtp p f 14 none (s.tu.residence (beAt f 18 1) ns)
      { r.2 with tu := { r.2.tu with bridged := some (decide (p = .portB), r.1) } } := by
  unfold State.bridge
  simp only [on, ptp, Bool.not_true, Bool.false_eq_true, if_false]

end Sys2Proof.Machine

open Sys2Proof Sys2Proof.Machine

/-- Refutes O7: R33's difference is a signed 64.32 one, so a source that is ahead by half the range of the counters reads as behind, and
TIME_ALIGN leaves schedule time. -/
theorem not_timeCommandsAnswer : ¬ Obligations.TimeCommandsAnswer := by
  unfold Obligations.TimeCommandsAnswer
  intro h
  obtain ⟨-, -, aligned, -⟩ := h farWitness alignEntry
  obtain ⟨-, -, ahead, -⟩ := aligned farWitness_accepts rfl rfl
  obtain ⟨dt, -, -⟩ := ahead rfl (by decide)
  rw [farWitness_alignDt] at dt
  exact absurd dt (by decide)

/-- Settles O40: the slew of an error stays within the error and the limit. -/
theorem timeAdvances : Obligations.TimeAdvances := by
  intro s n
  refine ⟨fun still => congrArg Host.Outcome.next (if_pos still), fun some runs => ⟨s.timeCycles n, rfl, ?_⟩⟩
  obtain ⟨tu, rest⟩ := State.timeCycles_of_running some runs
  rw [tu]
  have limit : 0 ≤ s.tu.sourceInc s.tu.source * s.tu.slewPpm.toNat / 1000000 :=
    Int.ediv_nonneg (Int.mul_nonneg (Int.le_of_lt (s.tu.sourceInc_pos _)) (Int.natCast_nonneg _)) (by decide)
  obtain ⟨error, slew⟩ := slewed_within s.tu.err _ n limit
  refine ⟨advance_ticks _ _, rfl, rfl, ⟨_, rfl, error, slew⟩, fun first => ?_, rfl, rest⟩
  have none : s.tu.err = 0 := by simp [TimeUnit.err, first]
  simp [TimeUnit.ticked, none, slewed]

/-- Settles O41: what a measurement, a timeout and an edge leave of the base they concern. -/
theorem basesFollowTheirSources : Obligations.BasesFollowTheirSources := by
  intro s b
  refine ⟨fun v runs => ⟨fun disabled => ?_, fun acquiring first far => ?_, fun acquiring first near => ?_⟩,
    fun enabled present known runs due => ?_, fun early => ?_, fun driven offA offB => ?_, fun idle => ?_,
    fun driven refused few offB => ?_, fun l last runs => ⟨fun due => ?_, fun early => ?_⟩⟩
  · obtain ⟨t, base, -, written⟩ := s.offsetHi_eq b v
    refine ⟨s.offsetHi b v, congrArg Host.Outcome.next (if_neg (by simp [runs])), ?_⟩
    rw [written, State.measure, if_pos (by rw [base, disabled]), base]
  · obtain ⟨t, base, -, written⟩ := s.offsetHi_eq b v
    refine ⟨s.offsetHi b v, congrArg Host.Outcome.next (if_neg (by simp [runs])), ?_⟩
    obtain ⟨m, measured⟩ := State.measure_of_first (s := t) (base ▸ acquiring) (base ▸ first)
      (signedOf 64 (v.toNat * 2 ^ 32 + (s.tu.base b).offsetLo.toNat)) (s.tu.base b).pdelay.toInt
    rw [State.applyMeasure_of_far (by rw [State.updBase_base_self, base]; exact acquiring) far, State.updBase_base_self, base]
      at measured
    rw [written, measured]
    exact ⟨rfl, rfl, rfl, acquiring⟩
  · obtain ⟨t, base, lock, written⟩ := s.offsetHi_eq b v
    refine ⟨s.offsetHi b v, congrArg Host.Outcome.next (if_neg (by simp [runs])), ?_⟩
    have after := State.measure_of_near (s := t) (base ▸ acquiring) (base ▸ first) near (s.tu.base b).pdelay.toInt
    rw [base, lock] at after
    rw [written]
    exact after
  · have late : s.baseTimeout b = (s.setBase b .lost).reselect := by simp [State.baseTimeout, enabled, present, known, due, runs]
    refine ⟨_, congrArg Host.Outcome.next late, ?_⟩
    have selected := (s.setBase b .lost).reselect_sameBases
    obtain ⟨other, dt⟩ := s.setBase_other b .lost
    rw [selected.base, selected.base, selected.dt]
    exact ⟨s.setBase_state b .lost, other, dt⟩
  · have still : s.baseTimeout b = s := by
      rcases early with early | waits
      · simp [State.baseTimeout, Nat.not_le.mpr early]
      · simp [State.baseTimeout, waits]
    exact congrArg Host.Outcome.next still
  · refine ⟨s.ppsEdge, rfl, ?_⟩
    have after := State.ppsEdge_of_offPps driven offA offB
    rw [after]
    refine ⟨?_, rfl, rfl, rfl, rfl⟩
    exact Nat.mod_eq_of_lt s.dtNs_lt
  · have still : s.ppsEdge = s := by simp [State.ppsEdge, idle]
    exact congrArg Host.Outcome.next still
  · refine ⟨s.ppsEdge, rfl, ?_⟩
    rw [State.ppsEdge_of_refused driven refused few offB]
    exact ⟨rfl, rfl, rfl⟩
  · refine ⟨s.ppsLoss, rfl, ?_⟩
    have late : ¬ (s.tblNs < l + (s.tu.ppsMissed + 1) * 1000000000 + 1000000 ∨ s.timeStopped = true) := by
      simp only [runs, Bool.false_eq_true, or_false]
      omega
    unfold State.ppsLoss
    simp only [last, if_neg late]
    split
    · exact ⟨by rw [State.event_tu], by apply State.ext <;> simp⟩
    · exact ⟨rfl, rfl⟩
  · have still : s.ppsLoss = s := by simp [State.ppsLoss, last, early]
    exact congrArg Host.Outcome.next still

/-- Settles O42: a pulse drives its pin, or extends the one that is active. -/
theorem pulsePinsAreDriven : Obligations.PulsePinsAreDriven := by
  intro s n
  refine ⟨fun at' driven mode next => ⟨fun due idle => ?_, fun stop due active => ?_, fun early => ?_⟩,
    fun d driven mode idle plain found => ?_, fun stop active => ⟨fun due => ?_, fun early => ?_⟩, fun on driven second => ?_,
    fun marked => ?_, fun stop active due => ?_⟩
  · refine ⟨s.trigStart n, rfl, ?_⟩
    rw [State.trigStart_of_due driven mode next due, State.pulse_of_idle (by simp only [State.updTrig_trigs_self]; exact idle)]
    refine ⟨?_, ?_, fun k other => ⟨?_, ?_⟩, ?_⟩
    · rw [State.setTrigPin_self]
      simp only [State.updTrig_trigs_self]
    · simp only [State.setPin_tu, State.updTrig_trigs_self]
      rfl
    · simp only [State.setPin_tu]
      rw [State.updTrig_trigs_ne _ _ other, State.updTrig_trigs_ne _ _ other]
    · rw [State.setTrigPin_ne _ _ other, State.updTrig_pins, State.updTrig_pins]
    · apply State.ext <;> simp [State.updTrig_tu]
  · refine ⟨s.trigStart n, rfl, ?_⟩
    rw [State.trigStart_of_due driven mode next due]
    obtain ⟨pins, merged, until_, rest⟩ := State.pulse_of_active (s := s.updTrig n fun t => { t with
      nextAt := if t.mode = 2 then some (at' + t.period.toNat) else none }) (n := n) (stop := stop)
      (by simp only [State.updTrig_trigs_self]; exact active) s.tu.trigs[n].width.toNat
    exact ⟨pins, merged, until_, congrArg (fun u : State => { u with tu := { u.tu with trigs := s.tu.trigs } }) rest⟩
  · have still : s.trigStart n = s := by
      rw [State.trigStart_of_programmed driven mode]
      unfold State.programmedPulse
      simp only [next, if_pos early]
    exact congrArg Host.Outcome.next still
  · refine ⟨s.trigStart n, rfl, ?_⟩
    have fired : s.trigStart n = State.pulse { s with tu := { s.tu with table := s.tu.table.erase d } } n d.width := by
      have image : s.trigStart n = s.imagePulse n := by
        unfold State.trigStart
        simp only [driven, Bool.not_true, Bool.false_eq_true, if_false, mode]
        rfl
      rw [image]
      unfold State.imagePulse
      simp only [found, plain, Bool.false_eq_true, if_false]
    have noPulse : ({ s with tu := { s.tu with table := s.tu.table.erase d } } : State).tu.trigs[n].pulseEnd = none := idle
    rw [fired, State.pulse_of_idle noPulse]
    refine ⟨by rw [State.setPin_tu]; rfl, ?_, State.setTrigPin_self _ _ _⟩
    simp only [State.setPin_tu, State.updTrig_trigs_self]
    rfl
  · have ended : s.trigEnd n =
        (s.updTrig n fun t => { t with pulseEnd := none }).setPin (.trigOut n) s.tu.trigs[n].polarity := by
      unfold State.trigEnd
      simp only [active, if_neg (Nat.not_lt.mpr due)]
      rfl
    refine ⟨_, congrArg Host.Outcome.next ended, State.setTrigPin_self _ _ _, ?_, ?_⟩
    · simp only [State.setPin_tu, State.updTrig_trigs_self]
    · apply State.ext <;> simp [State.updTrig_tu]
  · have still : s.trigEnd n = s := by
      unfold State.trigEnd
      simp only [active, if_pos early]
    exact congrArg Host.Outcome.next still
  · have rises : s.ppsOutEdge =
        { s.setPin .ppsOut true with tu := { s.tu with ppsOutSec := s.tu.ppsOutNow, ppsOutEnd := some (s.dtNs + 10000000) } } := by
      simp [State.ppsOutEdge, on, driven, second]
    refine ⟨_, congrArg Host.Outcome.next rises, State.setPin_level _ .ppsOut true, rfl, ?_⟩
    apply State.ext <;> simp
  · have still : s.ppsOutEdge = s := by simp [State.ppsOutEdge, Nat.not_lt.mpr marked]
    exact congrArg Host.Outcome.next still
  · have falls : s.ppsOutDone = { s.setPin .ppsOut false with tu := { s.tu with ppsOutEnd := none } } := by
      simp [State.ppsOutDone, active, Nat.not_lt.mpr due]
    refine ⟨_, congrArg Host.Outcome.next falls, State.setPin_level _ .ppsOut false, rfl, ?_⟩
    apply State.ext <;> simp

/-- Settles O43: the bridge adds a residence to the correction field, or holds it for the Follow_Up. -/
theorem theBridgeCorrectsResidence : Obligations.TheBridgeCorrectsResidence := by
  intro s p f r
  refine ⟨fun off => ?_, fun on plain => ?_, fun d local_ => ?_, fun d served => ?_, fun on ptp sync ends room =>
    ⟨fun oneStep => ?_, fun twoStep empty => ?_⟩⟩
  · have still : s.bridge p f r = s := by simp [State.bridge, off]
    exact congrArg Host.Outcome.next still
  · have passed : s.bridge p f r = { s with tu := { s.tu with bridged := some (decide (p = .portB), f) } } := by
      simp [State.bridge, on, plain]
    exact congrArg Host.Outcome.next passed
  · simp [TimeUnit.residence, local_]
  · simp only [TimeUnit.residence, served, TimeUnit.base, q32]
    exact (Int.toNat_eq_max _).trans (Int.max_comm _ _)
  · have corrected : s.bridgePtp p f 14 none (s.tu.residence (beAt f 18 1) r) =
        (addCorrection f 14 none ((s.tu.residence (beAt f 18 1) r * 65536 : Nat) : Int), s) := by
      simp [State.bridgePtp, sync, ends, oneStep]
    have bridged := State.bridge_of_ptp (p := p) on ptp r
    rw [corrected] at bridged
    obtain ⟨field, before, after⟩ := addCorrection_spec f (s.tu.residence (beAt f 18 1) r * 65536) (by omega)
    exact ⟨_, congrArg Host.Outcome.next bridged, field, before, after⟩
  · have held : ∃ h : HeldSync, s.bridgePtp p f 14 none (s.tu.residence (beAt f 18 1) r) =
        (f, { s with tu := { s.tu with heldSyncs := [h] } }) ∧ h.residence = s.tu.residence (beAt f 18 1) r
        ∧ h.fromB = decide (p = .portB) ∧ h.domain = beAt f 18 1 ∧ h.seqId = beAt f 44 2 := by
      refine ⟨{ fromB := decide (p = .portB), domain := beAt f 18 1, seqId := beAt f 44 2, portId := (f.drop 34).take 10
                residence := s.tu.residence (beAt f 18 1) r }, ?_, rfl, rfl, rfl, rfl⟩
      simp [State.bridgePtp, sync, ends, twoStep, State.holdSync, empty]
    obtain ⟨h, written, residence, port, domain, seqId⟩ := held
    have bridged := State.bridge_of_ptp (p := p) on ptp r
    rw [written] at bridged
    exact ⟨_, h, congrArg Host.Outcome.next bridged, rfl, residence, port, domain, seqId⟩

end

section
set_option Elab.async false
/-!
PROOFS. The recorder (chapter 19): what is staged, written and archived.
-/
namespace Sys2Proof.Machine
open State (Outside)

/-! ## Staging -/

/-- The entry that an event stages (R422). -/
def State.entryOf (s : State) (source code a b c : Nat) : RecEntry :=
  { dt := BitVec.ofNat 64 s.dtNs, tblLo := BitVec.ofNat 32 s.tblNs, source := BitVec.ofNat 8 source, severity := severityOf code c
    code := BitVec.ofNat 16 code, arg0 := BitVec.ofNat 32 a, arg1 := BitVec.ofNat 32 b, arg2 := BitVec.ofNat 32 c }

theorem State.event_of_frozen {s : State} (runs : s.dev.inReset = false) (frozen : (s.evr.frozen || s.evr.freezing) = true)
    (source code a b c : Nat) : s.event source code a b c =
      { s with evr := { s.evr with frozenDrops := countUp s.evr.frozenDrops 1 } } := by
  unfold State.event
  rw [if_neg (by simp [runs]), if_pos frozen]

theorem State.event_of_full {s : State} (runs : s.dev.inReset = false) (thawed : (s.evr.frozen || s.evr.freezing) = false)
    (full : 64 ≤ s.evr.fifo.length) (source code a b c : Nat) : s.event source code a b c =
      { s with evr := { s.evr with
        lost := countUp s.evr.lost 1, lostBit := true, lostUnreported := s.evr.lostUnreported + 1 } } := by
  unfold State.event
  rw [if_neg (by simp [runs]), if_neg (by simp [thawed]), if_pos full]

theorem State.event_of_room {s : State} (runs : s.dev.inReset = false) (thawed : (s.evr.frozen || s.evr.freezing) = false)
    (room : s.evr.fifo.length < 64) (source code a b c : Nat) : s.event source code a b c =
      { s with evr := { s.evr with fifo := s.evr.fifo ++ [s.entryOf source code a b c] } } := by
  unfold State.event
  rw [if_neg (by simp [runs]), if_neg (by simp [thawed]), if_neg (Nat.not_le.mpr room)]
  rfl

theorem State.stage_of_room {s : State} (runs : s.dev.inReset = false) (thawed : (s.evr.frozen || s.evr.freezing) = false)
    (room : s.evr.fifo.length < 64) (e : RecEntry) : s.stage e = { s with evr := { s.evr with fifo := s.evr.fifo ++ [e] } } := by
  unfold State.stage
  rw [if_neg (by simp [runs]), if_neg (by simp [thawed]), if_neg (Nat.not_le.mpr room)]

/-! ## The ring -/

/-- What the mailboxes are told of an entry moves them and the interrupt, and nothing of the recorder. -/
theorem State.deliverEvent_outside (s : State) (e : RecEntry) (seq : Nat) :
    s.Outside [.mbx, .pins, .port] (s.deliverEvent e seq) := by
  unfold State.deliverEvent
  refine .ite (.refl s _) (Outside.foldl _ (fun a i => ?_) _ _)
  have told := a.postUnsolicited_outside i
    { tag := 0xFFFF, status := e.code, r0 := BitVec.ofNat 32 (e.source.toNat + 256 * e.severity.toNat + 65536 * seq)
      r1 := e.arg0, r2 := e.arg1, r3 := e.arg2, unsolicited := true, lost := 0, opcode := 0x1180, dt := e.dt }
    (·.lostEvents) (fun m v => { m with lostEvents := v })
  exact .ite (.ite (told.step (State.raiseIrq_outside _ irqEvent)) told) (.refl a _)

theorem RecEntry.bytes_length (e : RecEntry) (seq : Half) : (e.bytes seq).length = 32 := by
  simp [RecEntry.bytes]

/-- With no lost entries to report, the oldest staged entry is put in the ring (R421, R424). -/
theorem State.recordWrite_evr {s : State} {e : RecEntry} {es : List RecEntry} (oldest : s.evr.fifo = e :: es)
    (reported : s.evr.lostUnreported = 0) : s.recordWrite.evr = { s.evr.put e with
      fifo := es, frozen := s.evr.frozen || (s.evr.freezing && es.isEmpty)
      freezing := s.evr.freezing && !(s.evr.freezing && es.isEmpty) } := by
  unfold State.recordWrite
  rw [oldest]
  dsimp only
  rw [(State.deliverEvent_outside _ _ _).evr]
  unfold State.stageLost
  rw [if_pos (Or.inl (by exact reported))]

end Sys2Proof.Machine

open Sys2Proof Sys2Proof.Machine

/-- Settles O56: the three cases of staging exclude each other, and the write of the oldest entry reads back. -/
theorem eventsAreRecorded : Obligations.EventsAreRecorded := by
  intro s
  refine ⟨fun source code a b c runs => ⟨fun frozen => State.event_of_frozen runs frozen _ _ _ _ _, fun live calm full => ?_,
    fun live calm room => ?_⟩, fun e es on oldest reported wf => ?_, fun none => ?_, fun cp v runs live calm room => ?_,
    fun frozen fresh runs => ?_, fun idle => ?_⟩
  · exact ⟨_, State.event_of_full runs (by simp [live, calm]) full _ _ _ _ _, rfl, rfl, rfl, rfl⟩
  · refine ⟨s.entryOf source code a b c, State.event_of_room runs (by simp [live, calm]) room _ _ _ _ _, ?_⟩
    simp [State.entryOf]
  · have written : s.recorderStep .clean = s.recordWrite := by simp [State.recorderStep, on]
    refine ⟨_, congrArg Host.Outcome.next written, ?_⟩
    rw [State.recordWrite_evr oldest reported]
    refine ⟨rfl, rfl, rfl, ?_, fun a out => ?_, rfl⟩
    · have back := memReadN_memWriteN (32 * s.evr.next.toNat) (e.bytes s.evr.seq) wf
      rw [RecEntry.bytes_length] at back
      exact back
    · exact memRead_memWriteN_outside _ a _ wf (by rw [RecEntry.bytes_length]; exact out)
  · have still : s.recorderStep .clean = s := by simp [State.recorderStep, State.recordWrite, none]
    exact congrArg Host.Outcome.next still
  · have up : s.dev.inReset = false := by
      simp only [State.cpRuns, Bool.and_eq_true, Bool.not_eq_true'] at runs
      exact runs.2
    have staged : (if s.cpRuns cp then s.writeWindow cp 7 v else s) = { s with evr := { s.evr with
          fwWindow := s.evr.fwWindow.set cp (s.evr.fwWindow[cp].set 7 v)
          fifo := s.evr.fifo ++ [windowEntry (s.evr.fwWindow[cp].set 7 v)] } } := by
      rw [if_pos runs]
      exact State.stage_of_room (s := { s with evr := { s.evr with
        fwWindow := s.evr.fwWindow.set cp (s.evr.fwWindow[cp].set 7 v) } }) up (by simp [live, calm]) room _
    exact congrArg Host.Outcome.next staged
  · have kept : s.archiveRing = { s with evr := { s.evr with
        archive := ({ head := s.evr.head, ring := s.evr.ring } :: s.evr.archive).take 16, archived := true } } := by
      simp [State.archiveRing, frozen, fresh, runs]
    exact congrArg Host.Outcome.next kept
  · have still : s.archiveRing = s := by
      rcases idle with live | done
      · simp [State.archiveRing, live]
      · simp [State.archiveRing, done]
    exact congrArg Host.Outcome.next still

end

section
set_option Elab.async false
/-!
PROOFS. Power (chapter 17): polls, thermal events, limits, alarms and margins.
-/
namespace Sys2Proof.Machine
open State (Outside)

/-! ## Updates of every core -/

@[simp] theorem State.updCorePower_cores_self (s : State) (c : Fin 8) (f : CorePower → CorePower) :
    (s.updCorePower c f).pm.cores[c] = f s.pm.cores[c] := by
  simp [State.updCorePower]

/-- A fold over the cores, each of whose steps sets one core from the power state with whatever the other cores hold there: each core of
the list has its new value, and nothing else moves. -/
theorem State.foldl_cores {step : State → Fin 8 → State} {g : Power → Fin 8 → CorePower} {s : State}
    (acts : ∀ (a : State) (c : Fin 8), { a with pm := s.pm } = s → step a c = a.updCorePower c fun _ => g a.pm c)
    (alone : ∀ (p : Power) (c d : Fin 8) (x : CorePower), d ≠ c → g { p with cores := p.cores.set d x } c = g p c)
    (l : List (Fin 8)) (nodup : l.Nodup) : ∀ a : State, { a with pm := s.pm } = s →
      { l.foldl step a with pm := s.pm } = s ∧ (l.foldl step a).pm = { a.pm with cores := (l.foldl step a).pm.cores }
        ∧ ∀ c : Fin 8, (l.foldl step a).pm.cores[c] = if c ∈ l then g a.pm c else a.pm.cores[c] := by
  induction l with
  | nil => exact fun a same => ⟨same, rfl, fun c => by simp⟩
  | cons d l ih =>
    intro a same
    obtain ⟨fresh, nodup⟩ := List.nodup_cons.mp nodup
    rw [List.foldl_cons, acts a d same]
    obtain ⟨beside, pm, cores⟩ := ih nodup (a.updCorePower d fun _ => g a.pm d) same
    refine ⟨beside, ?_, fun c => ?_⟩
    · exact pm
    · rw [cores c]
      by_cases here : c = d
      · subst here
        simp only [fresh, List.mem_cons, true_or, if_true, if_false]
        exact State.updCorePower_cores_self a c _
      · have apart : d.val ≠ c.val := fun e => here (Fin.ext e.symm)
        have kept : (a.updCorePower d fun _ => g a.pm d).pm.cores[c] = a.pm.cores[c] := by
          simp [State.updCorePower, Vector.getElem_set_ne, apart]
        have same : g (a.updCorePower d fun _ => g a.pm d).pm c = g a.pm c := alone a.pm c d _ (Ne.symm here)
        simp only [List.mem_cons, here, false_or, same, kept]

/-- A clock under a clamp (R385, R388, R389): it is lowered, and a filler with it. -/
def Power.clamped (p : Power) (c : Fin 8) : CorePower :=
  let x := p.cores[c]
  let t := p.clampTarget c true
  if t < x.op.toNat then { x with op := BitVec.ofNat 3 t, filler := x.filler.lower t x.op.toNat } else x

theorem Power.set_cores_ne {p : Power} {c d : Fin 8} (x : CorePower) (other : d ≠ c) : (p.cores.set d x)[c] = p.cores[c] := by
  have apart : d.val ≠ c.val := fun e => other (Fin.ext e)
  simp [Vector.getElem_set_ne, apart]

theorem Power.clamped_set_ne (p : Power) (c d : Fin 8) (x : CorePower) (other : d ≠ c) :
    Power.clamped { p with cores := p.cores.set d x } c = p.clamped c := by
  have kept := Power.set_cores_ne (p := p) x other
  unfold Power.clamped Power.clampTarget
  simp only [kept, Power.clampOp, Power.limitOp]

theorem State.clampClocks_eq (s : State) :
    s.clampClocks = (List.finRange 8).foldl (fun (a : State) c => a.updCorePower c fun _ => a.pm.clamped c) s := by
  unfold State.clampClocks State.updCorePower Power.clamped
  dsimp only

/-- The clamps that hold lower every clock to its target. -/
theorem State.clampClocks_spec (s : State) : { s.clampClocks with pm := s.pm } = s
    ∧ s.clampClocks.pm = { s.pm with cores := s.clampClocks.pm.cores } ∧ ∀ c : Fin 8, s.clampClocks.pm.cores[c] = s.pm.clamped c := by
  rw [State.clampClocks_eq]
  obtain ⟨beside, pm, cores⟩ := State.foldl_cores (s := s) (fun a c _ => rfl) Power.clamped_set_ne
    (List.finRange 8) (List.nodup_finRange 8) s rfl
  exact ⟨beside, pm, fun c => (cores c).trans (if_pos (List.mem_finRange c))⟩

theorem Power.clamped_op (p : Power) (c : Fin 8) : (p.clamped c).op.toNat ≤ p.clampTarget c true := by
  unfold Power.clamped
  dsimp only
  split
  next lower => simp only [BitVec.toNat_ofNat]; exact Nat.mod_le _ _
  next held => exact Nat.not_lt.mp held

theorem State.pmEvent_outside (s : State) (code a b c : Nat) : s.Outside [.evr] (s.pmEvent code a b c) :=
  .ite (s.event_outside _ _ _ _ _) (.refl s _)

/-- A state whose pm and recorder alone were moved. -/
theorem State.Outside.besidePm {s t : State} (h : s.Outside [.pm, .evr] t) : { t with pm := s.pm, evr := s.evr } = s := by
  refine h.restored (fun p mem => ?_) (fun p out => ?_)
  · cases p <;> simp_all
  · cases p <;> simp_all

theorem State.updCorePower_same (s : State) (c : Fin 8) : (s.updCorePower c fun _ => s.pm.cores[c]) = s := by
  simp [State.updCorePower]

/-! ## Thermal clamps (R386, R387) -/

/-- The cores that a sensor clamps: its own, and every core for a sensor outside them. -/
def sensorOf (n : Fin 24) (c : Fin 8) : Bool := decide (16 ≤ n.val ∨ c.val = n.val / 2)

/-- A core that the sensor clamps. -/
def Power.heated (p : Power) (n : Fin 24) (c : Fin 8) : CorePower :=
  if sensorOf n c then { p.cores[c] with thermal := p.cores[c].thermal ||| (1 : BitVec 24) <<< n.val, thermalEnding := false } else p.cores[c]

/-- The cores that a hot sensor clamps, before their clocks are lowered. -/
def State.heatCores (s : State) (n : Fin 24) : State :=
  (List.finRange 8).foldl (fun (a : State) c => a.updCorePower c fun _ => a.pm.heated n c) s

theorem Power.heated_set_ne (p : Power) (n : Fin 24) (c d : Fin 8) (x : CorePower) (other : d ≠ c) :
    Power.heated { p with cores := p.cores.set d x } n c = p.heated n c := by
  have kept := Power.set_cores_ne (p := p) x other
  simp only [Power.heated, kept]

theorem State.heatCores_spec (s : State) (n : Fin 24) : { s.heatCores n with pm := s.pm } = s
    ∧ (s.heatCores n).pm = { s.pm with cores := (s.heatCores n).pm.cores } ∧ ∀ c : Fin 8, (s.heatCores n).pm.cores[c] = s.pm.heated n c := by
  obtain ⟨beside, pm, cores⟩ := State.foldl_cores (s := s) (g := fun p => p.heated n) (fun a c _ => rfl)
    (fun p => p.heated_set_ne n) (List.finRange 8) (List.nodup_finRange 8) s rfl
  exact ⟨beside, pm, fun c => (cores c).trans (if_pos (List.mem_finRange c))⟩

theorem State.thermalClamp_heats (s : State) (n : Fin 24) :
    ((List.finRange 8).foldl (fun (s : State) c => if sensorOf n c then s.updCorePower c fun x => { x with
      thermal := x.thermal ||| (1 : BitVec 24) <<< n.val, thermalEnding := false } else s) s) = s.heatCores n := by
  have same : (fun (s : State) (c : Fin 8) => if sensorOf n c then s.updCorePower c fun x => { x with
      thermal := x.thermal ||| (1 : BitVec 24) <<< n.val, thermalEnding := false } else s) =
      fun (a : State) c => a.updCorePower c fun _ => a.pm.heated n c := by
    funext a c
    unfold Power.heated
    split
    · rfl
    · exact (a.updCorePower_same c).symm
  rw [same, State.heatCores]

/-- A hot sensor heats its cores, tells the recorder once, and the clamp lowers their clocks. -/
theorem State.thermalClamp_eq (s : State) (n : Fin 24) : ∃ u : State, s.thermalClamp n = u.clampClocks
    ∧ (s.heatCores n).Outside [.pm, .evr] u ∧ u.pm = { (s.heatCores n).pm with clampSpans := u.pm.clampSpans } := by
  unfold State.thermalClamp
  dsimp only
  refine ⟨_, rfl, ?_, ?_⟩
  · rw [← State.thermalClamp_heats]
    refine .ite (.refl _ _) ?_
    exact (Outside.step (.refl _ _) (.setPm _ _)).step (State.pmEvent_outside _ _ _ _ _)
  · rw [← State.thermalClamp_heats]
    split
    · rfl
    · rw [(State.pmEvent_outside _ _ _ _ _).pm]
      rfl

/-- A conversion that clamps a core sets its bit there, and holds its clock to the clamp's operating point. -/
theorem State.thermalClamp_spec (s : State) (n : Fin 24) (c : Fin 8) (mine : sensorOf n c = true) :
    (s.thermalClamp n).pm.temps = s.pm.temps ∧ (s.thermalClamp n).pm.cores[c].thermal.getLsbD n.val = true
      ∧ (s.thermalClamp n).pm.cores[c].op.toNat ≤ s.pm.clampOp := by
  obtain ⟨u, clamp, -, upm⟩ := s.thermalClamp_eq n
  obtain ⟨-, hpm, hcores⟩ := s.heatCores_spec n
  obtain ⟨-, cpm, ccores⟩ := u.clampClocks_spec
  have cores : u.pm.cores = (s.heatCores n).pm.cores := by rw [upm]
  have cfg : u.pm.thermCfg = s.pm.thermCfg := by rw [upm, hpm]
  have temps : u.clampClocks.pm.temps = s.pm.temps := by rw [cpm, upm, hpm]
  have heat : u.pm.cores[c] = { s.pm.cores[c] with thermal := s.pm.cores[c].thermal ||| (1 : BitVec 24) <<< n.val, thermalEnding := false } := by
    rw [cores, hcores c, Power.heated, if_pos mine]
  have lit : u.pm.cores[c].thermal.getLsbD n.val = true := by
    rw [heat]
    simp only [BitVec.getLsbD_or, BitVec.getLsbD_shiftLeft]
    simp
  have hot : u.pm.cores[c].thermal ≠ 0 := fun zero => by
    rw [zero] at lit
    simp at lit
  have target : u.pm.clampTarget c true ≤ s.pm.clampOp := by
    have base : (if u.pm.limitClamp then min u.pm.clampOp u.pm.limitOp else u.pm.clampOp) ≤ s.pm.clampOp := by
      have op : u.pm.clampOp = s.pm.clampOp := by simp only [Power.clampOp, cfg]
      rw [op]
      split
      · exact Nat.min_le_left _ _
      · exact Nat.le_refl _
    unfold Power.clampTarget
    simp only [hot, if_false, if_true]
    split
    · exact Nat.le_trans (Nat.min_le_left _ _) base
    · exact base
  rw [clamp]
  refine ⟨temps, ?_, ?_⟩
  · rw [ccores c]
    unfold Power.clamped
    dsimp only
    split
    · exact lit
    · exact lit
  · rw [ccores c]
    exact Nat.le_trans (u.pm.clamped_op c) target

theorem State.thermalClamp_outside (s : State) (n : Fin 24) : s.Outside [.pm, .evr] (s.thermalClamp n) := by
  obtain ⟨u, clamp, outside, -⟩ := s.thermalClamp_eq n
  rw [clamp]
  have heat : s.Outside [.pm, .evr] (s.heatCores n) :=
    (Outside.foldl _ (fun a c => a.updCorePower_outside c _) _ _).mono (by decide)
  exact (heat.and outside).step (State.clampClocks_outside _)

/-- Every sensor that clamps a core has been cool for 10 ms. -/
def Power.cooled (p : Power) (now : Nat) (c : Fin 8) : Prop :=
  p.cores[c].thermal ≠ 0 ∧ ∀ n : Fin 24, p.cores[c].thermal.getLsbD n.val = true → ∃ x, p.coolSince[n] = some x ∧ x + 10000000 ≤ now

/-- A core whose clamp ends at the next boundary where its sensors have cooled (R387). -/
def Power.released (p : Power) (now : Nat) (c : Fin 8) : CorePower :=
  if p.cores[c].thermal ≠ 0 ∧ ((List.finRange 24).all fun n => !p.cores[c].thermal.getLsbD n.val ||
      match p.coolSince[n] with
      | some t => decide (t + coolNs ≤ now)
      | none => false) = true then { p.cores[c] with thermalEnding := true } else p.cores[c]

theorem Power.released_set_ne (p : Power) (now : Nat) (c d : Fin 8) (x : CorePower) (other : d ≠ c) :
    Power.released { p with cores := p.cores.set d x } now c = p.released now c := by
  have kept := Power.set_cores_ne (p := p) x other
  simp only [Power.released, kept]

theorem Power.cooled_iff (p : Power) (now : Nat) (c : Fin 8) : p.cooled now c ↔
    p.cores[c].thermal ≠ 0 ∧ ((List.finRange 24).all fun n => !p.cores[c].thermal.getLsbD n.val ||
      match p.coolSince[n] with
      | some t => decide (t + coolNs ≤ now)
      | none => false) = true := by
  unfold Power.cooled
  refine and_congr_right fun _ => ?_
  rw [List.all_eq_true]
  refine forall_congr' fun n => ?_
  simp only [List.mem_finRange, forall_const, Bool.or_eq_true, Bool.not_eq_true', coolNs]
  cases p.cores[c].thermal.getLsbD n.val
  · simp
  · cases p.coolSince[n]
    · simp
    · simp only [Option.some.injEq, exists_eq_left', forall_const, Bool.true_eq_false, false_or]
      exact decide_eq_true_iff.symm

theorem State.thermRelease_spec (s : State) : { s.thermRelease with pm := s.pm } = s
    ∧ ∀ c : Fin 8, s.thermRelease.pm.cores[c] = s.pm.released s.dtNs c := by
  have eq : s.thermRelease = (List.finRange 8).foldl (fun (a : State) c => if a.pm.cores[c].thermal ≠ 0 ∧
      ((List.finRange 24).all fun n => !a.pm.cores[c].thermal.getLsbD n.val ||
        match a.pm.coolSince[n] with
        | some t => decide (t + coolNs ≤ a.dtNs)
        | none => false) = true then a.updCorePower c fun x => { x with thermalEnding := true } else a) s := rfl
  rw [eq]
  have acts : ∀ (a : State) (c : Fin 8), { a with pm := s.pm } = s → (if a.pm.cores[c].thermal ≠ 0 ∧
      ((List.finRange 24).all fun n => !a.pm.cores[c].thermal.getLsbD n.val ||
        match a.pm.coolSince[n] with
        | some t => decide (t + coolNs ≤ a.dtNs)
        | none => false) = true then a.updCorePower c fun x => { x with thermalEnding := true } else a) =
      a.updCorePower c fun _ => a.pm.released s.dtNs c := by
    intro a c same
    have tu := congrArg State.tu same
    have now : a.dtNs = s.dtNs := congrArg (fun t : TimeUnit => TimeFix.ns t.dt) tu
    unfold Power.released
    rw [now]
    split
    · rfl
    · exact (a.updCorePower_same c).symm
  obtain ⟨beside, -, cores⟩ := State.foldl_cores (s := s) (g := fun p => p.released s.dtNs) acts (fun p => p.released_set_ne s.dtNs) (List.finRange 8)
    (List.nodup_finRange 8) s rfl
  exact ⟨beside, fun c => (cores c).trans (if_pos (List.mem_finRange c))⟩

/-- A conversion as it is stored (R386). -/
def State.converted (s : State) (n : Fin 24) (t : Half) : State :=
  { s with pm := { s.pm with
    temps := s.pm.temps.set n t
    coolSince := s.pm.coolSince.set n (if t.toInt < s.pm.release then some (s.pm.coolSince[n].getD s.dtNs) else none) } }

/-- A conversion below the trip is stored, and clamps from THROTTLE_C on. -/
theorem State.conversion_of_cool {s : State} (on : s.powerOn = true) (n : Fin 24) {t : Half} (cool : t.toInt < 1250) :
    s.conversion n t = if s.pm.throttle ≤ t.toInt then (s.converted n t).thermalClamp n else s.converted n t := by
  unfold State.conversion
  rw [if_neg (by simp [on])]
  dsimp only
  rw [if_neg fun h => absurd h.1 (by omega)]
  rfl

/-- A conversion at the trip is a fatal error that holds THERMTRIP_N. -/
theorem State.conversion_of_trip {s : State} (on : s.powerOn = true) (n : Fin 24) {t : Half} (trips : 1250 ≤ t.toInt)
    (fresh : s.pm.thermtrip = false) : ∃ x : State, s.conversion n t =
      State.fatal { x with pm := { x.pm with thermtrip := true } } true 0x0F 0x0F0A n.val (patOf 32 t.toInt) 0 := by
  have kept : (if s.pm.throttle ≤ t.toInt then (s.converted n t).thermalClamp n else s.converted n t).pm.thermtrip = false := by
    split
    · obtain ⟨u, clamp, -, upm⟩ := (s.converted n t).thermalClamp_eq n
      obtain ⟨-, hpm, -⟩ := (s.converted n t).heatCores_spec n
      obtain ⟨-, cpm, -⟩ := u.clampClocks_spec
      rw [clamp, cpm, upm, hpm]
      exact fresh
    · exact fresh
  refine ⟨if s.pm.throttle ≤ t.toInt then (s.converted n t).thermalClamp n else s.converted n t, ?_⟩
  unfold State.conversion
  rw [if_neg (by simp [on])]
  have flag : (!(if s.pm.throttle ≤ t.toInt then (s.converted n t).thermalClamp n else s.converted n t).pm.thermtrip) = true := by
    rw [kept]
    rfl
  exact if_pos ⟨trips, flag⟩

/-! ## Limits and alarms (R388, R389) -/

/-- With a limit clamp every clock is held to LIMIT_OP. -/
theorem State.clampClocks_limited {s : State} (limited : s.pm.limitClamp = true) (c : Fin 8) :
    s.clampClocks.pm.cores[c].op.toNat ≤ s.pm.limitOp := by
  obtain ⟨-, -, cores⟩ := s.clampClocks_spec
  rw [cores c]
  refine Nat.le_trans (s.pm.clamped_op c) ?_
  unfold Power.clampTarget
  simp only [limited, if_true]
  split
  · exact Nat.le_trans (Nat.min_le_left _ _) (Nat.min_le_right _ _)
  · exact Nat.min_le_right _ _

/-- A core with a monitor clamp keeps it, and is held to its point. -/
theorem State.clampClocks_monitored {s : State} {c : Fin 8} {op was : BitVec 3} (monitor : s.pm.cores[c].monitor = some (op, was)) :
    s.clampClocks.pm.cores[c].monitor = some (op, was) ∧ s.clampClocks.pm.cores[c].op.toNat ≤ op.toNat := by
  obtain ⟨-, -, cores⟩ := s.clampClocks_spec
  rw [cores c]
  constructor
  · unfold Power.clamped
    dsimp only
    split
    · exact monitor
    · exact monitor
  · refine Nat.le_trans (s.pm.clamped_op c) ?_
    unfold Power.clampTarget
    simp only [monitor, if_true]
    exact Nat.min_le_right _ _

/-- The state of an asserted limit before the clocks are lowered. -/
def State.limited (s : State) : State :=
  State.pmEvent { s with
    pins := { s.pins with pwrLimitN := false }
    pm := { s.pm with limitClamp := true, limitEnding := false, limitSince := s.dtNs } } 0x0F07 0 0 0

theorem State.limitAssert_of_high {s : State} (ready : s.isReady = true) (high : s.pins.pwrLimitN = true) :
    s.limitAssert = s.limited.clampClocks := by
  unfold State.limitAssert State.limited State.limitActive
  rw [if_neg (by simp [ready]), if_neg (by simp [high])]
  rfl

theorem State.limited_outside (s : State) : s.Outside [.pins, .pm, .evr] s.limited :=
  ((Outside.setPins s { s.pins with pwrLimitN := false }).trans (.setPm _ { s.pm with
    limitClamp := true, limitEnding := false, limitSince := s.dtNs })).trans (State.pmEvent_outside _ _ _ _ _)

theorem State.limited_pm (s : State) : s.limited.pm = { s.pm with limitClamp := true, limitEnding := false, limitSince := s.dtNs }
    ∧ s.limited.pins = { s.pins with pwrLimitN := false } := by
  unfold State.limited
  rw [(State.pmEvent_outside _ _ _ _ _).pm, (State.pmEvent_outside _ _ _ _ _).pins]
  exact ⟨rfl, rfl⟩

/-- A state whose pins, pm and recorder alone were moved. -/
theorem State.Outside.besidePins {s t : State} (h : s.Outside [.pins, .pm, .evr] t) :
    { t with pins := s.pins, pm := s.pm, evr := s.evr } = s := by
  refine h.restored (fun p mem => ?_) (fun p out => ?_)
  · cases p <;> simp_all
  · cases p <;> simp_all

theorem State.limitRelease_of_low {s : State} (ready : s.isReady = true) (low : s.pins.pwrLimitN = false) : s.limitRelease =
    State.pmEvent { s with pins := { s.pins with pwrLimitN := true }, pm := { s.pm with limitEnding := true } } 0x0F07 1
      ((s.dtNs - s.pm.limitSince) / 1000) 0 := by
  unfold State.limitRelease State.limitActive
  rw [if_neg (by simp [ready]), if_neg (by simp [low])]
  rfl

/-- An alarm of a core's monitor, before the clocks are lowered (R389). -/
def State.alarmed (s : State) (m : Fin 48) (c : Fin 8) : State :=
  let t := State.updCorePower { s with pm := { s.pm with monCount := countUp s.pm.monCount 1, monAlarm := true } } c fun x => { x with
    monitor := some (BitVec.ofNat 3 (s.pm.cores[c].op.toNat - 1), s.pm.cores[c].op) }
  State.pmEvent { t with pm := { t.pm with
    marginDue := t.pm.marginDue ||| (1 : Byte) <<< s.pm.cores[c].op.toNat
    alarmAt := t.pm.alarmAt ||| (1 : Byte) <<< s.pm.cores[c].op.toNat } } 0x0F08 m.val c.val s.pm.cores[c].op.toNat

theorem State.monitorAlarm_of_core {s : State} (on : s.powerOn = true) {m : Fin 48} {c : Fin 8} (mine : c.val = m.val / 5) :
    s.monitorAlarm m = (s.alarmed m c).clampClocks := by
  have small : m.val < 40 := by omega
  obtain ⟨c, inside⟩ := c
  obtain rfl : c = m.val / 5 := mine
  unfold State.monitorAlarm State.alarmed
  rw [if_neg (by simp [on])]
  rw [dif_pos small]
  rfl

theorem State.alarmed_pm (s : State) (m : Fin 48) (c : Fin 8) : (s.alarmed m c).pm.monAlarm = true
    ∧ (s.alarmed m c).pm.monCount = countUp s.pm.monCount 1 ∧ (s.alarmed m c).pm.marginDue.getLsbD s.pm.cores[c].op.toNat = true
    ∧ (s.alarmed m c).pm.cores[c].monitor = some (BitVec.ofNat 3 (s.pm.cores[c].op.toNat - 1), s.pm.cores[c].op) := by
  have point := s.pm.cores[c].op.isLt
  unfold State.alarmed
  dsimp only
  simp only [(State.pmEvent_outside _ _ _ _ _).pm]
  refine ⟨rfl, rfl, ?_, ?_⟩
  · simp only [BitVec.getLsbD_or, BitVec.getLsbD_shiftLeft]
    generalize s.pm.cores[c].op = op at point ⊢
    have inside : op.toNat < 8 := point
    simp [inside]
  · exact congrArg CorePower.monitor (State.updCorePower_cores_self _ c _)

/-! ## Margins (R390) -/

theorem State.setMargin_spec (s : State) (k : Fin 8) (new : Nat) :
    (s.setMargin k new).pm.ranAt = s.pm.ranAt ∧ (s.setMargin k new).pm.alarmAt = s.pm.alarmAt
      ∧ (s.setMargin k new).pm.opHours = s.pm.opHours ∧ (s.setMargin k new).pm.margins = s.pm.margins.set k new := by
  unfold State.setMargin
  split
  next same =>
    refine ⟨rfl, rfl, rfl, ?_⟩
    rw [← same]
    exact (Vector.set_getElem_self k.isLt).symm
  next =>
    dsimp only
    rw [(State.pmEvent_outside _ _ _ _ _).pm]
    exact ⟨rfl, rfl, rfl, rfl⟩

/-- The trim of one point: 5 mV less where its slack was seen, never below 15 mV. -/
def State.trimPoint (s : State) (k : Fin 8) : State :=
  let t := (s.drawBelow 2).2
  if t.pm.ranAt.getLsbD k.val ∧ !t.pm.alarmAt.getLsbD k.val ∧ (s.drawBelow 2).1 = 1
      ∧ max 15 (t.pm.margins[k] - 5) < t.pm.margins[k] then t.setMargin k (max 15 (t.pm.margins[k] - 5)) else t

theorem State.trimPoint_spec (s : State) (k : Fin 8) :
    (s.trimPoint k).pm.ranAt = s.pm.ranAt ∧ (s.trimPoint k).pm.alarmAt = s.pm.alarmAt ∧ (s.trimPoint k).pm.opHours = s.pm.opHours
      ∧ (∀ j : Fin 8, j ≠ k → (s.trimPoint k).pm.margins[j] = s.pm.margins[j])
      ∧ ((s.trimPoint k).pm.margins[k] = s.pm.margins[k]
          ∨ ((s.trimPoint k).pm.margins[k] = max 15 (s.pm.margins[k] - 5) ∧ (s.trimPoint k).pm.margins[k] < s.pm.margins[k]
              ∧ s.pm.ranAt.getLsbD k.val = true ∧ s.pm.alarmAt.getLsbD k.val = false)) := by
  have drawn : (s.drawBelow 2).2.pm = s.pm := rfl
  unfold State.trimPoint
  dsimp only
  split
  next trims =>
    obtain ⟨ran, calm, -, lower⟩ := trims
    rw [drawn] at ran calm lower
    obtain ⟨sran, salarm, shours, smargins⟩ := (s.drawBelow 2).2.setMargin_spec k (max 15 ((s.drawBelow 2).2.pm.margins[k] - 5))
    generalize (s.drawBelow 2).2.setMargin k (max 15 ((s.drawBelow 2).2.pm.margins[k] - 5)) = u at sran salarm shours smargins ⊢
    rw [drawn] at sran salarm shours smargins
    refine ⟨sran, salarm, shours, fun j other => ?_, Or.inr ⟨?_, ?_, ran, by simpa using calm⟩⟩
    · have apart : k.val ≠ j.val := fun e => other (Fin.ext e.symm)
      simp [smargins, Vector.getElem_set_ne, apart]
    · simp [smargins]
    · simpa [smargins] using lower
  next => exact ⟨rfl, rfl, rfl, fun _ _ => rfl, Or.inl rfl⟩

/-- The trim of every point of a list: each trims once, and what decides it stays. -/
theorem State.trimPoints_spec (l : List (Fin 8)) (nodup : l.Nodup) : ∀ s : State,
    (l.foldl State.trimPoint s).pm.opHours = s.pm.opHours
      ∧ ∀ k : Fin 8, (k ∉ l → (l.foldl State.trimPoint s).pm.margins[k] = s.pm.margins[k])
        ∧ ((l.foldl State.trimPoint s).pm.margins[k] = s.pm.margins[k]
          ∨ ((l.foldl State.trimPoint s).pm.margins[k] = max 15 (s.pm.margins[k] - 5)
              ∧ (l.foldl State.trimPoint s).pm.margins[k] < s.pm.margins[k]
              ∧ s.pm.ranAt.getLsbD k.val = true ∧ s.pm.alarmAt.getLsbD k.val = false)) := by
  induction l with
  | nil => exact fun s => ⟨rfl, fun k => ⟨fun _ => rfl, Or.inl rfl⟩⟩
  | cons d l ih =>
    intro s
    obtain ⟨fresh, nodup⟩ := List.nodup_cons.mp nodup
    obtain ⟨ran, alarm, hours, others, mine⟩ := s.trimPoint_spec d
    obtain ⟨hoursL, points⟩ := ih nodup (s.trimPoint d)
    rw [List.foldl_cons]
    refine ⟨hoursL.trans hours, fun k => ?_⟩
    obtain ⟨outside, inside⟩ := points k
    by_cases here : k = d
    · subst here
      rw [outside fresh]
      exact ⟨fun out => absurd (List.mem_cons_self ..) out, mine⟩
    · rw [others k here, ran, alarm] at inside
      refine ⟨fun out => ?_, inside⟩
      rw [outside fun mem => out (List.mem_cons_of_mem _ mem), others k here]

theorem State.marginTrim_of_due {s : State} (on : s.pm.trimEn = true) (ready : s.isReady = true)
    (due : s.pm.trimHours.toNat + 1000 ≤ s.pm.opHours.toNat) : s.marginTrim =
      let t := (List.finRange 8).foldl State.trimPoint s
      { t with pm := { t.pm with ranAt := 0, alarmAt := 0, trimHours := t.pm.opHours } } := by
  unfold State.marginTrim
  rw [if_neg (by simp [on, ready]; omega)]
  rfl

end Sys2Proof.Machine

open Sys2Proof Sys2Proof.Machine

/-- Settles O55: each event by the branch it takes, the clamps and the trim by what they leave of one core and of one point. -/
theorem powerEventsHappen : Obligations.PowerEventsHappen := by
  intro s on
  refine ⟨fun mv ma ok => ?_, fun mv ma => ?_, fun n t below cool => ?_, fun n t c above cool mine => ?_, fun n t trips untripped => ?_,
    ?_, fun high ready => ?_, fun low ready => ⟨?_, ?_⟩, fun m c mine => ?_, fun early => ?_, fun enabled ready due => ?_⟩
  · have polled : s.pmbusPoll true mv ma = { (s.drawBelow 65536).2 with pm := { s.pm with
        vrailMv := mv, sampleSum := s.pm.sampleSum + mv.toNat * ma.toNat / 1000 + (s.drawBelow 65536).1
        sampleCount := s.pm.sampleCount + 1 } } := by
      simp [State.pmbusPoll, on, ok, State.drawBelow]
    exact ⟨_, congrArg Host.Outcome.next polled, rfl, rfl, Nat.le_add_right _ _, rfl, rfl⟩
  · have still : s.pmbusPoll false mv ma = s := by simp [State.pmbusPoll]
    exact congrArg Host.Outcome.next still
  · have stored : s.conversion n t = s.converted n t := by rw [State.conversion_of_cool on n cool, if_neg (by omega)]
    exact congrArg Host.Outcome.next stored
  · have clamps : s.conversion n t = (s.converted n t).thermalClamp n := by rw [State.conversion_of_cool on n cool, if_pos above]
    obtain ⟨temps, lit, held⟩ := (s.converted n t).thermalClamp_spec n c (by simpa [sensorOf] using mine)
    refine ⟨_, congrArg Host.Outcome.next clamps, ?_, lit, held, ?_⟩
    · simp only [temps]
      exact Vector.getElem_set_self n.isLt
    · exact State.Outside.besidePm (((State.Outside.refl s _).step (.setPm s _)).step ((s.converted n t).thermalClamp_outside n))
  · obtain ⟨x, tripped⟩ := State.conversion_of_trip on n trips untripped
    obtain ⟨fatal, fault, motion, therm⟩ := State.fatal_alarms { x with pm := { x.pm with thermtrip := true } } true 0x0F 0x0F0A n.val
      (patOf 32 t.toInt) 0
    refine ⟨_, congrArg Host.Outcome.next tripped, ?_, fatal, therm rfl, fault, motion⟩
    rw [(State.fatal_outside _ _ _ _ _ _ _).pm]
  · obtain ⟨beside, cores⟩ := s.thermRelease_spec
    refine ⟨s.thermRelease, rfl, beside, fun c => ?_⟩
    rw [cores c, Power.released]
    have cooled := s.pm.cooled_iff s.dtNs c
    unfold Power.cooled at cooled
    split
    next cool => rw [if_pos (cooled.mpr cool)]
    next hot => rw [if_neg fun cool => hot (cooled.mp cool)]
  · obtain ⟨pm, pins⟩ := s.limited_pm
    obtain ⟨-, cpm, -⟩ := s.limited.clampClocks_spec
    have clamped := s.limited.clampClocks_outside
    refine ⟨_, congrArg Host.Outcome.next (State.limitAssert_of_high ready high), ?_, ?_, ?_, fun c => ?_, ?_⟩
    · rw [clamped.pins, pins]
    · rw [cpm, pm]
    · rw [cpm, pm]
    · have held := State.clampClocks_limited (s := s.limited) (by rw [pm]) c
      rw [pm] at held
      exact held
    · exact State.Outside.besidePins (s.limited_outside.step clamped)
  · have still : s.limitAssert = s := by simp [State.limitAssert, State.limitActive, ready, low]
    exact congrArg Host.Outcome.next still
  · refine ⟨_, congrArg Host.Outcome.next (State.limitRelease_of_low ready low), ?_, ?_, ?_⟩
    · rw [(State.pmEvent_outside _ _ _ _ _).pins]
    · rw [(State.pmEvent_outside _ _ _ _ _).pm]
    · exact State.Outside.besidePins ((((State.Outside.refl s _).step (.setPins s { s.pins with pwrLimitN := true })).step
        (.setPm _ { s.pm with limitEnding := true })).step (State.pmEvent_outside _ _ _ _ _))
  · obtain ⟨alarm, count, margin, monitor⟩ := s.alarmed_pm m c
    obtain ⟨kept, held⟩ := State.clampClocks_monitored monitor
    obtain ⟨-, cpm, -⟩ := (s.alarmed m c).clampClocks_spec
    refine ⟨_, congrArg Host.Outcome.next (State.monitorAlarm_of_core on mine), ?_, ?_, ?_, kept, ?_⟩
    · rw [cpm]; exact alarm
    · rw [cpm]; exact count
    · rw [cpm]; exact margin
    · exact Nat.le_trans held (by simp only [BitVec.toNat_ofNat]; exact Nat.mod_le _ _)
  · have still : s.marginTrim = s := by simp [State.marginTrim, early]
    exact congrArg Host.Outcome.next still
  · obtain ⟨hours, points⟩ := State.trimPoints_spec (List.finRange 8) (List.nodup_finRange 8) s
    refine ⟨_, congrArg Host.Outcome.next (State.marginTrim_of_due enabled ready due), hours, rfl, rfl, fun k => (points k).2⟩

end

section
set_option Elab.async false
/-!
PROOFS. Debug access and scrubs (chapter 18): the debug port's registers, and the memories that a scrub clears.
-/
namespace Sys2Proof.Machine
open State (Outside)

/-! ## Memory with a range cleared -/

/-- No byte of the memory is kept at the address. -/
def noCell (m : List Host.Cell) (a : Nat) : Prop := ∀ c ∈ m, c.1 ≠ a

theorem memRead_of_noCell {m : List Host.Cell} {a : Nat} (clear : noCell m a) : memRead m a = 0 := by
  induction m with
  | nil => rfl
  | cons c m ih =>
    obtain ⟨k, b⟩ := c
    have other : k ≠ a := clear (k, b) (by simp)
    rw [memRead, if_neg other]
    split
    · rfl
    · exact ih fun c mem => clear c (by simp [mem])

theorem noCell_zeroRange_inside (m : List Host.Cell) {b n a : Nat} (inside : b ≤ a ∧ a < b + n) : noCell (zeroRange m b n) a := by
  intro c mem same
  have kept := (List.mem_filter.mp mem).2
  simp only [decide_eq_true_eq] at kept
  omega

theorem noCell_zeroRange {m : List Host.Cell} {a : Nat} (clear : noCell m a) (b n : Nat) : noCell (zeroRange m b n) a :=
  fun c mem => clear c (List.mem_filter.mp mem).1

theorem memAbove_zeroRange {m : List Host.Cell} {lo : Nat} (b n : Nat) (h : memAbove lo m = true) :
    memAbove lo (zeroRange m b n) = true := by
  induction m generalizing lo with
  | nil => rfl
  | cons c m ih =>
    obtain ⟨k, v⟩ := c
    simp only [memAbove, Bool.and_eq_true, decide_eq_true_eq] at h
    obtain ⟨⟨low, nz⟩, rest⟩ := h
    have tail := ih rest
    unfold zeroRange at tail ⊢
    rw [List.filter_cons]
    split
    · simp only [memAbove, low, nz, tail, decide_true, Bool.and_self, ne_eq, not_false_eq_true]
    · exact memAbove_weaken tail (by omega)

theorem memWf_zeroRange {m : List Host.Cell} (b n : Nat) (h : memWf m = true) : memWf (zeroRange m b n) = true :=
  memAbove_zeroRange b n h

/-- A byte outside the range reads as before. -/
theorem memRead_zeroRange_outside {m : List Host.Cell} {lo b n a : Nat} (h : memAbove lo m = true) (out : a < b ∨ b + n ≤ a) :
    memRead (zeroRange m b n) a = memRead m a := by
  induction m generalizing lo with
  | nil => rfl
  | cons c m ih =>
    obtain ⟨k, v⟩ := c
    simp only [memAbove, Bool.and_eq_true, decide_eq_true_eq] at h
    obtain ⟨-, rest⟩ := h
    have tail := ih rest
    unfold zeroRange at tail ⊢
    rw [List.filter_cons]
    split
    next kept =>
      rw [memRead, memRead, tail]
    next gone =>
      simp only [decide_eq_true_eq] at gone
      have other : k ≠ a := fun same => gone (same ▸ out)
      rw [tail, memRead, if_neg other]
      split
      next below => exact memRead_below rest (by omega)
      next => rfl

/-! ## A scrub's clearing for one grant (R407) -/

/-- The scratchpads of the cores are cleared. -/
def clearPads (l : List (Fin 8)) (m : List Host.Cell) : List Host.Cell :=
  l.foldl (fun m c => zeroRange m (scratchBase c.val) scratchSize) m

theorem noCell_clearPads {m : List Host.Cell} {a : Nat} (clear : noCell m a) (l : List (Fin 8)) : noCell (clearPads l m) a := by
  induction l generalizing m with
  | nil => exact clear
  | cons c l ih => exact ih (noCell_zeroRange clear _ _)

theorem noCell_clearPads_inside {l : List (Fin 8)} {c : Fin 8} (mem : c ∈ l) (m : List Host.Cell) {a : Nat}
    (inside : scratchBase c.val ≤ a ∧ a < scratchBase c.val + scratchSize) : noCell (clearPads l m) a := by
  induction l generalizing m with
  | nil => cases mem
  | cons d l ih =>
    rcases List.mem_cons.mp mem with here | later
    · subst here
      exact noCell_clearPads (noCell_zeroRange_inside m inside) l
    · exact ih later _

theorem memWf_clearPads {m : List Host.Cell} (h : memWf m = true) (l : List (Fin 8)) : memWf (clearPads l m) = true := by
  induction l generalizing m with
  | nil => exact h
  | cons c l ih => exact ih (memWf_zeroRange _ _ h)

theorem memRead_clearPads_outside {m : List Host.Cell} (h : memWf m = true) {l : List (Fin 8)} {a : Nat}
    (out : ∀ c ∈ l, ¬ (scratchBase c.val ≤ a ∧ a < scratchBase c.val + scratchSize)) : memRead (clearPads l m) a = memRead m a := by
  induction l generalizing m with
  | nil => rfl
  | cons c l ih =>
    have here := out c (by simp)
    have step : clearPads (c :: l) m = clearPads l (zeroRange m (scratchBase c.val) scratchSize) := rfl
    rw [step, ih (memWf_zeroRange _ _ h) fun d mem => out d (by simp [mem]), memRead_zeroRange_outside h (by omega)]

/-- The cores of a grant. -/
def Grant.coreList (g : Grant) : List (Fin 8) := (List.finRange 8).filter fun c => g.coreMask.getLsbD c.val

theorem Grant.mem_coreList (g : Grant) (c : Fin 8) : c ∈ g.coreList ↔ g.coreMask.getLsbD c.val = true := by
  simp [Grant.coreList]

/-- The accumulators of the cores read empty. -/
def State.clearAccs (s : State) (l : List (Fin 8)) : State :=
  l.foldl (fun (s : State) c => s.updCore c fun x => { x with acc := [] }) s

theorem State.clearAccs_outside (s : State) (l : List (Fin 8)) : s.Outside [.cores] (s.clearAccs l) :=
  Outside.foldl _ (fun a c => a.updCore_outside c _) l s

theorem State.clearAccs_cores (l : List (Fin 8)) : ∀ (s : State) (c : Fin 8),
    (s.clearAccs l).cores[c] = if c ∈ l then { s.cores[c] with acc := [] } else s.cores[c] := by
  induction l with
  | nil => simp [State.clearAccs]
  | cons d l ih =>
    intro s c
    have step : s.clearAccs (d :: l) = (s.updCore d fun x => { x with acc := [] }).clearAccs l := rfl
    rw [step, ih]
    by_cases here : c = d
    · subst here
      simp [State.updCore]
    · have apart : d.val ≠ c.val := fun e => here (Fin.ext e.symm)
      have kept : (s.updCore d fun x => { x with acc := [] }).cores[c] = s.cores[c] := by
        simp [State.updCore, Vector.getElem_set_ne, apart]
      simp only [kept, List.mem_cons, here, false_or]

theorem State.clearFor_eq (s : State) (g : Grant) : s.clearFor g =
    State.clearAccs { s with mem := clearPads g.coreList (zeroRange (zeroRange s.mem g.dramBase g.dramBytes)
      (poolBase + 16384 * g.poolBase) (16384 * g.poolPecks)) } g.coreList := rfl

theorem State.clearFor_outside (s : State) (g : Grant) : s.Outside [.mem, .cores] (s.clearFor g) := by
  rw [State.clearFor_eq]
  exact (Outside.setMem s _).trans (State.clearAccs_outside _ _)

theorem State.clearFor_mem (s : State) (g : Grant) : (s.clearFor g).mem =
    clearPads g.coreList (zeroRange (zeroRange s.mem g.dramBase g.dramBytes) (poolBase + 16384 * g.poolBase) (16384 * g.poolPecks)) := by
  rw [State.clearFor_eq, (State.clearAccs_outside _ _).mem]

theorem State.clearFor_cores (s : State) (g : Grant) (c : Fin 8) : (s.clearFor g).cores[c] =
    if g.coreMask.getLsbD c.val then { s.cores[c] with acc := [] } else s.cores[c] := by
  rw [State.clearFor_eq, State.clearAccs_cores]
  simp only [Grant.mem_coreList]

theorem State.noCell_clearFor_inside (s : State) {g : Grant} {a : Nat} (inside : scrubClears g a) : noCell (s.clearFor g).mem a := by
  rw [State.clearFor_mem]
  rcases inside with dram | pool | ⟨c, mine, pad⟩
  · exact noCell_clearPads (noCell_zeroRange (noCell_zeroRange_inside _ dram) _ _) _
  · exact noCell_clearPads (noCell_zeroRange_inside _ pool) _
  · exact noCell_clearPads_inside ((g.mem_coreList c).mpr mine) _ pad

theorem State.noCell_clearFor {s : State} {a : Nat} (clear : noCell s.mem a) (g : Grant) : noCell (s.clearFor g).mem a := by
  rw [State.clearFor_mem]
  exact noCell_clearPads (noCell_zeroRange (noCell_zeroRange clear _ _) _ _) _

theorem State.memWf_clearFor {s : State} (h : memWf s.mem = true) (g : Grant) : memWf (s.clearFor g).mem = true := by
  rw [State.clearFor_mem]
  exact memWf_clearPads (memWf_zeroRange _ _ (memWf_zeroRange _ _ h)) _

theorem State.memRead_clearFor_outside {s : State} (h : memWf s.mem = true) {g : Grant} {a : Nat} (out : ¬ scrubClears g a) :
    memRead (s.clearFor g).mem a = memRead s.mem a := by
  unfold scrubClears at out
  rw [not_or, not_or] at out
  obtain ⟨dram, pool, pads⟩ := out
  have first : memWf (zeroRange s.mem g.dramBase g.dramBytes) = true := memWf_zeroRange _ _ h
  rw [State.clearFor_mem, memRead_clearPads_outside (memWf_zeroRange _ _ first), memRead_zeroRange_outside first (by omega),
    memRead_zeroRange_outside h (by omega)]
  exact fun c mem pad => pads ⟨c, (g.mem_coreList c).mp mem, pad⟩

/-! ## The end of a scrub -/

/-- What a scrub that starts leaves of every scrub. -/
theorem State.startScrub_scrubs (s : State) :
    (∀ y ∈ s.startScrub.sec.scrubs, ∃ z ∈ s.sec.scrubs, y.part = z.part ∧ y.grant = z.grant ∧ y.begun = z.begun ∧ y.done = z.done)
      ∧ s.startScrub.sec.scrubs.map (fun y => (y.part, y.grant, y.begun)) = s.sec.scrubs.map (fun y => (y.part, y.grant, y.begun))
      ∧ { s.startScrub.sec with scrubs := s.sec.scrubs } = s.sec := by
  unfold State.startScrub
  split
  · exact ⟨fun y mem => ⟨y, mem, rfl, rfl, rfl, rfl⟩, rfl, rfl⟩
  next x _ =>
    split
    · exact ⟨fun y mem => ⟨y, mem, rfl, rfl, rfl, rfl⟩, rfl, rfl⟩
    · simp only [State.event_sec]
      refine ⟨fun y mem => ?_, ?_, trivial⟩
      · obtain ⟨z, here, made⟩ := List.mem_map.mp mem
        refine ⟨z, here, ?_⟩
        rw [← made]
        split <;> exact ⟨rfl, rfl, rfl, rfl⟩
      · rw [List.map_map]
        refine List.map_congr_left fun y _ => ?_
        simp only [Function.comp]
        split <;> rfl

/-- A token is judged where security runs, the port is not disabled and fewer than three were refused (R411). -/
theorem State.writeToken_of_open {s : State} (runs : s.secRuns = true) (enabled : s.sec.debugDisable = false)
    (few : s.sec.refusals < 3) (tok : List Byte) : ∃ t : State, s.Outside [.sec, .evr] t ∧ s.writeToken tok = t
      ∧ t.sec = if s.tokenOk tok then { s.sec with debugLevel := fieldAt tok 48 1 } else { s.sec with refusals := s.sec.refusals + 1 } := by
  refine ⟨_, ?_, rfl, ?_⟩
  all_goals
    unfold State.writeToken
    rw [if_neg (by simp [runs, enabled, Nat.not_le.mpr few])]
    dsimp only
  · refine .ite ((Outside.step (.refl s _) (.setSec s _)).step (State.event_outside _ _ _ _ _ _)) ?_
    split
    · exact (((Outside.refl s _).step (s.event_outside _ _ _ _ _)).step (.setSec _ _)).step (State.event_outside _ _ _ _ _ _)
    · exact (Outside.step (.refl s _) (.setSec s _)).step (State.event_outside _ _ _ _ _ _)
  · split
    · rw [State.event_sec]
    · rw [State.event_sec]
      split
      · simp only [State.authFail, State.event_sec]
      · rfl

/-- A state whose security state and recorder alone were moved. -/
theorem State.Outside.besideSec {s t : State} (h : s.Outside [.sec, .evr] t) : { t with sec := s.sec, evr := s.evr } = s := by
  refine h.restored (fun p mem => ?_) (fun p out => ?_)
  · cases p <;> simp_all
  · cases p <;> simp_all

/-- The memories of both grants of a scrub are cleared. -/
def State.scrubbed (s : State) (x : Scrub) : State := (s.clearFor s.sec.grants[x.part]).clearFor (x.grant.getD Grant.empty)

theorem State.scrubbed_outside (s : State) (x : Scrub) : s.Outside [.mem, .cores] (s.scrubbed x) :=
  (s.clearFor_outside _).and (State.clearFor_outside _ _)

theorem State.scrubbed_mem (s : State) (x : Scrub) :
    (∀ g ∈ [s.sec.grants[x.part], x.grant.getD Grant.empty], ∀ a, scrubClears g a → memRead (s.scrubbed x).mem a = 0)
      ∧ (memWf s.mem = true → ∀ a, ¬ scrubClears s.sec.grants[x.part] a → ¬ scrubClears (x.grant.getD Grant.empty) a →
          memRead (s.scrubbed x).mem a = memRead s.mem a) := by
  unfold State.scrubbed
  refine ⟨fun g mem a inside => memRead_of_noCell ?_, fun wf a old new => ?_⟩
  · rcases (List.mem_cons.mp mem).imp_right List.mem_singleton.mp with rfl | rfl
    · exact State.noCell_clearFor (s.noCell_clearFor_inside inside) _
    · exact State.noCell_clearFor_inside _ inside
  · rw [State.memRead_clearFor_outside (State.memWf_clearFor wf _) new, State.memRead_clearFor_outside wf old]

theorem State.scrubbed_cores (s : State) (x : Scrub) (c : Fin 8) : (s.scrubbed x).cores[c] =
    if s.sec.grants[x.part].coreMask.getLsbD c.val ∨ (x.grant.getD Grant.empty).coreMask.getLsbD c.val
      then { s.cores[c] with acc := [] } else s.cores[c] := by
  unfold State.scrubbed
  rw [State.clearFor_cores, State.clearFor_cores]
  cases s.sec.grants[x.part].coreMask.getLsbD c.val <;> cases (x.grant.getD Grant.empty).coreMask.getLsbD c.val <;> rfl

/-- The scrub that is done, before the next one starts. -/
def State.scrubNoted (s : State) (x : Scrub) : State :=
  let t := s.scrubbed x
  State.event { t with sec := { t.sec with
    scrubs := t.sec.scrubs.map fun (y : Scrub) => if y.part = x.part then { y with done := true } else y } }
    0x12 0x1208 x.part.val ((t.dtNs - x.start) / 1000) 0

theorem State.scrubNoted_outside (s : State) (x : Scrub) : s.Outside [.mem, .cores, .sec, .evr] (s.scrubNoted x) :=
  ((s.scrubbed_outside x).trans (.setSec _ _)).trans (State.event_outside _ _ _ _ _ _)

theorem State.scrubNoted_sec (s : State) (x : Scrub) : (s.scrubNoted x).sec = { s.sec with
    scrubs := s.sec.scrubs.map fun (y : Scrub) => if y.part = x.part then { y with done := true } else y } := by
  unfold State.scrubNoted
  simp only [State.event_sec, (s.scrubbed_outside x).sec]

theorem State.scrubDone_of_now {s : State} {x : Scrub} (now : s.scrubNow = some x) (ready : s.dev.phase = .ready) :
    s.scrubDone x.part = (s.scrubNoted x).startScrub := by
  unfold State.scrubDone State.scrubNoted State.scrubbed
  rw [now]
  dsimp only
  rw [if_neg (by simp [ready])]
  rfl

/-- The scrubs once one is done and the next has started (R407). -/
theorem State.scrubNoted_scrubs (s : State) (x : Scrub) :
    (∀ y ∈ (s.scrubNoted x).startScrub.sec.scrubs, y.part = x.part → y.done = true)
      ∧ (s.scrubNoted x).startScrub.sec.scrubs.map (fun y => (y.part, y.grant, y.begun))
          = s.sec.scrubs.map (fun y => (y.part, y.grant, y.begun))
      ∧ { (s.scrubNoted x).startScrub.sec with scrubs := s.sec.scrubs } = s.sec := by
  obtain ⟨each, all, rest⟩ := (s.scrubNoted x).startScrub_scrubs
  refine ⟨fun y mem mine => ?_, ?_, ?_⟩
  · obtain ⟨z, here, part, -, -, done⟩ := each y mem
    rw [State.scrubNoted_sec] at here
    obtain ⟨w, -, made⟩ := List.mem_map.mp here
    rw [done]
    rw [part] at mine
    by_cases own : w.part = x.part
    · rw [← made, if_pos own]
    · rw [← made, if_neg own] at mine
      exact absurd mine own
  · rw [all, State.scrubNoted_sec, List.map_map]
    refine List.map_congr_left fun y _ => ?_
    simp only [Function.comp]
    split <;> rfl
  · have kept := congrArg (fun u : Security => { u with scrubs := s.sec.scrubs }) rest
    dsimp only at kept
    rw [kept, State.scrubNoted_sec]

/-- A state whose memory, cores, security state and recorder alone were moved. -/
theorem State.Outside.besideScrub {s t : State} (h : s.Outside [.mem, .cores, .sec, .evr] t) :
    { t with sec := s.sec, mem := s.mem, cores := s.cores, evr := s.evr } = s := by
  refine h.restored (fun p mem => ?_) (fun p out => ?_)
  · cases p <;> simp_all
  · cases p <;> simp_all

end Sys2Proof.Machine

open Sys2Proof Sys2Proof.Machine

/-- Settles O58: the debug port by the cases of its level, and the end of a scrub by what clearing two grants does to one byte. -/
theorem debugAndScrubs : Obligations.DebugAndScrubs := by
  intro s
  refine ⟨fun runs => ?_, fun idle => ?_, fun tok => ⟨fun runs enabled few => ⟨fun ok => ?_, fun bad => ?_⟩, fun closed => ?_⟩,
    fun cp act closed => ?_, fun cp level up => ⟨?_, ?_, ?_, fun slot off v => ?_⟩, fun p x now mine ready => ?_, fun p idle => ?_⟩
  · have read : s.readChallenge = { (s.drawBytes 32).2 with sec := { s.sec with challenge := some (s.drawBytes 32).1 } } := by
      simp [State.readChallenge, runs, State.drawBytes]
    refine ⟨_, _, congrArg Host.Outcome.next read, by simp [State.drawBytes], rfl, rfl⟩
  · have still : s.readChallenge = s := by simp [State.readChallenge, idle]
    exact congrArg Host.Outcome.next still
  · obtain ⟨t, outside, written, sec⟩ := State.writeToken_of_open runs enabled few tok
    exact ⟨t, congrArg Host.Outcome.next written, by rw [sec, if_pos ok], outside.besideSec⟩
  · obtain ⟨t, outside, written, sec⟩ := State.writeToken_of_open runs enabled few tok
    exact ⟨t, congrArg Host.Outcome.next written, by rw [sec, if_neg (by simp [bad])], outside.besideSec⟩
  · have still : s.writeToken tok = s := by
      rcases closed with idle | disabled | refused
      · simp [State.writeToken, idle]
      · simp [State.writeToken, disabled]
      · simp [State.writeToken, refused]
    exact congrArg Host.Outcome.next still
  · have still : s.debugAct cp act = s := by
      rcases closed with level | down
      · simp [State.debugAct, level]
      · simp [State.debugAct, down]
    exact congrArg Host.Outcome.next still
  · have acts : s.debugAct cp .halt = { s with dev := { s.dev with cpHalted := s.dev.cpHalted.set cp true } } := by
      simp [State.debugAct, level, up]
    exact congrArg Host.Outcome.next acts
  · have acts : s.debugAct cp .resume = { s with dev := { s.dev with cpHalted := s.dev.cpHalted.set cp false } } := by
      simp [State.debugAct, level, up]
    exact congrArg Host.Outcome.next acts
  · have acts : s.debugAct cp .step = s := by simp [State.debugAct]
    exact congrArg Host.Outcome.next acts
  · have acts : s.debugAct cp (.writeReg slot off v) = s.slotWrite slot.toNat off.toNat v := by simp [State.debugAct, level, up]
    exact congrArg Host.Outcome.next acts
  · subst mine
    obtain ⟨done, kept, rest⟩ := s.scrubNoted_scrubs x
    have started := (s.scrubNoted x).startScrub_outside
    obtain ⟨clear, others⟩ := s.scrubbed_mem x
    have cores := s.scrubbed_cores x
    have mem : (s.scrubNoted x).startScrub.mem = (s.scrubbed x).mem := started.mem.trans (State.event_mem _ _ _ _ _ _)
    have core : (s.scrubNoted x).startScrub.cores = (s.scrubbed x).cores := started.cores.trans (State.event_cores _ _ _ _ _ _)
    refine ⟨_, congrArg Host.Outcome.next (State.scrubDone_of_now now ready), done, kept, fun g mine => ⟨?_, fun c bit => ?_⟩, ?_,
      fun c old new => ?_, fun c => ?_, rest, ?_⟩
    · rw [mem]
      exact clear g mine
    · simp only [core, cores c]
      have cleared : s.sec.grants[x.part].coreMask.getLsbD c.val = true ∨ (x.grant.getD Grant.empty).coreMask.getLsbD c.val = true := by
        rcases (List.mem_cons.mp mine).imp_right List.mem_singleton.mp with rfl | rfl
        · exact Or.inl bit
        · exact Or.inr bit
      rw [if_pos cleared]
    · rw [mem]
      exact others
    · simp only [core, cores c, old, new, Bool.false_eq_true, or_self, if_false]
    · simp only [core, cores c]
      split <;> rfl
    · exact ((s.scrubNoted_outside x).step started).besideScrub
  · have still : s.scrubDone p = s := by
      rcases idle with none | ⟨x, now, other⟩ | down
      · simp [State.scrubDone, none]
      · simp [State.scrubDone, now, other]
      · unfold State.scrubDone
        split
        · rfl
        · rw [if_pos (Or.inr down)]
    exact congrArg Host.Outcome.next still

end

section
set_option Elab.async false
/-!
PROOFS. Block registers: a register of each access type (R8), and the slots that are not reached or not assigned (R14, R411).
-/
namespace Sys2Proof.Machine
open State (Outside)

/-! ## Accesses of a block -/

theorem State.regRead_of_block {s : State} {b : RegBlock} {slot : Byte} (reached : s.reaches 1 = true)
    (listed : blockOf slot.toNat = some b) (off : BitVec 20) : s.regRead (.block slot off) =
      { s.blockTouch b off.toNat with dev := { (s.blockTouch b off.toNat).dev with fwReadData := s.blockReg b off.toNat } } := by
  simp only [State.regRead, State.blockRead, listed, reached, if_true]

theorem State.regWrite_of_block {s : State} {b : RegBlock} {slot : Byte} (reached : s.reaches 2 = true)
    (listed : blockOf slot.toNat = some b) (off : BitVec 20) (v : Word) :
    s.regWrite (.block slot off) v = s.blockWrite b off.toNat v := by
  simp only [State.regWrite, State.slotWrite, listed, reached, if_true]

theorem State.regRead_of_unreached {s : State} (unreached : s.reaches 1 = false) (slot : Byte) (off : BitVec 20) :
    s.regRead (.block slot off) = s := by
  simp only [State.regRead, unreached, Bool.false_eq_true, if_false]

theorem State.regWrite_of_unreached {s : State} (unreached : s.reaches 2 = false) (slot : Byte) (off : BitVec 20) (v : Word) :
    s.regWrite (.block slot off) v = s := by
  simp only [State.regWrite, unreached, Bool.false_eq_true, if_false]

theorem State.regRead_of_unassigned {s : State} {slot : Byte} (reached : s.reaches 1 = true) (free : blockOf slot.toNat = none)
    (off : BitVec 20) : s.regRead (.block slot off) =
      { s.unassignedRead slot.toNat off.toNat with
        dev := { (s.unassignedRead slot.toNat off.toNat).dev with fwReadData := 0 } } := by
  simp only [State.regRead, State.blockRead, free, reached, if_true]

/-- The slots of the cores (R14). -/
theorem blockOf_core (c : Fin 8) : blockOf (BitVec.ofNat 8 (0x18 + c.val)).toNat = some (.core c) := by
  revert c
  decide

/-- A cap out of its range leaves the field (R8, R394). -/
theorem State.pmWrite_cap (s : State) (v : Word) : s.pmWrite 0x008 v =
    { s with pm := { s.pm with capMw := if 1000 ≤ v.toNat ∧ v.toNat ≤ 35000 then v else s.pm.capMw } } := by
  simp [State.pmWrite, within]

end Sys2Proof.Machine

open Sys2Proof Sys2Proof.Machine

/-- Settles O33. -/
theorem registersAreAccessed : Obligations.RegistersAreAccessed := by
  unfold Obligations.RegistersAreAccessed
  refine ⟨fun s v reads writes => ⟨fun c => ?_, ?_, ?_, ?_, ?_, ?_⟩,
    fun s slot off v => ⟨fun unreached => ?_, fun unreached => ?_, fun reached free => ?_⟩⟩
  · exact congrArg _ (State.regRead_of_block reads (blockOf_core c) 0x008)
  · exact congrArg _ (State.regRead_of_block (slot := 0x0F) reads rfl 0x0C0)
  · exact congrArg _ (State.regRead_of_block (slot := 0x00) reads rfl 0x008)
  · exact congrArg _ (State.regWrite_of_block (slot := 0x0A) writes rfl 0x008 v)
  · exact congrArg _ ((State.regWrite_of_block (slot := 0x0F) writes rfl 0x008 v).trans (s.pmWrite_cap v))
  · exact congrArg _ (State.regWrite_of_block (slot := 0x03) writes rfl 0x000 v)
  · exact congrArg _ (State.regWrite_of_unreached unreached slot off v)
  · have same := State.regRead_of_unreached unreached slot off
    exact ⟨congrArg _ same, congrArg _ same⟩
  · have recorded := s.event_outside 0x12 0x1209 0 slot.toNat (slot.toNat * 0x100000 + off.toNat)
    refine ⟨_, congrArg Host.Outcome.next (State.regRead_of_unassigned reached free off), ?_, rfl, ?_⟩
    · simp only [State.unassignedRead, recorded.dev]
    · refine recorded.restored (fun p mem => ?_) (fun p out => ?_)
      · cases p <;> simp_all
      · cases p <;> simp_all [State.unassignedRead]
end

section
set_option Elab.async false
/-!
PROOFS. A pose record published (R247, R248): what it sets of the fusion engine, the pins and the memory.
-/
namespace Sys2Proof.Machine
open State (Outside)

/-! ## Levels other than the interrupt's -/

theorem State.postUnsolicited_level {m : PinName} (other : m ≠ .hostIrqN) (s : State) (i : Fin 8) (c : Completion)
    (lost : Mbx → Byte) (setLost : Mbx → Byte → Mbx) :
    (s.postUnsolicited i c lost setLost).pins.level m = s.pins.level m := by
  unfold State.postUnsolicited
  dsimp only
  split
  · rfl
  · split
    · exact State.raiseIrq_level _ _ other
    · rfl

theorem State.poseDeliver_level {m : PinName} (other : m ≠ .hostIrqN) (r : List Byte) (permit : Bool) (s : State) (i : Fin 8) :
    (s.poseDeliver i r permit).pins.level m = s.pins.level m := by
  unfold State.poseDeliver
  split
  · rfl
  · dsimp only
    split
    · split
      · exact State.postUnsolicited_level other _ _ _ _ _
      · rfl
    · rfl

/-- The fall of MOTION_PERMIT moves no other level but the interrupt's. -/
theorem State.permitFall_level {m : PinName} (irq : m ≠ .hostIrqN) (motion : m ≠ .motionPermit) (s : State) :
    s.permitFall.pins.level m = s.pins.level m := by
  have fallen : ∀ t : State, t.pins = (s.setPin .motionPermit false).pins →
      (t.raiseIrq irqPermit).pins.level m = s.pins.level m := fun t same => by
    rw [State.raiseIrq_level t irqPermit irq, same, State.setPin_level_eq, if_neg motion]
  unfold State.permitFall
  split
  · dsimp only
    split
    · exact (congrArg (Pins.level · m) (State.event_pins _ _ _ _ _ _)).trans (fallen _ rfl)
    · exact fallen _ rfl
  · rfl

/-- The fall of MOTION_PERMIT notes its cause in the fusion engine. -/
theorem State.permitFall_fus (s : State) : ∃ (c : Byte) (f : Bool), s.permitFall.fus = { s.fus with lastCause := c, fell := f } := by
  unfold State.permitFall
  split
  · refine ⟨s.permitCause, true, ?_⟩
    dsimp only
    split <;> simp
  · exact ⟨s.fus.lastCause, s.fus.fell, rfl⟩

/-! ## Publication -/

/-- The pin of R248 as a record is published: it falls if a condition fails, and rises within the tighter bound. -/
def State.permitStep (s : State) : State :=
  if s.pins.motionPermit then s.permitCheck else if s.permitAll && s.covWithin 9 then s.setPin .motionPermit true else s

/-- The record written to the port's buffer and the counts of the record after it. -/
def State.recordMade (s : State) (r : List Byte) : State :=
  { s.mportPut r with fus := { (s.mportPut r).fus with
    seq := (s.mportPut r).fus.seq + 1, sticky := 0, lateCount := 0, frameIdPub := (s.mportPut r).fus.frameId } }

theorem State.publish_steps (s : State) (direct : Bool) : s.publish direct = (List.finRange 8).foldl
    (fun t i => t.poseDeliver i (s.permitStep.poseBytes direct) s.permitStep.pins.motionPermit)
    (s.permitStep.recordMade (s.permitStep.poseBytes direct)) := rfl

theorem State.permitStep_outside (s : State) : s.Outside [.pins, .fus, .port, .evr] s.permitStep :=
  .ite s.permitCheck_outside (.ite (.step (.refl s _) (s.setPin_outside _ _)) (.refl s _))

theorem State.permitStep_fus (s : State) : ∃ (c : Byte) (f : Bool), s.permitStep.fus = { s.fus with lastCause := c, fell := f } := by
  unfold State.permitStep State.permitCheck
  split
  · split
    · exact ⟨s.fus.lastCause, s.fus.fell, rfl⟩
    · exact s.permitFall_fus
  · split
    · exact ⟨s.fus.lastCause, s.fus.fell, State.setPin_fus _ _ _⟩
    · exact ⟨s.fus.lastCause, s.fus.fell, rfl⟩

theorem State.permitStep_level {m : PinName} (irq : m ≠ .hostIrqN) (motion : m ≠ .motionPermit) (s : State) :
    s.permitStep.pins.level m = s.pins.level m := by
  unfold State.permitStep State.permitCheck
  split
  · split
    · rfl
    · exact State.permitFall_level irq motion s
  · split
    · exact (s.setPin_level_eq _ _ _).trans (if_neg motion)
    · rfl

/-- With a condition of the permit failing the pin is low. -/
theorem State.permitStep_motionPermit {s : State} (refused : s.permitAll = false) : s.permitStep.pins.motionPermit = false := by
  unfold State.permitStep State.permitCheck
  simp only [refused, Bool.false_and, Bool.false_eq_true, if_false]
  split
  · exact s.permitFall_motionPermit
  next low => simpa using low

theorem State.recordMade_outside (s : State) (r : List Byte) : s.Outside [.fus, .pins] (s.recordMade r) :=
  (s.mportPut_outside r).step (.setFus _ _)

theorem State.recordMade_fus (s : State) (r : List Byte) : ∃ (bufs : Vector (List Byte) 2) (current : Bool),
    (s.recordMade r).fus = { s.fus with
      bufs := bufs, current := current, seq := s.fus.seq + 1, sticky := 0, lateCount := 0, frameIdPub := s.fus.frameId } := by
  unfold State.recordMade State.mportPut
  simp only [State.setPin_fus]
  exact ⟨_, _, rfl⟩

theorem State.recordMade_level (s : State) (r : List Byte) (m : PinName) :
    (s.recordMade r).pins.level m = if m = .poseStrobe then !s.pins.poseStrobe else s.pins.level m :=
  State.setPin_level_eq _ _ _ _

theorem State.delivered_outside (s : State) (r : List Byte) (permit : Bool) :
    s.Outside [.mem, .mbx, .pins, .port] ((List.finRange 8).foldl (fun t i => t.poseDeliver i r permit) s) :=
  Outside.foldl _ (fun t i => t.poseDeliver_outside i r permit) _ s

theorem State.delivered_level {m : PinName} (other : m ≠ .hostIrqN) (s : State) (r : List Byte) (permit : Bool) :
    ((List.finRange 8).foldl (fun t i => t.poseDeliver i r permit) s).pins.level m = s.pins.level m :=
  foldl_keeps (fun t : State => t.pins.level m) _ (State.poseDeliver_level other r permit) _ s

/-- Publication leaves the filter: it sets the buffers, the counts and the cause of a fall. -/
theorem State.publish_fus (s : State) (direct : Bool) : ∃ (c : Byte) (f : Bool) (bufs : Vector (List Byte) 2) (current : Bool),
    (s.publish direct).fus = { s.fus with
      lastCause := c, fell := f, bufs := bufs, current := current, seq := s.fus.seq + 1, sticky := 0, lateCount := 0
      frameIdPub := s.fus.frameId } := by
  obtain ⟨c, f, stepped⟩ := s.permitStep_fus
  obtain ⟨bufs, current, made⟩ := s.permitStep.recordMade_fus (s.permitStep.poseBytes direct)
  refine ⟨c, f, bufs, current, ?_⟩
  rw [State.publish_steps, (State.delivered_outside _ _ _).fus, made, stepped]

theorem State.publish_poseStrobe (s : State) (direct : Bool) : (s.publish direct).pins.poseStrobe = !s.pins.poseStrobe := by
  have stepped : s.permitStep.pins.poseStrobe = s.pins.poseStrobe :=
    State.permitStep_level (m := .poseStrobe) (by decide) (by decide) s
  have made := s.permitStep.recordMade_level (s.permitStep.poseBytes direct) .poseStrobe
  rw [if_pos rfl, stepped] at made
  rw [State.publish_steps]
  exact (State.delivered_level (m := .poseStrobe) (by decide) _ _ _).trans made

theorem State.publish_motionPermit {s : State} (refused : s.permitAll = false) (direct : Bool) :
    (s.publish direct).pins.motionPermit = false := by
  have made := s.permitStep.recordMade_level (s.permitStep.poseBytes direct) .motionPermit
  rw [if_neg (by decide)] at made
  rw [State.publish_steps]
  exact ((State.delivered_level (m := .motionPermit) (by decide) _ _ _).trans made).trans (State.permitStep_motionPermit refused)

/-- Without a subscription a record reaches no window. -/
theorem State.publish_mem {s : State} (none : ∀ i : Fin 8, s.mbx[i].poseSub = none) (direct : Bool) :
    (s.publish direct).mem = s.mem := by
  have before := (s.permitStep_outside.mono (more := [.pins, .fus, .port, .evr]) (by decide)).step
    (s.permitStep.recordMade_outside (s.permitStep.poseBytes direct))
  rw [State.publish_steps, State.poseDelivers_of_none _ (fun i _ => by rw [before.mbx]; exact none i), before.mem]

theorem State.publish_moves (s : State) (direct : Bool) :
    s.Outside [.fus, .pins, .port, .mbx, .evr, .mem] (s.publish direct) := by
  have stepped := s.permitStep_outside.mono (more := [.fus, .pins, .port, .mbx, .evr, .mem]) (by decide)
  rw [State.publish_steps]
  exact (stepped.step (State.recordMade_outside _ _)).step (State.delivered_outside _ _ _)

end Sys2Proof.Machine
end

section
set_option Elab.async false
/-!
PROOFS. The pose timers and the motion port (chapter 10, R218, R230, R246 to R248).
-/
namespace Sys2Proof.Machine
open State (Outside)

/-! ## The gap timer -/

/-- A head older than the gap allows fails the pose condition of the permit (R248). -/
theorem State.permitAll_of_gap {s : State} {l : Nat} (last : s.fus.lastProp = some l) (gap : l + s.fus.params.maxGapNs < s.dtNs) :
    s.permitAll = false := by
  have old : s.permitPose = false := by
    unfold State.permitPose
    simp only [last, decide_eq_false (Nat.not_le.mpr gap), Bool.and_false]
  simp [State.permitAll, old]

/-- Behind the gap one record is published with the pin low. -/
theorem State.publishInvalid_of_gap {s : State} {l : Nat} (last : s.fus.lastProp = some l)
    (gap : l + s.fus.params.maxGapNs < s.dtNs) : s.publishInvalid = s.permitFall.publish false ∧ s.permitFall.permitAll = false := by
  constructor
  · unfold State.publishInvalid State.permitCheck
    rw [State.permitAll_of_gap last gap, if_neg Bool.false_ne_true]
  · obtain ⟨c, f, fallen⟩ := s.permitFall_fus
    refine State.permitAll_of_gap (l := l) (by rw [fallen]; exact last) ?_
    have now : s.permitFall.dtNs = s.dtNs := by
      unfold State.dtNs
      rw [s.permitFall_outside.tu]
    rw [fallen, now]
    exact gap

theorem State.publishInvalid_moves (s : State) : s.Outside [.fus, .pins, .port, .mbx, .evr, .mem] s.publishInvalid :=
  (s.permitCheck_outside.mono (more := [.fus, .pins, .port, .mbx, .evr, .mem]) (by decide)).step (State.publish_moves _ false)

/-- What the record behind the gap sets. -/
theorem State.publishInvalid_spec {s : State} {l : Nat} (last : s.fus.lastProp = some l)
    (gap : l + s.fus.params.maxGapNs < s.dtNs) :
    s.publishInvalid.pins.motionPermit = false ∧ s.publishInvalid.pins.poseStrobe = (!s.pins.poseStrobe)
      ∧ s.publishInvalid.fus.gapSaid = s.fus.gapSaid ∧ s.publishInvalid.fus.seq = s.fus.seq + 1
      ∧ s.publishInvalid.fus.ego = s.fus.ego ∧ ((∀ i : Fin 8, s.mbx[i].poseSub = none) → s.publishInvalid.mem = s.mem) := by
  obtain ⟨published, refused⟩ := State.publishInvalid_of_gap last gap
  obtain ⟨c, f, fallen⟩ := s.permitFall_fus
  obtain ⟨c', f', bufs, current, fus⟩ := s.permitFall.publish_fus false
  have strobe : s.permitFall.pins.poseStrobe = s.pins.poseStrobe :=
    State.permitFall_level (m := .poseStrobe) (by decide) (by decide) s
  rw [published]
  refine ⟨State.publish_motionPermit refused false, ?_, ?_, ?_, ?_, fun none => ?_⟩
  · rw [State.publish_poseStrobe, strobe]
  · rw [fus, fallen]
  · rw [fus, fallen]
  · rw [fus, fallen]
  · rw [State.publish_mem (fun i => by rw [s.permitFall_outside.mbx]; exact none i), s.permitFall_outside.mem]

theorem State.gapExpire_of_service {s : State} {l : Nat} (service : s.permitService = true) (init : s.fus.initialised = true)
    (quiet : s.fus.gapSaid = false) (last : s.fus.lastProp = some l) (gap : l + s.fus.params.maxGapNs < s.dtNs) :
    s.gapExpire = State.publishInvalid { s with fus := { s.fus with gapSaid := true } } := by
  unfold State.gapExpire
  simp only [last, service, init, quiet, gap, Bool.not_false, decide_true, Bool.and_self, if_true]

theorem State.gapExpire_of_early {s : State} {l : Nat} (last : s.fus.lastProp = some l) (early : s.dtNs ≤ l + s.fus.params.maxGapNs) :
    s.gapExpire = s := by
  unfold State.gapExpire
  simp only [last, decide_eq_false (Nat.not_lt.mpr early), Bool.and_false, Bool.false_eq_true, if_false]

/-! ## The alignment -/

/-- The job of an alignment whose average is kept with it. -/
def Job.aligned (j : Job) (payload : List Byte) (since : Nat) : Job := { j with kind := .poseAlign payload (some since) true }

/-- The records of the 200 ms from an instant (R230). -/
def State.alignBytes (s : State) (since : Nat) : List Byte :=
  (s.fus.alignRecs.filter fun r => decide (since ≤ fieldAt r 0 8 ∧ fieldAt r 0 8 ≤ since + alignNs)).flatten

theorem State.alignDone_outside (s : State) : s.Outside [.fw, .fus] s.alignDone := by
  unfold State.alignDone
  split
  · exact .refl s _
  · split
    · exact .ite (.step (.refl s _) (.setFw s _)) (((Outside.refl s _).step (.setFw s _)).step (.setFus _ _))
    · exact .refl s _

theorem State.alignDone_jobs {s : State} {j : Job} {p : List Byte} {since : Nat} (due : s.alignDue = some j)
    (kind : j.kind = .poseAlign p (some since) false) : s.alignDone.fw.jobs =
      s.fw.jobs.map (fun x => if x = j then j.aligned (p ++ s.alignBytes since) since else x) := by
  unfold State.alignDone
  simp only [due, kind]
  split <;> rfl

/-- The last alignment under way ends the collection. -/
theorem State.alignDone_fus {s : State} {j : Job} {p : List Byte} {since : Nat} (due : s.alignDue = some j)
    (kind : j.kind = .poseAlign p (some since) false) (alone : s.fw.jobs = [j]) :
    s.alignDone.fus = { s.fus with alignFrom := none, alignRecs := [] } := by
  unfold State.alignDone
  simp only [due, kind, alone, List.map_cons, List.map_nil, if_true, List.any_cons, List.any_nil, Bool.or_false,
    Bool.false_eq_true, if_false]

/-! ## The motion port -/

theorem State.mportReply_of_fresh {s : State} (fresh : s.pins.mportMiso = some []) (reply : List Byte) (n : Nat) :
    s.mportReply reply n =
      { s with pins := { s.pins with mportMiso := some ((reply ++ List.replicate (n - reply.length) 0).take n) } } := if_pos fresh

theorem State.mportReply_of_served {s : State} (served : s.pins.mportMiso ≠ some []) (reply : List Byte) (n : Nat) :
    s.mportReply reply n = s := if_neg served

theorem State.boundRecord_of_bound {s : State} {b : Bool} (bound : s.fus.bound = some b) :
    s.boundRecord = if b then s.fus.bufs[(1 : Fin 2)] else s.fus.bufs[(0 : Fin 2)] := by
  unfold State.boundRecord
  cases b <;> simp [bound]

/-- A record published while a buffer is bound goes to the other (R247). -/
theorem State.mportPut_of_bound {s : State} {b : Bool} (bound : s.fus.bound = some b) (r : List Byte) :
    (s.mportPut r).fus.bufs[b.toNat]'(by cases b <;> decide) = s.fus.bufs[b.toNat]'(by cases b <;> decide)
      ∧ (s.mportPut r).fus.current = !b := by
  unfold State.mportPut
  simp only [State.setPin_fus, bound]
  cases b <;> simp

end Sys2Proof.Machine

open Sys2Proof Sys2Proof.Machine

/-- Settles O50. -/
theorem poseTimersExpire : Obligations.PoseTimersExpire := by
  unfold Obligations.PoseTimersExpire
  refine fun s => ⟨fun l service init quiet last gap => ?_, fun l last early => congrArg _ (State.gapExpire_of_early last early),
    fun none => ?_, fun j p since due kind => ?_, rfl, rfl⟩
  · have spec := State.publishInvalid_spec (s := { s with fus := { s.fus with gapSaid := true } }) last gap
    have moves := ((State.Outside.setFus s { s.fus with gapSaid := true }).mono (more := [.fus, .pins, .port, .mbx, .evr, .mem])
      (by decide)).step (State.publishInvalid_moves _)
    have expired := State.gapExpire_of_service service init quiet last gap
    generalize State.publishInvalid { s with fus := { s.fus with gapSaid := true } } = t at spec moves expired
    obtain ⟨motion, strobe, said, seq, ego, mem⟩ := spec
    refine ⟨t, congrArg Host.Outcome.next expired, motion, said, seq, strobe, ego, mem,
      moves.restored (fun p mem => ?_) (fun p out => ?_)⟩
    · cases p <;> simp_all
    · cases p <;> simp_all
  · refine congrArg Host.Outcome.next ?_
    unfold State.alignDone
    rw [none]
  · have moves := s.alignDone_outside
    have jobs := State.alignDone_jobs due kind
    have fus := State.alignDone_fus due kind
    refine ⟨s.alignDone, rfl, jobs, fus, ?_⟩
    generalize s.alignDone = t at moves
    refine moves.restored (fun p mem => ?_) (fun p out => ?_)
    · cases p <;> simp_all
    · cases p <;> simp_all

/-- Settles O51. -/
theorem theMotionPortReadsOneRecord : Obligations.TheMotionPortReadsOneRecord := by
  unfold Obligations.TheMotionPortReadsOneRecord
  refine fun s n => ⟨fun high runs => ?_, fun fresh => ⟨fun b bound => ?_, ?_, fun op pose ident => ?_⟩,
    fun served => ⟨?_, ?_, fun op => ?_⟩, rfl, fun b r bound => State.mportPut_of_bound bound r⟩
  · refine congrArg Host.Outcome.next (if_pos ?_)
    simp [high, State.mportUp, runs]
  · refine congrArg Host.Outcome.next ?_
    rw [State.boundRecord_of_bound bound]
    exact State.mportReply_of_fresh fresh _ n
  · exact congrArg Host.Outcome.next (State.mportReply_of_fresh fresh _ 6)
  · refine congrArg Host.Outcome.next ?_
    rw [if_neg (not_or.mpr ⟨pose, ident⟩)]
    exact State.mportReply_of_fresh fresh _ 2
  · exact congrArg Host.Outcome.next (State.mportReply_of_served served _ n)
  · exact congrArg Host.Outcome.next (State.mportReply_of_served served _ n)
  · refine congrArg Host.Outcome.next ?_
    rw [State.mportReply_of_served served, ite_self]
end

section
set_option Elab.async false
/-!
PROOFS. The units of a channel (chapter 4): which parts of the state the operations on slots move.
-/
namespace Sys2Proof.Machine
open State (Outside)

theorem State.noteArrival_outside (s : State) (ch : Fin 32) (dt : Nat) : s.Outside [.sm] (s.noteArrival ch dt) :=
  s.updChan_outside ch _

theorem State.countDrop_outside (s : State) (ch : Fin 32) (newest drop : Bool) : s.Outside [.sm] (s.countDrop ch newest drop) :=
  (Outside.setSm s _).step (State.updChan_outside _ ch _)

theorem State.countDisabled_outside (s : State) (ch : Fin 32) : s.Outside [.sm] (s.countDisabled ch) :=
  (Outside.setSm s _).step (State.updChan_outside _ ch _)

theorem State.templateRefuse_outside (s : State) (ch : Fin 32) (len : Nat) : s.Outside [.sm] (s.templateRefuse ch len) :=
  (Outside.setSm s _).step (State.updChan_outside _ ch _)

theorem State.writeHeader_outside (s : State) (ch : Fin 32) (i : Nat) : s.Outside [.mem] (s.writeHeader ch i) :=
  s.writePool_outside _ _

theorem State.openSlot_outside (s : State) (ch : Fin 32) (d : List Byte) (i exposure exposureDt firstDt : Nat) :
    s.Outside [.sm, .mem] (s.openSlot ch d i exposure exposureDt firstDt) :=
  (s.updChan_outside ch _).trans (State.writeHeader_outside _ ch i)

theorem State.setGroups_outside (s : State) (ch : Fin 32) (i : Nat) (fs : List Nat) :
    s.Outside [.flags, .sm] (s.setGroups ch i fs) :=
  (Outside.foldl _ (fun a f => (a.setFlag_outside f).mono (more := [.flags]) (by decide)) _ s).trans (State.updChan_outside _ ch _)

theorem State.progress_outside (s : State) (ch : Fin 32) (i : Nat) : s.Outside [.flags, .sm, .mem] (s.progress ch i) :=
  ((s.writeHeader_outside ch i).mono (by decide)).step (State.setGroups_outside _ ch i _)

theorem State.closeUnit_outside (s : State) (ch : Fin 32) (i : Nat) : s.Outside [.flags, .sm, .mem] (s.closeUnit ch i) :=
  (((s.updChan_outside ch _).mono (by decide)).step (State.writeHeader_outside _ ch i)).step (State.setGroups_outside _ ch i _)

theorem State.putRecord_outside (s : State) (ch : Fin 32) (i dt : Nat) (data : List Byte) :
    s.Outside [.flags, .sm, .mem] (s.putRecord ch i dt data) :=
  (((s.writePool_outside _ _).mono (by decide)).step (State.updChan_outside _ ch _)).step (State.writeHeader_outside _ ch i)

theorem State.anySlot_outside (s : State) (ch : Fin 32) (d : List Byte) : s.Outside [.flags, .sm] (s.anySlot ch d).2 := by
  unfold State.anySlot
  dsimp only
  split
  · exact .refl s _
  · split
    · exact ((s.freeSlot_outside ch _).mono (by decide)).step (State.countDrop_outside _ ch _ _)
    · exact (s.countDrop_outside ch _ _).mono (by decide)

theorem State.openRecord_outside (s : State) (ch : Fin 32) (d : List Byte) (mk : RecordMaker) :
    s.Outside [.flags, .sm, .mem] (s.openRecord ch d mk) := by
  have slot := (s.anySlot_outside ch d).mono (more := [.flags, .sm, .mem]) (by decide)
  unfold State.openRecord
  split
  · exact (s.templateRefuse_outside ch _).mono (by decide)
  · refine .ite ((s.countDrop_outside ch _ _).mono (by decide)) ?_
    split
    next j t found =>
      rw [found] at slot
      exact (slot.step (State.openSlot_outside _ ch d j 0 0 _)).step (State.putRecord_outside _ ch j _ _)
    next t found =>
      rw [found] at slot
      exact slot

theorem State.appendRecord_outside (s : State) (ch : Fin 32) (d : List Byte) (mk : RecordMaker) :
    s.Outside [.flags, .sm, .mem] (s.appendRecord ch d mk) := by
  unfold State.appendRecord
  dsimp only
  split
  next i _ =>
    split
    · exact (s.templateRefuse_outside ch _).mono (by decide)
    · exact .ite (s.putRecord_outside ch i _ _)
        (Outside.step (.ite (s.closeUnit_outside ch i) (.refl s _)) (State.openRecord_outside _ ch d mk))
  · exact s.openRecord_outside ch d mk

end Sys2Proof.Machine
end

section
set_option Elab.async false
/-!
PROOFS. SYNC_IN and the encoders (chapter 5, R121 to R127).
-/
namespace Sys2Proof.Machine
open State (Outside)

/-! ## The inputs as a family -/

theorem State.updInput_inputs_self (s : State) (n : Fin 4) (f : IfeInput → IfeInput) :
    (s.updInput n f).ife.inputs[n] = f s.ife.inputs[n] := by
  simp [State.updInput]

theorem State.updInput_inputs_ne (s : State) {n k : Fin 4} (other : k ≠ n) (f : IfeInput → IfeInput) :
    (s.updInput n f).ife.inputs[k] = s.ife.inputs[k] := by
  have apart : n.val ≠ k.val := fun e => other (Fin.ext e.symm)
  simp [State.updInput, Vector.getElem_set_ne, apart]

theorem State.updInput_same {s : State} {n : Fin 4} {f : IfeInput → IfeInput} (same : f s.ife.inputs[n] = s.ife.inputs[n]) :
    s.updInput n f = s := by
  have kept : s.ife.inputs.set n (f s.ife.inputs[n]) = s.ife.inputs := by
    rw [same]
    exact Vector.set_getElem_self _
  unfold State.updInput
  rw [kept]

/-- One update of every input of a list. -/
theorem State.foldl_inputs (g : IfeInput → IfeInput) (l : List (Fin 4)) (nodup : l.Nodup) (s : State) :
    (l.foldl (fun (a : State) n => a.updInput n g) s) =
        { s with ife := { s.ife with inputs := (l.foldl (fun (a : State) n => a.updInput n g) s).ife.inputs } }
      ∧ ∀ k : Fin 4, (l.foldl (fun (a : State) n => a.updInput n g) s).ife.inputs[k] =
        if k ∈ l then g s.ife.inputs[k] else s.ife.inputs[k] := by
  induction l generalizing s with
  | nil => exact ⟨rfl, fun k => by simp⟩
  | cons n l ih =>
    obtain ⟨fresh, nodup⟩ := List.nodup_cons.mp nodup
    obtain ⟨beside, inputs⟩ := ih nodup (s.updInput n g)
    rw [List.foldl_cons]
    refine ⟨beside, fun k => ?_⟩
    rw [inputs k]
    by_cases here : k = n
    · subst here
      simp only [fresh, List.mem_cons, true_or, if_true, if_false]
      exact s.updInput_inputs_self k g
    · simp only [List.mem_cons, here, false_or]
      rw [s.updInput_inputs_ne here]

/-! ## Holds -/

/-- An input at the start or the end of a hold (R122): a filter chain starts again from the instant. -/
def IfeInput.cleared (since : Nat) (x : IfeInput) : IfeInput :=
  match x.binding with
  | some b => if b.direct then x else { x.restart with startDt := since }
  | none => x

theorem State.clearChains_eq (s : State) (since : Nat) :
    s.clearChains since = (List.finRange 4).foldl (fun (a : State) n => a.updInput n (IfeInput.cleared since)) s := by
  have step : ∀ (a : State) (n : Fin 4), (match a.ife.inputs[n].binding with
      | some b => if b.direct then a else a.updInput n fun x => { x.restart with startDt := since }
      | none => a) = a.updInput n (IfeInput.cleared since) := fun a n => by
    cases bound : a.ife.inputs[n].binding with
    | none => exact (State.updInput_same (by simp only [IfeInput.cleared, bound])).symm
    | some b =>
      by_cases direct : b.direct = true
      · simp only [direct, if_true]
        exact (State.updInput_same (by simp only [IfeInput.cleared, bound, direct, if_true])).symm
      · simp only [direct, if_false, State.updInput, IfeInput.cleared, bound, Bool.false_eq_true]
  exact congrArg (fun f => (List.finRange 4).foldl f s) (funext fun a => funext fun n => step a n)

theorem State.clearChains_spec (s : State) (since : Nat) :
    s.clearChains since = { s with ife := { s.ife with inputs := (s.clearChains since).ife.inputs } }
      ∧ ∀ k : Fin 4, (s.clearChains since).ife.inputs[k] = s.ife.inputs[k].cleared since := by
  obtain ⟨beside, inputs⟩ := State.foldl_inputs (IfeInput.cleared since) (List.finRange 4) (List.nodup_finRange 4) s
  rw [State.clearChains_eq]
  exact ⟨beside, fun k => (inputs k).trans (if_pos (List.mem_finRange k))⟩

theorem IfeInput.cleared_heldData (since : Nat) (x : IfeInput) : (x.cleared since).heldData = x.heldData := by
  unfold IfeInput.cleared
  split
  · split <;> rfl
  · rfl

/-- With nothing held over nothing is taken after a hold. -/
theorem State.takeHeld_of_nil {s : State} (empty : ∀ n : Fin 4, s.ife.inputs[n].heldData = []) : s.takeHeld = s := by
  refine List.foldlRecOn (motive := fun t => t = s) _ _ rfl fun t still n _ => ?_
  rw [still]
  have same : (s.updInput n fun x => { x with heldData := [] }) = s := State.updInput_same (by rw [← empty n])
  simp only [empty n, List.foldl_nil, same]
  split <;> rfl

/-- A rise of SYNC_IN before the hold that it begins. -/
def State.syncCaptured (s : State) : State :=
  State.event { s with
    pins := { s.pins with syncIn := true }
    ife := { s.ife with syncDt := BitVec.ofNat 64 (s.dtNs - syncFilterNs), syncEdges := countUp s.ife.syncEdges 1 } }
    0x04 0x0401 ((s.dtNs - syncFilterNs) % 2 ^ 32) 0 0

theorem State.syncRise_eq (s : State) : s.syncRise =
    if s.ife.syncIgnore || s.ife.held then s.syncCaptured else s.syncCaptured.holdBegin (s.dtNs - syncFilterNs) := by
  have captured : s.syncCaptured.ife =
      { s.ife with syncDt := BitVec.ofNat 64 (s.dtNs - syncFilterNs), syncEdges := countUp s.ife.syncEdges 1 } :=
    State.event_ife _ _ _ _ _ _
  unfold State.syncRise
  dsimp only
  change (if s.syncCaptured.ife.syncIgnore || s.syncCaptured.ife.held then s.syncCaptured
    else s.syncCaptured.holdBegin (s.dtNs - syncFilterNs)) = _
  rw [captured]

theorem State.syncCaptured_ife (s : State) : s.syncCaptured.ife =
    { s.ife with syncDt := BitVec.ofNat 64 (s.dtNs - syncFilterNs), syncEdges := countUp s.ife.syncEdges 1 } :=
  State.event_ife _ _ _ _ _ _

theorem State.syncCaptured_pins (s : State) : s.syncCaptured.pins = { s.pins with syncIn := true } :=
  State.event_pins _ _ _ _ _ _

theorem State.syncCaptured_outside (s : State) : s.Outside [.pins, .ife, .evr] s.syncCaptured :=
  ((Outside.setPins s _).trans (Outside.setIfe _ _)).trans (State.event_outside _ _ _ _ _ _)

theorem State.holdBegin_eq (s : State) (since : Nat) : s.holdBegin since =
    { s with ife := { s.ife with
      held := true, holdSince := since, inputs := (s.holdBegin since).ife.inputs } } :=
  (State.clearChains_spec { s with ife := { s.ife with held := true, holdSince := since } } since).1

/-- The end of a hold before what waited is taken. -/
def State.holdOver (s : State) (fall cause : Nat) : State :=
  State.event (State.clearChains { s with ife := { s.ife with held := false, stuck := false, restartAt := fall } } fall)
    0x04 0x0403 ((fall - s.ife.holdSince) / 1000) cause 0

theorem State.holdOver_spec (s : State) (fall cause : Nat) :
    (s.holdOver fall cause).ife = { s.ife with
        held := false, stuck := false, restartAt := fall, inputs := (s.holdOver fall cause).ife.inputs }
      ∧ s.Outside [.ife, .evr] (s.holdOver fall cause)
      ∧ ∀ k : Fin 4, (s.holdOver fall cause).ife.inputs[k] = s.ife.inputs[k].cleared fall := by
  obtain ⟨beside, inputs⟩ := State.clearChains_spec
    { s with ife := { s.ife with held := false, stuck := false, restartAt := fall } } fall
  have moves : s.Outside [.ife] (State.clearChains { s with ife := { s.ife with
      held := false, stuck := false, restartAt := fall } } fall) := beside ▸ Outside.setIfe s _
  unfold State.holdOver
  refine ⟨?_, moves.trans (State.event_outside _ _ _ _ _ _), fun k => ?_⟩
  · simp only [State.event_ife]
    exact congrArg State.ife beside
  · simp only [State.event_ife]
    exact inputs k

theorem State.holdEnd_of_nil {s : State} (empty : ∀ n : Fin 4, s.ife.inputs[n].heldData = []) (fall cause : Nat) :
    s.holdEnd fall cause = s.holdOver fall cause :=
  State.takeHeld_of_nil fun n => by
    change (s.holdOver fall cause).ife.inputs[n].heldData = []
    rw [(s.holdOver_spec fall cause).2.2 n, IfeInput.cleared_heldData, empty n]

theorem State.syncStuck_of_stuck {s : State} (held : s.ife.held = true) (high : s.pins.syncIn = true) (first : s.ife.stuck = false)
    (long : s.ife.holdSince + 10000000 < s.dtNs) : s.syncStuck =
      State.event { s with ife := { s.ife with stuck := true, stuckSeen := true } } 0x04 0x0402 (s.ife.holdSince % 2 ^ 32)
        ((s.dtNs - s.ife.holdSince) / 1000000) 0 := by
  exact if_pos (by simp [held, high, first, long])

theorem State.syncStuck_of_early {s : State} (early : s.dtNs ≤ s.ife.holdSince + 10000000) : s.syncStuck = s := by
  unfold State.syncStuck
  rw [if_neg (by simp [Nat.not_lt.mpr early])]

theorem State.Outside.besideIfe {s t : State} (h : s.Outside [.ife, .evr] t) : { t with ife := s.ife, evr := s.evr } = s := by
  refine h.restored (fun p mem => ?_) (fun p out => ?_)
  · cases p <;> simp_all
  · cases p <;> simp_all

theorem State.Outside.besideSync {s t : State} (h : s.Outside [.pins, .ife, .evr] t) :
    { t with pins := s.pins, ife := s.ife, evr := s.evr } = s := by
  refine h.restored (fun p mem => ?_) (fun p out => ?_)
  · cases p <;> simp_all
  · cases p <;> simp_all

end Sys2Proof.Machine

open Sys2Proof Sys2Proof.Machine

/-- Settles O47. -/
theorem syncInHoldsTheInputs : Obligations.SyncInHoldsTheInputs := by
  unfold Obligations.SyncInHoldsTheInputs
  refine fun s => ⟨fun idle => ?_, fun driven => ?_, fun runs held empty => ?_, fun runs free => ?_, fun held high first long => ?_,
    fun early => congrArg _ (State.syncStuck_of_early early)⟩
  · exact congrArg Host.Outcome.next (if_neg (by simp [idle]))
  · have pins := s.syncCaptured_pins
    have ife := s.syncCaptured_ife
    have moves := s.syncCaptured_outside
    have rises : exec .syncInRise s = .next s.syncRise := congrArg Host.Outcome.next (if_pos driven)
    rw [State.syncRise_eq] at rises
    generalize s.syncCaptured = u at pins ife moves rises
    by_cases quiet : (s.ife.syncIgnore || s.ife.held) = true
    · rw [if_pos quiet] at rises
      refine ⟨u, rises, pins, ?_, ?_, fun _ => ⟨?_, ?_⟩, fun ignore free => ?_, moves.besideSync⟩
      · rw [ife]
        exact BitVec.toNat_ofNat _ _
      · rw [ife]
      · rw [ife]
      · rw [ife]
      · simp [ignore, free] at quiet
    · rw [if_neg quiet] at rises
      have begun := u.holdBegin_eq (s.dtNs - syncFilterNs)
      generalize u.holdBegin (s.dtNs - syncFilterNs) = t at begun rises
      refine ⟨t, rises, ?_, ?_, ?_, fun ignore => ?_, fun _ _ => ⟨?_, ?_⟩, ?_⟩
      · rw [begun, pins]
      · rw [begun, ife]
        exact BitVec.toNat_ofNat _ _
      · rw [begun, ife]
      · simp [ignore] at quiet
      · rw [begun]
      · rw [begun]
        rfl
      · have held : u.Outside [.ife] t := by
          rw [begun]
          exact State.Outside.setIfe u _
        exact (moves.step held).besideSync
  · have released : exec .syncInRelease s = .next (State.syncRelease s) := congrArg Host.Outcome.next (if_neg (by simp [runs]))
    have ended : s.syncRelease = State.holdOver { s with pins := { s.pins with syncIn := false } } (s.dtNs - syncFilterNs) 0 :=
      (if_pos held).trans (State.holdEnd_of_nil (s := { s with pins := { s.pins with syncIn := false } }) empty _ 0)
    obtain ⟨ife, moves, inputs⟩ := State.holdOver_spec { s with pins := { s.pins with syncIn := false } } (s.dtNs - syncFilterNs) 0
    rw [ended] at released
    generalize State.holdOver { s with pins := { s.pins with syncIn := false } } (s.dtNs - syncFilterNs) 0 = t
      at released ife moves inputs
    refine ⟨t, released, moves.pins, ?_, ?_, ?_, fun n b bound chain => ?_, ?_⟩
    · rw [ife]
    · rw [ife]
    · rw [ife]
      rfl
    · rw [inputs n]
      simp only [IfeInput.cleared, bound, chain]
      exact ⟨rfl, rfl, rfl⟩
    · exact ((State.Outside.setPins s _).trans moves).besideSync
  · refine congrArg Host.Outcome.next ((if_neg (by simp [runs])).trans ?_)
    exact if_neg (by simp [free])
  · have stuck := State.syncStuck_of_stuck held high first long
    have moves := (State.Outside.setIfe s { s.ife with stuck := true, stuckSeen := true }).trans
      (State.event_outside _ 0x04 0x0402 (s.ife.holdSince % 2 ^ 32) ((s.dtNs - s.ife.holdSince) / 1000000) 0)
    have ife := State.event_ife { s with ife := { s.ife with stuck := true, stuckSeen := true } } 0x04 0x0402
      (s.ife.holdSince % 2 ^ 32) ((s.dtNs - s.ife.holdSince) / 1000000) 0
    generalize State.event { s with ife := { s.ife with stuck := true, stuckSeen := true } } 0x04 0x0402
      (s.ife.holdSince % 2 ^ 32) ((s.dtNs - s.ife.holdSince) / 1000000) 0 = t at stuck moves ife
    exact ⟨t, congrArg Host.Outcome.next stuck, ife, moves.besideIfe⟩
end

section
set_option Elab.async false
/-!
PROOFS. Encoders and inertial output records (chapter 5, R113 to R121, R125 to R127).
-/
namespace Sys2Proof.Machine
open State (Outside)

/-! ## Encoder transitions and samples -/

theorem State.updEnc_encs_self (s : State) (e : Fin 8) (f : Encoder → Encoder) : (s.updEnc e f).ife.encs[e] = f s.ife.encs[e] := by
  simp [State.updEnc]

theorem decide_not_ne (b : Bool) : decide ((!b) ≠ b) = true := by
  cases b <;> rfl

theorem decide_ne_self (b : Bool) : decide (b ≠ b) = false := by
  cases b <;> rfl

theorem State.encTransition_of_a {s : State} {e : Fin 8} {ch : Fin 32} {d : List Byte} (on : s.encChannel e = some (ch, d))
    (a : s.ife.encs[e].lastA = none) (b : s.ife.encs[e].lastB = none) :
    s.encTransition e (!s.ife.encs[e].levelA) s.ife.encs[e].levelB = s.updEnc e fun x => { x with
      levelA := !x.levelA, lastA := some s.dtNs
      pos := x.pos + BitVec.ofInt 32 (encDelta (dfield d 32 1) true (!x.levelA) x.levelB) } := by
  unfold State.encTransition
  simp only [on, a, b, decide_not_ne, decide_ne_self, Bool.not_true, Bool.not_false, Bool.and_false, Bool.and_true, Bool.or_self,
    Bool.false_eq_true, if_false, if_true]
  rfl

theorem State.encTransition_of_b {s : State} {e : Fin 8} {ch : Fin 32} {d : List Byte} (on : s.encChannel e = some (ch, d))
    (a : s.ife.encs[e].lastA = none) (b : s.ife.encs[e].lastB = none) :
    s.encTransition e s.ife.encs[e].levelA (!s.ife.encs[e].levelB) = s.updEnc e fun x => { x with
      levelB := !x.levelB, lastB := some s.dtNs
      pos := x.pos + BitVec.ofInt 32 (encDelta (dfield d 32 1) false x.levelA (!x.levelB)) } := by
  unfold State.encTransition
  simp only [on, a, b, decide_not_ne, decide_ne_self, Bool.not_true, Bool.not_false, Bool.and_false, Bool.and_true, Bool.or_self,
    Bool.false_eq_true, if_false, if_true]
  rfl

theorem State.encTransition_of_still {s : State} {e : Fin 8} {ch : Fin 32} {d : List Byte} (on : s.encChannel e = some (ch, d)) :
    s.encTransition e s.ife.encs[e].levelA s.ife.encs[e].levelB = s := by
  unfold State.encTransition
  simp [on]

theorem State.encIndex_of_channel {s : State} {e : Fin 8} {ch : Fin 32} {d : List Byte} (on : s.encChannel e = some (ch, d)) :
    s.encIndex e = if (dfield d 32 1).testBit 6 then s.updEnc e fun x => { x with
      indexPos := x.pos, indexTs := BitVec.ofNat 32 s.dtNs, indexDt := BitVec.ofNat 64 s.dtNs, indexNew := true
      status := x.status ||| 4 } else s := by
  unfold State.encIndex
  simp only [on]

theorem State.encSampleStep_of_early {s : State} {e : Fin 8} (early : s.dtNs < s.ife.encs[e].nextSample) :
    s.encSampleStep e = s := if_pos early

theorem State.encSampleStep_of_due {s : State} {e : Fin 8} {ch : Fin 32} {d : List Byte} (on : s.encChannel e = some (ch, d))
    (runs : s.ife.encs[e].runs = true) (due : s.ife.encs[e].nextSample ≤ s.dtNs) :
    s.encSampleStep e = s.updEnc e fun x => { x with
      sampled := x.sampled ++ [{ instant := x.nextSample, pos := x.pos, overs := false, quad := false }]
      nextSample := x.nextSample + max 1 x.sampleNs } := by
  refine (if_neg (Nat.not_lt.mpr due)).trans ?_
  simp only [on, runs, if_true]

/-! ## Encoder records -/

theorem mapGet_mapSet {α : Type} (m : List (Nat × α)) (a : Nat) (b : α) : mapGet (mapSet m a b) a = some b := by
  induction m with
  | nil => simp [mapSet, mapGet]
  | cons kv m ih =>
    obtain ⟨k, v⟩ := kv
    by_cases same : k = a
    · simp [mapSet, mapGet, same]
    · by_cases before : a < k
      · simp [mapSet, mapGet, same, before]
      · simp [mapSet, mapGet, same, before, ih]

theorem State.encRecord_of_none {s : State} {e : Fin 8} (none : s.ife.encs[e].sampled = []) : s.encRecord e = s := by
  unfold State.encRecord
  simp only [none]
  split
  next contra => exact absurd contra (List.cons_ne_nil _ _).symm
  next => rfl

theorem State.encRecord_of_early {s : State} {e : Fin 8} {m : EncSample} {rest : List EncSample}
    (sampled : s.ife.encs[e].sampled = m :: rest) (early : s.dtNs < m.instant + 100) : s.encRecord e = s := by
  unfold State.encRecord
  split
  next heq =>
    obtain ⟨rfl, rfl⟩ := List.cons.inj (sampled.symm.trans heq)
    exact if_pos early
  next => rfl

/-- The sample of an encoder leaves its list, and its index is no longer new. -/
def Encoder.recorded (rest : List EncSample) (bad : Bool) (x : Encoder) : Encoder :=
  { x with sampled := rest, indexNew := false, discont := x.discont && bad }

/-- A record that is due, with the state that the stale index left (R43). -/
theorem State.encRecord_of_due {s : State} {e : Fin 8} {ch : Fin 32} {d : List Byte} {m : EncSample} {rest : List EncSample}
    (on : s.encChannel e = some (ch, d)) (sampled : s.ife.encs[e].sampled = m :: rest) (due : m.instant + 100 ≤ s.dtNs) :
    ∃ (overs quad : Bool), overs = (m.overs || (decide ((s.staleIndex e m.instant).sched.spanStart.toNat ≤ m.instant)
          && (s.staleIndex e m.instant).ife.encs[e].spanOver))
      ∧ quad = (m.quad || (decide ((s.staleIndex e m.instant).sched.spanStart.toNat ≤ m.instant)
          && (s.staleIndex e m.instant).ife.encs[e].spanQuad))
      ∧ s.encRecord e =
        let u := (s.staleIndex e m.instant).updEnc e (Encoder.recorded rest (overs || quad))
        let data := encData (s.staleIndex e m.instant).ife.encs[e] m overs quad
        if dRoute d = 1 then
          ((u.updChan ch fun c => { c with recSeq := countUp c.recSeq 1 }).noteArrival ch (stampOf d m.instant)).encOutput e
            (recordBytes (stampOf d m.instant) data false u.sm.chans[ch].recSeq)
        else u.appendRecord ch d fun d => .ok (stampOf d m.instant, data) := by
  refine ⟨_, _, rfl, rfl, ?_⟩
  unfold State.encRecord
  simp only [on, sampled, Nat.not_lt.mpr due, if_false]
  rfl

theorem State.emitInto_frame (s : State) (em : Emit) (r : List Byte) : s.Outside [.mem, .flags, .ife] (s.emitInto em r)
    ∧ (s.emitInto em r).ife.encs = s.ife.encs :=
  ⟨(((s.writePool_outside _ r).mono (by decide)).step (State.setFlag_outside _ _)).step (.setIfe _ _), by simp [State.emitInto]⟩

/-- A record that goes out by the front end leaves what the encoder sampled. -/
theorem State.encOutput_frame (s : State) (e : Fin 8) (r : List Byte) : s.Outside [.mem, .flags, .ife] (s.encOutput e r)
    ∧ (s.encOutput e r).ife.encs[e].sampled = s.ife.encs[e].sampled
    ∧ (s.encOutput e r).ife.encs[e].indexNew = s.ife.encs[e].indexNew := by
  unfold State.encOutput
  split
  next em _ =>
    obtain ⟨moves, encs⟩ := s.emitInto_frame em r
    exact ⟨moves, by rw [encs], by rw [encs]⟩
  next =>
    dsimp only
    split
    · exact ⟨(s.updEnc_outside e _).mono (by decide), by rw [State.updEnc_encs_self], by rw [State.updEnc_encs_self]⟩
    · exact ⟨(s.updEnc_outside e _).mono (by decide), by rw [State.updEnc_encs_self], by rw [State.updEnc_encs_self]⟩

theorem State.staleIndex_of_stale {s : State} {e : Fin 8} {dt : Nat} (new : s.ife.encs[e].indexNew = true)
    (stale : 2 ^ 31 ≤ (dtDiff dt s.ife.encs[e].indexDt.toNat).natAbs) :
    s.staleIndex e dt = (s.updEnc e fun x => { x with indexNew := false }).countStale 0x04 := by
  unfold State.staleIndex
  exact if_pos (by simp only [new, decide_eq_true stale, Bool.and_self])

theorem State.staleIndex_of_fresh {s : State} {e : Fin 8} {dt : Nat} (fresh : s.ife.encs[e].indexNew = false
      ∨ (dtDiff dt s.ife.encs[e].indexDt.toNat).natAbs < 2 ^ 31) : s.staleIndex e dt = s := by
  unfold State.staleIndex
  refine if_neg ?_
  rcases fresh with old | near
  · simp only [old, Bool.false_and, Bool.false_eq_true, not_false_eq_true]
  · simp only [decide_eq_false (Nat.not_le.mpr near), Bool.and_false, Bool.false_eq_true, not_false_eq_true]

/-- A due record takes its sample off the list; the time unit is as the stale index left it. -/
theorem State.encRecord_spec {s : State} {e : Fin 8} {ch : Fin 32} {d : List Byte} {m : EncSample} {rest : List EncSample}
    (on : s.encChannel e = some (ch, d)) (sampled : s.ife.encs[e].sampled = m :: rest) (due : m.instant + 100 ≤ s.dtNs) :
    (s.encRecord e).ife.encs[e].sampled = rest ∧ (s.encRecord e).ife.encs[e].indexNew = false
      ∧ (s.encRecord e).tu = (s.staleIndex e m.instant).tu := by
  obtain ⟨overs, quad, -, -, made⟩ := State.encRecord_of_due on sampled due
  rw [made]
  dsimp only
  have taken := (s.staleIndex e m.instant).updEnc_encs_self e (Encoder.recorded rest (overs || quad))
  have moves := (s.staleIndex e m.instant).updEnc_outside e (Encoder.recorded rest (overs || quad))
  generalize (s.staleIndex e m.instant).updEnc e (Encoder.recorded rest (overs || quad)) = u at taken moves
  split
  · have noted := (u.updChan_outside ch fun c => { c with recSeq := countUp c.recSeq 1 }).step
      (State.noteArrival_outside _ ch (stampOf d m.instant))
    generalize (u.updChan ch fun c => { c with recSeq := countUp c.recSeq 1 }).noteArrival ch (stampOf d m.instant) = v at noted
    obtain ⟨out, list, index⟩ := v.encOutput_frame e (recordBytes (stampOf d m.instant)
      (encData (s.staleIndex e m.instant).ife.encs[e] m overs quad) false u.sm.chans[ch].recSeq)
    refine ⟨?_, ?_, ?_⟩
    · rw [list, noted.ife, taken]
      rfl
    · rw [index, noted.ife, taken]
      rfl
    · rw [out.tu, noted.tu, moves.tu]
  · have out := u.appendRecord_outside ch d fun d => .ok (stampOf d m.instant,
      encData (s.staleIndex e m.instant).ife.encs[e] m overs quad)
    refine ⟨?_, ?_, out.tu.trans moves.tu⟩
    · exact (congrArg (fun x : Ife => x.encs[e].sampled) out.ife).trans (congrArg Encoder.sampled taken)
    · exact (congrArg (fun x : Ife => x.encs[e].indexNew) out.ife).trans (congrArg Encoder.indexNew taken)

theorem State.encRecord_of_clean {s : State} {e : Fin 8} {ch : Fin 32} {d : List Byte} {m : EncSample} {rest : List EncSample}
    (on : s.encChannel e = some (ch, d)) (sampled : s.ife.encs[e].sampled = m :: rest) (due : m.instant + 100 ≤ s.dtNs)
    (overs : m.overs = false) (quad : m.quad = false) (spanOver : s.ife.encs[e].spanOver = false)
    (spanQuad : s.ife.encs[e].spanQuad = false) (fresh : s.ife.encs[e].indexNew = false
      ∨ (dtDiff m.instant s.ife.encs[e].indexDt.toNat).natAbs < 2 ^ 31) (route : dRoute d = 0) : s.encRecord e =
      (s.updEnc e fun x => { x with sampled := rest, indexNew := false, discont := false }).appendRecord ch d fun d =>
        .ok (stampOf d m.instant, natLe 4 m.pos.toNat ++ natLe 4 s.ife.encs[e].indexPos.toNat
          ++ natLe 4 s.ife.encs[e].indexTs.toNat ++ natLe 2 (1 + 2 * b2n s.ife.encs[e].discont + 16 * b2n s.ife.encs[e].indexNew)
          ++ [0, 0]) := by
  obtain ⟨o, q, noOver, noQuad, made⟩ := State.encRecord_of_due on sampled due
  rw [State.staleIndex_of_fresh fresh] at noOver noQuad made
  simp only [overs, spanOver, Bool.and_false, Bool.or_false] at noOver
  simp only [quad, spanQuad, Bool.and_false, Bool.or_false] at noQuad
  subst noOver noQuad
  have data : encData s.ife.encs[e] m false false = natLe 4 m.pos.toNat ++ natLe 4 s.ife.encs[e].indexPos.toNat
      ++ natLe 4 s.ife.encs[e].indexTs.toNat ++ natLe 2 (1 + 2 * b2n s.ife.encs[e].discont + 16 * b2n s.ife.encs[e].indexNew)
      ++ [0, 0] := by
    simp [encData, b2n]
  have update : Encoder.recorded rest (false || false) = fun x => { x with sampled := rest, indexNew := false, discont := false } := by
    funext x
    simp [Encoder.recorded]
  rw [made, data, update, if_neg (by simp [route])]

end Sys2Proof.Machine

open Sys2Proof Sys2Proof.Machine

/-- Settles O48. -/
theorem encodersCount : Obligations.EncodersCount := by
  unfold Obligations.EncodersCount
  refine fun s e ch d on => ⟨fun a b => ⟨?_, ?_⟩, ?_, fun capture => ?_, fun off => ?_, fun runs due => ?_, fun early => ?_,
    fun none => congrArg _ (State.encRecord_of_none none), fun m rest sampled => ⟨fun early => ?_, fun due new stale => ?_,
      fun due overs quad spanOver fresh spanQuad route => ?_⟩⟩
  · exact congrArg Host.Outcome.next (State.encTransition_of_a on a b)
  · exact congrArg Host.Outcome.next (State.encTransition_of_b on a b)
  · exact congrArg Host.Outcome.next (State.encTransition_of_still on)
  · exact congrArg Host.Outcome.next ((State.encIndex_of_channel on).trans (if_pos capture))
  · exact congrArg Host.Outcome.next ((State.encIndex_of_channel on).trans (if_neg (by simp [off])))
  · exact congrArg Host.Outcome.next (State.encSampleStep_of_due on runs due)
  · exact congrArg Host.Outcome.next (State.encSampleStep_of_early early)
  · exact congrArg Host.Outcome.next (State.encRecord_of_early sampled early)
  · obtain ⟨list, index, tu⟩ := State.encRecord_spec on sampled due
    refine ⟨s.encRecord e, rfl, list, index, ?_⟩
    rw [tu, State.staleIndex_of_stale new stale]
    exact congrArg (Option.getD · 0) (mapGet_mapSet _ _ _)
  · exact congrArg Host.Outcome.next (State.encRecord_of_clean on sampled due overs quad spanOver spanQuad fresh route)
end

section
set_option Elab.async false
/-!
PROOFS. Inertial output records (chapter 5, R113, R116 to R121).
-/
namespace Sys2Proof.Machine
open State (Outside)

theorem ifeHead_length (t : Nat) (seq : Word) (status input : Nat) : (ifeHead t seq status input).length = 16 := by
  simp [ifeHead]

theorem State.ifeRecord_of_early {s : State} {n : Fin 4} {b : IfeBinding} (bound : s.ife.inputs[n].binding = some b)
    (early : s.dtNs < s.ife.inputs[n].nextT + fsLat (s.filterOf b)) : s.ifeRecord n = s := by
  unfold State.ifeRecord
  simp only [bound, decide_eq_true early, Bool.or_true, if_true]

/-- The next record of an input after this one. -/
def IfeInput.onward (f : List Byte) (t : Nat) (x : IfeInput) : IfeInput := { x with nextT := t + fsOut f, seq := x.seq + 1 }

/-- A record that is due completes by the hold or by what the window holds. -/
theorem State.ifeRecord_of_due {s : State} {n : Fin 4} {b : IfeBinding} (bound : s.ife.inputs[n].binding = some b)
    (runs : s.ife.inputs[n].runs = true) (chain : b.direct = false)
    (due : s.ife.inputs[n].nextT + fsLat (s.filterOf b) ≤ s.dtNs) : s.ifeRecord n =
      (if s.ife.held then s.invalidRecord n s.ife.inputs[n].nextT 0x10
        else match windowAt s.ife.inputs[n].outs s.ife.inputs[n].nextT with
          | .ready line phase => s.validRecord n (s.filterOf b) s.ife.inputs[n].nextT line phase
          | .part line older newer => s.invalidRecord n s.ife.inputs[n].nextT (2 * b2n older
              + 4 * b2n (s.ife.inputs[n].late (s.filterOf b) s.ife.inputs[n].nextT older newer)
              + 8 * b2n (line.any (·.filled)))).updInput n
        (IfeInput.onward (s.filterOf b) s.ife.inputs[n].nextT) := by
  unfold State.ifeRecord
  simp only [bound, runs, chain, decide_eq_false (Nat.not_lt.mpr due), Bool.not_true, Bool.or_self, Bool.false_eq_true, if_false]
  rfl

/-- With room a record is kept for the next emission. -/
theorem State.ifeOutput_of_room {s : State} {n : Fin 4} (quiet : s.emitOf n.val = none) (room : s.ife.inputs[n].kept.length < 16)
    (r : List Byte) : s.ifeOutput n r = s.updInput n fun x => { x with kept := s.ife.inputs[n].kept ++ [r] } := by
  unfold State.ifeOutput
  rw [quiet]
  refine if_pos ?_
  rw [List.length_append]
  exact room

theorem State.updInput_onward (s : State) (n : Fin 4) (f : IfeInput → IfeInput) (fs : List Byte) (t : Nat) :
    ((s.updInput n f).updInput n (IfeInput.onward fs t)).ife.inputs[n] = (f s.ife.inputs[n]).onward fs t := by
  rw [State.updInput_inputs_self, State.updInput_inputs_self]

/-- An invalid record: six words that no sample gives, behind a head with its status. -/
theorem State.invalidRecord_spec {s : State} {n : Fin 4} (quiet : s.emitOf n.val = none) (room : s.ife.inputs[n].kept.length < 16)
    (f : List Byte) (t status : Nat) : ∃ r : List Byte,
      ((s.invalidRecord n t status).updInput n (IfeInput.onward f t)).ife.inputs[n] = { s.ife.inputs[n] with
          kept := s.ife.inputs[n].kept ++ [r], nextT := t + fsOut f, seq := s.ife.inputs[n].seq + 1 }
        ∧ r.length = 48 ∧ r.take 16 = ifeHead t s.ife.inputs[n].seq status n.val
        ∧ s.Outside [.ife, .free] ((s.invalidRecord n t status).updInput n (IfeInput.onward f t)) := by
  have drawn : s.invalidRecord n t status = State.ifeOutput { s with free := s.free + 1 } n
      (ifeHead t s.ife.inputs[n].seq status n.val ++ natLe 24 (s.draw 192).1.toNat ++ List.replicate 8 0) := rfl
  rw [drawn, State.ifeOutput_of_room (s := { s with free := s.free + 1 }) quiet room]
  refine ⟨_, State.updInput_onward { s with free := s.free + 1 } n _ f t, ?_, ?_, ?_⟩
  · simp [ifeHead_length]
  · rw [List.append_assoc, List.take_append_of_le_length (by simp [ifeHead_length]), List.take_of_length_le (by simp [ifeHead_length])]
  · exact (((Outside.setFree s _).mono (more := [.ife, .free]) (by decide)).step (State.updInput_outside _ n _)).step
      (State.updInput_outside _ n _)

/-- A valid record: the sums of the resampler behind a head; the first settles the input. -/
theorem State.validRecord_spec {s : State} {n : Fin 4} (quiet : s.emitOf n.val = none) (room : s.ife.inputs[n].kept.length < 16)
    (f : List Byte) (t : Nat) (line : List ChainSample) (phase : Nat) :
    ((s.validRecord n f t line phase).updInput n (IfeInput.onward f t)).ife.inputs[n] = { s.ife.inputs[n] with
        kept := s.ife.inputs[n].kept ++ [ifeHead t s.ife.inputs[n].seq (1 + 8 * b2n (line.any (·.filled))) n.val
          ++ ((List.range 6).flatMap fun a => natLe 4 (gainStep f a (resample f line phase a) 24)) ++ List.replicate 8 0]
        nextT := t + fsOut f, seq := s.ife.inputs[n].seq + 1, settled := true }
      ∧ (∀ k, k ≠ n → ((s.validRecord n f t line phase).updInput n (IfeInput.onward f t)).ife.inputs[k] = s.ife.inputs[k])
      ∧ s.Outside [.ife, .evr] ((s.validRecord n f t line phase).updInput n (IfeInput.onward f t)) := by
  unfold State.validRecord
  dsimp only
  rw [State.ifeOutput_of_room quiet room]
  have kept := fun g => s.updInput_inputs_self n g
  have other := fun (k : Fin 4) (ne : k ≠ n) g => s.updInput_inputs_ne ne g
  split
  next settled =>
    rw [kept] at settled
    refine ⟨?_, fun k ne => ?_, ?_⟩
    · rw [State.updInput_onward, IfeInput.onward, ← settled]
    · rw [State.updInput_inputs_ne _ ne, other k ne]
    · exact Outside.step (Outside.step (.refl s _) (s.updInput_outside n _)) (State.updInput_outside _ n _)
  next =>
    refine ⟨?_, fun k ne => ?_, ?_⟩
    · rw [State.updInput_inputs_self]
      simp only [State.event_ife]
      rw [State.updInput_inputs_self, kept]
      rfl
    · rw [State.updInput_inputs_ne _ ne]
      simp only [State.event_ife]
      rw [State.updInput_inputs_ne _ ne, other k ne]
    · exact Outside.step (Outside.step (Outside.step (Outside.step (.refl s _) (s.updInput_outside n _))
        (State.updInput_outside _ n _)) (State.event_outside _ _ _ _ _ _)) (State.updInput_outside _ n _)

theorem State.Outside.besideFree {s t : State} (h : s.Outside [.ife, .free] t) : { t with ife := s.ife, free := s.free } = s := by
  refine h.restored (fun p mem => ?_) (fun p out => ?_)
  · cases p <;> simp_all
  · cases p <;> simp_all

end Sys2Proof.Machine

open Sys2Proof Sys2Proof.Machine

/-- Settles O46. -/
theorem inertialRecordsComplete : Obligations.InertialRecordsComplete := by
  unfold Obligations.InertialRecordsComplete
  refine fun s n b bound runs chain quiet room => ⟨fun early => ?_, fun due held => ?_, fun line phase due free window => ?_,
    fun line older newer due free window => ?_⟩
  · exact congrArg Host.Outcome.next (State.ifeRecord_of_early bound early)
  · have record := State.ifeRecord_of_due bound runs chain due
    rw [if_pos held] at record
    obtain ⟨r, input, length, head, moves⟩ := State.invalidRecord_spec quiet room (s.filterOf b) s.ife.inputs[n].nextT 0x10
    exact ⟨_, r, congrArg Host.Outcome.next record, input, length, head, moves.besideFree⟩
  · have record := State.ifeRecord_of_due bound runs chain due
    rw [if_neg (by simp [free]), window] at record
    obtain ⟨input, others, moves⟩ := State.validRecord_spec quiet room (s.filterOf b) s.ife.inputs[n].nextT line phase
    exact ⟨_, congrArg Host.Outcome.next record, others, input, moves.besideIfe⟩
  · have record := State.ifeRecord_of_due bound runs chain due
    rw [if_neg (by simp [free]), window] at record
    obtain ⟨r, input, length, head, moves⟩ := State.invalidRecord_spec quiet room (s.filterOf b) s.ife.inputs[n].nextT
      (2 * b2n older + 4 * b2n (s.ife.inputs[n].late (s.filterOf b) s.ife.inputs[n].nextT older newer) + 8 * b2n (line.any (·.filled)))
    exact ⟨_, r, congrArg Host.Outcome.next record, input, length, head, moves.besideFree⟩
end

section
set_option Elab.async false
/-!
PROOFS. A bound inertial record carries the pose (chapter 10, R232, R233, R242).
-/
namespace Sys2Proof.Machine
open State (Outside)

/-! ## The votes and the history ring -/

theorem State.addVotes_fus (s : State) (qs : List Nat) (source : Nat) (wheel : Bool) (inp : List Nat) :
    ∃ votes, s.addVotes qs source wheel inp = { s with fus := { s.fus with votes := votes } } := by
  induction qs generalizing s with
  | nil => exact ⟨s.fus.votes, rfl⟩
  | cons q qs ih =>
    obtain ⟨votes, added⟩ := ih (s.addVote q source wheel inp)
    exact ⟨votes, added⟩

/-- The newest checkpoint at its place in the ring. -/
theorem State.storeHistory_newest {s : State} {e : Ego} {rest : List Ego} {base pages : Nat} (newest : s.fus.history = e :: rest)
    (run : s.fus.historyRun = some (base, pages)) : s.storeHistory 1 =
      s.writeMem (base + 12288 * ((s.fus.historyNext + max 1 (65536 * pages / 12288) - 1) % max 1 (65536 * pages / 12288))) e.bytes := by
  unfold State.storeHistory
  simp only [run, newest, Nat.min_eq_left (Nat.le_max_left 1 _), List.take_succ_cons, List.take_zero, List.zipIdx_cons,
    List.zipIdx_nil, List.foldl_cons, List.foldl_nil, Nat.sub_zero]

theorem State.storeHistory_outside (s : State) (n : Nat) : s.Outside [.mem] (s.storeHistory n) := by
  unfold State.storeHistory
  split
  · exact .refl s _
  · exact Outside.foldl _ (fun a x => a.writeMem_outside _ _) _ s

/-- The history with the filter's state in front. -/
def Fusion.checkpointed (f : Fusion) (since : Nat) : Fusion :=
  { f with history := f.ego :: f.history.filter (fun e => decide (since ≤ e.dt)), historyNext := f.historyNext + 1 }

theorem State.checkpoint_fus (s : State) : s.checkpoint.fus = s.fus.checkpointed s.historyFrom :=
  (State.storeHistory_outside _ 1).fus

theorem State.checkpoint_outside (s : State) : s.Outside [.fus, .mem] s.checkpoint :=
  (Outside.setFus s _).trans (State.storeHistory_outside _ 1)

/-- A checkpoint goes to the place of the ring that its number gives; without a ring nothing is written. -/
theorem State.checkpoint_mem (s : State) : (s.fus.historyRun = none → s.checkpoint.mem = s.mem)
    ∧ ∀ base pages : Nat, s.fus.historyRun = some (base, pages) → s.checkpoint.mem =
      (s.writeMem (base + 12288 * (s.fus.historyNext % max 1 (65536 * pages / 12288))) s.fus.ego.bytes).mem := by
  refine ⟨fun none => ?_, fun base pages run => ?_⟩
  · unfold State.checkpoint State.storeHistory
    simp only [none]
  · have place : ∀ places : Nat, (s.fus.historyNext + 1 + places - 1) % places = s.fus.historyNext % places := fun places => by
      rw [Nat.add_right_comm, Nat.add_sub_cancel, Nat.add_mod_right]
    have stored := State.storeHistory_newest (s := { s with fus := s.fus.checkpointed s.historyFrom }) rfl run
    simp only [Fusion.checkpointed, place] at stored
    unfold State.checkpoint
    rw [stored]
    unfold State.writeMem
    split <;> rfl

theorem State.writeMem_mem_of_eq {s t : State} (same : t.mem = s.mem) (a : Nat) (bs : List Byte) :
    (t.writeMem a bs).mem = (s.writeMem a bs).mem := by
  unfold State.writeMem
  split
  · simp only [same]
  · exact same

/-! ## Propagation -/

/-- The head carried over the direct samples: nothing but it and those that are over changes. -/
theorem State.rebase_fus (s : State) : ∃ head direct, s.rebase = { s with fus := { s.fus with head := head, direct := direct } } :=
  ⟨_, _, rfl⟩

/-- The head published: of the fusion engine its buffers and counts change besides. -/
theorem State.rebasePublish_spec (s : State) :
    (∃ head direct c f bufs current, s.rebasePublish.fus = { s.fus with
      head := head, direct := direct, lastCause := c, fell := f, bufs := bufs, current := current, seq := s.fus.seq + 1, sticky := 0
      lateCount := 0, frameIdPub := s.fus.frameId })
    ∧ s.rebasePublish.pins.poseStrobe = (!s.pins.poseStrobe)
    ∧ ((∀ i : Fin 8, s.mbx[i].poseSub = none) → s.rebasePublish.mem = s.mem)
    ∧ s.Outside [.fus, .pins, .port, .mbx, .evr, .mem] s.rebasePublish := by
  obtain ⟨head, direct, rebased⟩ := s.rebase_fus
  have fus : s.rebase.fus = { s.fus with head := head, direct := direct } := congrArg State.fus rebased
  have moved : s.Outside [.fus] s.rebase := by
    rw [rebased]
    exact Outside.setFus s _
  unfold State.rebasePublish
  generalize s.rebase = u at fus moved
  obtain ⟨c, f, bufs, current, published⟩ := u.publish_fus false
  refine ⟨⟨head, direct, c, f, bufs, current, by rw [published, fus]⟩, ?_, fun none => ?_,
    (moved.mono (by decide)).step (u.publish_moves false)⟩
  · rw [u.publish_poseStrobe false, moved.pins]
  · rw [State.publish_mem (fun i => by rw [moved.mbx]; exact none i) false, moved.mem]

/-- What the engine keeps of a record that carries an initialised filter. -/
def State.carried (s : State) (r : List Byte) : Fusion :=
  let rec' : PropRecord := { input := s.fus.propInput, noise := s.fus.noiseFactor, bytes := r }
  { s.fus with
    ego := s.fus.ego.carry s.rig rec' (max s.fus.ego.dt (fieldAt r 0 8)), propBad := false, gapSaid := false, lastProp := some s.dtNs
    inertialLog := rec' :: s.fus.inertialLog.filter fun x => decide (s.historyFrom ≤ fieldAt x.bytes 0 8) }

theorem State.propagate_of_clean {s : State} (init : s.fus.initialised = true) (r : List Byte) :
    s.propagate r .clean = (State.checkpoint { s with fus := s.carried r }).rebasePublish := by
  unfold State.propagate
  dsimp only
  refine congrArg (fun f : Fusion => (State.checkpoint { s with fus := f }).rebasePublish) ?_
  simp only [State.carried, init, if_true]

/-- A clean record carries an initialised filter to its instant, keeps a checkpoint and publishes. -/
theorem State.propagate_spec {s : State} (init : s.fus.initialised = true) (r : List Byte) :
    (s.propagate r .clean).fus.binds = s.fus.binds ∧ (s.propagate r .clean).fus.ego.dt = max s.fus.ego.dt (fieldAt r 0 8)
      ∧ (s.propagate r .clean).fus.lastProp = some s.dtNs ∧ (s.propagate r .clean).fus.propBad = false
      ∧ (s.propagate r .clean).fus.seq = s.fus.seq + 1 ∧ (s.propagate r .clean).pins.poseStrobe = (!s.pins.poseStrobe)
      ∧ (s.propagate r .clean).fus.sticky = 0
      ∧ (s.propagate r .clean).fus.history.head? = some (s.propagate r .clean).fus.ego
      ∧ (s.propagate r .clean).fus.resident = s.fus.resident
      ∧ ((∀ i : Fin 8, s.mbx[i].poseSub = none) → s.fus.historyRun = none → (s.propagate r .clean).mem = s.mem)
      ∧ (∀ base pages : Nat, (∀ i : Fin 8, s.mbx[i].poseSub = none) → s.fus.historyRun = some (base, pages) →
          (s.propagate r .clean).mem = (s.writeMem (base + 12288 * (s.fus.historyNext % max 1 (65536 * pages / 12288)))
            (s.propagate r .clean).fus.ego.bytes).mem)
      ∧ s.Outside [.fus, .pins, .port, .mbx, .evr, .mem] (s.propagate r .clean) := by
  rw [State.propagate_of_clean init]
  have fus := State.checkpoint_fus { s with fus := s.carried r }
  have before := (Outside.setFus s (s.carried r)).trans (State.checkpoint_outside _)
  obtain ⟨bare, ring⟩ := State.checkpoint_mem { s with fus := s.carried r }
  generalize State.checkpoint { s with fus := s.carried r } = u at fus before bare ring
  obtain ⟨⟨head, direct, c, f, bufs, current, published⟩, strobe, mem, moves⟩ := u.rebasePublish_spec
  have subs : (∀ i : Fin 8, s.mbx[i].poseSub = none) → u.rebasePublish.mem = u.mem := fun none =>
    mem fun i => by rw [before.mbx]; exact none i
  rw [published, fus]
  refine ⟨rfl, rfl, rfl, rfl, rfl, ?_, rfl, rfl, rfl, fun none run => (subs none).trans (bare run), fun base pages none run => ?_,
    (before.mono (by decide)).step moves⟩
  · rw [strobe, before.pins]
  · refine ((subs none).trans (ring base pages run)).trans (State.writeMem_mem_of_eq ?_ _ _)
    rfl

/-! ## The record of a binding -/

/-- The engine with a record of a binding taken off its ring. -/
def Fusion.bindTaken (f : Fusion) (b : Binding) : Fusion :=
  { f with binds := f.binds.map fun (x : Binding) => if x.input = b.input then { x with nextRec := x.nextRec + 1 } else x }

/-- The engine with a record taken, what an alignment collected and the votes after it. -/
def Fusion.recordTaken (f : Fusion) (b : Binding) (recs : List (List Byte)) (votes : List VoteEst) : Fusion :=
  { f.bindTaken b with alignRecs := recs, votes := votes }

theorem State.takeRecord_of_unflagged {s : State} {n : Fin 4} {b : Binding} (bound : s.activeBind n.val = some b)
    (clear : s.flagSet (b.flagFirst + b.nextRec) = false) (chk : Check) : s.takeRecord n chk = s := by
  unfold State.takeRecord
  simp only [bound, clear, Bool.not_false, Bool.or_true, Bool.true_or, if_true]

/-- A valid record kept for an alignment under way and counted in the votes (R230, R236). -/
def State.recordVotes (s : State) (n : Fin 4) (r : List Byte) : State :=
  let s := if n.val = s.fus.params.primary ∧ s.fus.alignFrom.isSome then
    { s with fus := { s.fus with alignRecs := s.fus.alignRecs ++ [r] } } else s
  s.addVotes [1, 3] (inertialSource n.val) false (natsOf r ++ natsOf s.rig)

theorem State.recordVotes_eq (s : State) (n : Fin 4) (r : List Byte) :
    ∃ recs votes, s.recordVotes n r = { s with fus := { s.fus with alignRecs := recs, votes := votes } } := by
  unfold State.recordVotes
  split
  · obtain ⟨votes, voted⟩ := State.addVotes_fus { s with fus := { s.fus with alignRecs := s.fus.alignRecs ++ [r] } } [1, 3]
      (inertialSource n.val) false (natsOf r ++ natsOf s.rig)
    exact ⟨_, votes, voted⟩
  · obtain ⟨votes, voted⟩ := s.addVotes_fus [1, 3] (inertialSource n.val) false (natsOf r ++ natsOf s.rig)
    exact ⟨s.fus.alignRecs, votes, voted⟩

section
variable {s : State} {n : Fin 4} {b : Binding} (bound : s.activeBind n.val = some b) (more : b.nextRec < b.flagCount)
  (flagged : s.flagSet (b.flagFirst + b.nextRec) = true) (span : s.inSpan = true)
include bound more flagged span

theorem State.takeRecord_of_invalid
    (invalid : (fieldAt (s.readPool (b.ringOffset + b.nextRec % b.ringRecs * 48) 48) 12 2).testBit 0 = false) (chk : Check) :
    s.takeRecord n chk = { s with fus := { s.fus.bindTaken b with sticky := s.fus.sticky ||| 0x400 } } := by
  unfold State.takeRecord
  simp only [bound, decide_eq_false (Nat.not_le.mpr more), flagged, span, invalid, Bool.not_true, Bool.or_self, Bool.not_false,
    Bool.false_eq_true, if_false, if_true]
  rfl

/-- A valid record votes, and the one of the unit that carries the filter propagates. -/
theorem State.takeRecord_of_valid
    (valid : (fieldAt (s.readPool (b.ringOffset + b.nextRec % b.ringRecs * 48) 48) 12 2).testBit 0 = true)
    (good : s.fus.unitBad s.fus.params.primary = false) (chk : Check) : ∃ recs votes, s.takeRecord n chk =
      if n.val = s.fus.params.primary then
        State.propagate { s with fus := s.fus.recordTaken b recs votes }
          (s.readPool (b.ringOffset + b.nextRec % b.ringRecs * 48) 48) chk
      else { s with fus := s.fus.recordTaken b recs votes } := by
  unfold State.takeRecord
  simp only [bound, decide_eq_false (Nat.not_le.mpr more), flagged, span, valid, Bool.not_true, Bool.or_self, Bool.false_eq_true,
    if_false]
  generalize s.readPool (b.ringOffset + b.nextRec % b.ringRecs * 48) 48 = r
  obtain ⟨recs, votes, voted⟩ := State.recordVotes_eq { s with fus := s.fus.bindTaken b } n r
  have primary : (s.fus.recordTaken b recs votes).propInput = s.fus.params.primary := if_neg (Bool.not_eq_true _ ▸ good)
  refine ⟨recs, votes, ?_⟩
  change (if n.val = (State.recordVotes { s with fus := s.fus.bindTaken b } n r).fus.propInput
    then (State.recordVotes { s with fus := s.fus.bindTaken b } n r).propagate r chk
    else State.recordVotes { s with fus := s.fus.bindTaken b } n r) = _
  rw [voted]
  exact congrArg (fun k => if n.val = k then State.propagate { s with fus := s.fus.recordTaken b recs votes } r chk
    else { s with fus := s.fus.recordTaken b recs votes }) primary

end

theorem State.Outside.besidePublished {s t : State} (h : s.Outside [.fus, .pins, .port, .mbx, .evr, .mem] t) :
    { t with fus := s.fus, pins := s.pins, port := s.port, mbx := s.mbx, evr := s.evr, mem := s.mem } = s := by
  refine h.restored (fun p mem => ?_) (fun p out => ?_)
  · cases p <;> simp_all
  · cases p <;> simp_all

end Sys2Proof.Machine

open Sys2Proof Sys2Proof.Machine

/-- Settles O49. -/
theorem inertialRecordsPropagate : Obligations.InertialRecordsPropagate := by
  unfold Obligations.InertialRecordsPropagate
  refine fun s n chk => ⟨fun unbound => ?_, fun b bound => ⟨fun clear => ?_, fun more flagged span => ⟨fun invalid => ?_,
    fun valid good other => ?_, fun valid good first init clean => ?_⟩⟩⟩
  · refine congrArg Host.Outcome.next ?_
    unfold State.takeRecord
    rw [unbound]
  · exact congrArg Host.Outcome.next (State.takeRecord_of_unflagged bound clear chk)
  · exact congrArg Host.Outcome.next (State.takeRecord_of_invalid bound more flagged span invalid chk)
  · obtain ⟨recs, votes, taken⟩ := State.takeRecord_of_valid bound more flagged span valid good chk
    rw [if_neg other] at taken
    exact ⟨_, congrArg Host.Outcome.next taken, rfl, rfl, rfl, rfl, rfl⟩
  · subst clean
    obtain ⟨recs, votes, taken⟩ := State.takeRecord_of_valid bound more flagged span valid good .clean
    rw [if_pos first] at taken
    obtain ⟨binds, dt, last, ok, seq, strobe, sticky, history, resident, bare, ring, moves⟩ := State.propagate_spec
      (s := { s with fus := s.fus.recordTaken b recs votes }) init
      (s.readPool (b.ringOffset + b.nextRec % b.ringRecs * 48) 48)
    generalize State.propagate { s with fus := s.fus.recordTaken b recs votes }
      (s.readPool (b.ringOffset + b.nextRec % b.ringRecs * 48) 48) .clean = t at *
    refine ⟨t, congrArg Host.Outcome.next taken, binds, dt, last, ok, seq, strobe, sticky, history, resident, bare, ?_, ?_⟩
    · intro base pages none run
      refine (ring base pages none run).trans (State.writeMem_mem_of_eq ?_ _ _)
      rfl
    · exact (((State.Outside.setFus s _).mono (by decide)).and moves).besidePublished
end

section
set_option Elab.async false
/-!
PROOFS. The events of the schedule (chapter 3): ballast, latch and boundary (R72 to R74, R80).
-/
namespace Sys2Proof.Machine
open State (Outside)

/-! ## Ballast -/

/-- The power state of an idle core at the ballast grain. -/
def State.ballasted (s : State) (p : Power) (c : Fin 8) : CorePower :=
  let a : State := { s with pm := p }
  if (a.ballastOf c).isSome && ((a.seq (.core c)).running.isEmpty && !a.clockStopped c) then { p.cores[c] with filler := a.idleFiller c }
  else p.cores[c]

theorem State.ballasted_step (s : State) (a : State) (c : Fin 8) (same : { a with pm := s.pm } = s) :
    (if (a.ballastOf c).isSome then a.settleFiller (.core c) else a) = a.updCorePower c fun _ => s.ballasted a.pm c := by
  have back : ({ s with pm := a.pm } : State) = a := by rw [← same]
  have kept : a.updCorePower c (fun _ => a.pm.cores[c]) = a := a.updCorePower_same c
  unfold State.ballasted State.settleFiller
  simp only [back]
  by_cases due : (a.ballastOf c).isSome = true
  · by_cases idle : ((a.seq (.core c)).running.isEmpty && !a.clockStopped c) = true
    · simp only [due, idle, Bool.and_self, if_true]
      rfl
    · simp only [due, idle, Bool.and_false, Bool.false_eq_true, if_false, if_true]
      exact kept.symm
  · simp only [Bool.not_eq_true] at due
    simp only [due, Bool.false_and, Bool.false_eq_true, if_false, kept]

theorem State.ballasted_set_ne (s : State) (p : Power) (c d : Fin 8) (x : CorePower) (other : d ≠ c) :
    s.ballasted { p with cores := p.cores.set d x } c = s.ballasted p c := by
  have apart : d.val ≠ c.val := fun e => other (Fin.ext e)
  have core : (p.cores.set d x)[c] = p.cores[c] := by simp [Vector.getElem_set_ne, apart]
  have ballast : State.ballastOf { s with pm := { p with cores := p.cores.set d x } } c = State.ballastOf { s with pm := p } c := by
    unfold State.ballastOf
    dsimp only
    rw [core]
    rfl
  have stopped : State.clockStopped { s with pm := { p with cores := p.cores.set d x } } c =
      State.clockStopped { s with pm := p } c := by
    unfold State.clockStopped
    simp only [core]
    rfl
  unfold State.ballasted State.idleFiller
  dsimp only
  rw [ballast, stopped, core]
  rfl

/-- The ballast instant settles the filler of each idle core and nothing else (R72). -/
theorem State.ballastRamp_spec (s : State) : { s.ballastRamp with pm := s.pm } = s
    ∧ ∀ c : Fin 8, s.ballastRamp.pm.cores[c] = s.ballasted s.pm c := by
  obtain ⟨beside, -, cores⟩ := State.foldl_cores (s := s) (g := s.ballasted)
    (step := fun a c => if (a.ballastOf c).isSome then a.settleFiller (.core c) else a)
    s.ballasted_step s.ballasted_set_ne (List.finRange 8) (List.nodup_finRange 8) s rfl
  unfold State.ballastRamp
  exact ⟨beside, fun c => (cores c).trans (if_pos (List.mem_finRange c))⟩

theorem opMhz_pos (op : Nat) : 0 < opMhz op := by
  unfold opMhz
  rcases op with _ | _ | _ | _ | _ | _ | _ | _ | op <;> simp

/-- The level that the image in force gives an idle core, in proportion to its clock (log 63). -/
theorem State.ballasted_filler {s : State} {c : Fin 8} {img : Image} (claim : s.claimOf c = some img) (opens : s.sectionOpen = true)
    (due : img.ballastStart ≤ s.grain) (idle : (s.seq (.core c)).running = []) (runs : s.clockStopped c = false) :
    (s.ballasted s.pm c).filler = .ballast (scaleLevel (img.ballastLevel c.val)
      (min s.pm.cores[c].op.toNat (min s.pm.ceiling.toNat s.pm.topOp)) (min s.pm.ceiling.toNat s.pm.topOp)) := by
  have ballast : s.ballastOf c = some (scaleLevel (img.ballastLevel c.val)
      (min s.pm.cores[c].op.toNat (min s.pm.ceiling.toNat s.pm.topOp)) (min s.pm.ceiling.toNat s.pm.topOp)) := by
    unfold State.ballastOf
    simp only [claim, opens, due, and_self, if_true]
  unfold State.ballasted State.idleFiller
  simp only [ballast, idle, runs, Option.isSome_some, List.isEmpty_nil, Bool.not_false, Bool.and_self, if_true]

/-! ## What the latch leaves of the instants -/

/-- Whether the latch is taken, the fence that it took, and the next boundary. -/
def State.timing (s : State) : Bool × Byte × Nat := (s.sched.latched, s.sched.fenceLatched, s.sched.nextBoundary)

theorem State.timing_of_outside {s t : State} {parts : List Part} (h : s.Outside parts t) (out : .sched ∉ parts := by decide) :
    t.timing = s.timing := by
  unfold State.timing
  rw [h.sched out]

theorem State.enterFault_timing (s : State) : s.enterFault.timing = s.timing := by
  unfold State.enterFault
  split
  · rfl
  · dsimp only
    refine (State.timing_of_outside (State.leaveService_outside _ _)).trans ?_
    have faulted : (State.raiseIrq { s with dev := { s.dev with phase := .fault } } irqState).timing = s.timing :=
      State.timing_of_outside ((Outside.setDev s _).trans (State.raiseIrq_outside _ _))
    generalize State.raiseIrq { s with dev := { s.dev with phase := .fault } } irqState = t at faulted ⊢
    have gone := foldl_keeps State.timing (fun (s : State) (j : Job) => s.completeJob j errInternal 1 0 0 0 s.dtNs)
      (fun a j => State.timing_of_outside (a.completeJob_outside j _ _ _ _ _ _)) (t.fw.jobs.filter fun j => !servedInFault j.opcode) t
    generalize (t.fw.jobs.filter fun j => !servedInFault j.opcode).foldl _ t = u at gone ⊢
    have failed := foldl_keeps State.timing State.failWaiting (fun a q => State.timing_of_outside (a.failWaiting_outside q))
      (u.fw.queue.filter fun q => !servedInFault q.opcode) u
    generalize (u.fw.queue.filter fun q => !servedInFault q.opcode).foldl State.failWaiting u = v at failed ⊢
    have all := (State.timing_of_outside v.noteCommits_outside).trans (failed.trans (gone.trans faulted))
    split
    · exact all
    · exact all

theorem State.fatal_timing (s : State) (trip : Bool) (source code a b c : Nat) : (s.fatal trip source code a b c).timing = s.timing := by
  have noted := State.timing_of_outside (s.fatalNoted_outside trip source code a b c)
  rw [State.fatal_eq]
  split
  · exact (State.enterFault_timing _).trans noted
  · exact noted

theorem State.repeatFor_timing (s : State) (p : Fin 4) : (s.repeatFor p).timing = s.timing := by
  unfold State.repeatFor
  dsimp only
  split
  · rfl
  · split
    · exact (State.timing_of_outside (State.event_outside _ _ _ _ _ _)).trans rfl
    · rfl

theorem State.adoptFamily_timing (s : State) (p : Fin 4) : (s.adoptFamily p).timing = s.timing := by
  unfold State.adoptFamily
  split <;> rfl

theorem State.noteRelief_timing (s : State) (k : Fin 64) (relief : Byte) : (s.noteRelief k relief).timing = s.timing := by
  unfold State.noteRelief
  split
  · split <;> rfl
  · rfl

theorem State.selectFor_timing (s : State) (p : Fin 4) : (s.selectFor p).timing = s.timing := by
  refine Eq.trans ?_ (s.adoptFamily_timing p)
  unfold State.selectFor
  generalize s.adoptFamily p = t
  dsimp only
  split
  · rfl
  · split
    · rfl
    · split
      · exact State.noteRelief_timing _ _ _
      · split
        · exact State.fatal_timing _ _ _ _ _ _ _
        · rfl

theorem State.applySelect_timing (s : State) (p : Fin 4) (mode rung slot : Nat) : (s.applySelect p mode rung slot).timing = s.timing := by
  unfold State.applySelect
  split <;> rfl

theorem State.applySelects_timing (s : State) : s.applySelects.timing = s.timing := by
  unfold State.applySelects
  refine foldl_keeps State.timing _ (fun a j => ?_) _ s
  dsimp only
  split
  · exact State.applySelect_timing _ _ _ _ _
  · rfl

/-! ## What the power manager moves at the latch -/

theorem State.capDone_outside (s : State) (status r0 r1 : Nat) :
    s.Outside [.fw, .mbx, .pins, .port] (s.capDone status r0 r1) :=
  Outside.foldl _ (fun a j => a.completeJob_outside j _ _ _ _ _ _) _ s

theorem State.setRung_outside (s : State) (new cause : Nat) : s.Outside [.pm, .evr] (s.setRung new cause) :=
  .ite (.refl s _) ((Outside.setPm s _).trans (State.pmEvent_outside _ _ _ _ _))

theorem State.setCeiling_outside (s : State) (new avg : Nat) : s.Outside [.pm, .evr] (s.setCeiling new avg) :=
  (Outside.setPm s _).trans (State.pmEvent_outside _ _ _ _ _)

theorem State.capUnattainable_outside (s : State) (avg : Nat) :
    s.Outside [.pm, .evr, .fw, .mbx, .pins, .port] (s.capUnattainable avg) := by
  have noted := (Outside.setPm s { s.pm with unattainable := true }).mono (more := [.pm, .evr, .fw, .mbx, .pins, .port]) (by decide)
  exact Outside.step (.ite noted ((noted.step (.setPm _ _)).step (State.pmEvent_outside _ _ _ _ _))) (State.capDone_outside _ _ _ _)

theorem State.ascend_outside (s : State) (avg : Nat) : s.Outside [.pm, .evr] (s.ascend avg) :=
  .ite (.ite (.refl s _) ((s.setCeiling_outside _ avg).step (.setPm _ _)))
    (.ite (.ite (.refl s _) ((s.setRung_outside _ 3).step (.setPm _ _))) (.refl s _))

theorem State.powerControl_outside (s : State) : s.Outside [.pm, .evr, .fw, .mbx, .pins, .port] s.powerControl := by
  unfold State.powerControl
  dsimp only
  generalize hu : ({ s with pm := _ } : State) = u
  have set : s.Outside [.pm, .evr, .fw, .mbx, .pins, .port] u := hu ▸ (Outside.setPm s _).mono (by decide)
  have met : s.Outside [.pm, .evr, .fw, .mbx, .pins, .port] (if s.pm.capMet then u.capDone stOk s.rung0 s.pm.ceiling.toNat else u) :=
    .ite (set.step (State.capDone_outside _ _ _ _)) set
  generalize (if s.pm.capMet then u.capDone stOk s.rung0 s.pm.ceiling.toNat else u) = v at met ⊢
  exact .ite (met.step (v.setRung_outside _ _)) <| .ite (met.step (v.setCeiling_outside _ _)) <|
    .ite (met.step (v.capUnattainable_outside _)) <| .ite (met.step (v.setRung_outside _ _)) <|
    .ite (met.step (v.setRung_outside _ _)) <| .ite (met.step (v.ascend_outside _)) met

theorem State.setMargin_outside (s : State) (k : Fin 8) (new : Nat) : s.Outside [.pm, .evr] (s.setMargin k new) :=
  .ite (.refl s _) ((Outside.setPm s _).trans (State.pmEvent_outside _ _ _ _ _))

theorem State.raiseMargins_outside (s : State) : s.Outside [.pm, .evr] s.raiseMargins :=
  ((Outside.setPm s _).mono (by decide)).and
    (Outside.foldl _ (fun a k => .ite (a.setMargin_outside k _) (.refl a _)) _ _)

theorem State.powerMeasure_outside (s : State) : s.Outside [.pm, .evr] s.powerMeasure :=
  have set := (Outside.setPm s _).mono (more := [.pm, .evr]) (by decide)
  .ite (set.step (State.pmEvent_outside _ _ _ _ _)) set

theorem State.stepRail_outside (s : State) : s.Outside [.pm] s.stepRail := .ite (.refl s _) (.setPm s _)

theorem State.restartClocks_outside (s : State) : s.Outside [.pm] s.restartClocks :=
  Outside.foldl _ (fun a c => .ite (a.updCorePower_outside c _) (.refl a _)) _ s

/-! ## Latch and boundary -/

/-- The latch chooses images and the power manager's points; the instants stay but for the latch taken (R73). -/
theorem State.latchNow_timing (s : State) : s.latchNow.timing = (true, s.sched.fence, s.sched.nextBoundary) := by
  unfold State.latchNow
  dsimp only
  have taken : ∀ t : State, t = { s with sched := { s.sched with latched := true, fenceLatched := s.sched.fence } } →
      t.powerMeasure.timing = (true, s.sched.fence, s.sched.nextBoundary) := fun t h =>
    (State.timing_of_outside t.powerMeasure_outside).trans (by rw [h]; rfl)
  have measured := taken _ rfl
  generalize State.powerMeasure { s with sched := { s.sched with latched := true, fenceLatched := s.sched.fence } } = u at measured ⊢
  have chosen : (if u.dev.cpHalted[0] then (List.finRange 4).foldl State.repeatFor u
      else (List.finRange 4).foldl State.selectFor u.applySelects.powerLatch).timing = u.timing := by
    split
    · exact foldl_keeps State.timing _ State.repeatFor_timing _ u
    · refine (foldl_keeps State.timing _ State.selectFor_timing _ _).trans ?_
      have control := State.timing_of_outside (State.powerControl_outside u.applySelects)
      have margins := State.timing_of_outside (State.raiseMargins_outside u.applySelects.powerControl)
      exact margins.trans (control.trans u.applySelects_timing)
  generalize (if u.dev.cpHalted[0] then (List.finRange 4).foldl State.repeatFor u
      else (List.finRange 4).foldl State.selectFor u.applySelects.powerLatch) = v at chosen ⊢
  have clocks := ((v.stepRail_outside.mono (more := [.pm, .tu, .slv]) (by decide)).step
    (.setTu _ { v.stepRail.tu with shadow := v.stepRail.pulsesAt v.stepRail.sched.latchSlot.toList v.stepRail.sched.nextBoundary })).step
    (State.restartClocks_outside _)
  exact (State.timing_of_outside (clocks.step (.setSlv _ _))).trans (chosen.trans measured)

theorem State.latchStep_of_idle {s : State} (idle : s.schedOn = false ∨ s.sched.latched = true
    ∨ s.dtNs + 50000 < s.sched.nextBoundary) : s.latchStep = s := by
  refine if_neg ?_
  rcases idle with off | taken | early
  · simp [off]
  · simp [taken]
  · simp [Nat.not_le.mpr early]

/-- A boundary whose last steps leave the schedule: the next one is a span after it. -/
theorem State.boundaryNow_sched (s : State) : s.boundaryNow.sched.latched = false
    ∧ s.boundaryNow.sched.nextBoundary = s.sched.nextBoundary + 1000 * s.boundaryNow.sched.spanGrains.toNat := by
  have last : ∃ t : State, s.boundaryNow.sched =
      { t.sched with nextBoundary := s.sched.nextBoundary + 1000 * t.sched.spanGrains.toNat, latched := false } := by
    unfold State.boundaryNow
    dsimp only
    generalize (if s.inSpan then s.stopAll _ _ else s.boundaryFlags _ _ _) = u
    generalize (u.applyControl _).applyBlocks _ _ _ = v
    generalize (if decide (u.sched.state = .stopping) then v.endSchedule s.sched.running else v.startSpan s.sched.running) = t
    refine ⟨t, ?_⟩
    have jobs : ∀ w : State, (w.stopJobs s.sched.nextBoundary).sched = w.sched := fun w =>
      (Outside.foldl (parts := [.fw, .mbx, .pins, .port]) _ (fun a j => a.completeJob_outside j _ _ _ _ _ _) _ w).sched
    rw [(State.leaveService_outside _ _).sched]
    split
    · exact jobs _
    · rfl
  obtain ⟨t, last⟩ := last
  rw [last]
  exact ⟨rfl, rfl⟩

end Sys2Proof.Machine

open Sys2Proof Sys2Proof.Machine

/-- Settles O26. -/
theorem scheduleEventsHappen : Obligations.ScheduleEventsHappen := by
  unfold Obligations.ScheduleEventsHappen
  refine fun s => ⟨fun c img claim opens due idle runs full now fullIs nowIs => ?_, fun on fresh due => ?_,
    fun idle => congrArg _ (State.latchStep_of_idle idle), fun on due => ?_, fun idle => ?_⟩
  · obtain ⟨beside, cores⟩ := s.ballastRamp_spec
    have filler := State.ballasted_filler claim opens due idle runs
    have top : min s.pm.ceiling.toNat s.pm.topOp = full := fullIs.symm
    rw [top, ← nowIs] at filler
    refine ⟨s.ballastRamp, rfl, ?_, fun above => ?_, beside⟩
    · rw [cores c, filler]
      rfl
    · rw [cores c, filler, nowIs, Nat.min_eq_right above]
      exact congrArg Filler.ballast (Nat.mul_div_cancel _ (opMhz_pos full))
  · have latched : s.latchStep = s.latchNow := if_pos (by simp [on, fresh, due])
    have timing := s.latchNow_timing
    simp only [State.timing, Prod.mk.injEq] at timing
    exact ⟨s.latchNow, congrArg Host.Outcome.next latched, timing⟩
  · have starts : s.boundaryStep = s.latchStep.boundaryNow := if_pos (by simp [on, due])
    exact ⟨_, congrArg Host.Outcome.next starts, s.latchStep.boundaryNow_sched⟩
  · refine congrArg Host.Outcome.next (if_neg ?_)
    rcases idle with off | early
    · simp [off]
    · simp [Nat.not_le.mpr early]
end

section
set_option Elab.async false
/-!
PROOFS. Operations that complete as they issue (chapter 3, R65, R67), and one that is skipped on a void (R69).
-/
namespace Sys2Proof.Machine
open State (Outside)

/-! ## Sequencers and flags -/

@[simp] theorem State.seq_onSeq_self (s : State) (t : Target) (f : Seq → Seq) : (s.onSeq t f).seq t = f (s.seq t) := by
  simp [State.onSeq, State.updSeq, State.seq]

theorem State.onSeq_same {s : State} {t : Target} {f : Seq → Seq} (same : f (s.seq t) = s.seq t) : s.onSeq t f = s := by
  have kept : s.sched.seqs.set t.idx (f (s.seq t)) = s.sched.seqs := by
    rw [same]
    exact Vector.set_getElem_self _
  unfold State.onSeq State.updSeq
  exact congrArg (fun q => ({ s with sched := { s.sched with seqs := q } } : State)) kept

theorem State.seq_of_sched {s t : State} (same : t.sched = s.sched) (tg : Target) : t.seq tg = s.seq tg := by
  unfold State.seq
  rw [same]

theorem State.setFlag_flag (s : State) (f : Nat) : (s.setFlag f).flag f = some .set := mapGet_mapSet _ _ _

theorem State.setOnDone_flag {s : State} {o : Op} {f : Nat} (sets : o.sets = some f) : (s.setOnDone o).flag f = some .set := by
  unfold State.setOnDone
  rw [sets]
  exact s.setFlag_flag f

theorem State.setOnDone_of_none {s : State} {o : Op} (sets : o.sets = none) : s.setOnDone o = s := by
  unfold State.setOnDone
  rw [sets]

/-! ## Issue -/

theorem State.holdWaited_outside (s : State) (o : Op) : s.Outside [.sm] (s.holdWaited o) := by
  rw [State.eq_of_sm (s.holdWaited_frame o)]
  exact Outside.setSm s _

theorem State.fillerOff_outside (s : State) (t : Target) : s.Outside [.pm] (s.fillerOff t) := by
  unfold State.fillerOff
  split
  · exact s.updCorePower_outside _ _
  · exact .refl s _

theorem State.settleFiller_outside (s : State) (t : Target) : s.Outside [.pm] (s.settleFiller t) := by
  unfold State.settleFiller
  split
  · exact .ite (s.updCorePower_outside _ _) (.refl s _)
  · exact .refl s _

theorem State.issued_outside (s : State) (t : Target) (o : Op) : s.Outside [.sched, .flags, .sm, .pm] (s.issued t o) :=
  ((((s.holdWaited_outside o).mono (by decide)).step (State.clearOnIssue_outside _ o)).step (State.onSeq_outside _ t _)).step
    (State.fillerOff_outside _ t)

/-- The sequencer after the issue of an operation: its section has moved on by one. -/
theorem State.issued_seq (s : State) (t : Target) (o : Op) :
    ((s.issued t o).seq t).next = (s.seq t).next + 1 ∧ ((s.issued t o).seq t).running = (s.seq t).running := by
  have before : ((s.holdWaited o).clearOnIssue o).seq t = s.seq t :=
    State.seq_of_sched (((s.holdWaited_outside o).trans (State.clearOnIssue_outside _ o)).sched) t
  have after : (s.issued t o).seq t = _ := State.seq_of_sched (State.fillerOff_outside _ t).sched t
  rw [after, State.seq_onSeq_self, before]
  exact ⟨rfl, rfl⟩

theorem State.issued_flags (s : State) (t : Target) (o : Op) :
    (s.issued t o).flags = if o.clearOnIssue then mapDel s.flags o.waitFlag else s.flags := by
  have held : (s.holdWaited o).flags = s.flags := (s.holdWaited_outside o).flags
  refine (State.fillerOff_outside _ t).flags.trans ?_
  simp only [State.onSeq_flags, State.clearOnIssue, ← held]
  split <;> rfl

/-! ## Completion as it issues -/

theorem State.countDone_outside (s : State) (t : Target) : s.Outside [.cores, .vis] (s.countDone t) := by
  unfold State.countDone
  split
  · exact (s.updCore_outside _ _).mono (by decide)
  · split
    · exact (s.updVis_outside _ _).mono (by decide)
    · exact .refl s _

/-- A core counts its own operations alone. -/
theorem State.countDone_cores (s : State) (t : Target) (c : Fin 8) : (s.countDone t).cores[c] =
    if t = .core c then { s.cores[c] with ops := countUp s.cores[c].ops 1 } else s.cores[c] := by
  unfold State.countDone
  split
  next d =>
    by_cases same : d = c
    · subst same
      simp [State.updCore]
    · have apart : d.val ≠ c.val := fun e => same (Fin.ext e)
      simp [State.updCore, same, Vector.getElem_set_ne, apart]
  next other =>
    rw [if_neg (other c)]
    split <;> rfl

/-- A vision engine counts its own operations alone. -/
theorem State.countDone_vis (s : State) (t : Target) (v : Fin 4) : (s.countDone t).vis[v] =
    if visOf t = some v then { s.vis[v] with ops := countUp s.vis[v].ops 1 } else s.vis[v] := by
  unfold State.countDone
  split
  next d => simp [visOf]
  next =>
    split
    next i here =>
      by_cases same : i = v
      · subst same
        simp [State.updVis, here]
      · have apart : i.val ≠ v.val := fun e => same (Fin.ext e)
        simp [State.updVis, here, same, Vector.getElem_set_ne, apart]
    next none => simp [none]

theorem State.doneNow_outside (s : State) (t : Target) (o : Op) : s.Outside [.flags, .pm, .cores, .vis] (s.doneNow t o) :=
  (((s.countDone_outside t).mono (by decide)).step (State.setOnDone_outside _ o)).step (State.settleFiller_outside _ t)

theorem State.doneNow_cores (s : State) (t : Target) (o : Op) : (s.doneNow t o).cores = (s.countDone t).cores :=
  (State.settleFiller_outside _ t).cores.trans (State.setOnDone_outside _ o).cores

theorem State.doneNow_vis (s : State) (t : Target) (o : Op) : (s.doneNow t o).vis = (s.countDone t).vis :=
  (State.settleFiller_outside _ t).vis.trans (State.setOnDone_outside _ o).vis

theorem State.doneNow_flag (s : State) (t : Target) {o : Op} {f : Nat} (sets : o.sets = some f) :
    (s.doneNow t o).flag f = some .set := by
  have set : ((s.countDone t).setOnDone o).flag f = some .set := State.setOnDone_flag sets
  unfold State.doneNow State.flag
  rw [(State.settleFiller_outside _ t).flags]
  exact set

theorem State.doneNow_flags (s : State) (t : Target) {o : Op} (sets : o.sets = none) : (s.doneNow t o).flags = s.flags := by
  unfold State.doneNow
  rw [State.setOnDone_of_none sets, (State.settleFiller_outside _ t).flags, (s.countDone_outside t).flags]

/-- What the issue and completion of an operation move. -/
theorem State.issuedDone_outside (s : State) (t : Target) (o : Op) :
    s.Outside [.sched, .flags, .sm, .pm, .cores, .vis] ((s.issued t o).doneNow t o) :=
  ((s.issued_outside t o).mono (by decide)).step (State.doneNow_outside _ t o)

theorem State.issuedDone_seq (s : State) (t : Target) (o : Op) :
    (((s.issued t o).doneNow t o).seq t).next = (s.seq t).next + 1
      ∧ (((s.issued t o).doneNow t o).seq t).running = (s.seq t).running := by
  rw [State.seq_of_sched (State.doneNow_outside (s.issued t o) t o).sched]
  exact s.issued_seq t o

theorem State.issuedDone_flags (s : State) (t : Target) {o : Op} (sets : o.sets = none) :
    ((s.issued t o).doneNow t o).flags = if o.clearOnIssue then mapDel s.flags o.waitFlag else s.flags := by
  rw [State.doneNow_flags _ t sets, s.issued_flags t o]

theorem State.issuedDone_cores (s : State) (t : Target) (o : Op) (c : Fin 8) : ((s.issued t o).doneNow t o).cores[c] =
    if t = .core c then { s.cores[c] with ops := countUp s.cores[c].ops 1 } else s.cores[c] := by
  have cores := (s.issued_outside t o).cores
  have counted := State.countDone_cores (s.issued t o) t c
  rw [cores] at counted
  exact (congrArg (fun v : Vector Core 8 => v[c]) (State.doneNow_cores (s.issued t o) t o)).trans counted

theorem State.issuedDone_vis (s : State) (t : Target) (o : Op) (v : Fin 4) : ((s.issued t o).doneNow t o).vis[v] =
    if visOf t = some v then { s.vis[v] with ops := countUp s.vis[v].ops 1 } else s.vis[v] := by
  have vis := (s.issued_outside t o).vis
  have counted := State.countDone_vis (s.issued t o) t v
  rw [vis] at counted
  exact (congrArg (fun x : Vector VisionEngine 4 => x[v]) (State.doneNow_vis (s.issued t o) t o)).trans counted

theorem State.Outside.besideDone {s t : State} (h : s.Outside [.sched, .flags, .sm, .pm, .cores, .vis] t) :
    { t with sched := s.sched, flags := s.flags, sm := s.sm, pm := s.pm, cores := s.cores, vis := s.vis } = s := by
  refine h.restored (fun p mem => ?_) (fun p out => ?_)
  · cases p <;> simp_all
  · cases p <;> simp_all

theorem State.tryIssue_of_refused {s : State} {t : Target} {n : NextOp} {u : Option OpUnit} (next : s.nextOp t = some n)
    (refused : s.mayIssue t n.op u = false) (code : Nat) (k : NextOp → State → State) : s.tryIssue t code u k = s := by
  unfold State.tryIssue
  simp only [next, refused, Bool.and_false, Bool.false_eq_true, if_false]

theorem State.tryIssue_of_none {s : State} {t : Target} (next : s.nextOp t = none) (code : Nat) (u : Option OpUnit)
    (k : NextOp → State → State) : s.tryIssue t code u k = s := by
  unfold State.tryIssue
  rw [next]

/-- NOP, WAIT, SETF and END are one operation of four codes. -/
theorem exec_commonOp {i : Instr} {t : Target} {code : Nat}
    (common : (i, code) ∈ [(Instr.nop t, 0x00), (Instr.waitOp t, 0x01), (Instr.setf t, 0x02), (Instr.endOp t, 0x05)]) (s : State) :
    exec i s = .next (s.commonOp t code) := by
  simp only [List.mem_cons, Prod.mk.injEq, List.not_mem_nil, or_false] at common
  rcases common with ⟨rfl, rfl⟩ | ⟨rfl, rfl⟩ | ⟨rfl, rfl⟩ | ⟨rfl, rfl⟩ <;> rfl

theorem State.commonOp_of_issues {s : State} {t : Target} {code : Nat} {n : NextOp} (issues : s.Issues t code none n) :
    s.commonOp t code = (s.issued t n.op).doneNow t n.op :=
  State.tryIssue_of_issues _ issues

/-! ## Barriers -/

theorem State.barrierOp_of_noted {s : State} {t : Target} {n : NextOp} (issues : s.Issues t 0x03 none n)
    (noted : n.op.argA ∈ (s.seq t).barriers) : s.barrierOp t =
      if (s.barrierAbsent n.part n.op.argA n.op.argB).isEmpty then (s.issued t n.op).doneNow t n.op else s := by
  obtain ⟨next, code, may⟩ := issues
  have same : (s.onSeq t fun q => if n.op.argA ∈ q.barriers then q else { q with barriers := n.op.argA :: q.barriers }) = s :=
    State.onSeq_same (if_pos noted)
  unfold State.barrierOp
  simp only [next, code, may, decide_true, Bool.and_self, if_true, same]

theorem State.barrierOp_of_first {s : State} {t : Target} {n : NextOp} (issues : s.Issues t 0x03 none n)
    (first : n.op.argA ∉ (s.seq t).barriers)
    (absent : (s.onSeq t fun q => { q with barriers := n.op.argA :: q.barriers }).barrierAbsent n.part n.op.argA n.op.argB ≠ []) :
    s.barrierOp t = s.onSeq t fun q => { q with barriers := n.op.argA :: q.barriers } := by
  obtain ⟨next, code, may⟩ := issues
  have same : (s.onSeq t fun q => if n.op.argA ∈ q.barriers then q else { q with barriers := n.op.argA :: q.barriers }) =
      s.onSeq t fun q => { q with barriers := n.op.argA :: q.barriers } := by
    unfold State.onSeq State.updSeq
    exact congrArg (fun q => ({ s with sched := { s.sched with seqs := s.sched.seqs.set t.idx q } } : State)) (if_neg first)
  unfold State.barrierOp
  simp only [next, code, may, decide_true, Bool.and_self, if_true, same, List.isEmpty_iff, absent, if_false]

/-- The conditions of issue of a target that runs one operation at a time (R67). -/
theorem State.mayIssue_iff {s : State} {t : Target} (core : ∀ c, t ≠ .core c) (ife : t ≠ .ife) (ps : t ≠ .ps) (o : Op)
    (u : Option OpUnit) : s.mayIssue t o u = true ↔
      s.sched.state ≠ .stopped ∧ s.sched.beforeS0 = false ∧ s.sched.spanStart.toNat + 400 ≤ s.dtNs
        ∧ (s.seq t).halted = false ∧ o.earliest ≤ s.grain ∧ (o.wait = true → s.flag o.waitFlag = some .set)
        ∧ (s.seq t).running = [] := by
  have accepts : (s.seq t).accepts t o u = (s.seq t).running.isEmpty := by
    unfold Seq.accepts
    cases t <;> simp_all
  have waits : (!o.wait || s.flagSet o.waitFlag) = true ↔ (o.wait = true → s.flag o.waitFlag = some .set) := by
    cases o.wait <;> simp [State.flagSet]
  unfold State.mayIssue State.sectionOpen State.inSpan State.schedOn
  rw [accepts]
  simp only [Bool.and_eq_true, waits, Bool.not_eq_true', decide_eq_true_eq, List.isEmpty_iff]
  constructor
  · rintro ⟨⟨⟨⟨⟨⟨on, span⟩, opens⟩, runs⟩, early⟩, wait⟩, idle⟩
    exact ⟨on, span, opens, runs, early, wait, idle⟩
  · rintro ⟨on, span, opens, runs, early, wait, idle⟩
    exact ⟨⟨⟨⟨⟨⟨on, span⟩, opens⟩, runs⟩, early⟩, wait⟩, idle⟩

/-! ## A skip with flags out of their order -/

/-- An operation of the fusion engine that waits for flag 5, clears it and sets flag 3. -/
def voidOp : Op where
  opcode := 4
  wait := true
  set := true
  clearOnIssue := true
  retryable := false
  waitFlag := 5
  setFlag := 3
  earliest := 0
  latest := 3
  argA := 0
  argB := 0

/-- An image of one operation of the fusion engine. -/
def voidImage : Image where
  spanGrains := 1000
  partition := 0
  rung := 0
  coreMask := 0
  variantKind := 0
  variantCore := 0
  familySig := 1
  retrySlack := 0
  ballastStart := 0
  trigMask := 0
  buildId := 0
  digest := []
  claims := []
  triggers := []
  flags := []
  sections := [{ target := 0x15, ops := [voidOp] }]
  traffic := []
  objects := []
  params := []

/-- A span whose flag list is out of its order: flag 5 stands before flag 3, which a lookup of flag 3 passes over until flag 5 is gone. -/
def unsortedFlags : State := { State.reset with
  flags := [(5, .void false), (3, .void true)]
  tu := { State.reset.tu with dt := BitVec.ofNat 96 (5000 * 2 ^ 32) }
  sched := { State.reset.sched with
    state := .running, beforeS0 := false, spanGrains := 1000, nextBoundary := 1000000
    running := State.reset.sched.running.set 0 (some 0), slots := State.reset.sched.slots.set 0 (some voidImage) } }

end Sys2Proof.Machine

open Sys2Proof Sys2Proof.Machine

/-- Settles O20. -/
theorem commonOperationsComplete : Obligations.CommonOperationsComplete := by
  unfold Obligations.CommonOperationsComplete
  refine ⟨fun s t n i code common => ⟨fun issues => ?_, fun next _ refused => ?_, fun none => ?_⟩,
    fun s t n issues => ⟨fun noted absent => ?_, fun noted absent => ?_, fun first u made absent => ?_⟩,
    fun s t o u core ife ps => State.mayIssue_iff core ife ps o u⟩
  · have cores := s.issuedDone_cores t n.op
    have vis := s.issuedDone_vis t n.op
    refine ⟨(s.issued t n.op).doneNow t n.op, ?_, (s.issuedDone_seq t n.op).1, (s.issuedDone_seq t n.op).2,
      fun f sets => State.doneNow_flag _ t sets, fun sets keeps => ?_, fun sets takes => ?_, fun c here => ?_, fun v here => ?_,
      fun d other => ?_, fun v other => ?_, (s.issuedDone_outside t n.op).besideDone⟩
    · rw [exec_commonOp common, State.commonOp_of_issues issues]
    · rw [s.issuedDone_flags t sets, if_neg (by simp [keeps])]
    · rw [s.issuedDone_flags t sets, if_pos takes]
    · rw [cores c, if_pos here]
    · rw [vis v, if_pos here]
    · rw [cores d, if_neg other]
    · rw [vis v, if_neg other]
  · rw [exec_commonOp common]
    exact congrArg Host.Outcome.next (State.tryIssue_of_refused next refused code _)
  · rw [exec_commonOp common]
    exact congrArg Host.Outcome.next (State.tryIssue_of_none none code _ _)
  · have issued := (State.barrierOp_of_noted issues noted).trans (if_pos (by rw [absent]; rfl))
    refine ⟨_, congrArg Host.Outcome.next issued, (s.issuedDone_seq t n.op).1, (s.issuedDone_seq t n.op).2,
      fun f sets => State.doneNow_flag _ t sets, fun sets keeps => ?_, (s.issuedDone_outside t n.op).besideDone⟩
    rw [s.issuedDone_flags t sets, if_neg (by simp [keeps])]
  · exact congrArg Host.Outcome.next ((State.barrierOp_of_noted issues noted).trans (if_neg (by rwa [List.isEmpty_iff])))
  · subst made
    exact congrArg Host.Outcome.next (State.barrierOp_of_first issues first absent)

/-- Refutes O25: nothing in the statement says that the flag list is in the order of its numbers. Where it is not, a skip that clears the
flag it waits for uncovers an entry behind it, so that the flag the operation sets is VOID as that entry has it, and not as a skip
leaves it. -/
theorem not_skipsAndOverruns : ¬ Obligations.SkipsAndOverruns := by
  unfold Obligations.SkipsAndOverruns
  intro claim
  obtain ⟨skips, -⟩ := claim
  obtain ⟨-, u, skipped, -, -, -, -, -, flags, -⟩ := skips unsortedFlags .fus { part := 0, img := voidImage, index := 0, op := voidOp }
    rfl (by decide +kernel) rfl (by decide +kernel) rfl rfl
  have void := (flags 3 rfl).2 rfl
  rw [← skipped] at void
  have uncovered : (unsortedFlags.voidSkip .fus).flag 3 = some (.void true) := by decide +kernel
  rw [uncovered] at void
  exact absurd void (by decide)
end

section
set_option Elab.async false
/-!
PROOFS. The windows of the engines (R232, R267, R268, R293, R309).
-/
namespace Sys2Proof.Machine
open State (Outside)

/-! ## Issue on an engine -/

/-- On an engine no filler turns off. -/
theorem State.issued_outside_engine (s : State) {t : Target} (engine : ∀ c, t ≠ .core c) (o : Op) :
    s.Outside [.sched, .flags, .sm] (s.issued t o) := by
  obtain ⟨frame, -⟩ := s.issued_frame t o engine
  intro p out
  have same := congrArg (State.part · p) frame
  cases p <;> simp_all

theorem State.issued_spanStart (s : State) (t : Target) (o : Op) : (s.issued t o).sched.spanStart = s.sched.spanStart := by
  have before : ((s.holdWaited o).clearOnIssue o).sched = s.sched :=
    ((s.holdWaited_outside o).trans (State.clearOnIssue_outside _ o)).sched
  have after : (s.issued t o).sched = _ := (State.fillerOff_outside _ t).sched
  rw [after]
  change ((s.holdWaited o).clearOnIssue o).sched.spanStart = _
  rw [before]

/-- What an engine that is no core and no vision engine does of an operation that completes as it issues. -/
theorem State.doneNow_engine (s : State) {t : Target} (core : ∀ c, t ≠ .core c) (vis : visOf t = none) (o : Op) :
    s.doneNow t o = s.setOnDone o := by
  cases t <;> simp_all [State.doneNow, State.countDone, State.settleFiller, visOf]

/-- An operation of an engine that issues and starts. -/
theorem State.startOp_started (s : State) {t : Target} (u : OpUnit) (n : NextOp) (cycles : Nat) (w : List MemWrite) :
    s.Started ((s.issued t n.op).startOp t n u cycles w) t u n := by
  obtain ⟨next, running⟩ := s.issued_seq t n.op
  obtain ⟨-, next', r, running', unit, index, op, start⟩ := (s.issued t n.op).startOp_frame t n u cycles w
  have now : (s.issued t n.op).dtNs = s.dtNs := by
    unfold State.dtNs
    rw [(s.issued_outside t n.op).tu]
  exact ⟨next'.trans next, r, by rw [running', running], unit, index, op, start.trans now⟩

theorem State.startOp_outside_engine (s : State) {t : Target} (engine : ∀ c, t ≠ .core c) (u : OpUnit) (n : NextOp) (cycles : Nat)
    (w : List MemWrite) : s.Outside [.sched, .flags, .sm] ((s.issued t n.op).startOp t n u cycles w) :=
  (s.issued_outside_engine engine n.op).step (State.startOp_outside _ t n u cycles w)

theorem State.Started.of_sched {s t u : State} {tg : Target} {unit : OpUnit} {n : NextOp} (started : s.Started t tg unit n)
    (same : u.sched = t.sched) : s.Started u tg unit n := by
  unfold State.Started
  rw [State.seq_of_sched same tg]
  exact started

/-! ## The windows -/

theorem State.slvServe_of_off {s : State} (off : s.slv.queueEn = false) (k : Nat) : State.slvServe k s = s := by
  cases k with
  | zero => rfl
  | succ k =>
    unfold State.slvServe
    rw [off, Bool.false_and, if_neg Bool.false_ne_true]

theorem State.expireAll_of_nil {s : State} (none : s.ps.queries = []) : s.expireAll = s := by
  unfold State.expireAll
  rw [none]
  rfl

theorem State.psWindow_of_off {s : State} (off : s.ps.queueEn = false) : s.psWindow = false := by
  unfold State.psWindow
  rw [off, Bool.false_and]

/-- The window of the place search engine as it opens (R293). -/
def State.psOpened (s : State) : State := { s with ps := { s.ps with windowFrom := s.grain, insertGrains := 0, insertAt := none } }

/-- An open window writes what its inserts have ready and takes what waits. -/
def State.psServed (s : State) : State := if s.psWindow then (if s.insertTurn then s.spillAll else s).takeBatch else s

theorem State.psService_of_issues {s : State} {n : NextOp} (issues : s.Issues .ps 0x10 (some .main) n) :
    exec .psService s = .next ((s.issued .ps n.op).startOp .ps n .main 0 []).expireAll.psOpened.psServed :=
  congrArg Host.Outcome.next
    (State.tryIssue_of_issues (fun (n : NextOp) (s : State) => (s.startOp .ps n .main 0 []).expireAll.psOpened.psServed) issues)

theorem State.psServed_of_off {s : State} (off : s.ps.queueEn = false) : s.psOpened.psServed = s.psOpened := by
  unfold State.psServed
  rw [State.psWindow_of_off (s := s.psOpened) off, if_neg Bool.false_ne_true]

/-- The binding of FUS_INERTIAL (R232). -/
def NextOp.binding (n : NextOp) : Binding where
  input := n.op.argA
  ringOffset := n.arg 0 4
  ringRecs := n.arg 4 2
  flagFirst := n.arg 6 2
  flagCount := n.arg 8 2
  endGrain := n.arg 10 2
  nextRec := 0

/-- The fusion engine with an input bound: what was bound of it before is gone. -/
def Fusion.withBinding (f : Fusion) (b : Binding) : Fusion :=
  { f with binds := f.binds.filter (fun x => decide (x.input ≠ b.input)) ++ [b] }

theorem State.bindRing_of_free {s : State} {n : NextOp} (issues : s.Issues .fus 0x10 (some .main) n)
    (free : s.activeBind n.op.argA = none) : s.bindRing =
      State.setOnDone { s.issued .fus n.op with fus := (s.issued .fus n.op).fus.withBinding n.binding } n.op := by
  have bound := State.tryIssue_of_issues (fun (n : NextOp) (s : State) => match s.engineCheck .fus .clean with
    | (none, s) => State.doneNow { s with fus := s.fus.withBinding n.binding } .fus n.op
    | (some u, s) => s.fusMismatch 0 n.index u) issues
  refine Eq.trans ?_ (bound.trans (State.doneNow_engine _ (by simp) rfl n.op))
  unfold State.bindRing
  simp only [issues.1, free, Option.isSome_none, Bool.false_eq_true, if_false]
  rfl

theorem State.Outside.besideIssue {s t : State} (h : s.Outside [.sched, .flags, .sm] t) :
    { t with sched := s.sched, flags := s.flags, sm := s.sm } = s := by
  refine h.restored (fun p mem => ?_) (fun p out => ?_)
  · cases p <;> simp_all
  · cases p <;> simp_all

theorem State.Outside.besideMover {s t : State} (h : s.Outside [.sched, .flags, .sm, .mt] t) :
    { t with sched := s.sched, flags := s.flags, sm := s.sm, mt := s.mt } = s := by
  refine h.restored (fun p mem => ?_) (fun p out => ?_)
  · cases p <;> simp_all
  · cases p <;> simp_all

theorem State.Outside.besideSearch {s t : State} (h : s.Outside [.sched, .flags, .sm, .ps] t) :
    { t with sched := s.sched, flags := s.flags, sm := s.sm, ps := s.ps } = s := by
  refine h.restored (fun p mem => ?_) (fun p out => ?_)
  · cases p <;> simp_all
  · cases p <;> simp_all

theorem State.Outside.besideFusion {s t : State} (h : s.Outside [.sched, .flags, .sm, .fus] t) :
    { t with sched := s.sched, flags := s.flags, sm := s.sm, fus := s.fus } = s := by
  refine h.restored (fun p mem => ?_) (fun p out => ?_)
  · cases p <;> simp_all
  · cases p <;> simp_all

end Sys2Proof.Machine

open Sys2Proof Sys2Proof.Machine

/-- Settles O23. -/
theorem windowsOpen : Obligations.WindowsOpen := by
  unfold Obligations.WindowsOpen
  refine fun s n => ⟨fun issues => ?_, fun issues => ?_, fun issues => ?_, fun issues off => ?_, fun issues off empty => ?_,
    fun u v issues hu hv => ⟨fun opens => ?_, fun shut => ?_⟩, fun issues free => ?_⟩
  · have run := State.tryIssue_of_issues (fun (n : NextOp) (s : State) =>
      let s := s.startOp .mv n .main 0 []
      { s with mt := { s.mt with window := some { endGrain := n.arg 0 2, classMask := n.arg 2 1, left := n.arg 4 4 } } }) issues
    have started := s.startOp_started (t := .mv) .main n 0 []
    have moves := s.startOp_outside_engine (t := .mv) (by simp) .main n 0 []
    dsimp only at run
    generalize (s.issued .mv n.op).startOp .mv n .main 0 [] = t at run started moves
    refine ⟨_, congrArg Host.Outcome.next run, started.of_sched rfl, ?_, ?_⟩
    · rw [moves.mt]
    · exact ((moves.mono (by decide)).step (State.Outside.setMt t _)).besideMover
  · have run := State.tryIssue_of_issues (fun (n : NextOp) (s : State) =>
      let desc := n.img.paramBytes n.op.argB 128
      let plan := s.objBytes (n.img.objects.getD (fieldAt desc 40 2) 0)
      (s.startOp .slv n .main 0 []).slvStart
        (s.readJob desc false (s.sched.spanStart.toNat + fieldAt desc 8 8 * 1000) plan)) issues
    refine congrArg Host.Outcome.next (run.trans ?_)
    dsimp only
    rw [s.issued_spanStart .slv n.op]
  · exact congrArg Host.Outcome.next (State.tryIssue_of_issues
      (fun (n : NextOp) (s : State) => State.slvServe 3 (s.startOp .slv n .main 0 [])) issues)
  · have run := State.tryIssue_of_issues (fun (n : NextOp) (s : State) => State.slvServe 3 (s.startOp .slv n .main 0 [])) issues
    have started := s.startOp_started (t := .slv) .main n 0 []
    have moves := s.startOp_outside_engine (t := .slv) (by simp) .main n 0 []
    generalize (s.issued .slv n.op).startOp .slv n .main 0 [] = t at run started moves
    rw [State.slvServe_of_off (by rw [moves.slv]; exact off)] at run
    exact ⟨t, congrArg Host.Outcome.next run, started, moves.besideIssue⟩
  · have run := State.psService_of_issues issues
    have started := s.startOp_started (t := .ps) .main n 0 []
    have moves := s.startOp_outside_engine (t := .ps) (by simp) .main n 0 []
    have grain : ((s.issued .ps n.op).startOp .ps n .main 0 []).grain = s.grain := by
      have start : ((s.issued .ps n.op).startOp .ps n .main 0 []).sched.spanStart = s.sched.spanStart := s.issued_spanStart .ps n.op
      unfold State.grain State.dtNs
      rw [start, moves.tu]
    generalize (s.issued .ps n.op).startOp .ps n .main 0 [] = t at run started moves grain
    have quiet : t.ps = s.ps := moves.ps
    rw [State.expireAll_of_nil (by rw [quiet]; exact empty), State.psServed_of_off (by rw [quiet]; exact off)] at run
    refine ⟨_, run, started.of_sched rfl, ?_, ?_⟩
    · simp only [State.psOpened, quiet, grain]
    · exact ((moves.mono (by decide)).step (State.Outside.setPs t _)).besideSearch
  · have run := State.psService_of_issues issues
    rw [← hu] at run
    refine run.trans (congrArg Host.Outcome.next ?_)
    subst hv
    exact if_pos opens
  · have run := State.psService_of_issues issues
    rw [← hu] at run
    refine run.trans (congrArg Host.Outcome.next ?_)
    subst hv
    exact if_neg (Bool.eq_false_iff.mp shut)
  · have run := State.bindRing_of_free issues free
    obtain ⟨next, running⟩ := s.issued_seq .fus n.op
    have moves := s.issued_outside_engine (t := .fus) (by simp) n.op
    generalize s.issued .fus n.op = t at run next running moves
    have bound := (moves.mono (more := [.sched, .flags, .sm, .fus]) (by decide)).step
      (State.Outside.setFus t (t.fus.withBinding n.binding))
    have done := State.setOnDone_outside { t with fus := t.fus.withBinding n.binding } n.op
    refine ⟨_, n.binding, congrArg Host.Outcome.next run, ?_, rfl, rfl, rfl, rfl, rfl, rfl, rfl, ?_, ?_,
      fun f sets => State.setOnDone_flag sets, ?_, ?_⟩
    · rw [done.fus, moves.fus]
      rfl
    · rw [State.seq_of_sched done.sched]
      exact next
    · rw [State.seq_of_sched done.sched]
      exact running
    · rw [done.fus, moves.fus]
      rfl
    · exact (bound.step done).besideFusion
end

section
set_option Elab.async false
/-!
PROOFS. The end of an operation (R67, R95, R156, R180, R459).
-/
namespace Sys2Proof.Machine
open State (Outside)

/-! ## What an operation wrote -/

theorem State.applyMemWrite_outside (s : State) (w : MemWrite) : s.Outside [.mem, .sram] (s.applyMemWrite w) := by
  unfold State.applyMemWrite
  split
  · exact (s.writeMem_outside _ _).mono (by decide)
  · exact (Outside.setSram s _).mono (by decide)

theorem State.applyMemWrites_outside (s : State) (ws : List MemWrite) : s.Outside [.mem, .sram] (s.applyMemWrites ws) :=
  Outside.foldl _ State.applyMemWrite_outside ws s

/-- The memories after some writes are those of any state that holds the same memories before. -/
theorem State.applyMemWrites_memories {s t : State} (ws : List MemWrite) (mem : t.mem = s.mem) (sram : t.sram = s.sram) :
    (t.applyMemWrites ws).mem = (s.applyMemWrites ws).mem ∧ (t.applyMemWrites ws).sram = (s.applyMemWrites ws).sram := by
  induction ws generalizing s t with
  | nil => exact ⟨mem, sram⟩
  | cons w ws ih =>
    refine ih ?_ ?_
    · unfold State.applyMemWrite
      split
      · exact State.writeMem_mem_of_eq mem _ _
      · exact mem
    · unfold State.applyMemWrite
      split
      · rw [(State.writeMem_outside _ _ _).sram, (State.writeMem_outside _ _ _).sram, sram]
      · simp only [sram]

/-- One write of device memory reads back, and every other byte stays. -/
theorem State.applyMemWrites_single {s : State} {w : MemWrite} (device : w.space = .device)
    (fits : memRange w.addr w.data.length = true) (wf : memWf s.mem = true) :
    memReadN (s.applyMemWrites [w]).mem w.addr w.data.length = w.data
      ∧ ∀ a, (a < w.addr ∨ w.addr + w.data.length ≤ a) → memRead (s.applyMemWrites [w]).mem a = memRead s.mem a := by
  have written : (s.applyMemWrites [w]).mem = memWriteN s.mem w.addr w.data := by
    change (s.applyMemWrite w).mem = _
    unfold State.applyMemWrite State.writeMem
    rw [device]
    simp only [fits, if_true]
  rw [written]
  exact ⟨memReadN_memWriteN _ _ wf, fun a out => memRead_memWriteN_outside _ _ _ wf out⟩

/-! ## The operation leaves its sequencer -/

theorem State.sectionOf_of_images {s t : State} (running : t.sched.running = s.sched.running) (slots : t.sched.slots = s.sched.slots)
    (tg : Target) : t.sectionOf tg = s.sectionOf tg := by
  unfold State.sectionOf State.image
  rw [running, slots]

theorem State.dropRun_outside (s : State) (t : Target) (r : Running) : s.Outside [.sched] (s.dropRun t r) := s.onSeq_outside t _

theorem State.dropRun_seq (s : State) (t : Target) (r : Running) : (s.dropRun t r).seq t =
    { s.seq t with running := (s.seq t).running.erase r } :=
  s.seq_onSeq_self t _

/-- The state behind the writes of an operation that has left its sequencer. -/
def State.runWritten (s : State) (t : Target) (r : Running) : State := (s.dropRun t r).applyMemWrites r.writes

theorem State.runWritten_outside (s : State) (t : Target) (r : Running) : s.Outside [.sched, .mem, .sram] (s.runWritten t r) :=
  (s.dropRun_outside t r).trans (State.applyMemWrites_outside _ _)

theorem State.runWritten_spec (s : State) (t : Target) (r : Running) :
    ((s.runWritten t r).seq t).running = (s.seq t).running.erase r ∧ ((s.runWritten t r).seq t).next = (s.seq t).next
      ∧ (s.runWritten t r).mem = (s.applyMemWrites r.writes).mem ∧ (s.runWritten t r).sram = (s.applyMemWrites r.writes).sram := by
  have moves := s.dropRun_outside t r
  obtain ⟨mem, sram⟩ := State.applyMemWrites_memories (s := s) (t := s.dropRun t r) r.writes moves.mem moves.sram
  have seq : (s.runWritten t r).seq t = { s.seq t with running := (s.seq t).running.erase r } :=
    (State.seq_of_sched (State.applyMemWrites_outside _ _).sched t).trans (s.dropRun_seq t r)
  rw [seq]
  exact ⟨rfl, rfl, mem, sram⟩

theorem State.runWritten_opOfRun (s : State) (t : Target) (r : Running) : (s.runWritten t r).opOfRun t r = s.opOfRun t r := by
  have sched : (s.runWritten t r).sched = (s.dropRun t r).sched := (State.applyMemWrites_outside _ _).sched
  unfold State.opOfRun
  rw [State.sectionOf_of_images (s := s) (by rw [sched]; rfl) (by rw [sched]; rfl)]

theorem State.opComplete_of_none {s : State} {t : Target} {u : OpUnit}
    (none : ((s.seq t).running.find? fun r => decide (r.unit = u) && s.mayEnd t r) = none) : s.opComplete t u = s := by
  unfold State.opComplete
  rw [none]

theorem State.opComplete_of_some {s : State} {t : Target} {u : OpUnit} {r : Running}
    (found : ((s.seq t).running.find? fun r => decide (r.unit = u) && s.mayEnd t r) = some r) : s.opComplete t u = s.runDone t r := by
  unfold State.opComplete
  rw [found]

/-! ## The stream manager, the vision engines and the other engines -/

theorem State.runDone_of_sm (s : State) (p : Fin 4) (r : Running) :
    s.runDone (.sm p) r = (s.runWritten (.sm p) r).setOnDone r.op := by
  unfold State.runDone
  dsimp only
  change State.setOnDone (match (s.runWritten (.sm p) r).opOfRun (.sm p) r with
    | some _ => s.runWritten (.sm p) r
    | none => s.runWritten (.sm p) r) r.op = _
  split <;> rfl

/-- The operation and its cycles counted on a vision engine. -/
def State.visCounted (s : State) (i : Fin 4) (cycles : Nat) : State :=
  s.updVis i fun v => { v with ops := countUp v.ops 1, busyCycles := v.busyCycles + cycles }

theorem State.visCounted_self (s : State) (i : Fin 4) (cycles : Nat) : (s.visCounted i cycles).vis[i] =
    { s.vis[i] with ops := countUp s.vis[i].ops 1, busyCycles := s.vis[i].busyCycles + cycles } := by
  simp [State.visCounted, State.updVis]

theorem State.visCounted_ne (s : State) {i j : Fin 4} (other : j ≠ i) (cycles : Nat) : (s.visCounted i cycles).vis[j] = s.vis[j] := by
  have apart : i.val ≠ j.val := fun e => other (Fin.ext e.symm)
  simp [State.visCounted, State.updVis, Vector.getElem_set_ne, apart]

theorem State.runDone_of_vis (s : State) {t : Target} {i : Fin 4} (vis : visOf t = some i) (r : Running) :
    s.runDone t r = ((s.runWritten t r).visCounted i r.ownCycles).setOnDone r.op := by
  have counted : ∀ u : State, (u.countDone t).countBusy t r r.ownCycles = u.visCounted i r.ownCycles := fun u => by
    unfold State.countDone State.countBusy
    cases t <;> simp_all [visOf, State.updVis, State.visCounted]
  have done : s.runDone t r = (((s.runWritten t r).countDone t).countBusy t r r.ownCycles).setOnDone r.op := by
    unfold State.runDone
    cases t <;> simp only [visOf, reduceCtorEq] at vis
    all_goals
      dsimp only
      generalize State.opOfRun _ _ r = found
      cases found <;> rfl
  rw [done, counted]

/-- An engine whose effect is more than its bytes. -/
theorem State.runDone_of_engine (s : State) {t : Target} (engine : t ∈ [Target.fld, .fus, .slv, .ps, .ife, .mv]) {r : Running}
    {n : NextOp} (op : s.opOfRun t r = some n) :
    s.runDone t r = ((s.runWritten t r).engineEffect t n r none).setOnDone r.op := by
  have written := (s.runWritten_opOfRun t r).trans op
  have uncounted : ∀ u : State, (u.countDone t).countBusy t r r.ownCycles = u := fun u => by
    unfold State.countDone State.countBusy
    simp only [List.mem_cons, List.not_mem_nil, or_false] at engine
    rcases engine with rfl | rfl | rfl | rfl | rfl | rfl <;> rfl
  have done : s.runDone t r = ((((match (s.runWritten t r).opOfRun t r with
      | some n => (s.runWritten t r).engineEffect t n r none
      | none => s.runWritten t r).countDone t).countBusy t r r.ownCycles).setOnDone r.op) := by
    simp only [List.mem_cons, List.not_mem_nil, or_false] at engine
    rcases engine with rfl | rfl | rfl | rfl | rfl | rfl <;> rfl
  rw [done, written, uncounted]

/-! ## Cores -/

/-- What a core counts of an operation that ends clean: its cycles and its accumulators on the array, and what it saturated. -/
def Core.ended (x : Core) (r : Running) : Core :=
  let y : Core := if r.unit = .main then
    { x with busyCycles := x.busyCycles + r.cycles, acc := putWords x.acc 0 (r.aux.drop 3) } else x
  let sat := r.aux.getD 0 0
  let dom := r.aux.getD 1 0
  { y with
    satCount := countUp y.satCount sat, domainCount := countUp y.domainCount dom
    sat := y.sat || decide (sat ≠ 0), spanSat := y.spanSat + sat, spanDomain := y.spanDomain + dom
    satOp := if sat = 0 then y.satOp else y.satOp.or (some r.index)
    domainOp := if dom = 0 then y.domainOp else y.domainOp.or (some (r.index, r.aux.getD 2 0))
    ops := countUp y.ops 1 }

theorem State.updCore_cores_self (s : State) (c : Fin 8) (f : Core → Core) : (s.updCore c f).cores[c] = f s.cores[c] := by
  simp [State.updCore]

theorem State.updCore_cores_ne (s : State) {c d : Fin 8} (other : d ≠ c) (f : Core → Core) :
    (s.updCore c f).cores[d] = s.cores[d] := by
  have apart : c.val ≠ d.val := fun e => other (Fin.ext e.symm)
  simp [State.updCore, Vector.getElem_set_ne, apart]

/-- A clean operation of a core: its counters, its bytes and its flag. -/
theorem State.coreEnd_of_clean (s : State) (c : Fin 8) {r : Running} (clean : r.chk = .clean) (first : r.rerun = false) :
    ∃ v : State, s.coreEnd c r = (none, v.setOnDone r.op) ∧ v.cores[c] = s.cores[c].ended r ∧ (∀ d, d ≠ c → v.cores[d] = s.cores[d])
      ∧ s.Outside [.cores, .mem, .sram] v ∧ v.mem = (s.applyMemWrites r.writes).mem ∧ v.sram = (s.applyMemWrites r.writes).sram := by
  unfold State.coreEnd
  simp only [clean, first, Bool.false_eq_true, if_false]
  refine ⟨_, rfl, ?_⟩
  by_cases array : r.unit = .main
  · have busy : s.countBusy (.core c) r r.cycles = s.updCore c fun x => { x with busyCycles := x.busyCycles + r.cycles } := if_pos array
    have counted := s.updCore_cores_self c fun x => { x with busyCycles := x.busyCycles + r.cycles }
    have others := fun d (other : d ≠ c) => s.updCore_cores_ne other fun x => { x with busyCycles := x.busyCycles + r.cycles }
    have moves := s.updCore_outside c fun x => { x with busyCycles := x.busyCycles + r.cycles }
    rw [busy]
    generalize (s.updCore c fun x => { x with busyCycles := x.busyCycles + r.cycles }) = u at counted others moves
    have wrote := u.applyMemWrites_outside r.writes
    have memories := State.applyMemWrites_memories (s := s) (t := u) r.writes moves.mem moves.sram
    generalize u.applyMemWrites r.writes = v at wrote memories
    have same : v.cores = u.cores := wrote.cores
    simp only [array, decide_true, if_true]
    refine ⟨?_, fun d other => ?_, ?_, memories.1, memories.2⟩
    · unfold State.countDone State.coreCounts
      dsimp only
      rw [State.updCore_cores_self, State.updCore_cores_self, State.updCore_cores_self]
      simp only [same, counted, Core.ended, array, if_true]
    · unfold State.countDone State.coreCounts
      dsimp only
      rw [State.updCore_cores_ne _ other, State.updCore_cores_ne _ other, State.updCore_cores_ne _ other]
      simp only [same, others d other]
    · exact (((moves.trans wrote).mono (more := [.cores, .mem, .sram]) (by decide)).step (v.updCore_outside c _)).step
        (State.updCore_outside _ c _) |>.step (State.updCore_outside _ c _)
  · have busy : s.countBusy (.core c) r r.cycles = s := if_neg array
    rw [busy]
    have wrote := s.applyMemWrites_outside r.writes
    have memories := State.applyMemWrites_memories (s := s) (t := s) r.writes rfl rfl
    generalize s.applyMemWrites r.writes = v at wrote memories
    have same : v.cores = s.cores := wrote.cores
    simp only [array, decide_false, Bool.false_eq_true, if_false]
    refine ⟨?_, fun d other => ?_, ?_, memories.1, memories.2⟩
    · unfold State.countDone State.coreCounts
      dsimp only
      rw [State.updCore_cores_self, State.updCore_cores_self]
      simp only [same, Core.ended, array, if_false]
    · unfold State.countDone State.coreCounts
      dsimp only
      rw [State.updCore_cores_ne _ other, State.updCore_cores_ne _ other]
      simp only [same]
    · exact ((wrote.mono (more := [.cores, .mem, .sram]) (by decide)).step (v.updCore_outside c _)).step (State.updCore_outside _ c _)

/-- The end of a clean operation of a core. -/
theorem State.runDone_of_core (s : State) (c : Fin 8) {r : Running} (clean : r.chk = .clean) (first : r.rerun = false) :
    ((s.runDone (.core c) r).seq (.core c)).running = (s.seq (.core c)).running.erase r
      ∧ (s.runDone (.core c) r).mem = (s.applyMemWrites r.writes).mem
      ∧ (∀ f, r.op.sets = some f → (s.runDone (.core c) r).flag f = some .set)
      ∧ (s.runDone (.core c) r).cores[c] = s.cores[c].ended r
      ∧ (∀ d, d ≠ c → (s.runDone (.core c) r).cores[d] = s.cores[d])
      ∧ s.Outside [.sched, .mem, .sram, .flags, .cores, .pm] (s.runDone (.core c) r) := by
  have left := s.dropRun_outside (.core c) r
  have seq := s.dropRun_seq (.core c) r
  have memories := State.applyMemWrites_memories (s := s) (t := s.dropRun (.core c) r) r.writes left.mem left.sram
  unfold State.runDone
  dsimp only
  generalize s.dropRun (.core c) r = u at left seq memories
  obtain ⟨v, ended, core, others, moves, mem, sram⟩ := u.coreEnd_of_clean c clean first
  have set := v.setOnDone_outside r.op
  have flag := fun f (sets : r.op.sets = some f) => State.setOnDone_flag (s := v) sets
  rw [ended]
  dsimp only
  generalize v.setOnDone r.op = w at set flag
  have same : (w.onSeq (.core c) fun q => { q with running := (Option.none : Option Running).toList ++ q.running }) = w :=
    State.onSeq_same rfl
  rw [same]
  have settled := w.settleFiller_outside (.core c)
  generalize w.settleFiller (.core c) = x at settled
  have cores : x.cores = v.cores := settled.cores.trans set.cores
  refine ⟨?_, ?_, fun f sets => ?_, ?_, fun d other => ?_, ?_⟩
  · rw [State.seq_of_sched ((settled.sched.trans set.sched).trans moves.sched), seq]
  · rw [settled.mem, set.mem, mem, memories.1]
  · unfold State.flag
    rw [settled.flags]
    exact flag f sets
  · simp only [cores, core, left.cores]
  · simp only [cores, others d other, left.cores]
  · exact (((left.mono (more := [.sched, .mem, .sram, .flags, .cores, .pm]) (by decide)).step moves).step set).step settled

theorem State.Outside.besideRun {s t : State} (h : s.Outside [.sched, .mem, .sram, .flags] t) :
    { t with sched := s.sched, mem := s.mem, sram := s.sram, flags := s.flags } = s := by
  refine h.restored (fun p mem => ?_) (fun p out => ?_)
  · cases p <;> simp_all
  · cases p <;> simp_all

theorem State.Outside.besideVision {s t : State} (h : s.Outside [.sched, .mem, .sram, .flags, .vis] t) :
    { t with sched := s.sched, mem := s.mem, sram := s.sram, flags := s.flags, vis := s.vis } = s := by
  refine h.restored (fun p mem => ?_) (fun p out => ?_)
  · cases p <;> simp_all
  · cases p <;> simp_all

theorem State.Outside.besideCore {s t : State} (h : s.Outside [.sched, .mem, .sram, .flags, .cores, .pm] t) :
    { t with sched := s.sched, mem := s.mem, sram := s.sram, flags := s.flags, cores := s.cores, pm := s.pm } = s := by
  refine h.restored (fun p mem => ?_) (fun p out => ?_)
  · cases p <;> simp_all
  · cases p <;> simp_all

end Sys2Proof.Machine

open Sys2Proof Sys2Proof.Machine

/-- Settles O24. -/
theorem operationsEnd : Obligations.OperationsEnd := by
  unfold Obligations.OperationsEnd
  refine fun s t u r => ⟨fun none => congrArg _ (State.opComplete_of_none none), fun p sm found => ?_, fun i vis found => ?_,
    fun n engine op found => ?_, fun c core unit clean first found => ?_, fun c core unit clean first found => ?_⟩
  · subst sm
    have done := (State.opComplete_of_some found).trans (s.runDone_of_sm p r)
    obtain ⟨running, next, mem, sram⟩ := s.runWritten_spec (.sm p) r
    have moves := s.runWritten_outside (.sm p) r
    generalize s.runWritten (.sm p) r = v at done running next mem sram moves
    have set := v.setOnDone_outside r.op
    refine ⟨v.setOnDone r.op, congrArg Host.Outcome.next done, ?_, ?_, ?_, fun f sets => State.setOnDone_flag sets, fun sets => ?_, ?_,
      fun w single device fits wf => ?_, ?_⟩
    · rw [State.seq_of_sched set.sched, running]
    · rw [set.mem, mem]
    · rw [set.sram, sram]
    · rw [State.setOnDone_of_none sets, moves.flags]
    · rw [State.seq_of_sched set.sched, next]
    · rw [set.mem, mem, single]
      exact State.applyMemWrites_single device fits wf
    · exact ((moves.mono (by decide)).step set).besideRun
  · have done := (State.opComplete_of_some found).trans (s.runDone_of_vis vis r)
    obtain ⟨running, -, mem, sram⟩ := s.runWritten_spec t r
    have moves := s.runWritten_outside t r
    generalize s.runWritten t r = v at done running mem sram moves
    have counted := v.updVis_outside i fun x => { x with ops := countUp x.ops 1, busyCycles := x.busyCycles + r.ownCycles }
    have self := v.visCounted_self i r.ownCycles
    have others := fun j (other : j ≠ i) => v.visCounted_ne other r.ownCycles
    change v.Outside [.vis] (v.visCounted i r.ownCycles) at counted
    generalize v.visCounted i r.ownCycles = w at done counted self others
    have set := w.setOnDone_outside r.op
    refine ⟨w.setOnDone r.op, congrArg Host.Outcome.next done, ?_, ?_, ?_, fun f sets => State.setOnDone_flag sets, fun sets => ?_, ?_,
      fun j other => ?_, ?_⟩
    · rw [State.seq_of_sched (set.sched.trans counted.sched), running]
    · rw [set.mem, counted.mem, mem]
    · rw [set.sram, counted.sram, sram]
    · rw [State.setOnDone_of_none sets, counted.flags, moves.flags]
    · simp only [set.vis, self, moves.vis]
    · simp only [set.vis, others j other, moves.vis]
    · exact (((moves.mono (by decide)).step counted).step set).besideVision
  · exact congrArg Host.Outcome.next ((State.opComplete_of_some found).trans (s.runDone_of_engine engine op))
  · subst core
    obtain ⟨running, mem, flag, self, others, moves⟩ := s.runDone_of_core c clean first
    have vector : r.unit ≠ .main := by
      have named := List.find?_some found
      simp only [Bool.and_eq_true, decide_eq_true_eq] at named
      exact named.1 ▸ unit
    refine ⟨_, congrArg Host.Outcome.next (State.opComplete_of_some found), running, mem, flag, ?_, ?_, ?_, others, moves.besideCore⟩
    · rw [self, Core.ended, if_neg vector]
    · rw [self, Core.ended, if_neg vector]
    · rw [self, Core.ended, if_neg vector]
  · subst core
    obtain ⟨running, mem, flag, self, others, moves⟩ := s.runDone_of_core c clean first
    have array : r.unit = .main := by
      have named := List.find?_some found
      simp only [Bool.and_eq_true, decide_eq_true_eq] at named
      exact named.1.trans unit
    refine ⟨_, congrArg Host.Outcome.next (State.opComplete_of_some found), running, mem, flag, ?_, ?_, ?_, others, moves.besideCore⟩
    · rw [self, Core.ended, if_pos array]
    · rw [self, Core.ended, if_pos array]
    · rw [self, Core.ended, if_pos array]
end

section
set_option Elab.async false
/-!
PROOFS. The commands of grants, of firmware images, of keys and of reports (R320, R356, R403 to R410).
-/
namespace Sys2Proof.Machine
open State (Outside)

/-! ## What leaves the grants -/

theorem State.grants_of_outside {s t : State} {parts : List Part} (h : s.Outside parts t) (out : .sec ∉ parts := by decide) :
    t.sec.grants = s.sec.grants := by
  rw [h.sec out]

theorem State.zeroiseOld_grants (s : State) (n : Fin 5) : (s.zeroiseOld n).sec.grants = s.sec.grants := by
  unfold State.zeroiseOld
  split
  · rfl
  · split
    · exact (State.grants_of_outside (State.event_outside _ _ _ _ _ _)).trans rfl
    · rfl

theorem State.dropPagesFrom_grants (s : State) (o : PageOwner) (pos : Nat) : (s.dropPagesFrom o pos).sec.grants = s.sec.grants :=
  foldl_keeps (fun t : State => t.sec.grants) _ State.zeroiseOld_grants _ _

theorem State.removeObj_grants (s : State) (o : Obj) : (s.removeObj o).sec.grants = s.sec.grants := by
  unfold State.removeObj State.unmap
  dsimp only
  generalize hu : (if handleType o.handle = 0x02 ∧ handlePart o.handle = 0 ∧ s.fld.decoder = some (sha384 o.bytes) then
    ({ s with fld := { s.fld with decoder := none } } : State) else s) = u
  have same : u.sec.grants = s.sec.grants := by
    rw [← hu]
    split <;> rfl
  have dropped := (u.dropPagesFrom_grants (.object o.handle) 0).trans same
  generalize u.dropPagesFrom (.object o.handle) 0 = v at dropped ⊢
  exact (State.grants_of_outside ((Outside.setMt v _).trans (State.unmapRun_outside _ _ _))).trans dropped

theorem State.discardLoad_grants (s : State) (h : Nat) : (s.discardLoad h).sec.grants = s.sec.grants := by
  unfold State.discardLoad
  split
  · rfl
  · split
    · exact State.grants_of_outside ((s.unmapRun_outside _ _).trans (State.updObj_outside _ h _))
    · exact s.removeObj_grants _

theorem State.objReverted_grants (s : State) (h : Nat) : (s.objReverted h).sec.grants = s.sec.grants := by
  unfold State.objReverted
  split
  · rfl
  · split
    · exact s.discardLoad_grants h
    · exact State.grants_of_outside (((Outside.setMt s _).trans (State.updObj_outside _ h _)).trans (State.jobUnpinned_outside _ h))

theorem State.undoJob_grants (s : State) (j : Job) : (s.undoJob j).sec.grants = s.sec.grants := by
  unfold State.undoJob
  split
  · exact State.grants_of_outside (s.updObj_outside _ _)
  · exact State.grants_of_outside (s.updObj_outside _ _)
  · exact State.grants_of_outside (s.updObj_outside _ _)
  · exact s.objReverted_grants _
  · exact s.discardLoad_grants _
  · exact State.grants_of_outside (s.updIndex_outside _ _)
  · exact State.grants_of_outside (s.updIndex_outside _ _)
  · exact State.grants_of_outside (s.updIndex_outside _ _)
  · exact State.grants_of_outside (s.compactionDropped_outside _)
  · rfl

theorem State.discardMbx_grants (s : State) (i : Fin 8) : (s.discardMbx i).sec.grants = s.sec.grants := by
  unfold State.discardMbx
  dsimp only
  have undone := foldl_keeps (fun t : State => t.sec.grants) State.undoJob State.undoJob_grants
    (s.fw.jobs.filter fun j => decide (j.mbx = i)) s
  generalize (s.fw.jobs.filter fun j => decide (j.mbx = i)).foldl State.undoJob s = t at undone ⊢
  refine (State.grants_of_outside (State.noteCommits_outside _)).trans ?_
  exact (State.grants_of_outside (State.updMbx_outside _ i _)).trans undone

theorem State.cryptoErase_grants (s : State) (p : Fin 4) : (s.cryptoErase p).sec.grants = s.sec.grants := rfl

theorem State.startScrub_grants (s : State) : s.startScrub.sec.grants = s.sec.grants := by
  unfold State.startScrub
  split
  · rfl
  · split
    · rfl
    · exact (State.grants_of_outside (State.event_outside _ _ _ _ _ _)).trans rfl

/-! ## Grants -/

/-- The scrub of a partition begins with its grant in the state SCRUBBING (R407). -/
theorem State.beginScrub_state (s : State) (x : Scrub) : (s.beginScrub x).sec.grants[x.part].state = 2 := by
  have kept : (s.beginScrub x).sec.grants = (s.updGrant x.part fun g => { g with state := 2 }).sec.grants := by
    unfold State.beginScrub
    dsimp only
    refine (State.startScrub_grants _).trans ((State.cryptoErase_grants _ _).trans ?_)
    have granted : ({ s.updGrant x.part (fun g => { g with state := 2 }) with sec := {
        (s.updGrant x.part fun g => { g with state := 2 }).sec with
        scrubs := (s.updGrant x.part fun g => { g with state := 2 }).sec.scrubs.map fun (y : Scrub) =>
          if y.part = x.part then { y with begun := true, running := false, done := false } else y } } : State).sec.grants =
        (s.updGrant x.part fun g => { g with state := 2 }).sec.grants := rfl
    generalize ({ s.updGrant x.part (fun g => { g with state := 2 }) with sec := _ } : State) = t at granted ⊢
    have boxes := foldl_keeps (fun u : State => u.sec.grants) (fun (s : State) (i : Fin 8) =>
      if s.mbx[i].state ≠ .closed ∧ s.mbx[i].partition = x.part then
        (s.discardMbx i).updMbx i fun _ => { Mbx.reset with state := .scrubbing, partition := x.part }
      else s) (fun u i => by
        dsimp only
        split
        · exact (State.grants_of_outside (State.updMbx_outside _ i _)).trans (u.discardMbx_grants i)
        · rfl) (List.finRange 8) t
    generalize (List.finRange 8).foldl _ t = u at boxes ⊢
    have idle := (((u.freeImages_outside x.part).trans (State.freeWork_outside _ x.part)).trans
      (State.disableStreams_outside _ x.part)).trans (State.idlePins_outside _ s.sec.grants[x.part].trigMask)
    exact (State.grants_of_outside (idle.trans (.setFlags _ _))).trans (boxes.trans granted)
  have set : (s.updGrant x.part fun g => { g with state := 2 }).sec.grants[x.part] = { s.sec.grants[x.part] with state := 2 } := by
    simp [State.updGrant]
  exact (congrArg (fun v : Vector Grant 4 => v[x.part].state) kept).trans (congrArg Grant.state set)

/-- The scrub of a partition whose image runs waits for the boundary. -/
theorem State.queueScrub_of_running {s : State} {p : Fin 4} (runs : s.sched.running[p] ≠ none) (c : SubEntry) (g : Option Grant) :
    s.queueScrub c p g = { s.addJob c (.partGrant p) with sec := { s.sec with
      scrubs := s.sec.scrubs ++ [{ part := p, grant := g, begun := false, running := false, done := false, start := 0 }] } } :=
  if_neg (by
    change ¬ (s.sched.running[p]).isNone = true
    rw [Option.isNone_iff_eq_none]
    exact runs)

section
variable {s : State} {c : SubEntry} {p : Fin 4} (named : c.p 0 1 = p.val) (other : p ≠ 0) (free : s.granting p = false)
  (range : c.grant.inRange = true)
include named other free range

theorem State.partGrant_of_conflict {r : Nat} (conflict : s.grantConflict p c.grant = some r) :
    State.partGrant c s = s.reply c errNoResource r 0 0 0 := by
  have bound : c.p 0 1 < 4 := by omega
  have part : (⟨c.p 0 1, bound⟩ : Fin 4) = p := Fin.ext named
  unfold State.partGrant
  rw [dif_pos bound]
  simp only [part, other, free, range, conflict, if_false, Bool.false_eq_true, Bool.not_true]

theorem State.partGrant_of_clear (clear : s.grantConflict p c.grant = none) :
    State.partGrant c s = s.queueScrub c p (some c.grant) := by
  have bound : c.p 0 1 < 4 := by omega
  have part : (⟨c.p 0 1, bound⟩ : Fin 4) = p := Fin.ext named
  unfold State.partGrant
  rw [dif_pos bound]
  simp only [part, other, free, range, clear, if_false, Bool.false_eq_true, Bool.not_true]

end

theorem State.partRelease_of_part {s : State} {c : SubEntry} {p : Fin 4} (named : c.p 0 1 = p.val) (other : p ≠ 0) :
    State.partRelease c s = if s.granting p then s.replyErr c errScrubbing else s.queueScrub c p none := by
  unfold State.partRelease
  have nonzero : p.val ≠ 0 := fun e => other (Fin.ext e)
  have bound : 1 ≤ c.p 0 1 ∧ c.p 0 1 < 4 := by omega
  have part : (⟨c.p 0 1, bound.2⟩ : Fin 4) = p := Fin.ext named
  rw [dif_pos bound]
  simp only [part]

/-! ## Firmware images -/

/-- The slot that firmware does not run from, as an index and as a number. -/
theorem set_otherSlot (v : Vector FwImage 2) (x : FwImage) (b : Bool) :
    v.set (if b then (0 : Fin 2) else 1).val x (Fin.isLt _) = v.set (if b then 0 else 1) x (by cases b <;> decide) := by
  cases b <;> rfl

theorem State.fwWrite_of_first {s : State} {c : SubEntry} (start : c.p 0 4 = 0) (fits : (s.bulkIn c).length ≤ c.p 4 4)
    (ready : s.dev.phase = .ready) (flash : s.dev.hostPortBoot = false) (image : c.p 4 4 ≠ 5828) : State.fwWrite c s =
      State.replyOk { s with sec := { s.sec with
        staged := { bytes := s.bulkIn c, total := c.p 4 4 }
        slots := s.sec.slots.set (if s.dev.fwSlot then 0 else 1) { bytes := s.bulkIn c, total := c.p 4 4 }
          (by cases s.dev.fwSlot <;> decide) } } c := by
  have record : ¬ c.p 4 4 = recordBytesTotal := image
  unfold State.fwWrite State.writeSlot
  simp only [start, fits, ready, flash, record, if_true, Nat.zero_add, true_or, true_and, Bool.false_eq_true, false_and,
    decide_false, Bool.not_false, Bool.and_false, List.nil_append, if_false, reduceCtorEq]
  exact congrArg (fun v => State.replyOk { s with sec := { s.sec with
    staged := { bytes := s.bulkIn c, total := c.p 4 4 }, slots := v } } c) (set_otherSlot s.sec.slots _ s.dev.fwSlot)

theorem State.fwActivate_of_passed {s : State} {c : SubEntry} (ready : s.dev.phase = .ready)
    (whole : s.sec.staged.bytes.length = s.sec.staged.total) (image : 5828 < s.sec.staged.bytes.length)
    (passed : s.sec.fwCheck s.sec.staged.bytes = .passed) : State.fwActivate c s =
      State.activateImage (State.replyOk { s with sec := { s.sec with staged := FwImage.empty } } c) s.sec.staged.bytes
      ∧ (State.replyOk { s with sec := { s.sec with staged := FwImage.empty } } c).dev.phase = .ready := by
  have record : ¬ s.sec.staged.bytes.length = recordBytesTotal := fun e => by
    rw [e] at image
    exact absurd image (by decide)
  have some_ : 0 < s.sec.staged.bytes.length := by omega
  constructor
  · unfold State.fwActivate
    simp only [whole ▸ record, passed, whole ▸ some_, whole, decide_true, decide_false, and_self, Bool.not_true, Bool.false_eq_true,
      if_false]
  · rw [(State.replyOk_outside _ c).dev]
    exact ready

theorem State.activateImage_of_ready {s : State} (ready : s.dev.phase = .ready) (item : List Byte) : s.activateImage item =
    { s with sec := { s.sec with
      preferred := !s.dev.fwSlot, reloadNand := s.sec.reloadNand || decide (s.sec.preferred ≠ !s.dev.fwSlot) } } := by
  have slot : decide (s.writeSlot = 1) = !s.dev.fwSlot := by
    unfold State.writeSlot
    rw [ready]
    cases s.dev.fwSlot <;> rfl
  unfold State.activateImage
  rw [if_neg (by simp [ready]), slot]

theorem State.fwActivate_of_empty {s : State} (empty : s.sec.staged.bytes = []) (c : SubEntry) :
    State.fwActivate c s = s.replyErr c errArg := by
  unfold State.fwActivate
  exact if_pos (by simp [empty])

/-! ## Keys and reports -/

theorem State.rotateKey_of_idle {s : State} {c : SubEntry} {n : Fin 5} (ns : s.nsOf c = some n)
    (idle : ∀ j ∈ s.fw.jobs, j.kind ≠ .keyRotate n.val) : State.rotateKey c s =
      if s.oldPages n ≠ 0 then s.reply c errBusyRekey 0 (s.oldPages n) 0 0
      else if !s.sec.rngOk then State.reply { s with free := s.free + 1 } c errInternal (Config.freeValue 32 s.free).toNat 0 0 0
      else s.addJob c (.keyRotate n.val) := by
  unfold State.rotateKey
  simp only [ns]
  generalize waiting : s.fw.jobs.any _ = waits
  have none : waits = false := by
    rw [← waiting, List.any_eq_false]
    intro j mem
    have other := idle j mem
    split
    next m kind =>
      simp only [decide_eq_true_eq]
      rintro rfl
      exact other kind
    next => exact Bool.false_ne_true
  rw [none, if_neg Bool.false_ne_true]
  rfl

/-- A report: its body, then the two signatures over its digest (R409, R410). -/
def State.signedReport (s : State) (body : List Byte) : List Byte :=
  body ++ exactly 96 (Config.crypto cryptoEcdsa (sha384 body))
    ++ exactly 5396 (Config.crypto cryptoHss (natLe 4 s.sec.leafNext ++ sha384 body))

theorem State.signedReport_length (s : State) (body : List Byte) : (s.signedReport body).length = body.length + 5492 := by
  simp [State.signedReport, exactly]

theorem State.attest_of_room {s : State} {c : SubEntry} (rng : s.sec.rngOk = true) (leaf : s.sec.leafNext < 2 ^ 30)
    (recent : (s.sec.reports.filter fun t => decide (s.dtNs < t + 1000000000)).length < 10)
    (room : (s.reportBody (s.partOf c) (c.bytes 0 32)).length + 5492 ≤ c.entry.bulkLength.toNat) : State.attest c s =
      State.replyOut { s with sec := { s.sec.takeLeaf with
          reports := (s.sec.reports.filter fun t => decide (s.dtNs < t + 1000000000)) ++ [s.dtNs] } } c
        (s.signedReport (s.reportBody (s.partOf c) (c.bytes 0 32)))
        (s.signedReport (s.reportBody (s.partOf c) (c.bytes 0 32))).length 0 0 0 := by
  have fits : ¬ c.entry.bulkLength.toNat < (s.signedReport (s.reportBody (s.partOf c) (c.bytes 0 32))).length := by
    rw [State.signedReport_length]
    exact Nat.not_lt.mpr room
  unfold State.attest
  rw [rng, if_neg (by decide), if_neg (not_or.mpr ⟨Nat.not_le.mpr leaf, Nat.not_le.mpr recent⟩)]
  exact if_neg fits

end Sys2Proof.Machine

open Sys2Proof Sys2Proof.Machine

/-- Settles O14. -/
theorem securityCommandsAnswer : Obligations.SecurityCommandsAnswer := by
  unfold Obligations.SecurityCommandsAnswer
  refine fun s e => ⟨fun accepted start fits ready flash image => ?_, fun accepted ready whole image passed => ?_,
    fun accepted empty => ?_, fun n accepted ns old idle rng => ?_, fun n accepted ns old idle => ?_,
    fun accepted rng leaf recent room => ?_⟩
  · rw [exec_of_accepts State.fwWrite rfl accepted, State.fwWrite_of_first start fits ready flash image]
  · obtain ⟨active, phase⟩ := State.fwActivate_of_passed (c := asSub 0x0F02 e) ready whole image passed
    have replied := State.replyOk_outside { s with sec := { s.sec with staged := FwImage.empty } } (asSub 0x0F02 e)
    rw [exec_of_accepts State.fwActivate rfl accepted, active, State.activateImage_of_ready phase]
    generalize State.replyOk { s with sec := { s.sec with staged := FwImage.empty } } (asSub 0x0F02 e) = t at replied
    refine ⟨_, rfl, ?_, ?_, ?_, ?_, replied.dev⟩
    · rw [replied.dev]
    · exact congrArg Security.staged replied.sec
    · exact (congrArg Security.slots replied.sec).trans rfl
    · exact (congrArg Security.keptCopy replied.sec).trans rfl
  · rw [exec_of_accepts State.fwActivate rfl accepted, State.fwActivate_of_empty empty]
  · rw [exec_of_accepts State.rotateKey rfl accepted, State.rotateKey_of_idle ns idle, if_neg (Classical.not_not.mpr old),
      if_neg (by simp [rng])]
  · rw [exec_of_accepts State.rotateKey rfl accepted, State.rotateKey_of_idle ns idle, if_pos old]
  · rw [exec_of_accepts State.attest rfl accepted, State.attest_of_room rng leaf recent room]
    refine ⟨_, _, rfl, ?_, rfl, rfl⟩
    rw [State.signedReport, List.append_assoc, List.take_left]

/-- Settles O15. -/
theorem grantCommandsAnswer : Obligations.GrantCommandsAnswer := by
  unfold Obligations.GrantCommandsAnswer
  refine fun s e p => ⟨fun accepted named other free range clear => ?_, fun r accepted named other free range conflict => ?_,
    fun accepted named other free => ?_, fun accepted named other busy => ?_, fun c g runs => ?_, fun x part => ?_⟩
  · rw [exec_of_accepts State.partGrant rfl accepted, State.partGrant_of_clear named other free range clear]
  · rw [exec_of_accepts State.partGrant rfl accepted, State.partGrant_of_conflict named other free range conflict]
  · rw [exec_of_accepts State.partRelease rfl accepted, State.partRelease_of_part named other, if_neg (by simp [free])]
  · rw [exec_of_accepts State.partRelease rfl accepted, State.partRelease_of_part named other, if_pos busy]
  · exact ⟨_, State.queueScrub_of_running runs c g, rfl, rfl, rfl⟩
  · subst part
    exact s.beginScrub_state x
end

section
set_option Elab.async false
/-!
PROOFS. The STREAM_ commands' claim that fails, the POSE_, TRACK_ and MAP_ commands, and what they do at their boundary.
-/
namespace Sys2Proof.Machine
open State (Outside)

/-! ## STREAM_CONFIG writes the descriptor table -/

/-- A READY device that grants everything to partition 0. -/
def configWitness : State := { State.reset with
  dev := { Dev.reset with phase := .ready, fwUp := true, portUp := true, everReady := true }
  mbx := State.reset.mbx.set 0 { Mbx.reset with state := .opened } }

/-- A STREAM_CONFIG of mailbox 0 for channel 0, whose descriptor begins with a byte that is not 0. -/
def configEntry : Entry :=
  { mbx := 0, tag := 1, partition := 0, flags := 0, reserved := 0, bulkOffset := 0, bulkLength := 0
    payload := [0, 0, 0, 0, 1] ++ List.replicate 235 0 }

theorem configWitness_accepts : configWitness.Accepts 0x0301 configEntry := by
  have check : configWitness.acceptCheck (asSub 0x0301 configEntry) = none :=
    Option.isNone_iff_eq_none.mp (by decide +kernel)
  exact ⟨by decide, rfl, by decide, by decide, check⟩

/-- The descriptor table lies in DRAM wherever firmware puts it. -/
theorem streamTableBase_memRange (bs : List Byte) (n : Nat) (fits : n + bs.length ≤ 8192) :
    memRange (Config.streamTableBase + n) bs.length = true := by
  have place : Config.streamTableBase + 8192 ≤ dramSize := by
    have region : Config.fwRegionBase ≤ 0x5E0000000 := Nat.sub_le _ _
    have table : Config.streamTablePlace % 7864064 < 7864064 := Nat.mod_lt _ (Nat.zero_lt_succ _)
    unfold Config.streamTableBase dramSize
    dsimp only
    generalize Config.fwRegionBase = base at region ⊢
    generalize Config.streamTablePlace % 7864064 = k at table ⊢
    split <;> omega
  have low : Config.streamTableBase + n + bs.length ≤ dramSize := by
    rw [Nat.add_assoc]
    exact Nat.le_trans (Nat.add_le_add_left fits _) place
  simp [memRange, low]

theorem memReadN_nil (n a : Nat) : memReadN [] a n = List.replicate n 0 := by
  induction n generalizing a with
  | zero => rfl
  | succ n ih => rw [memReadN, ih, memRead, List.replicate_succ]

/-- The bytes that STREAM_CONFIG leaves in the descriptor table of its channel (R88). -/
theorem configStream_mem {c : SubEntry} {s : State} (channel : c.p 0 1 < 32) (owned : s.ownsChannel (s.partOf c) (c.p 0 1) = true) :
    (State.configStream c s).mem = memWriteN s.mem (Config.streamTableBase + 256 * c.p 0 1) (c.bytes 4 192) := by
  have size : (c.bytes 4 192).length = 192 := by simp [SubEntry.bytes]
  have mapped := streamTableBase_memRange (c.bytes 4 192) (256 * c.p 0 1) (by omega)
  simp only [State.configStream, dif_pos channel, owned, if_true, State.replyOk_mem, State.updChan_mem]
  unfold State.writeMem
  rw [if_pos mapped]

/-! ## The POSE_ and MAP_ commands (R216, R219, R363) -/

/-- A given pose starts at the position of its payload. -/
theorem State.initialEgo_position (s : State) (p : List Byte) (recs : List (List Byte)) (dt k : Nat) (position : k < 3) :
    (s.initialEgo p recs dt).mean[k]? = some (BitVec.ofNat 64 (fieldAt p (8 + 8 * k) 8)) := by
  have inside : k < 10 + 6 * s.boundUnits + 3 * b2n s.hasWheels := by omega
  unfold State.initialEgo
  dsimp only
  rw [List.getElem?_map, List.getElem?_range inside, Option.map_some, if_pos position]

/-- The state at the start of the acre's deletion, its directory entry pending. -/
theorem State.mapAcreDelete_eq {c : SubEntry} {s : State} (known : (s.acre (c.p 0 6)).isSome = true) :
    State.mapAcreDelete c s = State.commitDirectory
      ((s.addJob c (.acreDelete (c.p 0 6) false)).updAcre (c.p 0 6) fun a => { a with deleting := true })
      (s.fld.dirNext.filter fun d => decide (d.key ≠ c.p 0 6)) := by
  have there : ¬ (s.acre (c.p 0 6)).isNone = true := by
    rw [← Option.not_isSome, known]
    decide
  unfold State.mapAcreDelete
  rw [if_neg there]
  rfl

/-- A subscription whose fields lie in their ranges starts with an empty ring (R363). -/
theorem State.poseSubscribe_eq {c : SubEntry} {s : State} (on : c.p 10 1 = 1) (aligned : c.p 0 4 % 64 = 0) (low : 2 ≤ c.p 4 2)
    (high : c.p 4 2 ≤ 1024) (fits : c.p 0 4 + 64 + 96 * c.p 4 2 ≤ bulkSize) (decimate : c.p 6 2 ≠ 0) (notify : c.p 8 2 ≤ 1024) :
    State.poseSubscribe c s = ((s.windowWrite c.entry.mbx (c.p 0 4) (natLe 8 0)).updMbx c.entry.mbx fun m => { m with
      poseSub := some { ringOffset := c.p 0 4, ringRecords := c.p 4 2, decimate := c.p 6 2, notifyEvery := c.p 8 2, delivered := 0
                        sinceNotice := 0, lastPermit := (fieldAt s.currentPose 12 4).testBit 1 } }).replyOk c := by
  have inRange : ¬ (c.p 0 4 % 64 ≠ 0 ∨ (!within (c.p 4 2) 2 1024) = true ∨ bulkSize < c.p 0 4 + 64 + 96 * c.p 4 2 ∨ c.p 6 2 = 0
      ∨ 1024 < c.p 8 2) := by
    simp [aligned, within, low, high, decimate, Nat.not_lt.mpr fits, Nat.not_lt.mpr notify]
  unfold State.poseSubscribe
  rw [on]
  exact if_neg inRange

end Sys2Proof.Machine

open Sys2Proof Sys2Proof.Machine

/-- Refutes O8: STREAM_CONFIG also writes the descriptor into the table in device memory. -/
theorem not_streamCommandsAnswer : ¬ Obligations.StreamCommandsAnswer := by
  intro h
  obtain ⟨config, -⟩ := h configWitness configEntry
  have answer := config 0 configWitness_accepts (by decide) (by decide +kernel)
  rw [exec_of_accepts State.configStream rfl configWitness_accepts] at answer
  have mem := congrArg State.mem (Host.Outcome.next.inj answer)
  rw [configStream_mem (by decide) (by decide +kernel), State.replyOk_mem, State.updChan_mem] at mem
  have read := memReadN_memWriteN (Config.streamTableBase + 256 * (asSub 0x0301 configEntry).p 0 1)
    ((asSub 0x0301 configEntry).bytes 4 192) (show memWf configWitness.mem = true from rfl)
  rw [mem, show configWitness.mem = [] from rfl, memReadN_nil] at read
  exact absurd (congrArg (fun l => l[0]?) read) (by decide +kernel)

/-- Settles O9: each command's fields are in range, so it waits as a job or answers at once. -/
theorem poseAndMapCommandsAnswer : Obligations.PoseAndMapCommandsAnswer := by
  intro s e
  refine ⟨fun ok runs mode => ?_, fun ok runs mode => ?_, fun ok stopped => ?_, fun ok range => ?_,
    fun ok on aligned low high fits decimate notify => ?_, fun ok off => ?_, fun x ok stored owner kind => ?_, fun ok range => ?_,
    fun ok range => ?_, fun ok known => ?_⟩
  · rw [exec_of_accepts State.poseInit rfl ok]
    simp [State.poseInit, runs, mode]
  · rw [exec_of_accepts State.poseInit rfl ok]
    simp [State.poseInit, runs, mode]
  · rw [exec_of_accepts State.poseInit rfl ok]
    simp [State.poseInit, stopped]
  · rw [exec_of_accepts State.poseConfig rfl ok]
    simp [State.poseConfig, range]
  · rw [exec_of_accepts State.poseSubscribe rfl ok, State.poseSubscribe_eq on aligned low high fits decimate notify]
    exact ⟨_, rfl, rfl, rfl, rfl, rfl, rfl⟩
  · rw [exec_of_accepts State.poseSubscribe rfl ok]
    unfold State.poseSubscribe
    rw [off]
    rfl
  · rw [exec_of_accepts State.trackDelete rfl ok]
    simp [State.trackDelete, stored, owner, kind]
  · rw [exec_of_accepts State.mapConfig rfl ok]
    simp [State.mapConfig, range]
  · rw [exec_of_accepts State.mapTrain rfl ok]
    simp [State.mapTrain, Nat.not_lt.mpr range]
  · refine ⟨_, exec_of_accepts State.mapAcreDelete rfl ok, ?_⟩
    rw [State.mapAcreDelete_eq known]
    refine ⟨rfl, rfl, fun d mem => ?_, rfl, rfl⟩
    have kept := (List.mem_filter.mp mem).2
    simpa using kept

/-- Settles O10: the boundary applies each waiting command's kind. -/
theorem waitingCommandsApply : Obligations.WaitingCommandsApply := by
  intro s j dt
  refine ⟨fun p kind jobs => ?_, fun p kind => ?_, fun p kind => ?_, fun h kind live => ?_, fun p kind => ?_, fun n kind => ?_,
    fun kind => ?_, fun b kind => ?_⟩
  · simp only [State.boundaryJob, State.applyPoseJob, kind, jobs, List.map_cons, List.map_nil, if_true]
  · simp only [State.boundaryJob, State.applyPoseJob, kind]
  · simp only [State.boundaryJob, State.applyPoseJob, kind]
    exact ⟨_, rfl, rfl, rfl, rfl, rfl, fun k position => s.initialEgo_position p [] dt k position⟩
  · simp only [State.boundaryJob, State.applyPoseJob, kind, live, if_true]
  · simp only [State.boundaryJob, State.applyMapJob, kind]
  · simp only [State.boundaryJob, State.applyMapJob, kind]
  · simp only [State.boundaryJob, kind]
  · simp only [State.boundaryJob, kind]

end

section
set_option Elab.async false
/-!
PROOFS. The MODEL_ and OBJ_ commands: the pieces of a load, and the commands on a loaded object.
-/
namespace Sys2Proof.Machine
open State (Outside)

/-! ## Handles and the numbers that are drawn -/

theorem handleOf_type (p : Fin 4) (type number : Nat) (fits : type < 64) : handleType (handleOf p type number) = type := by
  unfold handleType handleOf
  omega

theorem handleOf_part (p : Fin 4) (type number : Nat) (fits : type < 64) : handlePart (handleOf p type number) = p := by
  apply Fin.ext
  unfold handlePart handleOf
  have := p.isLt
  dsimp only
  omega

theorem State.freeRun_state (s : State) (p : Fin 4) (self pages : Nat) : (s.freeRun p self pages).2 = { s with free := s.free + 1 } := rfl

theorem State.newNumber_state (s : State) (used : List Nat) : (s.newNumber used).2 = { s with free := s.free + 1 } := rfl

/-! ## The pieces of a load (R358 to R360) -/

theorem isModelType_lt {t : Nat} (h : isModelType t = true) : t < 64 := by
  simp only [isModelType, decide_eq_true_eq] at h
  omega

theorem isObjType_lt {t : Nat} (h : isObjType t = true) : t < 64 := by
  simp only [isObjType, within, Bool.or_eq_true, decide_eq_true_eq] at h
  omega

/-- A piece after which bytes are still to come completes at once. -/
theorem State.pieceDone_of_partial {s : State} {c : SubEntry} {model : Bool} {o : Obj} {word0 : Nat} (more : o.bytes.length < o.size) :
    s.pieceDone c model o word0 = s.reply c stOk word0 0 0 0 :=
  if_neg (Nat.ne_of_lt more)

/-- A piece that fits the unfinished object that it names is appended to it. -/
theorem State.loadNext_of_fits {s : State} {c : SubEntry} {model : Bool} {bs : List Byte} {o : Obj}
    (part : handlePart (c.p 0 4) = s.partOf c) (named : s.obj (c.p 0 4) = some o) (partialLoad : o.partialLoad = true)
    (offset : c.p 16 8 = o.bytes.length) (size : c.p 8 8 = o.size) (more : o.bytes.length + bs.length < o.size)
    (type : handleType (c.p 0 4) = c.p 4 1) :
    s.loadNext c model bs = (s.putObj { o with bytes := o.bytes ++ bs }).reply c stOk (c.p 0 4) 0 0 0 := by
  have fits : ¬ (c.p 16 8 ≠ o.bytes.length ∨ c.p 8 8 ≠ o.size ∨ o.size < o.bytes.length + bs.length
      ∨ handleType (c.p 0 4) ≠ c.p 4 1) := by
    simp [offset, size, type, Nat.le_of_lt more]
  unfold State.loadNext
  simp only [part, named, partialLoad, ne_eq, not_true_eq_false, if_false, Bool.not_true, Bool.false_eq_true]
  refine (if_neg fits).trans (State.pieceDone_of_partial ?_)
  simpa using more

/-- A piece at an offset other than 0 continues a load, unless a model is loaded in a device that is not OWNED. -/
theorem State.loadPiece_of_offset {s : State} {c : SubEntry} {model : Bool} (owned : model = true → s.sec.lifecycle = .owned)
    (offset : c.p 16 8 ≠ 0) : State.loadPiece model c s = s.loadNext c model (s.bulkIn c) := by
  have unlocked : ¬ (model = true ∧ s.sec.lifecycle ≠ .owned) := fun h => h.2 (owned h.1)
  exact (if_neg unlocked).trans (if_pos (.inl offset))

/-- The first piece of a new object that has room. -/
theorem State.loadFirst_new {s : State} {c : SubEntry} {model : Bool} {bs : List Byte} {a : Nat} (new : c.p 0 4 = 0)
    (more : bs.length < c.p 8 8)
    (room : s.roomFails (s.partOf c) (c.p 8 8) (decide (c.p 5 1 = 1)) (decide (c.p 6 1 = 1)) = none)
    (run : (s.freeRun (s.partOf c) 0 (ceilDiv (c.p 8 8) 65536)).1 = some a) :
    ∃ n, s.loadFirst c model bs =
      (State.putObj { s with free := s.free + 2 } (c.firstPiece (handleOf (s.partOf c) (c.p 4 1) n) a none bs)).reply c stOk
        (handleOf (s.partOf c) (c.p 4 1) n) 0 0 0 := by
  have drawn : s.freeRun (s.partOf c) 0 (ceilDiv (c.p 8 8) 65536) = (some a, { s with free := s.free + 1 }) :=
    Prod.ext run (s.freeRun_state _ _ _)
  refine ⟨(State.newNumber { s with free := s.free + 1 }
    ((s.mt.objects.filter fun o => decide (handlePart o.handle = s.partOf c)).map fun o => o.handle % 2 ^ 24)).1, ?_⟩
  unfold State.loadFirst
  simp only [new, ne_eq, not_true_eq_false, false_and, if_false, if_true, room, drawn]
  exact State.pieceDone_of_partial more

/-- A piece at offset 0 that names no object starts a load. -/
theorem State.loadPiece_of_first {s : State} {c : SubEntry} {model : Bool} (owned : model = true → s.sec.lifecycle = .owned)
    (type : (if model then isModelType (c.p 4 1) else isObjType (c.p 4 1)) = true) (backed : c.p 5 1 ≤ 1) (mirror : c.p 6 1 ≤ 1)
    (offset : c.p 16 8 = 0) (new : c.p 0 4 = 0) (more : (s.bulkIn c).length < c.p 8 8) :
    State.loadPiece model c s = s.loadFirst c model (s.bulkIn c) := by
  have unlocked : ¬ (model = true ∧ s.sec.lifecycle ≠ .owned) := fun h => h.2 (owned h.1)
  have first : ¬ (c.p 16 8 ≠ 0 ∨ s.ownPartial c = true) := by simp [offset, State.ownPartial, new]
  have good : ¬ ((!(if model then isModelType (c.p 4 1) else isObjType (c.p 4 1))) = true ∨ 1 < c.p 5 1 ∨ 1 < c.p 6 1
      ∨ c.p 8 8 = 0) := by
    rw [type]
    simp only [Bool.not_true, Bool.false_eq_true, false_or]
    omega
  exact (if_neg unlocked).trans ((if_neg first).trans ((if_neg good).trans (if_neg (Nat.lt_asymm more))))

/-- The two load commands, each with the types it takes. -/
theorem exec_of_load {i : Instr} {s : State} {op : Nat} {e : Entry} {model : Bool}
    (row : (op = 0x0B01 ∧ model = false ∧ i = .objLoad e ∧ isObjType ((asSub op e).p 4 1) = true)
      ∨ (op = 0x0A01 ∧ model = true ∧ i = .modelLoad e ∧ isModelType ((asSub op e).p 4 1) = true ∧ s.sec.lifecycle = .owned))
    (ok : s.Accepts op e) :
    exec i s = .next (State.loadPiece model (asSub op e) s) ∧ (model = true → s.sec.lifecycle = .owned)
      ∧ (if model then isModelType ((asSub op e).p 4 1) else isObjType ((asSub op e).p 4 1)) = true := by
  obtain ⟨rfl, rfl, rfl, type⟩ | ⟨rfl, rfl, rfl, type, owned⟩ := row
  · exact ⟨exec_of_accepts (State.loadPiece false) rfl ok, nofun, type⟩
  · exact ⟨exec_of_accepts (State.loadPiece true) rfl ok, fun _ => owned, type⟩

/-- A type that a load takes is one of a handle. -/
theorem loadType_lt {model : Bool} {t : Nat} (type : (if model then isModelType t else isObjType t) = true) : t < 64 := by
  cases model with
  | false => exact isObjType_lt type
  | true => exact isModelType_lt type

/-! ## The object that a command names (R306 to R308) -/

/-- A placement in DRAM alone of a whole object drops its flash copies. -/
theorem State.objPlace_dram {c : SubEntry} {s : State} {o : Obj} (usable : s.usableObj c = .ok o) (dram : c.p 4 1 = 0)
    (mirror : c.p 5 1 ≤ 1) (pins : o.pins = []) (promoting : o.promoting = []) (still : s.objWriting o = false)
    (whole : o.whole = true) :
    State.objPlace c s = ((s.updObj o.handle fun o => { o with
      backed := false, mirror := decide (c.p 5 1 = 1) }).dropCopies o.handle false).replyOk c := by
  unfold State.objPlace
  simp [usable, dram, Nat.not_lt.mpr mirror, pins, promoting, still, whole]

/-- An eviction of an object without pins drops it; of one with pins, or that is promoted, it waits. -/
theorem Obj.evict_eq (o : Obj) :
    o.evict = if o.pins = [] ∧ o.promoting = [] then { o with dropping := true } else { o with evictPending := true } := by
  unfold Obj.evict
  cases o.pins <;> cases o.promoting <;> rfl

end Sys2Proof.Machine

open Sys2Proof Sys2Proof.Machine

/-- Settles O12: a piece that leaves bytes to come only changes its object. -/
theorem loadCommandsAnswer : Obligations.LoadCommandsAnswer := by
  intro s e
  refine ⟨fun o op model i row ok _ _ size offset some part type named partialLoad more => ?_,
    fun op a model i row ok backed mirror offset new more room run => ?_, fun ok owned => ?_⟩
  · obtain ⟨exec, owned, -⟩ := exec_of_load row ok
    have later : (asSub op e).p 16 8 ≠ 0 := by simpa [offset] using some
    rw [exec, State.loadPiece_of_offset owned later, State.loadNext_of_fits part named partialLoad offset size more type]
  · obtain ⟨exec, owned, type⟩ := exec_of_load row ok
    obtain ⟨n, loaded⟩ := State.loadFirst_new (model := model) new more room run
    rw [exec, State.loadPiece_of_first owned type backed mirror offset new more, loaded]
    exact ⟨_, rfl, handleOf_type _ _ _ (loadType_lt type), handleOf_part _ _ _ (loadType_lt type)⟩
  · rw [exec_of_accepts (State.loadPiece true) rfl ok]
    exact congrArg _ (if_pos ⟨rfl, owned⟩)

/-- Settles O13: each command's test of the object decides. -/
theorem objectCommandsAnswer : Obligations.ObjectCommandsAnswer := by
  intro s e o
  refine ⟨fun ok usable dram mirror pins promoting still whole => ?_, fun t ok usable backed promoted => ?_,
    fun d t ok usable backed refused => ?_, fun ok usable whole => ?_, fun ok usable pinned => ?_, fun ok usable backed unbound => ?_,
    fun ok usable kept => ?_, fun ok named live loaded unbound own => ?_⟩
  · rw [exec_of_accepts State.objPlace rfl ok, State.objPlace_dram usable dram mirror pins promoting still whole]
  · rw [exec_of_accepts State.objPromote rfl ok]
    simp [State.objPromote, usable, backed, promoted]
  · rw [exec_of_accepts State.objPromote rfl ok]
    simp [State.objPromote, usable, backed, refused]
  · rw [exec_of_accepts State.objPin rfl ok]
    simp [State.objPin, usable, whole, State.pin]
  · rw [exec_of_accepts State.objUnpin rfl ok]
    simp [State.objUnpin, usable, pinned]
  · rw [exec_of_accepts State.objEvict rfl ok]
    simp [State.objEvict, usable, backed, unbound, funext Obj.evict_eq]
  · rw [exec_of_accepts State.objEvict rfl ok]
    obtain dram | bound := kept
    · simp [State.objEvict, usable, dram]
    · simp [State.objEvict, usable, bound]
  · rw [exec_of_accepts State.objUnload rfl ok]
    simp only [State.objUnload, named, live, loaded, unbound, Bool.false_or, Bool.not_true, Bool.false_and, Bool.or_false]
    refine congrArg _ (if_neg ?_)
    have others := fun p mem => Or.resolve_left (own p mem)
    simpa using others

end

section
set_option Elab.async false
/-!
PROOFS. The SCHED_ commands: what a start and a stop change, selection, and the slots of the images.
-/
namespace Sys2Proof.Machine
open State (Outside)

/-! ## Memory kept outside a set of addresses -/

/-- From one state to another, memory stays canonical and reads the same at the addresses of a set. -/
def State.KeepsMem (s : State) (kept : Nat → Prop) (t : State) : Prop :=
  memWf s.mem = true → memWf t.mem = true ∧ ∀ a, kept a → memRead t.mem a = memRead s.mem a

theorem State.KeepsMem.of_eq {s t : State} (kept : Nat → Prop) (same : t.mem = s.mem) : s.KeepsMem kept t := fun wf => by
  rw [same]
  exact ⟨wf, fun _ _ => rfl⟩

theorem State.KeepsMem.trans {s t u : State} {kept : Nat → Prop} (first : s.KeepsMem kept t) (next : t.KeepsMem kept u) :
    s.KeepsMem kept u := fun wf => by
  obtain ⟨mid, read⟩ := first wf
  obtain ⟨last, read'⟩ := next mid
  exact ⟨last, fun a at_ => (read' a at_).trans (read a at_)⟩

theorem State.unmapRun_keepsMem {kept : Nat → Prop} {base bytes : Nat} (apart : ∀ a, kept a → a < base ∨ base + bytes ≤ a) (s : State) :
    s.KeepsMem kept (s.unmapRun base bytes) :=
  fun wf => ⟨memWf_zeroRange base bytes wf, fun a at_ => memRead_zeroRange_outside wf (apart a at_)⟩

theorem State.writeMem_keepsMem {kept : Nat → Prop} {base : Nat} {bs : List Byte}
    (apart : ∀ a, kept a → a < base ∨ base + bs.length ≤ a) (s : State) : s.KeepsMem kept (s.writeMem base bs) := by
  unfold State.writeMem
  split
  · exact fun wf => ⟨memWf_memWriteN base bs wf, fun a at_ => memRead_memWriteN_outside base a bs wf (apart a at_)⟩
  · exact .of_eq kept rfl

theorem State.foldl_keepsMem {α : Type} {kept : Nat → Prop} {f : State → α → State}
    (step : ∀ (s : State) (x : α), s.KeepsMem kept (f s x)) (l : List α) (s : State) : s.KeepsMem kept (l.foldl f s) := by
  induction l generalizing s with
  | nil => exact .of_eq kept rfl
  | cons x l ih => exact (step s x).trans (ih (f s x))

/-! ## The runs that a start takes (R225, R226) -/

theorem Ego.bytes_length_le (e : Ego) : e.bytes.length ≤ 12288 := List.length_take_le _ _

/-- Every place of a ring of whole pages lies in it. -/
theorem ringPlace_le (pages k : Nat) (room : 12288 ≤ 65536 * pages) :
    12288 * (k % max 1 (65536 * pages / 12288)) + 12288 ≤ 65536 * pages := by
  have places : max 1 (65536 * pages / 12288) = 65536 * pages / 12288 := Nat.max_eq_right (by omega)
  have slot : k % (65536 * pages / 12288) < 65536 * pages / 12288 := Nat.mod_lt _ (by omega)
  have whole := Nat.div_mul_le_self (65536 * pages) 12288
  rw [places]
  generalize k % (65536 * pages / 12288) = j at slot ⊢
  generalize 65536 * pages / 12288 = q at slot whole
  omega

theorem State.storeHistory_keepsMem {kept : Nat → Prop} {s : State} {base pages : Nat} (run : s.fus.historyRun = some (base, pages))
    (room : 12288 ≤ 65536 * pages) (apart : ∀ a, kept a → a < base ∨ base + 65536 * pages ≤ a) (n : Nat) :
    s.KeepsMem kept (s.storeHistory n) := by
  unfold State.storeHistory
  rw [run]
  refine State.foldl_keepsMem (fun t x => State.writeMem_keepsMem (fun a at_ => ?_) t) _ s
  have inside := ringPlace_le pages (t.fus.historyNext + max 1 (65536 * pages / 12288) - 1 - x.2) room
  have short := x.1.bytes_length_le
  have out := apart a at_
  omega

theorem historyPages_room (spans : Nat) : 12288 ≤ 65536 * historyPages spans := by
  unfold historyPages ceilDiv
  rw [if_neg (by decide)]
  omega

theorem State.placeTable_of_some {s : State} {b : Nat} (placed : s.fus.tableBase = some b) : s.placeTable = s := by
  unfold State.placeTable
  rw [placed]

/-- The state with the track table's run noted, and the draw that chose it. -/
def State.tableTaken (s : State) (b : Nat) : State :=
  { s with free := s.free + 1, fus := { s.fus with tableBase := some b } }

theorem State.tableTaken_outside (s : State) (b : Nat) : s.Outside [.free, .fus, .mem] (s.tableTaken b) := fun p out => by
  cases p <;> simp_all [State.tableTaken]

/-- The search for a free run, of which only the draw is known: compare `State.freeRun_opaque`. -/
theorem State.freeRun_drawn : ∃ find, State.freeRun = find ∧
    ∀ (s : State) (p : Fin 4) (self pages : Nat), (find s p self pages).2 = { s with free := s.free + 1 } :=
  ⟨_, rfl, State.freeRun_state⟩

theorem State.placeTable_of_none {s : State} (new : s.fus.tableBase = none) (run : Option Nat) (drawn : (s.freeRun 0 0 256).1 = run) :
    s.placeTable = run.elim { s with free := s.free + 1 } fun b => (s.tableTaken b).fillRun b trackTableBytes [] := by
  obtain ⟨find, isFind, draws⟩ := State.freeRun_drawn
  have moved := draws s 0 0 256
  unfold State.placeTable
  rw [isFind] at drawn ⊢
  generalize find s 0 0 256 = r at drawn moved ⊢
  obtain ⟨r, t⟩ := r
  subst drawn moved
  generalize trackTableBytes = bytes
  rw [new]
  cases r <;> rfl

/-- What a start changes where the track table has no run. -/
theorem State.placeTable_spec (s : State) : s.Outside [.free, .fus, .mem] s.placeTable
    ∧ (∃ b, s.placeTable.fus = { s.fus with tableBase := b }) ∧ (s.fus.tableBase ≠ none → s.placeTable = s)
    ∧ ∀ kept : Nat → Prop, (∀ a, kept a → ∀ b, s.placeTable.fus.tableBase = some b → a < b ∨ b + trackTableBytes ≤ a) →
      s.KeepsMem kept s.placeTable := by
  cases base : s.fus.tableBase with
  | some b =>
    rw [State.placeTable_of_some base]
    exact ⟨.refl s _, ⟨s.fus.tableBase, rfl⟩, fun _ => rfl, fun kept _ => .of_eq kept rfl⟩
  | none =>
    cases run : (s.freeRun 0 0 256).1 with
    | some b =>
      rw [State.placeTable_of_none base _ run]
      refine ⟨(s.tableTaken_outside b).step (State.fillRun_outside _ _ _ _), ⟨some b, rfl⟩, fun some => absurd rfl some, fun kept apart => ?_⟩
      exact State.unmapRun_keepsMem (fun a at_ => apart a at_ b rfl) (s.tableTaken b)
    | none =>
      rw [State.placeTable_of_none base _ run]
      exact ⟨(Outside.setFree s _).mono (by decide), ⟨s.fus.tableBase, rfl⟩, fun some => absurd rfl some, fun kept _ => .of_eq kept rfl⟩

/-! ## The history ring -/

theorem State.placeHistory_of_fit {s : State} {r : Nat × Nat} (run : s.fus.historyRun = some r)
    (fit : r.2 = historyPages s.fus.params.retroSpans) : s.placeHistory = s := by
  unfold State.placeHistory
  refine if_pos ?_
  simp [run, fit]

/-- The state with the old run of the history given up. -/
def State.historyGiven (s : State) : State :=
  match s.fus.historyRun with
  | some r => s.unmapRun r.1 (65536 * r.2)
  | none => s

/-- The state with a run of the history noted, and the draw that chose it. -/
def State.historyTaken (s : State) (run : Option (Nat × Nat)) : State :=
  { s with free := s.free + 1, fus := { s.fus with historyRun := run } }

theorem State.historyGiven_fus (s : State) : s.historyGiven.fus = s.fus := by
  unfold State.historyGiven
  split <;> rfl

/-- What is left of the history's run where its length is another. -/
def State.historyUnplaced (s : State) : State := { s.historyGiven with fus := { s.historyGiven.fus with historyRun := none } }

/-- A history whose run has another length takes a new run if there is one. -/
theorem State.placeHistory_of_unfit {s : State} {pages : Nat} (asked : historyPages s.fus.params.retroSpans = pages)
    (unfit : (s.fus.historyRun.any fun r => decide (r.2 = pages)) = false) (run : Option Nat)
    (drawn : (s.historyUnplaced.freeRun 0 0 pages).1 = run) :
    s.placeHistory = run.elim (s.historyGiven.historyTaken none) fun b =>
      ((s.historyGiven.unmapRun b (65536 * pages)).historyTaken (some (b, pages))).storeHistory s.fus.history.length := by
  have moved := s.historyUnplaced.freeRun_state 0 0 pages
  have same : s.historyGiven.fus.history = s.fus.history := by rw [s.historyGiven_fus]
  unfold State.placeHistory
  rw [asked]
  dsimp only
  rw [if_neg (by rw [unfit]; exact Bool.false_ne_true)]
  change (match (s.historyUnplaced.freeRun 0 0 pages).1 with
    | none => (s.historyUnplaced.freeRun 0 0 pages).2
    | some b => _) = _
  generalize s.historyUnplaced.freeRun 0 0 pages = r at drawn moved ⊢
  obtain ⟨r, t⟩ := r
  subst drawn moved
  cases r with
  | none => rfl
  | some b => exact congrArg (State.storeHistory _) (congrArg List.length same)

theorem State.historyGiven_outside (s : State) : s.Outside [.mem] s.historyGiven := by
  unfold State.historyGiven
  split
  · exact s.unmapRun_outside _ _
  · exact .refl s _

theorem State.historyTaken_outside (s : State) (run : Option (Nat × Nat)) : s.Outside [.free, .fus, .mem] (s.historyTaken run) :=
  fun p out => by
    cases p <;> simp_all [State.historyTaken]

theorem State.historyGiven_keepsMem {kept : Nat → Prop} {s : State}
    (old : ∀ a, kept a → ∀ h, s.fus.historyRun = some h → a < h.1 ∨ h.1 + 65536 * h.2 ≤ a) : s.KeepsMem kept s.historyGiven := by
  unfold State.historyGiven
  split
  next h run => exact State.unmapRun_keepsMem (fun a at_ => old a at_ h run) s
  next => exact .of_eq kept rfl

/-- What the placing of the history changes. -/
theorem State.placeHistory_spec (s : State) : s.Outside [.free, .fus, .mem] s.placeHistory
    ∧ (∃ r, s.placeHistory.fus = { s.fus with historyRun := r })
    ∧ ∀ kept : Nat → Prop, (∀ a, kept a → ∀ h, s.fus.historyRun = some h ∨ s.placeHistory.fus.historyRun = some h →
      a < h.1 ∨ h.1 + 65536 * h.2 ≤ a) → s.KeepsMem kept s.placeHistory := by
  have given : s.Outside [.free, .fus, .mem] s.historyGiven := s.historyGiven_outside.mono (by decide)
  have fus := s.historyGiven_fus
  cases fit : s.fus.historyRun.any fun r => decide (r.2 = historyPages s.fus.params.retroSpans) with
  | true =>
    have kept : s.placeHistory = s := by
      unfold State.placeHistory
      exact if_pos fit
    rw [kept]
    exact ⟨.refl s _, ⟨s.fus.historyRun, rfl⟩, fun kept _ => .of_eq kept rfl⟩
  | false =>
    have room := historyPages_room s.fus.params.retroSpans
    have placed := fun run => State.placeHistory_of_unfit (s := s) rfl fit run
    generalize historyPages s.fus.params.retroSpans = pages at room placed
    cases drawn : (s.historyUnplaced.freeRun 0 0 pages).1 with
    | none =>
      rw [placed none drawn]
      refine ⟨given.step (State.historyTaken_outside _ _), ⟨none, ?_⟩, fun kept apart => ?_⟩
      · simp only [Option.elim_none, State.historyTaken, fus]
      · exact (State.historyGiven_keepsMem fun a at_ h run => apart a at_ h (.inl run)).trans (.of_eq kept rfl)
    | some b =>
      rw [placed (some b) drawn, Option.elim_some]
      have mapped := (given.step (s.historyGiven.unmapRun_outside b (65536 * pages))).step (State.historyTaken_outside _ (some (b, pages)))
      have run : ((s.historyGiven.unmapRun b (65536 * pages)).historyTaken (some (b, pages))).fus =
          { s.fus with historyRun := some (b, pages) } := by rw [← fus]; rfl
      refine ⟨mapped.step (State.storeHistory_outside _ _), ⟨some (b, pages), ?_⟩, fun kept apart => ?_⟩
      · rw [(State.storeHistory_outside _ _).fus, run]
      · have new : ∀ a, kept a → a < b ∨ b + 65536 * pages ≤ a := fun a at_ => apart a at_ (b, pages)
          (.inr (by rw [(State.storeHistory_outside _ _).fus, run]))
        have free := (State.historyGiven_keepsMem fun a at_ h run => apart a at_ h (.inl run)).trans
          (State.unmapRun_keepsMem new s.historyGiven)
        refine (free.trans (u := (s.historyGiven.unmapRun b (65536 * pages)).historyTaken (some (b, pages))) (.of_eq kept rfl)).trans ?_
        exact State.storeHistory_keepsMem (by rw [run]) room new _

/-! ## SCHED_START (R57, R81) -/

/-- The fusion engine as a start leaves it. -/
def Fusion.started (f : Fusion) : Fusion :=
  { f with
    initialised := false, seq := 0, lastProp := none, propBad := false, gapSaid := false, direct := [], history := []
    inertialLog := [], late := [], votes := [], sticky := 0, lateCount := 0, binds := [], alignFrom := none, alignRecs := []
    head := Head.reset, ego := { dt := 0, mean := [], cov := [] } }

/-- An average that runs starts again with the schedule. -/
def Job.realigned (j : Job) : Job :=
  match j.kind with
  | .poseAlign p _ false => { j with kind := .poseAlign p none false }
  | _ => j

theorem Job.realigned_same (j : Job) : (j.realigned.mbx, j.realigned.tag, j.realigned.opcode) = (j.mbx, j.tag, j.opcode) := by
  unfold Job.realigned
  split <;> rfl

/-- The engine reset for a schedule that starts, its runs placed. -/
def State.fusStarted (s : State) : State :=
  { s with fw := { s.fw with jobs := s.fw.jobs.map Job.realigned }, fus := s.fus.started }

theorem State.fusStarted_outside (s : State) : s.Outside [.fus, .fw] s.fusStarted := fun p out => by
  cases p <;> simp_all [State.fusStarted]

theorem State.fusStart_eq (s : State) : s.fusStart = s.placeTable.placeHistory.fusStarted := rfl

/-- What the start of a schedule changes of the fusion engine and its memory. -/
theorem State.fusStart_spec (s : State) : s.Outside [.free, .fus, .mem, .fw] s.fusStart
    ∧ s.fusStart.fw = { s.fw with jobs := s.fw.jobs.map Job.realigned }
    ∧ (∃ b h, s.fusStart.fus = Fusion.started { s.fus with tableBase := b, historyRun := h })
    ∧ (s.fus.tableBase ≠ none → s.fusStart.fus.tableBase = s.fus.tableBase)
    ∧ (∀ h, s.fus.tableBase ≠ none → s.fus.historyRun = some h → h.2 = historyPages s.fus.params.retroSpans →
        s.fusStart.mem = s.mem ∧ s.fusStart.fus.historyRun = some h ∧ s.fusStart.free = s.free)
    ∧ ∀ kept : Nat → Prop, (∀ a, kept a → ∀ b, s.fusStart.fus.tableBase = some b → a < b ∨ b + trackTableBytes ≤ a) →
      (∀ a, kept a → ∀ h, s.fus.historyRun = some h ∨ s.fusStart.fus.historyRun = some h → a < h.1 ∨ h.1 + 65536 * h.2 ≤ a) →
      s.KeepsMem kept s.fusStart := by
  obtain ⟨table, ⟨b, base⟩, placed, tableMem⟩ := s.placeTable_spec
  obtain ⟨history, ⟨h, run⟩, historyMem⟩ := s.placeTable.placeHistory_spec
  have both := table.step history
  have fus : s.placeTable.placeHistory.fus = { s.fus with tableBase := b, historyRun := h } := by rw [run, base]
  have tableNow : s.placeTable.fus.tableBase = s.fusStart.fus.tableBase := by rw [s.fusStart_eq, State.fusStarted, fus, base]; rfl
  have historyThen : s.placeTable.fus.historyRun = s.fus.historyRun := by rw [base]
  have historyNow : s.placeTable.placeHistory.fus.historyRun = s.fusStart.fus.historyRun := by rw [s.fusStart_eq]; rfl
  refine ⟨(both.mono (more := [.free, .fus, .mem, .fw]) (by decide)).step (State.fusStarted_outside _), ?_, ⟨b, h, ?_⟩,
    fun some => ?_, fun r some old long => ?_, fun kept apart apart' => ?_⟩
  · rw [s.fusStart_eq, State.fusStarted, both.fw]
  · rw [s.fusStart_eq, State.fusStarted, fus]
  · rw [← tableNow, placed some]
  · have still : s.placeTable.placeHistory = s := by rw [placed some, State.placeHistory_of_fit old long]
    rw [s.fusStart_eq, still]
    exact ⟨rfl, old, rfl⟩
  · rw [historyThen, historyNow] at historyMem
    rw [tableNow] at tableMem
    exact ((tableMem kept apart).trans (historyMem kept apart')).trans (.of_eq kept rfl)

theorem State.schedBegin_eq (s : State) (grains : Nat) (fams : Fin 4 → Nat) : ∃ x : Sched,
    s.schedBegin grains fams = (State.fusStart { s with sched := x }).raiseIrq irqState
      ∧ x.state = .running ∧ x.beforeS0 = true ∧ x.nextBoundary = 1000 * ceilDiv (s.dtNs + 2000000) 1000 ∧ x.spanCount = 0
      ∧ x.running = Vector.replicate 4 none ∧ x.slots = s.sched.slots ∧ x.fence = s.sched.fence ∧ x.hostRung = s.sched.hostRung :=
  ⟨_, rfl, rfl, rfl, rfl, rfl, rfl, rfl, rfl, rfl⟩

/-- The first grain 2 ms or more ahead. -/
theorem firstGrain (now : Nat) : 1000 * ceilDiv (now + 2000000) 1000 % 1000 = 0
    ∧ now + 2000000 ≤ 1000 * ceilDiv (now + 2000000) 1000 ∧ 1000 * ceilDiv (now + 2000000) 1000 < now + 2001000 := by
  unfold ceilDiv
  rw [if_neg (by decide)]
  omega

theorem Job.realigned_labels (js : List Job) : (js.map Job.realigned).map (fun j => (j.mbx, j.tag, j.opcode)) =
    js.map fun j => (j.mbx, j.tag, j.opcode) := by
  rw [List.map_map]
  exact List.map_congr_left fun j _ => j.realigned_same

/-! ## SCHED_STOP (R81) -/

/-- Out of a schedule that runs, MOTION_PERMIT is refused. -/
theorem State.permitAll_of_service {s : State} (off : s.permitService = false) : s.permitAll = false := by
  simp [State.permitAll, off]

theorem State.permitService_of_state {s : State} (still : s.sched.state ≠ .running) : s.permitService = false := by
  simp [State.permitService, still]

/-- The record that leaves service has the pin low. -/
theorem State.publishInvalid_motionPermit {s : State} (still : s.sched.state ≠ .running) :
    s.publishInvalid.pins.motionPermit = false := by
  have low : s.permitCheck.permitAll = false :=
    State.permitAll_of_service (State.permitService_of_state (by rwa [s.permitCheck_outside.sched]))
  unfold State.publishInvalid
  exact State.publish_motionPermit low false

theorem State.publishInvalid_mem {s : State} (unread : ∀ i : Fin 8, s.mbx[i].poseSub = none) : s.publishInvalid.mem = s.mem := by
  have checked := s.permitCheck_outside
  unfold State.publishInvalid
  rw [State.publish_mem fun i => by rw [checked.mbx]; exact unread i, checked.mem]

/-- The state as a stop begins, before service is left. -/
def State.stopping (s : State) : State := { s with sched := { s.sched with state := .stopping } }

theorem State.stopping_state (s : State) : s.stopping.sched.state ≠ .running := (nofun : SpanState.stopping ≠ .running)

/-- A stop leaves service, if it was in it. -/
theorem State.beginStop_eq (s : State) : s.beginStop = if s.permitService then s.stopping.publishInvalid else s.stopping := by
  have off : s.stopping.permitService = false := State.permitService_of_state s.stopping_state
  change (if (s.permitService && !s.stopping.permitService) = true then s.stopping.publishInvalid else s.stopping) = _
  rw [off, Bool.not_false, Bool.and_true]

theorem State.beginStop_outside (s : State) :
    s.Outside [.sched, .fus, .pins, .port, .mbx, .evr, .mem] s.beginStop := by
  have stopped : s.Outside [.sched, .fus, .pins, .port, .mbx, .evr, .mem] s.stopping := (Outside.setSched s _).mono (by decide)
  rw [s.beginStop_eq]
  exact .ite (stopped.step (State.publishInvalid_moves _)) stopped

/-- What the begin of a stop changes. -/
theorem State.beginStop_spec (s : State) : s.beginStop.sched = { s.sched with state := .stopping }
    ∧ s.beginStop.pins.motionPermit = (s.pins.motionPermit && !s.permitService)
    ∧ (s.permitService = false → s.beginStop = s.stopping)
    ∧ ((∀ i : Fin 8, s.mbx[i].poseSub = none) → s.beginStop.mem = s.mem) := by
  rw [s.beginStop_eq]
  cases was : s.permitService with
  | false =>
    rw [if_neg Bool.false_ne_true]
    exact ⟨rfl, (Bool.and_true _).symm, fun _ => rfl, fun _ => rfl⟩
  | true =>
    rw [if_pos rfl, Bool.not_true, Bool.and_false]
    exact ⟨(State.publishInvalid_moves _).sched, State.publishInvalid_motionPermit s.stopping_state, nofun,
      fun unread => State.publishInvalid_mem unread⟩

/-! ## SCHED_SELECT and SCHED_UNLOAD (R77, R81) -/

theorem State.applySelect_named {s : State} {p : Fin 4} {r sl : Nat} {k : Fin 64} (slot : k.val = sl) :
    s.applySelect p 1 r sl = { s with sched := { s.sched with
      named := s.sched.named.set p (some k), hostPause := s.sched.hostPause.set p false } } := by
  subst slot
  have found : (if h : k.val < 64 then some (⟨k.val, h⟩ : Fin 64) else none) = some k := dif_pos k.isLt
  exact congrArg (fun x => { s with sched := { s.sched with
    named := s.sched.named.set p x, hostPause := s.sched.hostPause.set p false } }) found

/-- A selection within its ranges passes, whatever its mode, if a mode 1 names a resident image of the partition and the length. -/
theorem State.selectFails_eq_none {s : State} {p : Fin 4} {m r sl : Nat} (mode : m ≤ 2) (rung : r ≤ 5) (slot : sl ≤ 63)
    (scrub : s.sec.grants[p].state ≠ 2) (pause : m = 2 → p ≠ 0) (live : s.sched.state ≠ .stopping)
    (named : m = 1 → ∃ (k : Fin 64) (img : Image), k.val = sl ∧ s.sched.slots[k] = some img ∧ img.partition = p
      ∧ (s.sched.state = .running → img.spanGrains = s.sched.spanGrains.toNat)) : s.selectFails p m r sl = none := by
  have ranges : ¬ (s.sched.state = .stopping ∨ 2 < m ∨ 5 < r ∨ 63 < sl) := by
    simp only [live, false_or]
    omega
  have paused : ¬ (m = 2 ∧ p = 0) := fun h => pause h.1 h.2
  unfold State.selectFails
  dsimp only
  rw [if_neg ranges, if_neg scrub, if_neg paused]
  split
  next one =>
    obtain ⟨k, img, rfl, resident, own, long⟩ := named one
    have found : s.sched.slots[k.val] = some img := resident
    have fit : ¬ (s.sched.state = .running ∧ img.spanGrains ≠ s.sched.spanGrains.toNat) := fun h => h.2 (long h.1)
    simp only [dif_pos k.isLt, found, own, ne_eq, not_true_eq_false, if_false]
    exact if_neg fit
  next => rfl

/-- A pause of partition 0 is refused. -/
theorem State.selectFails_pause {s : State} (r sl : Nat) (scrub : s.sec.grants[(0 : Fin 4)].state ≠ 2) :
    s.selectFails 0 2 r sl = some errArg := by
  unfold State.selectFails
  dsimp only
  rw [if_neg scrub, if_pos (show 2 = 2 ∧ (0 : Fin 4) = 0 from ⟨rfl, rfl⟩)]
  split <;> rfl

theorem State.settlePins_tu (s : State) : { s.settlePins.tu with trigs := s.tu.trigs } = s.tu := by
  unfold State.settlePins
  refine foldl_keeps (fun t : State => ({ t.tu with trigs := s.tu.trigs } : TimeUnit)) _ (fun t n => ?_) (List.finRange 16) s
  split
  · rfl
  · split <;> rfl

/-- The slot of an image is freed, and with it the names of it (R81). -/
theorem State.dropImage_spec {s : State} {k : Fin 64} {img : Image} (resident : s.sched.slots[k] = some img) :
    (s.dropImage k).sched = { s.sched with
        slots := s.sched.slots.set k none
        named := s.sched.named.map fun (x : Option (Fin 64)) => if x = some k then none else x }
      ∧ { (s.dropImage k).tu with trigs := s.tu.trigs } = s.tu
      ∧ (img.objects = [] → s.Outside [.sched, .tu] (s.dropImage k)) := by
  have unpinned : s.Outside [.mt] (img.objects.foldl (fun (s : State) h => s.unpin h (.image k.val)) s) :=
    Outside.foldl _ (fun a h => a.unpin_outside h _) _ _
  unfold State.dropImage
  rw [resident]
  dsimp only
  have bare : img.objects = [] → img.objects.foldl (fun (s : State) h => s.unpin h (.image k.val)) s = s := fun none => by rw [none]; rfl
  generalize img.objects.foldl (fun (s : State) h => s.unpin h (.image k.val)) s = u at unpinned bare ⊢
  refine ⟨?_, ?_, fun none => ?_⟩
  · rw [(State.settlePins_outside _).sched, unpinned.sched]
  · rw [← unpinned.tu]
    exact State.settlePins_tu _
  · rw [bare none]
    exact (Outside.setSched s _).trans (State.settlePins_outside _)

/-- An image that is neither run nor latched, of the caller's partition, is unloaded. -/
theorem State.schedUnload_eq {s : State} {c : SubEntry} {k : Fin 64} {img : Image} (slot : c.p 0 1 = k.val)
    (resident : s.sched.slots[k] = some img) (own : img.partition = s.partOf c) (scrub : s.sec.grants[img.partition].state ≠ 2)
    (unused : s.sched.state = .stopped ∨ ((∀ p : Fin 4, s.sched.running[p] ≠ some k) ∧ ∀ p : Fin 4, s.sched.latchSlot[p] ≠ some k)) :
    State.schedUnload c s = (s.dropImage k).replyOk c := by
  have free : ∀ v : Vector (Option (Fin 64)) 4, (∀ p : Fin 4, v[p] ≠ some k) → (v.any fun x => decide (x = some k)) = false :=
    fun v other => by
      rw [Vector.any_eq_false]
      intro i small
      simpa using other ⟨i, small⟩
  have idle : ¬ (s.sched.state ≠ .stopped ∧ ((s.sched.running.any fun x => decide (x = some k))
      || (s.sched.latchSlot.any fun x => decide (x = some k))) = true) := by
    rintro ⟨runs, used⟩
    obtain stopped | ⟨running, latched⟩ := unused
    · exact runs stopped
    · rw [free _ running, free _ latched] at used
      exact Bool.false_ne_true used
  have here : c.p 0 1 < 64 := slot ▸ k.isLt
  obtain rfl : k = ⟨c.p 0 1, here⟩ := Fin.ext slot.symm
  unfold State.schedUnload
  rw [dif_pos here]
  dsimp only
  rw [resident]
  dsimp only
  rw [if_neg (Classical.not_not.mpr own), if_neg scrub]
  exact if_neg idle

/-! ## What the commands leave alone -/

/-- What SCHED_START changes beside the schedule itself. -/
theorem State.schedBegin_frame (s : State) (grains : Nat) (fams : Fin 4 → Nat) :
    s.Outside [.sched, .fw, .fus, .port, .pins, .mem, .free] (s.schedBegin grains fams) := by
  obtain ⟨x, begun, -⟩ := s.schedBegin_eq grains fams
  have started := (((Outside.setSched s x).mono (more := [.sched, .fw, .fus, .port, .pins, .mem, .free]) (by decide)).step
    (State.fusStart_spec _).1).step (State.raiseIrq_outside _ irqState)
  rw [begun]
  exact started

/-- With the parts that a start changes put back, the state is the one before the command. -/
theorem State.started_restored {s t : State} (moved : s.Outside [.sched, .fw, .fus, .port, .pins, .mem, .free] t) :
    { t with
      sched := s.sched, fw := s.fw, fus := s.fus, port := s.port, pins := s.pins, mem := s.mem, free := s.free } = s :=
  moved.restored (fun p mem => by cases p <;> simp_all) (fun p out => by cases p <;> simp_all)

/-- The claim of SCHED_START, from the schedule that it begins with the command's completion to come (R57, R81, R225, R226). -/
theorem State.schedBegin_spec {s base : State} (waiting : base.Outside [.fw] s) {grains : Nat} {fams : Fin 4 → Nat} {t : State}
    (begun : t = s.schedBegin grains fams) :
    t.sched.state = .running ∧ t.sched.beforeS0 = true
      ∧ t.sched.nextBoundary % 1000 = 0 ∧ s.dtNs + 2000000 ≤ t.sched.nextBoundary
      ∧ t.sched.nextBoundary < s.dtNs + 2001000 ∧ t.sched.spanCount = 0 ∧ t.sched.running = Vector.replicate 4 none
      ∧ t.sched.slots = s.sched.slots ∧ t.sched.fence = s.sched.fence ∧ t.sched.hostRung = s.sched.hostRung
      ∧ t.fw.jobs.map (fun j => (j.mbx, j.tag, j.opcode)) = s.fw.jobs.map (fun j => (j.mbx, j.tag, j.opcode))
      ∧ t.fus.initialised = false ∧ t.fus.seq = 0 ∧ t.fus.params = s.fus.params ∧ t.fus.frameId = s.fus.frameId
      ∧ t.port.irqStatus = s.port.irqStatus ||| irqState
      ∧ (s.fus.tableBase ≠ none → t.fus.tableBase = s.fus.tableBase)
      ∧ (∀ h, s.fus.tableBase ≠ none → s.fus.historyRun = some h → h.2 = historyPages s.fus.params.retroSpans →
          t.mem = s.mem ∧ t.fus.historyRun = some h ∧ t.free = s.free)
      ∧ (memWf s.mem = true → ∀ a, (∀ b, t.fus.tableBase = some b → a < b ∨ b + trackTableBytes ≤ a) →
          (∀ h, s.fus.historyRun = some h ∨ t.fus.historyRun = some h → a < h.1 ∨ h.1 + 65536 * h.2 ≤ a) →
          memRead t.mem a = memRead s.mem a)
      ∧ { t with
          sched := base.sched, fw := base.fw, fus := base.fus, port := base.port, pins := base.pins, mem := base.mem
          free := base.free } = base := by
  have frame := (waiting.mono (more := [.sched, .fw, .fus, .port, .pins, .mem, .free]) (by decide)).step (s.schedBegin_frame grains fams)
  obtain ⟨x, eq, running, s0, boundary, spans, none, slots, fence, rung⟩ := s.schedBegin_eq grains fams
  obtain ⟨grain, far, near⟩ := firstGrain s.dtNs
  rw [← boundary] at grain far near
  obtain ⟨outside, fw, ⟨b, h, fus⟩, table, same, mem⟩ := State.fusStart_spec { s with sched := x }
  have raised : ∀ u : State, u.Outside [.port, .pins] (u.raiseIrq irqState) := fun u =>
    (u.raiseIrq_outside irqState).mono (by decide)
  have port : t.port.irqStatus = s.port.irqStatus ||| irqState := by
    rw [begun, eq, State.raiseIrq_port, outside.port]
  have sched : t.sched = x := by rw [begun, eq, (raised _).sched, outside.sched]
  have jobs : t.fw.jobs = s.fw.jobs.map Job.realigned := by rw [begun, eq, (raised _).fw, fw]
  have engine : t.fus = (State.fusStart { s with sched := x }).fus := by rw [begun, eq, (raised _).fus]
  have memory : t.mem = (State.fusStart { s with sched := x }).mem := by rw [begun, eq, (raised _).mem]
  have draws : t.free = (State.fusStart { s with sched := x }).free := by rw [begun, eq, (raised _).free]
  rw [← begun] at frame
  rw [← engine] at fus table same mem
  rw [← memory, ← draws] at same
  refine ⟨sched ▸ running, sched ▸ s0, sched ▸ grain, sched ▸ far, sched ▸ near, sched ▸ spans, sched ▸ none, sched ▸ slots,
    sched ▸ fence, sched ▸ rung, jobs ▸ Job.realigned_labels _, fus ▸ rfl, fus ▸ rfl, fus ▸ rfl, fus ▸ rfl, port, table, same,
    fun wf a apart apart' => ?_, State.started_restored frame⟩
  obtain ⟨-, read⟩ := mem (fun y => y = a) (fun y at_ => at_ ▸ apart) (fun y at_ => at_ ▸ apart') wf
  rw [memory]
  exact read a rfl

theorem State.schedStop_of_runs {s : State} {c : SubEntry} (runs : s.sched.state ≠ .stopped) :
    State.schedStop c s = (s.addJob c .schedStop).beginStop := by
  unfold State.schedStop
  cases state : s.sched.state with
  | stopped => exact absurd state runs
  | _ => rfl

/-- With the parts that a stop changes put back, the state is the one before the command. -/
theorem State.stopped_restored {s u t : State} (waiting : s.Outside [.fw] u)
    (moved : u.Outside [.sched, .fus, .pins, .port, .mbx, .evr, .mem] t) :
    { t with
      sched := s.sched, fw := s.fw, fus := s.fus, pins := s.pins, port := s.port, mbx := s.mbx, evr := s.evr, mem := s.mem } = s := by
  have both := waiting.trans moved
  clear waiting moved
  exact both.restored (fun p mem => by cases p <;> simp_all) (fun p out => by cases p <;> simp_all)

end Sys2Proof.Machine

open Sys2Proof Sys2Proof.Machine

/-- Settles O16: the tests pass by the hypotheses; the runs of the fusion engine are the only memory that a start touches, and a stop
that leaves service publishes one record. -/
theorem scheduleCommandsAnswer : Obligations.ScheduleCommandsAnswer := by
  intro s e
  refine ⟨fun k ok own sound slot => ?_, fun f ok own fails => ?_,
    fun a b x y ok stopped time low lowRung high highRung length scrub => ?_, fun ok stopped => ?_, fun ok runs => ?_,
    fun p m r sl ok part mode rung slot m2 r5 s63 scrub pause named => ⟨fun state => ?_, fun state => ?_⟩,
    fun c k => ⟨_, rfl, rfl, rfl, rfl, rfl⟩, fun p r sl k slot => ⟨rfl, State.applySelect_named slot, rfl⟩,
    fun ok mode part scrub => ?_, fun k img ok slot resident own scrub unused => ?_⟩
  · rw [exec_of_accepts State.schedLoad rfl ok]
    simp only [State.schedLoad, own, sound, slot, ne_eq, not_true_eq_false, if_false]
  · rw [exec_of_accepts State.schedLoad rfl ok]
    simp [State.schedLoad, own, fails]
  · refine ⟨_, exec_of_accepts State.schedStart rfl ok, ?_⟩
    rw [State.schedStart_of_passes stopped time low lowRung high highRung length scrub]
    exact State.schedBegin_spec (s.addJob_outside _ _) rfl
  · rw [exec_of_accepts State.schedStop rfl ok]
    simp [State.schedStop, stopped]
  · refine ⟨(s.addJob (asSub 0x0203 e) .schedStop).beginStop, ?_, ?_⟩
    · rw [exec_of_accepts State.schedStop rfl ok]
      exact congrArg _ (State.schedStop_of_runs runs)
    · obtain ⟨sched, permit, idle, mem⟩ := (s.addJob (asSub 0x0203 e) .schedStop).beginStop_spec
      have frame := (s.addJob (asSub 0x0203 e) .schedStop).beginStop_outside
      refine ⟨congrArg Sched.state sched, frame.fw, congrArg (fun x : Sched => { x with state := s.sched.state }) sched, permit,
        fun off => ?_, mem, ?_⟩
      · rw [idle off]
        rfl
      · exact State.stopped_restored (s.addJob_outside _ _) frame
  · rw [exec_of_accepts State.schedSelect rfl ok]
    have passes := State.selectFails_eq_none m2 r5 s63 scrub pause (by rw [state]; nofun) named
    unfold State.schedSelect
    simp only [part, mode, rung, slot, passes, state]
    rfl
  · rw [exec_of_accepts State.schedSelect rfl ok]
    have passes := State.selectFails_eq_none m2 r5 s63 scrub pause (by rw [state]; nofun) named
    unfold State.schedSelect
    simp only [part, mode, rung, slot, passes, state]
    rfl
  · rw [exec_of_accepts State.schedSelect rfl ok]
    have fails := State.selectFails_pause (s := s) ((asSub 0x0204 e).p 1 1) ((asSub 0x0204 e).p 2 1) scrub
    unfold State.schedSelect
    simp only [part, mode, fails]
  · obtain ⟨sched, tu, bare⟩ := State.dropImage_spec resident
    have frame := s.dropImage_outside k
    refine ⟨s.dropImage k, ?_, congrArg Sched.slots sched, fun p => ?_, ?_, tu, frame.pins, frame.flags, fun none => ?_⟩
    · rw [exec_of_accepts State.schedUnload rfl ok, State.schedUnload_eq slot resident own scrub unused]
    · rw [sched]
      exact Vector.getElem_map _ _
    · rw [sched]
    · have moved := bare none
      generalize s.dropImage k = t at moved
      exact moved.restored (fun p mem => by cases p <;> simp_all) (fun p out => by cases p <;> simp_all)

end

section
set_option Elab.async false
/-!
PROOFS. The PLACE_ and SCENE_ commands.
-/
namespace Sys2Proof.Machine
open State (Outside)

/-! ## PLACE_CREATE (R275, R279) -/

/-- The new index with its handle and its run. -/
def PsIndex.opened (ix : PsIndex) (h : Nat) (base : Option Nat) : PsIndex := { ix with handle := h, dramBase := base }

/-- The index put into its place. -/
def State.indexPut (s : State) (i : Fin 16) (ix : PsIndex) : State :=
  { s with ps := { s.ps with indexes := s.ps.indexes.set i (some ix) } }

/-- The tests of PLACE_CREATE before its run is looked for. -/
def State.CreatePasses (s : State) (c : SubEntry) (ix : PsIndex) (i : Fin 16) : Prop :=
  s.objFails c (c.p 0 4) = none ∧ handleType (c.p 0 4) = 0x09 ∧ ix.tables.length = 512 * ix.dim + 131072 * ix.codeBytes
    ∧ ix.inRange (c.p 15 1) = true ∧ ix.dramPages ≤ s.poolFree ix.part false
    ∧ s.nsUsed ix.part + ix.flashBytes * (if ix.mirror then 2 else 1) ≤ s.sec.grants[ix.part].flashBytes
    ∧ ((s.ps.indexes.toList.filterMap id).filter fun x => decide (x.part = ix.part)).length < 4
    ∧ ((List.finRange 16).find? fun k => s.ps.indexes[k].isNone) = some i

/-- A creation that passes its tests: with no run found it ends, and with one, or none needed, the index is put into its place. -/
theorem State.placeCreate_of_passes {s : State} {c : SubEntry} {i : Fin 16} {ix : PsIndex}
    (asked : ix = c.newIndex (s.partOf c) 0 (s.objBytes (c.p 0 4))) (passes : s.CreatePasses c ix i) :
    (ix.dramPages = 0 → ∃ n, State.placeCreate c s =
        ({ s with free := s.free + 1 }.indexPut i (ix.opened (handleOf ix.part 0x10 n) none)).reply c stOk (handleOf ix.part 0x10 n) 0 0 0)
    ∧ (∀ base, ix.dramPages ≠ 0 → (s.freeRun ix.part 0 ix.dramPages).1 = some base → ∃ n, State.placeCreate c s =
        ((State.fillRun { s with free := s.free + 2 } base (65536 * ix.dramPages) []).indexPut i
          (ix.opened (handleOf ix.part 0x10 n) (some base))).reply c stOk (handleOf ix.part 0x10 n) 0 0 0)
    ∧ (ix.dramPages ≠ 0 → (s.freeRun ix.part 0 ix.dramPages).1 = none →
        State.placeCreate c s = State.replyErr { s with free := s.free + 1 } c errNoResource) := by
  obtain ⟨sound, type, tables, range, pool, flash, few, slot⟩ := passes
  have part : ix.part = s.partOf c := by rw [asked]; rfl
  simp only [part] at pool flash few ⊢
  have good : ¬ (handleType (c.p 0 4) ≠ 0x09 ∨ ix.tables.length ≠ 512 * ix.dim + 131072 * ix.codeBytes ∨ (!ix.inRange (c.p 15 1)) = true) := by
    simp [type, tables, range]
  have room : ¬ (s.poolFree (s.partOf c) false < ix.dramPages
      ∨ s.sec.grants[s.partOf c].flashBytes < s.nsUsed (s.partOf c) + ix.flashBytes * (if ix.mirror then 2 else 1)
      ∨ 4 ≤ ((s.ps.indexes.toList.filterMap id).filter fun x => decide (x.part = s.partOf c)).length) := by
    rintro (low | low | many)
    · exact Nat.not_lt.mpr pool low
    · exact Nat.not_lt.mpr flash low
    · exact Nat.not_lt.mpr many few
  obtain ⟨find, isFind, draws⟩ := State.freeRun_drawn
  have drawn := draws s (s.partOf c) 0 ix.dramPages
  unfold State.placeCreate
  rw [isFind]
  dsimp only
  rw [← asked, sound]
  dsimp only
  rw [if_neg good, if_neg room, slot]
  dsimp only
  generalize find s (s.partOf c) 0 ix.dramPages = r at drawn ⊢
  obtain ⟨run, t⟩ := r
  dsimp only at drawn ⊢
  subst drawn
  refine ⟨fun none => ?_, fun base some found => ?_, fun some full => ?_⟩
  · simp only [none, if_true, ne_eq, not_true_eq_false, false_and, if_false]
    exact ⟨_, rfl⟩
  · subst found
    simp only [some, if_false, ne_eq, not_false_eq_true, Option.isNone_some, Bool.false_eq_true, and_false]
    exact ⟨_, rfl⟩
  · subst full
    simp only [some, if_false, ne_eq, not_false_eq_true, true_and, Option.isNone_none, if_true]

/-! ## Queries (R285, R287) -/

/-- A finite vector, a descriptor in its ranges and room for the results make a query that waits. -/
theorem State.submitQuery_waits {s : State} {c : SubEntry} {desc vec : List Byte} {out : Nat} {ix : PsIndex} (lastSeen : Bool)
    (found : s.indexFor c (fieldAt desc 0 4) false = .ok ix) (range : queryInRange desc = true) (long : 2 * ix.dim ≤ vec.length)
    (room : out + 32 + 32 * fieldAt desc 4 2 ≤ c.entry.bulkLength.toNat)
    (finite : ∀ v ∈ halves (vec.take (2 * ix.dim)), fp16.finite v = true) :
    ∃ q : PsQuery, s.submitQuery c desc vec out lastSeen none = State.takeBatch (State.addJob
        { s with ps := { s.ps with nextQuery := s.ps.nextQuery + 1, queries := s.ps.queries ++ [q] } } c (.placeQuery s.ps.nextQuery))
      ∧ q.num = s.ps.nextQuery ∧ q.desc = desc ∧ q.submitDt = s.dtNs ∧ q.vec = vec.take (2 * ix.dim)
      ∧ q.outOffset = c.entry.bulkOffset.toNat + out ∧ q.taken = none := by
  have sound : (decide (vec.length < 2 * ix.dim) || (halves (vec.take (2 * ix.dim))).any fun v => !fp16.finite v) = false := by
    rw [decide_eq_false (Nat.not_lt.mpr long), Bool.false_or, List.any_eq_false]
    exact fun v mem => by simp [finite v mem]
  have passes : ¬ ((!queryInRange desc) = true ∨ c.entry.bulkLength.toNat < out + 32 + 32 * fieldAt desc 4 2
      ∨ ((none : Option Nat).isNone && (decide (vec.length < 2 * ix.dim)
        || (halves (vec.take (2 * ix.dim))).any fun v => !fp16.finite v)) = true) := by
    rw [sound, range]
    simpa using room
  unfold State.submitQuery
  rw [found]
  dsimp only
  rw [if_neg passes]
  exact ⟨_, rfl, rfl, rfl, rfl, rfl, rfl, rfl⟩

/-! ## Inserts and deletes (R288, R290) -/

/-- The records of an insert in their ranges join the queue. -/
theorem State.placeInsert_of_room {s : State} {c : SubEntry} {ix : PsIndex} (found : s.indexFor c (c.p 0 4) false = .ok ix)
    (some : 1 ≤ c.p 4 2) (few : c.p 4 2 ≤ 1024) (long : c.p 4 2 * ((32 + 2 * ix.dim + 63) / 64 * 64) ≤ c.entry.bulkLength.toNat)
    (kinds : ∀ r ∈ itemsOf (s.bulkIn c) ((32 + 2 * ix.dim + 63) / 64 * 64) (c.p 4 2), fieldAt r 18 1 ≤ 7)
    (room : ix.queue.length + c.p 4 2 ≤ 65536) :
    State.placeInsert c s = (s.addJob c (.placeInsert ix.handle (c.p 4 2) 0 (c.p 4 2))).updIndex ix.handle fun i => { i with
      queue := i.queue ++ (itemsOf (s.bulkIn c) ((32 + 2 * ix.dim + 63) / 64 * 64) (c.p 4 2)).map
        (insertOf ix.dim (.some (c.entry.mbx, c.entry.tag))) } := by
  have kindsOk : ((itemsOf (s.bulkIn c) ((32 + 2 * ix.dim + 63) / 64 * 64) (c.p 4 2)).any fun r => decide (7 < fieldAt r 18 1)) = false :=
    List.any_eq_false.mpr fun r mem => by simpa using kinds r mem
  have passes : ¬ ((!within (c.p 4 2) 1 1024) = true ∨ c.entry.bulkLength.toNat < c.p 4 2 * ((32 + 2 * ix.dim + 63) / 64 * 64)
      ∨ ((itemsOf (s.bulkIn c) ((32 + 2 * ix.dim + 63) / 64 * 64) (c.p 4 2)).any fun r => decide (7 < fieldAt r 18 1)) = true) := by
    rw [kindsOk]
    simp [within, some, few, Nat.not_lt.mpr long]
  unfold State.placeInsert
  rw [found]
  dsimp only
  rw [if_neg passes, if_neg (Nat.not_lt.mpr room)]

theorem State.updBlock_outside (s : State) (die block : Nat) (f : FlashBlock → FlashBlock) : s.Outside [.mt] (s.updBlock die block f) := by
  unfold State.updBlock
  exact (Outside.ite (.refl s _) (.setMt s _)).step (.setMt _ _)

/-- Reading the location table counts in the flash and changes nothing else. -/
theorem State.readLocation_outside (s : State) (ix : PsIndex) (id : Nat) : s.Outside [.mt] (s.readLocation ix id) := by
  unfold State.readLocation
  split
  · exact .refl s _
  · exact Outside.foldl _ (fun t x => t.updBlock_outside _ _ _) _ s

/-- A vector of the index that is not deleted gets a tombstone. -/
theorem State.placeDelete_of_known {s : State} {c : SubEntry} {ix : PsIndex} (found : s.indexFor c (c.p 0 4) false = .ok ix)
    (known : (∃ r ∈ ix.dram, r.id = c.p 8 8 ∧ r.reclaimed = false) ∨ ∃ r ∈ ix.flash, r.id = c.p 8 8)
    (live : ∀ t ∈ ix.tombs, t.1 ≠ c.p 8 8) (room : (ix.tombs.filter fun t => decide (ix.epoch < t.2)).length < 65536) :
    State.placeDelete c s = ((s.readLocation ix (c.p 8 8)).addJob c (.placeDelete ix.handle (c.p 8 8))).updIndex ix.handle fun i =>
      { i with tombs := i.tombs ++ [(c.p 8 8, i.epoch + 1)], changed := true } := by
  have there : ((ix.dram.any fun r => decide (r.id = c.p 8 8) && !r.reclaimed) || ix.flash.any fun r => decide (r.id = c.p 8 8)) = true := by
    simpa using known
  have fresh : (ix.tombs.any fun t => decide (t.1 = c.p 8 8)) = false := List.any_eq_false.mpr fun t mem => by simpa using live t mem
  unfold State.placeDelete
  rw [found]
  dsimp only
  rw [there, fresh, if_neg (by simp), if_neg (Nat.not_le.mpr room)]

/-! ## Similar scenes (R358) -/

/-- `QUEUE_L` and `BEAM` as a similarity query draws them. -/
theorem State.sceneResemble_eq (s : State) (c : SubEntry) : ∃ l b, c.p 6 2 ≤ l ∧ 16 ≤ l ∧ 1 ≤ b ∧ b ≤ 8 ∧
    (c.p 4 1 = 1 → State.sceneResemble c s = State.submitQuery { s with free := s.free + 2 } c
      (buildDesc (c.p 0 4) (c.p 6 2) l b (c.p 8 1) 0 (c.p 12 4) 0 1) (s.bulkIn c) (c.p 16 4) false none) ∧
    (c.p 4 1 = 0 → State.sceneResemble c s = State.submitQuery { s with free := s.free + 2 } c
      (buildDesc (c.p 0 4) (c.p 6 2) l b (c.p 8 1) 0 (c.p 12 4) 0 1) [] (c.p 16 4) false (some (c.p 5 1))) := by
  refine ⟨max (c.p 6 2) (16 + Config.freeNat s.free % 1009), Config.freeNat (s.free + 1) % 8 + 1, Nat.le_max_left _ _,
    Nat.le_trans (Nat.le_add_right 16 _) (Nat.le_max_right _ _), Nat.le_add_left 1 _, Nat.mod_lt _ (by decide), fun source => ?_,
    fun source => ?_⟩
  · unfold State.sceneResemble State.drawBelow
    dsimp only
    rw [source]
    rfl
  · unfold State.sceneResemble State.drawBelow
    dsimp only
    rw [source]
    rfl

end Sys2Proof.Machine

open Sys2Proof Sys2Proof.Machine

/-- Settles O11: each command's tests pass by the hypotheses. -/
theorem placeCommandsAnswer : Obligations.PlaceCommandsAnswer := by
  intro s e
  refine ⟨fun i ix ok pool asked sound type tables range flash few slot => ?_, fun ix ok found range long room finite => ?_,
    fun ix ok found some few long kinds room => ?_, fun ix ok found known live room => ⟨?_, ?_⟩, fun ix ok found full => ?_,
    fun ix ok found room => ?_, fun ix ok found => ?_, fun ok => ?_, fun ok source => ?_, fun ok source => ?_⟩
  · obtain ⟨bare, placed, full⟩ := State.placeCreate_of_passes asked ⟨sound, type, tables, range, pool, flash, few, slot⟩
    rw [exec_of_accepts State.placeCreate rfl ok]
    refine ⟨fun none => ?_, fun base some run => ?_, fun some run => ?_⟩
    · obtain ⟨n, made⟩ := bare none
      have noRun : ix.dramBase = Option.none := by rw [asked]; rfl
      rw [made]
      exact ⟨_, congrArg (fun x => Host.Outcome.next (State.reply (State.indexPut _ i x) _ _ _ _ _ _)) (by rw [PsIndex.opened, ← noRun]),
        handleOf_type _ _ _ (by decide), handleOf_part _ _ _ (by decide)⟩
    · obtain ⟨n, made⟩ := placed base some run
      rw [made]
      exact ⟨_, _, rfl, handleOf_type _ _ _ (by decide), handleOf_part _ _ _ (by decide), rfl, rfl, rfl⟩
    · rw [full some run]
      exact ⟨_, rfl, rfl⟩
  · rw [exec_of_accepts State.placeQuery rfl ok]
    obtain ⟨q, waits, facts⟩ := State.submitQuery_waits false found range long room finite
    exact ⟨q, congrArg _ waits, facts⟩
  · rw [exec_of_accepts State.placeInsert rfl ok, State.placeInsert_of_room found some few long kinds room]
  · rw [exec_of_accepts State.placeDelete rfl ok, State.placeDelete_of_known found known live room]
  · have read := s.readLocation_outside ix ((asSub 0x0804 e).p 8 8)
    generalize s.readLocation ix ((asSub 0x0804 e).p 8 8) = t at read
    exact read.restored (fun p mem => by cases p <;> simp_all) (fun p out => by cases p <;> simp_all)
  · rw [exec_of_accepts State.placeCompact rfl ok]
    simp only [State.placeCompact, found, full, if_true]
  · rw [exec_of_accepts State.placeCompact rfl ok]
    simp only [State.placeCompact, found, Nat.not_lt.mpr room, if_false]
  · rw [exec_of_accepts State.placeDestroy rfl ok]
    simp only [State.placeDestroy, found]
  · exact exec_of_accepts State.sceneLastSeen rfl ok
  · obtain ⟨l, b, least, queue, low, high, vector, -⟩ := s.sceneResemble_eq (asSub 0x0902 e)
    exact ⟨l, b, least, queue, low, high, (exec_of_accepts State.sceneResemble rfl ok).trans (congrArg _ (vector source))⟩
  · obtain ⟨l, b, least, queue, low, high, -, keyframe⟩ := s.sceneResemble_eq (asSub 0x0902 e)
    exact ⟨l, b, least, queue, low, high, (exec_of_accepts State.sceneResemble rfl ok).trans (congrArg _ (keyframe source))⟩

end

section
set_option Elab.async false
/-!
PROOFS. Camera frames open, fill and close units.
-/
namespace Sys2Proof.Machine
open State (Outside)

/-! ## Flags as a table -/

/-- A key set in a table reads its value, and every other key what it read. -/
theorem mapGet_mapSet_eq {α : Type} (m : List (Nat × α)) (a c : Nat) (b : α) :
    mapGet (mapSet m a b) c = if c = a then some b else mapGet m c := by
  by_cases same : c = a
  · rw [if_pos same, same, mapGet_mapSet]
  rw [if_neg same]
  have apart : ¬ a = c := fun e => same e.symm
  induction m with
  | nil => simp [mapSet, mapGet, apart]
  | cons kv m ih =>
    obtain ⟨k, v⟩ := kv
    by_cases found : k = a
    · subst found
      simp [mapSet, mapGet, apart]
    · by_cases before : a < k
      · have later : c < a → ¬ k = c ∧ c < k := fun lt => ⟨by omega, by omega⟩
        by_cases low : c < a
        · simp [mapSet, mapGet, found, before, apart, low, later low]
        · simp [mapSet, mapGet, found, before, apart, low]
      · simp only [mapSet, found, before, if_false, mapGet, ih]

theorem State.setFlag_flag_eq (s : State) (n f : Nat) : (s.setFlag n).flag f = if f = n then some .set else s.flag f :=
  mapGet_mapSet_eq _ _ _ _

/-- Every flag of a list that is set reads SET. -/
theorem State.setFlags_flag (fs : List Nat) (s : State) (f : Nat) :
    (fs.foldl (fun (s : State) f => s.setFlag f) s).flag f = if f ∈ fs then some .set else s.flag f := by
  induction fs generalizing s with
  | nil => simp
  | cons n fs ih =>
    rw [List.foldl_cons, ih, State.setFlag_flag_eq]
    by_cases later : f ∈ fs
    · simp [later]
    · simp [later]

/-! ## One channel, one slot -/

theorem State.updChan_chans_self (s : State) (ch : Fin 32) (f : Channel → Channel) :
    (s.updChan ch f).sm.chans[ch] = f s.sm.chans[ch] := by
  simp [State.updChan]

theorem State.updChan_chans_ne (s : State) {ch c : Fin 32} (other : c ≠ ch) (f : Channel → Channel) :
    (s.updChan ch f).sm.chans[c] = s.sm.chans[c] := by
  have apart : ch.val ≠ c.val := fun e => other (Fin.ext e.symm)
  simp [State.updChan, Vector.getElem_set_ne, apart]

theorem Channel.slot_onSlot {c : Channel} {i : Nat} (inside : i < c.slots.length) (f : Slot → Slot) :
    (c.onSlot i f).slot i = f (c.slot i) := by
  simp [Channel.onSlot, Channel.slot, slotsAt, List.getD, inside]

theorem Channel.onSlot_length (c : Channel) (i : Nat) (f : Slot → Slot) : (c.onSlot i f).slots.length = c.slots.length := by
  simp [Channel.onSlot, slotsAt]

/-- Between two states only channel `ch` of the stream manager may differ. -/
def State.OnlyChan (s : State) (ch : Fin 32) (t : State) : Prop := ∀ c, c ≠ ch → t.sm.chans[c] = s.sm.chans[c]

theorem State.OnlyChan.of_sm {s t : State} (ch : Fin 32) (same : t.sm = s.sm) : s.OnlyChan ch t := fun c _ => by rw [same]

theorem State.OnlyChan.trans {s t u : State} {ch : Fin 32} (first : s.OnlyChan ch t) (next : t.OnlyChan ch u) : s.OnlyChan ch u :=
  fun c other => (next c other).trans (first c other)

theorem State.updChan_only (s : State) (ch : Fin 32) (f : Channel → Channel) : s.OnlyChan ch (s.updChan ch f) :=
  fun _ other => s.updChan_chans_ne other f

/-- With the stream manager and memory put back, the state is the one before. -/
theorem State.Outside.besideSm {s t : State} (moved : s.Outside [.sm, .mem] t) : { t with sm := s.sm, mem := s.mem } = s :=
  moved.restored (fun p mem => by cases p <;> simp_all) (fun p out => by cases p <;> simp_all)

/-- The same where flags moved too. -/
theorem State.Outside.besideUnits {s t : State} (moved : s.Outside [.sm, .mem, .flags] t) :
    { t with sm := s.sm, mem := s.mem, flags := s.flags } = s :=
  moved.restored (fun p mem => by cases p <;> simp_all) (fun p out => by cases p <;> simp_all)

/-! ## Headers and flag groups -/

theorem State.writePool_mem_of_eq {s t : State} (same : t.mem = s.mem) (a : Nat) (bs : List Byte) :
    (t.writePool a bs).mem = (s.writePool a bs).mem := State.writeMem_mem_of_eq same _ _

/-- The header of a slot goes to the slot's start. -/
theorem State.writeHeader_mem {s t : State} (same : t.mem = s.mem) (ch : Fin 32) (i : Nat) : (t.writeHeader ch i).mem =
    (s.writePool (dSlotBase (t.sm.chans[ch].slot i).desc i) (t.sm.chans[ch].slot i).header).mem :=
  State.writePool_mem_of_eq same _ _

theorem State.setFlags_sm (fs : List Nat) (s : State) : (fs.foldl (fun (s : State) f => s.setFlag f) s).sm = s.sm :=
  foldl_keeps State.sm (fun (s : State) f => s.setFlag f) (fun _ _ => rfl) fs s

theorem State.setGroups_chan (s : State) (ch : Fin 32) (i : Nat) (fs : List Nat) : ∃ new : List Nat,
    (s.setGroups ch i fs).sm.chans[ch] = s.sm.chans[ch].onSlot i fun u => { u with groupsSet := u.groupsSet ++ new } := by
  refine ⟨fs.filter fun f => decide (f ∉ (s.sm.chans[ch].slot i).groupsSet), ?_⟩
  unfold State.setGroups
  dsimp only
  rw [State.updChan_chans_self, State.setFlags_sm]

theorem State.setGroups_only (s : State) (ch : Fin 32) (i : Nat) (fs : List Nat) : s.OnlyChan ch (s.setGroups ch i fs) := by
  unfold State.setGroups
  exact (State.OnlyChan.of_sm ch (State.setFlags_sm _ s)).trans (State.updChan_only _ _ _)

/-- A flag of the groups that was not set before is SET. -/
theorem State.setGroups_flag {s : State} {ch : Fin 32} {i f : Nat} {fs : List Nat} (mem : f ∈ fs)
    (fresh : f ∉ (s.sm.chans[ch].slot i).groupsSet) : (s.setGroups ch i fs).flag f = some .set := by
  have new : f ∈ fs.filter fun f => decide (f ∉ (s.sm.chans[ch].slot i).groupsSet) :=
    List.mem_filter.mpr ⟨mem, decide_eq_true fresh⟩
  exact (State.setFlags_flag _ s f).trans (if_pos new)

/-! ## A unit opened (R91, R99) -/

/-- The slot of a unit that opens. -/
def openedSlot (c : Channel) (d : List Byte) (exposure exposureDt firstDt : Nat) : Slot :=
  { Slot.empty with
    state := .opened, desc := d, exposure := exposure, exposureDt := exposureDt, firstDt := firstDt, lastDt := firstDt
    seq := c.seqNext, gen := if dFlagCount d = 0 then 0 else exposure % (2 * dSlots d) }

/-- The channel whose slot opens. -/
def openedChannel (c : Channel) (d : List Byte) (i exposure exposureDt firstDt : Nat) : Channel :=
  ({ (c.onSlot i fun _ => openedSlot c d exposure exposureDt firstDt) with seqNext := c.seqNext + 1 }).notePeak

theorem State.openSlot_eq (s : State) (ch : Fin 32) (d : List Byte) (i exposure exposureDt firstDt : Nat) :
    s.openSlot ch d i exposure exposureDt firstDt =
      State.writeHeader (s.updChan ch fun c => openedChannel c d i exposure exposureDt firstDt) ch i := rfl

theorem openedChannel_slot {c : Channel} {i : Nat} (inside : i < c.slots.length) (d : List Byte) (exposure exposureDt firstDt : Nat) :
    (openedChannel c d i exposure exposureDt firstDt).slot i = openedSlot c d exposure exposureDt firstDt :=
  Channel.slot_onSlot inside _

theorem Channel.freeIdx_lt {c : Channel} {i : Nat} (free : c.freeIdx = some i) : i < c.slots.length :=
  (List.findIdx?_eq_some_iff_getElem.mp free).1

theorem Channel.openIdx_opened {c : Channel} {i : Nat} (found : c.openIdx = some i) :
    i < c.slots.length ∧ (c.slot i).state = .opened := by
  obtain ⟨inside, opened, -⟩ := List.findIdx?_eq_some_iff_getElem.mp found
  refine ⟨inside, ?_⟩
  simpa [Channel.slot, List.getD, inside] using opened

/-- A frame that starts with none open on a channel with a free slot (R99). -/
theorem State.frameStart_free {s : State} {ch : Fin 32} {d : List Byte} {i : Nat} (closed : s.sm.chans[ch].frame = none)
    (plain : dTriggered d = false) (free : s.sm.chans[ch].freeIdx = some i) :
    s.frameStart ch d = (s.openSlot ch d i 0 0 (stampOf d s.dtNs)).updChan ch fun c => { c with frame := some i } := by
  unfold State.frameStart State.endFrame State.anySlot
  simp only [closed, plain, free, Bool.false_eq_true, if_false]

theorem State.writeHeader_sm (s : State) (ch : Fin 32) (i : Nat) : (s.writeHeader ch i).sm = s.sm := (s.writeHeader_outside ch i).sm

/-- The channel as the start of a frame leaves it. -/
theorem State.frameStart_free_spec {s : State} {ch : Fin 32} {d : List Byte} {i : Nat} (closed : s.sm.chans[ch].frame = none)
    (plain : dTriggered d = false) (free : s.sm.chans[ch].freeIdx = some i) :
    (s.frameStart ch d).sm.chans[ch] =
        { openedChannel s.sm.chans[ch] d i 0 0 (stampOf d s.dtNs) with frame := some i }
      ∧ (s.frameStart ch d).mem =
        (s.writePool (dSlotBase d i) (openedSlot s.sm.chans[ch] d 0 0 (stampOf d s.dtNs)).header).mem
      ∧ s.OnlyChan ch (s.frameStart ch d) ∧ s.Outside [.sm, .mem] (s.frameStart ch d) := by
  rw [State.frameStart_free closed plain free, State.openSlot_eq]
  refine ⟨?_, ?_, ?_, ?_⟩
  · rw [State.updChan_chans_self, State.writeHeader_sm, State.updChan_chans_self]
  · rw [State.updChan_mem, State.writeHeader_mem (s.updChan_mem ch _), State.updChan_chans_self,
      openedChannel_slot (Channel.freeIdx_lt free)]
    rfl
  · exact ((s.updChan_only ch _).trans (.of_sm ch (State.writeHeader_sm _ _ _))).trans (State.updChan_only _ _ _)
  · exact (((s.updChan_outside ch _).mono (by decide)).step (State.writeHeader_outside _ _ _)).step (State.updChan_outside _ _ _)

/-! ## Triggered frames (R99) -/

/-- The waiting unit takes the frame's stamps. -/
def Slot.started (u : Slot) (now : Nat) : Slot := { u with firstDt := stampOf u.desc now, lastDt := stampOf u.desc now }

/-- The channel whose waiting unit takes a frame with a stamp. -/
def Channel.frameTaken (c : Channel) (i stamp : Nat) : Channel :=
  { (c.onSlot i fun u => { u with firstDt := stamp, lastDt := stamp }) with expect := none, frame := some i }

theorem Channel.frameTaken_slot {c : Channel} {i : Nat} (inside : i < c.slots.length) (now : Nat) :
    (c.frameTaken i (stampOf (c.slot i).desc now)).slot i = (c.slot i).started now := Channel.slot_onSlot inside _

theorem State.frameStart_expected {s : State} {ch : Fin 32} {d : List Byte} {i k : Nat} (closed : s.sm.chans[ch].frame = none)
    (triggered : dTriggered d = true) (waits : s.sm.chans[ch].expect = some (k, some i)) :
    s.frameStart ch d =
      State.writeHeader (s.updChan ch fun c => c.frameTaken i (stampOf (s.sm.chans[ch].slot i).desc s.dtNs)) ch i := by
  unfold State.frameStart State.endFrame
  simp only [closed, triggered, waits, if_true, Channel.frameTaken]

theorem State.frameStart_expected_spec {s : State} {ch : Fin 32} {d : List Byte} {i k : Nat} (closed : s.sm.chans[ch].frame = none)
    (triggered : dTriggered d = true) (waits : s.sm.chans[ch].expect = some (k, some i)) (inside : i < s.sm.chans[ch].slots.length) :
    (s.frameStart ch d).sm.chans[ch].frame = some i ∧ (s.frameStart ch d).sm.chans[ch].expect = none
      ∧ (s.frameStart ch d).sm.chans[ch].slot i = (s.sm.chans[ch].slot i).started s.dtNs
      ∧ (s.frameStart ch d).mem = (s.writePool (dSlotBase (s.sm.chans[ch].slot i).desc i)
          ((s.sm.chans[ch].slot i).started s.dtNs).header).mem
      ∧ s.OnlyChan ch (s.frameStart ch d) ∧ s.Outside [.sm, .mem] (s.frameStart ch d) := by
  rw [State.frameStart_expected closed triggered waits, State.writeHeader_sm, State.updChan_chans_self]
  refine ⟨rfl, rfl, Channel.frameTaken_slot inside _, ?_, ?_, ?_⟩
  · rw [State.writeHeader_mem (s.updChan_mem ch _), State.updChan_chans_self, Channel.frameTaken_slot inside]
    rfl
  · exact (s.updChan_only ch _).trans (.of_sm ch (State.writeHeader_sm _ _ _))
  · exact ((s.updChan_outside ch _).mono (by decide)).step (State.writeHeader_outside _ _ _)

theorem State.frameStart_unexpected {s : State} {ch : Fin 32} {d : List Byte} (closed : s.sm.chans[ch].frame = none)
    (triggered : dTriggered d = true) (quiet : s.sm.chans[ch].expect = none) :
    s.frameStart ch d = (s.countDrop ch true false).event 0x02 0x0204 ch.val (stampOf d s.dtNs % 2 ^ 32) 0 := by
  unfold State.frameStart State.endFrame
  simp only [closed, triggered, quiet, if_true]

/-! ## Lines (R94, R102) -/

/-- The slot with a line more. -/
def Slot.lined (u : Slot) (status : Half) (bytes : Nat) : Slot :=
  { u with status := u.status ||| status, count := u.count + 1, bytes := max u.bytes bytes }

/-- A clean line within the frame's height. -/
theorem State.frameLine_clean {s : State} {ch : Fin 32} {i : Nat} (data : List Byte)
    (early : (s.sm.chans[ch].slot i).count < dHeight (s.sm.chans[ch].slot i).desc) : ∃ bytes,
    s.frameLine ch i data false =
      State.progress ((s.writePool (dSlotBase (s.sm.chans[ch].slot i).desc i + 64
        + (s.sm.chans[ch].slot i).count * dStride (s.sm.chans[ch].slot i).desc)
          (storedLine (s.sm.chans[ch].slot i).desc data).1).updChan ch fun c => c.onSlot i fun u =>
            u.lined (if (storedLine (s.sm.chans[ch].slot i).desc data).2 then 2 else 0) bytes) ch i := by
  refine ⟨(s.sm.chans[ch].slot i).count * dStride (s.sm.chans[ch].slot i).desc
    + (storedLine (s.sm.chans[ch].slot i).desc data).1.length, ?_⟩
  have clean : ∀ x : Half, x ||| 0 = x := fun _ => BitVec.or_zero
  unfold State.frameLine
  simp only [decide_eq_false (Nat.not_le.mpr early), Bool.or_false, Bool.false_eq_true, if_false, Slot.lined, clean]

/-- The header that `progress` writes is that of the slot it leaves: it does not hold the groups that are set. -/
theorem State.progress_spec {s : State} {ch : Fin 32} {i : Nat} (inside : i < s.sm.chans[ch].slots.length) : ∃ groups : List Nat,
    (s.progress ch i).sm.chans[ch] = s.sm.chans[ch].onSlot i (fun u => { u with groupsSet := u.groupsSet ++ groups })
      ∧ (s.progress ch i).mem = (s.writePool (dSlotBase (s.sm.chans[ch].slot i).desc i) ((s.progress ch i).sm.chans[ch].slot i).header).mem
      ∧ s.OnlyChan ch (s.progress ch i) ∧ s.Outside [.sm, .mem, .flags] (s.progress ch i) := by
  have outside := (s.progress_outside ch i).mono (more := [.sm, .mem, .flags]) (by decide)
  unfold State.progress at outside ⊢
  dsimp only at outside ⊢
  generalize (((unitFlags ((s.writeHeader ch i).sm.chans[ch].slot i)).zipIdx.filter fun f =>
    ((s.writeHeader ch i).sm.chans[ch].slot i).groupWritten f.2).map (·.1)) = fs at outside ⊢
  obtain ⟨groups, chan⟩ := State.setGroups_chan (s.writeHeader ch i) ch i fs
  rw [State.writeHeader_sm] at chan
  refine ⟨groups, chan, ?_, (State.OnlyChan.of_sm ch (s.writeHeader_sm ch i)).trans (State.setGroups_only _ ch i fs), outside⟩
  have slot := Channel.slot_onSlot inside fun u => { u with groupsSet := u.groupsSet ++ groups }
  rw [(State.setGroups_outside _ ch i fs).mem, chan, slot, State.writeHeader_mem rfl]
  rfl

/-- The slot, the counts and the memory after a clean line. -/
theorem State.frameLine_spec {s : State} {ch : Fin 32} {i : Nat} (data : List Byte) (inside : i < s.sm.chans[ch].slots.length)
    (early : (s.sm.chans[ch].slot i).count < dHeight (s.sm.chans[ch].slot i).desc) : ∃ (bytes : Nat) (groups : List Nat),
    (s.frameLine ch i data false).sm.chans[ch].slot i =
        { (s.sm.chans[ch].slot i).lined (if (storedLine (s.sm.chans[ch].slot i).desc data).2 then 2 else 0) bytes with
          groupsSet := (s.sm.chans[ch].slot i).groupsSet ++ groups }
      ∧ (s.frameLine ch i data false).sm.chans[ch].counts = s.sm.chans[ch].counts
      ∧ (s.frameLine ch i data false).mem = ((s.writePool (dSlotBase (s.sm.chans[ch].slot i).desc i + 64
          + (s.sm.chans[ch].slot i).count * dStride (s.sm.chans[ch].slot i).desc)
            (storedLine (s.sm.chans[ch].slot i).desc data).1).writePool (dSlotBase (s.sm.chans[ch].slot i).desc i)
              ((s.frameLine ch i data false).sm.chans[ch].slot i).header).mem
      ∧ s.OnlyChan ch (s.frameLine ch i data false) ∧ s.Outside [.sm, .mem, .flags] (s.frameLine ch i data false) := by
  obtain ⟨bytes, eq⟩ := State.frameLine_clean data early
  rw [eq]
  have stored := s.writeMem_outside (poolBase + (dSlotBase (s.sm.chans[ch].slot i).desc i + 64
    + (s.sm.chans[ch].slot i).count * dStride (s.sm.chans[ch].slot i).desc)) (storedLine (s.sm.chans[ch].slot i).desc data).1
  unfold State.writePool at *
  generalize s.writeMem (poolBase + (dSlotBase (s.sm.chans[ch].slot i).desc i + 64
    + (s.sm.chans[ch].slot i).count * dStride (s.sm.chans[ch].slot i).desc)) (storedLine (s.sm.chans[ch].slot i).desc data).1 = v
    at stored ⊢
  generalize (if (storedLine (s.sm.chans[ch].slot i).desc data).2 = true then (2 : Half) else 0) = status
  have chan : (v.updChan ch fun c => c.onSlot i fun u => u.lined status bytes).sm.chans[ch] =
      s.sm.chans[ch].onSlot i fun u => u.lined status bytes := by
    rw [State.updChan_chans_self, stored.sm]
  have slot := Channel.slot_onSlot inside fun u => u.lined status bytes
  rw [← chan] at slot
  obtain ⟨groups, after, mem, only, outside⟩ := State.progress_spec (s := v.updChan ch fun c => c.onSlot i fun u => u.lined status bytes)
    (ch := ch) (i := i) (by rw [chan, Channel.onSlot_length]; exact inside)
  refine ⟨bytes, groups, ?_, ?_, ?_, ?_, ?_⟩
  · rw [after, Channel.slot_onSlot (by rw [chan, Channel.onSlot_length]; exact inside), slot]
    rfl
  · rw [after, chan]
    rfl
  · rw [mem, slot]
    exact State.writePool_mem_of_eq (v.updChan_mem ch _) _ _
  · exact ((State.OnlyChan.of_sm ch stored.sm).trans (v.updChan_only ch _)).trans only
  · exact ((stored.mono (by decide)).step (State.updChan_outside _ _ _)).step outside

/-! ## The end of a frame (R94, R102) -/

/-- The unit of a frame that ends whole. -/
def Slot.closed (u : Slot) (now : Nat) : Slot := { u with state := .ready, lastDt := stampOf u.desc now }

/-- A frame with all its lines is closed as it ends. -/
theorem State.endFrame_whole {s : State} {ch : Fin 32} {i : Nat} (frame : s.sm.chans[ch].frame = some i)
    (whole : dHeight (s.sm.chans[ch].slot i).desc ≤ (s.sm.chans[ch].slot i).count) : s.endFrame ch false =
      State.closeUnit (s.updChan ch fun c => c.onSlot i fun u => { u with
        lastDt := stampOf (s.sm.chans[ch].slot i).desc s.dtNs }) ch i := by
  unfold State.endFrame State.closeFrame
  simp only [frame, decide_eq_false (Nat.not_lt.mpr whole), Bool.or_false, Bool.false_eq_true, if_false]

/-- The channel as a unit of it closes. -/
def Channel.unitClosed (c : Channel) (i : Nat) : Channel :=
  { (c.onSlot i fun u => if u.state = .opened then { u with state := .ready } else u) with
    frame := if c.frame = some i then none else c.frame
    counts := { c.counts with
      unitsAccepted := c.counts.unitsAccepted + 1
      shortOrTruncated := if (c.slot i).status &&& 3 ≠ 0 then c.counts.shortOrTruncated + 1 else c.counts.shortOrTruncated
      lastArrivalDt := BitVec.ofNat 64 (c.slot i).lastDt } }

/-- The header of a unit that has closed, and its flags. -/
def State.unitShown (s : State) (ch : Fin 32) (i : Nat) : State :=
  State.setGroups (s.writeHeader ch i) ch i (unitFlags ((s.writeHeader ch i).sm.chans[ch].slot i))

theorem State.closeUnit_eq (s : State) (ch : Fin 32) (i : Nat) :
    s.closeUnit ch i = (s.updChan ch fun c => c.unitClosed i).unitShown ch i := rfl

theorem State.unitShown_spec (s : State) (ch : Fin 32) (i : Nat) : ∃ groups : List Nat,
    (s.unitShown ch i).sm.chans[ch] = s.sm.chans[ch].onSlot i (fun u => { u with groupsSet := u.groupsSet ++ groups })
      ∧ (s.unitShown ch i).mem = (s.writePool (dSlotBase (s.sm.chans[ch].slot i).desc i) (s.sm.chans[ch].slot i).header).mem
      ∧ (∀ f ∈ unitFlags (s.sm.chans[ch].slot i), f ∉ (s.sm.chans[ch].slot i).groupsSet → (s.unitShown ch i).flag f = some .set)
      ∧ s.OnlyChan ch (s.unitShown ch i) ∧ s.Outside [.sm, .mem, .flags] (s.unitShown ch i) := by
  have mem := State.writeHeader_mem (t := s) (s := s) rfl ch i
  have head := s.writeHeader_outside ch i
  unfold State.unitShown
  rw [head.sm]
  generalize s.writeHeader ch i = v at head mem ⊢
  generalize flags : unitFlags (s.sm.chans[ch].slot i) = fs
  obtain ⟨groups, after⟩ := State.setGroups_chan v ch i fs
  rw [head.sm] at after
  refine ⟨groups, after, ?_, fun f member fresh => ?_, ?_, ?_⟩
  · rw [(State.setGroups_outside _ ch i _).mem, mem]
  · exact State.setGroups_flag member (by rw [head.sm]; exact fresh)
  · exact (State.OnlyChan.of_sm ch head.sm).trans (State.setGroups_only _ ch i _)
  · exact (head.mono (by decide)).step (State.setGroups_outside _ ch i _)

/-- The channel as a whole frame of it ends. -/
def Channel.frameEnded (c : Channel) (i now : Nat) : Channel :=
  (c.onSlot i fun u => { u with lastDt := stampOf (c.slot i).desc now }).unitClosed i

theorem Channel.frameEnded_slot {c : Channel} {i : Nat} (inside : i < c.slots.length) (opened : (c.slot i).state = .opened) (now : Nat) :
    (c.frameEnded i now).slot i = (c.slot i).closed now := by
  have stamped := Channel.slot_onSlot inside fun u => { u with lastDt := stampOf (c.slot i).desc now }
  have closed := Channel.slot_onSlot (c := c.onSlot i fun u => { u with lastDt := stampOf (c.slot i).desc now }) (i := i)
    (by rw [Channel.onSlot_length]; exact inside) fun u => if u.state = .opened then { u with state := .ready } else u
  refine closed.trans ?_
  rw [stamped]
  exact if_pos opened

/-- The channel, the memory and the flags as a whole frame ends. -/
theorem State.endFrame_spec {s : State} {ch : Fin 32} {i : Nat} (frame : s.sm.chans[ch].frame = some i)
    (inside : i < s.sm.chans[ch].slots.length) (whole : dHeight (s.sm.chans[ch].slot i).desc ≤ (s.sm.chans[ch].slot i).count)
    (opened : (s.sm.chans[ch].slot i).state = .opened) : ∃ groups : List Nat,
    (s.endFrame ch false).sm.chans[ch] =
        (s.sm.chans[ch].frameEnded i s.dtNs).onSlot i (fun u => { u with groupsSet := u.groupsSet ++ groups })
      ∧ (s.endFrame ch false).mem = (s.writePool (dSlotBase (s.sm.chans[ch].slot i).desc i)
          ((s.sm.chans[ch].slot i).closed s.dtNs).header).mem
      ∧ (∀ f ∈ unitFlags (s.sm.chans[ch].slot i), f ∉ (s.sm.chans[ch].slot i).groupsSet → (s.endFrame ch false).flag f = some .set)
      ∧ s.OnlyChan ch (s.endFrame ch false) ∧ s.Outside [.sm, .mem, .flags] (s.endFrame ch false) := by
  rw [State.endFrame_whole frame whole, State.closeUnit_eq]
  have moved := (s.updChan_outside ch fun c => c.onSlot i fun u => { u with lastDt := stampOf (s.sm.chans[ch].slot i).desc s.dtNs }).step
    (State.updChan_outside _ ch fun c => c.unitClosed i)
  have only := (s.updChan_only ch fun c => c.onSlot i fun u => { u with
    lastDt := stampOf (s.sm.chans[ch].slot i).desc s.dtNs }).trans (State.updChan_only _ ch fun c => c.unitClosed i)
  have chan : ((s.updChan ch fun c => c.onSlot i fun u => { u with lastDt := stampOf (s.sm.chans[ch].slot i).desc s.dtNs }).updChan ch
      fun c => c.unitClosed i).sm.chans[ch] = s.sm.chans[ch].frameEnded i s.dtNs := by
    rw [State.updChan_chans_self, State.updChan_chans_self]
    rfl
  generalize (s.updChan ch fun c => c.onSlot i fun u => { u with lastDt := stampOf (s.sm.chans[ch].slot i).desc s.dtNs }).updChan ch
    (fun c => c.unitClosed i) = t at moved only chan ⊢
  obtain ⟨groups, after, mem, flags, only', outside⟩ := t.unitShown_spec ch i
  rw [chan, Channel.frameEnded_slot inside opened] at mem flags
  rw [chan] at after
  refine ⟨groups, after, ?_, flags, only.trans only', (moved.mono (by decide)).step outside⟩
  rw [mem]
  exact State.writePool_mem_of_eq moved.mem _ _

/-! ## The channel of a virtual channel (R90) -/

theorem State.csiStart_of_channel {s : State} {g : Fin 4} {vc : Fin 16} {ch : Fin 32} {d : List Byte}
    (found : s.csiChannel g vc = some (ch, d)) :
    s.csiStart g vc = if s.sm.chans[ch].runs then s.frameStart ch d else s.countDisabled ch := by
  unfold State.csiStart
  rw [found]

theorem State.csiPacket_of_channel {s : State} {g : Fin 4} {vc : Fin 16} {ch : Fin 32} {d : List Byte}
    (found : s.csiChannel g vc = some (ch, d)) (ty : Byte) (data : List Byte) (link : LinkCheck) :
    s.csiPacket g vc ty data link = if s.sm.chans[ch].runs then s.longPacket ch ty.toNat data link else s := by
  unfold State.csiPacket
  rw [found]

theorem State.csiEnd_of_channel {s : State} {g : Fin 4} {vc : Fin 16} {ch : Fin 32} {d : List Byte}
    (found : s.csiChannel g vc = some (ch, d)) :
    s.csiEnd g vc = if s.sm.chans[ch].runs then s.endFrame ch false else s := by
  unfold State.csiEnd
  rw [found]

theorem State.linkError_frame (s : State) (ch : Fin 32) : (s.linkError ch).sm.chans[ch].frame = s.sm.chans[ch].frame := by
  unfold State.linkError
  rw [State.updChan_chans_self]

/-- A packet without a frame is a link error or nothing (R102). -/
theorem State.longPacket_of_closed {s : State} {ch : Fin 32} (closed : s.sm.chans[ch].frame = none) (ty : Nat) (data : List Byte)
    (link : LinkCheck) : s.longPacket ch ty data link =
      if link = .headerBad ∨ (link = .payloadCrc ∧ ((pixelBits ty).isSome = true ∨ ty = 0x12)) then s.linkError ch else s := by
  have still := (s.linkError_frame ch).trans closed
  unfold State.longPacket
  by_cases header : link = .headerBad
  · rw [if_pos header, if_pos (.inl header)]
  · rw [if_neg header]
    by_cases bad : link = .payloadCrc ∧ ((pixelBits ty).isSome = true ∨ ty = 0x12)
    · have error : (decide (link = .payloadCrc) && ((pixelBits ty).isSome || decide (ty = 0x12))) = true := by simpa using bad
      rw [if_pos (.inr bad)]
      dsimp only
      rw [if_pos error, still]
    · have fine : ¬ (decide (link = .payloadCrc) && ((pixelBits ty).isSome || decide (ty = 0x12))) = true := by simpa using bad
      rw [if_neg fun h => h.elim header bad]
      dsimp only
      rw [if_neg fine, closed]

/-- A clean packet of the frame's data type is a line of it. -/
theorem State.longPacket_line {s : State} {ch : Fin 32} {i : Nat} (frame : s.sm.chans[ch].frame = some i) {ty : Nat}
    (type : ty = dfield (s.sm.chans[ch].slot i).desc 33 1) (data : List Byte) :
    s.longPacket ch ty data .clean = s.frameLine ch i data false := by
  have sound : ¬ LinkCheck.clean = .headerBad := nofun
  have fine : decide (LinkCheck.clean = .payloadCrc) = false := by decide
  unfold State.longPacket
  rw [if_neg sound]
  simp only [fine, Bool.false_and, Bool.false_eq_true, if_false, frame]
  exact if_pos type

end Sys2Proof.Machine

open Sys2Proof Sys2Proof.Machine

/-- Settles O44: the events of a frame on the channel that its virtual channel names, by whether the channel runs and has a frame. -/
theorem cameraFramesArrive : Obligations.CameraFramesArrive := by
  intro s g vc ch d i ready found
  have start : exec (.csi2FrameStart g vc) s = .next (if s.sm.chans[ch].runs then s.frameStart ch d else s.countDisabled ch) :=
    congrArg _ ((if_pos ready).trans (State.csiStart_of_channel found))
  have packet : ∀ ty data link, exec (.csi2LongPacket g vc ty data link) s =
      .next (if s.sm.chans[ch].runs then s.longPacket ch ty.toNat data link else s) :=
    fun ty data link => congrArg _ ((if_pos ready).trans (State.csiPacket_of_channel found ty data link))
  have finish : exec (.csi2FrameEnd g vc) s = .next (if s.sm.chans[ch].runs then s.endFrame ch false else s) :=
    congrArg _ ((if_pos ready).trans (State.csiEnd_of_channel found))
  refine ⟨fun runs closed => ?_, fun runs frame inside => ?_, fun still => ?_⟩
  · rw [runs, if_pos rfl] at start finish
    refine ⟨fun plain free => ?_, fun k triggered waits inside => ?_, fun triggered quiet => ?_, fun ty data link => ?_, ?_⟩
    · obtain ⟨chan, mem, only, outside⟩ := State.frameStart_free_spec closed plain free
      have slot : (s.frameStart ch d).sm.chans[ch].slot i = openedSlot s.sm.chans[ch] d 0 0 (stampOf d s.dtNs) := by
        rw [chan]
        exact openedChannel_slot (Channel.freeIdx_lt free) _ _ _ _
      refine ⟨_, start, congrArg Channel.frame chan, congrArg Slot.state slot, congrArg Slot.seq slot, congrArg Slot.desc slot,
        congrArg Slot.firstDt slot, congrArg Slot.count slot, by rw [mem, slot], congrArg Channel.seqNext chan, only, outside.besideSm⟩
    · obtain ⟨opened, none, slot, mem, only, outside⟩ := State.frameStart_expected_spec closed triggered waits inside
      exact ⟨_, start, opened, none, slot, by rw [mem, slot], only, outside.besideSm⟩
    · rw [State.frameStart_unexpected closed triggered quiet] at start
      have counted : (s.countDrop ch true false).sm.chans[ch].slots = s.sm.chans[ch].slots
          ∧ (s.countDrop ch true false).sm.chans[ch].counts.droppedNewest = s.sm.chans[ch].counts.droppedNewest + 1 := by
        unfold State.countDrop
        rw [State.updChan_chans_self]
        exact ⟨rfl, rfl⟩
      have only : s.OnlyChan ch (s.countDrop ch true false) := fun c other => State.updChan_chans_ne _ other _
      have noted := (s.countDrop ch true false).event_outside 0x02 0x0204 ch.val (stampOf d s.dtNs % 2 ^ 32) 0
      have both := (s.countDrop_outside ch true false).trans noted
      refine ⟨_, start, ?_, ?_, ?_, ?_⟩
      · rw [noted.sm, counted.1]
      · rw [noted.sm, counted.2]
      · exact only.trans (.of_sm ch noted.sm)
      · exact both.restored (fun p mem => by cases p <;> simp_all) (fun p out => by cases p <;> simp_all)
    · rw [packet, runs, if_pos rfl, State.longPacket_of_closed closed]
    · rw [finish]
      unfold State.endFrame
      rw [closed]
  · rw [runs, if_pos rfl] at finish
    refine ⟨fun ty data type early => ?_, fun whole opened => ?_⟩
    · obtain ⟨bytes, groups, slot, counts, mem, only, outside⟩ := State.frameLine_spec data inside early
      refine ⟨s.frameLine ch i data false, ?_, mem, congrArg Slot.count slot, (congrArg Slot.state slot).trans rfl,
        fun long => ?_, fun short => ?_,
        counts, only, outside.besideUnits⟩
      · rw [packet, runs, if_pos rfl, State.longPacket_line frame type]
      · rw [slot, long]
        rfl
      · rw [slot, short]
        exact BitVec.or_zero
    · obtain ⟨groups, chan, mem, flags, only, outside⟩ := State.endFrame_spec frame inside whole opened
      have slot : (s.endFrame ch false).sm.chans[ch].slot i =
          { (s.sm.chans[ch].slot i).closed s.dtNs with groupsSet := ((s.sm.chans[ch].slot i).closed s.dtNs).groupsSet ++ groups } := by
        rw [chan, Channel.slot_onSlot (by simpa [Channel.frameEnded, Channel.unitClosed, Channel.onSlot_length] using inside),
          Channel.frameEnded_slot inside opened]
      refine ⟨_, finish, ?_, congrArg Slot.state slot, congrArg Slot.lastDt slot, ?_, mem, flags, only, outside.besideUnits⟩
      · rw [chan]
        exact if_pos frame
      · rw [chan]
        rfl
  · rw [still, if_neg Bool.false_ne_true] at start finish
    refine ⟨start, ?_, fun ty data link => ?_, finish⟩
    · unfold State.countDisabled
      rw [State.updChan_chans_self]
    · rw [packet, still, if_neg Bool.false_ne_true]

end

section
set_option Elab.async false
/-!
PROOFS. Ethernet frames, SPI transactions, and the records of a slot.
-/
namespace Sys2Proof.Machine
open State (Outside)

/-! ## Ethernet (R41, R103) -/

/-- A maker of records is asked at the running descriptor and at the open unit's alone. -/
theorem State.appendRecord_congr {s : State} {ch : Fin 32} {d : List Byte} {mk mk' : RecordMaker} (running : mk d = mk' d)
    (opened : ∀ k, s.sm.chans[ch].openIdx = some k → mk (s.sm.chans[ch].slot k).desc = mk' (s.sm.chans[ch].slot k).desc) :
    s.appendRecord ch d mk = s.appendRecord ch d mk' := by
  have new : ∀ t : State, t.openRecord ch d mk = t.openRecord ch d mk' := fun t => by
    unfold State.openRecord
    rw [running]
  have fits : fitsNew d mk = fitsNew d mk' := by
    unfold fitsNew
    rw [running]
  unfold State.appendRecord
  dsimp only
  split
  next k found =>
    rw [opened k found]
    simp only [new, fits]
  next => exact new s

/-- A frame of a channel without templates becomes a record of it as it is. -/
theorem State.ethTake_plain {s : State} {ch : Fin 32} {d f : List Byte} (runs : s.sm.chans[ch].runs = true) (plain : dfield d 40 4 = 0)
    (opened : ∀ k, s.sm.chans[ch].openIdx = some k → dfield (s.sm.chans[ch].slot k).desc 40 4 = 0) :
    s.ethTake ch d f = s.appendRecord ch d fun d => .ok (stampOf d s.dtNs, f) := by
  have on : ¬ (!s.sm.chans[ch].runs) = true := by rw [runs]; decide
  unfold State.ethTake
  rw [if_neg on]
  refine State.appendRecord_congr ?_ fun k found => ?_
  · simp only [plain, if_true]
  · simp only [opened k found, if_true]

/-- The counter of a port's frames. -/
def portCounter : EthPort → Fin 5
  | .portA => 0
  | .portB => 1

/-- The counter of a port's frames whose check sequence is wrong. -/
def portBadCounter : EthPort → Fin 5
  | .portA => 2
  | .portB => 3

/-- A forwarded frame that is not too long passes the first test. -/
theorem ethForward_taken {s : State} {f : List Byte} (on : s.dev.ethForward = true) (short : f.length + 4 ≤ 9216) :
    ¬ (!s.dev.ethForward || decide (9216 < f.length + 4)) = true := by simp [on, short]

/-- A PTP message, its check sequence right, goes to the time unit. -/
theorem State.ethReceive_ptp {s : State} (p : EthPort) {f : List Byte} (on : s.dev.ethForward = true) (short : f.length + 4 ≤ 9216)
    {x : Nat × Option Nat} (ptp : ptpAt f = some x) :
    s.ethReceive p f true = (s.ethCount (portCounter p)).ptpArrives f (beAt f (x.1 + 4) 1) := by
  unfold State.ethReceive
  rw [if_neg (ethForward_taken on short)]
  cases p <;> simp only [Bool.not_true, Bool.false_eq_true, if_false, ptp, portCounter]

/-- A frame that a channel matches, its check sequence right, goes to the channel. -/
theorem State.ethReceive_channel {s : State} (p : EthPort) {f d : List Byte} {ch : Fin 32} (on : s.dev.ethForward = true)
    (short : f.length + 4 ≤ 9216) (plain : ptpAt f = none) (found : s.ethChannel p f = some (ch, d)) :
    s.ethReceive p f true = (s.ethCount (portCounter p)).ethTake ch d f := by
  have still : (s.ethCount (portCounter p)).ethChannel p f = some (ch, d) := found
  unfold State.ethReceive
  rw [if_neg (ethForward_taken on short)]
  cases p <;> simp only [portCounter] at still <;>
    simp only [Bool.not_true, Bool.false_eq_true, if_false, plain, still, portCounter]

/-- A frame with a wrong check sequence that no channel matches is counted. -/
theorem State.ethReceive_bad {s : State} (p : EthPort) {f : List Byte} (on : s.dev.ethForward = true) (short : f.length + 4 ≤ 9216)
    (unmatched : s.ethChannel p f = none) : s.ethReceive p f false =
      State.ethCount { s with sm := { s.sm with status := s.sm.status ||| 2 } } (portBadCounter p) := by
  have still : ∀ i, (State.ethCount { s with sm := { s.sm with status := s.sm.status ||| 2 } } i).ethChannel p f = none := fun _ => unmatched
  unfold State.ethReceive
  rw [if_neg (ethForward_taken on short)]
  cases p <;> simp only [Bool.not_false, if_true, still, portBadCounter]

/-! ## Sensor SPI (R105) -/

/-- A fold whose steps act at one index alone is that step. -/
theorem foldl_at {ch : Fin 32} {f : State → Fin 32 → State} (inv : State → Prop) (others : ∀ t c, inv t → c ≠ ch → f t c = t)
    {s : State} (before : inv s) (after : inv (f s ch)) (l : List (Fin 32)) (once : l.Nodup) (mem : ch ∈ l) :
    l.foldl f s = f s ch := by
  have fixed : ∀ (l : List (Fin 32)) (t : State), inv t → ch ∉ l → l.foldl f t = t := by
    intro l
    induction l with
    | nil => exact fun _ _ _ => rfl
    | cons c l ih =>
      intro t good out
      rw [List.mem_cons, not_or] at out
      rw [List.foldl_cons, others t c good fun e => out.1 e.symm]
      exact ih t good out.2
  induction l with
  | nil => exact absurd mem (List.not_mem_nil)
  | cons c l ih =>
    obtain ⟨new, once⟩ := List.nodup_cons.mp once
    rw [List.foldl_cons]
    by_cases here : c = ch
    · subst here
      exact fixed l _ after new
    · rw [others s c before here]
      exact ih once ((List.mem_cons.mp mem).resolve_left fun e => here e.symm)

/-- What an edge does on the line's channel that takes it (R90, R105). -/
def State.drdyTaken (s : State) (ch : Fin 32) (d : List Byte) : State :=
  if s.sm.chans[ch].runs then s.spiTrigger ch d else if s.sm.chans[ch].everEnabled then s.countDisabled ch else s

theorem State.spiDrive_outside (s : State) (ctl : Fin 4) : s.Outside [.sm] (s.spiDrive ctl) := .setSm s _

theorem State.spiTrigger_only (s : State) (ch : Fin 32) (d : List Byte) : s.OnlyChan ch (s.spiTrigger ch d) := by
  unfold State.spiTrigger
  dsimp only
  split
  · exact s.updChan_only ch _
  · exact fun _ _ => rfl

theorem State.drdyTaken_only (s : State) (ch : Fin 32) (d : List Byte) : s.OnlyChan ch (s.drdyTaken ch d) := by
  unfold State.drdyTaken
  split
  · exact s.spiTrigger_only ch d
  · split
    · exact fun c other => State.updChan_chans_ne _ other _
    · exact .of_sm ch rfl

/-- An edge on a line of one channel. -/
theorem State.drdy_of_one {s : State} {line : Fin 8} {rising : Bool} {ch : Fin 32} {d : List Byte} (desc : s.sm.chans[ch].desc = some d)
    (kind : dKind d = 3) (drdy : dPolls d = false) (on : dfield d 35 1 % 8 = line.val) (edge : (dfield d 35 1).testBit 6 = !rising)
    (alone : ∀ c, c ≠ ch → s.sm.chans[c].desc = none) : s.drdy line rising = s.drdyTaken ch d := by
  have takes : (decide (dKind d = 3) && !dPolls d && decide (dfield d 35 1 % 8 = line.val)
      && decide ((dfield d 35 1).testBit 6 ≠ rising)) = true := by
    simp [kind, drdy, on, edge]
  unfold State.drdy
  refine (foldl_at (ch := ch) (fun t => ∀ c, c ≠ ch → t.sm.chans[c].desc = none) (fun t c quiet other => ?_) alone ?_ _
    (List.nodup_finRange 32) (List.mem_finRange ch)).trans ?_
  · simp only [quiet c other]
  · simp only [desc, takes, if_true]
    exact fun c other => (congrArg Channel.desc (s.drdyTaken_only ch d c other)).trans (alone c other)
  · simp only [desc, takes, if_true]
    rfl

/-- A trigger with no transaction of the channel waiting joins the controller's queue. -/
theorem State.spiTrigger_queued {s : State} {ch : Fin 32} {d : List Byte}
    (free : ((s.sm.spi[dCtl d]).drop 1).any (fun j => decide (j.channel = ch)) = false) :
    s.spiTrigger ch d = State.spiDrive { s with sm := { s.sm with
      spi := s.sm.spi.set (dCtl d) (s.sm.spi[dCtl d] ++ [{ channel := ch, stamp := s.dtNs }]) } } (dCtl d) :=
  if_neg (by rw [free]; exact Bool.false_ne_true)

/-- A trigger with one waiting is missed. -/
theorem State.spiTrigger_missed {s : State} {ch : Fin 32} {d : List Byte}
    (waits : ((s.sm.spi[dCtl d]).drop 1).any (fun j => decide (j.channel = ch)) = true) :
    s.spiTrigger ch d = s.updChan ch fun c => { c with
      counts := { c.counts with drdyMissed := c.counts.drdyMissed + 1 }, spanMissed := c.spanMissed + 1 } :=
  if_pos waits

/-- What a controller drives for a channel's transaction. -/
def spiBusOf (d : List Byte) : SpiBus :=
  { cs := some (dfield d 32 1), mode := dfield d 33 1, clkDiv := dfield d 34 1
    command := (d.drop 40).take (dfield d 38 1), readLen := dfield d 36 2 }

theorem State.spiDrive_head {s : State} {ctl : Fin 4} {j : SpiJob} {rest : List SpiJob} {d : List Byte} (queue : s.sm.spi[ctl] = j :: rest)
    (desc : s.sm.chans[j.channel].desc = some d) (closed : s.sm.chans[j.channel].openIdx = none) :
    s.spiDrive ctl = { s with sm := { s.sm with spiBus := s.sm.spiBus.set ctl (spiBusOf d) } } := by
  unfold State.spiDrive
  simp only [queue, Channel.unitDesc, closed, desc, Option.getD_some]
  rfl

theorem State.spiDrive_idle {s : State} {ctl : Fin 4} (queue : s.sm.spi[ctl] = []) :
    s.spiDrive ctl = { s with sm := { s.sm with spiBus := s.sm.spiBus.set ctl SpiBus.idle } } := by
  unfold State.spiDrive
  simp only [queue]

/-- The end of the last transaction of a controller leaves it idle. -/
theorem State.spiNext_last {s : State} {ctl : Fin 4} {j : SpiJob} (queue : s.sm.spi[ctl] = [j]) :
    s.spiNext ctl = { s with sm := { s.sm with spi := s.sm.spi.set ctl [], spiBus := s.sm.spiBus.set ctl SpiBus.idle } } := by
  unfold State.spiNext
  simp only [queue, List.drop_succ_cons, List.drop_nil]
  rw [State.spiDrive_idle]
  exact Vector.getElem_set_self _

/-- A transaction of a running channel that goes to the pool gives it a record. -/
theorem State.spiDone_pool {s : State} {ctl : Fin 4} {j : SpiJob} {d data : List Byte} (queue : s.sm.spi[ctl] = [j])
    (desc : s.sm.chans[j.channel].desc = some d) (runs : s.sm.chans[j.channel].runs = true) (route : dRoute d = 0)
    (whole : data.length = s.sm.spiBus[ctl].readLen) : s.spiDone ctl data =
      (({ s with sm := { s.sm with spi := s.sm.spi.set ctl [], spiBus := s.sm.spiBus.set ctl SpiBus.idle } } : State).appendRecord
        j.channel d fun d => .ok (stampOf d j.stamp, data)) := by
  have same : data.take s.sm.spiBus[ctl].readLen ++ List.replicate (s.sm.spiBus[ctl].readLen - data.length) 0 = data := by
    rw [← whole, List.take_length, Nat.sub_self, List.replicate_zero, List.append_nil]
  have toPool : ¬ dRoute d = 1 := by omega
  unfold State.spiDone
  simp only [queue, State.spiNext_last queue, desc, runs, if_true, same]
  unfold State.spiRecord
  simp only [route, if_true]
  exact if_neg (by decide)

/-! ## A record of an open slot (R91) -/

theorem recordBytes_length (dt : Nat) (data : List Byte) (linkErr : Bool) (seq : Word) :
    (recordBytes dt data linkErr seq).length = 16 + data.length := by
  simp only [recordBytes, List.length_append, natLe_length]

/-- The slot with a record more. -/
def Slot.recorded (u : Slot) (dt len : Nat) : Slot := { u with bytes := up16 u.bytes + (16 + len), count := u.count + 1, lastDt := dt }

/-- The channel with a record more in a slot. -/
def Channel.recorded (c : Channel) (i dt len : Nat) : Channel :=
  { (c.onSlot i fun u => u.recorded dt len) with
    recSeq := countUp c.recSeq 1
    counts := { c.counts with lastArrivalDt := BitVec.ofNat 64 dt } }

theorem Channel.recorded_slot {c : Channel} {i : Nat} (inside : i < c.slots.length) (dt len : Nat) :
    (c.recorded i dt len).slot i = (c.slot i).recorded dt len := Channel.slot_onSlot inside _

theorem State.putRecord_eq (s : State) (ch : Fin 32) (i dt : Nat) (data : List Byte) : s.putRecord ch i dt data =
    State.writeHeader ((s.writePool (dSlotBase (s.sm.chans[ch].slot i).desc i + 64 + up16 (s.sm.chans[ch].slot i).bytes)
      (recordBytes dt data false s.sm.chans[ch].recSeq)).updChan ch fun c => c.recorded i dt data.length) ch i := by
  unfold State.putRecord
  dsimp only
  rw [recordBytes_length]
  generalize s.writePool _ _ = v
  rfl

/-- The slot, the channel's counts and the memory after a record of an open slot. -/
theorem State.putRecord_spec {s : State} {ch : Fin 32} {i : Nat} (inside : i < s.sm.chans[ch].slots.length) (dt : Nat) (data : List Byte) :
    (s.putRecord ch i dt data).sm.chans[ch].slot i = (s.sm.chans[ch].slot i).recorded dt data.length
      ∧ (s.putRecord ch i dt data).sm.chans[ch].recSeq = countUp s.sm.chans[ch].recSeq 1
      ∧ (s.putRecord ch i dt data).sm.chans[ch].counts.lastArrivalDt = BitVec.ofNat 64 dt
      ∧ (s.putRecord ch i dt data).mem = ((s.writePool (dSlotBase (s.sm.chans[ch].slot i).desc i + 64 + up16 (s.sm.chans[ch].slot i).bytes)
          (recordBytes dt data false s.sm.chans[ch].recSeq)).writePool (dSlotBase (s.sm.chans[ch].slot i).desc i)
            ((s.sm.chans[ch].slot i).recorded dt data.length).header).mem
      ∧ s.Outside [.sm, .mem] (s.putRecord ch i dt data) := by
  have stored := s.writePool_outside (dSlotBase (s.sm.chans[ch].slot i).desc i + 64 + up16 (s.sm.chans[ch].slot i).bytes)
    (recordBytes dt data false s.sm.chans[ch].recSeq)
  have desc : ((s.sm.chans[ch].slot i).recorded dt data.length).desc = (s.sm.chans[ch].slot i).desc := rfl
  rw [State.putRecord_eq]
  generalize s.writePool (dSlotBase (s.sm.chans[ch].slot i).desc i + 64 + up16 (s.sm.chans[ch].slot i).bytes)
    (recordBytes dt data false s.sm.chans[ch].recSeq) = v at stored ⊢
  rw [State.writeHeader_sm, State.writeHeader_mem (v.updChan_mem ch _), State.updChan_chans_self, stored.sm, Channel.recorded_slot inside,
    desc]
  exact ⟨rfl, rfl, rfl, rfl, ((stored.mono (by decide)).step (State.updChan_outside _ ch _)).step (State.writeHeader_outside _ ch i)⟩

/-- A record that fits the open slot is put there. -/
theorem State.appendRecord_fits {s : State} {ch : Fin 32} {d : List Byte} {mk : RecordMaker} {i : Nat} {r : Nat × List Byte}
    (found : s.sm.chans[ch].openIdx = some i) (made : mk (s.sm.chans[ch].slot i).desc = .ok r)
    (fits : 64 + up16 (s.sm.chans[ch].slot i).bytes + 16 + r.2.length ≤ dSlotBytes (s.sm.chans[ch].slot i).desc) :
    s.appendRecord ch d mk = s.putRecord ch i r.1 r.2 := by
  unfold State.appendRecord
  simp only [found, made]
  exact if_pos fits

/-! ## Polls (R105) -/

/-- The transaction queued and driven for a channel on an idle controller. -/
def State.spiStarted (s : State) (ch : Fin 32) (d : List Byte) : State :=
  { s with sm := { s.sm with
    spi := s.sm.spi.set (dCtl d) [{ channel := ch, stamp := s.dtNs }], spiBus := s.sm.spiBus.set (dCtl d) (spiBusOf d) } }

/-- A poll that is due on an idle controller drives the channel's transaction. -/
theorem State.spiPoll_due {s : State} {ch : Fin 32} {d : List Byte} (desc : s.sm.chans[ch].desc = some d) (kind : dKind d = 3)
    (polls : dPolls d = true) (runs : s.sm.chans[ch].runs = true) (ever : s.sm.chans[ch].everEnabled = true)
    (idle : s.sm.spi[dCtl d] = []) (closed : s.sm.chans[ch].openIdx = none) (due : s.sm.chans[ch].nextPoll ≤ s.dtNs) :
    s.spiPoll ch = (s.spiStarted ch d).updChan ch fun c => { c with nextPoll := c.nextPoll + dfield d 48 4 } := by
  have now : (decide (dKind d = 3) && dPolls d && s.sm.chans[ch].everEnabled && decide (s.sm.chans[ch].nextPoll ≤ s.dtNs)) = true := by
    rw [decide_eq_true kind, polls, ever, decide_eq_true due]
    rfl
  have free : ((s.sm.spi[dCtl d]).drop 1).any (fun j => decide (j.channel = ch)) = false := by
    rw [idle]
    rfl
  have started : s.spiTrigger ch d = s.spiStarted ch d := by
    rw [State.spiTrigger_queued free, idle]
    refine (State.spiDrive_head (rest := []) (Vector.getElem_set_self _) desc closed).trans ?_
    rfl
  unfold State.spiPoll
  rw [desc]
  dsimp only
  rw [if_pos now, if_pos runs, started]

/-- A poll before its instant does nothing. -/
theorem State.spiPoll_early {s : State} {ch : Fin 32} {d : List Byte} (desc : s.sm.chans[ch].desc = some d)
    (early : s.dtNs < s.sm.chans[ch].nextPoll) : s.spiPoll ch = s := by
  have later : ¬ (decide (dKind d = 3) && dPolls d && s.sm.chans[ch].everEnabled && decide (s.sm.chans[ch].nextPoll ≤ s.dtNs)) = true := by
    rw [decide_eq_false (Nat.not_le.mpr early), Bool.and_false]
    exact Bool.false_ne_true
  unfold State.spiPoll
  rw [desc]
  exact if_neg later

end Sys2Proof.Machine

open Sys2Proof Sys2Proof.Machine

/-- Settles O45: each arrival goes to the channel that takes it, by whether the channel runs. -/
theorem recordsArrive : Obligations.RecordsArrive := by
  intro s ch d ready forward
  refine ⟨fun p f short => ?_, fun line rising desc kind drdy on edge alone => ?_, fun desc _ kind polls => ?_, fun ctl data => ?_,
    fun i mk r found => ?_⟩
  · refine ⟨fun ptp => ?_, fun unmatched => ?_, fun plain found runs template opened => ?_, fun plain found still => ?_⟩
    · obtain ⟨x, ptp⟩ := Option.isSome_iff_exists.mp ptp
      refine ⟨_, _, congrArg Host.Outcome.next (State.ethReceive_ptp p forward short ptp), ?_, rfl, rfl, ?_, rfl, rfl, rfl⟩
      · cases p <;> rfl
      · exact BitVec.toNat_ofNat _ _
    · refine ⟨_, congrArg Host.Outcome.next (State.ethReceive_bad p forward short unmatched), ?_, rfl, rfl, rfl⟩
      cases p <;> rfl
    · refine congrArg Host.Outcome.next ((State.ethReceive_channel p forward short plain found).trans ?_)
      cases p
      · exact State.ethTake_plain runs template opened
      · exact State.ethTake_plain runs template opened
    · refine congrArg Host.Outcome.next ((State.ethReceive_channel p forward short plain found).trans ?_)
      cases p
      · exact if_pos (congrArg Bool.not still)
      · exact if_pos (congrArg Bool.not still)
  · have edgeTaken : exec (.drdyEdge line rising) s = .next (s.drdyTaken ch d) :=
      congrArg Host.Outcome.next ((if_pos ready).trans (State.drdy_of_one desc kind drdy on edge alone))
    rw [edgeTaken]
    refine ⟨fun runs free => ?_, fun runs waits => ?_, fun still ever => ?_⟩
    · exact congrArg Host.Outcome.next ((if_pos runs).trans (State.spiTrigger_queued free))
    · refine ⟨_, congrArg Host.Outcome.next ((if_pos runs).trans (State.spiTrigger_missed waits)), rfl, ?_, rfl⟩
      rw [State.updChan_chans_self]
    · exact congrArg Host.Outcome.next ((if_neg (by rw [still]; exact Bool.false_ne_true)).trans (if_pos ever))
  · have polled : exec (.spiPollPeriod ch) s = .next (s.spiPoll ch) := congrArg Host.Outcome.next (if_pos ready)
    rw [polled]
    refine ⟨fun runs ever idle closed due => ?_, fun early => ?_⟩
    · rw [State.spiPoll_due desc kind polls runs ever idle closed due]
      refine ⟨_, rfl, Vector.getElem_set_self _, Vector.getElem_set_self _, ?_, rfl⟩
      rw [State.updChan_chans_self]
      rfl
    · rw [State.spiPoll_early desc early]
  · have done : exec (.spiTransactionDone ctl data) s = .next (s.spiDone ctl data) := congrArg Host.Outcome.next (if_pos ready)
    rw [done]
    refine ⟨fun idle => ?_, fun j queue channel desc runs route whole => ?_⟩
    · unfold State.spiDone
      rw [idle]
    · subst channel
      rw [State.spiDone_pool queue desc runs route whole]
  · intro u made fits t
    have appended : t = s.putRecord ch i r.1 r.2 := State.appendRecord_fits found made fits
    obtain ⟨inside, opened⟩ := Channel.openIdx_opened found
    obtain ⟨slot, recSeq, arrival, mem, outside⟩ := State.putRecord_spec inside r.1 r.2
    rw [← appended] at slot recSeq arrival mem outside
    refine ⟨congrArg Slot.count slot, congrArg Slot.bytes slot, congrArg Slot.lastDt slot, (congrArg Slot.state slot).trans opened, recSeq,
      ?_, ?_, outside.besideSm⟩
    · rw [arrival]
      exact BitVec.toNat_ofNat _ _
    · rw [mem, slot]

end

section
set_option Elab.async false
/-!
PROOFS. Iterations, deadlines and windows of the solver.
-/
namespace Sys2Proof.Machine
open State (Outside)

/-! ## What the engine writes -/

theorem State.unmappedEvents_outside (s : State) (ranges : List (Nat × Nat)) : s.Outside [.evr] (s.unmappedEvents ranges) :=
  Outside.foldl (fun (s : State) (x : Nat × Nat) => s.event 0x0D 0x0D02 x.1 1 x.2) (fun t _ => t.event_outside _ _ _ _ _) _ s

theorem State.writeDram_outside (s : State) (a : Nat) (bs : List Byte) : s.Outside [.evr, .mem, .sram] (s.writeDram a bs) :=
  ((s.unmappedEvents_outside _).mono (by decide)).step (State.applyMemWrites_outside _ _)

theorem State.keepFactor_outside (s : State) (j : SlvJob) : s.Outside [.evr, .mem, .sram] (s.keepFactor j) := by
  unfold State.keepFactor
  exact .ite (.refl s _) (s.writeDram_outside _ _)

theorem State.keepFactor_window {s : State} {j : SlvJob} (window : j.graph = false) : s.keepFactor j = s := by
  unfold State.keepFactor
  rw [window]
  rfl

theorem State.slvEvent_outside (s : State) (code a0 a1 a2 : Nat) : s.Outside [.evr] (s.slvEvent code a0 a1 a2) := by
  unfold State.slvEvent
  exact .ite (s.event_outside _ _ _ _ _) (.refl s _)

theorem State.slvCount_outside (s : State) (i : Fin 7) (n : Nat) : s.Outside [.slv] (s.slvCount i n) := .setSlv s _

theorem State.slvCount_counts (s : State) (i : Fin 7) (k n : Nat) (small : k < 7) :
    (s.slvCount i n).slv.counts[k] = if k = i.val then countUp s.slv.counts[k] n else s.slv.counts[k] := by
  by_cases same : k = i.val
  · subst same
    simp [State.slvCount]
  · simp [State.slvCount, same, Vector.getElem_set_ne, Ne.symm same]

/-! ## The end of the window's operation (R267) -/

theorem State.slvOpDone_outside (s : State) (opcode : Nat) : s.Outside [.sched, .flags] (s.slvOpDone opcode) := by
  unfold State.slvOpDone
  split
  · exact .refl s _
  · exact ((s.onSeq_outside .slv _).mono (by decide)).step (State.setOnDone_outside _ _)

/-- The operation of an opcode that runs leaves the sequencer, and its flag is set. -/
theorem State.slvOpDone_spec {s : State} {opcode : Nat} {r : Running}
    (found : (s.seq .slv).running.find? (fun r => decide (r.op.opcode = opcode)) = some r) :
    ((s.slvOpDone opcode).seq .slv).running = (s.seq .slv).running.filter (fun x => decide (x.op.opcode ≠ opcode))
      ∧ ∀ f, r.op.sets = some f → (s.slvOpDone opcode).flag f = some .set := by
  unfold State.slvOpDone
  rw [found]
  dsimp only
  have done := State.setOnDone_outside (s.onSeq .slv fun q => { q with running := q.running.filter fun r => decide (r.op.opcode ≠ opcode) }) r.op
  refine ⟨?_, fun f sets => State.setOnDone_flag sets⟩
  rw [State.seq_of_sched done.sched, State.seq_onSeq_self]

/-! ## A job closed (R265, R266) -/

/-- What is left of a completion once its start is known, of a job that no check refused. -/
def State.slvResult (s : State) (j : SlvJob) (err : Option Nat) (trunc : Bool) (start : Nat) : State :=
  let status := err.getD (j.okStatus trunc)
  let flags0 := if trunc then j.flags ||| 8 else j.flags
  let commit := decide (status < 256 ∧ 1 ≤ j.accepted)
  let flags := if err = some errTooLarge then j.deficit else if commit then flags0 ||| 1 else flags0
  let out := j.d 24 8
  let bytes := j.header status flags s.dtNs start ++ (j.poses ++ j.lands)
  let s := if s.inDram0 out bytes.length then s.writeDram out bytes else s
  let s := s.slvCount 0 1
  let s := if status = stTruncated then
      (s.slvCount 1 1).slvEvent 0x0B02 j.tag j.iters
        (fp32.ofNum (Num.div 30 (fp64.decode j.cost.toNat) (fp64.decode j.costInit.toNat)))
    else s
  let s := if status = errDeadline then
      State.slvEvent { s.slvCount 2 1 with slv := { (s.slvCount 2 1).slv with miss := true } } 0x0B01 j.tag j.iters
        ((s.dtNs - j.deadline) / 1000)
    else s
  let s := if status = errResidue then s.engineFailed 0x0B else s
  let s :=
    if commit then
      { s with slv := { s.slv with done := s.slv.done ++
        [{ graph := j.graph, tag := j.tag, status := status, iters := j.iters, setupDt := j.h 8 8, endDt := s.dtNs, poses := j.poses
           lands := j.lands, latched := false }] } }
    else if j.graph then s.graphDone status j.tag j.iters 0xFFFFFFFF s.dtNs
    else s
  s.slvLeave j.graph

theorem State.slvClose_eq (s : State) (j : SlvJob) {err : Option Nat} (trunc : Bool) (sound : ¬ (err = some errArg ∨ err = some errTooLarge)) :
    ∃ (x : State) (start : Nat), s.Outside [.free] x ∧ s.slvClose j err trunc = x.slvResult j err trunc start := by
  unfold State.slvClose
  rw [decide_eq_false sound]
  cases began : j.startDt with
  | some t => exact ⟨s, t, .refl s _, rfl⟩
  | none => exact ⟨(s.draw 64).2, (s.draw 64).1.toNat, .setFree s _, rfl⟩

/-- The state with a job's result in DRAM. -/
def State.resultOut (s : State) (j : SlvJob) (bytes : List Byte) : State :=
  if s.inDram0 (j.d 24 8) bytes.length then s.writeDram (j.d 24 8) bytes else s

theorem State.resultOut_outside (s : State) (j : SlvJob) (bytes : List Byte) : s.Outside [.evr, .mem, .sram] (s.resultOut j bytes) := by
  unfold State.resultOut
  exact .ite (s.writeDram_outside _ _) (.refl s _)

theorem SlvJob.okStatus_small (j : SlvJob) : j.okStatus false < 256 ∧ j.okStatus false ≠ stTruncated ∧ j.okStatus false ≠ errDeadline
    ∧ j.okStatus false ≠ errResidue := by
  unfold SlvJob.okStatus
  rw [if_neg Bool.false_ne_true]
  split
  · decide
  · decide

/-- What a window job's result is when it waits for its boundary. -/
def SlvJob.result (j : SlvJob) (endDt : Nat) : SlvDone :=
  { graph := j.graph, tag := j.tag, status := j.okStatus false, iters := j.iters, setupDt := j.h 8 8, endDt := endDt, poses := j.poses
    lands := j.lands, latched := false }

/-- A window job that stops by itself: counted, and its result waits if an iteration was accepted. -/
theorem State.slvResult_clean {s : State} {j : SlvJob} (window : j.graph = false) (start : Nat) : ∃ u : State,
    s.Outside [.evr, .mem, .sram] u ∧ s.slvResult j none false start = State.slvLeave
      (if 1 ≤ j.accepted then { u.slvCount 0 1 with slv := { (u.slvCount 0 1).slv with
        done := (u.slvCount 0 1).slv.done ++ [j.result (u.slvCount 0 1).dtNs] } } else u.slvCount 0 1) false := by
  obtain ⟨small, whole, kept, sound⟩ := j.okStatus_small
  refine ⟨s.resultOut j (j.header (j.okStatus false) (if decide (j.okStatus false < 256 ∧ 1 ≤ j.accepted) then j.flags ||| 1 else j.flags)
    s.dtNs start ++ (j.poses ++ j.lands)), s.resultOut_outside _ _, ?_⟩
  have noError : ¬ (none : Option Nat) = some errTooLarge := nofun
  unfold State.slvResult State.resultOut SlvJob.result
  simp only [Option.getD_none, noError, whole, kept, sound, if_false, window, Bool.false_eq_true, decide_eq_true_eq, small, true_and]

/-- A window job that misses its deadline: counted twice, and nothing waits. -/
theorem State.slvResult_missed {s : State} {j : SlvJob} (window : j.graph = false) (start : Nat) : ∃ (u : State) (x y z : Nat),
    s.Outside [.evr, .mem, .sram] u ∧ s.slvResult j (some errDeadline) false start = State.slvLeave
      (State.slvEvent { (u.slvCount 0 1).slvCount 2 1 with slv := { ((u.slvCount 0 1).slvCount 2 1).slv with miss := true } }
        0x0B01 x y z) false := by
  have large : ¬ (errDeadline < 256 ∧ 1 ≤ j.accepted) := fun h => absurd h.1 (by decide)
  have noError : ¬ some errDeadline = some errTooLarge := by decide
  have whole : ¬ errDeadline = stTruncated := by decide
  have sound : ¬ errDeadline = errResidue := by decide
  refine ⟨s.resultOut j (j.header errDeadline j.flags s.dtNs start ++ (j.poses ++ j.lands)), j.tag, j.iters, ?_, s.resultOut_outside _ _, ?_⟩
  rotate_left
  · unfold State.slvResult State.resultOut
    simp only [Option.getD_some, large, noError, whole, sound, if_false, window, Bool.false_eq_true, decide_false, if_true]
    rfl

/-- The window operation ends with its job. -/
theorem State.slvLeave_slv (s : State) : (s.slvLeave false).slv = { s.slv with window := none } :=
  (State.slvOpDone_outside { s with slv := { s.slv with window := none } } 0x10).slv

/-- The solver after a window job that stops by itself. -/
theorem State.slvClose_clean {s : State} {j : SlvJob} (window : j.graph = false) :
    (s.slvClose j none false).slv.window = none ∧ (s.slvClose j none false).slv.queueEn = s.slv.queueEn
      ∧ (s.slvClose j none false).slv.counts[0] = countUp s.slv.counts[0] 1
      ∧ ∃ now, (s.slvClose j none false).slv.done = if 1 ≤ j.accepted then s.slv.done ++ [j.result now] else s.slv.done := by
  obtain ⟨x, start, drawn, eq⟩ := s.slvClose_eq j (err := none) false (by simp)
  obtain ⟨u, out, result⟩ := State.slvResult_clean (s := x) window start
  have slv : u.slv = s.slv := by rw [out.slv, drawn.slv]
  have count : (u.slvCount 0 1).slv.counts[0] = countUp s.slv.counts[0] 1 := by
    rw [State.slvCount_counts _ _ 0 _ (by decide), slv]
    rfl
  have rest : (u.slvCount 0 1).slv.done = s.slv.done ∧ (u.slvCount 0 1).slv.queueEn = s.slv.queueEn := by
    rw [← slv]
    exact ⟨rfl, rfl⟩
  rw [eq, result, State.slvLeave_slv]
  split
  next some => exact ⟨rfl, rest.2, count, _, congrArg (· ++ _) rest.1⟩
  next none => exact ⟨rfl, rest.2, count, 0, rest.1⟩

/-- The solver after a window job that misses its deadline. -/
theorem State.slvClose_missed {s : State} {j : SlvJob} (window : j.graph = false) :
    (s.slvClose j (some errDeadline) false).slv.window = none ∧ (s.slvClose j (some errDeadline) false).slv.miss = true
      ∧ (s.slvClose j (some errDeadline) false).slv.counts[2] = countUp s.slv.counts[2] 1
      ∧ (s.slvClose j (some errDeadline) false).slv.counts[0] = countUp s.slv.counts[0] 1
      ∧ (s.slvClose j (some errDeadline) false).slv.done = s.slv.done := by
  obtain ⟨x, start, drawn, eq⟩ := s.slvClose_eq j (err := some errDeadline) false (by decide)
  obtain ⟨u, a, b, c, out, result⟩ := State.slvResult_missed (s := x) window start
  have slv : u.slv = s.slv := by rw [out.slv, drawn.slv]
  rw [eq, result, State.slvLeave_slv, (State.slvEvent_outside _ _ _ _ _).slv]
  have done : ((u.slvCount 0 1).slvCount 2 1).slv.done = s.slv.done := by
    rw [← slv]
    rfl
  have count2 : ((u.slvCount 0 1).slvCount 2 1).slv.counts[2] = countUp s.slv.counts[2] 1 := by
    rw [State.slvCount_counts _ _ 2 _ (by decide), State.slvCount_counts _ _ 2 _ (by decide), slv]
    rfl
  have count0 : ((u.slvCount 0 1).slvCount 2 1).slv.counts[0] = countUp s.slv.counts[0] 1 := by
    rw [State.slvCount_counts _ _ 0 _ (by decide), State.slvCount_counts _ _ 0 _ (by decide), slv]
    rfl
  exact ⟨rfl, rfl, count2, count0, done⟩

/-! ## Iterations (R263, R264, R269) -/

/-- The job with its iteration's time counted. -/
def SlvJob.timed (j : SlvJob) (ns : Nat) : SlvJob := { j with cyclesMax := min 0xFFFFFFFF (max j.cyclesMax (ns * 3 / 2)) }

theorem State.slvElapsed_short {s : State} {j : SlvJob} (short : s.dtNs - j.iterStart ≤ j.wNs) :
    s.slvElapsed j = (j.timed (s.dtNs - j.iterStart), s) := if_neg (Nat.not_lt.mpr short)

theorem SlvJob.flag_graph (j : SlvJob) (bit : Nat) : (j.flag bit).graph = j.graph := rfl

theorem SlvJob.iterate_graph (j : SlvJob) (rig : List Byte) : (j.iterate rig).1.graph = j.graph := by
  simp only [SlvJob.iterate, apply_ite Prod.fst, apply_ite SlvJob.graph, SlvJob.flag_graph, ite_self]

theorem State.slvHold_window {s : State} {j : SlvJob} (window : j.graph = false) :
    s.slvHold j = { s with slv := { s.slv with window := some j } } := by
  unfold State.slvHold
  rw [window]
  rfl

/-- The next iteration of a window job that its guard lets through. -/
theorem State.slvServe_guard {s : State} {j : SlvJob} (window : j.graph = false) (room : s.dtNs + j.wNs ≤ j.deadline)
    (off : s.slv.queueEn = false) : State.slvServe 3 (s.slvGuard j) = { s with slv := { s.slv with
      window := some { j with iterating := true, iterStart := s.dtNs, startDt := some (j.startDt.getD s.dtNs) } } } := by
  have held := State.slvHold_window (s := s) (j := { j with iterating := true, iterStart := s.dtNs, startDt := some (j.startDt.getD s.dtNs) })
    window
  unfold State.slvGuard
  rw [if_pos room, held, State.slvServe_of_off]
  exact off

/-- A clean iteration of a window job in time: the job stops, or meets the guard. -/
theorem State.slvIterationEnd_clean {s : State} {j : SlvJob} (held : s.slv.window = some j)
    (window : j.graph = false) (iterating : j.iterating = true) (due : j.overdue s.dtNs = false)
    (short : s.dtNs - j.iterStart ≤ j.wNs) : s.slvIterationEnd .clean =
      State.slvServe 3 (if ((j.timed (s.dtNs - j.iterStart)).iterate (s.jobRig j)).2
        then s.slvClose ((j.timed (s.dtNs - j.iterStart)).iterate (s.jobRig j)).1 none false
        else s.slvGuard ((j.timed (s.dtNs - j.iterStart)).iterate (s.jobRig j)).1) := by
  have live : ¬ (!j.iterating || j.overdue s.dtNs) = true := by simp [iterating, due]
  have active : s.slvActive = some j := by
    unfold State.slvActive
    rw [held]
  unfold State.slvIterationEnd
  rw [active]
  dsimp only
  rw [if_neg live]
  simp only [State.checkFound, State.slvElapsed_short short]
  rw [State.keepFactor_window (j := j.timed (s.dtNs - j.iterStart)) window]
  rfl

/-- The first mismatch of a window job's iteration reruns it (R269). -/
theorem State.slvIterationEnd_once {s : State} {j : SlvJob} (u : Byte) (off : s.slv.queueEn = false) (held : s.slv.window = some j)
    (window : j.graph = false) (iterating : j.iterating = true) (due : j.overdue s.dtNs = false) (first : j.mismatches = 0) :
    ∃ t : State, s.slvIterationEnd (.once u) = t ∧ t.slv.window = some { j with mismatches := 1 } ∧ t.slv.mismatch = true
      ∧ t.slv.counts[5] = countUp s.slv.counts[5] 1 ∧ s.Outside [.slv, .evr] t := by
  have live : ¬ (!j.iterating || j.overdue s.dtNs) = true := by simp [iterating, due]
  have active : s.slvActive = some j := by
    unfold State.slvActive
    rw [held]
  have counted : (s.slvCount 5 1).slv.counts[5] = countUp s.slv.counts[5] 1 := State.slvCount_counts s 5 5 1 (by decide)
  have noted := State.slvEvent_outside { s.slvCount 5 1 with slv := { (s.slvCount 5 1).slv with mismatch := true } } 0x0B05 j.tag u.toNat 0
  have moved : s.Outside [.slv, .evr] { s.slvCount 5 1 with slv := { (s.slvCount 5 1).slv with mismatch := true } } :=
    (((s.slvCount_outside 5 1).mono (by decide)).step (.setSlv _ _))
  have mismatched : s.slvIterationEnd (.once u) = State.slvServe 3 (State.slvHold
      (State.slvEvent { s.slvCount 5 1 with slv := { (s.slvCount 5 1).slv with mismatch := true } } 0x0B05 j.tag u.toNat 0)
        { j with mismatches := 1 }) := by
    unfold State.slvIterationEnd
    rw [active]
    dsimp only
    rw [if_neg live]
    simp only [State.checkFound, State.slvMismatch, first, Bool.false_and, Bool.false_eq_true, if_false, if_true, Nat.zero_add]
  refine ⟨_, mismatched, ?_⟩
  unfold State.slvHold
  generalize State.slvEvent { s.slvCount 5 1 with slv := { (s.slvCount 5 1).slv with mismatch := true } } 0x0B05 j.tag u.toNat 0 = t
    at noted ⊢
  dsimp only
  rw [window, if_neg Bool.false_ne_true, State.slvServe_of_off]
  · exact ⟨rfl, congrArg Solver.mismatch noted.slv, (congrArg (fun x : Solver => x.counts[5]) noted.slv).trans counted,
      (moved.step noted).step (.setSlv _ _)⟩
  · exact (congrArg Solver.queueEn noted.slv).trans off

/-! ## The service window (R268) -/

/-- The graph job, where there is one, noted as suspended. -/
def State.graphFlagged (s : State) : State := { s with slv := { s.slv with graph := s.slv.graph.map fun (j : SlvJob) => j.flag 8 } }

theorem State.graphFlagged_outside (s : State) : s.Outside [.slv] s.graphFlagged := .setSlv s _

/-- A window that is over suspends its job and ends its operation. -/
theorem State.slvSuspend_spec {s : State} {r : Running} (service : s.slvService = some r) :
    (s.slvSuspend.seq .slv).running = (s.seq .slv).running.filter (fun x => decide (x.op.opcode ≠ 0x11))
      ∧ s.slvSuspend.slv = { s.slv with graph := s.slv.graph.map fun (j : SlvJob) => j.flag 8 }
      ∧ (∀ f, r.op.sets = some f → s.slvSuspend.flag f = some .set)
      ∧ s.slvSuspend.mem = (match s.slv.graph with
        | some j => if j.iterating then (s.keepFactor j).mem else s.mem
        | none => s.mem) := by
  obtain ⟨k, kept, moved, mem⟩ : ∃ k : State, s.slvSuspend = k.graphFlagged.slvOpDone 0x11 ∧ s.Outside [.evr, .mem, .sram] k
      ∧ k.mem = (match s.slv.graph with
        | some j => if j.iterating then (s.keepFactor j).mem else s.mem
        | none => s.mem) := by
    unfold State.slvSuspend
    cases graph : s.slv.graph with
    | none => exact ⟨s, rfl, .refl s _, rfl⟩
    | some j =>
      refine ⟨if j.iterating then s.keepFactor j else s, rfl, .ite (s.keepFactor_outside j) (.refl s _), ?_⟩
      dsimp only
      split <;> rfl
  have slv : k.graphFlagged.slv = { s.slv with graph := s.slv.graph.map fun (j : SlvJob) => j.flag 8 } := by
    rw [← moved.slv]
    rfl
  have whole := k.graphFlagged_outside
  rw [kept]
  generalize k.graphFlagged = flagged at slv whole
  have seq : flagged.seq .slv = s.seq .slv := State.seq_of_sched (whole.sched.trans moved.sched) .slv
  have found : (flagged.seq .slv).running.find? (fun r => decide (r.op.opcode = 0x11)) = some r := by
    rw [seq]
    exact service
  obtain ⟨running, flags⟩ := State.slvOpDone_spec found
  have done := State.slvOpDone_outside flagged 0x11
  exact ⟨by rw [running, seq], done.slv.trans slv, flags, done.mem.trans (whole.mem.trans mem)⟩

/-! ## Graph jobs (R258, R268) -/

theorem State.addClosure_outside (s : State) (a : Nat) : s.Outside [.mem, .free] (s.addClosure a) := by
  unfold State.addClosure
  dsimp only
  split
  · exact .refl s _
  · have drawn : ∀ n k : Nat, s.Outside [.mem, .free] ((s.drawMany n).2.drawMany k).2 := fun n k =>
      ((Outside.setFree s _).trans (.setFree _ _)).mono (by decide)
    exact ((drawn _ _).step (State.writeMem_outside _ _ _)).step (State.writeMem_outside _ _ _)

theorem State.drawMany_outside {s t : State} {n : Nat} {draws : Nat → Nat} (drawn : s.drawMany n = (draws, t)) :
    s.Outside [.mem, .free] t := by
  have moved : s.Outside [.mem, .free] (s.drawMany n).2 := (Outside.setFree s _).mono (by decide)
  rwa [drawn] at moved

theorem State.writeGraph_outside (s : State) : s.Outside [.mem, .free] s.writeGraph.2 := by
  unfold State.writeGraph
  generalize drawn : s.drawMany 44 = draw
  obtain ⟨g, s₁⟩ := draw
  dsimp only
  generalize nodes : 58 * (2 + g 0 % 65535) = n
  generalize drawn₁ : s₁.drawMany n = draw
  obtain ⟨v, s₂⟩ := draw
  dsimp only
  generalize edges : 227 * (1 + g 1 % 262144) = n
  generalize drawn₂ : s₂.drawMany n = draw
  obtain ⟨e, s₃⟩ := draw
  dsimp only
  generalize scheduleDraws (2 + g 0 % 65535) = n
  generalize drawn₃ : s₃.drawMany n = draw
  obtain ⟨c, s₄⟩ := draw
  dsimp only
  have moved := (((State.drawMany_outside drawn).trans (State.drawMany_outside drawn₁)).trans (State.drawMany_outside drawn₂)).trans
    (State.drawMany_outside drawn₃)
  exact (((moved.mono (by decide)).step (State.writeMem_outside _ _ _)).step (State.writeMem_outside _ _ _)).step
    (State.writeMem_outside _ _ _)

/-- Where no graph schedule waits, a new one enters an empty queue or waits behind what is there. -/
theorem State.graphCompiled_new {s : State} (ready : s.isReady = true) (runs : s.dev.cpHalted[1] = false) (idle : s.slv.waiting = none) :
    ∃ (t : State) (a : Nat), s.graphCompiled = t
      ∧ (s.slv.graph = none → s.slv.queue.getLsbD 0 = false → t.slv = { s.slv with queue := BitVec.ofNat 64 (a + 1) })
      ∧ (s.slv.queue.getLsbD 0 = true → t.slv = { s.slv with waiting := some a }) := by
  unfold State.graphCompiled
  rw [if_neg (by simp [ready, runs]), idle]
  dsimp only
  have moved := s.writeGraph_outside
  generalize s.writeGraph = written at moved
  obtain ⟨a, u⟩ := written
  have slv : u.slv = s.slv := moved.slv
  refine ⟨_, a, rfl, fun empty clear => ?_, fun set => ?_⟩
  · rw [if_neg (by rw [slv, empty, clear]; exact Bool.false_ne_true)]
    unfold State.enqueueGraph
    dsimp only
    rw [(State.writeMem_outside u _ _).slv, slv]
  · rw [if_pos (by simp [slv, set]), ← slv]

/-! ## Deadlines (R265) -/

theorem State.slvElapsed_outside (s : State) (j : SlvJob) : s.Outside [.slv, .evr] (s.slvElapsed j).2 := by
  unfold State.slvElapsed
  dsimp only
  split
  · have counted : s.Outside [.slv, .evr] (s.slvCount 3 1) := (s.slvCount_outside 3 1).mono (by decide)
    exact .ite counted (counted.step (State.slvEvent_outside _ _ _ _ _))
  · exact .refl s _

/-- What an iteration's time, when it is over, leaves of the solver. -/
theorem State.slvElapsed_keeps (s : State) (j : SlvJob) : (s.slvElapsed j).2.slv.done = s.slv.done
    ∧ (s.slvElapsed j).2.slv.counts[0] = s.slv.counts[0] ∧ (s.slvElapsed j).2.slv.counts[2] = s.slv.counts[2]
    ∧ (s.slvElapsed j).1.graph = j.graph := by
  have counted : (s.slvCount 3 1).slv.done = s.slv.done ∧ (s.slvCount 3 1).slv.counts[0] = s.slv.counts[0]
      ∧ (s.slvCount 3 1).slv.counts[2] = s.slv.counts[2] :=
    ⟨rfl, State.slvCount_counts _ 3 0 _ (by decide), State.slvCount_counts _ 3 2 _ (by decide)⟩
  unfold State.slvElapsed
  generalize s.slvCount 3 1 = c at counted
  dsimp only
  split
  · split
    · exact ⟨counted.1, counted.2.1, counted.2.2, rfl⟩
    · have slv : ∀ x y z : Nat, (c.slvEvent 0x0B03 x y z).slv = c.slv := fun x y z => (State.slvEvent_outside c _ _ _ _).slv
      exact ⟨(congrArg Solver.done (slv _ _ _)).trans counted.1,
        (congrArg (fun x : Solver => x.counts[0]) (slv _ _ _)).trans counted.2.1,
        (congrArg (fun x : Solver => x.counts[2]) (slv _ _ _)).trans counted.2.2, rfl⟩
  · exact ⟨rfl, rfl, rfl, rfl⟩

/-- A window job whose deadline has passed is abandoned. -/
theorem State.slvMiss_window {s : State} {j : SlvJob} (held : s.slv.window = some j) (iterating : j.iterating = true)
    (late : j.deadline < s.dtNs) : s.slvMiss = s.slvAbandon j := by
  unfold State.slvMiss
  dsimp only
  rw [held, Option.filter_some, if_pos (by simp [iterating, late])]

end Sys2Proof.Machine

open Sys2Proof Sys2Proof.Machine

/-- Settles O52: with the queue disabled an iteration's end is that of the window job alone. -/
theorem solverJobsIterate : Obligations.SolverJobsIterate := by
  intro s
  refine ⟨fun j off held window iterating due short => ?_, fun chk empty idle => ?_, fun j held window iterating late => ?_,
    fun r p img ops service found => ?_, fun a ready runs waiting => ?_, fun ready runs idle => ?_, fun down => ?_⟩
  · intro it
    have clean := State.slvIterationEnd_clean held window iterating due short
    have graph : it.1.graph = false := (SlvJob.iterate_graph _ _).trans window
    change s.slvIterationEnd .clean = State.slvServe 3 (if it.2 = true then s.slvClose it.1 none false else s.slvGuard it.1) at clean
    refine ⟨fun stop => ?_, fun goes room => ?_, fun u first _ => ?_⟩
    · rw [stop, if_pos rfl] at clean
      obtain ⟨empty, queue, count, now, done⟩ := State.slvClose_clean (s := s) graph
      rw [State.slvServe_of_off (queue.trans off)] at clean
      refine ⟨_, congrArg Host.Outcome.next clean, empty, count, fun refused => ?_,
        fun accepted => ⟨it.1.result now, ?_, graph, rfl, rfl, rfl, rfl⟩⟩
      · exact done.trans (if_neg (by omega))
      · exact done.trans (if_pos accepted)
    · rw [goes, if_neg Bool.false_ne_true] at clean
      rw [State.slvServe_guard graph room off] at clean
      exact congrArg Host.Outcome.next clean
    · obtain ⟨t, eq, held', flagged, count, moved⟩ := State.slvIterationEnd_once u off held window iterating due first
      exact ⟨t, congrArg Host.Outcome.next eq, held', flagged, count,
        moved.restored (fun p mem => by cases p <;> simp_all) (fun p out => by cases p <;> simp_all)⟩
  · have inactive : s.slvActive = none := by
      unfold State.slvActive
      rw [empty, idle, ite_self]
    have unended : s.slvIterationEnd chk = s := by
      unfold State.slvIterationEnd
      rw [inactive]
    have unmissed : s.slvMiss = s := by
      unfold State.slvMiss
      dsimp only
      rw [empty, idle]
      rfl
    exact ⟨congrArg Host.Outcome.next unended, congrArg Host.Outcome.next unmissed⟩
  · obtain ⟨done, count0, count2, graph⟩ := s.slvElapsed_keeps { j with iterating := false }
    have abandoned := State.slvMiss_window held iterating late
    obtain ⟨empty, missed, counted2, counted0, kept⟩ :=
      State.slvClose_missed (s := (s.slvElapsed { j with iterating := false }).2) (graph.trans window)
    rw [count2] at counted2
    rw [count0] at counted0
    exact ⟨_, congrArg Host.Outcome.next abandoned, empty, missed, counted2, counted0, kept.trans done⟩
  · have ends : exec .slvWindowEnd s = .next (if img.param r.op.argB 2 < s.grain then s.slvSuspend else s) := by
      refine congrArg Host.Outcome.next ?_
      unfold State.slvWindowEnd
      rw [service, found]
    refine ⟨fun past => ?_, fun within => ?_⟩
    · obtain ⟨running, slv, flags, mem⟩ := State.slvSuspend_spec service
      exact ⟨_, ends.trans (by rw [if_pos past]), running, slv, flags, mem⟩
    · rw [ends, if_neg (Nat.not_lt.mpr within)]
  · have added : s.graphCompiled = s.addClosure a := by
      unfold State.graphCompiled
      rw [if_neg (by simp [ready, runs]), waiting]
    have moved := s.addClosure_outside a
    refine ⟨congrArg Host.Outcome.next added, ?_⟩
    generalize s.addClosure a = t at moved
    clear added
    exact moved.restored (fun p mem => by cases p <;> simp_all) (fun p out => by cases p <;> simp_all)
  · obtain ⟨t, a, eq, queued, waits⟩ := State.graphCompiled_new ready runs idle
    exact ⟨t, a, congrArg Host.Outcome.next eq, queued, waits⟩
  · refine congrArg Host.Outcome.next ?_
    unfold State.graphCompiled
    rw [if_pos (by simp [down])]

end

section
set_option Elab.async false
/-!
PROOFS. Rounds, ends and expiries of queries, and inserts.
-/
namespace Sys2Proof.Machine
open State (Outside)

/-! ## What the search engine keeps of its queries and counts -/

/-- A move of the search engine that ends no query: no number of a query is new, and `poisoned` and the counts of queries that ended
stay. -/
structure State.SearchKeeps (s t : State) : Prop where
  poisoned : t.ps.poisoned = s.ps.poisoned
  nums : ∀ n, (∀ x ∈ s.ps.queries, x.num ≠ n) → ∀ x ∈ t.ps.queries, x.num ≠ n
  ended : t.ps.counts[0] = s.ps.counts[0]
  expired : t.ps.counts[7] = s.ps.counts[7]

namespace State.SearchKeeps
variable {s t u : State}

theorem of_ps (same : t.ps = s.ps) : s.SearchKeeps t := by
  constructor
  · rw [same]
  · rw [same]
    exact fun _ h => h
  · exact congrArg (fun x : PlaceEngine => x.counts[0]) same
  · exact congrArg (fun x : PlaceEngine => x.counts[7]) same

theorem refl (s : State) : s.SearchKeeps s := of_ps rfl

theorem trans (first : s.SearchKeeps t) (second : t.SearchKeeps u) : s.SearchKeeps u where
  poisoned := second.poisoned.trans first.poisoned
  nums n absent := second.nums n (first.nums n absent)
  ended := second.ended.trans first.ended
  expired := second.expired.trans first.expired

theorem foldl {α : Type} (f : State → α → State) (step : ∀ (a : State) (x : α), a.SearchKeeps (f a x)) (l : List α) (s : State) :
    s.SearchKeeps (l.foldl f s) := by
  induction l generalizing s with
  | nil => exact refl s
  | cons x l ih => exact (step s x).trans (ih _)

end State.SearchKeeps
open State (SearchKeeps)

theorem State.psCount_outside (s : State) (i : Fin 8) (n : Nat) : s.Outside [.ps] (s.psCount i n) := .setPs s _

theorem State.psCount_counts (s : State) (i : Fin 8) (k n : Nat) (small : k < 8) :
    (s.psCount i n).ps.counts[k] = if k = i.val then countUp s.ps.counts[k] n else s.ps.counts[k] := by
  by_cases same : k = i.val
  · subst same
    simp [State.psCount]
  · simp [State.psCount, same, Vector.getElem_set_ne, Ne.symm same]

theorem State.psCount_keeps (s : State) {i : Fin 8} (n : Nat) (other : i ≠ 0 ∧ i ≠ 7) : s.SearchKeeps (s.psCount i n) where
  poisoned := rfl
  nums _ absent := absent
  ended := (State.psCount_counts s i 0 n (by decide)).trans (if_neg fun h => other.1 (Fin.ext h.symm))
  expired := (State.psCount_counts s i 7 n (by decide)).trans (if_neg fun h => other.2 (Fin.ext h.symm))

theorem State.updQuery_outside (s : State) (n : Nat) (f : PsQuery → PsQuery) : s.Outside [.ps] (s.updQuery n f) := .setPs s _

theorem State.updQuery_keeps (s : State) {n : Nat} {f : PsQuery → PsQuery} (same : ∀ x, (f x).num = n ∨ (f x).num = x.num) :
    s.SearchKeeps (s.updQuery n f) where
  poisoned := rfl
  nums k absent x mem := by
    obtain ⟨y, listed, rfl⟩ := List.mem_map.mp mem
    split
    next hit =>
      have kept : (f y).num = y.num := (same y).elim (fun h => h.trans hit.symm) id
      rw [kept]
      exact absent y listed
    next => exact absent y listed
  ended := rfl
  expired := rfl

/-- A change of a query over a change of it. -/
theorem State.updQuery_updQuery (s : State) (q : PsQuery) (f : PsQuery → PsQuery) :
    ((s.updQuery q.num fun _ => q).updQuery q.num f) = s.updQuery q.num fun _ => f q := by
  unfold State.updQuery
  dsimp only
  rw [List.map_map]
  congr 2
  refine List.map_congr_left fun x _ => ?_
  dsimp only [Function.comp_apply]
  split
  · exact if_pos rfl
  · rfl

theorem State.updIndex_keeps (s : State) (h : Nat) (f : PsIndex → PsIndex) : s.SearchKeeps (s.updIndex h f) :=
  ⟨rfl, fun _ absent => absent, rfl, rfl⟩

theorem State.psEvent_outside (s : State) (code a0 a1 a2 : Nat) : s.Outside [.evr] (s.psEvent code a0 a1 a2) := by
  unfold State.psEvent
  exact .ite (s.event_outside _ _ _ _ _) (.refl s _)

theorem State.askBlocks_keeps (s : State) (ix : PsIndex) (serial : Nat) (blocks : List Nat) : s.SearchKeeps (s.askBlocks ix serial blocks) := by
  unfold State.askBlocks
  dsimp only
  split
  · exact .refl s
  · exact (s.psCount_keeps _ (by decide)).trans (.of_ps rfl)

/-! ## A walk's rounds (R282, R294) -/

theorem State.flashRound_keeps (s : State) (q : PsQuery) (ix : PsIndex) : s.SearchKeeps (s.flashRound q ix) := by
  unfold State.flashRound
  split
  · exact s.updQuery_keeps fun _ => .inr rfl
  · exact (State.updQuery_keeps s fun _ => by exact .inr rfl).trans (State.askBlocks_keeps _ _ _ _)

theorem State.startWalk_keeps (s : State) (q : PsQuery) (ix : PsIndex) : s.SearchKeeps (s.startWalk q ix) := by
  unfold State.startWalk
  split
  · exact (s.updQuery_keeps fun _ => .inl rfl).trans (State.flashRound_keeps _ _ _)
  · exact s.updQuery_keeps fun _ => .inr rfl

theorem State.takeQuery_keeps (s : State) (q : PsQuery) : s.SearchKeeps (s.takeQuery q) := by
  unfold State.takeQuery
  split
  · exact .refl s
  · exact (s.updQuery_keeps fun _ => .inl rfl).trans (State.startWalk_keeps _ _ _)

theorem State.takeBatch_keeps (s : State) : s.SearchKeeps s.takeBatch := by
  unfold State.takeBatch
  split
  · exact .refl s
  · split
    · have begun : s.SearchKeeps { s with ps := { s.ps with batchMiss := false } } := ⟨rfl, fun _ absent => absent, rfl, rfl⟩
      exact begun.trans (.foldl _ State.takeQuery_keeps _ _)
    · exact .refl s

theorem State.roundOn_keeps (s : State) (q : PsQuery) (ix : PsIndex) : s.SearchKeeps (s.roundOn q ix) := by
  unfold State.roundOn
  exact (s.updQuery_keeps fun _ => .inl rfl).trans (State.flashRound_keeps _ _ _)

/-- A round after which no record is left to expand ends the walk. -/
theorem State.roundOn_last {s : State} {q : PsQuery} {ix : PsIndex} {w : List PsCand × List Nat}
    (expanded : expandRound (distTable ix ix.tables q.vec) (ix.flashAt q.epoch) q.l q.epoch q.round (q.queue, q.visited) = w)
    (last : nextRound w.1 (q.d 8 1) = []) : s.roundOn q ix
      = s.updQuery q.num fun _ => { q with queue := w.1, visited := w.2, round := [], walking := false } := by
  unfold State.roundOn State.psTables
  rw [expanded]
  unfold State.flashRound
  dsimp only
  rw [show PsQuery.d { q with queue := w.1, visited := w.2, round := [] } 8 1 = q.d 8 1 from rfl, last]
  exact s.updQuery_updQuery { q with queue := w.1, visited := w.2, round := [] } _

/-! ## The end of a query (R286, R287) -/

theorem State.psSpanEvents_outside (s : State) (ix : PsIndex) : s.Outside [.evr] (s.psSpanEvents ix) := by
  unfold State.psSpanEvents
  have noted : ∀ {t : State} (n code a0 a1 a2 : Nat), s.Outside [.evr] t →
      s.Outside [.evr] (if n = 0 then t else t.psEvent code a0 a1 a2) :=
    fun n code a0 a1 a2 moved => .ite moved (moved.step (State.psEvent_outside _ _ _ _ _))
  exact noted _ _ _ _ _ (noted _ _ _ _ _ (noted _ _ _ _ _ (noted _ _ _ _ _ (.refl s _))))

theorem State.completeJobs_keeps (status : Nat) (l : List Job) (u : State) :
    u.SearchKeeps (l.foldl (fun (s : State) (j : Job) => s.completeJob j status 0 0 0 0 s.dtNs) u) :=
  .foldl _ (fun t x => .of_ps (t.completeJob_outside x _ _ _ _ _ _).ps) _ _

theorem State.freeIndex_keeps (s : State) (h : Nat) : s.SearchKeeps (s.freeIndex h) := by
  unfold State.freeIndex
  dsimp only
  have noted : s.SearchKeeps ((s.psIndex h).toList.foldl State.psSpanEvents s) :=
    .foldl _ (fun t x => .of_ps (t.psSpanEvents_outside x).ps) _ _
  refine noted.trans ?_
  generalize (s.psIndex h).toList.foldl State.psSpanEvents s = u
  have dropped : u.SearchKeeps { u with
      ps := { u.ps with indexes := u.ps.indexes.map (fun (x : Option PsIndex) => x.filter fun i => decide (i.handle ≠ h)) }
      mt := { u.mt with
        queue := u.mt.queue.filter fun r => match r.work with | .spill g | .nodeBlocks g _ _ => decide (g ≠ h) | _ => true
        pages := u.mt.pages.filter fun p => match p.owner with | .shard g _ | .location g => decide (g ≠ h) | _ => true
        groups := u.mt.groups.filter fun (g : WriteGroup) => decide (g.kind ≠ GroupKind.spill h) } } :=
    ⟨rfl, fun _ absent => absent, rfl, rfl⟩
  exact (dropped.trans (State.completeJobs_keeps errArg _ _)).trans (State.completeJobs_keeps stOk _ _)

theorem State.destroyIdle_keeps (s : State) (h : Nat) : s.SearchKeeps (s.destroyIdle h) := by
  unfold State.destroyIdle
  split
  · exact .refl s
  · split
    · exact s.freeIndex_keeps h
    · exact .refl s

/-- The state that a query has left, with what was asked of the mover for it alone. -/
def State.queryLeft (s : State) (n : Nat) : State :=
  let s := { s with ps := { s.ps with queries := s.ps.queries.filter fun x => decide (x.num ≠ n) } }
  { s with mt := { s.mt with queue := s.mt.queue.filter fun r =>
    match r.work with | .nodeBlocks h n bs => s.blocksWanted h n bs | _ => true } }

/-- The answer to a query that has left: its bytes and its completion, and the index freed that waited for it. -/
def State.queryAnswer (s : State) (q : PsQuery) (status n last : Nat) (bytes : List Byte) : State :=
  let s := if status = stShort then s.psCount 1 1 else s
  let s := match s.queryJob q.num with
    | none => s
    | some j =>
      let s := s.windowWrite j.mbx q.outOffset bytes
      s.completeJob j status n (q.epoch % 2 ^ 32) (q.epoch / 2 ^ 32) (if q.lastSeen then last else 0) s.dtNs
  s.destroyIdle (q.d 0 4)

theorem State.endQuery_eq (s : State) (q : PsQuery) (status : Nat) (entries : List Survivor) (recl : Option Nat) :
    ∃ last bytes, s.endQuery q status entries recl
      = ((s.queryLeft q.num).psCount 0 1).queryAnswer q status entries.length last bytes := ⟨_, _, rfl⟩

theorem State.queryAnswer_keeps (s : State) (q : PsQuery) (status n last : Nat) (bytes : List Byte) :
    s.SearchKeeps (s.queryAnswer q status n last bytes) := by
  have short : s.SearchKeeps (if status = stShort then s.psCount 1 1 else s) := by
    split
    · exact s.psCount_keeps 1 (by decide)
    · exact .refl s
  unfold State.queryAnswer
  generalize (if status = stShort then s.psCount 1 1 else s) = d at short
  refine (short.trans ?_).trans (State.destroyIdle_keeps _ _)
  split
  · exact .refl d
  · refine SearchKeeps.trans (.of_ps (d.windowWrite_outside _ _ _).ps) (.of_ps (State.completeJob_outside _ _ _ _ _ _ _ _).ps)

/-- A query that ends leaves the queries and is counted. -/
theorem State.endQuery_spec (s : State) (q : PsQuery) (status : Nat) (entries : List Survivor) (recl : Option Nat) :
    (s.endQuery q status entries recl).ps.poisoned = s.ps.poisoned
      ∧ (∀ x ∈ (s.endQuery q status entries recl).ps.queries, x.num ≠ q.num)
      ∧ (s.endQuery q status entries recl).ps.counts[0] = countUp s.ps.counts[0] 1
      ∧ (s.endQuery q status entries recl).ps.counts[7] = s.ps.counts[7] := by
  obtain ⟨last, bytes, eq⟩ := s.endQuery_eq q status entries recl
  have kept := State.queryAnswer_keeps ((s.queryLeft q.num).psCount 0 1) q status entries.length last bytes
  have absent : ∀ x ∈ ((s.queryLeft q.num).psCount 0 1).ps.queries, x.num ≠ q.num :=
    fun x mem => of_decide_eq_true (List.mem_filter.mp mem).2
  have counted := State.psCount_counts (s.queryLeft q.num) 0 0 1 (by decide)
  have uncounted := State.psCount_counts (s.queryLeft q.num) 0 7 1 (by decide)
  rw [eq]
  exact ⟨kept.poisoned, kept.nums _ absent, kept.ended.trans counted, kept.expired.trans uncounted⟩

/-- A query that ends, and the batch after it. -/
theorem State.endQuery_takeBatch (s : State) (q : PsQuery) (status : Nat) (entries : List Survivor) (recl : Option Nat) :
    (∀ x ∈ (s.endQuery q status entries recl).takeBatch.ps.queries, x.num ≠ q.num)
      ∧ (s.endQuery q status entries recl).takeBatch.ps.counts[0] = countUp s.ps.counts[0] 1
      ∧ (s.endQuery q status entries recl).takeBatch.ps.counts[7] = s.ps.counts[7] := by
  obtain ⟨_, absent, ended, expired⟩ := s.endQuery_spec q status entries recl
  have kept := (s.endQuery q status entries recl).takeBatch_keeps
  exact ⟨kept.nums _ absent, kept.ended.trans ended, kept.expired.trans expired⟩

/-! ## Blocks that landed (R294) -/

theorem State.psIndex_handle {s : State} {h : Nat} {ix : PsIndex} (found : s.psIndex h = some ix) : ix.handle = h := by
  obtain ⟨x, _, hit⟩ := List.exists_of_findSome?_eq_some found
  exact of_decide_eq_true (Option.filter_eq_some_iff.mp hit).2

/-- The unreadable ones of the blocks that a query waits for. -/
def State.lostBlocks (s : State) (ix : PsIndex) (serial : Nat) (bad : List Nat) : State :=
  bad.foldl (fun (s : State) b => if s.psIndex ix.handle = some ix then s.blockLost ix serial b else s) s

/-- The node blocks of a round. -/
def PsQuery.roundBlocks (q : PsQuery) (ix : PsIndex) : List Nat := (q.round.map fun i => i / ix.perBlock).eraseDups

/-- The blocks of a round landed: the unreadable ones are dealt with, and the round goes on while the index stands. -/
theorem State.blocksLanded_round {s t : State} {n : Nat} {bad : List Nat} {q : PsQuery} {ix : PsIndex}
    (found : s.ps.queries.find? (fun q => decide (q.num = n)) = some q) (index : s.psIndex (q.d 0 4) = some ix)
    (window : s.psWindow = true) (round : q.round ≠ []) (walking : q.scanning = false)
    (landed : (s.mt.queue.any fun r => match r.work with
      | .nodeBlocks h k bs => decide (h = ix.handle ∧ k = (ix.shardAt q.epoch).1) &&
          bs.any fun b => decide (b ∈ (q.round.map fun i => i / ix.perBlock).eraseDups)
      | _ => false) = false)
    (lost : s.lostBlocks ix (ix.shardAt q.epoch).1 (bad.filter fun b => decide (b ∈ q.roundBlocks ix)) = t) :
    s.blocksLanded n bad = if t.psIndex ix.handle ≠ some ix then t else t.roundOn q ix := by
  have mine : q.blocksOf ix = (q.round.map fun i => i / ix.perBlock).eraseDups := by
    unfold PsQuery.blocksOf
    rw [walking]
    rfl
  have some_ : ((q.round.map fun i => i / ix.perBlock).eraseDups).isEmpty = false := by
    obtain ⟨i, l, eq⟩ := List.exists_cons_of_ne_nil round
    rw [eq, List.map_cons, List.eraseDups_cons]
    rfl
  unfold State.blocksLanded
  rw [found]
  dsimp only
  rw [index]
  dsimp only
  rw [mine, window, some_, walking]
  refine (if_neg fun waits => Bool.false_ne_true (landed.symm.trans waits)).trans ?_
  rw [if_neg Bool.false_ne_true, ← lost]
  rfl

/-- No bad block is of the round. -/
theorem PsQuery.filter_roundBlocks {q : PsQuery} {ix : PsIndex} {bad : List Nat} (other : ∀ b ∈ bad, ∀ i ∈ q.round, i / ix.perBlock ≠ b) :
    bad.filter (fun b => decide (b ∈ q.roundBlocks ix)) = [] := by
  refine List.filter_eq_nil_iff.mpr fun b listed => ?_
  rw [decide_eq_true_eq]
  unfold PsQuery.roundBlocks
  rw [List.mem_eraseDups, List.mem_map]
  rintro ⟨i, mem, eq⟩
  exact other b listed i mem eq

theorem PsQuery.filter_roundBlock {q : PsQuery} {ix : PsIndex} {i : Nat} (mem : i ∈ q.round) :
    [i / ix.perBlock].filter (fun b => decide (b ∈ q.roundBlocks ix)) = [i / ix.perBlock] := by
  refine List.filter_eq_self.mpr fun b listed => ?_
  rw [List.mem_singleton.mp listed, decide_eq_true_eq]
  exact List.mem_eraseDups.mpr (List.mem_map.mpr ⟨i, mem, rfl⟩)

theorem State.poisonIndex_poisoned (s : State) (ix : PsIndex) (block : Nat) : (s.poisonIndex ix block).ps.poisoned = true := by
  have ended : ∀ (l : List PsQuery) (t : State), t.ps.poisoned = true →
      (l.foldl (fun (s : State) (q : PsQuery) => s.endQuery q errPoisoned [] none) t).ps.poisoned = true := by
    intro l
    induction l with
    | nil => exact fun _ h => h
    | cons q l ih => exact fun t h => ih _ ((t.endQuery_spec q errPoisoned [] none).1.trans h)
  unfold State.poisonIndex
  exact ended _ _ (congrArg PlaceEngine.poisoned (State.psEvent_outside _ _ _ _ _).ps)

/-- A block that cannot be read, of an index without a mirror. -/
theorem State.blockLost_poisoned {s : State} {ix : PsIndex} (bare : ix.mirror = false) (serial b : Nat) :
    (s.blockLost ix serial b).ps.poisoned = true := by
  unfold State.blockLost
  dsimp only
  rw [bare, if_neg Bool.false_ne_true]
  exact (State.takeBatch_keeps _).poisoned.trans (State.poisonIndex_poisoned _ _ _)

/-! ## Queries that complete (R283) -/

/-- The walks of a query that is not widened are over: it ends. -/
theorem State.queryWalked_ends {s : State} {q : PsQuery} {ix : PsIndex} (narrow : (q.d 10 2).testBit 0 = false)
    (scanned : (q.d 10 2).testBit 2 = false ∨ q.scanned = true) :
    ∃ (q' : PsQuery) (status : Nat) (entries : List Survivor) (recl : Option Nat), q'.num = q.num
      ∧ s.queryWalked q ix = (s.endQuery q' status entries recl).takeBatch := by
  have unscanned : ((q.d 10 2).testBit 2 && !q.scanned) = false := by
    rcases scanned with h | h
    · rw [h]
      rfl
    · rw [h, Bool.not_true, Bool.and_false]
  unfold State.queryWalked
  extract_lets table dram q' found k wide entries checked
  refine ⟨q', if found.length < k then stShort else stOk, entries, if (q'.d 10 2).testBit 2 then
    some ((entries.filter fun x => (exhaustive ix table q').any fun y => decide (y.record.id = x.record.id)).length) else none, rfl, ?_⟩
  rw [if_neg fun h => Bool.false_ne_true (narrow.symm.trans h.2.1)]
  refine (if_neg fun h => ?_)
  exact Bool.false_ne_true (unscanned.symm.trans h)

/-! ## Inserts (R288) -/

theorem backEdge_length (degree pending new : Nat) (a : List PsRec × Nat) (k : Nat) : (backEdge degree pending new a k).1.length = a.1.length := by
  unfold backEdge
  split
  · rfl
  · split
    · exact List.length_set
    · rfl

theorem backEdges_length (degree pending new : Nat) (l : List Nat) (a : List PsRec × Nat) :
    (l.foldl (backEdge degree pending new) a).1.length = a.1.length := by
  induction l generalizing a with
  | nil => rfl
  | cons k l ih => exact (ih _).trans (backEdge_length _ _ _ _ _)

theorem linkRecord_length (ix : PsIndex) (tables : List Byte) (table : List (List Nat)) (recs : List PsRec) (r : PsRec) (pending : Nat) :
    (linkRecord ix tables table recs r pending).1.length = recs.length + 1 := by
  unfold linkRecord
  dsimp only
  rw [backEdges_length, List.length_append]
  rfl

theorem State.updIndex_at {s : State} {i : Fin 16} {ix : PsIndex} (f : PsIndex → PsIndex) {h : Nat} (there : s.ps.indexes[i] = some ix)
    (handle : ix.handle = h) : (s.updIndex h f).ps.indexes[i] = some (f ix) := by
  unfold State.updIndex
  dsimp only
  rw [Fin.getElem_fin, Vector.getElem_map, ← Fin.getElem_fin, there, Option.map_some, if_pos handle]

theorem State.putShard_ps (s : State) (ix : PsIndex) (recs : List PsRec) :
    (s.putShard ix recs).ps = (s.updIndex ix.handle fun i => { i with dram := recs }).ps := by
  unfold State.putShard
  dsimp only
  split <;> rfl

theorem State.insertCounted_outside (s : State) (v : PsInsert) (id : Option Nat) : s.Outside [.fw] (s.insertCounted v id) := by
  unfold State.insertCounted
  split
  · exact .refl s _
  · split
    · exact .setFw s _
    · exact .refl s _

theorem State.noteVector_outside (s : State) (h obsDt id : Nat) : s.Outside [.fus, .sram, .mem] (s.noteVector h obsDt id) := by
  unfold State.noteVector
  have noted : s.Outside [.fus, .sram, .mem] { s with fus := { s.fus with vectors := mapSet s.fus.vectors h id } } :=
    (Outside.setFus s _).mono (by decide)
  dsimp only
  refine .ite noted ?_
  split
  · exact noted.step (.setSram _ _)
  · exact noted.step (State.putTable_outside _ _ _)

/-- The turn of inserts in a window: grains of the share are left, or no query can use the time. -/
theorem State.insertTurn_iff (s : State) : s.insertTurn = true ↔ ∃ (r : Running) (img : Image), s.psService = some (r, img)
    ∧ s.psWindow = true ∧ img.param (r.op.argB + 2) 1 = 0
    ∧ (s.ps.insertAt = some s.grain
      ∨ 100 * (s.ps.insertGrains + 1) ≤ img.param (r.op.argB + 3) 1 * (img.param r.op.argB 2 + 1 - s.ps.windowFrom)
      ∨ ((∀ q ∈ s.ps.queries, q.taken.isSome = true → q.scanning = true) ∧ s.queueOrder 0 = [])) := by
  unfold State.insertTurn
  cases service : s.psService with
  | none => exact ⟨nofun, fun ⟨_, _, h, _⟩ => absurd h nofun⟩
  | some x =>
    obtain ⟨r, img⟩ := x
    have queries : (!(s.ps.queries.any fun q => q.taken.isSome && !q.scanning)) = true
        ↔ ∀ q ∈ s.ps.queries, q.taken.isSome = true → q.scanning = true := by
      simp only [Bool.not_eq_true', List.any_eq_false, Bool.and_eq_true, not_and, Bool.not_eq_false]
    dsimp only
    rw [Bool.and_eq_true, Bool.and_eq_true, Bool.or_eq_true, Bool.and_eq_true, decide_eq_true_eq, decide_eq_true_eq, queries,
      List.isEmpty_iff]
    constructor
    · rintro ⟨⟨window, serve⟩, turn⟩
      rw [serve] at turn
      exact ⟨r, img, rfl, window, serve, by rwa [or_assoc] at turn⟩
    · rintro ⟨r', img', same, window, serve, turn⟩
      obtain ⟨rfl, rfl⟩ := Prod.mk.inj (Option.some.inj same)
      rw [serve, or_assoc]
      exact ⟨⟨window, rfl⟩, turn⟩

/-- The next vector of an index inserted: the queue, the next ID, the shard and the count. -/
theorem State.insertOne_spec {s : State} {i : Fin 16} {ix : PsIndex} (v : PsInsert) (there : s.ps.indexes[i] = some ix) :
    ∃ x : PsIndex, (s.insertOne ix v).ps.indexes[i] = some x ∧ x.queue = ix.queue.drop 1 ∧ x.nextId = ix.nextId + 1
      ∧ x.dram.length = ix.dram.length + 1 ∧ x.changed = true ∧ x.flash = ix.flash ∧ x.epoch = ix.epoch
      ∧ (s.insertOne ix v).ps.counts[3] = countUp s.ps.counts[3] 1 := by
  unfold State.insertOne
  extract_lets pending table r link edges s₁ s₂ s₃
  have length : link.1.length = ix.dram.length + 1 := linkRecord_length _ _ _ _ _ _
  have last : (s₃.insertCounted v (some ix.nextId)).ps = s₂.ps := by
    refine (State.insertCounted_outside _ _ _).ps.trans ?_
    change (if v.track = 0 then s₂ else s₂.noteVector v.track v.obsDt ix.nextId).ps = s₂.ps
    split
    · rfl
    · exact (State.noteVector_outside _ _ _ _).ps
  have counted : s₂.ps.counts[3] = countUp s.ps.counts[3] 1 := by
    have shard : s₁.ps.counts = s.ps.counts := by
      change (s.putShard ix link.1).ps.counts = s.ps.counts
      rw [State.putShard_ps]
      rfl
    refine (State.psCount_counts _ 5 3 _ (by decide)).trans ?_
    rw [if_neg (by decide), State.psCount_counts _ 3 3 _ (by decide), shard]
    rfl
  have linked : (s.putShard ix link.1).ps.indexes[i] = some { ix with dram := link.1 } := by
    rw [State.putShard_ps]
    exact State.updIndex_at _ there rfl
  have updated := State.updIndex_at (fun i : PsIndex => { i with
    nextId := i.nextId + 1, queue := i.queue.drop 1, changed := true, spanEdges := edges, insertRetried := false
    fresh := i.fresh ++ v.job.toList.map fun j => (ix.nextId, j) }) linked rfl
  rw [last]
  exact ⟨_, updated, rfl, rfl, length, rfl, rfl, rfl, counted⟩

/-- A vector that has its turn and finds room, in a clean insert. -/
theorem State.insertDone_clean {s : State} {i : Fin 16} {ix : PsIndex} {v : PsInsert} {vs : List PsInsert} (there : s.ps.indexes[i] = some ix)
    (queue : ix.queue = v :: vs) (turn : s.insertTurn = true) (fits : s.insertFits = true) (runs : s.partPaused ix.part = false)
    (sound : ix.poisoned = false) (room : ix.dramCount < ix.dramCap) : s.insertDone i .clean = s.insertWork.insertOne ix v := by
  unfold State.insertDone
  rw [there]
  dsimp only
  rw [queue]
  dsimp only
  rw [turn, fits, sound, runs, if_neg (by decide), if_neg (Nat.not_le.mpr room)]
  rfl

end Sys2Proof.Machine

open Sys2Proof Sys2Proof.Machine

/-- Settles O53: what a query or an insert leaves of the engine is read off after every step of it. -/
theorem placeSearchProgresses : Obligations.PlaceSearchProgresses := by
  intro s
  refine ⟨fun r img service => ?_, fun n q ix found index => ?_, fun i ix v vs there queue turn fits runs sound room => ?_, ?_,
    fun i chk idle => ?_⟩
  · have ends : exec .psWindowEnd s = .next (if img.param r.op.argB 2 < s.grain then
        (s.onSeq .ps fun q => { q with running := q.running.filter fun x => decide (x.op.opcode ≠ 0x10) }).setOnDone r.op else s) := by
      refine congrArg Host.Outcome.next ?_
      unfold State.psWindowEnd
      rw [service]
    refine ⟨fun past => ⟨_, ends.trans (by rw [if_pos past]), ?_, ?_, fun f sets => State.setOnDone_flag sets⟩, fun within => ?_⟩
    · rw [State.seq_of_sched (State.setOnDone_outside _ _).sched, State.seq_onSeq_self]
    · exact (State.setOnDone_outside _ _).ps.trans (s.onSeq_outside _ _).ps
    · rw [ends, if_neg (Nat.not_lt.mpr within)]
  · have number : q.num = n := by simpa using List.find?_some found
    have handle : ix.handle = q.d 0 4 := State.psIndex_handle index
    have same : s.psIndex ix.handle = some ix := handle ▸ index
    have idle : s.psWindow = false → ∀ chk bad, exec (.psQueryComplete n chk) s = .next s ∧ exec (.psFlashBlocksLanded n bad) s = .next s := by
      refine fun off chk bad => ⟨congrArg Host.Outcome.next ?_, congrArg Host.Outcome.next ?_⟩
      · unfold State.queryDone
        rw [found]
        dsimp only
        rw [index]
        dsimp only
        rw [off]
        rfl
      · unfold State.blocksLanded
        rw [found]
        dsimp only
        rw [index]
        dsimp only
        rw [off]
        rfl
    refine ⟨fun window round walking landed => ⟨fun bad other => ?_, fun i mem bare => ?_⟩, fun window taken walked narrow still scanned => ?_,
      idle, fun service late => ?_, fun early => ?_⟩
    · intro w last
      have lost : s.lostBlocks ix (ix.shardAt q.epoch).1 (bad.filter fun b => decide (b ∈ q.roundBlocks ix)) = s := by
        rw [PsQuery.filter_roundBlocks other]
        rfl
      have run := State.blocksLanded_round found index window round walking landed lost
      rw [if_neg (not_not_intro same), State.roundOn_last (w := w) rfl last] at run
      subst number
      exact ⟨_, congrArg Host.Outcome.next run, rfl, rfl⟩
    · have lost : s.lostBlocks ix (ix.shardAt q.epoch).1 ([i / ix.perBlock].filter fun b => decide (b ∈ q.roundBlocks ix))
          = s.blockLost ix (ix.shardAt q.epoch).1 (i / ix.perBlock) := by
        rw [PsQuery.filter_roundBlock mem]
        exact if_pos same
      have run := State.blocksLanded_round found index window round walking landed lost
      have poisoned := State.blockLost_poisoned (s := s) bare (ix.shardAt q.epoch).1 (i / ix.perBlock)
      refine ⟨_, congrArg Host.Outcome.next run, ?_⟩
      split
      · exact poisoned
      · exact (State.roundOn_keeps _ _ _).poisoned.trans poisoned
    · obtain ⟨q', status, entries, recl, number', ends⟩ := State.queryWalked_ends (s := s) (ix := ix) narrow scanned
      have run : s.queryDone n .clean = s.queryWalked q ix := by
        unfold State.queryDone
        rw [found]
        dsimp only
        rw [index]
        dsimp only
        rw [window, Option.isNone_eq_false_iff.mpr taken, walked, still]
        rfl
      obtain ⟨absent, ended, _⟩ := s.endQuery_takeBatch q' status entries recl
      rw [number', number] at absent
      exact ⟨_, congrArg Host.Outcome.next (run.trans ends), ended, absent⟩
    · have run : exec (.psQueryExpired n) s = .next (s.expireQuery q).takeBatch := by
        refine congrArg Host.Outcome.next ?_
        rw [found]
        dsimp only
        rw [service, late]
        rfl
      obtain ⟨absent, ended, expired⟩ := State.endQuery_takeBatch
        ((s.updIndex (q.d 0 4) fun i => { i with spanExpired := i.spanExpired + 1 }).psCount 7 1) q errDeadline [] none
      rw [number] at absent
      rw [State.psCount_counts _ _ 7 _ (by decide)] at expired
      rw [State.psCount_counts _ _ 0 _ (by decide)] at ended
      exact ⟨_, run, expired, ended, absent⟩
    · refine congrArg Host.Outcome.next ?_
      rw [found]
      dsimp only
      rw [early, Bool.and_false]
      rfl
  · have run := State.insertDone_clean there queue turn fits runs sound room
    obtain ⟨x, there', queue', rest⟩ := State.insertOne_spec (s := s.insertWork) v there
    rw [queue] at queue'
    exact ⟨_, x, congrArg Host.Outcome.next run, there', queue', rest⟩
  · exact s.insertTurn_iff
  · refine congrArg Host.Outcome.next ?_
    unfold State.insertDone
    split
    · rfl
    next ix there =>
      split
      · rfl
      · refine if_pos ?_
        rcases idle with off | off | off
        · exact absurd (there.symm.trans off) nofun
        · rw [off]
          rfl
        · rw [off, Bool.not_false, Bool.or_true]
          rfl

end

section
set_option Elab.async false
/-!
PROOFS. The mover, the flash translation layer and the patrol scrub.
-/
namespace Sys2Proof.Machine
open State (Outside)

/-! ## The mover's order (R310) -/

/-- The first request: a held one where there is one, else one of the lowest class. -/
theorem firstReq_order {ok : MoverReq → Bool} {q : List MoverReq} {r : MoverReq} (first : firstReq ok q = some r) :
    (∀ x ∈ q, ok x = true → x.held = true → r.held = true) ∧ (r.held = false → ∀ x ∈ q, ok x = true → r.cls ≤ x.cls) := by
  unfold firstReq at first
  cases left : q.find? (fun r => r.held && ok r) with
  | some y =>
    rw [left, Option.some_or] at first
    have held : r.held = true := by
      have found := List.find?_some left
      rw [Option.some.inj first, Bool.and_eq_true] at found
      exact found.1
    exact ⟨fun _ _ _ _ => held, fun h => absurd (held.symm.trans h) nofun⟩
  | none =>
    rw [left, Option.none_or] at first
    refine ⟨fun x mem fits held => ?_, fun _ x mem fits => ?_⟩
    · exact absurd (by rw [held, fits]; rfl) (List.find?_eq_none.mp left x mem)
    · obtain ⟨below, c, above, split, found, unfound⟩ := List.findSome?_eq_some_iff.mp first
      have cls : r.cls = c := by
        have h := List.find?_some found
        rw [Bool.and_eq_true, decide_eq_true_eq] at h
        exact h.1
      refine Fin.not_lt.mp fun lower => ?_
      have before : x.cls ∈ below := by
        have sorted : (below ++ c :: above).Pairwise (· < ·) := split ▸ List.pairwise_lt_finRange 5
        have listed : x.cls ∈ below ++ c :: above := split ▸ List.mem_finRange x.cls
        rcases List.mem_append.mp listed with h | h
        · exact h
        · rcases List.mem_cons.mp h with same | after
          · exact absurd lower (by rw [cls, same]; exact Fin.lt_irrefl _)
          · have upper := (List.pairwise_cons.mp (List.pairwise_append.mp sorted).2.1).1 _ after
            exact absurd (cls ▸ lower) (Fin.not_lt.mpr (Fin.le_of_lt upper))
      exact absurd (by rw [fits, Bool.and_true, decide_eq_true_eq]) (List.find?_eq_none.mp (unfound _ before) x mem)

theorem MoverReq.ready_of_fetched {r : MoverReq} (fetched : r.fetch = 0) : r.ready = true := by
  unfold MoverReq.ready
  rw [decide_eq_true fetched, Bool.true_or]

theorem MoverReq.not_ready {r : MoverReq} (waits : r.fetch ≠ 0) (other : ∀ key, r.work ≠ .acreFill key) : r.ready = false := by
  unfold MoverReq.ready
  rw [decide_eq_false waits, Bool.false_or]
  split
  next key fill => exact absurd fill (other key)
  · rfl

/-- The transfer of a request that is there, within the window. -/
theorem State.transferDone_moves {s : State} {w : MvWindow} {r : MoverReq} {n : Nat} (window : s.mt.window = some w)
    (first : firstReq (fun r => w.classMask.testBit r.cls.val) s.mt.queue = some r) (there : r.fetch = 0) (open_ : s.grain ≤ w.endGrain)
    (size : min r.bytes r.unit = n) (budget : n ≤ w.left) {r' : Option MoverReq}
    (left : (if n < r.bytes then some { r with bytes := r.bytes - n } else none) = r') : s.transferDone =
      if r'.isNone then State.moverWork { s with mt := { s.mt with
          window := some { w with left := w.left - n }, mvBytes := countUp s.mt.mvBytes n, queue := replaceReq r r' s.mt.queue } } r.work
      else { s with mt := { s.mt with
          window := some { w with left := w.left - n }, mvBytes := countUp s.mt.mvBytes n, queue := replaceReq r r' s.mt.queue } } := by
  have may : ¬ ((!r.ready) = true ∨ w.endGrain < s.grain ∨ w.left < n) := by
    rw [MoverReq.ready_of_fetched there]
    rintro (h | h | h)
    · exact absurd h nofun
    · omega
    · omega
  unfold State.transferDone
  rw [window]
  dsimp only
  rw [first]
  dsimp only
  rw [size, if_neg may, left]

theorem State.transferDone_waits {s : State} {w : MvWindow} {r : MoverReq} (window : s.mt.window = some w)
    (first : firstReq (fun r => w.classMask.testBit r.cls.val) s.mt.queue = some r)
    (waits : w.endGrain < s.grain ∨ w.left < min r.bytes r.unit ∨ (r.fetch ≠ 0 ∧ ∀ key, r.work ≠ .acreFill key)) :
    s.transferDone = s := by
  have may : (!r.ready) = true ∨ w.endGrain < s.grain ∨ w.left < min r.bytes r.unit := by
    rcases waits with h | h | ⟨waits, other⟩
    · exact .inr (.inl h)
    · exact .inr (.inr h)
    · rw [MoverReq.not_ready waits other]
      exact .inl rfl
  unfold State.transferDone
  rw [window]
  dsimp only
  rw [first]
  exact if_pos may

/-! ## Flash reads (R316, R322) -/

/-- A read of the first copy of a page whose epoch a key slot holds is what the part gave. -/
theorem State.readResult_known {s : State} {ns : Fin 5} {c : PageCopy} (known : s.sec.keys[ns].reads c.epoch = true) (res : FlashRead) :
    s.readResult ns (some c) res = res := by
  unfold State.readResult
  rw [Option.all_some, known]
  rfl

theorem State.updBlock_queue (s : State) (die block : Nat) (f : FlashBlock → FlashBlock) : (s.updBlock die block f).mt.queue = s.mt.queue
    ∧ (s.updBlock die block f).mt.objects = s.mt.objects ∧ (s.updBlock die block f).mt.fcUncorrectable = s.mt.fcUncorrectable
    ∧ (s.updBlock die block f).mt.fcRetries = s.mt.fcRetries ∧ (s.updBlock die block f).mt.groups = s.mt.groups
    ∧ (s.updBlock die block f).mt.goodBlocks = s.mt.goodBlocks ∧ (s.updBlock die block f).mt.pages = s.mt.pages := by
  unfold State.updBlock
  split <;> exact ⟨rfl, rfl, rfl, rfl, rfl, rfl, rfl⟩

/-- The read that ends, noted with the block of the copy that was read. -/
def State.readNoted (s : State) (copy : Option PageCopy) (res : FlashRead) : State :=
  let s := match copy with
    | some c => s.updBlock c.die c.block fun b =>
      { b with reads := b.reads + 1, degraded := b.degraded || decide (res = FlashRead.retried ∨ res = FlashRead.worn) }
    | none => s
  if res = FlashRead.retried ∨ res = FlashRead.failed then { s with mt := { s.mt with fcRetries := countUp s.mt.fcRetries 1 } } else s

/-- What a request gets of a read that ended so, with the mirror copy where there is one. -/
def State.readFound (s : State) (r : MoverReq) (page : Option FlashPage) (lpn : Nat) (ns : Fin 5) (mirrored : Bool) (res : FlashRead) : State :=
  match res with
  | .decoded | .worn | .retried =>
    let s := { s with mt := { s.mt with
      queue := replaceReq r (some { r with fetch := r.fetch - 1, fetched := true, onMirror := false }) s.mt.queue } }
    match page with
    | some p => if r.onMirror then s.repairPage p else s
    | none => s
  | .failed | .badCrc | .badEpoch =>
    let s := s.flashLost ns lpn (match res with | .badCrc => 1 | .badEpoch => 2 | _ => 0)
    if mirrored then { s with mt := { s.mt with queue := replaceReq r (some { r with onMirror := true }) s.mt.queue } }
    else s.pageLost r lpn

theorem State.readDone_eq {s : State} {w : MvWindow} {r : MoverReq} (window : s.mt.window = some w) (open_ : s.grain ≤ w.endGrain)
    (first : firstReq (fun r => w.classMask.testBit r.cls.val && decide (0 < r.fetch)) s.mt.queue = some r) (res : FlashRead)
    {page : Option FlashPage} (found : s.fetchPage r = page) {ns : Fin 5} (space : (page.map (·.ns)).getD r.partition.castSucc = ns)
    {copy : Option PageCopy} (held : (page.bind fun p => p.copyOf r.onMirror) = copy) : s.readDone res =
      (s.readNoted copy (s.readResult ns copy res)).readFound r page ((page.map (·.lpn)).getD 0) ns
        (!r.onMirror && (page.bind fun p => p.copyOf true).isSome) (s.readResult ns copy res) := by
  subst found space held
  unfold State.readDone
  rw [window]
  dsimp only
  rw [first]
  dsimp only
  rw [if_neg (Nat.not_lt.mpr open_)]
  rfl

section
variable {s : State} {w : MvWindow} {r : MoverReq} {p : FlashPage} {c : PageCopy} (window : s.mt.window = some w)
  (open_ : s.grain ≤ w.endGrain)
  (first : firstReq (fun r => w.classMask.testBit r.cls.val && decide (0 < r.fetch)) s.mt.queue = some r) (bare : r.onMirror = false)
  (page : s.fetchPage r = some p) (copy : p.copyOf false = some c) (known : s.sec.keys[p.ns].reads c.epoch = true)
include window open_ first bare page copy known

theorem State.readDone_decoded : s.readDone .decoded = (s.readNoted (some c) .decoded).readFound r (some p) p.lpn p.ns
    (p.copyOf true).isSome .decoded := by
  rw [State.readDone_eq window open_ first .decoded page (ns := p.ns) rfl (copy := some c) (by rw [bare]; exact copy),
    State.readResult_known known, bare]
  rfl

theorem State.readDone_failed : s.readDone .failed = (s.readNoted (some c) .failed).readFound r (some p) p.lpn p.ns
    (p.copyOf true).isSome .failed := by
  rw [State.readDone_eq window open_ first .failed page (ns := p.ns) rfl (copy := some c) (by rw [bare]; exact copy),
    State.readResult_known known, bare]
  rfl

end

theorem State.readNoted_outside (s : State) (copy : Option PageCopy) (res : FlashRead) : s.Outside [.mt] (s.readNoted copy res) := by
  unfold State.readNoted
  cases copy with
  | none => exact .ite (.setMt s _) (.refl s _)
  | some c => exact .ite ((s.updBlock_outside _ _ _).step (.setMt _ _)) (s.updBlock_outside _ _ _)

/-- A read that ends changes a block's record, and the count of retries where it took them. -/
theorem State.readNoted_spec (s : State) (c : PageCopy) (res : FlashRead) : (s.readNoted (some c) res).mt.queue = s.mt.queue
    ∧ (s.readNoted (some c) res).mt.objects = s.mt.objects ∧ (s.readNoted (some c) res).mt.fcUncorrectable = s.mt.fcUncorrectable
    ∧ (res = FlashRead.failed → (s.readNoted (some c) res).mt.fcRetries = countUp s.mt.fcRetries 1) := by
  obtain ⟨queue, objects, lost, retries, _⟩ := s.updBlock_queue c.die c.block fun b =>
    { b with reads := b.reads + 1, degraded := b.degraded || decide (res = FlashRead.retried ∨ res = FlashRead.worn) }
  unfold State.readNoted
  dsimp only
  split
  · exact ⟨queue, objects, lost, fun _ => by rw [retries]⟩
  next whole => exact ⟨queue, objects, lost, fun failed => absurd (.inr failed) whole⟩

theorem State.flashLost_spec (s : State) (ns : Fin 5) (lpn cause : Nat) :
    (s.flashLost ns lpn cause).mt = { s.mt with fcUncorrectable := countUp s.mt.fcUncorrectable 1, flashUe := true } := by
  unfold State.flashLost
  dsimp only
  split
  · exact (State.event_outside _ _ _ _ _ _).mt
  · rfl

/-- A move of the memory tiers that counts no read and sets no bit of one. -/
structure State.ReadsStay (s t : State) : Prop where
  lost : t.mt.fcUncorrectable = s.mt.fcUncorrectable
  retries : t.mt.fcRetries = s.mt.fcRetries
  flashUe : t.mt.flashUe = s.mt.flashUe
  moverUe : t.mt.moverUe = s.mt.moverUe

namespace State.ReadsStay
variable {s t u : State}

theorem of_mt (same : t.mt = s.mt) : s.ReadsStay t := ⟨by rw [same], by rw [same], by rw [same], by rw [same]⟩

theorem trans (first : s.ReadsStay t) (second : t.ReadsStay u) : s.ReadsStay u :=
  ⟨second.lost.trans first.lost, second.retries.trans first.retries, second.flashUe.trans first.flashUe, second.moverUe.trans first.moverUe⟩

end State.ReadsStay
open State (ReadsStay)

theorem State.failJobs_outside (s : State) (uses : Job → Bool) (status : Nat) :
    s.Outside [.fw, .mbx, .pins, .port] (s.failJobs uses status) :=
  Outside.foldl (fun (s : State) (j : Job) => s.completeJob j status 0 0 0 0 s.dtNs) (fun t j => t.completeJob_outside j _ _ _ _ _ _) _ s

theorem State.updObj_reads (s : State) (h : Nat) (f : Obj → Obj) : s.ReadsStay (s.updObj h f) := ⟨rfl, rfl, rfl, rfl⟩

theorem State.poisonObj_reads (s : State) (h cause page : Nat) : s.ReadsStay (s.poisonObj h cause page) := by
  unfold State.poisonObj
  split
  · exact .of_mt rfl
  · split
    · exact .of_mt rfl
    · have dropped : ∀ (u : State) (q : List MoverReq), u.ReadsStay { u with mt := { u.mt with queue := q } } :=
        fun _ _ => ⟨rfl, rfl, rfl, rfl⟩
      exact (((s.updObj_reads h _).trans (dropped _ _)).trans (.of_mt (State.event_outside _ _ _ _ _ _).mt)).trans
        (.of_mt (State.failJobs_outside _ _ _).mt)

theorem State.poisonAcre_outside (s : State) (key cause page : Nat) : s.Outside [.fld, .evr] (s.poisonAcre key cause page) := by
  unfold State.poisonAcre
  split
  · exact .refl s _
  · exact ((Outside.setFld s _).mono (by decide)).step (State.event_outside _ _ _ _ _ _)

/-- A page that no copy gives: the mover's bit is set, and no read is counted again. -/
theorem State.pageLost_spec (s : State) (r : MoverReq) (lpn : Nat) : (s.pageLost r lpn).mt.moverUe = true
    ∧ (s.pageLost r lpn).mt.fcUncorrectable = s.mt.fcUncorrectable ∧ (s.pageLost r lpn).mt.fcRetries = s.mt.fcRetries
    ∧ (s.pageLost r lpn).mt.flashUe = s.mt.flashUe := by
  have noted : ∀ u : State, { s with mt := { s.mt with moverUe := true } }.ReadsStay u → u.mt.moverUe = true
      ∧ u.mt.fcUncorrectable = s.mt.fcUncorrectable ∧ u.mt.fcRetries = s.mt.fcRetries ∧ u.mt.flashUe = s.mt.flashUe :=
    fun u stay => ⟨stay.moverUe, stay.lost, stay.retries, stay.flashUe⟩
  have queued : ∀ (u : State) (q : List MoverReq), u.ReadsStay { u with mt := { u.mt with queue := q } } :=
    fun _ _ => ⟨rfl, rfl, rfl, rfl⟩
  unfold State.pageLost
  apply noted
  dsimp only
  split
  · exact (State.updObj_reads _ _ _).trans (State.poisonObj_reads _ _ _ _)
  · exact (State.updObj_reads _ _ _).trans (State.poisonObj_reads _ _ _ _)
  · exact ((ReadsStay.of_mt rfl).trans (queued _ _)).trans (.of_mt (State.poisonAcre_outside _ _ _ _).mt)
  · exact (queued _ _).trans (.of_mt (State.poisonAcre_outside _ _ _ _).mt)
  · exact .of_mt rfl

/-! ## Blocks (R314, R317) -/

/-- A move of the flash layer that retires no block and gives none back: the good blocks and the groups stay, and a retired block is left. -/
structure State.BlocksStay (s t : State) : Prop where
  good : t.mt.goodBlocks = s.mt.goodBlocks
  groups : t.mt.groups = s.mt.groups
  retired : (∃ b ∈ s.mt.blocks, b.retired = true) → ∃ b ∈ t.mt.blocks, b.retired = true

namespace State.BlocksStay
variable {s t u : State}

theorem of_mt (same : t.mt = s.mt) : s.BlocksStay t := ⟨by rw [same], by rw [same], by rw [same]; exact id⟩

theorem trans (first : s.BlocksStay t) (second : t.BlocksStay u) : s.BlocksStay u :=
  ⟨second.good.trans first.good, second.groups.trans first.groups, fun h => second.retired (first.retired h)⟩

theorem foldl {α : Type} (f : State → α → State) (step : ∀ (a : State) (x : α), a.BlocksStay (f a x)) (l : List α) (s : State) :
    s.BlocksStay (l.foldl f s) := by
  induction l generalizing s with
  | nil => exact .of_mt rfl
  | cons x l ih => exact (step s x).trans (ih _)

end State.BlocksStay
open State (BlocksStay)

theorem State.updBlock_stay (s : State) (die block : Nat) {f : FlashBlock → FlashBlock} (kept : ∀ b, (f b).retired = b.retired) :
    s.BlocksStay (s.updBlock die block f) := by
  obtain ⟨_, _, _, _, groups, good, _⟩ := s.updBlock_queue die block f
  refine ⟨good, groups, fun ⟨b, mem, retired⟩ => ?_⟩
  unfold State.updBlock
  dsimp only
  refine ⟨if b.die = die ∧ b.block = block then f b else b, List.mem_map.mpr ⟨b, ?_, rfl⟩, ?_⟩
  · split
    · exact mem
    · exact List.mem_append_left _ mem
  · split
    · exact (kept b).trans retired
    · exact retired

/-- A block retired: it is on record. -/
theorem State.updBlock_retires (s : State) (die block : Nat) :
    ∃ b ∈ (s.updBlock die block fun b => { b with retired := true }).mt.blocks, b.retired = true := by
  obtain ⟨b, mem, here⟩ : ∃ b ∈ (if s.mt.blocks.any fun b => decide (b.die = die ∧ b.block = block) then s else { s with mt := { s.mt with
      blocks := s.mt.blocks ++ [{ die := die, block := block, erases := 0, reads := 0, degraded := false, retired := false, filled := 0 }] }
      }).mt.blocks, b.die = die ∧ b.block = block := by
    split
    next known =>
      obtain ⟨b, mem, here⟩ := List.any_eq_true.mp known
      exact ⟨b, mem, of_decide_eq_true here⟩
    next => exact ⟨_, List.mem_append_right _ (List.mem_singleton.mpr rfl), rfl, rfl⟩
  refine ⟨{ b with retired := true }, ?_, rfl⟩
  unfold State.updBlock
  exact List.mem_map.mpr ⟨b, mem, if_pos here⟩

theorem State.freeBlock_mt (s : State) (lo size : Nat) : (s.freeBlock lo size).2.mt = s.mt := by
  unfold State.freeBlock
  dsimp only
  split <;> rfl

/-- The state with the block that `freeBlock` found begun: block `i`, or the lowest of the span. -/
def State.blockBegun (s : State) (i : Option Nat) (lo : Nat) : State :=
  let s := s.updBlock (i.getD lo / dieBlocks) (i.getD lo % dieBlocks) fun b => { b with filled := 1 }
  { s with mt := { s.mt with freeBlocks := s.mt.freeBlocks - 1 } }

theorem State.blockBegun_stay (s : State) (i : Option Nat) (lo : Nat) : s.BlocksStay (s.blockBegun i lo) := by
  have begun := s.updBlock_stay (i.getD lo / dieBlocks) (i.getD lo % dieBlocks) (f := fun b => { b with filled := 1 }) fun _ => rfl
  exact ⟨begun.good, begun.groups, begun.retired⟩

theorem State.takePlace_stay (s : State) (other : Option Nat) : s.BlocksStay (s.takePlace other).2 := by
  unfold State.takePlace
  dsimp only
  split
  · exact s.updBlock_stay _ _ fun _ => rfl
  · exact (BlocksStay.of_mt (s.freeBlock_mt _ _)).trans (State.blockBegun_stay _ _ _)

theorem State.newCopy_stay (s : State) (p : FlashPage) (other : Option Nat) (mirror : Bool) : s.BlocksStay (s.newCopy p other mirror).2 :=
  s.takePlace_stay other

theorem State.rewriteCopy_stay (s : State) (p : FlashPage) (mirror : Bool) : s.BlocksStay (s.rewriteCopy p mirror) := by
  unfold State.rewriteCopy
  dsimp only
  exact (s.newCopy_stay _ _ _).trans ⟨rfl, rfl, id⟩

theorem State.zeroiseOld_mt (s : State) (n : Fin 5) : (s.zeroiseOld n).mt = s.mt := by
  unfold State.zeroiseOld
  split
  · rfl
  · split
    · exact (State.event_outside _ _ _ _ _ _).mt
    · rfl

theorem State.moveBlock_stay (s : State) (die block : Nat) : s.BlocksStay (s.moveBlock die block) := by
  unfold State.moveBlock
  exact (BlocksStay.foldl _ (fun t p => .foldl _ (fun u c => u.rewriteCopy_stay _ _) _ _) _ _).trans
    (.foldl _ (fun t n => .of_mt (t.zeroiseOld_mt n)) _ _)

/-- The state with a block of its good ones counted out, which leaves so many free ones. -/
def State.blockCountedOut (s : State) (free : Nat) : State :=
  { s with mt := { s.mt with goodBlocks := s.mt.goodBlocks - 1, freeBlocks := free } }

/-- The state with the failure of a block recorded. -/
def State.blockNoted (s : State) (die block cause : Nat) : State := if s.mt.evtFlash then s.event 0x0E 0x0E03 die block cause else s

theorem State.blockNoted_mt (s : State) (die block cause : Nat) : (s.blockNoted die block cause).mt = s.mt := by
  unfold State.blockNoted
  split
  · exact (State.event_outside _ _ _ _ _ _).mt
  · rfl

theorem State.blockFailed_eq (s : State) (cause : Nat) : ∃ die block free, s.blockFailed cause =
    ((((s.drawBelow (32 * dieBlocks)).2.updBlock die block fun b => { b with retired := true }).blockCountedOut free).blockNoted
      die block cause).moveBlock die block := by
  unfold State.blockFailed
  dsimp only
  generalize (s.drawBelow (32 * dieBlocks)).1 = k
  generalize (s.drawBelow (32 * dieBlocks)).2 = u
  generalize (((List.range ((u.mt.blocks.filter (·.retired)).length + 1)).map fun j => (k + j) % (32 * dieBlocks)).find?
    fun i => !((u.mt.blocks.filter (·.retired)).any fun b => decide (b.id = i))).getD k = i
  generalize (u.mt.blocks.any fun b => decide (b.id = i ∧ 0 < b.filled)) = used
  generalize i / dieBlocks = die
  generalize i % dieBlocks = block
  refine ⟨die, block, if used = true then (u.updBlock die block fun b => { b with retired := true }).mt.freeBlocks
    else (u.updBlock die block fun b => { b with retired := true }).mt.freeBlocks - 1, ?_⟩
  generalize u.updBlock die block (fun b => { b with retired := true }) = v
  rfl

theorem State.blockCountedOut_mt (s : State) (free : Nat) : (s.blockCountedOut free).mt.goodBlocks = s.mt.goodBlocks - 1
    ∧ (s.blockCountedOut free).mt.groups = s.mt.groups ∧ (s.blockCountedOut free).mt.blocks = s.mt.blocks := ⟨rfl, rfl, rfl⟩

/-- A block retired after a failure. -/
theorem State.blockFailed_spec (s : State) (cause : Nat) : (s.blockFailed cause).mt.goodBlocks = s.mt.goodBlocks - 1
    ∧ (s.blockFailed cause).mt.groups = s.mt.groups ∧ ∃ b ∈ (s.blockFailed cause).mt.blocks, b.retired = true := by
  obtain ⟨die, block, free, eq⟩ := s.blockFailed_eq cause
  have drawn : (s.drawBelow (32 * dieBlocks)).2.mt = s.mt := rfl
  rw [eq]
  generalize (s.drawBelow (32 * dieBlocks)).2 = u at drawn
  obtain ⟨_, _, _, _, groups, good, _⟩ := u.updBlock_queue die block fun b => { b with retired := true }
  have retired := u.updBlock_retires die block
  generalize u.updBlock die block (fun b => { b with retired := true }) = v at groups good retired
  obtain ⟨good', groups', blocks'⟩ := v.blockCountedOut_mt free
  generalize v.blockCountedOut free = w at good' groups' blocks'
  have moved := BlocksStay.trans (.of_mt (w.blockNoted_mt die block cause)) ((w.blockNoted die block cause).moveBlock_stay die block)
  rw [drawn] at groups good
  exact ⟨by rw [moved.good, good', good], by rw [moved.groups, groups', groups], moved.retired (blocks' ▸ retired)⟩

/-! ## Relocation (R317) -/

/-- A block's record after its erase. -/
def FlashBlock.erased (b : FlashBlock) : FlashBlock := { b with erases := b.erases + 1, reads := 0, degraded := false, filled := 0 }

theorem State.updBlock_known {s : State} {die block : Nat} (f : FlashBlock → FlashBlock)
    (known : (s.mt.blocks.any fun b => decide (b.die = die ∧ b.block = block)) = true) :
    (s.updBlock die block f).mt.blocks = s.mt.blocks.map fun (b : FlashBlock) => if b.die = die ∧ b.block = block then f b else b := by
  unfold State.updBlock
  dsimp only
  rw [if_pos known]

theorem State.zeroiseOld_none {s : State} {n : Fin 5} (idle : s.sec.keys[n].old = none) : s.zeroiseOld n = s := by
  unfold State.zeroiseOld
  rw [idle]

/-- A block without a copy has nothing to move. -/
theorem State.moveBlock_empty {s : State} {die block : Nat} (bare : ∀ p ∈ s.mt.pages, ∀ c ∈ p.copies, ¬ (c.die = die ∧ c.block = block))
    (idle : ∀ n : Fin 5, s.sec.keys[n].old = none) : s.moveBlock die block = s := by
  have unmoved : ∀ l : List FlashPage, (∀ p ∈ l, ∀ c ∈ p.copies, ¬ (c.die = die ∧ c.block = block)) →
      l.foldl (fun (s : State) p => (p.copies.filter fun (c : PageCopy) => decide (c.die = die ∧ c.block = block)).foldl
        (fun (s : State) c => s.rewriteCopy p c.mirror) s) s = s := by
    intro l none
    induction l with
    | nil => rfl
    | cons p l ih =>
      have empty : (p.copies.filter fun (c : PageCopy) => decide (c.die = die ∧ c.block = block)) = [] :=
        List.filter_eq_nil_iff.mpr fun c mem => by simpa using none p (List.mem_cons_self ..) c mem
      rw [List.foldl_cons, empty]
      exact ih fun q mem => none q (List.mem_cons_of_mem _ mem)
  have unzeroised : ∀ l : List (Fin 5), l.foldl State.zeroiseOld s = s := by
    intro l
    induction l with
    | nil => rfl
    | cons n l ih => rw [List.foldl_cons, State.zeroiseOld_none (idle n), ih]
  unfold State.moveBlock
  dsimp only
  rw [unmoved _ bare, unzeroised]

/-- A block without a copy recycled: its record is that of an erased one. -/
theorem State.recycle_empty {s : State} {die block : Nat}
    (known : (s.mt.blocks.any fun b => decide (b.die = die ∧ b.block = block)) = true)
    (bare : ∀ p ∈ s.mt.pages, ∀ c ∈ p.copies, ¬ (c.die = die ∧ c.block = block)) (idle : ∀ n : Fin 5, s.sec.keys[n].old = none) :
    (s.recycle die block).mt.goodBlocks = s.mt.goodBlocks ∧ (s.recycle die block).mt.pages = s.mt.pages
      ∧ (s.recycle die block).mt.blocks = s.mt.blocks.map fun (x : FlashBlock) => if x.die = die ∧ x.block = block then x.erased else x := by
  obtain ⟨_, _, _, _, _, good, pages⟩ := s.updBlock_queue die block fun b => { b with filled := max b.filled Config.blockPages }
  have blocks := State.updBlock_known (fun b => { b with filled := max b.filled Config.blockPages }) known
  have sec := (s.updBlock_outside die block fun b => { b with filled := max b.filled Config.blockPages }).sec
  unfold State.recycle
  generalize s.updBlock die block (fun b => { b with filled := max b.filled Config.blockPages }) = u at good pages blocks sec
  have unmoved : u.moveBlock die block = u := State.moveBlock_empty (by rw [pages]; exact bare) (by rw [sec]; exact idle)
  have known' : (u.mt.blocks.any fun b => decide (b.die = die ∧ b.block = block)) = true := by
    obtain ⟨b, mem, here⟩ := List.any_eq_true.mp known
    rw [blocks]
    refine List.any_eq_true.mpr ⟨_, List.mem_map.mpr ⟨b, mem, rfl⟩, ?_⟩
    rw [if_pos (of_decide_eq_true here)]
    exact here
  dsimp only
  rw [unmoved]
  obtain ⟨_, _, _, _, _, good', pages'⟩ := u.updBlock_queue die block fun b => b.erased
  have blocks' := State.updBlock_known (fun b => b.erased) known'
  refine ⟨good'.trans good, pages'.trans pages, blocks'.trans ?_⟩
  rw [blocks, List.map_map]
  refine List.map_congr_left fun b _ => ?_
  dsimp only [Function.comp_apply]
  by_cases here : b.die = die ∧ b.block = block
  · rw [if_pos here, if_pos here, if_pos here]
    rfl
  · rw [if_neg here, if_neg here]

/-- Two folds over the same list whose steps keep a relation. -/
theorem foldl_rel {α : Type} {R : Nat → Nat → Prop} (op : Nat → Nat → Nat) {f g : α → Nat}
    (step : ∀ x a b, R a b → R (op a (f x)) (op b (g x))) (l : List α) :
    ∀ {a b : Nat}, R a b → R ((l.map f).foldl op a) ((l.map g).foldl op b) := by
  induction l with
  | nil => exact fun h => h
  | cons x l ih => exact fun h => ih (step x _ _ h)

/-- The spread of records of which each was erased once more at most. -/
theorem MemTiers.spread_erased {m m' : MemTiers} {g : FlashBlock → FlashBlock} (blocks : m'.blocks = m.blocks.map g)
    (good : m'.goodBlocks = m.goodBlocks) (kept : ∀ b, (g b).retired = b.retired)
    (once : ∀ b, b.erases ≤ (g b).erases ∧ (g b).erases ≤ b.erases + 1) : m'.spread ≤ m.spread + 1 := by
  have goods : m'.good = m.good.map g := by
    unfold MemTiers.good
    rw [blocks, List.filter_map]
    congr 1
    exact List.filter_congr fun b _ => congrArg (!·) (kept b)
  have most : (m.good.map (·.erases)).foldl max 0 ≤ (m.good.map fun b => (g b).erases).foldl max 0 :=
    foldl_rel max (R := (· ≤ ·)) (fun x a b h => by have := (once x).1; omega) _ (Nat.le_refl 0)
  have most' : (m.good.map fun b => (g b).erases).foldl max 0 ≤ (m.good.map (·.erases)).foldl max 0 + 1 :=
    foldl_rel max (R := fun a b => a ≤ b + 1) (fun x a b h => by have := (once x).2; omega) _ (Nat.zero_le _)
  have least : (m.good.map (·.erases)).foldl min ((m.good.map (·.erases)).foldl max 0)
      ≤ (m.good.map fun b => (g b).erases).foldl min ((m.good.map fun b => (g b).erases).foldl max 0) :=
    foldl_rel min (R := (· ≤ ·)) (fun x a b h => by have := (once x).1; omega) _ most
  unfold MemTiers.spread
  dsimp only
  rw [goods, List.map_map, List.length_map, good]
  change (if m.good.length < m.goodBlocks then (m.good.map fun b => (g b).erases).foldl max 0
    else (m.good.map fun b => (g b).erases).foldl max 0
      - (m.good.map fun b => (g b).erases).foldl min ((m.good.map fun b => (g b).erases).foldl max 0)) ≤ _
  split <;> omega

/-- A relocation of a block without copies, where the wear is even enough. -/
theorem State.relocate_empty {s : State} {die block : Nat} {b : FlashBlock}
    (found : s.mt.blocks.find? (fun b => decide (b.die = die ∧ b.block = block)) = some b) (live : b.retired = false)
    (bare : ∀ p ∈ s.mt.pages, ∀ c ∈ p.copies, ¬ (c.die = die ∧ c.block = block)) (even : s.mt.spread < 256)
    (idle : ∀ n : Fin 5, s.sec.keys[n].old = none) : (s.relocate die block).mt = (s.recycle die block).mt := by
  have known : (s.mt.blocks.any fun b => decide (b.die = die ∧ b.block = block)) = true :=
    List.any_eq_true.mpr ⟨b, List.mem_of_find?_eq_some found, by simpa using List.find?_some found⟩
  obtain ⟨good, _, blocks⟩ := State.recycle_empty known bare idle
  have spread : (s.recycle die block).mt.spread ≤ s.mt.spread + 1 := by
    refine MemTiers.spread_erased blocks good (fun b => ?_) fun b => ?_
    · split <;> rfl
    · split
      · exact ⟨Nat.le_succ _, Nat.le_refl _⟩
      · exact ⟨Nat.le_refl _, Nat.le_succ _⟩
  have level : ∀ u : State, u.mt = (s.recycle die block).mt → u.levelWear.mt = (s.recycle die block).mt := fun u same => by
    unfold State.levelWear
    rw [if_pos (by rw [same]; omega), same]
  have refreshed : ∀ (u : State) (c : Nat), (if u.mt.evtFlash then u.event 0x0E 0x0E04 die block c else u).mt = u.mt := fun u c => by
    split
    · exact (State.event_outside _ _ _ _ _ _).mt
    · rfl
  unfold State.relocate
  rw [found]
  dsimp only
  rw [live, if_neg Bool.false_ne_true]
  apply level
  split
  · exact refreshed _ _
  · split
    · exact refreshed _ _
    · rfl

/-! ## Patrol scrub (R302) -/

theorem State.retirePage_spec (s : State) (page cause : Nat) : (s.retirePage page cause).mem = s.mem
    ∧ (s.retirePage page cause).mt.ceCount = s.mt.ceCount ∧ (s.retirePage page cause).mt.scrubCorrected = s.mt.scrubCorrected := by
  unfold State.retirePage
  split
  · exact ⟨rfl, rfl, rfl⟩
  · split
    · split
      · exact ⟨rfl, rfl, rfl⟩
      · have noted := State.event_outside { s with mt := { s.mt with remapFull := true, dramLow := true } } 0x13 0x1303 page 0 0
        exact ⟨noted.mem, by rw [noted.mt], by rw [noted.mt]⟩
    · exact ⟨rfl, rfl, rfl⟩

/-- A corrected line, counted. -/
theorem State.dramCorrected_spec (s : State) (line : Nat) : (s.dramCorrected line).mem = s.mem
    ∧ (s.dramCorrected line).mt.ceCount = countUp s.mt.ceCount 1 ∧ (s.dramCorrected line).mt.scrubCorrected = s.mt.scrubCorrected := by
  unfold State.dramCorrected
  dsimp only
  split
  · exact State.retirePage_spec _ _ _
  · exact ⟨rfl, rfl, rfl⟩

/-- The tiers after the last line of a pass. -/
def MemTiers.nextPass (m : MemTiers) : MemTiers :=
  { m with scrubLine := 0, scrubPass := m.scrubPass + 1, scrubCorrected := 0, prevLines := (m.passLines ++ m.prevLines).eraseDups,
           passLines := [] }

theorem State.scrubStep_last {s : State} (on : s.scrubOn = true) (last : ¬ s.mt.scrubLine + 1 < scrubLines) :
    (s.scrubStep .clean).mt = s.mt.nextPass ∧ s.Outside [.mt, .evr] (s.scrubStep .clean) := by
  have begun : s.scrubStep .clean = if s.mt.evtDram then State.event { s with mt := s.mt.nextPass } 0x13 0x1304 (s.mt.scrubPass + 1)
      s.mt.scrubCorrected 0 else { s with mt := s.mt.nextPass } := by
    unfold State.scrubStep
    rw [if_neg (by rw [on]; exact Bool.false_ne_true)]
    exact if_neg last
  have moved : s.Outside [.mt, .evr] { s with mt := s.mt.nextPass } := (Outside.setMt s _).mono (by decide)
  rw [begun]
  refine ⟨?_, .ite (moved.step (State.event_outside _ _ _ _ _ _)) moved⟩
  split
  · exact (State.event_outside _ _ _ _ _ _).mt
  · rfl

theorem State.scrubStep_corrected {s : State} (on : s.scrubOn = true) (more : s.mt.scrubLine + 1 < scrubLines) : ∃ t : State,
    s.scrubStep .corrected = { t with mt := { t.mt with scrubLine := s.mt.scrubLine + 1 } } ∧ t.mem = s.mem
      ∧ t.mt.ceCount = countUp s.mt.ceCount 1 ∧ t.mt.scrubCorrected = s.mt.scrubCorrected + 1 := by
  have corrected := State.dramCorrected_spec { s with mt := { s.mt with
    scrubCorrected := s.mt.scrubCorrected + 1, passLines := s.mt.scrubLine :: s.mt.passLines } } s.mt.scrubLine
  unfold State.scrubStep
  rw [if_neg (by rw [on]; exact Bool.false_ne_true)]
  dsimp only
  generalize State.dramCorrected { s with mt := { s.mt with
    scrubCorrected := s.mt.scrubCorrected + 1, passLines := s.mt.scrubLine :: s.mt.passLines } } s.mt.scrubLine = u at corrected
  rw [if_pos more]
  obtain ⟨mem, count, seen⟩ := corrected
  refine ⟨_, rfl, ?_⟩
  split
  · obtain ⟨mem', count', seen'⟩ := u.retirePage_spec (s.mt.scrubLine / 1024) 1
    exact ⟨mem'.trans mem, count'.trans count, seen'.trans seen⟩
  · exact ⟨mem, count, seen⟩

/-- With the memory tiers and the recorder put back, the state is the one before. -/
theorem State.tiersEvents_restored {s u : State} (moved : s.Outside [.mt, .evr] u) : { u with mt := s.mt, evr := s.evr } = s :=
  moved.restored (fun p mem => by cases p <;> simp_all) (fun p out => by cases p <;> simp_all)

/-- With the memory tiers put back, the state is the one before. -/
theorem State.mt_restored {s u : State} (moved : s.Outside [.mt] u) : { u with mt := s.mt } = s :=
  moved.restored (fun p mem => by cases p <;> simp_all) (fun p out => by cases p <;> simp_all)

end Sys2Proof.Machine

open Sys2Proof Sys2Proof.Machine

/-- Settles O54: the mover's first request, a flash read and a block's record are each taken as their rule gives them. -/
theorem memoryEventsHappen : Obligations.MemoryEventsHappen := by
  intro s
  refine ⟨fun w r window first => ⟨fun there open_ budget more => ?_, fun page there open_ budget last work => ?_, fun waits => ?_, ?_, ?_⟩,
    fun res closed => ⟨?_, ?_⟩, fun w r p c window open_ first bare page copy known => ⟨?_, fun single => ?_, fun m mirrored => ?_⟩,
    fun g gs groups more => ?_, ?_, fun die block b found => ⟨fun retired => ?_, fun live bare even idle => ?_⟩, fun low unseen => ?_,
    fun enough => ?_, fun on => ⟨fun more => ?_, fun last => ?_, fun more => ?_⟩, fun e off => ?_⟩
  · exact congrArg Host.Outcome.next (State.transferDone_moves window first there open_ (Nat.min_eq_right (Nat.le_of_lt more)) budget
      (if_pos more))
  · have moved := State.transferDone_moves window first there open_ (Nat.min_eq_left last) budget (if_neg (Nat.lt_irrefl _))
    rw [work] at moved
    exact ⟨_, congrArg Host.Outcome.next moved, rfl, rfl, rfl⟩
  · exact congrArg Host.Outcome.next (State.transferDone_waits window first waits)
  · exact (firstReq_order first).1
  · exact (firstReq_order first).2
  · refine congrArg Host.Outcome.next ?_
    unfold State.transferDone
    rw [closed]
  · refine congrArg Host.Outcome.next ?_
    unfold State.readDone
    rw [closed]
  · have read := State.readDone_decoded window open_ first bare page copy known
    obtain ⟨queue, objects, lost, _⟩ := s.readNoted_spec c .decoded
    have moved := s.readNoted_outside (some c) .decoded
    unfold State.readFound at read
    dsimp only at read
    rw [bare, if_neg Bool.false_ne_true] at read
    generalize s.readNoted (some c) .decoded = u at read queue objects lost moved
    have same : ({ r with fetch := r.fetch - 1, fetched := true, onMirror := false } : MoverReq)
        = { r with fetch := r.fetch - 1, fetched := true } := by rw [← bare]
    refine ⟨_, congrArg Host.Outcome.next read, ?_, lost, objects, ?_⟩
    · rw [← same, ← queue]
    · change ({ u with mt := s.mt } : State) = s
      exact State.mt_restored moved
  · have read := State.readDone_failed window open_ first bare page copy known
    obtain ⟨_, _, lost, retries⟩ := s.readNoted_spec c .failed
    unfold State.readFound at read
    dsimp only at read
    rw [single] at read
    have missed := (s.readNoted (some c) .failed).flashLost_spec p.ns p.lpn 0
    generalize (s.readNoted (some c) .failed).flashLost p.ns p.lpn 0 = u at read missed
    obtain ⟨mover, lost', retries', flash⟩ := u.pageLost_spec r p.lpn
    refine ⟨_, congrArg Host.Outcome.next read, ?_, ?_, ?_, mover⟩
    · exact lost'.trans (by rw [missed, lost])
    · exact retries'.trans (by rw [missed]; exact retries rfl)
    · exact flash.trans (by rw [missed])
  · have read := State.readDone_failed window open_ first bare page copy known
    obtain ⟨queue, _, lost, _⟩ := s.readNoted_spec c .failed
    unfold State.readFound at read
    dsimp only at read
    rw [mirrored] at read
    have missed := (s.readNoted (some c) .failed).flashLost_spec p.ns p.lpn 0
    generalize (s.readNoted (some c) .failed).flashLost p.ns p.lpn 0 = u at read missed
    have queue' : u.mt.queue = s.mt.queue := by rw [missed, queue]
    have lost' : u.mt.fcUncorrectable = countUp s.mt.fcUncorrectable 1 := by rw [missed, lost]
    exact ⟨_, congrArg Host.Outcome.next read, by rw [← queue']; rfl, lost'⟩
  · refine congrArg Host.Outcome.next ?_
    unfold State.programDone
    rw [groups]
    dsimp only
    rw [Bool.not_true, if_neg Bool.false_ne_true, if_neg (Nat.not_le.mpr more)]
  · obtain ⟨cause, failed⟩ : ∃ cause, s.programDone false = s.blockFailed cause := by
      unfold State.programDone
      split
      · exact ⟨1, rfl⟩
      · exact ⟨0, rfl⟩
    obtain ⟨good, groups, retired⟩ := s.blockFailed_spec cause
    exact ⟨_, congrArg Host.Outcome.next failed, good, groups, retired⟩
  · refine congrArg Host.Outcome.next ?_
    unfold State.relocate
    rw [found]
    exact if_pos retired
  · have known : (s.mt.blocks.any fun b => decide (b.die = die ∧ b.block = block)) = true :=
      List.any_eq_true.mpr ⟨b, List.mem_of_find?_eq_some found, by simpa using List.find?_some found⟩
    obtain ⟨good, pages, blocks⟩ := State.recycle_empty known bare idle
    have mt := State.relocate_empty found live bare even idle
    exact ⟨s.relocate die block, rfl, by rw [mt, good], by rw [mt, pages], by rw [mt, blocks]; rfl⟩
  · have due : s.spareLow = if s.mt.evtFlash then State.event { s with mt := { s.mt with flashLow := true, spareLowAt := some s.dtNs } }
        0x0E 0x0E05 s.mt.freeBlocks s.mt.goodBlocks 0 else { s with mt := { s.mt with flashLow := true, spareLowAt := some s.dtNs } } := by
      unfold State.spareLow
      rw [unseen]
      exact if_pos ⟨low, rfl⟩
    have whole : s.Outside [.mt, .evr] s.spareLow := by
      rw [due]
      exact .ite (((State.Outside.setMt s _).mono (by decide)).step (State.event_outside _ _ _ _ _ _)) ((State.Outside.setMt s _).mono (by decide))
    have mt : s.spareLow.mt = { s.mt with flashLow := true, spareLowAt := some s.dtNs } := by
      rw [due]
      split
      · exact (State.event_outside _ _ _ _ _ _).mt
      · rfl
    refine ⟨_, rfl, mt, ?_⟩
    generalize s.spareLow = t at whole
    change ({ t with mt := s.mt, evr := s.evr } : State) = s
    exact State.tiersEvents_restored whole
  · refine congrArg Host.Outcome.next ?_
    unfold State.spareLow
    exact if_neg fun h => absurd h.1 (Nat.not_lt.mpr enough)
  · refine congrArg Host.Outcome.next ?_
    unfold State.scrubStep
    rw [if_neg (by rw [on]; exact Bool.false_ne_true)]
    exact if_pos more
  · obtain ⟨mt, whole⟩ := State.scrubStep_last on (Nat.not_lt.mpr last)
    refine ⟨_, rfl, mt, ?_⟩
    generalize s.scrubStep .clean = t at whole
    change ({ t with mt := s.mt, evr := s.evr } : State) = s
    exact State.tiersEvents_restored whole
  · obtain ⟨t, eq, mem, count, seen⟩ := State.scrubStep_corrected on more
    exact ⟨_, congrArg Host.Outcome.next eq, count, seen, rfl, mem⟩
  · refine congrArg Host.Outcome.next ?_
    unfold State.scrubStep
    exact if_pos (by rw [off]; rfl)

end

section
set_option Elab.async false
/-!
PROOFS. Operations of the units and cores start when they may issue.
-/
namespace Sys2Proof.Machine
open State (Outside)

/-! ## A section that has moved on, and what starts there -/

/-- The section of a target has moved on by one operation, none has started, and time stands. -/
structure State.MovedOn (s t : State) (tg : Target) : Prop where
  next : (t.seq tg).next = (s.seq tg).next + 1
  running : (t.seq tg).running = (s.seq tg).running
  tu : t.tu = s.tu

theorem State.issued_movedOn (s : State) (tg : Target) (o : Op) : s.MovedOn (s.issued tg o) tg :=
  ⟨(s.issued_seq tg o).1, (s.issued_seq tg o).2, (s.issued_outside tg o).tu⟩

theorem State.MovedOn.trans {s t u : State} {tg : Target} {parts : List Part} (moved : s.MovedOn t tg) (rest : t.Outside parts u)
    (sched : Part.sched ∉ parts := by decide) (tu : Part.tu ∉ parts := by decide) : s.MovedOn u tg := by
  have seq := State.seq_of_sched (rest .sched sched) tg
  exact ⟨by rw [seq, moved.next], by rw [seq, moved.running], (rest .tu tu).trans moved.tu⟩

/-- What moved before the issue does not count. -/
theorem State.MovedOn.of_before {s t u : State} {tg : Target} {parts : List Part} (before : s.Outside parts t) (moved : t.MovedOn u tg)
    (sched : Part.sched ∉ parts := by decide) (tu : Part.tu ∉ parts := by decide) : s.MovedOn u tg := by
  have seq := State.seq_of_sched (before .sched sched) tg
  exact ⟨by rw [moved.next, seq], by rw [moved.running, seq], moved.tu.trans (before .tu tu)⟩

theorem State.StartedWith.of_sched {s t u : State} {tg : Target} {unit : OpUnit} {n : NextOp} {cycles : Nat} {ws : List MemWrite}
    (started : s.StartedWith t tg unit n cycles ws) (same : u.sched = t.sched) : s.StartedWith u tg unit n cycles ws := by
  unfold State.StartedWith
  rw [State.seq_of_sched same tg]
  exact started

theorem State.StartedWith.started {s t : State} {tg : Target} {unit : OpUnit} {n : NextOp} {cycles : Nat} {ws : List MemWrite}
    (started : s.StartedWith t tg unit n cycles ws) : s.Started t tg unit n := by
  obtain ⟨next, r, running, unit, index, op, start, -⟩ := started
  exact ⟨next, r, running, unit, index, op, start⟩

/-- An operation with its check and its notes put among those that run. -/
theorem State.MovedOn.onSeq {s b : State} {tg : Target} (moved : s.MovedOn b tg) (unit : OpUnit) (n : NextOp) (cycles : Nat)
    (ws : List MemWrite) (chk : Check) (aux : List Nat) : s.StartedWith (b.onSeq tg fun q => { q with
      running := q.running ++ [{ unit := unit, index := n.index, op := n.op, startDt := b.dtNs, cycles := cycles, writes := ws, chk := chk,
                                 rerun := false, aux := aux }] }) tg unit n cycles ws := by
  have now : b.dtNs = s.dtNs := by
    unfold State.dtNs
    rw [moved.tu]
  unfold State.StartedWith
  rw [State.seq_onSeq_self]
  exact ⟨moved.next, _, congrArg (· ++ _) moved.running, rfl, rfl, rfl, now, rfl, rfl⟩

theorem State.MovedOn.startOp {s b : State} {tg : Target} (moved : s.MovedOn b tg) (unit : OpUnit) (n : NextOp) (cycles : Nat)
    (ws : List MemWrite) : s.StartedWith (b.startOp tg n unit cycles ws) tg unit n cycles ws := moved.onSeq unit n cycles ws .clean []

theorem State.MovedOn.startCore {s b : State} {c : Fin 8} (moved : s.MovedOn b (.core c)) (unit : OpUnit) (n : NextOp) (cycles : Nat)
    (ws : List MemWrite) (chk : Check) (aux : List Nat) :
    s.StartedWith (b.startCore c n unit cycles ws chk aux) (.core c) unit n cycles ws := moved.onSeq unit n cycles ws chk aux

theorem State.startCore_outside (s : State) (c : Fin 8) (n : NextOp) (u : OpUnit) (cycles : Nat) (ws : List MemWrite) (chk : Check)
    (aux : List Nat) : s.Outside [.sched] (s.startCore c n u cycles ws chk aux) := s.onSeq_outside _ _

/-! ## The stream manager and the front end (R93, R95) -/

theorem State.takeUnits_outside (s : State) (ch : Fin 32) : s.Outside [.sm, .flags, .mem] (s.takeUnits ch).2 := by
  unfold State.takeUnits
  dsimp only
  refine Outside.step (Outside.step ?_ (Outside.foldl (parts := [.sm, .flags]) _ (fun t i => ?_) _ _)) (State.updChan_outside _ ch _)
  · refine .ite (.refl s _) ?_
    split
    · exact .ite (.refl s _) ((s.closeUnit_outside ch _).mono (by decide))
    · exact .refl s _
  · exact (t.freeSlot_outside ch i).step (State.countDrop_outside _ ch _ _)

theorem State.releaseUnits_outside (s : State) (ch : Fin 32) (g : Nat) : s.Outside [.sm, .flags] (s.releaseUnits ch g) := by
  unfold State.releaseUnits
  dsimp only
  split
  · exact (Outside.foldl _ (fun t i => t.freeSlot_outside ch i) _ s).step (State.updChan_outside _ ch _)
  · split
    · exact .refl s _
    · exact Outside.foldl _ (fun t i => t.freeSlot_outside ch i) _ s

theorem State.smIssue_of_issues {s : State} {p : Fin 4} {code : Nat} {n : NextOp} (issues : s.Issues (.sm p) code (some .main) n)
    (act : NextOp → State → List Byte × State) (start : NextOp → List Byte → State → State) :
    s.smIssue p code act start = start n (act n s).1 ((act n s).2.issued (.sm p) n.op) := by
  obtain ⟨next, opcode, may⟩ := issues
  unfold State.smIssue
  simp [next, opcode, may]

theorem State.emitInto_outside (s : State) (e : Emit) (r : List Byte) : s.Outside [.mem, .flags, .ife] (s.emitInto e r) :=
  (((s.writePool_outside _ r).mono (by decide)).step (State.setFlag_outside _ _)).step (.setIfe _ _)

/-- One record given to the emission of its slot, or kept. -/
theorem State.emitKept_outside (s : State) (slot : Nat) : s.Outside [.mem, .flags, .ife] (s.emitKept slot) := by
  have given : ∀ (kept : List (List Byte)) (a : State × List (List Byte)), s.Outside [.mem, .flags, .ife] a.1 →
      s.Outside [.mem, .flags, .ife] (kept.foldl (fun (a : State × List (List Byte)) r =>
        match a.1.emitOf slot with
        | some e => (a.1.emitInto e r, a.2)
        | none => (a.1, a.2 ++ [r])) a).1 := by
    intro kept
    induction kept with
    | nil => exact fun _ moved => moved
    | cons r kept ih =>
      intro a moved
      rw [List.foldl_cons]
      apply ih
      split
      · exact moved.and (State.emitInto_outside _ _ _)
      · exact moved
  unfold State.emitKept
  dsimp only
  split
  · exact (given _ _ (.refl s _)).step (.setIfe _ _)
  · exact (given _ _ (.refl s _)).step (.setIfe _ _)

theorem State.emitStart_starts (s : State) (n : NextOp) : ∃ b : State, s.Outside [.ife] b
    ∧ s.emitStart n = (b.startOp .ife n .main 0 []).emitKept n.op.argA := ⟨_, .setIfe s _, rfl⟩

theorem State.Outside.besideUnit {s t : State} (h : s.Outside [.sched, .flags, .sm, .mem, .ife, .mt] t) :
    { t with sched := s.sched, flags := s.flags, sm := s.sm, mem := s.mem, ife := s.ife, mt := s.mt } = s := by
  refine h.restored (fun p mem => ?_) (fun p out => ?_)
  · cases p <;> simp_all
  · cases p <;> simp_all

/-! ## The vision engines (R136 to R154) -/

theorem State.visCount_outside (s : State) (i : Fin 4) (c : Fin 8) (k : Nat) : s.Outside [.vis] (s.visCount i c k) := s.updVis_outside i _

theorem State.visOnce_outside (s : State) (i : Fin 4) (bit code a0 a1 a2 : Nat) : s.Outside [.vis, .evr] (s.visOnce i bit code a0 a1 a2) := by
  unfold State.visOnce
  exact .ite (.refl s _) (((s.updVis_outside i _).mono (by decide)).step (State.event_outside _ _ _ _ _ _))

theorem State.visFlagged_outside (s : State) (i : Fin 4) (n : NextOp) (h : SrcHdr) : s.Outside [.vis, .evr] (s.visFlagged i n h) := by
  unfold State.visFlagged
  exact .ite (((s.updVis_outside i _).mono (by decide)).step (State.visOnce_outside _ _ _ _ _ _ _)) (.refl s _)

/-- What a vision operation does before it starts. -/
abbrev visionParts : List Part := [.vis, .evr, .free]

theorem State.Outside.besideVisionStart {s t : State} (h : s.Outside [.sched, .flags, .sm, .vis, .evr, .free] t) :
    { t with sched := s.sched, flags := s.flags, sm := s.sm, vis := s.vis, evr := s.evr, free := s.free } = s := by
  refine h.restored (fun p mem => ?_) (fun p out => ?_)
  · cases p <;> simp_all
  · cases p <;> simp_all

/-- A vision operation that starts from what it changed before: the answer of every vision engine. -/
theorem State.vision_starts {s b : State} {tg : Target} (engine : ∀ c, tg ≠ .core c) {n : NextOp}
    (before : (s.issued tg n.op).Outside visionParts b) (cycles : Nat) (ws : List MemWrite) :
    s.StartedWith (b.startOp tg n .main cycles ws) tg .main n cycles ws
      ∧ s.Outside [.sched, .flags, .sm, .vis, .evr, .free] (b.startOp tg n .main cycles ws) :=
  ⟨((s.issued_movedOn tg n.op).trans before).startOp .main n cycles ws,
    ((((s.issued_outside_engine engine n.op).mono (by decide)).step before).step (State.startOp_outside _ tg n .main cycles ws))⟩

theorem State.vision_answers {s t : State} {tg : Target} (engine : ∀ c, tg ≠ .core c) {n : NextOp}
    (starts : ∃ (b : State) (cycles : Nat) (ws : List MemWrite), (s.issued tg n.op).Outside visionParts b
      ∧ t = b.startOp tg n .main cycles ws) : s.Started t tg .main n
      ∧ { t with sched := s.sched, flags := s.flags, sm := s.sm, vis := s.vis, evr := s.evr, free := s.free } = s := by
  obtain ⟨b, cycles, ws, before, rfl⟩ := starts
  obtain ⟨started, frame⟩ := State.vision_starts engine before cycles ws
  exact ⟨started.started, frame.besideVisionStart⟩

/-- What a warp writes: its rows, and then the header of its image. -/
theorem State.warpOp_writes {s : State} {n : NextOp} {map : Option (List Byte)}
    (read : map = if n.arg 32 2 = 0xFFFF then none else some ((s.issued .pw n.op).objBytes (n.img.objects.getD (n.arg 32 2) 0))) :
    ∃ b : State, (s.issued .pw n.op).Outside visionParts b ∧ (s.issued .pw n.op).warpOp n = b.startOp .pw n .main
      (ceilDiv ((n.img16 16).width * n.arg 36 2) 2 + 16)
      ((List.range (n.arg 36 2)).map (fun r => poolWrite ((n.img16 16).row (n.arg 34 2 + r))
          ((s.issued .pw n.op).warpRow map (n.img16 0) (n.img16 16) (n.arg 38 1) (n.arg 34 2 + r)).1)
        ++ [poolWrite (n.img16 16).addr (visionHdr ((s.issued .pw n.op).srcHdr (n.img16 0)) 0 0 0 (n.img16 16).width (n.img16 16).height
          (n.arg 34 2 + n.arg 36 2))]) := by
  subst read
  unfold State.warpOp
  dsimp only
  rw [List.map_map]
  exact ⟨_, ((State.visFlagged_outside _ 0 n _).mono (by decide)).step (State.visCount_outside _ _ _ _), rfl⟩

theorem State.warpOp_starts {s : State} (n : NextOp) : ∃ (b : State) (cycles : Nat) (ws : List MemWrite),
    (s.issued .pw n.op).Outside visionParts b ∧ (s.issued .pw n.op).warpOp n = b.startOp .pw n .main cycles ws := by
  exact ⟨_, _, _, (((State.visFlagged_outside _ 0 n _).mono (by decide)).step (State.visCount_outside _ _ _ _)), rfl⟩

theorem State.pyramidOp_starts {s : State} (n : NextOp) : ∃ (b : State) (cycles : Nat) (ws : List MemWrite),
    (s.issued .pw n.op).Outside visionParts b ∧ (s.issued .pw n.op).pyramidOp n = b.startOp .pw n .main cycles ws := by
  exact ⟨_, _, _, (State.visFlagged_outside _ 0 n _).mono (by decide), rfl⟩

theorem State.detectOp_starts {s : State} (n : NextOp) : ∃ (b : State) (cycles : Nat) (ws : List MemWrite),
    (s.issued .fe n.op).Outside visionParts b ∧ (s.issued .fe n.op).detectOp n = b.startOp .fe n .main cycles ws := by
  refine ⟨_, _, _, ?_, rfl⟩
  exact ((((((State.visFlagged_outside _ 1 n _).mono (by decide)).step (.setFree _ _))).step (State.visCount_outside _ _ _ _)).step
    (State.visCount_outside _ _ _ _)).step (State.updVis_outside _ _ _)

theorem State.trackOp_starts {s : State} (n : NextOp) : ∃ (b : State) (cycles : Nat) (ws : List MemWrite),
    (s.issued .trk n.op).Outside visionParts b ∧ (s.issued .trk n.op).trackOp n = b.startOp .trk n .main cycles ws := by
  refine ⟨_, _, _, ?_, rfl⟩
  have base : ∀ (h : SrcHdr) (k : Fin 7 → Nat) (left : Nat), (s.issued .trk n.op).Outside visionParts
      (((List.finRange 7).foldl (fun (s : State) (c : Fin 7) => s.visCount 2 ⟨c.val, by omega⟩ (k c))
        ((s.issued .trk n.op).visFlagged 2 n h)).visCount 2 7 left) := fun h k left =>
    (((State.visFlagged_outside _ 2 n h).mono (by decide)).step
      (Outside.foldl (parts := [.vis]) _ (fun t c => t.visCount_outside _ _ _) _ _)).step (State.visCount_outside _ _ _ _)
  exact .ite (base _ _ _) (((base _ _ _).step (State.updVis_outside _ _ _)).step (State.visOnce_outside _ _ _ _ _ _ _))

theorem State.stripeOp_starts {s : State} (n : NextOp) : ∃ (b : State) (cycles : Nat) (ws : List MemWrite),
    (s.issued .fth n.op).Outside visionParts b ∧ (s.issued .fth n.op).stripeOp n = b.startOp .fth n .main cycles ws := by
  refine ⟨_, _, _, ?_, rfl⟩
  exact (((((((State.visFlagged_outside _ 3 n _).mono (by decide)).step (.setFree _ _)).step (State.updVis_outside _ _ _)).step
    (State.visCount_outside _ _ _ _)).step (State.visCount_outside _ _ _ _)).step (State.visCount_outside _ _ _ _)).step
    (State.visCount_outside _ _ _ _)

/-! ## The cores (R161, R170) -/

theorem State.isolation_outside (s : State) (p : Fin 4) (target : Nat) (ts : List Tensor) : s.Outside [.sec, .evr] (s.isolation p target ts) := by
  unfold State.isolation
  split
  · exact .refl s _
  · exact .ite (.refl s _) (((Outside.setSec s _).mono (by decide)).step (State.event_outside _ _ _ _ _ _))

theorem State.Outside.besideCoreStart {s t : State} (h : s.Outside [.sched, .flags, .sm, .pm, .cores, .evr, .sec] t) :
    { t with sched := s.sched, flags := s.flags, sm := s.sm, pm := s.pm, cores := s.cores, evr := s.evr, sec := s.sec } = s := by
  refine h.restored (fun p mem => ?_) (fun p out => ?_)
  · cases p <;> simp_all
  · cases p <;> simp_all

/-- An operation of a core that starts after its tensors were looked at and its generator has moved on: of the cores nothing but that
generator has changed. -/
theorem State.core_starts {s : State} {c : Fin 8} (n : NextOp) (ts : List Tensor) (i : Fin 2) (g : Dword) (unit : OpUnit) (cycles : Nat)
    (ws : List MemWrite) (chk : Check) (aux : List Nat) {t : State}
    (eq : t = ((((s.issued (.core c) n.op).isolation n.part c.val ts).updCore c fun x =>
      { x with stoch := x.stoch.set i g }).startCore c n unit cycles ws chk aux)) :
    s.StartedWith t (.core c) unit n cycles ws ∧ { t.cores[c] with stoch := s.cores[c].stoch } = s.cores[c]
      ∧ (∀ d, d ≠ c → t.cores[d] = s.cores[d])
      ∧ { t with sched := s.sched, flags := s.flags, sm := s.sm, pm := s.pm, cores := s.cores, evr := s.evr, sec := s.sec } = s := by
  have seen := ((s.issued (.core c) n.op).isolation_outside n.part c.val ts)
  have cores : ((s.issued (.core c) n.op).isolation n.part c.val ts).cores = s.cores := by
    rw [seen.cores, (s.issued_outside (.core c) n.op).cores]
  have moved := ((s.issued_movedOn (.core c) n.op).trans seen)
  have outside : s.Outside [.sched, .flags, .sm, .pm, .cores, .evr, .sec] ((s.issued (.core c) n.op).isolation n.part c.val ts) :=
    ((s.issued_outside (.core c) n.op).mono (by decide)).step seen
  generalize (s.issued (.core c) n.op).isolation n.part c.val ts = u at eq seen cores moved outside
  have stepped := u.updCore_outside c fun x => { x with stoch := x.stoch.set i g }
  have self : (u.updCore c fun x => { x with stoch := x.stoch.set i g }).cores[c] = { s.cores[c] with stoch := s.cores[c].stoch.set i g } := by
    rw [State.updCore_cores_self, cores]
  have other : ∀ d, d ≠ c → (u.updCore c fun x => { x with stoch := x.stoch.set i g }).cores[d] = s.cores[d] := fun d ne => by
    rw [State.updCore_cores_ne u ne _, cores]
  generalize (u.updCore c fun x => { x with stoch := x.stoch.set i g }) = v at eq stepped self other
  have last := v.startCore_outside c n unit cycles ws chk aux
  have started := (moved.trans stepped).startCore unit n cycles ws chk aux
  rw [← eq] at last started
  refine ⟨started, ?_, fun d ne => ?_, ((outside.step stepped).step last).besideCoreStart⟩
  · rw [last.cores, self]
  · rw [last.cores, other d ne]

theorem State.arrOp_of_issues {s : State} {c : Fin 8} {code : Nat} {conv : Bool} {chk : Check} {n : NextOp}
    (issues : s.Issues (.core c) code (some .main) n) : s.arrOp c code conv chk =
      (let p := n.img.arr n.op.argB
       let r := (s.issued (.core c) n.op).arrResult n.part p conv (s.issued (.core c) n.op).cores[c].stoch[(0 : Fin 2)]
       (((s.issued (.core c) n.op).isolation n.part c.val [p.a]).updCore c fun x => { x with stoch := x.stoch.set (0 : Fin 2) r.2.2.2 }).startCore c n
         .main (arrCycles p conv) r.1 chk ([r.2.2.1, 0, 0] ++ r.2.1)) := State.tryIssue_of_issues _ issues

theorem State.vectorOp_of_issues {s : State} {c : Fin 8} {chk : Check} {n : NextOp}
    (issues : s.Issues (.core c) 0x20 (some .vector) n) : s.vectorOp c chk =
      (let p := n.img.vec n.op.argB
       let r := (s.issued (.core c) n.op).vecResult n.part p (s.issued (.core c) n.op).cores[c].stoch[(1 : Fin 2)]
       (((s.issued (.core c) n.op).isolation n.part c.val (if twoSources p.func then [p.src0, p.src1] else [p.src0])).updCore c fun x =>
         { x with stoch := x.stoch.set (1 : Fin 2) r.2.2.2 }).startCore c n .vector (vecCycles p) r.1 chk [r.2.1, r.2.2.1, p.func]) :=
  State.tryIssue_of_issues _ issues

/-! ## DMA (R459) -/

theorem State.dmaCycles_congr {s t : State} (same : t.pm = s.pm) (tg : Target) (d : DmaDesc) : t.dmaCycles tg d = s.dmaCycles tg d := by
  unfold State.dmaCycles State.endWidth
  rw [same]

theorem State.Outside.besideCoreDma {s t : State} (h : s.Outside [.sched, .flags, .sm, .pm, .evr] t) :
    { t with sched := s.sched, flags := s.flags, sm := s.sm, pm := s.pm, evr := s.evr } = s := by
  refine h.restored (fun p mem => ?_) (fun p out => ?_)
  · cases p <;> simp_all
  · cases p <;> simp_all

theorem State.Outside.besideDma {s t : State} (h : s.Outside [.sched, .flags, .sm, .evr] t) :
    { t with sched := s.sched, flags := s.flags, sm := s.sm, evr := s.evr } = s := by
  refine h.restored (fun p mem => ?_) (fun p out => ?_)
  · cases p <;> simp_all
  · cases p <;> simp_all

/-- The DMA of a core starts whatever its check will find. -/
theorem State.dmaOp_core {s : State} {c : Fin 8} {n : NextOp} (chk : Check) (issues : s.Issues (.core c) 0x04 (some .dma) n) :
    ∃ chk', s.dmaOp (.core c) chk = (((s.issued (.core c) n.op).unmappedEvents (dmaRanges (.core c) (n.img.dmaDesc n.op.argB))).startCore c n .dma
      ((s.issued (.core c) n.op).dmaCycles (.core c) (n.img.dmaDesc n.op.argB))
      (((s.issued (.core c) n.op).dmaWrites (.core c) (n.img.dmaDesc n.op.argB)).flatMap (s.issued (.core c) n.op).mappedParts) chk' [0, 0, 0]) := by
  have cycles := State.dmaCycles_congr ((s.issued (.core c) n.op).unmappedEvents_outside (dmaRanges (.core c) (n.img.dmaDesc n.op.argB))).pm
    (.core c) (n.img.dmaDesc n.op.argB)
  unfold State.dmaOp
  rw [State.tryIssue_of_issues _ issues]
  dsimp only
  rw [cycles]
  exact ⟨_, rfl⟩

/-- The DMA of an engine starts where its check is clean and its source is sound. -/
theorem State.dmaOp_engine {s : State} {tg : Target} {n : NextOp} (engine : ∀ c, tg ≠ .core c) (issues : s.Issues tg 0x04 (some .main) n)
    (sound : s.dmaPoison tg (n.img.dmaDesc n.op.argB) = false) :
    s.dmaOp tg .clean = (((s.issued tg n.op).unmappedEvents (dmaRanges tg (n.img.dmaDesc n.op.argB))).startOp tg n .main
      ((s.issued tg n.op).dmaCycles tg (n.img.dmaDesc n.op.argB))
      (((s.issued tg n.op).dmaWrites tg (n.img.dmaDesc n.op.argB)).flatMap (s.issued tg n.op).mappedParts)) := by
  have cycles := State.dmaCycles_congr ((s.issued tg n.op).unmappedEvents_outside (dmaRanges tg (n.img.dmaDesc n.op.argB))).pm
    tg (n.img.dmaDesc n.op.argB)
  have sound' : (s.issued tg n.op).dmaPoison tg (n.img.dmaDesc n.op.argB) = false := by
    rw [← sound]
    unfold State.dmaPoison State.objAt
    rw [(s.issued_outside tg n.op).mt]
  cases tg with
  | core c => exact absurd rfl (engine c)
  | _ =>
    unfold State.dmaOp
    dsimp only
    rw [State.tryIssue_of_issues _ issues]
    dsimp only [State.engineCheck]
    rw [sound', cycles, if_neg Bool.false_ne_true]

theorem Seq.accepts_core (q : Seq) (c : Fin 8) (o : Op) (u : OpUnit) :
    q.accepts (.core c) o (some u) = true ↔ ∀ r ∈ q.running, r.unit ≠ u := by
  unfold Seq.accepts
  simp only [Bool.not_eq_true', List.any_eq_false, decide_eq_true_eq, ne_eq]

end Sys2Proof.Machine

open Sys2Proof Sys2Proof.Machine

/-- Settles O21: each operation that may issue is put among those that run from the state that its issue leaves. -/
theorem operationsStart : Obligations.OperationsStart := by
  refine ⟨fun s tg n i code cycles u ws ⟨p, mem⟩ issues => ?_, fun s t tg n i code mem issues => ?_, fun s n map issues read => ?_,
    fun s c chk n => ⟨fun i code conv mem issues => ?_, fun issues => ?_, fun issues => ?_, fun tg engine issues sound => ?_,
      fun o => Seq.accepts_core _ c o .main⟩⟩
  · simp only [List.mem_cons, Prod.mk.injEq, List.not_mem_nil, or_false] at mem
    rcases mem with ⟨rfl, rfl, rfl, rfl, rfl, rfl⟩ | ⟨rfl, rfl, rfl, rfl, rfl, rfl⟩ | ⟨rfl, rfl, rfl, rfl, rfl, rfl⟩
      | ⟨rfl, rfl, rfl, rfl, rfl, rfl⟩ | ⟨rfl, rfl, rfl, rfl, rfl, rfl⟩ | ⟨rfl, rfl, rfl, rfl, rfl, rfl⟩
    · have run := State.smIssue_of_issues issues (fun n s => s.takeUnits n.op.channel) fun n r s =>
        s.startOp (.sm p) n .main (64 + 4 * fieldAt r 2 2) [poolWrite (n.arg 0 4) r]
      have before := s.takeUnits_outside n.op.channel
      generalize (s.takeUnits n.op.channel).2 = b at run before
      have started := (State.MovedOn.of_before before (b.issued_movedOn (.sm p) n.op)).startOp .main n
        (64 + 4 * fieldAt (s.takeUnits n.op.channel).1 2 2) [poolWrite (n.arg 0 4) (s.takeUnits n.op.channel).1]
      refine ⟨_, congrArg Host.Outcome.next run, started, State.Outside.besideUnit ?_⟩
      exact (before.mono (by decide)).step (b.startOp_outside_engine (by simp) _ n _ _)
    · have run := State.smIssue_of_issues issues (fun n s => ([], s.releaseUnits n.op.channel n.op.argB)) fun n _ s =>
        s.startOp (.sm p) n .main 16 []
      have before := s.releaseUnits_outside n.op.channel n.op.argB
      dsimp only at run
      generalize s.releaseUnits n.op.channel n.op.argB = b at run before
      have started := (State.MovedOn.of_before before (b.issued_movedOn (.sm p) n.op)).startOp .main n 16 []
      refine ⟨_, congrArg Host.Outcome.next run, started, State.Outside.besideUnit ?_⟩
      exact (before.mono (by decide)).step (b.startOp_outside_engine (by simp) _ n _ _)
    · have run := State.tryIssue_of_issues (fun (n : NextOp) (s : State) => s.emitStart n) issues
      obtain ⟨b, before, eq⟩ := (s.issued .ife n.op).emitStart_starts n
      have started := ((s.issued_movedOn .ife n.op).trans before).startOp .main n 0 []
      have kept := (b.startOp .ife n .main 0 []).emitKept_outside n.op.argA
      refine ⟨_, congrArg Host.Outcome.next (run.trans eq), started.of_sched kept.sched, State.Outside.besideUnit ?_⟩
      exact ((((s.issued_outside_engine (by simp) n.op).mono (by decide)).step before).step (State.startOp_outside _ .ife n _ _ _)).step kept
    · have run := State.tryIssue_of_issues (fun (n : NextOp) (s : State) =>
        s.startOp .ps n .vector ((s.fileList n.img n.op).foldl (fun c r => c + 4 * ceilDiv r.length 64) 64) []) issues
      exact ⟨_, congrArg Host.Outcome.next run, (s.issued_movedOn .ps n.op).startOp .vector n _ [],
        State.Outside.besideUnit ((s.startOp_outside_engine (by simp) .vector n _ []).mono (by decide))⟩
    · have run := State.tryIssue_of_issues (fun (n : NextOp) (s : State) =>
        let s := s.startOp .mv n .main 0 []
        { s with mt := { s.mt with window := some { endGrain := n.arg 0 2, classMask := n.arg 2 1, left := n.arg 4 4 } } }) issues
      have started := (s.issued_movedOn .mv n.op).startOp .main n 0 []
      have moves := s.startOp_outside_engine (t := .mv) (by simp) .main n 0 []
      dsimp only at run
      generalize (s.issued .mv n.op).startOp .mv n .main 0 [] = t at run started moves
      refine ⟨_, congrArg Host.Outcome.next run, started.of_sched rfl, ?_⟩
      exact ((moves.mono (by decide)).step (State.Outside.setMt t _)).besideUnit
    · have run := State.tryIssue_of_issues (fun (n : NextOp) (s : State) =>
        s.startOp .slv n .main (2064 + 24 * (s.commitList (n.arg 0 8)).length) []) issues
      exact ⟨_, congrArg Host.Outcome.next run, (s.issued_movedOn .slv n.op).startOp .main n _ [],
        State.Outside.besideUnit ((s.startOp_outside_engine (by simp) .main n _ []).mono (by decide))⟩
  · simp only [List.mem_cons, Prod.mk.injEq, List.not_mem_nil, or_false] at mem
    rcases mem with ⟨rfl, rfl, rfl, rfl⟩ | ⟨rfl, rfl, rfl, rfl⟩ | ⟨rfl, rfl, rfl, rfl⟩ | ⟨rfl, rfl, rfl, rfl⟩ | ⟨rfl, rfl, rfl, rfl⟩
    · have run := State.tryIssue_of_issues (fun (n : NextOp) (s : State) => s.warpOp n) issues
      exact ⟨congrArg Host.Outcome.next run, State.vision_answers (by simp) (State.warpOp_starts n)⟩
    · have run := State.tryIssue_of_issues (fun (n : NextOp) (s : State) => s.pyramidOp n) issues
      exact ⟨congrArg Host.Outcome.next run, State.vision_answers (by simp) (State.pyramidOp_starts n)⟩
    · have run := State.tryIssue_of_issues (fun (n : NextOp) (s : State) => s.detectOp n) issues
      exact ⟨congrArg Host.Outcome.next run, State.vision_answers (by simp) (State.detectOp_starts n)⟩
    · have run := State.tryIssue_of_issues (fun (n : NextOp) (s : State) => s.trackOp n) issues
      exact ⟨congrArg Host.Outcome.next run, State.vision_answers (by simp) (State.trackOp_starts n)⟩
    · have run := State.tryIssue_of_issues (fun (n : NextOp) (s : State) => s.stripeOp n) issues
      exact ⟨congrArg Host.Outcome.next run, State.vision_answers (by simp) (State.stripeOp_starts n)⟩
  · have run := State.tryIssue_of_issues (fun (n : NextOp) (s : State) => s.warpOp n) issues
    obtain ⟨b, before, eq⟩ := State.warpOp_writes read
    exact ⟨_, congrArg Host.Outcome.next (run.trans eq), (State.vision_starts (by simp) before _ _).1⟩
  · have cores : (s.issued (.core c) n.op).cores = s.cores := (s.issued_outside (.core c) n.op).cores
    have run := State.arrOp_of_issues (conv := conv) (chk := chk) (code := code) issues
    rw [cores] at run
    have answers := State.core_starts n _ 0 _ .main _ _ chk _ run
    simp only [List.mem_cons, Prod.mk.injEq, List.not_mem_nil, or_false] at mem
    rcases mem with ⟨rfl, rfl, rfl⟩ | ⟨rfl, rfl, rfl⟩
    · exact ⟨_, rfl, answers⟩
    · exact ⟨_, rfl, answers⟩
  · have cores : (s.issued (.core c) n.op).cores = s.cores := (s.issued_outside (.core c) n.op).cores
    have run := State.vectorOp_of_issues (chk := chk) issues
    rw [cores] at run
    exact ⟨_, rfl, State.core_starts n _ 1 _ .vector _ _ chk _ run⟩
  · obtain ⟨chk', run⟩ := State.dmaOp_core chk issues
    have noted := (s.issued (.core c) n.op).unmappedEvents_outside (dmaRanges (.core c) (n.img.dmaDesc n.op.argB))
    refine ⟨_, congrArg Host.Outcome.next run, ((s.issued_movedOn (.core c) n.op).trans noted).startCore .dma n _ _ chk' [0, 0, 0],
      State.Outside.besideCoreDma ?_⟩
    exact (((s.issued_outside (.core c) n.op).mono (by decide)).step noted).step (State.startCore_outside _ c n _ _ _ _ _)
  · have run := State.dmaOp_engine engine issues sound
    have noted := (s.issued tg n.op).unmappedEvents_outside (dmaRanges tg (n.img.dmaDesc n.op.argB))
    refine ⟨_, congrArg Host.Outcome.next run, ((s.issued_movedOn tg n.op).trans noted).startOp .main n _ _, State.Outside.besideDma ?_⟩
    exact (((s.issued_outside_engine engine n.op).mono (by decide)).step noted).step (State.startOp_outside _ tg n _ _ _)

end

section
set_option Elab.async false
/-!
PROOFS. Field and fusion operations start, and one whose check fails does not run.
-/
namespace Sys2Proof.Machine
open State (Outside)

/-! ## The checks -/

/-- A check that finds nothing, or only what the memories correct. -/
theorem State.engineCheck_passes {s a : State} {tg : Target} {chk : Check} (passes : s.engineCheck tg chk = (none, a)) :
    s.Outside [.evr, .mt] a := fun p out => by
  have same := congrArg (State.part · p) (State.engineCheck_frame passes).1
  cases p <;> simp_all

theorem State.engineFailed_outside (s : State) (slot : Nat) : s.Outside [.evr] (s.engineFailed slot) := by
  unfold State.engineFailed
  dsimp only
  split
  · exact .ite ((Outside.setEvr s _).step (State.event_outside _ _ _ _ _ _)) (.setEvr s _)
  · exact .setEvr s _

/-- A check by which a unit disagrees. -/
theorem State.engineCheck_disagrees {s a : State} {tg : Target} {chk : Check} {u : Nat} (fails : s.engineCheck tg chk = (some u, a))
    {v : Byte} (unit : chk = .once v ∨ chk = .twice v) : s.Outside [.evr] a := by
  rcases unit with rfl | rfl
  · obtain ⟨-, rfl⟩ := Prod.mk.inj fails
    exact s.engineFailed_outside _
  · obtain ⟨-, rfl⟩ := Prod.mk.inj fails
    exact s.engineFailed_outside _

/-! ## The field engine -/

theorem State.fldCount_outside (s : State) (i : Fin 7) (n : Nat) : s.Outside [.fld] (s.fldCount i n) := .setFld s _

theorem State.lineLimit_outside (s : State) (index dropped lines : Nat) (train : Bool) :
    s.Outside [.fld, .evr] (s.lineLimit index dropped lines train) := by
  unfold State.lineLimit
  have noted : s.Outside [.fld, .evr] { s.fldCount 2 1 with fld := { (s.fldCount 2 1).fld with
      limit := true, limitSaid := true, spanLines := (s.fldCount 2 1).fld.spanLines || train } } :=
    ((s.fldCount_outside 2 1).mono (by decide)).step (.setFld _ _)
  exact .ite (noted.step (State.event_outside _ _ _ _ _ _)) noted

theorem State.updAcre_outside (s : State) (key : Nat) (f : Acre → Acre) : s.Outside [.fld] (s.updAcre key f) := .setFld s _

theorem State.drawRays_outside (k : Nat) : ∀ (s : State) (i : Nat), s.Outside [.fld] (s.drawRays k i).2 := by
  induction k with
  | zero => exact fun s _ => .refl s _
  | succ k ih =>
    intro s i
    unfold State.drawRays
    dsimp only
    split
    · exact .refl s _
    · exact (s.updAcre_outside _ _).and (ih _ _)

theorem State.gatherRays_outside (s : State) (n : NextOp) : s.Outside [.fld] (s.gatherRays n).2 := by
  unfold State.gatherRays
  split
  · exact (s.fldCount_outside _ _).step (.setFld _ _)
  · exact .setFld s _

/-- What a field operation changes before it starts. -/
abbrev fieldParts : List Part := [.fld, .evr, .free]

/-- The operation of the field engine that starts from what it changed before. -/
abbrev State.FieldStarts (a t : State) (n : NextOp) : Prop :=
  ∃ (b : State) (cycles : Nat) (ws : List MemWrite), a.Outside fieldParts b ∧ t = b.startOp .fld n .main cycles ws

theorem State.raysOp_starts (a : State) (n : NextOp) : a.FieldStarts (a.raysOp n) n :=
  ⟨_, _, _, (a.fldCount_outside _ _).mono (by decide), rfl⟩

theorem State.gather_starts (a : State) (n : NextOp) : a.FieldStarts (a.gather n) n := by
  unfold State.FieldStarts State.gather
  have taken := a.gatherRays_outside n
  generalize a.gatherRays n = r at taken
  obtain ⟨rays, u⟩ := r
  dsimp only
  refine ⟨_, _, _, ?_, rfl⟩
  have counted : ∀ (i j k : Nat) (f : Field), a.Outside fieldParts
      { ((u.fldCount 0 i).fldCount 1 j).fldCount 3 k with fld := f } := fun i j k f =>
    (((((taken.mono (by decide)).step (State.fldCount_outside _ _ _)).step (State.fldCount_outside _ _ _)).step
      (State.fldCount_outside _ _ _)).step (.setFld _ _))
  split
  · exact (counted _ _ _ _).step (State.lineLimit_outside _ _ _ _ _)
  · exact counted _ _ _ _

theorem State.composite_starts (a : State) (n : NextOp) : a.FieldStarts (a.composite n) n := by
  unfold State.FieldStarts State.composite
  dsimp only
  split
  · exact ⟨_, _, _, .refl a _, rfl⟩
  · have counted : ∀ (k : Nat) (f : Field), a.Outside fieldParts { a.fldCount 4 k with fld := f } := fun k f =>
      ((a.fldCount_outside 4 k).mono (by decide)).step (.setFld _ _)
    split
    · exact ⟨_, _, _, counted _ _, rfl⟩
    · exact ⟨_, _, _, counted _ _, rfl⟩

theorem State.scatter_starts (a : State) (n : NextOp) : a.FieldStarts (a.scatter n) n := by
  unfold State.FieldStarts State.scatter
  dsimp only
  split
  · exact ⟨_, _, _, .refl a _, rfl⟩
  · have counted : ∀ (j k : Nat), a.Outside fieldParts ((a.fldCount 1 j).fldCount 5 k) := fun j k =>
      ((a.fldCount_outside 1 j).mono (by decide)).step (State.fldCount_outside _ _ _)
    exact ⟨_, _, _, .ite ((counted _ _).step (State.lineLimit_outside _ _ _ _ _)) (counted _ _), rfl⟩

theorem State.compareOp_starts (a : State) (n : NextOp) : a.FieldStarts (a.compareOp n) n := ⟨_, _, _, .refl a _, rfl⟩

theorem State.replay_starts (a : State) (n : NextOp) : a.FieldStarts (a.replay n) n := by
  unfold State.FieldStarts State.replay
  split
  · exact ⟨_, _, _, (State.drawRays_outside _ a 0).mono (by decide), rfl⟩
  · exact ⟨_, _, _, (a.fldCount_outside _ _).mono (by decide), rfl⟩

theorem State.slotFill_starts (a : State) (n : NextOp) : ∃ (cycles : Nat) (ws : List MemWrite), a.slotFill n = a.startOp .fld n .main cycles ws := by
  unfold State.slotFill
  split
  · exact ⟨_, _, rfl⟩
  · exact ⟨_, _, rfl⟩

theorem State.fldIssue_passes {s a : State} {code : Nat} {chk : Check} {n : NextOp} (issues : s.Issues .fld code (some .main) n)
    (passes : (s.issued .fld n.op).engineCheck .fld chk = (none, a)) (k : NextOp → State → State) : s.fldIssue code chk k = k n a := by
  unfold State.fldIssue
  rw [State.tryIssue_of_issues _ issues, passes]

theorem State.fldIssue_fails {s a : State} {code u : Nat} {chk : Check} {n : NextOp} (issues : s.Issues .fld code (some .main) n)
    (fails : (s.issued .fld n.op).engineCheck .fld chk = (some u, a)) (k : NextOp → State → State) :
    s.fldIssue code chk k = a.fldMismatch n.index u := by
  unfold State.fldIssue
  rw [State.tryIssue_of_issues _ issues, fails]

theorem State.Outside.besideField {s t : State} (h : s.Outside [.sched, .flags, .sm, .fld, .evr, .free, .mt] t) :
    { t with sched := s.sched, flags := s.flags, sm := s.sm, fld := s.fld, evr := s.evr, free := s.free, mt := s.mt } = s := by
  refine h.restored (fun p mem => ?_) (fun p out => ?_)
  · cases p <;> simp_all
  · cases p <;> simp_all

/-- A field operation whose check passes: what it answers. -/
theorem State.field_answers {s a t : State} {n : NextOp} {chk : Check}
    (passes : (s.issued .fld n.op).engineCheck .fld chk = (none, a)) (starts : a.FieldStarts t n) : s.Started t .fld .main n
      ∧ { t with sched := s.sched, flags := s.flags, sm := s.sm, fld := s.fld, evr := s.evr, free := s.free, mt := s.mt } = s
      ∧ t.mt = a.mt ∧ (chk = .clean → t.mt = s.mt) := by
  obtain ⟨b, cycles, ws, before, rfl⟩ := starts
  have checked := State.engineCheck_passes passes
  have issued := s.issued_outside_engine (t := .fld) (by simp) n.op
  have last := b.startOp_outside .fld n .main cycles ws
  have moved := ((s.issued_movedOn .fld n.op).trans checked).trans before
  have mt : (b.startOp .fld n .main cycles ws).mt = a.mt := by rw [last.mt, before.mt]
  refine ⟨(moved.startOp .main n cycles ws).started, ?_, mt, fun clean => ?_⟩
  · exact State.Outside.besideField ((((issued.mono (by decide)).step checked).step before).step last)
  · rw [mt, (State.engineCheck_frame passes).2 clean, issued.mt]

/-! ## The fusion engine -/

theorem State.fusIssue_passes {s a : State} {code : Nat} {chk : Check} {n : NextOp} (issues : s.Issues .fus code (some .main) n)
    (passes : (s.issued .fus n.op).engineCheck .fus chk = (none, a)) (k : NextOp → State → State) : s.fusIssue code chk k = k n a := by
  unfold State.fusIssue
  rw [State.tryIssue_of_issues _ issues, passes]

theorem State.fusIssue_fails {s a : State} {code u : Nat} {chk : Check} {n : NextOp} (issues : s.Issues .fus code (some .main) n)
    (fails : (s.issued .fus n.op).engineCheck .fus chk = (some u, a)) (k : NextOp → State → State) :
    s.fusIssue code chk k = a.fusMismatch 0 n.index u := by
  unfold State.fusIssue
  rw [State.tryIssue_of_issues _ issues, fails]

theorem State.Outside.besideUpdate {s t : State} (h : s.Outside [.sched, .flags, .sm, .evr, .mt] t) :
    { t with sched := s.sched, flags := s.flags, sm := s.sm, evr := s.evr, mt := s.mt } = s := by
  refine h.restored (fun p mem => ?_) (fun p out => ?_)
  · cases p <;> simp_all
  · cases p <;> simp_all

/-- A fusion operation with a check that passes. -/
theorem State.update_answers {s a : State} {n : NextOp} {chk : Check} (passes : (s.issued .fus n.op).engineCheck .fus chk = (none, a))
    (cycles : Nat) : s.Started (a.startOp .fus n .main cycles []) .fus .main n
      ∧ { a.startOp .fus n .main cycles [] with sched := s.sched, flags := s.flags, sm := s.sm, evr := s.evr, mt := s.mt } = s
      ∧ (a.startOp .fus n .main cycles []).mt = a.mt ∧ (chk = .clean → (a.startOp .fus n .main cycles []).mt = s.mt) := by
  have checked := State.engineCheck_passes passes
  have issued := s.issued_outside_engine (t := .fus) (by simp) n.op
  have last := a.startOp_outside .fus n .main cycles []
  refine ⟨(((s.issued_movedOn .fus n.op).trans checked).startOp .main n cycles []).started, ?_, last.mt, fun clean => ?_⟩
  · exact State.Outside.besideUpdate (((issued.mono (by decide)).step checked).step last)
  · rw [last.mt, (State.engineCheck_frame passes).2 clean, issued.mt]

theorem State.fusCount_outside (s : State) (i : Fin 6) (n : Nat) : s.Outside [.fus] (s.fusCount i n) := .setFus s _

theorem State.trackReqOp_starts (b : State) (n : NextOp) : ∃ (c : State) (cycles : Nat) (ws : List MemWrite),
    b.Outside [.fus, .free] c ∧ b.trackReqOp n = c.startOp .fus n .main cycles ws := by
  unfold State.trackReqOp
  dsimp only
  split
  · exact ⟨_, _, _, (Outside.setFus b _).mono (by decide), rfl⟩
  · exact ⟨_, _, _, ((Outside.setFree b _).mono (by decide)).step (.setFus _ _), rfl⟩

theorem State.projectOp_starts (b : State) (n : NextOp) : ∃ (c : State) (cycles : Nat) (ws : List MemWrite),
    b.Outside [.fus, .free] c ∧ b.projectOp n = c.startOp .fus n .main cycles ws :=
  ⟨_, _, _, (b.fusCount_outside _ _).mono (by decide), rfl⟩

theorem State.Outside.besideFusionStart {s t : State} (h : s.Outside [.sched, .flags, .sm, .fus, .free] t) :
    { t with sched := s.sched, flags := s.flags, sm := s.sm, fus := s.fus, free := s.free } = s := by
  refine h.restored (fun p mem => ?_) (fun p out => ?_)
  · cases p <;> simp_all
  · cases p <;> simp_all

/-- A fusion operation without a check: what it answers. -/
theorem State.fusion_answers {s t : State} {n : NextOp} (starts : ∃ (c : State) (cycles : Nat) (ws : List MemWrite),
    (s.issued .fus n.op).Outside [.fus, .free] c ∧ t = c.startOp .fus n .main cycles ws) : s.Started t .fus .main n
      ∧ { t with sched := s.sched, flags := s.flags, sm := s.sm, fus := s.fus, free := s.free } = s := by
  obtain ⟨c, cycles, ws, before, rfl⟩ := starts
  have issued := s.issued_outside_engine (t := .fus) (by simp) n.op
  refine ⟨(((s.issued_movedOn .fus n.op).trans before).startOp .main n cycles ws).started, State.Outside.besideFusionStart ?_⟩
  exact ((issued.mono (by decide)).step before).step (c.startOp_outside .fus n .main cycles ws)

/-! ## A check that fails (R222, R242) -/

theorem State.fldMismatch_fld (s : State) (index unit : Nat) : (s.fldMismatch index unit).fld = { s.fld with mismatch := true } := by
  unfold State.fldMismatch
  dsimp only
  split
  · exact (State.event_outside _ _ _ _ _ _).fld
  · rfl

theorem State.fldMismatch_outside (s : State) (index unit : Nat) : s.Outside [.fld, .evr] (s.fldMismatch index unit) := by
  unfold State.fldMismatch
  have noted : s.Outside [.fld, .evr] { s with fld := { s.fld with mismatch := true } } := (Outside.setFld s _).mono (by decide)
  exact .ite (noted.step (State.event_outside _ _ _ _ _ _)) noted

theorem State.fusMismatch_fus (s : State) (unit index code : Nat) : (s.fusMismatch unit index code).fus = { s.fus with mismatch := true } := by
  unfold State.fusMismatch State.fusEvent
  dsimp only
  split
  · exact (State.event_outside _ _ _ _ _ _).fus
  · rfl

theorem State.fusMismatch_outside (s : State) (unit index code : Nat) : s.Outside [.fus, .evr] (s.fusMismatch unit index code) := by
  unfold State.fusMismatch State.fusEvent
  have noted : s.Outside [.fus, .evr] { s with fus := { s.fus with mismatch := true } } := (Outside.setFus s _).mono (by decide)
  exact .ite (noted.step (State.event_outside _ _ _ _ _ _)) noted

theorem State.Outside.besideFieldMismatch {s t : State} (h : s.Outside [.sched, .flags, .sm, .fld, .evr] t) :
    { t with sched := s.sched, flags := s.flags, sm := s.sm, fld := s.fld, evr := s.evr } = s := by
  refine h.restored (fun p mem => ?_) (fun p out => ?_)
  · cases p <;> simp_all
  · cases p <;> simp_all

theorem State.Outside.besideFusionMismatch {s t : State} (h : s.Outside [.sched, .flags, .sm, .fus, .evr] t) :
    { t with sched := s.sched, flags := s.flags, sm := s.sm, fus := s.fus, evr := s.evr } = s := by
  refine h.restored (fun p mem => ?_) (fun p out => ?_)
  · cases p <;> simp_all
  · cases p <;> simp_all

/-! ## FLD_ADAM (R216) -/

theorem State.acrePut_outside (s : State) (a : Acre) (off : Nat) (bs : List Byte) : s.Outside [.mem] (s.acrePut a off bs) := by
  unfold State.acrePut
  exact .ite (s.writeMem_outside _ _) (.refl s _)

theorem State.tput_outside (s : State) (a : Acre) (array e : Nat) (bs : List Byte) : s.Outside [.mem] (s.tput a array e bs) :=
  s.writeMem_outside _ _

theorem State.putHdr_outside (s : State) (a : Acre) (off : Nat) (bs : List Byte) : s.Outside [.mem] (s.putHdr a off bs) :=
  (s.acrePut_outside a off bs).step (State.acrePut_outside _ _ _ _)

theorem State.copyToSlot_outside (s : State) (a : Acre) (off l : Nat) : s.Outside [.sram] (s.copyToSlot a off l) := by
  unfold State.copyToSlot
  split
  · exact .ite (.setSram s _) (.refl s _)
  · exact .refl s _

theorem State.markDirty_mismatch (s : State) (a : Acre) : (s.markDirty a).fld.mismatch = s.fld.mismatch := by
  change (s.putHdr a 6 (natLe 2 1)).fld.mismatch = _
  rw [(s.putHdr_outside a 6 (natLe 2 1)).fld]

theorem State.adamEntry_mismatch (s : State) (a : Acre) (e : Nat) : (s.adamEntry a e).fld.mismatch = s.fld.mismatch := by
  unfold State.adamEntry
  generalize entryLevel e = level
  obtain ⟨l, i⟩ := level
  dsimp -zeta only
  extract_lets step half u off pair s₁ s₂ s₃ s₄
  have first : s.Outside [.mem] s₁ := (((s.tput_outside a 4 e _).step (State.tput_outside _ _ _ _ _)).step (State.tput_outside _ _ _ _ _)).step
    (State.tput_outside _ _ _ _ _)
  have second : s.Outside [.mem] s₂ := (first.step (State.acrePut_outside _ _ _ _)).step (State.tput_outside _ _ _ _ _)
  have third : s.Outside [.mem] s₃ := .ite second (second.step (State.writeMem_outside _ _ _))
  have fourth : s.Outside [.mem] s₄ := (third.step (State.putHdr_outside _ _ _ _)).step (State.putHdr_outside _ _ _ _)
  rw [(State.copyToSlot_outside _ a off l).fld, State.markDirty_mismatch, fourth.fld]

theorem State.fldCount_mismatch (s : State) (i : Fin 7) (n : Nat) : (s.fldCount i n).fld.mismatch = s.fld.mismatch := rfl

theorem State.lineLimit_mismatch (s : State) (index dropped lines : Nat) (train : Bool) :
    (s.lineLimit index dropped lines train).fld.mismatch = s.fld.mismatch := by
  unfold State.lineLimit
  dsimp only
  split
  · rw [(State.event_outside _ _ _ _ _ _).fld]
    rfl
  · rfl

theorem State.adamEnd_mismatch (s : State) (n : NextOp) (limit bad : Option Nat) : (s.adamEnd n limit bad).fld.mismatch = s.fld.mismatch := by
  have entries : ∀ (l : List (Nat × Nat × Nat)) (t : State), (l.foldl (fun (s : State) x => match s.slotAcre x.2.1 with
      | none => s
      | some a => s.adamEntry a x.2.2) t).fld.mismatch = t.fld.mismatch := by
    intro l
    induction l with
    | nil => exact fun _ => rfl
    | cons x l ih =>
      intro t
      rw [List.foldl_cons, ih]
      split
      · rfl
      · exact t.adamEntry_mismatch _ _
  unfold State.adamEnd
  extract_lets plan todo kept s₁ left cursor overs s₂ s₃ f s₄
  have one : s₁.fld.mismatch = s.fld.mismatch := entries _ _
  have three : s₃.fld.mismatch = s.fld.mismatch := by
    change (if plan.2.2 = true then s₂.lineLimit n.index 0 plan.2.1.length true else s₂).fld.mismatch = _
    split
    · exact (State.lineLimit_mismatch _ _ _ _ _).trans one
    · exact one
  have four : s₄.fld.mismatch = s.fld.mismatch := three
  split
  · rw [(State.event_outside _ _ _ _ _ _).fld, four]
  · exact four

theorem State.fldAdam_fails {s a : State} {u : Nat} {chk : Check} {n : NextOp} (issues : s.Issues .fld 0x14 (some .main) n)
    (fails : (s.issued .fld n.op).engineCheck .fld chk = (some u, a)) : exec (.fldAdam chk) s = .next
      ((((a.drawBelow (ceilDiv (max 1 (a.adamPlan n).1.length) 64)).2.fldMismatch n.index u).adamEnd n none
        (some (a.drawBelow (ceilDiv (max 1 (a.adamPlan n).1.length) 64)).1)).setOnDone n.op) := by
  refine congrArg Host.Outcome.next ?_
  rw [State.tryIssue_of_issues _ issues]
  dsimp only
  rw [fails]

theorem State.fldAdam_passes {s a : State} {chk : Check} {n : NextOp} (issues : s.Issues .fld 0x14 (some .main) n)
    (passes : (s.issued .fld n.op).engineCheck .fld chk = (none, a)) : exec (.fldAdam chk) s = .next
      (a.startOp .fld n .main (4 * (a.adamPlan n).1.length + a.adamScan n / 64) []) := by
  refine congrArg Host.Outcome.next ?_
  rw [State.tryIssue_of_issues _ issues, passes]

/-- A field operation whose check fails: what it answers. -/
theorem State.field_refuses {s a : State} {n : NextOp} {chk : Check} {u : Nat}
    (fails : (s.issued .fld n.op).engineCheck .fld chk = (some u, a)) : (a.fldMismatch n.index u).fld.mismatch = true
      ∧ ∀ v, chk = .once v ∨ chk = .twice v → ((a.fldMismatch n.index u).seq .fld).next = (s.seq .fld).next + 1
        ∧ ((a.fldMismatch n.index u).seq .fld).running = (s.seq .fld).running
        ∧ (n.op.clearOnIssue = false → (a.fldMismatch n.index u).flags = s.flags)
        ∧ { (a.fldMismatch n.index u).fld with mismatch := s.fld.mismatch } = s.fld
        ∧ { a.fldMismatch n.index u with sched := s.sched, flags := s.flags, sm := s.sm, fld := s.fld, evr := s.evr } = s := by
  have set := a.fldMismatch_fld n.index u
  refine ⟨by rw [set], fun v unit => ?_⟩
  have failed := State.engineCheck_disagrees fails unit
  have issued := s.issued_outside_engine (t := .fld) (by simp) n.op
  have noted := a.fldMismatch_outside n.index u
  have moved := ((s.issued_movedOn .fld n.op).trans failed).trans noted
  refine ⟨moved.next, moved.running, fun keeps => ?_, ?_, ?_⟩
  · rw [noted.flags, failed.flags, State.issued_flags, keeps]
    rfl
  · rw [set, failed.fld, issued.fld]
  · exact State.Outside.besideFieldMismatch (((issued.mono (by decide)).step failed).step noted)

/-- A fusion operation whose check fails: what it answers. -/
theorem State.fusion_refuses {s a : State} {n : NextOp} {chk : Check} {u : Nat}
    (fails : (s.issued .fus n.op).engineCheck .fus chk = (some u, a)) : (a.fusMismatch 0 n.index u).fus.mismatch = true
      ∧ ∀ v, chk = .once v ∨ chk = .twice v → ((a.fusMismatch 0 n.index u).seq .fus).next = (s.seq .fus).next + 1
        ∧ ((a.fusMismatch 0 n.index u).seq .fus).running = (s.seq .fus).running
        ∧ (n.op.clearOnIssue = false → (a.fusMismatch 0 n.index u).flags = s.flags)
        ∧ { (a.fusMismatch 0 n.index u).fus with mismatch := s.fus.mismatch } = s.fus
        ∧ { a.fusMismatch 0 n.index u with sched := s.sched, flags := s.flags, sm := s.sm, fus := s.fus, evr := s.evr } = s := by
  have set := a.fusMismatch_fus 0 n.index u
  refine ⟨by rw [set], fun v unit => ?_⟩
  have failed := State.engineCheck_disagrees fails unit
  have issued := s.issued_outside_engine (t := .fus) (by simp) n.op
  have noted := a.fusMismatch_outside 0 n.index u
  have moved := ((s.issued_movedOn .fus n.op).trans failed).trans noted
  refine ⟨moved.next, moved.running, fun keeps => ?_, ?_, ?_⟩
  · rw [noted.flags, failed.flags, State.issued_flags, keeps]
    rfl
  · rw [set, failed.fus, issued.fus]
  · exact State.Outside.besideFusionMismatch (((issued.mono (by decide)).step failed).step noted)

end Sys2Proof.Machine

open Sys2Proof Sys2Proof.Machine

/-- Settles O22: the check of an operation decides between its start and the engine's mismatch. -/
theorem fieldAndFusionOperationsStart : Obligations.FieldAndFusionOperationsStart := by
  refine ⟨State.engineCheck_none_iff, fun s a t n chk passes i code mem issues => ?_, fun s t n filled issues => ?_,
    fun s a t n chk passes i code mem issues => ?_, fun s b t n begun i code mem issues => ?_,
    fun s a n chk u fails => ⟨fun i code mem issues => ?_, fun issues => ?_⟩, fun s a n chk u fails i code mem issues => ?_⟩
  · simp only [List.mem_cons, Prod.mk.injEq, List.not_mem_nil, or_false] at mem
    rcases mem with ⟨rfl, rfl, rfl⟩ | ⟨rfl, rfl, rfl⟩ | ⟨rfl, rfl, rfl⟩ | ⟨rfl, rfl, rfl⟩ | ⟨rfl, rfl, rfl⟩ | ⟨rfl, rfl, rfl⟩ | ⟨rfl, rfl, rfl⟩
    · exact ⟨congrArg Host.Outcome.next (State.fldIssue_passes issues passes _), State.field_answers passes (a.raysOp_starts n)⟩
    · exact ⟨congrArg Host.Outcome.next (State.fldIssue_passes issues passes _), State.field_answers passes (a.gather_starts n)⟩
    · exact ⟨congrArg Host.Outcome.next (State.fldIssue_passes issues passes _), State.field_answers passes (a.composite_starts n)⟩
    · exact ⟨congrArg Host.Outcome.next (State.fldIssue_passes issues passes _), State.field_answers passes (a.scatter_starts n)⟩
    · exact ⟨State.fldAdam_passes issues passes, State.field_answers passes ⟨_, _, _, .refl a _, rfl⟩⟩
    · exact ⟨congrArg Host.Outcome.next (State.fldIssue_passes issues passes _), State.field_answers passes (a.compareOp_starts n)⟩
    · exact ⟨congrArg Host.Outcome.next (State.fldIssue_passes issues passes _), State.field_answers passes (a.replay_starts n)⟩
  · subst filled
    obtain ⟨cycles, ws, eq⟩ := (s.issued .fld n.op).slotFill_starts n
    refine ⟨congrArg Host.Outcome.next (State.fldIssue_passes issues rfl _), ?_⟩
    rw [eq]
    exact ⟨s.startOp_started .main n cycles ws, (s.startOp_outside_engine (by simp) .main n cycles ws).besideIssue⟩
  · simp only [List.mem_cons, Prod.mk.injEq, List.not_mem_nil, or_false] at mem
    rcases mem with ⟨rfl, rfl, rfl⟩ | ⟨rfl, rfl, rfl⟩
    · exact ⟨congrArg Host.Outcome.next (State.fusIssue_passes issues passes _), State.update_answers passes _⟩
    · exact ⟨congrArg Host.Outcome.next (State.fusIssue_passes issues passes _), State.update_answers passes _⟩
  · subst begun
    simp only [List.mem_cons, Prod.mk.injEq, List.not_mem_nil, or_false] at mem
    have plain : ∀ cycles, ∃ (c : State) (cycles' : Nat) (ws : List MemWrite), (s.issued .fus n.op).Outside [.fus, .free] c
        ∧ (s.issued .fus n.op).startOp .fus n .main cycles [] = c.startOp .fus n .main cycles' ws :=
      fun cycles => ⟨_, _, _, .refl _ _, rfl⟩
    rcases mem with ⟨rfl, rfl, rfl⟩ | ⟨rfl, rfl, rfl⟩ | ⟨rfl, rfl, rfl⟩ | ⟨rfl, rfl, rfl⟩ | ⟨rfl, rfl, rfl⟩ | ⟨rfl, rfl, rfl⟩
    · exact ⟨congrArg Host.Outcome.next (State.fusIssue_passes issues rfl _), State.fusion_answers (State.trackReqOp_starts _ n)⟩
    · exact ⟨congrArg Host.Outcome.next (State.fusIssue_passes issues rfl _), State.fusion_answers (plain _)⟩
    · exact ⟨congrArg Host.Outcome.next (State.fusIssue_passes issues rfl _), State.fusion_answers (State.projectOp_starts _ n)⟩
    · exact ⟨congrArg Host.Outcome.next (State.fusIssue_passes issues rfl _), State.fusion_answers (plain _)⟩
    · exact ⟨congrArg Host.Outcome.next (State.fusIssue_passes issues rfl _), State.fusion_answers (plain _)⟩
    · exact ⟨congrArg Host.Outcome.next (State.fusIssue_passes issues rfl _), State.fusion_answers (plain _)⟩
  · have refused : exec i s = .next (a.fldMismatch n.index u) := by
      simp only [List.mem_cons, Prod.mk.injEq, List.not_mem_nil, or_false] at mem
      rcases mem with ⟨rfl, rfl⟩ | ⟨rfl, rfl⟩ | ⟨rfl, rfl⟩ | ⟨rfl, rfl⟩ | ⟨rfl, rfl⟩ | ⟨rfl, rfl⟩
      · exact congrArg Host.Outcome.next (State.fldIssue_fails issues fails _)
      · exact congrArg Host.Outcome.next (State.fldIssue_fails issues fails _)
      · exact congrArg Host.Outcome.next (State.fldIssue_fails issues fails _)
      · exact congrArg Host.Outcome.next (State.fldIssue_fails issues fails _)
      · exact congrArg Host.Outcome.next (State.fldIssue_fails issues fails _)
      · exact congrArg Host.Outcome.next (State.fldIssue_fails issues fails _)
    exact ⟨_, refused, rfl, State.field_refuses fails⟩
  · have run := State.fldAdam_fails issues fails
    have some_ : 0 < ceilDiv (max 1 (a.adamPlan n).1.length) 64 := by
      have one : 1 ≤ max 1 (a.adamPlan n).1.length := Nat.le_max_left ..
      generalize max 1 (a.adamPlan n).1.length = k at one
      exact Nat.div_pos (by omega) (by decide)
    have below : (a.drawBelow (ceilDiv (max 1 (a.adamPlan n).1.length) 64)).1 < ceilDiv (max 1 (a.adamPlan n).1.length) 64 :=
      Nat.mod_lt _ some_
    generalize ceilDiv (max 1 (a.adamPlan n).1.length) 64 = groups at run below ⊢
    refine ⟨_, _, _, rfl, run, below, rfl, ?_, fun f sets => State.setOnDone_flag sets⟩
    rw [(State.setOnDone_outside _ n.op).fld, State.adamEnd_mismatch, State.fldMismatch_fld]
  · have refused : exec i s = .next (a.fusMismatch 0 n.index u) := by
      simp only [List.mem_cons, Prod.mk.injEq, List.not_mem_nil, or_false] at mem
      rcases mem with ⟨rfl, rfl⟩ | ⟨rfl, rfl⟩
      · exact congrArg Host.Outcome.next (State.fusIssue_fails issues fails _)
      · exact congrArg Host.Outcome.next (State.fusIssue_fails issues fails _)
    exact ⟨_, refused, rfl, State.fusion_refuses fails⟩

end

section
set_option Elab.async false
/-!
PROOFS. Every step keeps every memory canonical: what the form survives, stated once for each function of the state.
-/
namespace Sys2Proof.Machine
open State (Outside)

/-! ## What leaves the memories alone -/

/-- A state that differs beside its memories. -/
theorem State.memOk.beside {s : State} (ok : s.memOk) {pins dev port fw sched flags tu sm ife vis cores fld fus slv ps mt pm sec evr free
    pending} : (State.mk pins dev port s.mbx fw sched flags tu sm ife vis cores fld fus slv ps s.mem s.sram mt pm sec evr free
    pending).memOk := ok

theorem State.memOk.ite {s t : State} (yes : s.memOk) (no : t.memOk) {c : Prop} {_ : Decidable c} : (if c then s else t).memOk := by
  split
  · exact yes
  · exact no

theorem State.memOk.foldl {α : Type} {f : State → α → State} (step : ∀ t x, t.memOk → (f t x).memOk) {s : State} (ok : s.memOk)
    {l : List α} : (l.foldl f s).memOk :=
  List.foldlRecOn l f ok fun t ok x _ => step t x ok

theorem State.memOk.of_snd {α : Type} {p : α × State} (ok : p.2.memOk) {x : α} {t : State} (eq : p = (x, t)) : t.memOk := by
  rw [eq] at ok
  exact ok

theorem State.memOk.of_outside {s t : State} (ok : s.memOk) {parts : List Part} (moved : s.Outside parts t)
    (mem : Part.mem ∉ parts := by decide) (sram : Part.sram ∉ parts := by decide) (mbx : Part.mbx ∉ parts := by decide) :
    t.memOk := by
  unfold State.memOk
  rw [moved.mem mem, moved.sram sram, moved.mbx mbx]
  exact ok

/-! ## The writes -/

theorem State.memOk.putMem {s : State} (ok : s.memOk) {mem : List Host.Cell} (wf : memWf mem = true) : { s with mem := mem }.memOk :=
  ⟨wf, ok.2⟩

theorem State.memOk.sramSet {s : State} (ok : s.memOk) {i : Nat} {lt : i < 10} {mem : List Host.Cell} (wf : memWf mem = true) (j : Fin 10) :
    memWf (s.sram.set i mem lt)[j] = true := by
  obtain ⟨_, sram, _⟩ := ok
  by_cases same : i = j
  · subst same
    simpa using wf
  · simpa [Vector.getElem_set_ne, same] using sram j

theorem State.memOk.putSram {s : State} (ok : s.memOk) {i : Nat} {lt : i < 10} {mem : List Host.Cell} (wf : memWf mem = true) :
    { s with sram := s.sram.set i mem lt }.memOk :=
  ⟨ok.1, ok.sramSet (lt := lt) wf, ok.2.2⟩

theorem State.memOk.updMbx {s : State} (ok : s.memOk) {i : Fin 8} {f : Mbx → Mbx} (keeps : ∀ m : Mbx, m.memOk → (f m).memOk) :
    (s.updMbx i f).memOk := by
  obtain ⟨main, sram, mbx⟩ := ok
  refine ⟨main, sram, fun j => ?_⟩
  unfold State.updMbx
  by_cases same : j = i
  · subst same
    simpa using keeps _ (mbx j)
  · have apart : i.val ≠ j.val := fun e => same (Fin.ext e.symm)
    simpa [Vector.getElem_set_ne, apart] using mbx j

end Sys2Proof.Machine
end

section
set_option Elab.async false
/-!
PROOFS. What keeps the memories canonical, continued: one lemma for each function of the state, in the model's order.
-/
namespace Sys2Proof.Machine

theorem State.reset_memOk : State.reset.memOk := resetMemoriesAreCanonical

/-! ## Updates of one element -/

theorem State.memOk.updChan {s : State} (ok : s.memOk) {i f} : (s.updChan i f).memOk := ok
theorem State.memOk.updCore {s : State} (ok : s.memOk) {i f} : (s.updCore i f).memOk := ok
theorem State.memOk.updCorePower {s : State} (ok : s.memOk) {i f} : (s.updCorePower i f).memOk := ok
theorem State.memOk.updSeq {s : State} (ok : s.memOk) {i f} : (s.updSeq i f).memOk := ok
theorem State.memOk.updInput {s : State} (ok : s.memOk) {i f} : (s.updInput i f).memOk := ok
theorem State.memOk.updEnc {s : State} (ok : s.memOk) {i f} : (s.updEnc i f).memOk := ok
theorem State.memOk.updVis {s : State} (ok : s.memOk) {i f} : (s.updVis i f).memOk := ok
theorem State.memOk.updTrig {s : State} (ok : s.memOk) {i f} : (s.updTrig i f).memOk := ok
theorem State.memOk.updGrant {s : State} (ok : s.memOk) {i f} : (s.updGrant i f).memOk := ok

/-! ## Time -/

theorem State.memOk.countStale {s : State} (ok : s.memOk) {slot} : (s.countStale slot).memOk := ok

theorem State.memOk.updBase {s : State} (ok : s.memOk) {b f} : (s.updBase b f).memOk := by
  unfold State.updBase
  split
  · exact ok.beside
  · exact ok.beside

/-! ## Ready flags -/

theorem State.memOk.setFlag {s : State} (ok : s.memOk) {n} : (s.setFlag n).memOk := ok
theorem State.memOk.voidFlag {s : State} (ok : s.memOk) {n whole} : (s.voidFlag n whole).memOk := ok
theorem State.memOk.clearFlag {s : State} (ok : s.memOk) {n} : (s.clearFlag n).memOk := ok

/-! ## Pins -/

theorem State.memOk.setPin {s : State} (ok : s.memOk) {n v} : (s.setPin n v).memOk := .ite ok ok.beside

/-! ## Interrupt -/

theorem State.memOk.irqPin {s : State} (ok : s.memOk) : s.irqPin.memOk := ok.setPin
theorem State.memOk.raiseIrq {s : State} (ok : s.memOk) {bits} : (s.raiseIrq bits).memOk := ok.beside.irqPin

/-! ## The event recorder -/

theorem State.memOk.event {s : State} (ok : s.memOk) {source code a0 a1 a2} : (s.event source code a0 a1 a2).memOk :=
  .ite ok (State.memOk.ite ok.beside (State.memOk.ite ok.beside ok.beside))

/-! ## Completions -/

theorem Mbx.memOk.cqPut {m : Mbx} (ok : m.memOk) {c} : (m.cqPut c).memOk := ⟨ok.1, memWf_memWriteN _ _ ok.2⟩

theorem State.memOk.postCompletion {s : State} (ok : s.memOk) {i c} : (s.postCompletion i c).memOk := by
  unfold State.postCompletion
  dsimp only
  split
  · exact ok
  · split
    · exact (ok.updMbx fun _ ok => ok.cqPut).raiseIrq
    · exact ok.updMbx fun _ ok => ok

theorem State.memOk.complete {s : State} (ok : s.memOk) {i tag opcode status r0 r1 r2 r3 dt} :
    (s.complete i tag opcode status r0 r1 r2 r3 dt).memOk := ok.postCompletion

theorem State.memOk.completeJob {s : State} (ok : s.memOk) {j status r0 r1 r2 r3 dt} : (s.completeJob j status r0 r1 r2 r3 dt).memOk :=
  ok.beside.complete

theorem State.memOk.noteCommits {s : State} (ok : s.memOk) : s.noteCommits.memOk := ok

/-! ## Free values -/

theorem State.memOk.draw {s : State} (ok : s.memOk) {w} : (s.draw w).2.memOk := ok
theorem State.memOk.drawBelow {s : State} (ok : s.memOk) {n} : (s.drawBelow n).2.memOk := ok
theorem State.memOk.drawBytes {s : State} (ok : s.memOk) {n} : (s.drawBytes n).2.memOk := ok

/-! ## MOTION_PERMIT and the pose record -/

theorem State.memOk.permitFall {s : State} (ok : s.memOk) : s.permitFall.memOk := by
  unfold State.permitFall
  dsimp only
  exact .ite (State.memOk.ite ok.setPin.beside.raiseIrq.event ok.setPin.beside.raiseIrq) ok

theorem State.memOk.permitCheck {s : State} (ok : s.memOk) : s.permitCheck.memOk := .ite ok ok.permitFall

theorem State.memOk.mportPut {s : State} (ok : s.memOk) {r} : (s.mportPut r).memOk := by
  unfold State.mportPut
  dsimp only
  exact ok.beside.setPin

theorem State.memOk.postUnsolicited {s : State} (ok : s.memOk) {i c lost setLost} (keeps : ∀ m b, m.memOk → (setLost m b).memOk) :
    (s.postUnsolicited i c lost setLost).memOk := by
  unfold State.postUnsolicited
  dsimp only
  split
  · exact ok
  · split
    · exact (ok.updMbx fun _ ok => (keeps _ _ ok).cqPut).raiseIrq
    · exact ok.updMbx fun _ ok => keeps _ _ ok

theorem State.memOk.windowWrite {s : State} (ok : s.memOk) {i off bs} : (s.windowWrite i off bs).memOk := by
  unfold State.windowWrite
  refine ok.putMem ?_
  split
  · exact memWf_memWriteN _ _ ok.1
  · exact ok.1

theorem State.memOk.poseDeliver {s : State} (ok : s.memOk) {i r permit} : (s.poseDeliver i r permit).memOk := by
  unfold State.poseDeliver
  dsimp only
  split
  · exact ok
  · split
    · split
      · exact (ok.windowWrite.windowWrite.updMbx fun _ ok => by exact ok).postUnsolicited fun _ _ ok => by exact ok
      · exact ok.windowWrite.windowWrite.updMbx fun _ ok => ok
    · exact ok.updMbx fun _ ok => ok

theorem State.memOk.publish {s : State} (ok : s.memOk) {direct} : (s.publish direct).memOk := by
  unfold State.publish
  dsimp only
  exact .foldl (fun _ _ ok => ok.poseDeliver)
      (State.memOk.ite ok.permitCheck (State.memOk.ite ok.setPin ok)).mportPut.beside

theorem State.memOk.publishInvalid {s : State} (ok : s.memOk) : s.publishInvalid.memOk := ok.permitCheck.publish
theorem State.memOk.leaveService {s : State} (ok : s.memOk) {was} : (s.leaveService was).memOk := .ite ok.publishInvalid ok

/-! ## Fatal errors -/

theorem State.memOk.failWaiting {s : State} (ok : s.memOk) {q} : (s.failWaiting q).memOk := ok.beside.complete

theorem State.memOk.enterFault {s : State} (ok : s.memOk) : s.enterFault.memOk := by
  unfold State.enterFault
  dsimp only
  split
  · exact ok
  · refine State.memOk.leaveService ?_
    split
    · exact (State.memOk.foldl (fun _ _ ok => ok.failWaiting)
          (State.memOk.foldl (fun _ _ ok => ok.completeJob) ok.beside.raiseIrq)).noteCommits.beside
    · exact (State.memOk.foldl (fun _ _ ok => ok.failWaiting)
          (State.memOk.foldl (fun _ _ ok => ok.completeJob) ok.beside.raiseIrq)).noteCommits

theorem State.memOk.fatal {s : State} (ok : s.memOk) {trip source code a0 a1 a2} : (s.fatal trip source code a0 a1 a2).memOk := by
  unfold State.fatal
  dsimp only
  split
  · split
    · split
      · exact ok.beside.event.beside.permitFall.setPin.setPin.raiseIrq.beside.enterFault
      · exact ok.beside.event.beside.permitFall.setPin.setPin.raiseIrq.beside
    · split
      · exact ok.beside.event.beside.permitFall.setPin.raiseIrq.beside.enterFault
      · exact ok.beside.event.beside.permitFall.setPin.raiseIrq.beside
  · split
    · split
      · exact ok.beside.event.beside.permitFall.setPin.setPin.raiseIrq.enterFault
      · exact ok.beside.event.beside.permitFall.setPin.setPin.raiseIrq
    · split
      · exact ok.beside.event.beside.permitFall.setPin.raiseIrq.enterFault
      · exact ok.beside.event.beside.permitFall.setPin.raiseIrq

/-! ## Targets -/

theorem State.memOk.onSeq {s : State} (ok : s.memOk) {t f} : (s.onSeq t f).memOk := ok.updSeq

/-! ## Device addresses -/

theorem State.memOk.writeMem {s : State} (ok : s.memOk) {a bs} : (s.writeMem a bs).memOk :=
  .ite (ok.putMem (memWf_memWriteN _ _ ok.1)) ok

theorem State.memOk.writePool {s : State} (ok : s.memOk) {b bs} : (s.writePool b bs).memOk := ok.writeMem

theorem State.memOk.applyMemWrite {s : State} (ok : s.memOk) {w} : (s.applyMemWrite w).memOk := by
  unfold State.applyMemWrite
  split
  · exact ok.writeMem
  · exact ok.putSram (memWf_memWriteN _ _ (ok.2.1 _))

theorem State.memOk.applyMemWrites {s : State} (ok : s.memOk) {ws} : (s.applyMemWrites ws).memOk := by
  unfold State.applyMemWrites
  exact .foldl (fun _ _ ok => ok.applyMemWrite) ok

/-! ## The engine's counters and indexes -/

theorem State.memOk.psCount {s : State} (ok : s.memOk) {i n} : (s.psCount i n).memOk := ok
theorem State.memOk.psEvent {s : State} (ok : s.memOk) {code a0 a1 a2} : (s.psEvent code a0 a1 a2).memOk := .ite ok.event ok
theorem State.memOk.updIndex {s : State} (ok : s.memOk) {h f} : (s.updIndex h f).memOk := ok
theorem State.memOk.updQuery {s : State} (ok : s.memOk) {q f} : (s.updQuery q f).memOk := ok

/-! ## The DRAM shard -/

theorem memWf_writes {ws : List (Nat × List Byte)} : ∀ {m : List Host.Cell}, memWf m = true →
    memWf (ws.foldl (fun m w => memWriteN m w.1 w.2) m) = true := by
  induction ws with
  | nil => exact fun wf => wf
  | cons w ws ih => exact fun wf => ih (memWf_memWriteN _ _ wf)

theorem State.memOk.putShard {s : State} (ok : s.memOk) {ix recs} : (s.putShard ix recs).memOk := by
  unfold State.putShard
  dsimp only
  split
  · exact ok.beside
  · exact ok.beside.putMem (memWf_writes ok.1)

/-! ## Queries and their results -/

theorem State.memOk.psSpanEvents {s : State} (ok : s.memOk) {ix} : (s.psSpanEvents ix).memOk :=
  ok.of_outside (s.psSpanEvents_outside ix)

theorem State.memOk.freeIndex {s : State} (ok : s.memOk) {h} : (s.freeIndex h).memOk := by
  unfold State.freeIndex
  dsimp only
  exact .foldl (fun _ _ ok => ok.completeJob)
      (State.memOk.foldl (fun _ _ ok => ok.completeJob) (State.memOk.foldl (fun _ _ ok => ok.psSpanEvents) ok).beside)

theorem State.memOk.destroyIdle {s : State} (ok : s.memOk) {h} : (s.destroyIdle h).memOk := by
  unfold State.destroyIdle
  split
  · exact ok
  · exact .ite ok.freeIndex ok

theorem State.memOk.endQuery {s : State} (ok : s.memOk) {q status entries recl} : (s.endQuery q status entries recl).memOk := by
  unfold State.endQuery
  dsimp only
  refine State.memOk.destroyIdle ?_
  split
  · exact .ite ok.beside.psCount.psCount ok.beside.psCount
  · exact (State.memOk.ite ok.beside.psCount.psCount ok.beside.psCount).windowWrite.completeJob

theorem State.memOk.poisonIndex {s : State} (ok : s.memOk) {ix block} : (s.poisonIndex ix block).memOk := by
  unfold State.poisonIndex
  dsimp only
  exact .foldl (fun _ _ ok => ok.endQuery) ok.updIndex.beside.psEvent

theorem State.memOk.clearOnIssue {s : State} (ok : s.memOk) {o} : (s.clearOnIssue o).memOk := .ite ok.clearFlag ok

theorem State.memOk.setOnDone {s : State} (ok : s.memOk) {o} : (s.setOnDone o).memOk := by
  unfold State.setOnDone
  split
  · exact ok.setFlag
  · exact ok

theorem State.memOk.voidOnSkip {s : State} (ok : s.memOk) {o} : (s.voidOnSkip o).memOk := by
  unfold State.voidOnSkip
  split
  · exact .ite ok ok.voidFlag
  · exact ok

theorem State.memOk.boundaryFlags {s : State} (ok : s.memOk) {voids clears named} : (s.boundaryFlags voids clears named).memOk := by
  unfold State.boundaryFlags
  dsimp only
  exact .foldl (fun _ _ ok => ok.clearFlag) (State.memOk.foldl (fun _ _ ok => ok.voidFlag) ok.beside)

/-! ## One slot -/

theorem State.memOk.freeSlot {s : State} (ok : s.memOk) {ch i} : (s.freeSlot ch i).memOk := by
  unfold State.freeSlot
  dsimp only
  exact .ite ok (State.memOk.foldl (fun _ _ ok => ok.clearFlag) ok.updChan)

theorem State.memOk.holdWaited {s : State} (ok : s.memOk) {o} : (s.holdWaited o).memOk := by
  unfold State.holdWaited
  dsimp only
  exact .ite ok (State.memOk.foldl (fun _ _ ok => (State.memOk.ite ok.updChan ok)) ok)

/-! ## Discards -/

theorem State.memOk.countDrop {s : State} (ok : s.memOk) {ch newest drop} : (s.countDrop ch newest drop).memOk := by
  unfold State.countDrop
  dsimp only
  exact ok.beside.updChan

theorem State.memOk.countDisabled {s : State} (ok : s.memOk) {ch} : (s.countDisabled ch).memOk := by
  unfold State.countDisabled
  dsimp only
  exact ok.beside.updChan

/-! ## Opening -/

theorem State.memOk.writeHeader {s : State} (ok : s.memOk) {ch i} : (s.writeHeader ch i).memOk := by
  unfold State.writeHeader
  dsimp only
  exact ok.writePool

theorem State.memOk.openSlot {s : State} (ok : s.memOk) {ch d i exposure exposureDt firstDt} :
    (s.openSlot ch d i exposure exposureDt firstDt).memOk := ok.updChan.writeHeader

theorem State.memOk.anySlot {s : State} (ok : s.memOk) {ch d} : (s.anySlot ch d).2.memOk := by
  unfold State.anySlot
  dsimp only
  split
  · exact ok
  · split
    · exact ok.freeSlot.countDrop
    · exact ok.countDrop

/-! ## Writing and closing -/

theorem State.memOk.setGroups {s : State} (ok : s.memOk) {ch i fs} : (s.setGroups ch i fs).memOk := by
  unfold State.setGroups
  dsimp only
  exact (State.memOk.foldl (fun _ _ ok => ok.setFlag) ok).updChan

theorem State.memOk.progress {s : State} (ok : s.memOk) {ch i} : (s.progress ch i).memOk := by
  unfold State.progress
  dsimp only
  exact ok.writeHeader.setGroups

theorem State.memOk.closeUnit {s : State} (ok : s.memOk) {ch i} : (s.closeUnit ch i).memOk := by
  unfold State.closeUnit
  dsimp only
  exact ok.updChan.writeHeader.setGroups

/-! ## BATCH records -/

theorem State.memOk.noteArrival {s : State} (ok : s.memOk) {ch dt} : (s.noteArrival ch dt).memOk := ok.updChan

theorem State.memOk.putRecord {s : State} (ok : s.memOk) {ch i dt data} : (s.putRecord ch i dt data).memOk := by
  unfold State.putRecord
  dsimp only
  exact ok.writePool.updChan.writeHeader

theorem State.memOk.templateRefuse {s : State} (ok : s.memOk) {ch len} : (s.templateRefuse ch len).memOk := by
  unfold State.templateRefuse
  dsimp only
  exact ok.beside.updChan

theorem State.memOk.openRecord {s : State} (ok : s.memOk) {ch d mk} : (s.openRecord ch d mk).memOk := by
  unfold State.openRecord
  split
  · exact ok.templateRefuse
  · split
    · exact ok.countDrop
    · split
      · exact (State.memOk.of_snd ok.anySlot ‹_›).openSlot.putRecord
      · exact .of_snd ok.anySlot ‹_›

theorem State.memOk.appendRecord {s : State} (ok : s.memOk) {ch d mk} : (s.appendRecord ch d mk).memOk := by
  unfold State.appendRecord
  dsimp only
  split
  · split
    · exact ok.templateRefuse
    · exact .ite ok.putRecord (State.memOk.ite ok.closeUnit ok).openRecord
  · exact ok.openRecord

/-! ## Triggered exposures -/

theorem State.memOk.closeMissing {s : State} (ok : s.memOk) {ch} : (s.closeMissing ch).memOk := by
  unfold State.closeMissing
  dsimp only
  split
  · exact ok
  · refine State.memOk.event (State.memOk.updChan ?_)
    split
    · exact ok
    · exact ok.updChan.writeHeader

theorem State.memOk.forceRelease {s : State} (ok : s.memOk) {ch d k} : (s.forceRelease ch d k).memOk := by
  unfold State.forceRelease
  dsimp only
  split
  · exact ok
  · split
    · exact ok
    · exact .ite ok ok.freeSlot.updChan.beside.event

theorem State.memOk.openFound {r : Option Nat × State} (ok : r.2.memOk) {ch d k dt} : (match (motive :=
  Option Nat × State → State) r with
    | (some i, s) => s.openSlot ch d i k dt 0
    | (none, s) => s).memOk := by
  obtain ⟨_ | i, s⟩ := r
  · exact ok
  · exact State.memOk.openSlot ok

theorem State.memOk.registerExposure {s : State} (ok : s.memOk) {ch dt} : (s.registerExposure ch dt).memOk := by
  unfold State.registerExposure
  dsimp only
  split
  · exact ok
  · split
    · exact ok
    · refine State.memOk.beside (State.memOk.openFound ?_)
      have released {d k} : ((State.closeMissing (s.updChan ch fun c => { c with exposures := c.exposures + 1 }) ch).forceRelease ch
          d k).memOk :=
        State.memOk.forceRelease (State.memOk.closeMissing ok.beside)
      split
      · split
        · exact released
        · split
          · exact released.freeSlot.countDrop
          · exact released.countDrop
        · exact released.countDrop
      · exact released.anySlot

/-! ## TAKE and RELEASE -/

theorem State.memOk.takeUnits {s : State} (ok : s.memOk) {ch} : (s.takeUnits ch).2.memOk := by
  unfold State.takeUnits
  dsimp only
  refine (State.memOk.foldl (fun _ _ ok => ok.freeSlot.countDrop) ?_).updChan
  split
  · exact ok
  · split
    · exact .ite ok ok.closeUnit
    · exact ok

theorem State.memOk.releaseUnits {s : State} (ok : s.memOk) {ch g} : (s.releaseUnits ch g).memOk := by
  unfold State.releaseUnits
  dsimp only
  split
  · exact (State.memOk.foldl (fun _ _ ok => ok.freeSlot) ok).updChan
  · split
    · exact ok
    · exact .foldl (fun _ _ ok => ok.freeSlot) ok

/-! ## The boundary -/

theorem State.memOk.expireHolds {s : State} (ok : s.memOk) {ch} : (s.expireHolds ch).memOk := by
  unfold State.expireHolds
  dsimp only
  exact .foldl (fun _ _ ok => (State.memOk.ite ok.freeSlot.updChan.beside.event ok)) ok.updChan

theorem State.memOk.releaseMissing {s : State} (ok : s.memOk) {ch} : (s.releaseMissing ch).memOk := by
  unfold State.releaseMissing
  dsimp only
  exact .foldl (fun _ _ ok => ok.freeSlot) ok

theorem State.memOk.stopChannel {s : State} (ok : s.memOk) {ch} : (s.stopChannel ch).memOk := by
  unfold State.stopChannel
  dsimp only
  exact (State.memOk.foldl (fun _ _ ok => ok.freeSlot) ok).updChan

theorem State.memOk.channelEvents {s : State} (ok : s.memOk) {ch} : (s.channelEvents ch).memOk := by
  unfold State.channelEvents
  dsimp only
  refine State.memOk.updChan ?_
  split
  · exact (State.memOk.ite (State.memOk.ite ok.event ok).updChan.event (State.memOk.ite ok.event ok).updChan).event
  · exact .ite (State.memOk.ite ok.event ok).updChan.event (State.memOk.ite ok.event ok).updChan

theorem State.memOk.settleChannel {s : State} (ok : s.memOk) {ch} : (s.settleChannel ch).memOk := by
  unfold State.settleChannel
  dsimp only
  split
  · split
    · exact .ite ok.updChan ok
    · exact ok
  · split
    · refine State.memOk.updChan ?_
      split
      · exact .ite ok.updChan ok
      · exact ok
    · refine State.memOk.stopChannel ?_
      split
      · exact .ite ok.updChan ok
      · exact ok

theorem State.memOk.writeBackStatus {s : State} (ok : s.memOk) {ch} : (s.writeBackStatus ch).memOk := by
  unfold State.writeBackStatus
  dsimp only
  exact .ite ok.writeMem.updChan ok

/-! ## Issue -/

theorem State.memOk.fillerOff {s : State} (ok : s.memOk) {t} : (s.fillerOff t).memOk := by
  unfold State.fillerOff
  split
  · exact ok.updCorePower
  · exact ok

theorem State.memOk.issued {s : State} (ok : s.memOk) {t o} : (s.issued t o).memOk := by
  unfold State.issued
  dsimp only
  exact ok.holdWaited.clearOnIssue.onSeq.fillerOff

theorem State.memOk.tryIssue {s : State} (ok : s.memOk) {t opcode u} {k : NextOp → State → State}
    (step : ∀ n t, t.memOk → (k n t).memOk) : (s.tryIssue t opcode u k).memOk := by
  unfold State.tryIssue
  split
  · exact ok
  · exact .ite (step _ _ ok.issued) ok

/-! ## Filler -/

theorem State.memOk.settleFiller {s : State} (ok : s.memOk) {t} : (s.settleFiller t).memOk := by
  unfold State.settleFiller
  split
  · exact .ite ok.updCorePower ok
  · exact ok

theorem State.memOk.countDone {s : State} (ok : s.memOk) {t} : (s.countDone t).memOk := by
  unfold State.countDone
  split
  · exact ok.updCore
  · split
    · exact ok.updVis
    · exact ok

theorem State.memOk.countBusy {s : State} (ok : s.memOk) {t r cycles} : (s.countBusy t r cycles).memOk := by
  unfold State.countBusy
  split
  · exact .ite ok.updCore ok
  · split
    · exact ok.updVis
    · exact ok

theorem State.memOk.countStopped {s : State} (ok : s.memOk) {t r} : (s.countStopped t r).memOk := by
  unfold State.countStopped
  dsimp only
  exact ok.countBusy

theorem State.memOk.doneNow {s : State} (ok : s.memOk) {t o} : (s.doneNow t o).memOk := ok.countDone.setOnDone.settleFiller
theorem State.memOk.startOp {s : State} (ok : s.memOk) {t n u cycles writes} : (s.startOp t n u cycles writes).memOk := ok.onSeq

/-! ## Common operations -/

theorem State.memOk.commonOp {s : State} (ok : s.memOk) {t opcode} : (s.commonOp t opcode).memOk :=
  ok.tryIssue fun _ _ ok => ok.doneNow

theorem State.memOk.barrierOp {s : State} (ok : s.memOk) {t} : (s.barrierOp t).memOk := by
  unfold State.barrierOp
  dsimp only
  split
  · exact ok
  · exact .ite (State.memOk.ite ok.onSeq.issued.doneNow ok.onSeq) ok

/-! ## Uncorrectable words and lines that an operation reads -/

theorem State.memOk.sramCorrected {s : State} (ok : s.memOk) {slot} : (s.sramCorrected slot).memOk := ok
theorem State.memOk.sramUe {s : State} (ok : s.memOk) {slot addr fatal} : (s.sramUe slot addr fatal).memOk := ok.beside.event

theorem State.memOk.engineFailed {s : State} (ok : s.memOk) {slot} : (s.engineFailed slot).memOk := by
  unfold State.engineFailed
  dsimp only
  split
  · exact .ite ok.beside.event ok.beside
  · exact ok.beside

/-! ## Skips -/

theorem State.memOk.visSkip {s : State} (ok : s.memOk) {t opcode} : (s.visSkip t opcode).memOk := by
  unfold State.visSkip
  split
  · exact ok.updVis
  · exact ok

theorem State.memOk.voidSkip {s : State} (ok : s.memOk) {t} : (s.voidSkip t).memOk := by
  unfold State.voidSkip
  dsimp only
  split
  · exact ok
  · exact .ite ok.clearOnIssue.voidOnSkip.visSkip.onSeq.beside ok

/-! ## Overruns -/

theorem State.memOk.raiseOverrun {s : State} (ok : s.memOk) {t n i o} : (s.raiseOverrun t n i o).memOk := by
  unfold State.raiseOverrun
  dsimp only
  exact .ite ok.beside.onSeq.event ok.beside.onSeq

theorem State.memOk.overrunBy {s : State} (ok : s.memOk) {t grain} : (s.overrunBy t grain).memOk := by
  unfold State.overrunBy
  split
  · split
    · exact ok
    · split
      · exact ok.raiseOverrun
      · exact ok
  · exact ok

theorem State.memOk.overrunAll {s : State} (ok : s.memOk) {t grain} : (s.overrunAll t grain).memOk := by
  unfold State.overrunAll
  split
  · exact .foldl (fun _ _ ok => ok.overrunBy) ok
  · exact ok

/-! ## Ballast -/

theorem State.memOk.ballastRamp {s : State} (ok : s.memOk) : s.ballastRamp.memOk := by
  unfold State.ballastRamp
  exact .foldl (fun _ _ ok => (State.memOk.ite ok.settleFiller ok)) ok

/-! ## Blocks -/

theorem State.memOk.updBlock {s : State} (ok : s.memOk) {die block f} : (s.updBlock die block f).memOk := by
  unfold State.updBlock
  dsimp only
  exact (State.memOk.ite ok ok.beside).beside

theorem State.memOk.freeBlock {s : State} (ok : s.memOk) {lo size} : (s.freeBlock lo size).2.memOk := by
  unfold State.freeBlock
  dsimp only
  split
  · exact ok.beside
  · exact ok.beside

theorem State.memOk.takePlace {s : State} (ok : s.memOk) {other} : (s.takePlace other).2.memOk := by
  unfold State.takePlace
  dsimp only
  split
  · exact ok.updBlock
  · exact ok.freeBlock.updBlock.beside

theorem State.memOk.newCopy {s : State} (ok : s.memOk) {p other mirror} : (s.newCopy p other mirror).2.memOk := by
  unfold State.newCopy
  dsimp only
  exact ok.takePlace

/-! ## The map -/

theorem State.memOk.zeroiseOld {s : State} (ok : s.memOk) {n} : (s.zeroiseOld n).memOk := by
  unfold State.zeroiseOld
  dsimp only
  split
  · exact ok
  · exact .ite ok.beside.event ok

theorem State.memOk.mapPage {s : State} (ok : s.memOk) {n o mirror pos data} : (s.mapPage n o mirror pos data).memOk := by
  unfold State.mapPage
  cases mirror
  · simp only [Bool.false_eq_true, ↓reduceIte]
    exact ok.newCopy.beside
  · simp only [↓reduceIte]
    exact ok.newCopy.newCopy.beside

theorem State.memOk.enterMap {s : State} (ok : s.memOk) {n o mirror writes} : (s.enterMap n o mirror writes).memOk := by
  unfold State.enterMap
  dsimp only
  exact (State.memOk.foldl (fun _ _ ok => ok.mapPage) ok).drawBytes.mapPage.zeroiseOld

theorem State.memOk.dropPagesFrom {s : State} (ok : s.memOk) {o pos} : (s.dropPagesFrom o pos).memOk := by
  unfold State.dropPagesFrom
  dsimp only
  exact .foldl (fun _ _ ok => ok.zeroiseOld) ok.beside

theorem State.memOk.rewriteCopy {s : State} (ok : s.memOk) {p mirror} : (s.rewriteCopy p mirror).memOk := by
  unfold State.rewriteCopy
  dsimp only
  exact ok.newCopy.beside

theorem State.memOk.repairPage {s : State} (ok : s.memOk) {p} : (s.repairPage p).memOk := by
  unfold State.repairPage
  dsimp only
  exact (State.memOk.ite ok.rewriteCopy.event ok.rewriteCopy).zeroiseOld

theorem State.memOk.flashLost {s : State} (ok : s.memOk) {ns lpn cause} : (s.flashLost ns lpn cause).memOk := by
  unfold State.flashLost
  dsimp only
  exact .ite ok.beside.event ok.beside

/-! ## Objects -/

theorem State.memOk.updObj {s : State} (ok : s.memOk) {h f} : (s.updObj h f).memOk := ok

theorem State.memOk.mapPages {s : State} (ok : s.memOk) {o ks} : (s.mapPages o ks).memOk := by
  unfold State.mapPages
  exact .foldl (fun _ _ ok => ok.writeMem) ok

theorem memAbove_filter {keep : Host.Cell → Bool} : ∀ {m : List Host.Cell} {lo :
    Nat}, memAbove lo m = true → memAbove lo (m.filter keep) = true := by
  intro m
  induction m with
  | nil => exact fun h => h
  | cons c m ih =>
    intro lo h
    simp only [memAbove, Bool.and_eq_true, decide_eq_true_eq] at h
    rw [List.filter_cons]
    split
    · simp only [memAbove, Bool.and_eq_true, decide_eq_true_eq]
      exact ⟨h.1, ih h.2⟩
    · exact memAbove_weaken (ih h.2) (by omega)

theorem State.memOk.unmapRun {s : State} (ok : s.memOk) {base bytes} : (s.unmapRun base bytes).memOk :=
  ok.putMem (memAbove_filter ok.1)

theorem memWf_cells {base : Nat} {cells : List Host.Cell} : ∀ {m : List Host.Cell}, memWf m = true →
    memWf (cells.foldl (fun m c => memWrite m (base + c.1) c.2) m) = true := by
  induction cells with
  | nil => exact fun wf => wf
  | cons c cells ih => exact fun wf => ih (memWf_memWrite _ _ wf)

theorem State.memOk.fillRun {s : State} (ok : s.memOk) {base bytes cells} : (s.fillRun base bytes cells).memOk :=
  ok.putMem (memWf_cells ok.unmapRun.1)

theorem State.memOk.unmap {s : State} (ok : s.memOk) {o} : (s.unmap o).memOk := ok.unmapRun

/-! ## Pins and eviction -/

theorem State.memOk.pin {s : State} (ok : s.memOk) {h p} : (s.pin h p).memOk := ok.updObj
theorem State.memOk.unpin {s : State} (ok : s.memOk) {h p} : (s.unpin h p).memOk := ok.updObj

theorem State.memOk.evictOne {s : State} (ok : s.memOk) {v} : (s.evictOne v).memOk := by
  unfold State.evictOne
  split
  · exact ok.updObj
  · exact ok.beside

theorem State.memOk.freeRun {s : State} (ok : s.memOk) {p self pages} : (s.freeRun p self pages).2.memOk := ok

/-- The search for a free run, of which only this is known: compare `State.freeRun_opaque`. -/
theorem State.freeRun_memOk : ∃ find, State.freeRun = find ∧
    ∀ {s : State}, s.memOk → ∀ {p : Fin 4} {self pages : Nat}, (find s p self pages).2.memOk :=
  ⟨_, rfl, fun ok => ok.freeRun⟩

/-- The state of an object's place, where it has one. -/
theorem State.memOk.placeRun {s t : State} (ok : s.memOk) {o p : Obj} (placed : s.placeRun o = some (p, t)) : t.memOk := by
  unfold State.placeRun at placed
  have run : (s.freeRun (handlePart o.handle) o.handle o.pages).2.memOk := ok.freeRun
  split at placed
  · cases placed
    exact ok
  · generalize s.freeRun (handlePart o.handle) o.handle o.pages = found at run placed
    obtain ⟨_ | a, u⟩ := found
    · cases placed
    · cases placed
      exact run.beside

theorem State.memOk.queuePromotion {s : State} (ok : s.memOk) {h} : (s.queuePromotion h).memOk := by
  unfold State.queuePromotion
  split
  · exact ok
  · rename_i placed
    obtain ⟨o, _, placed⟩ := Option.bind_eq_some_iff.mp placed
    exact (ok.placeRun placed).beside

theorem State.memOk.promoted {s : State} (ok : s.memOk) {h} : (s.promoted h).memOk := by
  unfold State.promoted
  dsimp only
  split
  · exact ok
  · exact .ite ok (State.memOk.foldl (fun _ _ ok => ok.completeJob) ok.updObj)

theorem State.memOk.promote {s : State} (ok : s.memOk) {h user} : (s.promote h user).2.memOk := by
  unfold State.promote
  split
  · exact ok
  · extract_lets part deferred s₁ n free victims
    have deferredOk : s₁.memOk := State.memOk.ite ok.beside.event ok
    split
    · exact ok.beside
    · split
      · exact deferredOk.event
      · extract_lets now s₂ s₃
        have evicted : s₂.memOk := deferredOk.foldl fun _ _ ok => ok.evictOne
        have charged : s₃.memOk := evicted.beside
        exact .ite charged.queuePromotion charged

/-! ## Poisoned objects -/

theorem State.memOk.failJobs {s : State} (ok : s.memOk) {uses status} : (s.failJobs uses status).memOk := by
  unfold State.failJobs
  exact .foldl (fun _ _ ok => ok.completeJob) ok

theorem State.memOk.poisonObj {s : State} (ok : s.memOk) {h cause page} : (s.poisonObj h cause page).memOk := by
  unfold State.poisonObj
  dsimp only
  split
  · exact ok
  · exact .ite ok ok.updObj.beside.event.failJobs

/-! ## DRAM errors and retirement -/

theorem State.memOk.unmappedEvents {s : State} (ok : s.memOk) {ranges} : (s.unmappedEvents ranges).memOk := by
  unfold State.unmappedEvents
  dsimp only
  exact .foldl (fun _ _ ok => ok.event) ok

theorem State.memOk.writeDram {s : State} (ok : s.memOk) {a bs} : (s.writeDram a bs).memOk := by
  unfold State.writeDram
  exact .foldl (fun _ _ ok => ok.applyMemWrite) ok.unmappedEvents

theorem State.memOk.retirePage {s : State} (ok : s.memOk) {page cause} : (s.retirePage page cause).memOk := by
  unfold State.retirePage
  dsimp only
  exact .ite ok (State.memOk.ite (State.memOk.ite ok ok.beside.event) ok.beside)

theorem State.memOk.dramCorrected {s : State} (ok : s.memOk) {line} : (s.dramCorrected line).memOk := by
  unfold State.dramCorrected
  dsimp only
  exact .ite ok.beside.retirePage ok.beside

theorem State.memOk.poisonAcre {s : State} (ok : s.memOk) {key cause page} : (s.poisonAcre key cause page).memOk := by
  unfold State.poisonAcre
  dsimp only
  exact .ite ok ok.beside.event

theorem State.memOk.poisonLine {s : State} (ok : s.memOk) {line} : (s.poisonLine line).memOk := by
  unfold State.poisonLine
  dsimp only
  split
  · exact .ite ok.beside ok.beside.poisonObj
  · split
    · exact .ite ok.beside ok.beside.poisonAcre
    · split
      · split
        · exact ok.beside.poisonIndex
        · exact ok.beside
      · exact ok.beside

theorem State.memOk.dramUncorrectable {s : State} (ok : s.memOk) {addr} : (s.dramUncorrectable addr).memOk := by
  unfold State.dramUncorrectable
  dsimp only
  split
  · exact (State.memOk.ite ok.beside.event ok.beside).poisonLine.retirePage.fatal
  · exact (State.memOk.ite ok.beside.event ok.beside).poisonLine.retirePage

/-! ## What an engine's check finds -/

theorem State.memOk.zeroWord {s : State} (ok : s.memOk) {t addr} : (s.zeroWord t addr).memOk := by
  unfold State.zeroWord
  split
  · exact ok.putSram (memWf_memWriteN _ _ (ok.2.1 _))
  · exact ok.writeMem

theorem State.memOk.engineCheck {s : State} (ok : s.memOk) {t chk} : (s.engineCheck t chk).2.memOk := by
  unfold State.engineCheck
  split
  · exact ok
  · exact ok.sramCorrected
  · exact ok.dramCorrected
  · exact ok.engineFailed
  · exact ok.engineFailed
  · exact ok.sramUe.zeroWord.engineFailed
  · exact ok.dramUncorrectable.engineFailed

theorem State.memOk.checkFound {s : State} (ok : s.memOk) {t chk} : (s.checkFound t chk).2.memOk := by
  unfold State.checkFound
  dsimp only
  split
  · exact ok
  · exact ok.sramCorrected
  · exact ok.dramCorrected
  · exact ok
  · exact ok
  · exact ok.sramUe.zeroWord
  · exact ok.dramUncorrectable

/-! ## Acres -/

theorem State.memOk.updAcre {s : State} (ok : s.memOk) {key f} : (s.updAcre key f).memOk := ok
theorem State.memOk.acrePut {s : State} (ok : s.memOk) {a off bs} : (s.acrePut a off bs).memOk := .ite ok.writeMem ok

theorem State.memOk.putHdr {s : State} (ok : s.memOk) {a off bs} : (s.putHdr a off bs).memOk := by
  unfold State.putHdr
  dsimp only
  exact ok.acrePut.acrePut

theorem State.memOk.markDirty {s : State} (ok : s.memOk) {a} : (s.markDirty a).memOk := ok.putHdr.updAcre
theorem State.memOk.tput {s : State} (ok : s.memOk) {a array e bs} : (s.tput a array e bs).memOk := ok.writeMem

theorem State.memOk.setTouched {s : State} (ok : s.memOk) {a e b} : (s.setTouched a e b).memOk := by
  unfold State.setTouched
  dsimp only
  exact ok.writeMem

/-! ## Flash -/

theorem State.memOk.queueSnapshot {s : State} (ok : s.memOk) : s.queueSnapshot.memOk := by
  unfold State.queueSnapshot
  dsimp only
  split
  · exact ok
  · split
    · exact ok
    · exact ok.beside

theorem State.memOk.wantWrite {s : State} (ok : s.memOk) {key} : (s.wantWrite key).memOk := by
  unfold State.wantWrite
  split
  · exact ok
  · exact .ite ok.updAcre (State.memOk.ite ok ok.updAcre.queueSnapshot)

theorem State.memOk.takeSnapshot {s : State} (ok : s.memOk) {key} : (s.takeSnapshot key).memOk := by
  unfold State.takeSnapshot
  split
  · exact ok
  · exact ok.fillRun.updAcre

theorem State.memOk.acreFilled {s : State} (ok : s.memOk) {key} : (s.acreFilled key).memOk := by
  obtain ⟨find, isFind, keeps⟩ := State.freeRun_memOk
  unfold State.acreFilled
  rw [isFind]
  split
  · exact ok
  · split
    next found => exact (State.memOk.of_snd (keeps ok) found).fillRun.updAcre
    next full => exact .of_snd (keeps ok) full

theorem State.memOk.acreWritten {s : State} (ok : s.memOk) {key} : (s.acreWritten key).memOk := by
  unfold State.acreWritten
  dsimp only
  split
  · exact ok
  · split
    · exact (State.memOk.ite ok.updAcre.putHdr ok.updAcre.putHdr.putHdr).event.wantWrite
    · exact (State.memOk.ite ok.updAcre.putHdr ok.updAcre.putHdr.putHdr).event.queueSnapshot

/-! ## Checks -/

theorem State.memOk.fldMismatch {s : State} (ok : s.memOk) {index unit} : (s.fldMismatch index unit).memOk := by
  unfold State.fldMismatch
  dsimp only
  exact .ite ok.beside.event ok.beside

theorem State.memOk.fldIssue {s : State} (ok : s.memOk) {opcode chk} {k : NextOp → State → State}
    (step : ∀ n t, t.memOk → (k n t).memOk) : (s.fldIssue opcode chk k).memOk := by
  refine ok.tryIssue fun n t ok => ?_
  have checked : (t.engineCheck .fld chk).2.memOk := ok.engineCheck
  generalize t.engineCheck .fld chk = found at checked ⊢
  obtain ⟨_ | u, a⟩ := found
  · exact step n a checked
  · exact State.memOk.fldMismatch checked

theorem State.memOk.fldCount {s : State} (ok : s.memOk) {i n} : (s.fldCount i n).memOk := ok

theorem State.memOk.lineLimit {s : State} (ok : s.memOk) {index dropped lines train} :
    (s.lineLimit index dropped lines train).memOk := by
  unfold State.lineLimit
  dsimp only
  exact .ite ok.fldCount.beside.event ok.fldCount.beside

end Sys2Proof.Machine
end

section
set_option Elab.async false
/-!
PROOFS. What keeps the memories canonical, continued: one lemma for each function of the state, in the model's order.
-/
namespace Sys2Proof.Machine

/-! ## FLD_GATHER -/

theorem State.memOk.gatherRays {s : State} (ok : s.memOk) {n} : (s.gatherRays n).2.memOk := by
  unfold State.gatherRays
  dsimp only
  split
  · exact ok.fldCount.beside
  · exact ok.beside

theorem State.memOk.markEndpoint {s : State} (ok : s.memOk) {r} : (s.markEndpoint r).memOk := by
  unfold State.markEndpoint
  dsimp -zeta only
  split
  · extract_lets set s₁ s₂ f s₃
    have noted : s₃.memOk := ok.acrePut.putHdr.markDirty.beside
    split
    · exact noted
    · exact noted.putSram (memWf_memWriteN _ _ (noted.2.1 4))
  · exact ok.beside

theorem State.memOk.gather {s : State} (ok : s.memOk) {n} : (s.gather n).memOk := by
  unfold State.gather
  dsimp only
  refine State.memOk.startOp ?_
  split
  · exact ok.gatherRays.fldCount.fldCount.fldCount.beside.lineLimit
  · exact ok.gatherRays.fldCount.fldCount.fldCount.beside

theorem State.memOk.gatherEnd {s : State} (ok : s.memOk) : s.gatherEnd.memOk := by
  unfold State.gatherEnd
  split
  · exact ok
  · exact .ite (State.memOk.foldl (fun _ _ ok => ok.markEndpoint) ok) ok

/-! ## FLD_COMPOSITE -/

theorem State.memOk.composite {s : State} (ok : s.memOk) {n} : (s.composite n).memOk := by
  unfold State.composite
  dsimp only
  split
  · exact ok.startOp
  · exact .ite ok.fldCount.beside.startOp ok.fldCount.beside.startOp

/-! ## FLD_SCATTER -/

theorem State.memOk.addGrad {s : State} (ok : s.memOk) {a e g} : (s.addGrad a e g).memOk := by
  unfold State.addGrad
  dsimp only
  exact ok.tput.setTouched

theorem State.memOk.scatterEnd {s : State} (ok : s.memOk) {n limit} : (s.scatterEnd n limit).memOk := by
  unfold State.scatterEnd
  dsimp only
  split
  · exact ok
  · refine (State.memOk.foldl (fun _ _ ok => ?_) ok).beside
    split
    · exact ok.addGrad
    · exact ok

theorem State.memOk.scatter {s : State} (ok : s.memOk) {n} : (s.scatter n).memOk := by
  unfold State.scatter
  dsimp only
  split
  · exact ok.startOp
  · exact (State.memOk.ite ok.fldCount.fldCount.lineLimit ok.fldCount.fldCount).startOp

/-! ## FLD_ADAM -/

theorem State.memOk.copyToSlot {s : State} (ok : s.memOk) {a off l} : (s.copyToSlot a off l).memOk := by
  unfold State.copyToSlot
  split
  · exact .ite (ok.putSram (memWf_memWriteN _ _ (ok.2.1 4))) ok
  · exact ok

theorem State.memOk.adamEntry {s : State} (ok : s.memOk) {a e} : (s.adamEntry a e).memOk := by
  unfold State.adamEntry
  dsimp only
  exact (State.memOk.ite ok.tput.tput.tput.tput.acrePut.tput
      ok.tput.tput.tput.tput.acrePut.tput.setTouched).putHdr.putHdr.markDirty.copyToSlot

theorem State.memOk.adamEnd {s : State} (ok : s.memOk) {n limit bad} : (s.adamEnd n limit bad).memOk := by
  unfold State.adamEnd
  extract_lets plan todo kept s₁ left cursor overs s₂ s₃ fld s₄
  have written : s₁.memOk := ok.foldl fun t x ok => by
    split
    · exact ok
    · exact ok.adamEntry
  have counted : s₃.memOk := State.memOk.ite written.fldCount.lineLimit written.fldCount
  have noted : s₄.memOk := counted.beside
  exact .ite noted.event noted

/-! ## FLD_RAYS and FLD_COMPARE -/

theorem State.memOk.raysOp {s : State} (ok : s.memOk) {n} : (s.raysOp n).memOk := by
  unfold State.raysOp
  dsimp only
  exact ok.fldCount.startOp

theorem State.memOk.compareOp {s : State} (ok : s.memOk) {n} : (s.compareOp n).memOk := by
  unfold State.compareOp
  dsimp only
  exact ok.startOp

/-! ## FLD_REPLAY -/

theorem State.memOk.offer {s : State} (ok : s.memOk) {a r} : (s.offer a r).memOk := by
  unfold State.offer
  dsimp only
  refine State.memOk.markDirty ?_
  split
  · exact ok.updAcre.putHdr.acrePut.putHdr
  · exact .ite ok.updAcre.putHdr.acrePut ok.updAcre.putHdr

theorem State.memOk.fileRays {s : State} (ok : s.memOk) {n limit} : (s.fileRays n limit).memOk := by
  unfold State.fileRays
  dsimp only
  refine .foldl (fun _ _ ok => ?_) ok
  split
  · exact ok.offer
  · exact ok.fldCount

theorem State.memOk.drawRays {n : Nat} : ∀ {s : State}, s.memOk → ∀ {i}, (s.drawRays n i).2.memOk := by
  induction n with
  | zero => exact fun ok => ok
  | succ n ih =>
    intro s ok i
    unfold State.drawRays
    dsimp only
    split
    · exact ok
    · exact ih ok.beside

theorem State.memOk.replay {s : State} (ok : s.memOk) {n} : (s.replay n).memOk := by
  unfold State.replay
  dsimp only
  exact .ite ok.drawRays.startOp ok.fldCount.startOp

/-! ## FLD_SLOT_FILL -/

theorem State.memOk.slotFill {s : State} (ok : s.memOk) {n} : (s.slotFill n).memOk := by
  unfold State.slotFill
  dsimp only
  split
  · exact ok.startOp
  · exact ok.startOp

/-! ## Completion -/

theorem State.memOk.fldEnd {s : State} (ok : s.memOk) {n limit} : (s.fldEnd n limit).memOk := by
  unfold State.fldEnd
  split
  · exact .ite ok.gatherEnd ok
  · exact ok.scatterEnd
  · exact ok.adamEnd
  · exact .ite ok ok.fileRays
  · split
    · split
      · exact ok.beside
      · exact ok
    · exact ok
  · exact ok

/-! ## The rows -/

theorem State.memOk.dirCommit {s : State} (ok : s.memOk) : s.dirCommit.memOk := ok
theorem State.memOk.absentClear {s : State} (ok : s.memOk) : s.absentClear.memOk := ok

/-! ## Tensors -/

theorem State.memOk.isolation {s : State} (ok : s.memOk) {p target ts} : (s.isolation p target ts).memOk := by
  unfold State.isolation
  split
  · exact ok
  · exact .ite ok ok.beside.event

/-! ## Inputs -/

theorem State.memOk.ifeCount {s : State} (ok : s.memOk) {n c k} : (s.ifeCount n c k).memOk := ok.updInput

theorem State.memOk.clearChains {s : State} (ok : s.memOk) {at'} : (s.clearChains at').memOk := by
  unfold State.clearChains
  refine .foldl (fun _ _ ok => ?_) ok
  split
  · exact .ite ok ok.updInput
  · exact ok

/-! ## The chain -/

theorem State.memOk.trackGood {s : State} (ok : s.memOk) {n f last stamp axes} : (s.trackGood n f last stamp axes).memOk := by
  unfold State.trackGood
  dsimp only
  exact .ite ok.updInput.ifeCount ok.updInput

theorem State.memOk.track {s : State} (ok : s.memOk) {n f stamp axes} : (s.track n f stamp axes).memOk := by
  unfold State.track
  dsimp only
  split
  · exact ok.updInput
  · split
    · exact ok.ifeCount
    · split
      · exact ok.trackGood
      · exact .ite ok.updInput.ifeCount.trackGood ok.updInput.ifeCount.beside.event

/-! ## Output records -/

theorem State.memOk.emitInto {s : State} (ok : s.memOk) {e r} : (s.emitInto e r).memOk := by
  unfold State.emitInto
  dsimp only
  exact ok.writePool.setFlag.beside

theorem State.memOk.ifeOutput {s : State} (ok : s.memOk) {n r} : (s.ifeOutput n r).memOk := by
  unfold State.ifeOutput
  dsimp only
  split
  · exact ok.emitInto
  · exact .ite ok.updInput ok.updInput.ifeCount

theorem State.memOk.encOutput {s : State} (ok : s.memOk) {e r} : (s.encOutput e r).memOk := by
  unfold State.encOutput
  dsimp only
  split
  · exact ok.emitInto
  · exact .ite ok.updEnc ok.updEnc

theorem State.memOk.lostEvent {s : State} (ok : s.memOk) {slot lost} : (s.lostEvent slot lost).memOk := .ite ok ok.event

theorem State.memOk.invalidRecord {s : State} (ok : s.memOk) {n t status} : (s.invalidRecord n t status).memOk := by
  unfold State.invalidRecord
  split
  exact (State.memOk.of_snd ok.draw ‹_›).ifeOutput

theorem State.memOk.validRecord {s : State} (ok : s.memOk) {n f t line phase} : (s.validRecord n f t line phase).memOk := by
  unfold State.validRecord
  dsimp only
  exact .ite ok.ifeOutput ok.ifeOutput.updInput.event

theorem State.memOk.ifeRecord {s : State} (ok : s.memOk) {n} : (s.ifeRecord n).memOk := by
  unfold State.ifeRecord
  dsimp only
  split
  · exact ok
  · split
    · exact ok
    · refine State.memOk.updInput ?_
      split
      · exact ok.invalidRecord
      · split
        · exact ok.validRecord
        · exact ok.invalidRecord

/-! ## Arrivals -/

theorem State.memOk.chainSample {s : State} (ok : s.memOk) {n b stamp data} : (s.chainSample n b stamp data).memOk := by
  unfold State.chainSample
  dsimp only
  exact .ite ok.updInput (State.memOk.ite ok ok.track)

theorem State.memOk.takeHeld {s : State} (ok : s.memOk) : s.takeHeld.memOk := by
  unfold State.takeHeld
  dsimp only
  refine .foldl (fun _ _ ok => ?_) ok
  split
  · exact .foldl (fun _ _ ok => ok.chainSample) ok.updInput
  · exact ok.updInput

/-! ## IFE_EMIT -/

theorem State.memOk.emitKept {s : State} (ok : s.memOk) {slot} : (s.emitKept slot).memOk := by
  unfold State.emitKept
  extract_lets kept r
  have emitted : r.1.memOk := List.foldlRecOn (motive := fun a : State × List (List Byte) => a.1.memOk) kept _ ok fun a ok x _ => by
    split
    · exact State.memOk.emitInto ok
    · exact ok
  exact .ite emitted.beside emitted.beside

theorem State.memOk.emitStart {s : State} (ok : s.memOk) {n} : (s.emitStart n).memOk := by
  unfold State.emitStart
  dsimp only
  exact ok.beside.startOp.emitKept

theorem State.memOk.emitEnd {s : State} (ok : s.memOk) {input} : (s.emitEnd input).memOk := ok

/-! ## SYNC_IN -/

theorem State.memOk.holdBegin {s : State} (ok : s.memOk) {since} : (s.holdBegin since).memOk := ok.beside.clearChains

theorem State.memOk.holdEnd {s : State} (ok : s.memOk) {at' cause} : (s.holdEnd at' cause).memOk := by
  unfold State.holdEnd
  dsimp only
  exact ok.beside.clearChains.event.takeHeld

theorem State.memOk.syncRise {s : State} (ok : s.memOk) : s.syncRise.memOk := by
  unfold State.syncRise
  dsimp only
  exact .ite ok.beside.event ok.beside.event.holdBegin

theorem State.memOk.syncRelease {s : State} (ok : s.memOk) : s.syncRelease.memOk := by
  unfold State.syncRelease
  dsimp only
  exact .ite ok.beside.holdEnd ok.beside

theorem State.memOk.syncStuck {s : State} (ok : s.memOk) : s.syncStuck.memOk := by
  unfold State.syncStuck
  dsimp only
  exact .ite ok.beside.event ok

/-! ## Encoders -/

theorem State.memOk.encInvalid {s : State} (ok : s.memOk) {e quad} : (s.encInvalid e quad).memOk := by
  unfold State.encInvalid
  dsimp only
  exact .ite ok.updEnc.event ok.updEnc

theorem State.memOk.encTransition {s : State} (ok : s.memOk) {e a b} : (s.encTransition e a b).memOk := by
  unfold State.encTransition
  dsimp only
  split
  · exact ok.beside
  · split
    · exact ok
    · refine State.memOk.beside ?_
      split
      · exact (State.memOk.ite ok.encInvalid.encInvalid ok.encInvalid).beside
      · exact .ite ok.encInvalid ok

theorem State.memOk.encIndex {s : State} (ok : s.memOk) {e} : (s.encIndex e).memOk := by
  unfold State.encIndex
  dsimp only
  split
  · exact ok
  · exact .ite ok.updEnc ok

theorem State.memOk.encSampleStep {s : State} (ok : s.memOk) {e} : (s.encSampleStep e).memOk := by
  unfold State.encSampleStep
  dsimp only
  split
  · exact ok
  · split
    · exact .ite ok.updEnc ok
    · exact ok.countDisabled.updEnc
    · exact ok

theorem State.memOk.staleIndex {s : State} (ok : s.memOk) {e at_} : (s.staleIndex e at_).memOk := by
  unfold State.staleIndex
  dsimp only
  exact .ite ok.updEnc.countStale ok

theorem State.memOk.encRecord {s : State} (ok : s.memOk) {e} : (s.encRecord e).memOk := by
  unfold State.encRecord
  dsimp only
  split
  · split
    · exact ok
    · exact .ite ok.staleIndex.updEnc.updChan.noteArrival.encOutput ok.staleIndex.updEnc.appendRecord
  · exact ok

/-! ## The boundary -/

theorem State.memOk.ifeInputBoundary {s : State} (ok : s.memOk) {n} : (s.ifeInputBoundary n).memOk := by
  unfold State.ifeInputBoundary
  dsimp only
  split
  · exact ok.updInput.event
  · split
    · exact ok
    · exact .ite ok.updInput (State.memOk.ite ok.updInput ok)

theorem State.memOk.encBoundary {s : State} (ok : s.memOk) {e} : (s.encBoundary e).memOk := by
  unfold State.encBoundary
  dsimp only
  split
  · refine State.memOk.updEnc ?_
    split
    · exact .foldl (fun _ _ ok => ok.countDisabled) ok.lostEvent.updEnc
    · exact ok.lostEvent.updEnc
  · exact .ite ok.lostEvent.updEnc.updEnc ok.lostEvent.updEnc.updEnc

theorem State.memOk.syncMode {s : State} (ok : s.memOk) {ignore} : (s.syncMode ignore).memOk := by
  unfold State.syncMode
  dsimp only
  exact .ite ok.beside.holdEnd (State.memOk.ite ok.beside.holdBegin ok.beside)

theorem State.memOk.softSync {s : State} (ok : s.memOk) : s.softSync.memOk := by
  unfold State.softSync
  dsimp only
  exact .ite ok.beside ok.beside.holdBegin.holdEnd

theorem State.memOk.ifeBoundary {s : State} (ok : s.memOk) : s.ifeBoundary.memOk := by
  unfold State.ifeBoundary
  dsimp only
  split
  · exact (State.memOk.foldl (fun _ _ ok => ok.encBoundary)
        (State.memOk.foldl (fun _ _ ok => ok.lostEvent.ifeInputBoundary.updInput) ok)).softSync
  · exact .foldl (fun _ _ ok => ok.encBoundary)
        (State.memOk.foldl (fun _ _ ok => ok.lostEvent.ifeInputBoundary.updInput) ok)

/-! ## Counters and events -/

theorem State.memOk.fusCount {s : State} (ok : s.memOk) {i n} : (s.fusCount i n).memOk := ok

theorem State.memOk.fusEvent {s : State} (ok : s.memOk) {code a0 a1 a2} : (s.fusEvent code a0 a1 a2).memOk :=
  .ite ok.event ok

/-! ## The table in DRAM and the resident slots in context SRAM -/

theorem State.memOk.putTable {s : State} (ok : s.memOk) {slot c} : (s.putTable slot c).memOk := by
  unfold State.putTable
  split
  · exact ok.writeMem
  · exact ok

theorem State.memOk.putCtx {s : State} (ok : s.memOk) {i c} : (s.putCtx i c).memOk := ok.putSram (memWf_memWriteN _ _ (ok.2.1 5))
theorem State.memOk.updTrack {s : State} (ok : s.memOk) {i f} : (s.updTrack i f).memOk := ok.putCtx

theorem State.memOk.findTrack {s : State} (ok : s.memOk) {h} : (s.findTrack h).2.memOk := by
  unfold State.findTrack
  split
  · exact ok.fusCount
  · split
    · exact ok
    · exact ok.fusCount

/-! ## Page lists -/

theorem State.memOk.pageOut {s : State} (ok : s.memOk) {i} : (s.pageOut i).memOk := by
  unfold State.pageOut
  dsimp only
  split
  · exact ok
  · exact ok.putTable.beside

theorem State.memOk.pageIn {s : State} (ok : s.memOk) {h i} : (s.pageIn h i).memOk := by
  unfold State.pageIn
  dsimp only
  exact .ite ok.fusCount ok.beside.putCtx

theorem State.memOk.pageEntry {s : State} (ok : s.memOk) {h i} : (s.pageEntry h i).memOk :=
  .ite ok.pageOut (State.memOk.ite ok.fusCount (State.memOk.ite ok ok.pageOut.pageIn))

theorem State.memOk.pageList {s : State} (ok : s.memOk) {addr count} : (s.pageList addr count).memOk := by
  unfold State.pageList
  exact .foldl (fun _ _ ok => ok.pageEntry) ok

theorem State.memOk.pageOutAll {s : State} (ok : s.memOk) : s.pageOutAll.memOk := by
  unfold State.pageOutAll
  exact .foldl (fun _ _ ok => ok.pageOut) ok

/-! ## The free list -/

theorem State.memOk.freeTrack {s : State} (ok : s.memOk) {h} : (s.freeTrack h).memOk := by
  unfold State.freeTrack
  dsimp only
  exact ok.beside.putTable

theorem State.memOk.reloadFree {s : State} (ok : s.memOk) : s.reloadFree.memOk := ok

theorem State.memOk.createTrack {s : State} (ok : s.memOk) {make} : (s.createTrack make).memOk := by
  unfold State.createTrack
  split
  · exact ok.beside.putTable
  · exact ok.beside.fusCount

/-! ## What a context holds -/

theorem State.memOk.noteVector {s : State} (ok : s.memOk) {h obsDt id} : (s.noteVector h obsDt id).memOk := by
  unfold State.noteVector
  dsimp only
  split
  · exact ok.beside
  · split
    · exact ok.beside.updTrack
    · exact ok.beside.putTable

/-! ## The check -/

theorem State.memOk.fusMismatch {s : State} (ok : s.memOk) {unit index code} : (s.fusMismatch unit index code).memOk :=
  ok.beside.fusEvent

theorem State.memOk.fusIssue {s : State} (ok : s.memOk) {opcode chk} {k : NextOp → State → State}
    (step : ∀ n t, t.memOk → (k n t).memOk) : (s.fusIssue opcode chk k).memOk := by
  refine ok.tryIssue fun n t ok => ?_
  have checked : (t.engineCheck .fus chk).2.memOk := ok.engineCheck
  generalize t.engineCheck .fus chk = found at checked ⊢
  obtain ⟨_ | u, a⟩ := found
  · exact step n a checked
  · exact State.memOk.fusMismatch checked

/-! ## The filter and the head -/

theorem State.memOk.rebase {s : State} (ok : s.memOk) : s.rebase.memOk := ok
theorem State.memOk.sticky {s : State} (ok : s.memOk) {bit} : (s.sticky bit).memOk := ok
theorem State.memOk.rebasePublish {s : State} (ok : s.memOk) : s.rebasePublish.memOk := ok.rebase.publish

theorem State.memOk.directSample {s : State} (ok : s.memOk) {dt data} : (s.directSample dt data).memOk := by
  unfold State.directSample
  dsimp only
  exact .ite ok ok.beside.rebase.publish

/-! ## Checkpoints and votes -/

theorem State.memOk.storeHistory {s : State} (ok : s.memOk) {n} : (s.storeHistory n).memOk := by
  unfold State.storeHistory
  dsimp only
  split
  · exact ok
  · exact .foldl (fun _ _ ok => ok.writeMem) ok

theorem State.memOk.checkpoint {s : State} (ok : s.memOk) : s.checkpoint.memOk := ok.beside.storeHistory

theorem State.memOk.placeHistory {s : State} (ok : s.memOk) : s.placeHistory.memOk := by
  obtain ⟨find, isFind, keeps⟩ := State.freeRun_memOk
  unfold State.placeHistory
  rw [isFind]
  extract_lets pages old
  split
  · exact ok
  · have freed : old.memOk := by
      unfold old
      split
      · exact ok.unmapRun
      · exact ok
    split
    · exact keeps freed.beside
    · exact State.memOk.storeHistory (keeps freed.beside).unmapRun.beside

theorem State.memOk.addVote {s : State} (ok : s.memOk) {q source wheel inp} : (s.addVote q source wheel inp).memOk := ok

theorem State.memOk.addVotes {s : State} (ok : s.memOk) {qs source wheel inp} : (s.addVotes qs source wheel inp).memOk := by
  unfold State.addVotes
  exact .foldl (fun _ _ ok => ok.addVote) ok

/-! ## Propagation -/

theorem State.memOk.bindRing {s : State} (ok : s.memOk) : s.bindRing.memOk := by
  unfold State.bindRing
  dsimp only
  split
  · exact ok
  · exact .ite ok (ok.fusIssue fun _ _ ok => ok.beside.doneNow)

theorem State.memOk.propagate {s : State} (ok : s.memOk) {r chk} : (s.propagate r chk).memOk := by
  unfold State.propagate
  dsimp only
  split
  · exact ok.beside.checkpoint.rebasePublish
  · exact ok.sramCorrected.beside.checkpoint.rebasePublish
  · exact ok.dramCorrected.beside.checkpoint.rebasePublish
  · exact ok.beside.checkpoint.rebasePublish
  · exact ok.beside.engineFailed.fusMismatch.rebasePublish
  · exact ok.beside.fatal
  · exact ok.dramUncorrectable.engineFailed.beside.fusMismatch.rebasePublish

theorem State.memOk.takeRecord {s : State} (ok : s.memOk) {n chk} : (s.takeRecord n chk).memOk := by
  unfold State.takeRecord
  dsimp only
  split
  · exact ok
  · split
    · exact ok
    · split
      · exact ok.beside.sticky
      · split
        · exact .ite ok.beside.addVotes.propagate ok.beside.addVotes
        · exact .ite ok.beside.addVotes.propagate ok.beside.addVotes

theorem State.memOk.gapExpire {s : State} (ok : s.memOk) : s.gapExpire.memOk := by
  unfold State.gapExpire
  split
  · exact ok
  · exact .ite ok.beside.publishInvalid ok

/-! ## FUS_UPDATE -/

theorem State.memOk.findLandmark {s : State} (ok : s.memOk) {h} : (s.findLandmark h).2.memOk := by
  unfold State.findLandmark
  split
  · exact .of_snd ok.findTrack ‹_›
  · exact .of_snd ok.findTrack ‹_›

theorem State.memOk.updateItems {s : State} (ok : s.memOk) {n} : (s.updateItems n).2.memOk := by
  unfold State.updateItems
  dsimp only
  split
  · split
    · exact ok.fusCount
    · refine List.foldlRecOn (motive := fun a : List LateItem × State => a.2.memOk) _ _
          (State.memOk.ite (State.memOk.fusEvent ok.beside) ok)
        fun a ok r _ => ?_
      split
      next found => exact State.memOk.of_snd (State.memOk.findLandmark ok) found
      next none => exact State.memOk.of_snd (State.memOk.findLandmark ok) none
  · split
    · exact ok
    · split
      · split
        · exact ok
        · exact ok
      · exact ok
  · exact ok
  · exact ok

theorem State.memOk.dropLate {s : State} (ok : s.memOk) {i} : (s.dropLate i).memOk := by
  unfold State.dropLate
  dsimp only
  exact ok.beside.sticky

theorem State.memOk.queueLate {s : State} (ok : s.memOk) {i} : (s.queueLate i).memOk := .ite ok.beside ok.dropLate

theorem State.memOk.updateLandmark {s : State} (ok : s.memOk) {i} : (s.updateLandmark i).memOk := by
  unfold State.updateLandmark
  split
  · exact .ite ok ok.updTrack.beside
  · exact ok

theorem State.memOk.retrodict {s : State} (ok : s.memOk) {items} : (s.retrodict items).memOk := by
  unfold State.retrodict
  dsimp only
  split
  · exact ok
  · exact ok.beside.storeHistory

theorem State.memOk.applyItems {s : State} (ok : s.memOk) {items} : (s.applyItems items).memOk :=
  .foldl (fun _ _ ok => ok.updateLandmark) ok.retrodict

theorem State.memOk.updateEnd {s : State} (ok : s.memOk) {n startDt limit} : (s.updateEnd n startDt limit).memOk := by
  have listed : (s.updateItems n).2.memOk := ok.updateItems
  unfold State.updateEnd
  generalize s.updateItems n = found at listed ⊢
  obtain ⟨_ | items, t⟩ := found
  · exact listed
  · dsimp -zeta only
    extract_lets kind source rig items late now queued
    have queuedOk : queued.memOk := State.memOk.foldl (fun _ _ ok => ok.queueLate) listed
    split
    · exact queuedOk
    · split
      · exact queuedOk.addVotes
      · exact State.memOk.rebasePublish (State.memOk.ite queuedOk.addVotes.applyItems.sticky queuedOk.addVotes.applyItems)

theorem State.keepLate_memOk {a : List LateItem × State} (ok : a.2.memOk) {i} : (State.keepLate a i).2.memOk := by
  unfold State.keepLate
  split
  · exact ok
  · split
    next found => exact State.memOk.of_snd (State.memOk.findLandmark ok) found
    next none => exact State.memOk.of_snd (State.memOk.findLandmark ok) none

theorem State.memOk.repropEnd {s : State} (ok : s.memOk) : s.repropEnd.memOk := by
  unfold State.repropEnd
  dsimp only
  have kept {l : List LateItem} {a : List LateItem × State} (ok : a.2.memOk) : (l.foldl State.keepLate a).2.memOk :=
    List.foldlRecOn (motive := fun a : List LateItem × State => a.2.memOk) _ _ ok fun a ok x _ => State.keepLate_memOk ok
  have dropped {l : List LateItem} : (l.foldl State.dropLate { s with fus := { s.fus with late := [] } }).memOk :=
    State.memOk.foldl (fun _ _ ok => ok.dropLate) ok.beside
  split
  · exact kept dropped
  · exact State.memOk.rebasePublish (State.memOk.sticky (State.memOk.applyItems (kept dropped)).beside)

/-! ## FUS_TRACK_REQ and FUS_SEED -/

theorem State.memOk.trackReqOp {s : State} (ok : s.memOk) {n} : (s.trackReqOp n).memOk := by
  unfold State.trackReqOp
  dsimp only
  refine State.memOk.startOp (State.memOk.beside ?_)
  split
  · exact ok
  · exact ok.beside

theorem State.memOk.seedEnd {s : State} (ok : s.memOk) {n limit} : (s.seedEnd n limit).memOk := by
  unfold State.seedEnd
  dsimp only
  split
  · exact ok.fusCount
  · exact .foldl (fun _ _ ok => ok.createTrack) ok

/-! ## FUS_PROJECT -/

theorem State.memOk.projectOp {s : State} (ok : s.memOk) {n} : (s.projectOp n).memOk := by
  unfold State.projectOp
  dsimp only
  exact ok.fusCount.startOp

/-! ## FUS_VOTE -/

theorem State.memOk.quarantine {s : State} (ok : s.memOk) {q source major v} : (s.quarantine q source major v).memOk := by
  unfold State.quarantine
  dsimp only
  exact .ite ok ok.beside.fusEvent

theorem State.memOk.voteOn {s : State} (ok : s.memOk) {q} : (s.voteOn q).memOk := by
  unfold State.voteOn
  dsimp only
  split
  · exact (State.memOk.foldl (fun _ _ ok => ok.quarantine) ok).beside.sticky.fusEvent
  · exact .ite (State.memOk.foldl (fun _ _ ok => ok.quarantine) ok) ok

theorem State.memOk.requalifySource {s : State} (ok : s.memOk) {q source} : (s.requalifySource q source).memOk := by
  unfold State.requalifySource
  dsimp only
  split
  · exact ok
  · split
    · exact ok
    · exact .ite ok.beside.fusEvent ok.beside

theorem State.memOk.voteEnd {s : State} (ok : s.memOk) : s.voteEnd.memOk := by
  unfold State.voteEnd
  dsimp only
  exact .foldl (fun _ _ ok => (State.memOk.foldl (fun _ _ ok => ok.requalifySource) ok))
      (State.memOk.foldl (fun _ _ ok => ok.voteOn) ok)

/-! ## FUS_ANCHOR -/

theorem State.memOk.anchorMatch {s : State} (ok : s.memOk) {k ctx cam status dt inp} : (s.anchorMatch k ctx cam status dt inp).memOk :=
  ok.updTrack.beside

theorem State.anchorOne_memOk {a : List Nat × Nat × State} (ok : a.2.2.memOk) {n f addr d} :
    (State.anchorOne n f addr a d).2.2.memOk := by
  unfold State.anchorOne
  dsimp only
  split
  · exact State.memOk.anchorMatch ok
  · split
    · exact State.memOk.createTrack ok
    · exact ok

theorem State.memOk.anchorEnd {s : State} (ok : s.memOk) {n limit} : (s.anchorEnd n limit).memOk := by
  unfold State.anchorEnd
  dsimp only
  split
  · exact ok.fusCount
  · exact List.foldlRecOn (motive := fun a : List Nat × Nat × State => a.2.2.memOk) _ _ ok.beside fun a ok d _ =>
        State.anchorOne_memOk ok

/-! ## Completion, and the boundary -/

theorem State.memOk.fusEnd {s : State} (ok : s.memOk) {n startDt limit} : (s.fusEnd n startDt limit).memOk := by
  unfold State.fusEnd
  split
  · exact ok.updateEnd
  · exact ok.seedEnd
  · exact .ite ok.voteEnd ok
  · exact .ite ok.repropEnd ok
  · exact ok.pageList
  · exact ok.anchorEnd
  · exact ok

theorem State.memOk.missOf {s : State} (ok : s.memOk) {r} : (s.missOf r).memOk :=
  .ite ok (ok.putSram (memWf_memWriteN _ _ (ok.2.1 5)))

theorem State.memOk.trackBoundary {s : State} (ok : s.memOk) : s.trackBoundary.memOk := by
  unfold State.trackBoundary
  dsimp only
  refine State.memOk.reloadFree ?_
  split
  · exact .foldl (fun _ _ ok => ok.freeTrack) (State.memOk.foldl (fun _ _ ok => ok.missOf) ok)
  · exact (State.memOk.foldl (fun _ _ ok => ok.freeTrack) (State.memOk.foldl (fun _ _ ok => ok.missOf) ok)).fusEvent

theorem State.memOk.lateEvents {s : State} (ok : s.memOk) : s.lateEvents.memOk := by
  unfold State.lateEvents
  exact .foldl (fun _ _ ok => (State.memOk.ite ok ok.fusEvent)) ok

theorem State.memOk.fusBoundary {s : State} (ok : s.memOk) : s.fusBoundary.memOk := by
  unfold State.fusBoundary
  dsimp only
  exact ok.trackBoundary.lateEvents.beside

theorem State.memOk.placeTable {s : State} (ok : s.memOk) : s.placeTable.memOk := by
  obtain ⟨find, isFind, keeps⟩ := State.freeRun_memOk
  unfold State.placeTable
  rw [isFind]
  split
  · exact ok
  · split
    next found => exact State.memOk.fillRun (State.memOk.of_snd (keeps ok) found).beside
    next full => exact .of_snd (keeps ok) full

theorem State.memOk.fusStart {s : State} (ok : s.memOk) : s.fusStart.memOk := by
  unfold State.fusStart
  dsimp only
  exact ok.placeTable.placeHistory.beside

/-! ## The motion port -/

theorem State.memOk.mportFall {s : State} (ok : s.memOk) : s.mportFall.memOk := .ite ok.beside ok.beside
theorem State.memOk.mportReply {s : State} (ok : s.memOk) {reply n} : (s.mportReply reply n).memOk := .ite ok.beside ok
theorem State.memOk.mportRise {s : State} (ok : s.memOk) : s.mportRise.memOk := ok

/-! ## What a core does with a check's finding -/

theorem State.memOk.coreEvent {s : State} (ok : s.memOk) {c code a0 a1 a2} : (s.coreEvent c code a0 a1 a2).memOk :=
  .ite ok.event ok

theorem State.memOk.fenceCheck {s : State} (ok : s.memOk) {c} : (s.fenceCheck c).memOk := by
  unfold State.fenceCheck
  dsimp only
  split
  · exact .ite ok.updCore.beside.event ok.updCore
  · exact ok.updCore

theorem State.memOk.coreMismatch {s : State} (ok : s.memOk) {c index unit action} : (s.coreMismatch c index unit action).memOk := by
  unfold State.coreMismatch
  dsimp only
  exact ok.updCore.coreEvent.fenceCheck

theorem State.memOk.coreHalt {s : State} (ok : s.memOk) {c index unit} : (s.coreHalt c index unit).memOk := by
  unfold State.coreHalt
  dsimp only
  exact ok.updCore.onSeq.coreEvent

theorem State.memOk.coreCounts {s : State} (ok : s.memOk) {c r} : (s.coreCounts c r).memOk := by
  unfold State.coreCounts
  dsimp only
  exact ok.updCore

theorem State.memOk.coreSpanEvents {s : State} (ok : s.memOk) {c} : (s.coreSpanEvents c).memOk := by
  unfold State.coreSpanEvents
  dsimp only
  refine State.memOk.updCore ?_
  split
  · refine State.memOk.coreEvent ?_
    split
    · exact .ite ok.coreEvent ok
    · exact ok
  · split
    · exact .ite ok.coreEvent ok
    · exact ok

theorem State.memOk.coreEnd {s : State} (ok : s.memOk) {c r} : (s.coreEnd c r).2.memOk := by
  unfold State.coreEnd
  extract_lets array s₁ done fail cost mismatch
  have counted : s₁.memOk := ok.countBusy
  have ends {t : State} (ok : t.memOk) : (done t).2.memOk := by
    have written : (if array then (t.applyMemWrites r.writes).updCore c fun x => { x with acc := putWords x.acc 0 (r.aux.drop 3) }
        else t.applyMemWrites r.writes).memOk := State.memOk.ite ok.applyMemWrites.updCore ok.applyMemWrites
    exact .ite written.coreCounts.countDone.setOnDone.updCore.coreEvent written.coreCounts.countDone.setOnDone
  have fails {t : State} (ok : t.memOk) : (fail t).memOk := State.memOk.ite ok ok.applyMemWrites.beside
  have mismatches {u next} : (mismatch u next).2.memOk := by
    unfold mismatch
    dsimp only
    split
    · exact (fails counted.coreMismatch).coreHalt
    · split
      · exact (fails counted.coreMismatch).coreHalt
      · split
        · exact (fails counted.coreMismatch).coreHalt
        · exact counted.coreMismatch.updCore
  split
  · exact ends counted
  · exact ends counted.sramCorrected
  · exact ends counted.dramCorrected
  · exact mismatches
  · exact mismatches
  · exact (fails counted.sramUe.writeMem.updCore.fenceCheck).coreHalt
  · exact (fails counted.dramUncorrectable).coreHalt

theorem State.memOk.startCore {s : State} (ok : s.memOk) {c n u cycles ws chk aux} : (s.startCore c n u cycles ws chk aux).memOk := by
  unfold State.startCore
  dsimp only
  exact ok.onSeq

theorem State.memOk.arrOp {s : State} (ok : s.memOk) {c opcode conv chk} : (s.arrOp c opcode conv chk).memOk := by
  unfold State.arrOp
  dsimp only
  exact ok.tryIssue fun _ _ ok => ok.isolation.updCore.startCore

theorem State.memOk.vectorOp {s : State} (ok : s.memOk) {c chk} : (s.vectorOp c chk).memOk := by
  unfold State.vectorOp
  dsimp only
  exact ok.tryIssue fun _ _ ok => ok.isolation.updCore.startCore

/-! ## DMA -/

theorem State.memOk.dmaOp {s : State} (ok : s.memOk) {t chk} : (s.dmaOp t chk).memOk := by
  unfold State.dmaOp
  dsimp only
  refine ok.tryIssue fun _ _ ok => ?_
  split
  · exact ok.unmappedEvents.startCore
  · split
    · split
      · exact (State.memOk.of_snd ok.unmappedEvents.engineCheck ‹_›).engineFailed
      · exact (State.memOk.of_snd ok.unmappedEvents.engineCheck ‹_›).startOp
    · exact .of_snd ok.unmappedEvents.engineCheck ‹_›

theorem State.memOk.coreSpanStart {s : State} (ok : s.memOk) {c} : (s.coreSpanStart c).memOk := by
  unfold State.coreSpanStart
  split
  · exact ok.updCore
  · exact ok.updCore

end Sys2Proof.Machine
end

section
set_option Elab.async false
/-!
PROOFS. What keeps the memories canonical, continued: one lemma for each function of the state, in the model's order.
-/
namespace Sys2Proof.Machine

/-! ## Direct registers -/

theorem State.memOk.directRead {s : State} (ok : s.memOk) {off} : (s.directRead off).2.memOk := by
  unfold State.directRead
  dsimp only
  split
  · exact ok.beside
  · exact ok

/-! ## Errors of the port -/

theorem State.memOk.portErr {s : State} (ok : s.memOk) {bit} : (s.portErr bit).memOk := ok.beside.raiseIrq

theorem State.memOk.refuseFrame {s : State} (ok : s.memOk) {bit} : (s.refuseFrame bit).memOk := by
  unfold State.refuseFrame
  dsimp only
  exact ok.beside.portErr

/-! ## The host window -/

theorem Mbx.memOk.drain {cs : List Completion} : ∀ {m : Mbx}, m.memOk → (m.drain cs).memOk := by
  induction cs with
  | nil => exact fun ok => ok
  | cons c cs ih =>
    intro m ok
    unfold Mbx.drain
    split
    · exact ih ok.cqPut
    · exact ok

theorem State.memOk.setCqHead {s : State} (ok : s.memOk) {n v} : (s.setCqHead n v).memOk := by
  have drained : (Mbx.drain { s.mbx[n] with cqHead := v } s.mbx[n].held).memOk := Mbx.memOk.drain (ok.2.2 n)
  unfold State.setCqHead
  dsimp only
  split
  · exact ok.updMbx fun _ _ => drained
  · exact (ok.updMbx fun _ _ => drained).raiseIrq

theorem State.memOk.directWrite {s : State} (ok : s.memOk) {off v} : (s.directWrite off v).memOk := by
  unfold State.directWrite
  dsimp only
  split
  · exact ok.beside
  · split
    · exact ok.beside
    · split
      · exact ok.beside.irqPin
      · split
        · exact ok.beside.irqPin
        · split
          · exact ok
          · split
            · exact ok
            · split
              · exact ok.updMbx fun _ ok => ok
              · exact ok.setCqHead
              · exact ok

theorem State.memOk.applyWrite {s : State} (ok : s.memOk) {a data} : (s.applyWrite a data).memOk := by
  unfold State.applyWrite
  split
  · exact ok.foldl fun _ _ ok => ok.directWrite
  · exact ok.foldl fun _ _ ok => (State.memOk.updMbx ok (f := fun m => { m with sq := memWriteN m.sq _ _ }) fun _ ok =>
        ⟨memWf_memWriteN _ _ ok.1, ok.2⟩)
  · exact ok.foldl fun _ _ ok => ok.windowWrite
  · exact ok

theorem State.memOk.hostWrite {s : State} (ok : s.memOk) {a data} : (s.hostWrite a data).memOk := by
  unfold State.hostWrite
  split
  · exact ok.refuseFrame
  · exact ok.applyWrite

/-! ## Reads -/

theorem State.memOk.readWords {n : Nat} : ∀ {s : State}, s.memOk → ∀ {a}, (s.readWords a n).2.memOk := by
  induction n with
  | zero => exact fun ok => ok
  | succ n ih =>
    intro s ok a
    unfold State.readWords
    exact ih ok.directRead

theorem State.memOk.readBurst {s : State} (ok : s.memOk) {a n} : (s.readBurst a n).2.memOk := by
  unfold State.readBurst
  split
  · exact ok.readWords
  · exact ok
  · exact ok
  · exact ok
  · exact ok
  · exact ok

/-! ## Frames -/

theorem State.memOk.bareAct {s : State} (ok : s.memOk) {opcode} : (s.bareAct opcode).memOk :=
  .ite ok.beside (State.memOk.ite (State.memOk.ite ok.beside ok) ok.beside)

theorem State.memOk.bareFrame {s : State} (ok : s.memOk) {opcode complement} : (s.bareFrame opcode complement).memOk := by
  unfold State.bareFrame
  dsimp only
  split
  · exact ok
  · exact .ite (State.memOk.ite ok.refuseFrame.beside ok.refuseFrame) ok.bareAct

theorem State.memOk.writeFrame {s : State} (ok : s.memOk) {f} : (s.writeFrame f).memOk := by
  unfold State.writeFrame
  dsimp only
  split
  · exact ok
  · split
    · exact ok.bareFrame
    · split
      · exact ok.refuseFrame
      · split
        · exact ok.refuseFrame
        · exact .ite ok.refuseFrame (State.memOk.ite ok.refuseFrame ok.hostWrite)

theorem State.memOk.driveRead {s : State} (ok : s.memOk) {f bs} : (s.driveRead f bs).memOk := ok
theorem State.memOk.readPart {s : State} (ok : s.memOk) {a m} : (s.readPart a m).2.memOk := ok.readBurst
theorem State.memOk.endRead {s : State} (ok : s.memOk) {f} : (s.endRead f).memOk := .ite ok.portErr ok

theorem State.memOk.readFrame {s : State} (ok : s.memOk) {f staged} : (s.readFrame f staged).memOk := by
  unfold State.readFrame
  dsimp only
  split
  · exact ok
  · split
    · exact ok.refuseFrame.driveRead
    · split
      · exact ok.driveRead
      · split
        · exact ok.refuseFrame.driveRead
        · split
          · exact ok.refuseFrame.driveRead
          · exact .ite ok.portErr.driveRead.endRead ok.readPart.driveRead.endRead

theorem State.memOk.hostRegWrite {s : State} (ok : s.memOk) {off v} : (s.hostRegWrite off v).memOk := .ite ok.hostWrite ok

/-! ## A command's fields -/

theorem State.memOk.bulkOut {s : State} (ok : s.memOk) {c off bs} : (s.bulkOut c off bs).memOk := ok.windowWrite

/-! ## Replies -/

theorem State.memOk.reply {s : State} (ok : s.memOk) {c status r0 r1 r2 r3} : (s.reply c status r0 r1 r2 r3).memOk := ok.complete
theorem State.memOk.replyOk {s : State} (ok : s.memOk) {c} : (s.replyOk c).memOk := ok.reply
theorem State.memOk.replyErr {s : State} (ok : s.memOk) {c status} : (s.replyErr c status).memOk := ok.reply

theorem State.memOk.replyOut {s : State} (ok : s.memOk) {c bs r0 r1 r2 r3} : (s.replyOut c bs r0 r1 r2 r3).memOk :=
  .ite ok.replyErr ok.bulkOut.reply

theorem State.memOk.replyList {s : State} (ok : s.memOk) {c size entries} : (s.replyList c size entries).memOk := by
  unfold State.replyList
  dsimp only
  exact ok.bulkOut.reply

theorem State.memOk.addJob {s : State} (ok : s.memOk) {c k} : (s.addJob c k).memOk := ok

/-! ## In flight -/

theorem State.memOk.dequeue {s : State} (ok : s.memOk) {q} : (s.dequeue q).memOk := ok
theorem State.memOk.enqueue {s : State} (ok : s.memOk) {q} : (s.enqueue q).memOk := ok

/-! ## The checks of R347 -/

theorem State.memOk.accept {s : State} (ok : s.memOk) {c act} (acts : s.memOk → (act c s).memOk) : (s.accept c act).memOk := by
  unfold State.accept
  split
  · exact ok.reply
  · exact acts ok

theorem State.memOk.dropUndefined {n : Nat} : ∀ {s : State}, s.memOk → (s.dropUndefined n).memOk := by
  induction n with
  | zero => exact fun ok => ok
  | succ n ih =>
    intro s ok
    unfold State.dropUndefined
    split
    · exact ok
    · split
      · exact ih (State.memOk.accept ok.dequeue fun ok => ok)
      · exact ok

theorem State.memOk.skipUndefined {s : State} (ok : s.memOk) : s.skipUndefined.memOk := ok.dropUndefined

theorem State.memOk.serve {s : State} (ok : s.memOk) {opcode e act} (acts : ∀ c t, t.memOk → (act c t).memOk) :
    (s.serve opcode e act).memOk := by
  unfold State.serve
  dsimp only
  split
  · exact ok
  · split
    · split
      · exact State.memOk.skipUndefined (State.memOk.accept ok.skipUndefined.dequeue (acts _ _))
      · exact ok.skipUndefined
    · split
      · exact ok.skipUndefined
      · split
        · exact ok.skipUndefined.enqueue
        · exact State.memOk.accept ok.skipUndefined (acts _ _)

/-! ## The copy from the ring -/

theorem State.memOk.copyEntries {i : Fin 8} {n : Nat} : ∀ {s : State}, s.memOk → (State.copyEntries i n s).memOk := by
  induction n with
  | zero => exact fun ok => ok
  | succ n ih =>
    intro s ok
    unfold State.copyEntries
    dsimp only
    split
    · exact ok
    · exact ih (ok.enqueue.updMbx fun _ ok => ok)

theorem State.memOk.copyRing {s : State} (ok : s.memOk) {i} : (s.copyRing i).memOk := by
  unfold State.copyRing
  dsimp only
  exact .ite ok (State.memOk.ite ok.copyEntries ok.copyEntries.raiseIrq).skipUndefined

/-! ## Delivery -/

theorem State.memOk.deliverEvent {s : State} (ok : s.memOk) {e seq} : (s.deliverEvent e seq).memOk := by
  unfold State.deliverEvent
  dsimp only
  split
  · exact ok
  · refine .foldl (fun _ _ ok => ?_) ok
    split
    · split
      · exact (ok.postUnsolicited fun _ _ ok => by exact ok).raiseIrq
      · exact ok.postUnsolicited fun _ _ ok => by exact ok
    · exact ok

/-! ## The ring -/

theorem State.memOk.stageLost {s : State} (ok : s.memOk) : s.stageLost.memOk := by
  unfold State.stageLost
  dsimp only
  exact .ite ok ok.beside.event

theorem State.memOk.recordWrite {s : State} (ok : s.memOk) : s.recordWrite.memOk := by
  unfold State.recordWrite
  dsimp only
  split
  · exact ok
  · exact ok.beside.stageLost.deliverEvent

theorem State.memOk.drainFifo {s : State} (ok : s.memOk) : s.drainFifo.memOk := by
  unfold State.drainFifo
  dsimp only
  exact .ite ok.beside (State.memOk.foldl (fun _ _ ok => ok.beside) ok)

theorem State.memOk.recorderStep {s : State} (ok : s.memOk) {chk} : (s.recorderStep chk).memOk := by
  unfold State.recorderStep
  dsimp only
  split
  · exact ok
  · refine State.memOk.recordWrite ?_
    split
    · exact ok.sramCorrected
    · exact ok.sramUe.beside
    · exact ok

/-! ## Firmware's entries, panic and archive -/

theorem State.memOk.stage {s : State} (ok : s.memOk) {e} : (s.stage e).memOk :=
  .ite ok (State.memOk.ite ok.beside (State.memOk.ite ok.beside ok.beside))

theorem State.memOk.writeWindow {s : State} (ok : s.memOk) {cp k v} : (s.writeWindow cp k v).memOk := by
  unfold State.writeWindow
  dsimp only
  exact .ite ok.beside.stage ok.beside

theorem State.memOk.archiveRing {s : State} (ok : s.memOk) : s.archiveRing.memOk := .ite ok.beside ok

theorem State.memOk.releaseFreeze {s : State} (ok : s.memOk) {warm} : (s.releaseFreeze warm).memOk := by
  unfold State.releaseFreeze
  dsimp only
  split
  · exact (State.memOk.ite (State.memOk.ite ok.beside ok).beside.event (State.memOk.ite ok.beside ok).beside).drawBelow.beside.event
  · exact .ite (State.memOk.ite ok.beside ok).beside.event (State.memOk.ite ok.beside ok).beside

/-! ## Links -/

theorem State.memOk.linkMismatch {s : State} (ok : s.memOk) {link} : (s.linkMismatch link).memOk := by
  unfold State.linkMismatch
  dsimp only
  exact .ite ok (State.memOk.ite ok.beside.fatal ok.beside)

theorem State.memOk.linkSpanEvents {s : State} (ok : s.memOk) : s.linkSpanEvents.memOk := by
  unfold State.linkSpanEvents
  dsimp only
  exact .foldl (fun _ _ ok => (State.memOk.ite ok.event ok)) ok

theorem State.memOk.sramSpanEvents {s : State} (ok : s.memOk) : s.sramSpanEvents.memOk := by
  unfold State.sramSpanEvents
  dsimp only
  exact .foldl (fun _ _ ok => (State.memOk.ite ok.event ok)) ok

theorem State.memOk.recBoundary {s : State} (ok : s.memOk) : s.recBoundary.memOk := by
  unfold State.recBoundary
  dsimp only
  exact ok.sramSpanEvents.linkSpanEvents.beside

/-! ## Creation -/

theorem State.memOk.seedAcres {s : State} (ok : s.memOk) : s.seedAcres.memOk := ok

theorem memWf_initTables {base n : Nat} : ∀ {e r m}, memWf m = true → memWf (initTables base n e r m).1 = true := by
  induction n with
  | zero => exact fun wf => wf
  | succ n ih =>
    intro e r m wf
    unfold initTables
    exact ih (memWf_memWriteN _ _ wf)

/-- The acre's tables as a variable: the kernel would evaluate their four million entries. -/
theorem State.newAcre_memOk_of_tables {s : State} (ok : s.memOk) {key base} {t : List Host.Cell × Dword} (filled : memWf t.1 = true)
    (isT : initTables base acreEntries 0 (s.boundarySeed key) (s.unmapRun base acreBytes).mem = t) : (s.newAcre key base).memOk := by
  unfold State.newAcre
  rw [isT]
  exact State.memOk.putHdr (State.memOk.beside (ok.putMem filled))

theorem State.memOk.newAcre {s : State} (ok : s.memOk) {key base} : (s.newAcre key base).memOk :=
  State.newAcre_memOk_of_tables ok (memWf_initTables ok.unmapRun.1) rfl

theorem State.memOk.fst_ite {α : Type} {a b : State × α} (yes : a.1.memOk) (no : b.1.memOk) {c : Prop} {_ : Decidable c} :
    (if c then a else b).1.memOk := by
  split
  · exact yes
  · exact no

theorem State.memOk.createAcres {s : State} (ok : s.memOk) : s.createAcres.memOk := by
  obtain ⟨find, isFind, keeps⟩ := State.freeRun_memOk
  unfold State.createAcres
  rw [isFind]
  refine .ite (State.memOk.beside ?_) (State.memOk.event (State.memOk.beside ?_))
  all_goals
    refine List.foldlRecOn (motive := fun r : State × Nat × Nat => r.1.memOk) _ _ ok fun r ok k _ => ?_
    have drawn : (find r.1 0 0 512).2.memOk := keeps ok
    refine State.memOk.fst_ite ?_ (State.memOk.fst_ite ?_ ?_)
    · exact ok
    · exact ok
    · generalize find r.1 0 0 512 = found at drawn ⊢
      obtain ⟨_ | b, t⟩ := found
      · dsimp only
        exact drawn
      · dsimp only
        exact State.memOk.event (State.memOk.newAcre drawn)

theorem State.memOk.rollHistory {s : State} (ok : s.memOk) : s.rollHistory.memOk := by
  unfold State.rollHistory
  dsimp only
  exact ok.beside

/-! ## The training set -/

theorem State.memOk.masterFrom {a : Acre} {k : Nat} : ∀ {s : State}, s.memOk → ∀ {e}, (State.masterFrom a k e s).memOk := by
  induction k with
  | zero => exact fun ok => ok
  | succ k ih =>
    intro s ok e
    unfold State.masterFrom
    exact ih ok.tput

theorem State.memOk.joinTraining {s : State} (ok : s.memOk) {key} : (s.joinTraining key).memOk := by
  obtain ⟨find, isFind, keeps⟩ := State.freeRun_memOk
  unfold State.joinTraining
  rw [isFind]
  split
  · exact ok
  · split
    · exact ok
    · split
      next full => exact .of_snd (keeps ok) full
      next found => exact State.memOk.masterFrom (State.memOk.of_snd (keeps ok) found).unmapRun.updAcre

theorem State.memOk.leaveTraining {s : State} (ok : s.memOk) {a} : (s.leaveTraining a).memOk := ok.unmapRun.updAcre.wantWrite

/-! ## The directory -/

theorem State.memOk.reloadDirectory {s : State} (ok : s.memOk) : s.reloadDirectory.memOk := by
  unfold State.reloadDirectory
  dsimp only
  exact .ite ok ok.beside

theorem State.memOk.commitDirectory {s : State} (ok : s.memOk) {dir} : (s.commitDirectory dir).memOk := ok

theorem State.memOk.trainBudget {s : State} (ok : s.memOk) {most} : (s.trainBudget most).memOk := by
  unfold State.trainBudget
  dsimp only
  exact .ite ok.beside ok.beside.event

theorem State.memOk.fldSpanEvents {s : State} (ok : s.memOk) : s.fldSpanEvents.memOk := by
  unfold State.fldSpanEvents
  dsimp only
  exact (State.memOk.ite (State.memOk.ite ok.event ok).event (State.memOk.ite ok.event ok)).beside

theorem State.memOk.decoderEvents {s : State} (ok : s.memOk) : s.decoderEvents.memOk := by
  unfold State.decoderEvents
  split
  · exact ok
  · exact .foldl (fun _ _ ok => ok.updAcre.event) ok

/-! ## Residence -/

theorem State.memOk.markEvictions {s : State} (ok : s.memOk) {further} : (s.markEvictions further).memOk := ok

theorem State.memOk.evictAcres {s : State} (ok : s.memOk) : s.evictAcres.memOk := by
  unfold State.evictAcres
  exact .foldl (fun _ _ ok => (State.memOk.ite ok.wantWrite (State.memOk.ite ok ok.unmapRun.updAcre))) ok

theorem State.memOk.recallAcres {s : State} (ok : s.memOk) : s.recallAcres.memOk := by
  unfold State.recallAcres
  dsimp only
  exact .foldl (fun _ _ ok => ok.beside) ok

theorem State.memOk.periodicWrites {s : State} (ok : s.memOk) : s.periodicWrites.memOk := by
  unfold State.periodicWrites
  exact (State.memOk.foldl (fun _ _ ok => ok.wantWrite) ok).queueSnapshot

theorem State.memOk.deleteAcres {s : State} (ok : s.memOk) {dt} : (s.deleteAcres dt).memOk := by
  unfold State.deleteAcres
  dsimp only
  refine .foldl (fun _ _ ok => ?_) ok
  split
  · exact ok
  · exact .foldl (fun _ _ ok => ok.completeJob)
        (State.memOk.ite (State.memOk.ite ok.unmapRun ok).unmapRun (State.memOk.ite ok.unmapRun ok)).beside.event

/-! ## The boundary -/

theorem State.memOk.mapPolicy {s : State} (ok : s.memOk) {most} : (s.mapPolicy most).memOk := by
  unfold State.mapPolicy
  dsimp only
  exact (State.memOk.foldl (fun _ _ ok => ok.joinTraining)
      (State.memOk.foldl (fun _ _ ok => ok.leaveTraining)
          ok).createAcres.decoderEvents.trainBudget.markEvictions).commitDirectory.evictAcres.recallAcres.periodicWrites

theorem State.memOk.fldBoundary {s : State} (ok : s.memOk) : s.fldBoundary.memOk := by
  unfold State.fldBoundary
  dsimp only
  refine State.memOk.beside ?_
  split
  · exact ok.fldSpanEvents.rollHistory.reloadDirectory.seedAcres.mapPolicy
  · exact ok.fldSpanEvents.rollHistory.reloadDirectory.seedAcres

/-! ## Distances -/

theorem State.memOk.drawVec {s : State} (ok : s.memOk) {dim} : (s.drawVec dim).2.memOk := by
  unfold State.drawVec
  dsimp only
  exact ok.drawBytes

/-! ## Queries -/

theorem State.memOk.askBlocks {s : State} (ok : s.memOk) {ix serial blocks} : (s.askBlocks ix serial blocks).memOk := by
  unfold State.askBlocks
  dsimp only
  split
  · exact ok
  · exact ok.psCount.beside

theorem State.memOk.flashRound {s : State} (ok : s.memOk) {q ix} : (s.flashRound q ix).memOk := by
  unfold State.flashRound
  dsimp only
  split
  · exact ok.updQuery
  · exact ok.updQuery.askBlocks

theorem State.memOk.startWalk {s : State} (ok : s.memOk) {q ix} : (s.startWalk q ix).memOk := by
  unfold State.startWalk
  dsimp only
  exact .ite ok.updQuery.flashRound ok.updQuery

theorem State.memOk.takeQuery {s : State} (ok : s.memOk) {q} : (s.takeQuery q).memOk := by
  unfold State.takeQuery
  dsimp only
  split
  · exact ok
  · exact ok.updQuery.startWalk

theorem State.memOk.takeBatch {s : State} (ok : s.memOk) : s.takeBatch.memOk := by
  unfold State.takeBatch
  dsimp only
  split
  · exact ok
  · exact .ite (State.memOk.foldl (fun _ _ ok => ok.takeQuery) ok.beside) ok

theorem State.memOk.roundOn {s : State} (ok : s.memOk) {q ix} : (s.roundOn q ix).memOk := by
  unfold State.roundOn
  dsimp only
  exact ok.updQuery.flashRound

theorem State.memOk.blockLost {s : State} (ok : s.memOk) {ix serial b} : (s.blockLost ix serial b).memOk := by
  unfold State.blockLost
  dsimp only
  split
  · exact .foldl (fun _ _ ok => ok.repairPage) ok.flashLost
  · exact ok.flashLost.beside.poisonIndex.takeBatch

theorem State.memOk.blocksLanded {s : State} (ok : s.memOk) {n bad} : (s.blocksLanded n bad).memOk := by
  unfold State.blocksLanded
  dsimp only
  split
  · exact ok
  · split
    · exact ok
    · split
      · exact ok
      · split
        · exact .foldl (fun _ _ ok => (State.memOk.ite ok.blockLost ok)) ok
        · split
          · exact (State.memOk.foldl (fun _ _ ok => (State.memOk.ite ok.blockLost ok)) ok).updQuery
          · exact (State.memOk.foldl (fun _ _ ok => (State.memOk.ite ok.blockLost ok)) ok).roundOn

/-! ## The shares of a window -/

theorem State.memOk.insertWork {s : State} (ok : s.memOk) : s.insertWork.memOk := ok

theorem State.memOk.queryWalked {s : State} (ok : s.memOk) {q ix} : (s.queryWalked q ix).memOk := by
  unfold State.queryWalked
  dsimp only
  split
  · split
    · split
      · exact ok.psCount.updQuery.startWalk
      · exact .ite (State.memOk.ite ok ok.insertWork.updQuery.askBlocks) ok.endQuery.takeBatch
    · split
      · exact ok.psCount.updQuery.startWalk
      · exact .ite (State.memOk.ite ok ok.insertWork.updQuery.askBlocks) ok.endQuery.takeBatch
  · split
    · split
      · exact ok.psCount.updQuery.startWalk
      · exact .ite (State.memOk.ite ok ok.insertWork.updQuery.askBlocks) ok.endQuery.takeBatch
    · split
      · exact ok.psCount.updQuery.startWalk
      · exact .ite (State.memOk.ite ok ok.insertWork.updQuery.askBlocks) ok.endQuery.takeBatch

theorem State.memOk.psMismatch {s : State} (ok : s.memOk) {h unit ended} : (s.psMismatch h unit ended).memOk := ok.beside.psEvent

theorem State.memOk.endBatch {s : State} (ok : s.memOk) {h unit status} : (s.endBatch h unit status).memOk := by
  unfold State.endBatch
  dsimp only
  exact (State.memOk.foldl (fun _ _ ok => ok.endQuery) ok.psMismatch.engineFailed).takeBatch

theorem State.memOk.queryDone {s : State} (ok : s.memOk) {n chk} : (s.queryDone n chk).memOk := by
  unfold State.queryDone
  dsimp only
  split
  · exact ok
  · split
    · exact ok
    · split
      · exact ok
      · split
        · exact (State.memOk.of_snd ok.checkFound ‹_›).queryWalked
        · exact (State.memOk.of_snd ok.checkFound ‹_›).endBatch
        · split
          · refine State.memOk.queryWalked (State.memOk.beside ?_)
            split
            · exact (State.memOk.of_snd ok.checkFound ‹_›).psMismatch
            · exact .of_snd ok.checkFound ‹_›
          · refine State.memOk.endBatch (State.memOk.beside ?_)
            split
            · exact (State.memOk.of_snd ok.checkFound ‹_›).psMismatch
            · exact .of_snd ok.checkFound ‹_›

theorem State.memOk.expireQuery {s : State} (ok : s.memOk) {q} : (s.expireQuery q).memOk := by
  unfold State.expireQuery
  dsimp only
  exact ok.updIndex.psCount.endQuery

theorem State.memOk.expireAll {s : State} (ok : s.memOk) : s.expireAll.memOk := by
  unfold State.expireAll
  exact .foldl (fun _ _ ok => ok.expireQuery) ok

/-! ## Inserts -/

theorem State.memOk.insertCounted {s : State} (ok : s.memOk) {v id} : (s.insertCounted v id).memOk := by
  unfold State.insertCounted
  dsimp only
  split
  · exact ok
  · split
    · exact ok.beside
    · exact ok

theorem State.memOk.insertRefused {s : State} (ok : s.memOk) {ix v status} : (s.insertRefused ix v status).memOk := by
  unfold State.insertRefused
  dsimp only
  split
  · exact ok.updIndex.completeJob
  · exact ok.updIndex

theorem State.memOk.insertFull {s : State} (ok : s.memOk) {ix v} : (s.insertFull ix v).memOk := ok.updIndex.insertRefused

theorem State.memOk.insertOne {s : State} (ok : s.memOk) {ix v} : (s.insertOne ix v).memOk := by
  unfold State.insertOne
  dsimp only
  exact (State.memOk.ite ok.putShard.updIndex.psCount.psCount ok.putShard.updIndex.psCount.psCount.noteVector).insertCounted

theorem State.memOk.insertDone {s : State} (ok : s.memOk) {i chk} : (s.insertDone i chk).memOk := by
  unfold State.insertDone
  dsimp only
  split
  · exact ok
  · split
    · exact ok
    · split
      · exact ok
      · split
        · exact .ite ok ok.insertFull
        · split
          · exact (State.memOk.of_snd ok.insertWork.checkFound ‹_›).insertOne
          · exact (State.memOk.of_snd ok.insertWork.checkFound ‹_›).psMismatch.engineFailed.insertRefused
          · split
            · refine State.memOk.updIndex ?_
              split
              · exact .of_snd ok.insertWork.checkFound ‹_›
              · exact (State.memOk.of_snd ok.insertWork.checkFound ‹_›).psMismatch
            · refine State.memOk.insertCounted (State.memOk.updIndex (State.memOk.engineFailed (State.memOk.psMismatch ?_)))
              split
              · exact .of_snd ok.insertWork.checkFound ‹_›
              · exact (State.memOk.of_snd ok.insertWork.checkFound ‹_›).psMismatch

/-! ## Spills and compaction -/

theorem State.memOk.outData {s : State} (ok : s.memOk) {ix} : (s.outData ix).2.memOk :=
  List.foldlRecOn (motive := fun a : List (Nat × List Byte) × State => a.2.memOk) _ _ ok fun _ ok _ _ => ok

theorem State.memOk.queueSpill {s : State} (ok : s.memOk) {h} : (s.queueSpill h).memOk := by
  unfold State.queueSpill
  dsimp only
  split
  · exact ok
  · exact ok.beside

theorem State.memOk.spillOne {s : State} (ok : s.memOk) {ix} : (s.spillOne ix).memOk := by
  unfold State.spillOne
  dsimp only
  exact .ite ok ok.putShard.updIndex.psCount.insertWork.queueSpill

theorem State.memOk.spillAll {s : State} (ok : s.memOk) : s.spillAll.memOk := by
  unfold State.spillAll
  exact .foldl (fun _ _ ok => ok.spillOne) ok

theorem State.memOk.compactIndex {s : State} (ok : s.memOk) {ix} : (s.compactIndex ix).memOk := by
  unfold State.compactIndex
  dsimp only
  exact ok.updIndex.queueSpill

theorem State.memOk.spillDropped {s : State} (ok : s.memOk) {ix} : (s.spillDropped ix).memOk := by
  unfold State.spillDropped
  dsimp only
  exact ok.beside.putShard.updIndex

theorem State.memOk.compactionDropped {s : State} (ok : s.memOk) {h} : (s.compactionDropped h).memOk := by
  unfold State.compactionDropped
  split
  · exact ok
  · exact .ite ok.spillDropped ok

theorem State.memOk.spillFailed {s : State} (ok : s.memOk) {h} : (s.spillFailed h).memOk := by
  unfold State.spillFailed
  dsimp only
  split
  · exact ok
  · exact .ite ok.spillDropped (State.memOk.foldl (fun _ _ ok => ok.completeJob) ok.spillDropped)

theorem State.memOk.spillWritten {s : State} (ok : s.memOk) {h} : (s.spillWritten h).memOk := by
  unfold State.spillWritten
  dsimp only
  split
  · exact ok
  · split
    · exact ok.updIndex.psEvent
    · exact ok.updIndex

/-! ## Filing -/

theorem State.memOk.fileOne {s : State} (ok : s.memOk) {r} : (s.fileOne r).memOk := by
  unfold State.fileOne
  dsimp only
  split
  · exact ok.psCount
  · exact .ite ok.updIndex.psCount ok.updIndex.beside

theorem State.memOk.keyframeFiled {s : State} (ok : s.memOk) {r} : (s.keyframeFiled r).memOk := by
  unfold State.keyframeFiled
  dsimp only
  split
  · exact ok
  · refine .foldl (fun _ _ ok => ?_) ok
    split
    · exact ok
    · exact .ite ok.drawBelow (State.memOk.ite ok.drawBelow.updQuery ok.drawBelow.endQuery)

theorem State.memOk.fileObservation {s : State} (ok : s.memOk) {f} : (s.fileObservation f).memOk := by
  unfold State.fileObservation
  dsimp only
  split
  · exact ok.drawBelow
  · exact ok.drawBelow.drawVec.draw.fileOne

theorem State.memOk.keyframeLost {s : State} (ok : s.memOk) {status} : (s.keyframeLost status).memOk := by
  unfold State.keyframeLost
  exact .foldl (fun _ _ ok => ok.endQuery) ok

theorem State.memOk.fileEnd {s : State} (ok : s.memOk) {img o limit} : (s.fileEnd img o limit).memOk := by
  unfold State.fileEnd
  dsimp only
  split
  · exact .foldl (fun _ _ ok => ok.fileOne) ok
  · exact (State.memOk.foldl (fun _ _ ok => ok.fileObservation)
        (State.memOk.foldl (fun _ _ ok => ok.keyframeFiled) (State.memOk.foldl (fun _ _ ok => ok.fileOne) ok))).takeBatch

/-! ## Boundaries -/

theorem State.memOk.reclaim {s : State} (ok : s.memOk) {ix} : (s.reclaim ix).memOk := by
  unfold State.reclaim
  dsimp only
  exact .foldl (fun _ _ ok => ok.dropPagesFrom) ok.updIndex

theorem State.memOk.publishJobs {s : State} (ok : s.memOk) {h epoch dt compacted} : (s.publishJobs h epoch dt compacted).memOk := by
  unfold State.publishJobs
  refine .foldl (fun _ _ ok => ?_) ok
  split
  · exact .ite ok.completeJob ok
  · exact .ite ok.completeJob ok
  · exact .ite ok.completeJob ok
  · exact ok

theorem State.memOk.locate {s : State} (ok : s.memOk) {ix} : (s.locate ix).memOk := by
  unfold State.locate
  dsimp only
  exact .ite ok (State.memOk.foldl (fun _ _ ok => ok.drawBytes.mapPage) ok).zeroiseOld.updIndex

theorem State.memOk.publishIndex {s : State} (ok : s.memOk) {ix} : (s.publishIndex ix).memOk := by
  unfold State.publishIndex
  dsimp only
  split
  · exact .ite ok.updIndex.locate.publishJobs ok
  · exact (State.memOk.ite ok.updIndex.locate.publishJobs ok).psSpanEvents.reclaim.updIndex

theorem State.memOk.startCompaction {s : State} (ok : s.memOk) {h} : (s.startCompaction h).memOk := by
  unfold State.startCompaction
  split
  · exact ok
  · exact .ite ok.compactIndex ok

theorem State.memOk.psWindowEnd {s : State} (ok : s.memOk) : s.psWindowEnd.memOk := by
  unfold State.psWindowEnd
  split
  · exact .ite ok.onSeq.setOnDone ok
  · exact ok

theorem State.memOk.psBoundary {s : State} (ok : s.memOk) : s.psBoundary.memOk := by
  unfold State.psBoundary
  dsimp only
  split
  · exact ok.expireAll
  · exact .foldl (fun _ _ ok => ok.startCompaction) (State.memOk.foldl (fun _ _ ok => ok.publishIndex) ok.expireAll)

/-! ## Loads and placement changes that wait for their flash writes -/

theorem State.memOk.noteDecoder {s : State} (ok : s.memOk) {h} : (s.noteDecoder h).memOk := by
  unfold State.noteDecoder
  split
  · exact .ite ok.beside ok
  · exact ok

theorem State.memOk.endObjJobs {s : State} (ok : s.memOk) {mine status} : (s.endObjJobs mine status).memOk := by
  unfold State.endObjJobs
  exact .foldl (fun _ _ ok => ok.completeJob) ok

theorem State.memOk.jobUnpinned {s : State} (ok : s.memOk) {h} : (s.jobUnpinned h).memOk := .ite ok.unpin ok

theorem State.memOk.objWritten {s : State} (ok : s.memOk) {h} : (s.objWritten h).memOk := by
  unfold State.objWritten
  dsimp only
  exact ok.updObj.jobUnpinned.noteDecoder.endObjJobs

theorem State.memOk.removeObj {s : State} (ok : s.memOk) {o} : (s.removeObj o).memOk := by
  unfold State.removeObj
  dsimp only
  exact (State.memOk.ite ok.beside ok).dropPagesFrom.beside.unmap

theorem State.memOk.discardLoad {s : State} (ok : s.memOk) {h} : (s.discardLoad h).memOk := by
  unfold State.discardLoad
  split
  · exact ok
  · exact .ite ok.unmap.updObj ok.removeObj

theorem State.memOk.objReverted {s : State} (ok : s.memOk) {h} : (s.objReverted h).memOk := by
  unfold State.objReverted
  dsimp only
  split
  · exact ok
  · exact .ite ok.discardLoad ok.beside.updObj.jobUnpinned

theorem State.memOk.objUnwritten {s : State} (ok : s.memOk) {h} : (s.objUnwritten h).memOk := ok.objReverted.endObjJobs

theorem State.memOk.startGroup {s : State} (ok : s.memOk) {g} : (s.startGroup g).memOk := by
  unfold State.startGroup
  split
  · split
    · exact ok.objUnwritten
    · exact ok.updAcre
    · exact ok.spillFailed
  · exact ok.beside

/-! ## The mover -/

theorem State.memOk.moverWork {s : State} (ok : s.memOk) {w} : (s.moverWork w).memOk := by
  unfold State.moverWork
  dsimp only
  split
  · exact ok.beside
  · split
    · exact ok.beside.mapPages
    · exact ok.beside
  · exact ok.beside
  · exact ok
  · refine State.memOk.promoted (State.memOk.updObj ?_)
    split
    · exact ok.mapPages
    · exact ok
  · exact ok.acreFilled
  · exact ok.takeSnapshot.beside
  · exact ok.startGroup
  · split
    · exact ok
    · exact .ite ok.updObj.startGroup ok.updObj
  · split
    · exact ok
    · exact ok.startGroup

theorem State.memOk.transferDone {s : State} (ok : s.memOk) : s.transferDone.memOk := by
  unfold State.transferDone
  dsimp only
  split
  · exact ok
  · split
    · exact ok
    · exact .ite ok (State.memOk.ite ok.beside.moverWork ok.beside)

theorem State.memOk.closeWindow {s : State} (ok : s.memOk) : s.closeWindow.memOk := by
  unfold State.closeWindow
  dsimp only
  split
  · exact ok
  · exact ok.beside

/-! ## Flash reads -/

theorem State.memOk.pageLost {s : State} (ok : s.memOk) {r lpn} : (s.pageLost r lpn).memOk := by
  unfold State.pageLost
  dsimp only
  split
  · exact ok.beside.updObj.poisonObj
  · exact ok.beside.updObj.poisonObj
  · exact ok.beside.updAcre.beside.poisonAcre
  · exact ok.beside.poisonAcre
  · exact ok.beside

theorem State.memOk.readDone {s : State} (ok : s.memOk) {res} : (s.readDone res).memOk := by
  unfold State.readDone
  split
  · exact ok
  · split
    · exact ok
    · split
      · exact ok
      · extract_lets page lpn ns copy res s₁ mt s₂ mt' s₃
        have counted : s₁.memOk := by
          unfold s₁
          generalize copy = copy
          split
          · exact ok.updBlock
          · exact ok
        have retried : s₂.memOk := State.memOk.ite counted.beside counted
        have read : s₃.memOk := retried.beside
        generalize res = res, page = page
        cases res with
        | decoded | worn | retried =>
          cases page with
          | some p => exact State.memOk.ite read.repairPage read
          | none => exact read
        | failed | badCrc | badEpoch => exact State.memOk.ite retried.flashLost.beside retried.flashLost.pageLost

end Sys2Proof.Machine
end

section
set_option Elab.async false
/-!
PROOFS. What keeps the memories canonical, continued: one lemma for each function of the state, in the model's order.
-/
namespace Sys2Proof.Machine

/-! ## Flash programs and background work -/

theorem State.memOk.groupDone {s : State} (ok : s.memOk) {g} : (s.groupDone g).memOk := by
  unfold State.groupDone
  dsimp only
  split
  · split
    · exact ok
    · exact ok.enterMap.dropPagesFrom.updObj.objWritten
  · split
    · exact ok.acreWritten
    · exact ok.acreWritten.enterMap
  · split
    · exact ok
    · exact ok.outData.enterMap.spillWritten

theorem State.memOk.moveBlock {s : State} (ok : s.memOk) {die block} : (s.moveBlock die block).memOk := by
  unfold State.moveBlock
  dsimp only
  exact .foldl (fun _ _ ok => ok.zeroiseOld)
      (State.memOk.foldl (fun _ _ ok => (State.memOk.foldl (fun _ _ ok => ok.rewriteCopy) ok)) ok)

theorem State.memOk.blockFailed {s : State} (ok : s.memOk) {cause} : (s.blockFailed cause).memOk := by
  unfold State.blockFailed
  dsimp only
  exact (State.memOk.ite ok.drawBelow.updBlock.beside.event ok.drawBelow.updBlock.beside).moveBlock

theorem State.memOk.programDone {s : State} (ok : s.memOk) {a} : (s.programDone a).memOk := by
  unfold State.programDone
  split
  · exact .ite ok ok.blockFailed
  · exact .ite ok.blockFailed (State.memOk.ite ok.beside.groupDone ok.beside)

theorem State.memOk.recycle {s : State} (ok : s.memOk) {die block} : (s.recycle die block).memOk := by
  unfold State.recycle
  dsimp only
  exact ok.updBlock.moveBlock.updBlock.beside

theorem State.memOk.levelWear {s : State} (ok : s.memOk) : s.levelWear.memOk := by
  unfold State.levelWear
  split
  · exact ok
  · split
    · exact ok.recycle
    · exact ok

theorem State.memOk.relocate {s : State} (ok : s.memOk) {die block} : (s.relocate die block).memOk := by
  unfold State.relocate
  dsimp only
  split
  · exact ok
  · split
    · exact ok
    · refine State.memOk.levelWear ?_
      split
      · exact .ite ok.recycle.event ok.recycle
      · exact .ite (State.memOk.ite ok.recycle.event ok.recycle) ok.recycle

theorem State.memOk.spareLow {s : State} (ok : s.memOk) : s.spareLow.memOk := by
  unfold State.spareLow
  dsimp only
  exact .ite (State.memOk.ite ok.beside.event ok.beside) ok

/-! ## Patrol scrub -/

theorem State.memOk.scrubStep {s : State} (ok : s.memOk) {e} : (s.scrubStep e).memOk := by
  unfold State.scrubStep
  dsimp only
  split
  · exact ok
  · split
    · refine State.memOk.beside ?_
      split
      · exact ok
      · exact .ite ok.beside.dramCorrected.retirePage ok.beside.dramCorrected
      · exact ok.dramUncorrectable
    · split
      · exact .ite ok.beside.event ok.beside
      · split
        · split
          · exact ok.beside.dramCorrected.retirePage.beside.event
          · exact ok.beside.dramCorrected.retirePage.beside
        · exact .ite ok.beside.dramCorrected.beside.event ok.beside.dramCorrected.beside
      · exact .ite ok.dramUncorrectable.beside.event ok.dramUncorrectable.beside

/-! ## The boundary -/

theorem State.memOk.applyRemap {s : State} (ok : s.memOk) : s.applyRemap.memOk := by
  unfold State.applyRemap
  dsimp only
  exact .foldl (fun _ _ ok => ok.beside.event) ok

theorem State.memOk.objJobs {s : State} (ok : s.memOk) {mine dt} : (s.objJobs mine dt).memOk := by
  unfold State.objJobs
  exact .foldl (fun _ _ ok => ok.completeJob) ok

theorem State.memOk.queueWrites {s : State} (ok : s.memOk) {o ks} : (s.queueWrites o ks).memOk := by
  unfold State.queueWrites
  dsimp only
  exact ok.updObj.beside

theorem State.memOk.dropOne {s : State} (ok : s.memOk) {dt o} : (s.dropOne dt o).memOk := by
  unfold State.dropOne
  dsimp only
  exact .ite ok (State.memOk.ite ok.unmap.updObj.objJobs ok.updObj.queueWrites)

theorem State.memOk.dropObjects {s : State} (ok : s.memOk) {dt} : (s.dropObjects dt).memOk := by
  unfold State.dropObjects
  exact .foldl (fun _ _ ok => ok.dropOne) ok

theorem State.memOk.freeObjects {s : State} (ok : s.memOk) {dt} : (s.freeObjects dt).memOk := by
  unfold State.freeObjects
  dsimp only
  exact .foldl (fun _ _ ok => ok.zeroiseOld) (State.memOk.foldl (fun _ _ ok => ok.removeObj.objJobs) ok)

theorem State.memOk.startPromotion {s : State} (ok : s.memOk) {o} : (s.startPromotion o).memOk := by
  unfold State.startPromotion
  dsimp only
  split
  · exact ok.queuePromotion
  · exact .ite ok (State.memOk.foldl (fun _ _ ok => ok.completeJob) ok.updObj.event)

theorem State.memOk.memBoundary {s : State} (ok : s.memOk) {dt} : (s.memBoundary dt).memOk := by
  unfold State.memBoundary
  dsimp only
  exact .foldl (fun _ _ ok => ok.startPromotion) ok.applyRemap.dropObjects.freeObjects.beside

/-! ## Counters and sources -/

theorem State.memOk.timeCycles {s : State} (ok : s.memOk) {n} : (s.timeCycles n).memOk := by
  unfold State.timeCycles
  dsimp only
  exact .ite ok (State.memOk.ite ok.beside.event ok.beside)

/-! ## Selection -/

theorem State.memOk.reselect {s : State} (ok : s.memOk) : s.reselect.memOk := by
  unfold State.reselect
  dsimp only
  split
  · exact ok
  · refine State.memOk.beside ?_
    split
    · exact (State.memOk.ite ok.beside ok).event.event
    · exact .ite (State.memOk.ite ok.beside ok).event.event (State.memOk.ite ok.beside ok).event

theorem State.memOk.setBase {s : State} (ok : s.memOk) {b st} : (s.setBase b st).memOk := by
  unfold State.setBase
  dsimp only
  exact .ite ok (State.memOk.ite ok.updBase.event ok.updBase)

/-! ## The holdover model -/

theorem State.memOk.checkDrift {s : State} (ok : s.memOk) {b} : (s.checkDrift b).memOk := by
  unfold State.checkDrift
  dsimp only
  exact .ite (State.memOk.ite ok.beside.event ok.beside) ok

theorem State.memOk.fitModel {s : State} (ok : s.memOk) {b} : (s.fitModel b).memOk := by
  unfold State.fitModel
  dsimp only
  exact .ite ok.beside ok

/-! ## Measurements -/

theorem State.memOk.countRun {s : State} (ok : s.memOk) {b e} : (s.countRun b e).memOk := by
  unfold State.countRun
  dsimp only
  split
  · exact .ite ok.updBase.setBase ok.updBase
  · exact .ite ok.updBase.setBase ok.updBase
  · exact ok

theorem State.memOk.requalify {s : State} (ok : s.memOk) {b master} : (s.requalify b master).memOk := by
  unfold State.requalify
  dsimp only
  exact .ite ok.updBase.setBase.event ok.updBase

theorem State.memOk.ppsOutBack {s : State} (ok : s.memOk) : s.ppsOutBack.memOk := ok

theorem State.memOk.applyMeasure {s : State} (ok : s.memOk) {b e pd} : (s.applyMeasure b e pd).memOk := by
  unfold State.applyMeasure
  dsimp only
  exact .ite ok.updBase.setBase.ppsOutBack.event ok.updBase.countRun

theorem State.memOk.measureOn {s : State} (ok : s.memOk) {b e pd} : (s.measureOn b e pd).memOk := by
  unfold State.measureOn
  dsimp only
  split
  · exact (State.memOk.ite ok.updBase.setBase ok.updBase).requalify.checkDrift
  · split
    · exact (State.memOk.ite ok.updBase.setBase ok.updBase).updBase.setBase.event.checkDrift
    · exact (State.memOk.ite ok.updBase.setBase ok.updBase).applyMeasure.checkDrift.fitModel

theorem State.memOk.measure {s : State} (ok : s.memOk) {b e pd} : (s.measure b e pd).memOk := .ite ok ok.measureOn.reselect

theorem State.memOk.offsetHi {s : State} (ok : s.memOk) {b v} : (s.offsetHi b v).memOk := by
  unfold State.offsetHi
  dsimp only
  exact (State.memOk.ite ok.beside ok).measure

theorem State.memOk.baseTimeout {s : State} (ok : s.memOk) {b} : (s.baseTimeout b).memOk := by
  unfold State.baseTimeout
  dsimp only
  exact .ite ok.setBase.reselect ok

/-! ## Writes of the control registers -/

theorem State.memOk.enableBase {s : State} (ok : s.memOk) {b on} : (s.enableBase b on).memOk := by
  unfold State.enableBase
  dsimp only
  exact .ite ok.updBase.setBase (State.memOk.ite ok.setBase ok)

theorem State.memOk.forceNote {s : State} (ok : s.memOk) {was before} : (s.forceNote was before).memOk := by
  unfold State.forceNote
  dsimp only
  exact .ite (State.memOk.ite ok.event ok).event (State.memOk.ite ok.event ok)

theorem State.memOk.writeTuCtrl {s : State} (ok : s.memOk) {v} : (s.writeTuCtrl v).memOk := by
  unfold State.writeTuCtrl
  dsimp only
  refine State.memOk.reselect (State.memOk.forceNote (State.memOk.enableBase (State.memOk.enableBase ?_)))
  split
  · exact .ite ok.beside ok.beside.setPin.beside
  · exact .ite ok.beside ok.beside.setPin.beside

theorem State.memOk.writeTuThresh {s : State} (ok : s.memOk) {v} : (s.writeTuThresh v).memOk := ok

theorem State.memOk.writeTbCfg {s : State} (ok : s.memOk) {b v} : (s.writeTbCfg b v).memOk := by
  unfold State.writeTbCfg
  dsimp only
  exact .ite ok.updBase.setBase.reselect ok.updBase

/-! ## Triggers -/

theorem State.memOk.pulse {s : State} (ok : s.memOk) {n width} : (s.pulse n width).memOk := by
  unfold State.pulse
  dsimp only
  split
  · exact .ite ok.updTrig ok.updTrig.event
  · exact ok.updTrig.setPin

theorem State.memOk.programmedPulse {s : State} (ok : s.memOk) {n} : (s.programmedPulse n).memOk := by
  unfold State.programmedPulse
  dsimp only
  split
  · exact ok
  · exact .ite ok ok.updTrig.pulse

theorem State.memOk.imagePulse {s : State} (ok : s.memOk) {n} : (s.imagePulse n).memOk := by
  unfold State.imagePulse
  dsimp only
  split
  · exact ok
  · exact .ite ok.beside.pulse.registerExposure ok.beside.pulse

theorem State.memOk.trigStart {s : State} (ok : s.memOk) {n} : (s.trigStart n).memOk := by
  unfold State.trigStart
  split
  · exact ok
  · split
    · exact ok
    · exact ok.imagePulse
    · exact ok.programmedPulse

theorem State.memOk.trigEnd {s : State} (ok : s.memOk) {n} : (s.trigEnd n).memOk := by
  unfold State.trigEnd
  split
  · exact ok
  · exact .ite ok ok.updTrig.setPin

theorem State.memOk.mergeEvents {s : State} (ok : s.memOk) : s.mergeEvents.memOk := by
  unfold State.mergeEvents
  dsimp only
  exact .foldl (fun _ _ ok => (State.memOk.ite ok ok.updTrig.event)) ok

theorem State.memOk.staleEvents {s : State} (ok : s.memOk) : s.staleEvents.memOk := by
  unfold State.staleEvents
  dsimp only
  exact (State.memOk.foldl (fun _ _ ok => ok.event) ok).beside

/-! ## PPS_OUT and PPS_IN -/

theorem State.memOk.ppsOutEdge {s : State} (ok : s.memOk) : s.ppsOutEdge.memOk := by
  unfold State.ppsOutEdge
  dsimp only
  exact .ite ok.setPin.beside ok

theorem State.memOk.ppsOutDone {s : State} (ok : s.memOk) : s.ppsOutDone.memOk := by
  unfold State.ppsOutDone
  dsimp only
  split
  · exact ok
  · exact .ite ok ok.setPin.beside

theorem State.memOk.rejectEdge {s : State} (ok : s.memOk) {b} : (s.rejectEdge b).memOk := by
  unfold State.rejectEdge
  dsimp only
  exact .ite ok.updBase.event.updBase.setBase.reselect ok.updBase.event

theorem State.memOk.edgeAt {s : State} (ok : s.memOk) {b} : (s.edgeAt b).memOk := by
  unfold State.edgeAt
  dsimp only
  exact .ite ok (State.memOk.ite ok.rejectEdge ok.updBase.measure)

theorem State.memOk.correctRate {s : State} (ok : s.memOk) {before} : (s.correctRate before).memOk := by
  unfold State.correctRate
  dsimp only
  split
  · exact .ite ok.beside ok
  · exact ok

theorem State.memOk.giveTod {s : State} (ok : s.memOk) {b seconds} : (s.giveTod b seconds).memOk := by
  unfold State.giveTod
  dsimp only
  exact .ite ok ok.updBase.ppsOutBack

theorem State.memOk.takeTods {s : State} (ok : s.memOk) : s.takeTods.memOk := by
  unfold State.takeTods
  refine .foldl (fun _ _ ok => ?_) ok
  split
  · exact ok.giveTod.completeJob
  · exact ok

theorem State.memOk.ppsEdge {s : State} (ok : s.memOk) : s.ppsEdge.memOk := by
  unfold State.ppsEdge
  dsimp only
  exact .ite ok (State.memOk.ite ok.edgeAt.edgeAt ok.edgeAt.edgeAt.beside.correctRate.takeTods)

theorem State.memOk.ppsLoss {s : State} (ok : s.memOk) : s.ppsLoss.memOk := by
  unfold State.ppsLoss
  dsimp only
  split
  · exact ok
  · exact .ite ok (State.memOk.ite ok.beside.event ok.beside)

/-! ## The transparent clock -/

theorem State.memOk.holdSync {s : State} (ok : s.memOk) {h} : (s.holdSync h).memOk := by
  unfold State.holdSync
  dsimp only
  split
  · exact ok.beside
  · exact ok.beside

theorem State.memOk.followUp {s : State} (ok : s.memOk) {key} : (s.followUp key).2.memOk := by
  unfold State.followUp
  split
  · exact ok.beside
  · exact ok.beside
  · exact ok

theorem State.memOk.bridgePtp {s : State} (ok : s.memOk) {p f o csum residence} : (s.bridgePtp p f o csum residence).2.memOk := by
  unfold State.bridgePtp
  dsimp only
  split
  · exact ok
  · split
    · exact ok.holdSync
    · split
      · exact ok
      · split
        · exact ok
        · split
          · exact ok.followUp
          · exact ok

theorem State.memOk.bridge {s : State} (ok : s.memOk) {p f ns} : (s.bridge p f ns).memOk := by
  unfold State.bridge
  dsimp only
  split
  · exact ok
  · split
    · exact ok.beside
    · exact ok.bridgePtp.beside

theorem State.memOk.linkError {s : State} (ok : s.memOk) {ch} : (s.linkError ch).memOk := by
  unfold State.linkError
  dsimp only
  exact ok.beside.updChan

/-! ## CSI-2 -/

theorem State.memOk.closeFrame {s : State} (ok : s.memOk) {ch i cut} : (s.closeFrame ch i cut).memOk := by
  unfold State.closeFrame
  dsimp only
  refine State.memOk.closeUnit (State.memOk.updChan ?_)
  split
  · exact (State.memOk.ite ok.writePool.updChan ok).updChan
  · exact .ite ok.writePool.updChan ok

theorem State.memOk.endFrame {s : State} (ok : s.memOk) {ch cut} : (s.endFrame ch cut).memOk := by
  unfold State.endFrame
  split
  · exact ok.closeFrame
  · exact ok

theorem State.memOk.frameStart {s : State} (ok : s.memOk) {ch d} : (s.frameStart ch d).memOk := by
  unfold State.frameStart
  dsimp only
  split
  · split
    · exact ok.endFrame.countDrop.event
    · exact ok.endFrame.updChan
    · exact ok.endFrame.updChan.writeHeader
  · split
    · exact (State.memOk.of_snd ok.endFrame.anySlot ‹_›).openSlot.updChan
    · exact .of_snd ok.endFrame.anySlot ‹_›

theorem State.memOk.frameLine {s : State} (ok : s.memOk) {ch i data bad} : (s.frameLine ch i data bad).memOk := by
  unfold State.frameLine
  dsimp only
  split
  · exact ok.updChan
  · exact ok.writePool.updChan.progress

theorem State.memOk.frameEmbedded {s : State} (ok : s.memOk) {ch i data bad} : (s.frameEmbedded ch i data bad).memOk := by
  unfold State.frameEmbedded
  dsimp only
  exact ok.writePool.updChan.progress

theorem State.memOk.longPacket {s : State} (ok : s.memOk) {ch ty data link} : (s.longPacket ch ty data link).memOk := by
  unfold State.longPacket
  dsimp only
  split
  · exact ok.linkError
  · split
    · exact .ite ok.linkError ok
    · split
      · exact .ite ok.linkError.frameLine (State.memOk.ite ok.linkError.frameEmbedded ok.linkError)
      · exact .ite ok.frameLine (State.memOk.ite ok.frameEmbedded ok)

theorem State.memOk.csiStart {s : State} (ok : s.memOk) {g vc} : (s.csiStart g vc).memOk := by
  unfold State.csiStart
  split
  · exact .ite ok.frameStart ok.countDisabled
  · exact ok

theorem State.memOk.csiPacket {s : State} (ok : s.memOk) {g vc ty data link} : (s.csiPacket g vc ty data link).memOk := by
  unfold State.csiPacket
  split
  · exact .ite ok.longPacket ok
  · exact ok

theorem State.memOk.csiEnd {s : State} (ok : s.memOk) {g vc} : (s.csiEnd g vc).memOk := by
  unfold State.csiEnd
  split
  · exact .ite ok.endFrame ok
  · exact ok

/-! ## Ethernet -/

theorem State.memOk.ethTake {s : State} (ok : s.memOk) {ch d f} : (s.ethTake ch d f).memOk := by
  unfold State.ethTake
  dsimp only
  exact .ite ok.countDisabled ok.appendRecord

theorem State.memOk.ethCount {s : State} (ok : s.memOk) {i} : (s.ethCount i).memOk := ok

theorem State.memOk.ethFirmware {s : State} (ok : s.memOk) {p f} : (s.ethFirmware p f).memOk := by
  unfold State.ethFirmware
  dsimp only
  exact .ite (State.memOk.ite ok.beside ok.ethCount) ok

theorem State.memOk.ptpArrives {s : State} (ok : s.memOk) {f domain} : (s.ptpArrives f domain).memOk := ok

theorem State.memOk.ethReceive {s : State} (ok : s.memOk) {p f fcsOk} : (s.ethReceive p f fcsOk).memOk := by
  unfold State.ethReceive
  dsimp only
  split
  · exact ok
  · split
    · split
      · exact ok.beside.ethCount.linkError
      · exact ok.beside.ethCount
    · split
      · exact ok.ethCount.ptpArrives
      · split
        · exact ok.ethCount.ethTake
        · exact ok.ethCount.ethFirmware

/-! ## Sensor SPI -/

theorem State.memOk.spiDrive {s : State} (ok : s.memOk) {ctl} : (s.spiDrive ctl).memOk := ok

theorem State.memOk.spiTrigger {s : State} (ok : s.memOk) {ch d} : (s.spiTrigger ch d).memOk := by
  unfold State.spiTrigger
  dsimp only
  exact .ite ok.updChan ok.beside.spiDrive

theorem State.memOk.drdy {s : State} (ok : s.memOk) {line rising} : (s.drdy line rising).memOk := by
  unfold State.drdy
  refine .foldl (fun _ _ ok => ?_) ok
  split
  · exact ok
  · exact .ite (State.memOk.ite ok.spiTrigger (State.memOk.ite ok.countDisabled ok)) ok

theorem State.memOk.spiPoll {s : State} (ok : s.memOk) {ch} : (s.spiPoll ch).memOk := by
  unfold State.spiPoll
  dsimp only
  split
  · exact ok
  · exact .ite (State.memOk.ite ok.spiTrigger ok.countDisabled).updChan ok

theorem State.memOk.spiNext {s : State} (ok : s.memOk) {ctl} : (s.spiNext ctl).memOk := by
  unfold State.spiNext
  dsimp only
  exact ok.beside.spiDrive

theorem State.memOk.spiRecord {s : State} (ok : s.memOk) {ch d stamp data} : (s.spiRecord ch d stamp data).memOk := by
  unfold State.spiRecord
  dsimp only
  split
  · exact .ite ok.noteArrival ok.appendRecord
  · split
    · exact .ite ok.noteArrival ok.appendRecord
    · split
      · exact (State.memOk.ite ok.noteArrival ok.appendRecord).directSample
      · exact (State.memOk.ite ok.noteArrival ok.appendRecord).chainSample

theorem State.memOk.spiDone {s : State} (ok : s.memOk) {ctl data} : (s.spiDone ctl data).memOk := by
  unfold State.spiDone
  dsimp only
  split
  · exact ok
  · split
    · exact ok.spiNext
    · exact .ite ok.spiNext.spiRecord ok.spiNext.countDisabled

/-! ## TAKE and RELEASE -/

theorem State.memOk.smIssue {s : State} (ok : s.memOk) {p opcode act start} (acts : ∀ n t, t.memOk → (act n t).2.memOk)
    (starts : ∀ n r t, t.memOk → (start n r t).memOk) : (s.smIssue p opcode act start).memOk := by
  unfold State.smIssue
  split
  · exact ok
  · exact .ite (starts _ _ _ (acts _ _ ok).issued) ok

theorem State.memOk.takeOp {s : State} (ok : s.memOk) {p} : (s.takeOp p).memOk :=
  ok.smIssue (fun _ _ ok => ok.takeUnits) fun _ _ _ ok => ok.startOp

theorem State.memOk.releaseOp {s : State} (ok : s.memOk) {p} : (s.releaseOp p).memOk :=
  ok.smIssue (fun _ _ ok => ok.releaseUnits) fun _ _ _ ok => ok.startOp

/-! ## Commit checks -/

theorem State.memOk.commitStreams {s : State} (ok : s.memOk) {c} : (s.commitStreams c).memOk := by
  unfold State.commitStreams
  dsimp only
  split
  · exact ok.reply
  · exact (State.memOk.foldl (fun _ _ ok => ok.updChan) ok).addJob.noteCommits

theorem State.memOk.configStream {s : State} (ok : s.memOk) {c} : (s.configStream c).memOk := by
  unfold State.configStream
  dsimp only
  split
  · exact .ite ok.writeMem.updChan.replyOk ok.replyErr
  · exact ok.replyErr

theorem State.memOk.streamStatus {s : State} (ok : s.memOk) {c} : (s.streamStatus c).memOk := by
  unfold State.streamStatus
  dsimp only
  split
  · exact .ite ok.replyOut ok.replyErr
  · exact ok.replyErr

/-! ## Bindings and SYNC -/

theorem State.memOk.configInput {s : State} (ok : s.memOk) {c} : (s.configInput c).memOk := by
  unfold State.configInput
  dsimp only
  split
  · split
    · exact ok.replyErr
    · split
      · split
        · exact ok.reply
        · split
          · exact ok.reply
          · exact ok.updInput.replyOk
      · split
        · exact ok.reply
        · split
          · exact ok.reply
          · exact ok.updInput.replyOk
  · exact ok.replyErr

/-! ## The boundary step -/

theorem State.memOk.lateReleases {s : State} (ok : s.memOk) {ops} : (s.lateReleases ops).memOk := by
  unfold State.lateReleases
  refine .foldl (fun _ _ ok => ?_) ok
  split
  · exact ok.releaseUnits
  · exact ok

theorem State.memOk.applyCommits {s : State} (ok : s.memOk) {dt} : (s.applyCommits dt).memOk := by
  unfold State.applyCommits
  dsimp only
  refine (State.memOk.foldl (fun _ _ ok => ?_) ok).noteCommits
  split
  · refine State.memOk.completeJob ?_
    split
    · exact .foldl (fun _ _ ok => ok.updChan) ok
    · exact (State.memOk.foldl (fun _ _ ok => ok.updChan) ok).event
  · exact ok

theorem State.memOk.streamBoundary {s : State} (ok : s.memOk) {ops dt} : (s.streamBoundary ops dt).memOk := by
  unfold State.streamBoundary
  dsimp only
  exact .foldl (fun _ _ ok => ok.writeBackStatus)
      (State.memOk.foldl (fun _ _ ok => ok.settleChannel)
          (State.memOk.foldl (fun _ _ ok => ok.releaseMissing)
              (State.memOk.foldl (fun _ _ ok => ok.expireHolds)
                  (State.memOk.foldl (fun _ _ ok => ok.channelEvents) ok.lateReleases))).applyCommits)

/-! ## What partition 0 holds -/

theorem State.memOk.settleRest {s : State} (ok : s.memOk) : s.settleRest.memOk := ok

/-! ## Mailboxes opened and closed -/

theorem State.memOk.undoJob {s : State} (ok : s.memOk) {j} : (s.undoJob j).memOk := by
  unfold State.undoJob
  split
  · exact ok.updObj
  · exact ok.updObj
  · exact ok.updObj
  · exact ok.objReverted
  · exact ok.discardLoad
  · exact ok.updIndex
  · exact ok.updIndex
  · exact ok.updIndex
  · exact ok.compactionDropped
  · exact ok

theorem State.memOk.discardMbx {s : State} (ok : s.memOk) {i} : (s.discardMbx i).memOk := by
  unfold State.discardMbx
  dsimp only
  exact ((State.memOk.foldl (fun _ _ ok => ok.undoJob) ok).beside.updMbx fun _ ok => by exact ok).noteCommits

theorem State.memOk.unmapWindow {s : State} (ok : s.memOk) {i} : (s.unmapWindow i).memOk :=
  .ite (ok.unmapRun.updMbx fun _ ok => by exact ok) ok

theorem State.memOk.openMbx {s : State} (ok : s.memOk) {i p} : (s.openMbx i p).memOk := by
  unfold State.openMbx
  dsimp only
  refine (?_ : State.memOk _).updMbx fun _ ok => by exact ok
  split
  · exact ok.unmapWindow.freeRun.unmapRun
  · exact ok.unmapWindow.freeRun

theorem State.memOk.closeMbx {s : State} (ok : s.memOk) {i} : (s.closeMbx i).memOk := ok.discardMbx.unmapWindow.updMbx fun _ ok => ok

theorem State.memOk.openAll {s : State} (ok : s.memOk) : s.openAll.memOk := by
  unfold State.openAll
  exact .foldl (fun _ _ ok => (State.memOk.foldl (fun _ _ ok => ok.openMbx) ok)) ok

/-! ## Scrubs -/

theorem State.memOk.freeWork {s : State} (ok : s.memOk) {p} : (s.freeWork p).memOk := by
  unfold State.freeWork
  dsimp only
  exact .foldl (fun _ _ ok => ok.freeTrack) ok.beside

theorem State.memOk.freeImages {s : State} (ok : s.memOk) {p} : (s.freeImages p).memOk := ok

theorem State.memOk.disableStreams {s : State} (ok : s.memOk) {p} : (s.disableStreams p).memOk := by
  unfold State.disableStreams
  dsimp only
  refine .foldl (fun _ _ ok => ?_) ok
  split
  · split
    · split
      · exact .ite ok.updChan.updChan.stopChannel ok.updChan.updChan
      · exact .ite ok.updChan.stopChannel ok.updChan
    · exact .ite ok.updChan ok
  · exact .ite ok.updChan ok

theorem State.memOk.idlePins {s : State} (ok : s.memOk) {mask} : (s.idlePins mask).memOk := by
  unfold State.idlePins
  dsimp only
  exact .foldl (fun _ _ ok => (State.memOk.ite ok.updTrig.setPin ok)) ok

theorem State.memOk.cryptoErase {s : State} (ok : s.memOk) {p} : (s.cryptoErase p).memOk := by
  unfold State.cryptoErase
  dsimp only
  exact ok.drawBytes.beside

theorem State.memOk.startScrub {s : State} (ok : s.memOk) : s.startScrub.memOk := by
  unfold State.startScrub
  dsimp only
  split
  · exact ok
  · exact .ite ok ok.beside.event

theorem State.memOk.beginScrub {s : State} (ok : s.memOk) {a} : (s.beginScrub a).memOk := by
  unfold State.beginScrub
  dsimp only
  refine (State.memOk.beside (State.memOk.foldl (fun t i ok => ?_)
      ok.updGrant.beside).freeImages.freeWork.disableStreams.idlePins).cryptoErase.startScrub
  exact .ite (ok.discardMbx.updMbx fun _ _ => ⟨memWf_nil, memWf_nil⟩) ok

theorem State.memOk.clearFor {s : State} (ok : s.memOk) {g} : (s.clearFor g).memOk := by
  have zeroed : memWf (zeroRange (zeroRange s.mem g.dramBase g.dramBytes) (poolBase + 16384 * g.poolBase) (16384 * g.poolPecks)) =
      true :=
    memWf_zeroRange _ _ (memWf_zeroRange _ _ ok.1)
  exact .foldl (fun _ _ ok => ok.updCore)
    (ok.putMem (List.foldlRecOn (motive := fun m => memWf m = true) _ _ zeroed fun _ wf _ _ => memWf_zeroRange _ _ wf))

theorem State.memOk.scrubDone {s : State} (ok : s.memOk) {p} : (s.scrubDone p).memOk := by
  unfold State.scrubDone
  dsimp only
  split
  · exact ok
  · exact .ite ok ok.clearFor.clearFor.beside.event.startScrub

theorem State.memOk.applyGrant {s : State} (ok : s.memOk) {a dt} : (s.applyGrant a dt).memOk := by
  unfold State.applyGrant
  dsimp only
  refine .foldl (fun _ _ ok => ok.completeJob) ?_
  refine (State.memOk.foldl (fun t i ok => ?_) ok.beside).updGrant.settleRest
  split
  · exact ok.discardMbx.openMbx.updMbx fun _ _ => ⟨memWf_nil, memWf_nil⟩
  · exact .ite ok.closeMbx ok

theorem State.memOk.partBoundary {s : State} (ok : s.memOk) {dt} : (s.partBoundary dt).memOk := by
  unfold State.partBoundary
  dsimp only
  exact .foldl (fun _ _ ok => ok.beginScrub) (State.memOk.foldl (fun _ _ ok => ok.applyGrant) ok)

theorem State.memOk.queueScrub {s : State} (ok : s.memOk) {c p g} : (s.queueScrub c p g).memOk := by
  unfold State.queueScrub
  dsimp only
  exact .ite ok.addJob.beside.beginScrub ok.addJob.beside

theorem State.memOk.grantZero {s : State} (ok : s.memOk) {c} : (s.grantZero c).memOk := by
  unfold State.grantZero
  dsimp only
  split
  · exact ok.replyErr
  · split
    · exact ok.replyErr
    · refine (State.memOk.foldl (fun t i ok => ?_) ok).updGrant.replyOk
      split
      · exact ok
      · split
        · exact ok.openMbx.updMbx fun _ _ => ⟨memWf_nil, memWf_nil⟩
        · exact .ite ok.closeMbx ok

theorem State.memOk.partGrant {s : State} (ok : s.memOk) {c} : (s.partGrant c).memOk := by
  unfold State.partGrant
  dsimp only
  split
  · split
    · exact ok.grantZero
    · split
      · exact ok.replyErr
      · split
        · exact ok.replyErr
        · split
          · exact ok.reply
          · exact ok.queueScrub
  · exact ok.replyErr

theorem State.memOk.partRelease {s : State} (ok : s.memOk) {c} : (s.partRelease c).memOk := by
  unfold State.partRelease
  dsimp only
  split
  · exact .ite ok.replyErr ok.queueScrub
  · exact ok.replyErr

theorem State.memOk.partStatus {s : State} (ok : s.memOk) {c} : (s.partStatus c).memOk := by
  unfold State.partStatus
  dsimp only
  split
  · exact .ite ok.replyOut ok.replyErr
  · exact ok.replyErr

/-! ## The engine's counters and fields -/

theorem State.memOk.slvCount {s : State} (ok : s.memOk) {i n} : (s.slvCount i n).memOk := ok

theorem State.memOk.slvEvent {s : State} (ok : s.memOk) {code a0 a1 a2} : (s.slvEvent code a0 a1 a2).memOk :=
  .ite ok.event ok

/-! ## Reading a job, and its checks -/

theorem State.memOk.warmStart {s : State} (ok : s.memOk) {j} : (s.warmStart j).2.memOk := by
  unfold State.warmStart
  dsimp only
  split
  · exact ok
  · split
    · exact ok
    · exact ok.slvCount.slvEvent

/-! ## Results -/

theorem State.memOk.graphDone {s : State} (ok : s.memOk) {status tag iters frame dt} :
    (s.graphDone status tag iters frame dt).memOk := by
  unfold State.graphDone
  exact .foldl (fun _ _ ok => (State.memOk.ite (ok.postUnsolicited fun _ _ ok => by exact ok) ok)) ok

theorem State.memOk.enqueueGraph {s : State} (ok : s.memOk) {addr} : (s.enqueueGraph addr).memOk := by
  unfold State.enqueueGraph
  dsimp only
  exact ok.writeMem.beside

theorem State.memOk.slvOpDone {s : State} (ok : s.memOk) {opcode} : (s.slvOpDone opcode).memOk := by
  unfold State.slvOpDone
  split
  · exact ok
  · exact ok.onSeq.setOnDone

theorem State.memOk.slvLeave {s : State} (ok : s.memOk) {graph} : (s.slvLeave graph).memOk := by
  unfold State.slvLeave
  dsimp only
  split
  · split
    · exact ok.beside.enqueueGraph
    · exact ok.beside
  · exact ok.beside.slvOpDone

theorem State.memOk.slvClose {s : State} (ok : s.memOk) {j err trunc} : (s.slvClose j err trunc).memOk := by
  unfold State.slvClose
  extract_lets refused
  split
  next j' start t began =>
    have drawn : t.memOk := by
      split at began
      · cases began
        exact ok
      · split at began
        · cases began
          exact ok
        · cases began
          exact ok
    extract_lets status flags0 commit flags out bytes s₁ s₂ s₃ counted slv s₄ s₅ src s₆
    have written : s₁.memOk := State.memOk.ite drawn.writeDram drawn
    have truncated : s₃.memOk := State.memOk.ite written.slvCount.slvCount.slvEvent written.slvCount
    have missed : s₄.memOk := State.memOk.ite (State.memOk.slvEvent truncated.slvCount.beside) truncated
    have failed : s₅.memOk := State.memOk.ite missed.engineFailed missed
    have kept : s₆.memOk := State.memOk.ite failed.beside (State.memOk.ite failed.graphDone failed)
    exact kept.slvLeave

/-! ## The guard, and the start of a job -/

theorem State.memOk.slvHold {s : State} (ok : s.memOk) {j} : (s.slvHold j).memOk := .ite ok.beside ok.beside
theorem State.memOk.slvGuard {s : State} (ok : s.memOk) {j} : (s.slvGuard j).memOk := .ite ok.slvHold ok.slvClose

theorem State.memOk.slvStart {s : State} (ok : s.memOk) {j} : (s.slvStart j).memOk := by
  unfold State.slvStart
  dsimp only
  split
  · exact ok.unmappedEvents.slvClose
  · exact .ite ok.unmappedEvents.slvClose ok.unmappedEvents.warmStart.slvGuard

theorem State.memOk.slvServe {n : Nat} : ∀ {s : State}, s.memOk → (State.slvServe n s).memOk := by
  induction n with
  | zero => exact fun ok => ok
  | succ n ih =>
    intro s ok
    unfold State.slvServe
    split
    · split
      · exact .ite ok (ih ok.slvGuard)
      · exact .ite (ih ok.slvStart) ok
    · exact ok

/-! ## Iterations -/

theorem State.memOk.keepFactor {s : State} (ok : s.memOk) {j} : (s.keepFactor j).memOk := by
  unfold State.keepFactor
  dsimp only
  exact .ite ok ok.writeDram

theorem State.memOk.slvElapsed {s : State} (ok : s.memOk) {j} : (s.slvElapsed j).2.memOk := by
  unfold State.slvElapsed
  dsimp only
  split
  · exact .ite ok.slvCount ok.slvCount.slvEvent
  · exact ok

theorem State.memOk.slvMismatch {s : State} (ok : s.memOk) {j unit} : (s.slvMismatch j unit).memOk := by
  unfold State.slvMismatch
  dsimp only
  exact .ite ok.slvCount.beside.slvEvent.slvHold ok.slvCount.beside.slvEvent.slvElapsed.slvClose

theorem State.memOk.slvIterationEnd {s : State} (ok : s.memOk) {chk} : (s.slvIterationEnd chk).memOk := by
  unfold State.slvIterationEnd
  dsimp only
  split
  · exact ok
  · split
    · exact ok
    · split
      · exact (State.memOk.of_snd ok.checkFound ‹_›).slvMismatch.slvServe
      · refine State.memOk.slvServe ?_
        split
        · exact (State.memOk.of_snd ok.checkFound ‹_›).slvMismatch.slvMismatch
        · exact (State.memOk.of_snd ok.checkFound ‹_›).slvMismatch
      · refine State.memOk.slvServe ?_
        split
        · exact (State.memOk.of_snd ok.checkFound ‹_›).slvElapsed.keepFactor.slvClose
        · exact (State.memOk.of_snd ok.checkFound ‹_›).slvElapsed.keepFactor.slvGuard

theorem State.memOk.slvAbandon {s : State} (ok : s.memOk) {j} : (s.slvAbandon j).memOk := by
  unfold State.slvAbandon
  split
  exact (State.memOk.of_snd ok.slvElapsed ‹_›).slvClose

theorem State.memOk.slvMiss {s : State} (ok : s.memOk) : s.slvMiss.memOk := by
  unfold State.slvMiss
  dsimp only
  split
  · exact ok.slvAbandon
  · exact ok.slvAbandon.slvServe
  · exact ok

theorem State.memOk.slvSuspend {s : State} (ok : s.memOk) : s.slvSuspend.memOk := by
  unfold State.slvSuspend
  dsimp only
  refine State.memOk.slvOpDone (State.memOk.beside ?_)
  split
  · exact .ite ok.keepFactor ok
  · exact ok

theorem State.memOk.slvWindowEnd {s : State} (ok : s.memOk) : s.slvWindowEnd.memOk := by
  unfold State.slvWindowEnd
  split
  · exact .ite ok.slvSuspend ok
  · exact ok

end Sys2Proof.Machine
end

section
set_option Elab.async false
/-!
PROOFS. What keeps the memories canonical, continued: one lemma for each function of the state, in the model's order.
-/
namespace Sys2Proof.Machine

/-! ## SLV_COMMIT -/

theorem State.memOk.commitEntry {s : State} (ok : s.memOk) {e} : (s.commitEntry e).memOk := by
  unfold State.commitEntry
  dsimp only
  exact .ite (State.memOk.ite ok.slvCount ok.putTable) (State.memOk.ite ok.updTrack ok.slvCount)

theorem State.memOk.slvEnd {s : State} (ok : s.memOk) {img o limit} : (s.slvEnd img o limit).memOk := by
  unfold State.slvEnd
  dsimp only
  exact .ite (State.memOk.foldl (fun _ _ ok => ok.commitEntry) ok.unmappedEvents) ok

/-! ## Commits at a boundary -/

theorem State.memOk.slvLatch {s : State} (ok : s.memOk) : s.slvLatch.memOk := ok

theorem State.memOk.moveFrame {s : State} (ok : s.memOk) {d} : (s.moveFrame d).memOk := by
  unfold State.moveFrame
  dsimp only
  exact .foldl (fun _ _ ok => ok.dropLate) ok.beside

theorem State.memOk.commitOne {s : State} (ok : s.memOk) {d} : (s.commitOne d).memOk := by
  unfold State.commitOne
  dsimp only
  split
  · split
    · exact .ite ok.beside.slvEvent.graphDone ok.beside.slvEvent
    · exact .ite ok.moveFrame.slvEvent.graphDone ok.beside.slvEvent
  · split
    · exact .ite ok.beside.slvEvent.graphDone ok.beside.slvEvent
    · exact .ite ok.moveFrame.slvEvent.graphDone ok.beside.slvEvent

theorem State.memOk.writeCommits {s : State} (ok : s.memOk) : s.writeCommits.memOk := by
  unfold State.writeCommits
  dsimp only
  split
  · exact ok
  · split
    · exact ok
    · exact ok.writeMem.beside

theorem State.memOk.slvCommits {s : State} (ok : s.memOk) : s.slvCommits.memOk := by
  unfold State.slvCommits
  dsimp only
  exact .foldl (fun _ _ ok => ok.commitOne) (State.memOk.foldl (fun _ _ ok => ok.commitOne) ok.beside)

theorem State.memOk.slvBoundary {s : State} (ok : s.memOk) : s.slvBoundary.memOk := ok

/-! ## What Rokan firmware writes: problems, and a compiled schedule -/

theorem State.memOk.drawMany {s : State} (ok : s.memOk) {n} : (s.drawMany n).2.memOk := ok

theorem State.memOk.writeGraph {s : State} (ok : s.memOk) : s.writeGraph.2.memOk := by
  unfold State.writeGraph
  dsimp only
  exact ok.drawMany.drawMany.drawMany.drawMany.writeMem.writeMem.writeMem

theorem State.memOk.addClosure {s : State} (ok : s.memOk) {addr} : (s.addClosure addr).memOk := by
  unfold State.addClosure
  dsimp only
  exact .ite ok ok.drawMany.drawMany.writeMem.writeMem

theorem State.memOk.graphCompiled {s : State} (ok : s.memOk) : s.graphCompiled.memOk := by
  unfold State.graphCompiled
  split
  · exact ok
  · split
    · exact ok.addClosure
    · split
      split
      · exact (State.memOk.of_snd ok.writeGraph ‹_›).beside
      · exact (State.memOk.of_snd ok.writeGraph ‹_›).enqueueGraph

theorem State.memOk.mapConfig {s : State} (ok : s.memOk) {c} : (s.mapConfig c).memOk := by
  unfold State.mapConfig
  dsimp only
  exact .ite ok.addJob ok.replyErr

theorem State.memOk.mapTrain {s : State} (ok : s.memOk) {c} : (s.mapTrain c).memOk := .ite ok.replyErr ok.addJob

theorem State.memOk.mapAcreDelete {s : State} (ok : s.memOk) {c} : (s.mapAcreDelete c).memOk := by
  unfold State.mapAcreDelete
  dsimp only
  exact .ite ok.replyErr ok.addJob.updAcre.commitDirectory

theorem State.memOk.mapStatus {s : State} (ok : s.memOk) {c} : (s.mapStatus c).memOk := by
  unfold State.mapStatus
  dsimp only
  exact ok.reply

theorem State.memOk.applyMapJob {s : State} (ok : s.memOk) {j dt} : (s.applyMapJob j dt).memOk := by
  unfold State.applyMapJob
  split
  · exact ok.beside.completeJob
  · exact ok.beside.completeJob
  · exact ok

/-! ## Namespaces and handles -/

theorem State.memOk.newNumber {s : State} (ok : s.memOk) {used} : (s.newNumber used).2.memOk := ok

/-! ## PLACE_CREATE -/

theorem State.memOk.placeCreate {s : State} (ok : s.memOk) {c} : (s.placeCreate c).memOk := by
  unfold State.placeCreate
  dsimp only
  split
  · exact ok.replyErr
  · split
    · exact ok.replyErr
    · split
      · split
        · exact ok.replyErr
        · split
          · exact ok.replyErr
          · split
            · split
              · exact ok.replyErr
              · exact (State.memOk.foldl (fun _ _ ok => ok.fillRun) ok.newNumber).beside.reply
            · split
              · exact ok.freeRun.replyErr
              · exact (State.memOk.foldl (fun _ _ ok => ok.fillRun) ok.freeRun.newNumber).beside.reply
      · split
        · exact ok.replyErr
        · split
          · exact ok.replyErr
          · split
            · split
              · exact ok.replyErr
              · exact (State.memOk.foldl (fun _ _ ok => ok.fillRun) ok.newNumber).beside.reply
            · split
              · exact ok.freeRun.replyErr
              · exact (State.memOk.foldl (fun _ _ ok => ok.fillRun) ok.freeRun.newNumber).beside.reply

/-! ## Queries -/

theorem State.memOk.submitQuery {s : State} (ok : s.memOk) {c desc vec outOffset lastSeen awaits} :
    (s.submitQuery c desc vec outOffset lastSeen awaits).memOk := by
  unfold State.submitQuery
  dsimp only
  split
  · exact ok.replyErr
  · exact .ite ok.replyErr ok.beside.addJob.takeBatch

theorem State.memOk.placeQuery {s : State} (ok : s.memOk) {c} : (s.placeQuery c).memOk := ok.submitQuery

theorem State.memOk.loopQuery {s : State} (ok : s.memOk) : s.loopQuery.memOk := by
  unfold State.loopQuery
  dsimp only
  split
  · exact ok
  · split
    · exact ok.drawBelow
    · exact ok.drawBelow.drawBelow.drawBelow.drawBelow.drawVec.beside

theorem State.memOk.sceneLastSeen {s : State} (ok : s.memOk) {c} : (s.sceneLastSeen c).memOk := by
  unfold State.sceneLastSeen
  dsimp only
  exact ok.submitQuery

theorem State.memOk.sceneResemble {s : State} (ok : s.memOk) {c} : (s.sceneResemble c).memOk := by
  unfold State.sceneResemble
  dsimp only
  split
  · exact ok.drawBelow.drawBelow.submitQuery
  · exact ok.drawBelow.drawBelow.submitQuery
  · exact ok.drawBelow.drawBelow.replyErr

theorem State.memOk.sceneInRegion {s : State} (ok : s.memOk) {c} : (s.sceneInRegion c).memOk := by
  unfold State.sceneInRegion
  dsimp only
  exact ok.replyList

/-! ## Inserts, deletes, compaction and the end of an index -/

theorem State.memOk.placeInsert {s : State} (ok : s.memOk) {c} : (s.placeInsert c).memOk := by
  unfold State.placeInsert
  dsimp only
  split
  · exact ok.replyErr
  · exact .ite ok.replyErr (State.memOk.ite ok.replyErr ok.addJob.updIndex)

theorem State.memOk.readLocation {s : State} (ok : s.memOk) {ix id} : (s.readLocation ix id).memOk := by
  unfold State.readLocation
  split
  · exact ok
  · exact .foldl (fun _ _ ok => ok.updBlock) ok

theorem State.memOk.placeDelete {s : State} (ok : s.memOk) {c} : (s.placeDelete c).memOk := by
  unfold State.placeDelete
  dsimp only
  split
  · exact ok.replyErr
  · split
    · exact ok.readLocation.replyErr
    · exact .ite ok.readLocation.replyErr ok.readLocation.addJob.updIndex

theorem State.memOk.placeCompact {s : State} (ok : s.memOk) {c} : (s.placeCompact c).memOk := by
  unfold State.placeCompact
  split
  · exact ok.replyErr
  · exact .ite ok.replyErr ok.addJob.startCompaction

theorem State.memOk.placeDestroy {s : State} (ok : s.memOk) {c} : (s.placeDestroy c).memOk := by
  unfold State.placeDestroy
  split
  · exact ok.replyErr
  · exact ok.addJob.updIndex.destroyIdle

theorem State.memOk.placeStatus {s : State} (ok : s.memOk) {c} : (s.placeStatus c).memOk := by
  unfold State.placeStatus
  split
  · exact ok.replyErr
  · exact ok.reply

/-! ## Signature blocks -/

theorem State.memOk.authFail {s : State} (ok : s.memOk) {item kind cause} : (s.authFail item kind cause).memOk := ok.event

/-! ## Firmware images -/

theorem State.memOk.fwRefused {s : State} (ok : s.memOk) {item} : (s.fwRefused item).memOk := by
  unfold State.fwRefused
  split
  · exact ok.authFail
  · exact ok.event
  · exact ok

theorem State.memOk.fwWrite {s : State} (ok : s.memOk) {c} : (s.fwWrite c).memOk := by
  unfold State.fwWrite
  dsimp only
  exact .ite (State.memOk.ite ok.beside (State.memOk.ite ok.beside ok.beside)).replyOk ok.replyErr

theorem State.memOk.activateRecord {s : State} (ok : s.memOk) {c item} : (s.activateRecord c item).memOk := by
  unfold State.activateRecord
  dsimp only
  split
  · exact ok.authFail.replyErr
  · split
    · exact ok.replyErr
    · split
      · exact .ite ok.beside.event.replyOk ok.replyErr
      · exact ok.replyErr

theorem State.memOk.activateImage {s : State} (ok : s.memOk) {item} : (s.activateImage item).memOk := by
  unfold State.activateImage
  dsimp only
  exact .ite ok.beside.closeMbx.raiseIrq.event ok.beside

theorem State.memOk.fwActivate {s : State} (ok : s.memOk) {c} : (s.fwActivate c).memOk := by
  unfold State.fwActivate
  dsimp only
  split
  · exact ok.replyErr
  · split
    · exact ok.beside.activateRecord
    · split
      · exact ok.beside.replyOk.activateImage
      · exact ok.beside.replyErr
      · exact ok.beside.fwRefused.replyErr
      · exact (State.memOk.ite ok.beside.fwRefused.beside ok.beside.fwRefused.beside).replyErr

theorem State.memOk.fwStatus {s : State} (ok : s.memOk) {c} : (s.fwStatus c).memOk := ok.reply

theorem State.memOk.raiseCounters {s : State} (ok : s.memOk) : s.raiseCounters.memOk := by
  unfold State.raiseCounters
  dsimp only
  split
  · exact ok
  · exact .foldl (fun _ _ ok => (State.memOk.ite ok.beside.event ok)) ok

/-! ## Namespace keys -/

theorem State.memOk.rotateKey {s : State} (ok : s.memOk) {c} : (s.rotateKey c).memOk := by
  unfold State.rotateKey
  dsimp only
  split
  · exact ok.replyErr
  · exact .ite ok.reply (State.memOk.ite ok.draw.reply ok.addJob)

theorem State.memOk.keyBoundary {s : State} (ok : s.memOk) {dt} : (s.keyBoundary dt).memOk := by
  unfold State.keyBoundary
  dsimp only
  refine .foldl (fun _ _ ok => ?_) ok
  split
  · split
    · exact (State.memOk.ite ok.drawBytes.beside.event ok.drawBytes.beside).completeJob.zeroiseOld
    · exact ok
  · exact ok

theorem State.memOk.keyStatus {s : State} (ok : s.memOk) {c} : (s.keyStatus c).memOk := by
  unfold State.keyStatus
  split
  · exact ok.replyErr
  · exact ok.reply

/-! ## Attestation -/

theorem State.memOk.attest {s : State} (ok : s.memOk) {c} : (s.attest c).memOk := by
  unfold State.attest
  dsimp only
  split
  · exact ok.draw.reply
  · exact .ite ok.replyErr (State.memOk.ite ok.replyErr ok.beside.replyOut)

theorem State.memOk.attestCerts {s : State} (ok : s.memOk) {c} : (s.attestCerts c).memOk := by
  unfold State.attestCerts
  dsimp only
  exact ok.replyOut

/-! ## Debug -/

theorem State.memOk.readChallenge {s : State} (ok : s.memOk) : s.readChallenge.memOk := by
  unfold State.readChallenge
  split
  · exact ok
  · split
    exact (State.memOk.of_snd ok.drawBytes ‹_›).beside

theorem State.memOk.writeToken {s : State} (ok : s.memOk) {t} : (s.writeToken t).memOk := by
  unfold State.writeToken
  dsimp only
  split
  · exact ok
  · split
    · exact ok.beside.event
    · refine State.memOk.event (State.memOk.beside ?_)
      split
      · exact ok.authFail
      · exact ok

/-! ## Loads -/

theorem State.memOk.putObj {s : State} (ok : s.memOk) {o} : (s.putObj o).memOk := ok

theorem State.memOk.finishLoad {s : State} (ok : s.memOk) {c model h word0} : (s.finishLoad c model h word0).memOk := by
  unfold State.finishLoad
  dsimp only
  split
  · exact ok
  · split
    · exact ok.authFail.discardLoad.replyErr
    · split
      · exact ok.mapPages.addJob.drawBelow.updObj.queueWrites
      · exact ok.mapPages.addJob.drawBelow.updObj.objWritten

theorem State.memOk.pieceDone {s : State} (ok : s.memOk) {c model o word0} : (s.pieceDone c model o word0).memOk :=
  .ite ok.finishLoad ok.reply

theorem State.memOk.loadFirst {s : State} (ok : s.memOk) {c model bs} : (s.loadFirst c model bs).memOk := by
  unfold State.loadFirst
  dsimp only
  split
  · exact ok.replyErr
  · split
    · split
      · exact ok.replyErr
      · split
        · exact ok.replyErr
        · split
          · exact ok.replyErr
          · refine State.memOk.pieceDone (State.memOk.putObj (State.memOk.newNumber ?_))
            split
            · exact ok.beside.unmap
            · exact ok.beside
    · split
      · exact ok.replyErr
      · split
        · exact ok.replyErr
        · split
          · exact ok.replyErr
          · refine State.memOk.pieceDone (State.memOk.putObj ?_)
            split
            · exact ok.beside.unmap
            · exact ok.beside

theorem State.memOk.loadNext {s : State} (ok : s.memOk) {c model bs} : (s.loadNext c model bs).memOk := by
  unfold State.loadNext
  dsimp only
  split
  · exact ok.replyErr
  · split
    · exact ok.replyErr
    · exact .ite ok.replyErr (State.memOk.ite ok.discardLoad.replyErr ok.putObj.pieceDone)

theorem State.memOk.loadPiece {s : State} (ok : s.memOk) {model c} : (s.loadPiece model c).memOk := by
  unfold State.loadPiece
  dsimp only
  split
  · exact ok.replyErr
  · exact .ite ok.loadNext (State.memOk.ite ok.replyErr (State.memOk.ite ok.replyErr ok.loadFirst))

/-! ## The object that a command names -/

theorem State.memOk.modelInfo {s : State} (ok : s.memOk) {c} : (s.modelInfo c).memOk := by
  unfold State.modelInfo
  split
  · exact ok.replyErr
  · exact .ite ok.replyOut ok.replyErr

theorem State.memOk.dropCopies {s : State} (ok : s.memOk) {h mirrorOnly} : (s.dropCopies h mirrorOnly).memOk := by
  unfold State.dropCopies
  dsimp only
  exact .ite ok.beside.zeroiseOld ok.dropPagesFrom.updObj

theorem State.memOk.objPlace {s : State} (ok : s.memOk) {c} : (s.objPlace c).memOk := by
  unfold State.objPlace
  dsimp only
  split
  · exact ok.replyErr
  · split
    · exact ok.replyErr
    · split
      · exact ok.replyErr
      · split
        · split
          · split
            · exact ok.replyErr
            · exact .ite ok.updObj.updObj.pin.addJob.startGroup ok.updObj.updObj.pin.addJob.updObj.queueWrites
          · split
            · split
              · exact ok.replyErr
              · exact .ite ok.updObj.updObj.pin.addJob.startGroup ok.updObj.updObj.pin.addJob.updObj.queueWrites
            · split
              · exact ok.replyErr
              · exact .ite ok.updObj.updObj.pin.addJob.startGroup ok.updObj.updObj.pin.addJob.updObj.queueWrites
        · split
          · exact ok.updObj.dropCopies.replyOk
          · exact .ite ok.updObj.dropCopies.replyOk ok.updObj.replyOk

theorem State.memOk.objPromote {s : State} (ok : s.memOk) {c} : (s.objPromote c).memOk := by
  unfold State.objPromote
  split
  · exact ok.replyErr
  · split
    · exact ok.replyErr
    · split
      · exact (State.memOk.of_snd ok.promote ‹_›).reply
      · exact (State.memOk.of_snd ok.promote ‹_›).addJob.promoted

theorem State.memOk.objPin {s : State} (ok : s.memOk) {c} : (s.objPin c).memOk := by
  unfold State.objPin
  split
  · exact ok.replyErr
  · exact .ite ok.pin.replyOk ok.replyErr

theorem State.memOk.objUnpin {s : State} (ok : s.memOk) {c} : (s.objUnpin c).memOk := by
  unfold State.objUnpin
  dsimp only
  split
  · exact ok.replyErr
  · exact .ite ok.unpin.replyOk (State.memOk.ite ok.unpin.replyOk ok.replyErr)

theorem State.memOk.objEvict {s : State} (ok : s.memOk) {c} : (s.objEvict c).memOk := by
  unfold State.objEvict
  split
  · exact ok.replyErr
  · exact .ite ok.replyErr ok.updObj.addJob

theorem State.memOk.objUnload {s : State} (ok : s.memOk) {c} : (s.objUnload c).memOk := by
  unfold State.objUnload
  dsimp only
  split
  · exact ok.replyErr
  · exact .ite ok.replyErr ok.updObj.addJob

theorem State.memOk.objStatus {s : State} (ok : s.memOk) {c} : (s.objStatus c).memOk := by
  unfold State.objStatus
  dsimp only
  split
  · exact ok.replyErr
  · exact ok.reply

/-! ## POSE_INIT -/

theorem State.memOk.initPose {s : State} (ok : s.memOk) {payload recs dt} : (s.initPose payload recs dt).memOk := ok

theorem State.memOk.poseInit {s : State} (ok : s.memOk) {c} : (s.poseInit c).memOk := by
  unfold State.poseInit
  dsimp only
  exact .ite ok.replyErr (State.memOk.ite ok.addJob ok.addJob)

theorem State.memOk.alignDone {s : State} (ok : s.memOk) : s.alignDone.memOk := by
  unfold State.alignDone
  dsimp only
  split
  · exact ok
  · split
    · exact .ite ok.beside ok.beside
    · exact ok

/-! ## POSE_CONFIG -/

theorem State.memOk.poseConfig {s : State} (ok : s.memOk) {c} : (s.poseConfig c).memOk := by
  unfold State.poseConfig
  dsimp only
  exact .ite ok.addJob ok.replyErr

/-! ## POSE_SUBSCRIBE and POSE_GET -/

theorem State.memOk.poseSubscribe {s : State} (ok : s.memOk) {c} : (s.poseSubscribe c).memOk := by
  unfold State.poseSubscribe
  dsimp only
  split
  · exact (ok.updMbx fun _ ok => by exact ok).replyOk
  · exact .ite ok.replyErr (ok.windowWrite.updMbx fun _ ok => by exact ok).replyOk
  · exact ok.replyErr

theorem State.memOk.poseGet {s : State} (ok : s.memOk) {c} : (s.poseGet c).memOk := ok.replyOut

/-! ## Tracks -/

theorem State.memOk.trackRead {s : State} (ok : s.memOk) {c} : (s.trackRead c).memOk := by
  unfold State.trackRead
  split
  · exact ok.replyErr
  · exact .ite ok.replyErr ok.replyOut

theorem State.memOk.trackDelete {s : State} (ok : s.memOk) {c} : (s.trackDelete c).memOk := by
  unfold State.trackDelete
  split
  · exact ok.replyErr
  · exact .ite ok.replyErr (State.memOk.ite ok.replyErr ok.addJob)

theorem State.memOk.trackList {s : State} (ok : s.memOk) {c} : (s.trackList c).memOk := ok.replyList

/-! ## What applies at a boundary -/

theorem State.memOk.applyPoseJob {s : State} (ok : s.memOk) {j dt} : (s.applyPoseJob j dt).memOk := by
  unfold State.applyPoseJob
  dsimp only
  split
  · exact ok.initPose.completeJob
  · exact ok.beside
  · exact ok.initPose.completeJob
  · exact ok.beside.permitCheck.placeHistory.completeJob
  · exact (State.memOk.ite ok.freeTrack ok).completeJob
  · exact ok

/-! ## Operating points and the rail -/

theorem State.memOk.clampClocks {s : State} (ok : s.memOk) : s.clampClocks.memOk := by
  unfold State.clampClocks
  dsimp only
  exact .foldl (fun _ _ ok => ok.updCorePower) ok

theorem State.memOk.stepRail {s : State} (ok : s.memOk) : s.stepRail.memOk := by
  unfold State.stepRail
  dsimp only
  exact .ite ok ok.beside

theorem State.memOk.boundaryClock {s : State} (ok : s.memOk) {c} : (s.boundaryClock c).memOk := by
  unfold State.boundaryClock
  dsimp only
  exact ok.updCorePower

theorem State.memOk.pmEvent {s : State} (ok : s.memOk) {code a0 a1 a2} : (s.pmEvent code a0 a1 a2).memOk := .ite ok.event ok

/-! ## Power control at the latch -/

theorem State.memOk.setRung {s : State} (ok : s.memOk) {new cause} : (s.setRung new cause).memOk := by
  unfold State.setRung
  dsimp only
  exact .ite ok ok.beside.pmEvent

theorem State.memOk.setCeiling {s : State} (ok : s.memOk) {new avg} : (s.setCeiling new avg).memOk := by
  unfold State.setCeiling
  dsimp only
  exact ok.beside.pmEvent

theorem State.memOk.capDone {s : State} (ok : s.memOk) {status r0 r1} : (s.capDone status r0 r1).memOk := by
  unfold State.capDone
  exact .foldl (fun _ _ ok => ok.completeJob) ok

theorem State.memOk.capUnattainable {s : State} (ok : s.memOk) {avg} : (s.capUnattainable avg).memOk := by
  unfold State.capUnattainable
  dsimp only
  exact (State.memOk.ite ok.beside ok.beside.pmEvent).capDone

theorem State.memOk.ascend {s : State} (ok : s.memOk) {avg} : (s.ascend avg).memOk := by
  unfold State.ascend
  dsimp only
  split
  · exact .ite ok ok.setCeiling.beside
  · exact .ite (State.memOk.ite ok ok.setRung.beside) ok

theorem State.memOk.powerMeasure {s : State} (ok : s.memOk) : s.powerMeasure.memOk := by
  unfold State.powerMeasure
  dsimp only
  exact .ite ok.beside.pmEvent ok.beside

theorem State.memOk.powerControl {s : State} (ok : s.memOk) : s.powerControl.memOk := by
  unfold State.powerControl
  dsimp only
  exact .ite (State.memOk.ite ok.beside.capDone ok.beside).setRung
      (State.memOk.ite (State.memOk.ite ok.beside.capDone ok.beside).setCeiling
          (State.memOk.ite (State.memOk.ite ok.beside.capDone ok.beside).capUnattainable
              (State.memOk.ite (State.memOk.ite ok.beside.capDone ok.beside).setRung
                  (State.memOk.ite (State.memOk.ite ok.beside.capDone ok.beside).setRung
                      (State.memOk.ite (State.memOk.ite ok.beside.capDone ok.beside).ascend
                          (State.memOk.ite ok.beside.capDone ok.beside))))))

theorem State.memOk.setMargin {s : State} (ok : s.memOk) {k new} : (s.setMargin k new).memOk := by
  unfold State.setMargin
  dsimp only
  exact .ite ok ok.beside.pmEvent

theorem State.memOk.raiseMargins {s : State} (ok : s.memOk) : s.raiseMargins.memOk := by
  unfold State.raiseMargins
  dsimp only
  exact .foldl (fun _ _ ok => (State.memOk.ite ok.setMargin ok)) ok.beside

theorem State.memOk.restartClocks {s : State} (ok : s.memOk) : s.restartClocks.memOk := by
  unfold State.restartClocks
  dsimp only
  exact .foldl (fun _ _ ok => (State.memOk.ite ok.updCorePower ok)) ok

theorem State.memOk.powerLatch {s : State} (ok : s.memOk) : s.powerLatch.memOk := ok.powerControl.raiseMargins

/-! ## The boundary -/

theorem State.memOk.thermalEnd {s : State} (ok : s.memOk) : s.thermalEnd.memOk := by
  unfold State.thermalEnd
  dsimp only
  exact .foldl (fun _ _ ok => ok.updCorePower) (State.memOk.foldl (fun _ _ ok => ok.pmEvent) ok)

theorem State.memOk.stopClocks {s : State} (ok : s.memOk) : s.stopClocks.memOk := by
  unfold State.stopClocks
  dsimp only
  exact .foldl (fun _ _ ok => (State.memOk.ite ok (State.memOk.ite ok.updCorePower ok.updCorePower))) ok

theorem State.memOk.powerBoundary {s : State} (ok : s.memOk) {ns} : (s.powerBoundary ns).memOk := by
  unfold State.powerBoundary
  dsimp only
  exact (State.memOk.foldl (fun _ _ ok => ok.boundaryClock)
      (State.memOk.foldl (fun _ _ ok => ok.updCorePower) (State.memOk.ite ok.thermalEnd.beside ok.thermalEnd))).beside.stopClocks

/-! ## Sensors, pins and monitors -/

theorem State.memOk.pmbusPoll {s : State} (ok : s.memOk) {answered mv ma} : (s.pmbusPoll answered mv ma).memOk := by
  unfold State.pmbusPoll
  split
  · exact ok
  · split
    exact (State.memOk.of_snd ok.drawBelow ‹_›).beside

theorem State.memOk.thermalClamp {s : State} (ok : s.memOk) {n} : (s.thermalClamp n).memOk := by
  unfold State.thermalClamp
  dsimp only
  refine State.memOk.clampClocks ?_
  split
  · exact .foldl (fun _ _ ok => (State.memOk.ite ok.updCorePower ok)) ok
  · exact (State.memOk.foldl (fun _ _ ok => (State.memOk.ite ok.updCorePower ok)) ok).beside.pmEvent

theorem State.memOk.conversion {s : State} (ok : s.memOk) {n t} : (s.conversion n t).memOk := by
  unfold State.conversion
  dsimp only
  split
  · exact ok
  · split
    · split
      · exact .ite ok.beside.thermalClamp.beside.fatal ok.beside.thermalClamp
      · exact .ite ok.beside.beside.fatal ok.beside
    · split
      · exact .ite ok.beside.thermalClamp.beside.fatal ok.beside.thermalClamp
      · exact .ite ok.beside.beside.fatal ok.beside

theorem State.memOk.thermRelease {s : State} (ok : s.memOk) : s.thermRelease.memOk := by
  unfold State.thermRelease
  dsimp only
  exact .foldl (fun _ _ ok => (State.memOk.ite ok.updCorePower ok)) ok

theorem State.memOk.limitIgnored {s : State} (ok : s.memOk) {low} : (s.limitIgnored low).memOk := ok

theorem State.memOk.limitAssert {s : State} (ok : s.memOk) : s.limitAssert.memOk := by
  unfold State.limitAssert
  dsimp only
  exact .ite ok.limitIgnored (State.memOk.ite ok ok.beside.pmEvent.clampClocks)

theorem State.memOk.limitRelease {s : State} (ok : s.memOk) : s.limitRelease.memOk := by
  unfold State.limitRelease
  dsimp only
  exact .ite ok.limitIgnored (State.memOk.ite ok ok.beside.pmEvent)

theorem State.memOk.monitorAlarm {s : State} (ok : s.memOk) {m} : (s.monitorAlarm m).memOk := by
  unfold State.monitorAlarm
  dsimp only
  split
  · exact ok
  · split
    · exact ok.beside.updCorePower.beside.pmEvent.clampClocks
    · exact ok.beside.drawBelow.pmEvent

theorem State.memOk.marginTrim {s : State} (ok : s.memOk) : s.marginTrim.memOk := by
  unfold State.marginTrim
  dsimp only
  split
  · exact ok
  · exact (State.memOk.foldl (fun _ _ ok => (State.memOk.ite ok.drawBelow.setMargin ok.drawBelow)) ok).beside

/-! ## Slots -/

theorem State.memOk.settlePins {s : State} (ok : s.memOk) : s.settlePins.memOk := by
  unfold State.settlePins
  exact .foldl (fun _ _ ok => (State.memOk.ite ok.updTrig (State.memOk.ite ok.updTrig ok))) ok

theorem State.memOk.placeImage {s : State} (ok : s.memOk) {k img} : (s.placeImage k img).memOk := by
  unfold State.placeImage
  dsimp only
  exact (State.memOk.foldl (fun _ _ ok => ok.pin) ok.beside).settlePins

theorem State.memOk.dropImage {s : State} (ok : s.memOk) {k} : (s.dropImage k).memOk := by
  unfold State.dropImage
  dsimp only
  split
  · exact ok
  · exact (State.memOk.foldl (fun _ _ ok => ok.unpin) ok).beside.settlePins

theorem State.memOk.schedLoad {s : State} (ok : s.memOk) {c} : (s.schedLoad c).memOk := by
  unfold State.schedLoad
  dsimp only
  split
  · exact ok.replyErr
  · split
    · exact ok.event.reply
    · split
      · exact ok.placeImage.reply
      · exact ok

/-! ## Starting -/

theorem State.memOk.schedBegin {s : State} (ok : s.memOk) {grains fams} : (s.schedBegin grains fams).memOk := by
  unfold State.schedBegin
  dsimp only
  exact ok.beside.fusStart.raiseIrq

theorem State.memOk.schedStart {s : State} (ok : s.memOk) {c} : (s.schedStart c).memOk := by
  unfold State.schedStart
  dsimp only
  split
  · exact ok.replyErr
  · split
    · exact ok.replyErr
    · split
      · exact ok.reply
      · split
        · exact ok.reply
        · split
          · exact ok.reply
          · exact .ite ok.replyErr ok.addJob.schedBegin

theorem State.memOk.beginStop {s : State} (ok : s.memOk) : s.beginStop.memOk := ok.beside.leaveService

theorem State.memOk.schedStop {s : State} (ok : s.memOk) {c} : (s.schedStop c).memOk := by
  unfold State.schedStop
  split
  · exact ok.replyOk
  · exact ok.addJob.beginStop

/-! ## SCHED_SELECT, SCHED_UNLOAD and SCHED_STATUS -/

theorem State.memOk.applySelect {s : State} (ok : s.memOk) {p mode rung slot} : (s.applySelect p mode rung slot).memOk := by
  unfold State.applySelect
  split
  · exact ok.beside
  · exact ok.beside
  · exact ok.beside

theorem State.memOk.schedSelect {s : State} (ok : s.memOk) {c} : (s.schedSelect c).memOk := by
  unfold State.schedSelect
  dsimp only
  split
  · exact ok.replyErr
  · exact .ite ok.addJob.applySelect ok.addJob

theorem State.memOk.schedUnload {s : State} (ok : s.memOk) {c} : (s.schedUnload c).memOk := by
  unfold State.schedUnload
  dsimp only
  split
  · split
    · exact ok.replyErr
    · split
      · exact ok.replyErr
      · exact .ite ok.replyErr (State.memOk.ite ok.replyErr ok.dropImage.replyOk)
  · exact ok.replyErr

theorem State.memOk.schedStatus {s : State} (ok : s.memOk) {c} : (s.schedStatus c).memOk := by
  unfold State.schedStatus
  dsimp only
  exact ok.replyOut

/-! ## The pins of a reset -/

theorem State.memOk.resetPins {s : State} (ok : s.memOk) : s.resetPins.memOk := by
  unfold State.resetPins
  dsimp only
  exact (State.memOk.foldl (fun _ _ ok => ok.setPin) (State.memOk.ite ok.setPin.beside ok).setPin).setPin.setPin.setPin.beside

/-! ## What a cold reset keeps -/

theorem State.coldState_memOk (s : State) : s.coldState.memOk := by
  obtain ⟨main, sram, mbx⟩ := State.reset_memOk
  unfold State.coldState
  exact ⟨main, sram, mbx⟩

theorem State.memOk.poresetFall {s : State} (ok : s.memOk) : s.poresetFall.memOk := by
  unfold State.poresetFall
  split
  · exact ok
  · exact .ite ok.beside (State.coldState_memOk _)

theorem State.memOk.powerLoss {s : State} (ok : s.memOk) : s.powerLoss.memOk := by
  unfold State.powerLoss
  split
  · exact ok
  · exact (State.coldState_memOk s).setPin.beside

theorem State.memOk.powerUp {s : State} (ok : s.memOk) : s.powerUp.memOk := .ite ok.beside.setPin ok

/-! ## Warm reset -/

theorem State.memOk.publishedShards {s : State} (ok : s.memOk) : s.publishedShards.memOk := by
  unfold State.publishedShards
  exact .foldl (fun _ _ ok => ok.putShard) ok

theorem State.memOk.warmState {s : State} (ok : s.memOk) {cause} : (s.warmState cause).memOk := by
  have published : s.drainFifo.resetPins.publishedShards.memOk := ok.drainFifo.resetPins.publishedShards
  obtain ⟨_, _, mbx⟩ := State.reset_memOk
  unfold State.warmState
  extract_lets s₁ fell s₂
  obtain ⟨main, sram, _⟩ : s₂.memOk := published
  clear_value s₂ s₁
  have kept : memWf (if s₂.dev.everReady then s₂.mem else []) = true := by
    split
    · exact main
    · exact memWf_nil
  exact ⟨kept, sram, mbx⟩

theorem State.memOk.warmReset {s : State} (ok : s.memOk) {cause} : (s.warmReset cause).memOk := .ite ok ok.warmState
theorem State.memOk.sysresetFall {s : State} (ok : s.memOk) : s.sysresetFall.memOk := ok.beside.warmReset

theorem State.memOk.sysresetRise {s : State} (ok : s.memOk) : s.sysresetRise.memOk := by
  unfold State.sysresetRise
  dsimp only
  exact .ite ok.beside ok.beside

/-! ## SYS_RESET and the watchdog -/

theorem State.memOk.sysReset {s : State} (ok : s.memOk) {c} : (s.sysReset c).memOk := by
  unfold State.sysReset
  dsimp only
  exact .ite ok.replyErr (State.memOk.ite ok.replyErr ok.replyOk.beside)

theorem State.memOk.resetDelayOver {s : State} (ok : s.memOk) : s.resetDelayOver.memOk := .ite ok.warmReset ok
theorem State.memOk.watchdogRefresh {s : State} (ok : s.memOk) {cp} : (s.watchdogRefresh cp).memOk := .ite ok.beside ok

theorem State.memOk.watchdogExpiry {s : State} (ok : s.memOk) {cp} : (s.watchdogExpiry cp).memOk :=
  .ite ok (State.memOk.ite ok.beside ok.warmReset)

/-! ## Boot -/

theorem State.memOk.poresetRise {s : State} (ok : s.memOk) {bootSrc} : (s.poresetRise bootSrc).memOk := .ite ok.beside ok
theorem State.memOk.portAnswers {s : State} (ok : s.memOk) : s.portAnswers.memOk := .ite ok ok.beside

theorem State.memOk.bootRomEnds {s : State} (ok : s.memOk) {pmbusAck rngOk} : (s.bootRomEnds pmbusAck rngOk).memOk := by
  unfold State.bootRomEnds
  dsimp only
  exact .ite ok (State.memOk.ite ok.beside.clampClocks ok.beside.clampClocks.beside.draw.fatal)

theorem State.memOk.enterRecovery {s : State} (ok : s.memOk) {host} : (s.enterRecovery host).memOk := by
  unfold State.enterRecovery
  dsimp only
  exact ok.beside.openMbx.raiseIrq

theorem State.memOk.dramReady {s : State} (ok : s.memOk) : s.dramReady.memOk :=
  .ite ok (State.memOk.ite ok.enterRecovery ok.beside)

theorem State.memOk.startFirmware {s : State} (ok : s.memOk) {slot item host} : (s.startFirmware slot item host).memOk := ok

theorem State.memOk.trySlots {ks : List (Fin 2)} : ∀ {s : State}, s.memOk → (State.trySlots ks s).memOk := by
  induction ks with
  | nil =>
    intro s ok
    unfold State.trySlots
    exact State.memOk.enterRecovery (State.memOk.event (s := ((s.drawBelow 4).2.drawBelow 4).2) ok)
  | cons k ks ih =>
    intro s ok
    unfold State.trySlots
    split
    · exact ok.startFirmware.event
    · exact ih ok.fwRefused.beside

theorem State.memOk.verifyFirmware {s : State} (ok : s.memOk) : s.verifyFirmware.memOk := by
  unfold State.verifyFirmware
  split
  · exact ok
  · split
    · exact ok.startFirmware
    · exact .ite ok.enterRecovery (State.memOk.ite ok.trySlots ok.trySlots)

theorem State.memOk.recheckImages {s : State} (ok : s.memOk) : s.recheckImages.memOk := by
  unfold State.recheckImages
  refine .foldl (fun _ _ ok => ?_) ok
  split
  · exact .ite ok.dropImage ok
  · exact ok

theorem State.memOk.driveTriggers {s : State} (ok : s.memOk) : s.driveTriggers.memOk := by
  unfold State.driveTriggers
  dsimp only
  exact .foldl (fun _ _ ok => ok.setPin) ok.beside

theorem State.memOk.reachReady {s : State} (ok : s.memOk) : s.reachReady.memOk := by
  unfold State.reachReady
  dsimp only
  split
  · exact ok
  · refine State.memOk.raiseIrq ?_
    split
    · exact (State.memOk.foldl (fun _ _ ok => ok.beginScrub) ok.beside.settleRest.recheckImages.openAll).raiseCounters.driveTriggers
    · exact (State.memOk.foldl (fun _ _ ok => ok.beginScrub)
          ok.beside.settleRest.recheckImages.openAll).raiseCounters.driveTriggers.releaseFreeze.setPin

end Sys2Proof.Machine
end

section
set_option Elab.async false
/-!
PROOFS. What keeps the memories canonical, continued: one lemma for each function of the state, in the model's order.
-/
namespace Sys2Proof.Machine

/-! ## The parked state -/

theorem State.memOk.parkPins {s : State} (ok : s.memOk) : s.parkPins.memOk := by
  unfold State.parkPins
  dsimp only
  exact (State.memOk.foldl (fun _ _ ok => ok.updTrig.setPin) ok).setPin.beside

theorem State.memOk.parkPower {s : State} (ok : s.memOk) : s.parkPower.memOk := by
  unfold State.parkPower
  dsimp only
  exact (State.memOk.foldl (fun _ _ ok => ok.updCorePower) ok).beside

theorem State.memOk.holdRegs {s : State} (ok : s.memOk) : s.holdRegs.memOk := ok

theorem State.memOk.park {s : State} (ok : s.memOk) : s.park.memOk := by
  unfold State.park
  dsimp only
  exact .ite ok ok.pageOutAll.event.parkPins.parkPower.beside.holdRegs.raiseIrq

theorem State.memOk.wakeUp {s : State} (ok : s.memOk) : s.wakeUp.memOk := by
  unfold State.wakeUp
  dsimp only
  exact .ite ok ok.beside.event.raiseIrq

/-! ## What the four engines share -/

theorem State.memOk.visOnce {s : State} (ok : s.memOk) {i bit code a0 a1 a2} : (s.visOnce i bit code a0 a1 a2).memOk :=
  .ite ok ok.updVis.event

theorem State.memOk.visFlagged {s : State} (ok : s.memOk) {i n h} : (s.visFlagged i n h).memOk := .ite ok.updVis.visOnce ok
theorem State.memOk.visCount {s : State} (ok : s.memOk) {i c k} : (s.visCount i c k).memOk := ok.updVis

theorem State.memOk.featureEvents {s : State} (ok : s.memOk) : s.featureEvents.memOk := by
  unfold State.featureEvents
  dsimp only
  split
  · exact ok
  · split
    · exact (State.memOk.foldl (fun _ _ ok => ok.event) ok).event
    · exact .foldl (fun _ _ ok => ok.event) ok

theorem State.memOk.visBoundary {s : State} (ok : s.memOk) : s.visBoundary.memOk := by
  unfold State.visBoundary
  exact .foldl (fun _ _ ok => ok.updVis) ok.featureEvents

/-! ## PW_WARP -/

theorem State.memOk.warpOp {s : State} (ok : s.memOk) {n} : (s.warpOp n).memOk := by
  unfold State.warpOp
  dsimp only
  exact ok.visFlagged.visCount.startOp

/-! ## PW_PYRAMID -/

theorem State.memOk.pyramidOp {s : State} (ok : s.memOk) {n} : (s.pyramidOp n).memOk := by
  unfold State.pyramidOp
  dsimp only
  exact ok.visFlagged.startOp

/-! ## FE_DETECT -/

theorem State.memOk.detectOp {s : State} (ok : s.memOk) {n} : (s.detectOp n).memOk := by
  unfold State.detectOp
  dsimp only
  exact ok.visFlagged.beside.visCount.visCount.updVis.startOp

/-! ## TRK_RUN -/

theorem State.memOk.trackOp {s : State} (ok : s.memOk) {n} : (s.trackOp n).memOk := by
  unfold State.trackOp
  dsimp only
  refine State.memOk.startOp ?_
  split
  · exact (State.memOk.foldl (fun _ _ ok => ok.visCount) ok.visFlagged).visCount
  · exact (State.memOk.foldl (fun _ _ ok => ok.visCount) ok.visFlagged).visCount.updVis.visOnce

/-! ## FTH_STRIPE -/

theorem State.memOk.stripeOp {s : State} (ok : s.memOk) {n} : (s.stripeOp n).memOk := by
  unfold State.stripeOp
  dsimp only
  exact ok.visFlagged.beside.updVis.visCount.visCount.visCount.visCount.startOp

/-! ## The end of an operation -/

theorem State.memOk.engineEffect {s : State} (ok : s.memOk) {t n r limit} : (s.engineEffect t n r limit).memOk := by
  unfold State.engineEffect
  split
  · exact ok.fldEnd
  · exact ok.fusEnd
  · exact ok.slvEnd
  · exact .ite ok.fileEnd ok
  · exact .ite ok.emitEnd ok
  · exact .ite ok.closeWindow ok
  · exact ok

theorem State.memOk.dropRun {s : State} (ok : s.memOk) {t r} : (s.dropRun t r).memOk := ok.onSeq

theorem State.memOk.runDone {s : State} (ok : s.memOk) {t r} : (s.runDone t r).memOk := by
  unfold State.runDone
  dsimp only
  split
  · exact ok.dropRun.coreEnd.onSeq.settleFiller
  · refine State.memOk.setOnDone (State.memOk.countBusy (State.memOk.countDone ?_))
    split
    · exact ok.dropRun.applyMemWrites.engineEffect
    · exact ok.dropRun.applyMemWrites

theorem State.memOk.opComplete {s : State} (ok : s.memOk) {t u} : (s.opComplete t u).memOk := by
  unfold State.opComplete
  split
  · exact ok.runDone
  · exact ok

/-! ## Selection -/

theorem State.memOk.adoptFamily {s : State} (ok : s.memOk) {p} : (s.adoptFamily p).memOk := by
  unfold State.adoptFamily
  split
  · exact ok.beside
  · exact ok

theorem State.memOk.latchTo {s : State} (ok : s.memOk) {p k} : (s.latchTo p k).memOk := ok

theorem State.memOk.noteRelief {s : State} (ok : s.memOk) {k relief} : (s.noteRelief k relief).memOk := by
  unfold State.noteRelief
  split
  · exact .ite ok.beside ok
  · exact ok

theorem State.memOk.selectFor {s : State} (ok : s.memOk) {p} : (s.selectFor p).memOk := by
  unfold State.selectFor
  dsimp only
  split
  · exact ok.adoptFamily.latchTo
  · split
    · exact ok.adoptFamily.latchTo
    · split
      · exact ok.adoptFamily.beside.latchTo.beside.noteRelief
      · exact .ite ok.adoptFamily.beside.latchTo.beside.fatal ok.adoptFamily.beside.latchTo.beside

theorem State.memOk.repeatFor {s : State} (ok : s.memOk) {p} : (s.repeatFor p).memOk := by
  unfold State.repeatFor
  dsimp only
  split
  · exact ok.beside
  · split
    · exact ok.beside.event
    · exact ok.beside

/-! ## The latch -/

theorem State.memOk.applySelects {s : State} (ok : s.memOk) : s.applySelects.memOk := by
  unfold State.applySelects
  dsimp only
  refine .foldl (fun _ _ ok => ?_) ok
  split
  · exact ok.applySelect.beside
  · exact ok

theorem State.memOk.latchNow {s : State} (ok : s.memOk) : s.latchNow.memOk := by
  unfold State.latchNow
  dsimp only
  refine State.memOk.slvLatch (State.memOk.restartClocks (State.memOk.beside (State.memOk.stepRail ?_)))
  split
  · exact .foldl (fun _ _ ok => ok.repeatFor) ok.beside.powerMeasure
  · exact .foldl (fun _ _ ok => ok.selectFor) ok.beside.powerMeasure.applySelects.powerLatch

theorem State.memOk.latchStep {s : State} (ok : s.memOk) : s.latchStep.memOk := .ite ok.latchNow ok

/-! ## Stopping and abandoning -/

theorem State.memOk.endWindows {s : State} (ok : s.memOk) : s.endWindows.memOk := by
  unfold State.endWindows
  dsimp only
  exact (State.memOk.foldl (fun _ _ ok => (State.memOk.ite ok.runDone ok))
      (State.memOk.foldl (fun _ _ ok => (State.memOk.ite ok.runDone ok)) ok)).slvMiss.slvWindowEnd.psWindowEnd

theorem State.memOk.stopRun {s : State} (ok : s.memOk) {t r} : (s.stopRun t r).memOk := by
  unfold State.stopRun
  dsimp only
  split
  · split
    · exact ok.countStopped
    · split
      · exact ok.countStopped.drawBelow.drawBelow.applyMemWrites.engineEffect
      · exact ok.countStopped.drawBelow.drawBelow.applyMemWrites
  · split
    · exact ok.countStopped
    · split
      · exact ok.countStopped.drawBelow.drawBelow.applyMemWrites.engineEffect
      · exact ok.countStopped.drawBelow.drawBelow.applyMemWrites

theorem State.memOk.addWaits {s : State} (ok : s.memOk) {t} : (s.addWaits t).memOk := by
  unfold State.addWaits
  dsimp only
  split
  · exact ok.beside
  · exact ok

theorem State.memOk.skipEvent {s : State} (ok : s.memOk) : s.skipEvent.memOk := by
  unfold State.skipEvent
  dsimp only
  exact .ite ok ok.event

theorem State.memOk.abandonEvent {s : State} (ok : s.memOk) {left} : (s.abandonEvent left).memOk := by
  unfold State.abandonEvent
  dsimp only
  exact .ite ok ok.beside.event

theorem State.memOk.lastOverruns {s : State} (ok : s.memOk) : s.lastOverruns.memOk := by
  unfold State.lastOverruns
  exact .foldl (fun _ _ ok => ok.overrunAll) ok

theorem State.memOk.reliefCount {s : State} (ok : s.memOk) {c} : (s.reliefCount c).memOk := by
  unfold State.reliefCount
  dsimp only
  exact .ite ok (State.memOk.ite ok.beside ok.beside)

theorem State.memOk.scheduleLost {s : State} (ok : s.memOk) {left} : (s.scheduleLost left).memOk := by
  unfold State.scheduleLost
  dsimp only
  exact .ite ok.keyframeLost ok

theorem State.memOk.skipStep {s : State} (ok : s.memOk) {t} : (s.skipStep t).memOk := by
  unfold State.skipStep
  dsimp only
  exact .ite ok.voidSkip.keyframeLost ok.voidSkip

theorem State.memOk.stopAll {s : State} (ok : s.memOk) {clears named} : (s.stopAll clears named).memOk := by
  unfold State.stopAll
  dsimp only
  exact (State.memOk.foldl (fun _ _ ok => ok.onSeq)
      (State.memOk.foldl (fun _ _ ok => ok.settleFiller)
          (State.memOk.foldl (fun _ _ ok => ok.onSeq)
              (State.memOk.foldl (fun _ _ ok => (State.memOk.foldl (fun _ _ ok => ok.stopRun) ok))
                  (State.memOk.foldl (fun _ _ ok => ok.reliefCount)
                      (State.memOk.foldl (fun _ _ ok => ok.addWaits)
                          ok.endWindows.slvBoundary.lastOverruns))).skipEvent.boundaryFlags.abandonEvent.scheduleLost))).beside

/-! ## The boundary -/

theorem State.memOk.boundaryJob {s : State} (ok : s.memOk) {dt j} : (s.boundaryJob dt j).memOk := by
  unfold State.boundaryJob
  dsimp only
  split
  · exact ok.softSync.completeJob
  · exact ok.syncMode.completeJob
  · exact ok.applyPoseJob
  · exact ok.applyPoseJob
  · exact ok.applyPoseJob
  · exact ok.applyPoseJob
  · exact ok.applyMapJob
  · exact ok.applyMapJob
  · exact ok.completeJob
  · exact ok.completeJob
  · exact ok

theorem State.memOk.applyControl {s : State} (ok : s.memOk) {t} : (s.applyControl t).memOk := by
  unfold State.applyControl
  dsimp only
  exact ok.beside.partBoundary.keyBoundary.beside

theorem State.memOk.applyBlocks {s : State} (ok : s.memOk) {t ns held} : (s.applyBlocks t ns held).memOk := by
  unfold State.applyBlocks
  extract_lets arrived jobs cores fused searched recorded merged
  have jobsOk : jobs.memOk := State.memOk.foldl (fun _ _ ok => ok.boundaryJob) ok.streamBoundary.ifeBoundary
  have coresOk : cores.memOk := jobsOk.foldl fun _ _ ok => ok.coreSpanEvents
  have searchedOk : searched.memOk := coresOk.visBoundary.fldBoundary.deleteAcres.fusBoundary.slvCommits.writeCommits.psBoundary
  exact searchedOk.memBoundary.powerBoundary.recBoundary.mergeEvents.staleEvents.beside

theorem State.memOk.imageEvent {s : State} (ok : s.memOk) {old p} : (s.imageEvent old p).memOk := by
  unfold State.imageEvent
  dsimp only
  exact .ite ok ok.event

/-! ## What Rokan firmware prepares for a span -/

theorem State.memOk.writePageLists {s : State} (ok : s.memOk) : s.writePageLists.memOk := by
  unfold State.writePageLists
  dsimp only
  split
  · exact ok
  · exact .foldl (fun _ _ ok => ok.drawBytes.writePool) ok

theorem State.memOk.writeProblem {s : State} (ok : s.memOk) {keyframe img o} : (s.writeProblem keyframe img o).memOk := by
  unfold State.writeProblem
  dsimp only
  split
  · split
    · split
      · exact ok.drawMany.drawMany.drawMany.drawMany.writeMem
      · exact ok.drawMany.drawMany.drawMany.drawMany
    · split
      · exact ok.drawMany.drawMany.drawMany.drawMany.writeMem
      · exact ok.drawMany.drawMany.drawMany.drawMany
  · split
    · split
      · exact ok.drawMany.drawMany.drawMany.drawMany.writeMem
      · exact ok.drawMany.drawMany.drawMany.drawMany
    · split
      · exact ok.drawMany.drawMany.drawMany.drawMany.writeMem
      · exact ok.drawMany.drawMany.drawMany.drawMany

theorem State.memOk.firmwareWork {s : State} (ok : s.memOk) : s.firmwareWork.memOk := by
  unfold State.firmwareWork
  dsimp only
  split
  · exact ok
  · split
    · refine State.memOk.loopQuery ?_
      split
      · exact ok.writePageLists.drawBelow
      · exact .foldl (fun _ _ ok => ok.writeProblem) ok.writePageLists.drawBelow
    · split
      · exact ok.writePageLists.drawBelow
      · exact .foldl (fun _ _ ok => ok.writeProblem) ok.writePageLists.drawBelow

theorem State.memOk.startSpan {s : State} (ok : s.memOk) {old} : (s.startSpan old).memOk := by
  unfold State.startSpan
  dsimp only
  exact (State.memOk.foldl (fun _ _ ok => ok.coreSpanStart)
      (State.memOk.foldl (fun _ _ ok => ok.imageEvent) ok.beside)).firmwareWork.beside

theorem State.memOk.endSchedule {s : State} (ok : s.memOk) {old} : (s.endSchedule old).memOk := by
  unfold State.endSchedule
  dsimp only
  split
  · exact (State.memOk.foldl (fun _ _ ok => ok.imageEvent) ok.pageOutAll).beside.raiseIrq
  · exact (State.memOk.foldl (fun _ _ ok => ok.imageEvent) ok.pageOutAll).beside

theorem State.memOk.stopJobs {s : State} (ok : s.memOk) {t} : (s.stopJobs t).memOk := by
  unfold State.stopJobs
  dsimp only
  exact (State.memOk.foldl (fun _ _ ok => ok.completeJob) ok).beside

theorem State.memOk.boundaryNow {s : State} (ok : s.memOk) : s.boundaryNow.memOk := by
  unfold State.boundaryNow
  dsimp only
  refine State.memOk.leaveService ?_
  split
  · split
    · exact ok.stopAll.applyControl.applyBlocks.endSchedule.beside.stopJobs
    · exact ok.stopAll.applyControl.applyBlocks.startSpan.beside
  · split
    · exact ok.boundaryFlags.applyControl.applyBlocks.endSchedule.beside.stopJobs
    · exact ok.boundaryFlags.applyControl.applyBlocks.startSpan.beside

theorem State.memOk.boundaryStep {s : State} (ok : s.memOk) : s.boundaryStep.memOk := .ite ok.latchStep.boundaryNow ok

theorem State.memOk.timeConfig {s : State} (ok : s.memOk) {c} : (s.timeConfig c).memOk := by
  unfold State.timeConfig
  dsimp only
  split
  · exact ok.replyErr
  · exact ok.writeTuCtrl.writeTuThresh.writeTbCfg.writeTbCfg.updBase.updBase.replyOk

theorem State.memOk.alignDt {s : State} (ok : s.memOk) : s.alignDt.memOk := by
  unfold State.alignDt
  dsimp only
  exact .ite ok.beside.ppsOutBack (State.memOk.ite ok.beside.ppsOutBack.event ok)

theorem State.memOk.timeAlign {s : State} (ok : s.memOk) {c} : (s.timeAlign c).memOk :=
  .ite ok.replyErr (State.memOk.ite ok.replyErr ok.alignDt.replyOk)

theorem State.memOk.forceRequalify {s : State} (ok : s.memOk) {b} : (s.forceRequalify b).memOk := .ite ok.setBase.event ok

theorem State.memOk.timeSelect {s : State} (ok : s.memOk) {c} : (s.timeSelect c).memOk := by
  unfold State.timeSelect
  dsimp only
  exact .ite ok.replyErr ok.beside.forceRequalify.forceRequalify.forceNote.reselect.replyOk

theorem State.memOk.timeGet {s : State} (ok : s.memOk) {c} : (s.timeGet c).memOk := ok.replyOut

theorem State.memOk.setTrigger {s : State} (ok : s.memOk) {n mode polarity start period width} :
    (s.setTrigger n mode polarity start period width).memOk := by
  unfold State.setTrigger
  dsimp only
  exact ok.updTrig.setPin

theorem State.memOk.timeTrigSet {s : State} (ok : s.memOk) {c} : (s.timeTrigSet c).memOk := by
  unfold State.timeTrigSet
  dsimp only
  split
  · exact .ite ok.replyErr (State.memOk.ite ok.replyErr ok.setTrigger.replyOk)
  · exact ok.replyErr

theorem State.memOk.timeSetTod {s : State} (ok : s.memOk) {c} : (s.timeSetTod c).memOk := by
  unfold State.timeSetTod
  split
  · exact ok.addJob
  · exact ok.addJob
  · exact ok.replyErr

/-! ## Span controller -/

theorem State.memOk.scTouch {s : State} (ok : s.memOk) {off} : (s.scTouch off).memOk := by
  unfold State.scTouch
  dsimp only
  split
  · exact ok.beside
  · exact ok.beside
  · exact ok.beside
  · exact ok.beside
  · split
    · exact ok.beside
    · exact ok

theorem State.memOk.writeScCtrl {s : State} (ok : s.memOk) {v} : (s.writeScCtrl v).memOk := by
  unfold State.writeScCtrl
  dsimp only
  split
  · exact .ite ok.beside.schedBegin.beginStop ok.beside.schedBegin
  · exact .ite ok.beside.beginStop ok.beside

theorem State.memOk.scWrite {s : State} (ok : s.memOk) {off v} : (s.scWrite off v).memOk := by
  unfold State.scWrite
  dsimp only
  split
  · exact ok.writeScCtrl
  · exact ok.beside
  · exact ok.beside
  · split
    · exact ok.beside
    · exact ok

/-! ## Time unit -/

theorem State.memOk.tuTouch {s : State} (ok : s.memOk) {off} : (s.tuTouch off).memOk := by
  unfold State.tuTouch
  dsimp only
  split
  · exact ok.beside
  · exact ok.beside
  · exact ok.beside
  · exact ok.beside
  · exact ok

theorem State.memOk.writeTrigCfg {s : State} (ok : s.memOk) {n v} : (s.writeTrigCfg n v).memOk := by
  unfold State.writeTrigCfg
  dsimp only
  exact .ite ok.updTrig.setTrigger.updTrig ok.updTrig.setTrigger

theorem State.memOk.writeTrig {s : State} (ok : s.memOk) {n k v} : (s.writeTrig n k v).memOk := by
  unfold State.writeTrig
  dsimp only
  split
  · exact ok.writeTrigCfg
  · exact ok.updTrig
  · exact .ite ok.updTrig.updTrig ok.updTrig
  · exact ok.updTrig
  · exact ok.updTrig
  · exact ok

theorem State.memOk.tuWrite {s : State} (ok : s.memOk) {off v} : (s.tuWrite off v).memOk := by
  unfold State.tuWrite
  split
  · exact ok.writeTuCtrl
  · exact ok.writeTuThresh
  · exact ok.writeTbCfg
  · exact ok.writeTbCfg
  · exact ok.updBase
  · exact .ite ok ok.offsetHi
  · exact ok.updBase
  · exact ok.updBase
  · exact .ite ok ok.offsetHi
  · exact ok.updBase
  · split
    · exact ok.writeTrig
    · exact ok

/-! ## Stream manager and buffer pool -/

theorem State.memOk.smTouch {s : State} (ok : s.memOk) {off} : (s.smTouch off).memOk := by
  unfold State.smTouch
  split
  · exact ok.beside
  · exact ok.updChan
  · exact ok

theorem State.memOk.smWrite {s : State} (ok : s.memOk) {off v} : (s.smWrite off v).memOk := by
  unfold State.smWrite
  split
  · exact ok.beside
  · exact ok.beside
  · exact ok

/-! ## Inertial front end -/

theorem State.memOk.ifeTouch {s : State} (ok : s.memOk) {off} : (s.ifeTouch off).memOk := by
  unfold State.ifeTouch
  dsimp only
  split
  · exact ok.beside
  · split
    · split
      · exact ok.updInput
      · exact ok
    · split
      · exact ok.updEnc
      · exact ok

theorem State.memOk.ifeWrite {s : State} (ok : s.memOk) {off v} : (s.ifeWrite off v).memOk := by
  unfold State.ifeWrite
  dsimp only
  split
  · exact .ite (State.memOk.ite ok ok.syncMode).beside (State.memOk.ite ok ok.syncMode)
  · exact ok.beside
  · split
    · exact ok.updEnc
    · exact ok

/-! ## Vision engines -/

theorem State.memOk.visTouch {s : State} (ok : s.memOk) {i off} : (s.visTouch i off).memOk := by
  unfold State.visTouch
  split
  · exact ok.updVis
  · exact ok.updVis
  · exact ok.updVis
  · split
    · exact ok.updVis
    · exact ok

theorem State.memOk.visWrite {s : State} (ok : s.memOk) {i off v} : (s.visWrite i off v).memOk := by
  unfold State.visWrite
  split
  · exact ok.updVis
  · exact ok.updVis
  · exact ok

/-! ## Cores -/

theorem State.memOk.coreTouch {s : State} (ok : s.memOk) {c off} : (s.coreTouch c off).memOk := by
  unfold State.coreTouch
  split
  · exact ok.updCore
  · exact ok.updCore
  · exact ok.updCore
  · exact ok.updCore
  · exact ok.updCore
  · exact ok.updCore
  · exact ok

theorem State.memOk.coreWrite {s : State} (ok : s.memOk) {c off v} : (s.coreWrite c off v).memOk := by
  unfold State.coreWrite
  split
  · exact ok.updCore
  · exact ok.updCore
  · exact ok

/-! ## Field engine -/

theorem State.memOk.fldTouch {s : State} (ok : s.memOk) {off} : (s.fldTouch off).memOk := by
  unfold State.fldTouch
  split
  · exact ok.beside
  · exact ok

theorem State.memOk.fldWrite {s : State} (ok : s.memOk) {off v} : (s.fldWrite off v).memOk := by
  unfold State.fldWrite
  dsimp only
  split
  · split
    · exact (State.memOk.ite ok.beside.dirCommit ok.beside).absentClear
    · exact .ite ok.beside.dirCommit ok.beside
  · exact ok.beside
  · exact ok.beside
  · exact ok

/-! ## Fusion engine -/

theorem State.memOk.fusTouch {s : State} (ok : s.memOk) {off} : (s.fusTouch off).memOk := by
  unfold State.fusTouch
  split
  · exact ok.beside
  · exact ok.beside
  · exact ok

theorem State.memOk.fusWrite {s : State} (ok : s.memOk) {off v} : (s.fusWrite off v).memOk := by
  unfold State.fusWrite
  split
  · exact ok.beside
  · exact ok.beside
  · exact ok.beside
  · exact ok

/-! ## Solver engine -/

theorem State.memOk.slvTouch {s : State} (ok : s.memOk) {off} : (s.slvTouch off).memOk := by
  unfold State.slvTouch
  split
  · exact ok.beside
  · exact ok

theorem State.memOk.slvWrite {s : State} (ok : s.memOk) {off v} : (s.slvWrite off v).memOk := by
  unfold State.slvWrite
  split
  · exact ok.beside.slvServe
  · exact ok.beside
  · exact ok.beside.slvServe
  · exact ok.beside.slvServe
  · exact ok

/-! ## Place search engine -/

theorem State.memOk.psTouch {s : State} (ok : s.memOk) {off} : (s.psTouch off).memOk := by
  unfold State.psTouch
  split
  · exact ok.beside
  · exact ok.beside
  · exact ok

theorem State.memOk.psWrite {s : State} (ok : s.memOk) {off v} : (s.psWrite off v).memOk := by
  unfold State.psWrite
  split
  · exact ok.beside.takeBatch
  · exact ok.beside
  · exact ok

/-! ## DRAM controllers, mover and flash controller -/

theorem State.memOk.dcTouch {s : State} (ok : s.memOk) {off} : (s.dcTouch off).memOk := by
  unfold State.dcTouch
  split
  · exact ok.beside
  · exact ok.beside
  · exact ok.beside
  · exact ok

theorem State.memOk.dcWrite {s : State} (ok : s.memOk) {off v} : (s.dcWrite off v).memOk := by
  unfold State.dcWrite
  split
  · exact ok.beside
  · exact ok.beside
  · exact ok

theorem State.memOk.mvTouch {s : State} (ok : s.memOk) {off} : (s.mvTouch off).memOk := .ite ok.beside ok

theorem State.memOk.mvWrite {s : State} (ok : s.memOk) {off v} : (s.mvWrite off v).memOk := by
  unfold State.mvWrite
  split
  · exact ok.beside
  · exact ok.beside
  · exact ok

theorem State.memOk.fcTouch {s : State} (ok : s.memOk) {off} : (s.fcTouch off).memOk := by
  unfold State.fcTouch
  split
  · exact ok.beside
  · exact ok.beside
  · exact ok

theorem State.memOk.fcWrite {s : State} (ok : s.memOk) {off v} : (s.fcWrite off v).memOk := by
  unfold State.fcWrite
  dsimp only
  split
  · exact ok.beside
  · exact ok.beside
  · exact ok.beside
  · exact ok

/-! ## Power manager -/

theorem State.memOk.pmTouch {s : State} (ok : s.memOk) {off} : (s.pmTouch off).memOk := .ite ok.beside ok

theorem State.memOk.pmWrite {s : State} (ok : s.memOk) {off v} : (s.pmWrite off v).memOk := by
  unfold State.pmWrite
  split
  · exact ok.beside
  · exact ok.beside
  · exact ok.beside
  · exact ok.beside
  · exact ok.beside.clampClocks
  · exact ok.beside.clampClocks
  · exact ok

/-! ## Event recorder -/

theorem State.memOk.recTouch {s : State} (ok : s.memOk) {off} : (s.recTouch off).memOk := by
  unfold State.recTouch
  split
  · exact ok.beside
  · exact ok.beside
  · exact ok.beside
  · exact ok.beside
  · exact ok.beside
  · exact ok

theorem State.memOk.recWrite {s : State} (ok : s.memOk) {off v} : (s.recWrite off v).memOk := by
  unfold State.recWrite
  split
  · exact ok.beside
  · split
    · exact ok.writeWindow
    · exact ok.writeWindow
    · exact ok

/-! ## Slots -/

theorem State.memOk.blockTouch {s : State} (ok : s.memOk) {b off} : (s.blockTouch b off).memOk := by
  unfold State.blockTouch
  split
  · exact ok.scTouch
  · exact ok.tuTouch
  · exact ok.smTouch
  · exact ok
  · exact ok.ifeTouch
  · exact ok.visTouch
  · exact ok.fldTouch
  · exact ok.fusTouch
  · exact ok.slvTouch
  · exact ok.psTouch
  · exact ok.mvTouch
  · exact ok.fcTouch
  · exact ok.pmTouch
  · exact ok.recTouch
  · exact ok
  · exact ok.dcTouch
  · exact ok.coreTouch

theorem State.memOk.blockWrite {s : State} (ok : s.memOk) {b off v} : (s.blockWrite b off v).memOk := by
  unfold State.blockWrite
  split
  · exact ok.scWrite
  · exact ok.tuWrite
  · exact ok.smWrite
  · exact ok
  · exact ok.ifeWrite
  · exact ok.visWrite
  · exact ok.fldWrite
  · exact ok.fusWrite
  · exact ok.slvWrite
  · exact ok.psWrite
  · exact ok.mvWrite
  · exact ok.fcWrite
  · exact ok.pmWrite
  · exact ok.recWrite
  · exact ok
  · exact ok.dcWrite
  · exact ok.coreWrite

theorem State.memOk.unassignedRead {s : State} (ok : s.memOk) {slot off} : (s.unassignedRead slot off).memOk := ok.event

theorem State.memOk.blockRead {s : State} (ok : s.memOk) {slot off} : (s.blockRead slot off).2.memOk := by
  unfold State.blockRead
  split
  · exact ok.blockTouch
  · exact ok.unassignedRead

theorem State.memOk.slotWrite {s : State} (ok : s.memOk) {slot off v} : (s.slotWrite slot off v).memOk := by
  unfold State.slotWrite
  split
  · exact ok.blockWrite
  · exact ok

/-! ## Who reaches them -/

theorem State.memOk.hostRegRead {s : State} (ok : s.memOk) {off} : (s.hostRegRead off).memOk := by
  unfold State.hostRegRead
  dsimp only
  split
  · exact ok
  · split
    · exact ok.refuseFrame.beside
    · split
      · exact ok.refuseFrame.beside
      · exact ok.readBurst.beside

theorem State.memOk.regRead {s : State} (ok : s.memOk) {a} : (s.regRead a).memOk := by
  unfold State.regRead
  dsimp only
  split
  · exact ok.hostRegRead
  · exact .ite ok.blockRead.beside ok

theorem State.memOk.regWrite {s : State} (ok : s.memOk) {a v} : (s.regWrite a v).memOk := by
  unfold State.regWrite
  split
  · exact .ite ok.refuseFrame ok.hostRegWrite
  · exact .ite ok.slotWrite ok

theorem State.memOk.debugAct {s : State} (ok : s.memOk) {cp act} : (s.debugAct cp act).memOk := by
  unfold State.debugAct
  split
  · exact ok
  · split
    · exact ok.beside
    · exact ok.beside
    · exact ok
    · exact ok.slotWrite

theorem State.memOk.sysStatus {s : State} (ok : s.memOk) {c} : (s.sysStatus c).memOk := ok.reply

theorem State.memOk.sysPark {s : State} (ok : s.memOk) {c} : (s.sysPark c).memOk := by
  unfold State.sysPark
  dsimp only
  split
  · exact ok.replyOk.beside
  · exact ok.addJob.beginStop

theorem State.memOk.pwrCap {s : State} (ok : s.memOk) {c} : (s.pwrCap c).memOk := by
  unfold State.pwrCap
  dsimp only
  exact .ite ok.capDone.beside.addJob ok.replyErr

theorem State.memOk.pwrStatus {s : State} (ok : s.memOk) {c} : (s.pwrStatus c).memOk := ok.reply

theorem State.memOk.recSubscribe {s : State} (ok : s.memOk) {c} : (s.recSubscribe c).memOk :=
  .ite ok.replyErr (ok.updMbx fun _ ok => by exact ok).replyOk

theorem State.memOk.recRead {s : State} (ok : s.memOk) {c} : (s.recRead c).memOk := by
  unfold State.recRead
  split
  · exact ok.replyOut
  · split
    · exact ok.replyOut
    · exact ok.replyErr

theorem State.memOk.readSlot {slot n : Nat} : ∀ {s : State}, s.memOk → ∀ {off}, (State.readSlot slot n off s).2.memOk := by
  induction n with
  | zero => exact fun ok => ok
  | succ n ih =>
    intro s ok off
    unfold State.readSlot
    exact ih ok.blockRead

theorem State.memOk.diagReadBlock {s : State} (ok : s.memOk) {c} : (s.diagReadBlock c).memOk := by
  unfold State.diagReadBlock
  dsimp only
  exact .ite ok.replyErr ok.readSlot.replyOut

end Sys2Proof.Machine
end

section
set_option Elab.async false
/-!
PROOFS. Every step keeps every memory canonical: the instructions, each by the lemma about its meaning.
-/
namespace Sys2Proof.Machine

theorem next_memOk {u t : State} (ok : u.memOk) (run : (.next u : Host.Outcome State Fault Refusal) = .next t) : t.memOk := by
  cases run
  exact ok

/-! ## Meanings written out in their instruction -/

theorem State.memOk.execFldAdam {s t : State} (ok : s.memOk) {chk : Check} (run : Machine.execFldAdam chk s = .next t) : t.memOk := by
  refine next_memOk (ok.tryIssue fun n u ok => ?_) run
  have checked : (u.engineCheck .fld chk).2.memOk := ok.engineCheck
  generalize u.engineCheck .fld chk = found at checked ⊢
  obtain ⟨_ | unit, v⟩ := found
  · dsimp only
    exact State.memOk.startOp checked
  · dsimp only
    exact (State.memOk.adamEnd (State.memOk.fldMismatch (State.memOk.drawBelow checked))).setOnDone

theorem State.memOk.execSlvWindow {s t : State} (ok : s.memOk) (run : Machine.execSlvWindow s = .next t) : t.memOk :=
  next_memOk (ok.tryIssue fun _ _ ok => ok.startOp.slvStart) run

theorem State.memOk.execPsService {s t : State} (ok : s.memOk) (run : Machine.execPsService s = .next t) : t.memOk := by
  refine next_memOk (ok.tryIssue fun n u ok => ?_) run
  extract_lets started ps opened
  have openedOk : opened.memOk := ok.startOp.expireAll.beside
  exact State.memOk.ite (State.memOk.ite openedOk.spillAll openedOk).takeBatch openedOk

theorem State.memOk.execPsQueryExpired {s t : State} (ok : s.memOk) {q : Nat} (run : Machine.execPsQueryExpired q s = .next t) :
    t.memOk := by
  refine next_memOk ?_ run
  split
  · exact State.memOk.ite ok.expireQuery.takeBatch ok
  · exact ok

theorem State.memOk.execMvWindow {s t : State} (ok : s.memOk) (run : Machine.execMvWindow s = .next t) : t.memOk :=
  next_memOk (ok.tryIssue fun _ _ ok => ok.startOp.beside) run

/-! ## Every instruction -/

theorem State.memOk.exec {s t : State} (ok : s.memOk) {i : Instr} (run : Machine.exec i s = .next t) : t.memOk := by
  cases i with
  | write f => exact next_memOk ok.writeFrame run
  | read f staged => exact next_memOk ok.readFrame run
  | readId => exact next_memOk ok.bareFrame run
  | wake => exact next_memOk ok.bareFrame run
  | portReset => exact next_memOk ok.bareFrame run
  | hostPortModeWrite v => exact next_memOk ok.hostRegWrite run
  | mbxDoorbellWrite n v => exact next_memOk ok.hostRegWrite run
  | mbxCopy n => exact next_memOk ok.copyRing run
  | cqHeadWrite n v => exact next_memOk ok.hostRegWrite run
  | irqStatusWrite v => exact next_memOk ok.hostRegWrite run
  | registerWrite a v => exact next_memOk ok.regWrite run
  | rcFieldRead a => exact next_memOk ok.regRead run
  | latchingLoRead a => exact next_memOk ok.regRead run
  | sysNop e => exact next_memOk (ok.serve fun _ _ ok => ok.replyOk) run
  | sysStatus e => exact next_memOk (ok.serve fun _ _ ok => ok.sysStatus) run
  | sysReset e => exact next_memOk (ok.serve fun _ _ ok => ok.sysReset) run
  | sysResetDelayExpiry => exact next_memOk ok.resetDelayOver run
  | sysPark e => exact next_memOk (ok.serve fun _ _ ok => ok.sysPark) run
  | parkEntry => exact next_memOk ok.park run
  | wakeComplete => exact next_memOk ok.wakeUp run
  | schedLoad e => exact next_memOk (ok.serve fun _ _ ok => ok.schedLoad) run
  | schedStart e => exact next_memOk (ok.serve fun _ _ ok => ok.schedStart) run
  | schedStop e => exact next_memOk (ok.serve fun _ _ ok => ok.schedStop) run
  | schedSelect e => exact next_memOk (ok.serve fun _ _ ok => ok.schedSelect) run
  | schedUnload e => exact next_memOk (ok.serve fun _ _ ok => ok.schedUnload) run
  | schedStatus e => exact next_memOk (ok.serve fun _ _ ok => ok.schedStatus) run
  | partGrant e => exact next_memOk (ok.serve fun _ _ ok => ok.partGrant) run
  | partRelease e => exact next_memOk (ok.serve fun _ _ ok => ok.partRelease) run
  | partStatus e => exact next_memOk (ok.serve fun _ _ ok => ok.partStatus) run
  | partScrubDone p => exact next_memOk ok.scrubDone run
  | keyRotate e => exact next_memOk (ok.serve fun _ _ ok => ok.rotateKey) run
  | keyStatus e => exact next_memOk (ok.serve fun _ _ ok => ok.keyStatus) run
  | attestReport e => exact next_memOk (ok.serve fun _ _ ok => ok.attest) run
  | attestCerts e => exact next_memOk (ok.serve fun _ _ ok => ok.attestCerts) run
  | fwWrite e => exact next_memOk (ok.serve fun _ _ ok => ok.fwWrite) run
  | fwActivate e => exact next_memOk (ok.serve fun _ _ ok => ok.fwActivate) run
  | fwStatus e => exact next_memOk (ok.serve fun _ _ ok => ok.fwStatus) run
  | pwrCap e => exact next_memOk (ok.serve fun _ _ ok => ok.pwrCap) run
  | pwrStatus e => exact next_memOk (ok.serve fun _ _ ok => ok.pwrStatus) run
  | recSubscribe e => exact next_memOk (ok.serve fun _ _ ok => ok.recSubscribe) run
  | recRead e => exact next_memOk (ok.serve fun _ _ ok => ok.recRead) run
  | diagEcho e => exact next_memOk (ok.serve fun _ _ ok => ok.replyOut) run
  | diagReadBlock e => exact next_memOk (ok.serve fun _ _ ok => ok.diagReadBlock) run
  | streamConfig e => exact next_memOk (ok.serve fun _ _ ok => ok.configStream) run
  | streamCommit e => exact next_memOk (ok.serve fun _ _ ok => ok.commitStreams) run
  | streamStatus e => exact next_memOk (ok.serve fun _ _ ok => ok.streamStatus) run
  | streamIfeConfig e => exact next_memOk (ok.serve fun _ _ ok => ok.configInput) run
  | streamSync e => exact next_memOk (ok.serve fun _ _ ok => ok.addJob) run
  | streamSyncMode e => exact next_memOk (ok.serve fun _ _ ok => State.memOk.ite ok.addJob ok.replyErr) run
  | timeConfig e => exact next_memOk (ok.serve fun _ _ ok => ok.timeConfig) run
  | timeAlign e => exact next_memOk (ok.serve fun _ _ ok => ok.timeAlign) run
  | timeSelect e => exact next_memOk (ok.serve fun _ _ ok => ok.timeSelect) run
  | timeGet e => exact next_memOk (ok.serve fun _ _ ok => ok.timeGet) run
  | timeTrigSet e => exact next_memOk (ok.serve fun _ _ ok => ok.timeTrigSet) run
  | timeSetTod e => exact next_memOk (ok.serve fun _ _ ok => ok.timeSetTod) run
  | poseInit e => exact next_memOk (ok.serve fun _ _ ok => ok.poseInit) run
  | poseAlignDone => exact next_memOk ok.alignDone run
  | poseConfig e => exact next_memOk (ok.serve fun _ _ ok => ok.poseConfig) run
  | poseSubscribe e => exact next_memOk (ok.serve fun _ _ ok => ok.poseSubscribe) run
  | poseGet e => exact next_memOk (ok.serve fun _ _ ok => ok.poseGet) run
  | trackRead e => exact next_memOk (ok.serve fun _ _ ok => ok.trackRead) run
  | trackDelete e => exact next_memOk (ok.serve fun _ _ ok => ok.trackDelete) run
  | trackList e => exact next_memOk (ok.serve fun _ _ ok => ok.trackList) run
  | mapConfig e => exact next_memOk (ok.serve fun _ _ ok => ok.mapConfig) run
  | mapTrain e => exact next_memOk (ok.serve fun _ _ ok => ok.mapTrain) run
  | mapAcreDelete e => exact next_memOk (ok.serve fun _ _ ok => ok.mapAcreDelete) run
  | mapStatus e => exact next_memOk (ok.serve fun _ _ ok => ok.mapStatus) run
  | placeCreate e => exact next_memOk (ok.serve fun _ _ ok => ok.placeCreate) run
  | placeQuery e => exact next_memOk (ok.serve fun _ _ ok => ok.placeQuery) run
  | placeInsert e => exact next_memOk (ok.serve fun _ _ ok => ok.placeInsert) run
  | placeDelete e => exact next_memOk (ok.serve fun _ _ ok => ok.placeDelete) run
  | placeCompact e => exact next_memOk (ok.serve fun _ _ ok => ok.placeCompact) run
  | placeDestroy e => exact next_memOk (ok.serve fun _ _ ok => ok.placeDestroy) run
  | placeStatus e => exact next_memOk (ok.serve fun _ _ ok => ok.placeStatus) run
  | sceneLastSeen e => exact next_memOk (ok.serve fun _ _ ok => ok.sceneLastSeen) run
  | sceneResemble e => exact next_memOk (ok.serve fun _ _ ok => ok.sceneResemble) run
  | sceneInRegion e => exact next_memOk (ok.serve fun _ _ ok => ok.sceneInRegion) run
  | modelLoad e => exact next_memOk (ok.serve fun _ _ ok => ok.loadPiece) run
  | modelInfo e => exact next_memOk (ok.serve fun _ _ ok => ok.modelInfo) run
  | objLoad e => exact next_memOk (ok.serve fun _ _ ok => ok.loadPiece) run
  | objPlace e => exact next_memOk (ok.serve fun _ _ ok => ok.objPlace) run
  | objPromote e => exact next_memOk (ok.serve fun _ _ ok => ok.objPromote) run
  | objPin e => exact next_memOk (ok.serve fun _ _ ok => ok.objPin) run
  | objUnpin e => exact next_memOk (ok.serve fun _ _ ok => ok.objUnpin) run
  | objEvict e => exact next_memOk (ok.serve fun _ _ ok => ok.objEvict) run
  | objUnload e => exact next_memOk (ok.serve fun _ _ ok => ok.objUnload) run
  | objStatus e => exact next_memOk (ok.serve fun _ _ ok => ok.objStatus) run
  | nop t' => exact next_memOk ok.commonOp run
  | waitOp t' => exact next_memOk ok.commonOp run
  | setf t' => exact next_memOk ok.commonOp run
  | barrier t' => exact next_memOk ok.barrierOp run
  | dma t' chk => exact next_memOk ok.dmaOp run
  | endOp t' => exact next_memOk ok.commonOp run
  | opComplete t' u => exact next_memOk ok.opComplete run
  | opVoidSkip t' => exact next_memOk ok.skipStep run
  | schedOverrun t' => exact next_memOk ok.overrunBy run
  | ballastRampStart => exact next_memOk ok.ballastRamp run
  | schedLatch => exact next_memOk ok.latchStep run
  | spanBoundary => exact next_memOk ok.boundaryStep run
  | timeCycle n => exact next_memOk ok.timeCycles run
  | tbOffsetHiWrite b v => exact next_memOk (State.memOk.ite ok ok.offsetHi) run
  | baseTimeout b => exact next_memOk ok.baseTimeout run
  | ppsInEdge => exact next_memOk ok.ppsEdge run
  | ppsLost => exact next_memOk ok.ppsLoss run
  | trigPulseStart n => exact next_memOk ok.trigStart run
  | trigPulseEnd n => exact next_memOk ok.trigEnd run
  | ppsOutEdge => exact next_memOk ok.ppsOutEdge run
  | ppsOutEnd => exact next_memOk ok.ppsOutDone run
  | ethFrameReceive p frame fcsOk => exact next_memOk ok.ethReceive run
  | bridgeForward p frame residence => exact next_memOk ok.bridge run
  | csi2FrameStart g vc => exact next_memOk (State.memOk.ite ok.csiStart ok) run
  | csi2LongPacket g vc dataType data link => exact next_memOk (State.memOk.ite ok.csiPacket ok) run
  | csi2FrameEnd g vc => exact next_memOk (State.memOk.ite ok.csiEnd ok) run
  | drdyEdge line rising => exact next_memOk (State.memOk.ite ok.drdy ok) run
  | spiPollPeriod ch => exact next_memOk (State.memOk.ite ok.spiPoll ok) run
  | spiTransactionDone ctl data => exact next_memOk (State.memOk.ite ok.spiDone ok) run
  | ifeRecordComplete n => exact next_memOk ok.ifeRecord run
  | syncInRise => exact next_memOk (State.memOk.ite ok.syncRise ok.beside) run
  | syncInRelease => exact next_memOk (State.memOk.ite ok ok.syncRelease) run
  | ifeSyncStuck => exact next_memOk ok.syncStuck run
  | encTransition e a b => exact next_memOk ok.encTransition run
  | encZEdge e => exact next_memOk ok.encIndex run
  | encSample e => exact next_memOk ok.encSampleStep run
  | encRecordComplete e => exact next_memOk ok.encRecord run
  | take p => exact next_memOk ok.takeOp run
  | release p => exact next_memOk ok.releaseOp run
  | ifeEmit => exact next_memOk (ok.tryIssue fun _ _ ok => ok.emitStart) run
  | pwWarp => exact next_memOk (ok.tryIssue fun _ _ ok => ok.warpOp) run
  | pwPyramid => exact next_memOk (ok.tryIssue fun _ _ ok => ok.pyramidOp) run
  | feDetect => exact next_memOk (ok.tryIssue fun _ _ ok => ok.detectOp) run
  | trkRun => exact next_memOk (ok.tryIssue fun _ _ ok => ok.trackOp) run
  | fthStripe => exact next_memOk (ok.tryIssue fun _ _ ok => ok.stripeOp) run
  | arrMm c chk => exact next_memOk ok.arrOp run
  | arrConv c chk => exact next_memOk ok.arrOp run
  | vecOp c chk => exact next_memOk ok.vectorOp run
  | fldRays chk => exact next_memOk (ok.fldIssue fun _ _ ok => ok.raysOp) run
  | fldGather chk => exact next_memOk (ok.fldIssue fun _ _ ok => ok.gather) run
  | fldComposite chk => exact next_memOk (ok.fldIssue fun _ _ ok => ok.composite) run
  | fldScatter chk => exact next_memOk (ok.fldIssue fun _ _ ok => ok.scatter) run
  | fldAdam chk => exact ok.execFldAdam run
  | fldCompare chk => exact next_memOk (ok.fldIssue fun _ _ ok => ok.compareOp) run
  | fldReplay chk => exact next_memOk (ok.fldIssue fun _ _ ok => ok.replay) run
  | fldSlotFill => exact next_memOk (ok.fldIssue fun _ _ ok => ok.slotFill) run
  | fldDirCommit => exact next_memOk ok.dirCommit run
  | fldAbsentClear => exact next_memOk ok.absentClear run
  | fusInertial => exact next_memOk ok.bindRing run
  | inertialRecordPropagate n chk => exact next_memOk ok.takeRecord run
  | fusUpdate chk => exact next_memOk (ok.fusIssue fun _ _ ok => ok.startOp) run
  | fusTrackReq => exact next_memOk (ok.fusIssue fun _ _ ok => ok.trackReqOp) run
  | fusSeed => exact next_memOk (ok.fusIssue fun _ _ ok => ok.startOp) run
  | fusProject => exact next_memOk (ok.fusIssue fun _ _ ok => ok.projectOp) run
  | fusVote => exact next_memOk (ok.fusIssue fun _ _ ok => ok.startOp) run
  | fusReprop chk => exact next_memOk (ok.fusIssue fun _ _ ok => ok.startOp) run
  | fusPage => exact next_memOk (ok.fusIssue fun _ _ ok => ok.startOp) run
  | fusAnchor => exact next_memOk (ok.fusIssue fun _ _ ok => ok.startOp) run
  | poseGapExpiry => exact next_memOk ok.gapExpire run
  | mportCsFall => exact next_memOk ok.mportFall run
  | mportReadPose n => exact next_memOk ok.mportReply run
  | mportReadId n => exact next_memOk ok.mportReply run
  | mportOtherCommand op n => exact next_memOk (State.memOk.ite ok ok.mportReply) run
  | mportCsRise => exact next_memOk ok.mportRise run
  | slvWindow => exact ok.execSlvWindow run
  | slvService => exact next_memOk (ok.tryIssue fun _ _ ok => ok.startOp.slvServe) run
  | slvCommit => exact next_memOk (ok.tryIssue fun _ _ ok => ok.startOp) run
  | slvIterationEnd chk => exact next_memOk ok.slvIterationEnd run
  | slvDeadlineMiss => exact next_memOk ok.slvMiss run
  | slvWindowEnd => exact next_memOk ok.slvWindowEnd run
  | psService => exact ok.execPsService run
  | psFile => exact next_memOk (ok.tryIssue fun _ _ ok => ok.startOp) run
  | psWindowEnd => exact next_memOk ok.psWindowEnd run
  | psFlashBlocksLanded q bad => exact next_memOk ok.blocksLanded run
  | psQueryComplete q chk => exact next_memOk ok.queryDone run
  | psQueryExpired q => exact ok.execPsQueryExpired run
  | psInsertDone i chk => exact next_memOk ok.insertDone run
  | mvWindow => exact ok.execMvWindow run
  | moverTransferDone => exact next_memOk ok.transferDone run
  | flashReadComplete r => exact next_memOk ok.readDone run
  | flashProgramComplete ok' => exact next_memOk ok.programDone run
  | flashBackgroundRelocate die block => exact next_memOk ok.relocate run
  | flashSpareLow => exact next_memOk ok.spareLow run
  | patrolScrubStep e => exact next_memOk ok.scrubStep run
  | pmbusPoll answered mv ma => exact next_memOk ok.pmbusPoll run
  | thermalConversion n t' => exact next_memOk ok.conversion run
  | pwrThermRelease => exact next_memOk ok.thermRelease run
  | pwrLimitAssert => exact next_memOk ok.limitAssert run
  | pwrLimitRelease => exact next_memOk ok.limitRelease run
  | pwrMonAlarm m => exact next_memOk ok.monitorAlarm run
  | pwrMarginTrim => exact next_memOk ok.marginTrim run
  | linkCrcMismatch link => exact next_memOk ok.linkMismatch run
  | faultFwPanic cp code => exact next_memOk (State.memOk.ite ok.fatal ok) run
  | recFwStage cp v => exact next_memOk (State.memOk.ite ok.writeWindow ok) run
  | eventRecordWrite chk => exact next_memOk ok.recorderStep run
  | recArchived => exact next_memOk ok.archiveRing run
  | poresetAssert => exact next_memOk ok.poresetFall run
  | poresetRelease bootSrc => exact next_memOk ok.poresetRise run
  | hostPortReady => exact next_memOk ok.portAnswers run
  | bootRomDone pmbusAck rngOk => exact next_memOk ok.bootRomEnds run
  | dramInitDone => exact next_memOk ok.dramReady run
  | firmwareVerified => exact next_memOk ok.verifyFirmware run
  | enterReady => exact next_memOk ok.reachReady run
  | sysresetAssert => exact next_memOk ok.sysresetFall run
  | sysresetRelease => exact next_memOk ok.sysresetRise run
  | watchdogRefresh cp => exact next_memOk ok.watchdogRefresh run
  | watchdogExpiry cp => exact next_memOk ok.watchdogExpiry run
  | railPowerLoss => exact next_memOk ok.powerLoss run
  | railPowerUp => exact next_memOk ok.powerUp run
  | jtagChallengeRead => exact next_memOk ok.readChallenge run
  | debugTokenWrite token => exact next_memOk ok.writeToken run
  | graphScheduleCompiled => exact next_memOk ok.graphCompiled run
  | debugHaltAndStep cp act => exact next_memOk ok.debugAct run

end Sys2Proof.Machine
open Sys2Proof Sys2Proof.Machine

/-- Settles O59, by cases on the command at the front: every function that it runs keeps the form, and an empty queue idles. -/
theorem memoriesStayCanonical : Obligations.MemoriesStayCanonical := by
  unfold Obligations.MemoriesStayCanonical
  intro s t ok run
  unfold step at run
  split at run
  · exact next_memOk ok run
  · exact State.memOk.exec (State.memOk.beside ok) run

end
